-- ==== Sys2Proof/Syntax.lean ====
section
/-! DEFINITION. The syntax of the machine: one constructor of `Instr` for every row of spec/opcode_table.json.
246 of them are instruction encodings (R29 to R62); the other 125 are the package's events, which have
no encoding and no operands of their own (`EventArgs`, in the state): each is one whole, indivisible step of the package (spec/95_what_each_step_holds.md). -/

namespace Sys2Proof

/-- R38: the 3-bit type code T. -/
inductive Ty where
  | i32 | n32 | f32 | f16x2 | bf16x2 | f64 | i16x2 | i8x4
  deriving DecidableEq, Repr

/-- R40: the guard field: 0-11 a predicate, 15 unguarded; `sense` is bit [47]. -/
structure Guard where
  pred  : BitVec 4
  sense : Bool
  deriving DecidableEq, Repr

/-- R40: vd, va, vb of an L64 register form. -/
structure Lane3 where
  vd : BitVec 6
  va : BitVec 6
  vb : BitVec 6
  ty : Ty
  guard : Guard
  deriving DecidableEq, Repr

/-- R41: the immediate form, imm16 in place of vb. -/
structure Lane3I where
  vd : BitVec 6
  va : BitVec 6
  imm : BitVec 16
  ty : Ty
  guard : Guard
  deriving DecidableEq, Repr

/-- R48: the short form S32, which reaches v0-v31. -/
structure Lane3S where
  vd : BitVec 5
  va : BitVec 5
  vb : BitVec 5
  ty : Ty
  deriving DecidableEq, Repr

/-- R40: a one-source L64 form. -/
structure Lane2 where
  vd : BitVec 6
  va : BitVec 6
  ty : Ty
  guard : Guard
  deriving DecidableEq, Repr

/-- R48: a one-source short form. -/
structure Lane2S where
  vd : BitVec 5
  va : BitVec 5
  ty : Ty
  deriving DecidableEq, Repr

/-- R40: a three-source L64 form. -/
structure Lane4 where
  vd : BitVec 6
  va : BitVec 6
  vb : BitVec 6
  vc : BitVec 6
  ty : Ty
  guard : Guard
  deriving DecidableEq, Repr

/-- R41: a three-source form whose second source is the immediate. -/
structure Lane4I where
  vd : BitVec 6
  va : BitVec 6
  imm : BitVec 16
  vc : BitVec 6
  ty : Ty
  guard : Guard
  deriving DecidableEq, Repr

/-- R45: the common fields of a lane memory instruction; `vo` is the offset register, or the pitch x register of `lldt`. -/
structure LaneMem where
  vd : BitVec 6
  xb : BitVec 6
  vo : BitVec 6
  space : BitVec 3
  size : BitVec 2
  sx : Bool
  guard : Guard
  deriving DecidableEq, Repr

/-- R47, R283: the common fields of a matrix job. -/
structure MatJob where
  xd : BitVec 6
  a : BitVec 6
  b : BitVec 6
  acc : BitVec 4
  scope : BitVec 3
  notify : Bool
  deriving DecidableEq, Repr

/-- R51: the modes of a PX word. -/
structure PxModes where
  rm : BitVec 3
  sat : BitVec 2
  fsi : Bool
  fso : Bool
  deriving DecidableEq, Repr

/-- R89: where one core group of a placement unit goes: a core position and its hart slots. -/
structure Place where
  core : Nat
  slots : List Nat
  deriving DecidableEq, Repr

/-- R395, R415, R423: what every command from the host carries: its number, the reserved bits [127:72] of the
mailbox command, whether it came over the management channel (which carries no number), and else the CXL port (R12). -/
structure Msg where
  hnum : BitVec 64
  rsv : BitVec 56
  mgmt : Bool
  port : Nat
  deriving DecidableEq, Repr

/-- R385: the structure in which a check code finds an error. Cores and slots are physical positions (R25). -/
inductive ErrorSite where
  | hartState (h : Nat)
  | scratchBank (core bank : Nat)
  | laneL1 (core line : Nat)
  | icacheLine (core line : Nat)
  | tlbEntry (core : Nat)
  | hartCache (core part line : Nat)
  | llcData (part line : Nat)
  | tile (cl part acc : Nat)
  | barrierUnit (cl part : Nat)
  | jobEntry (cl slot : Nat)
  | hbmLine (part line : Nat)
  | flit (link : Nat)
  | matrixColumn (cl slot : Nat)
  /-- R385, R387: a tag entry of a slice's set. -/
  | llcTag (slice set : Nat)
  /-- R20: an entry of a cluster's, or of a die's, TLB. -/
  | clusterTlb (cl : Nat)
  | dieTlb (die : Nat)
  /-- R354: a fatal error of a die. -/
  | die (d : Nat)
  deriving DecidableEq, Repr

/-- R389, R391: a unit that has spares or can retire. -/
inductive HwUnit where
  | core (pos : Nat)
  | pseudoChannel (stack chan : Nat)
  | link (n : Nat)
  | column (cl : Nat)
  | die (d : Nat)
  | stack (n : Nat)
  /-- R385: what has no spare: an LLC slice (die * 64 + slice), a cluster's shared units, a die's TLB. -/
  | slice (place : Nat)
  | cluster (cl : Nat)
  | tlb (die : Nat)
  deriving DecidableEq, Repr

/-- R351: one direction of a UCIe link, or (from 14 on) of a Cobalt port. -/
structure LinkDir where
  link : Nat
  outward : Bool
  deriving DecidableEq, Repr

/-- R413, R422: an access from outside: an address, a size in bytes and, for a write, the value. -/
structure HostAccess where
  addr : Nat
  size : Nat
  write : Option (BitVec 1024)
  deriving DecidableEq, Repr

/-- The operands of an event: what the rows without an encoding take, since a constructor of `Instr` for an event
carries none. Each event's meaning says which it reads: `nats` by position, the flags, and the structured ones. -/
structure EventArgs where
  nats : List Nat := []
  ok : Bool := false
  ok2 : Bool := false
  places : List (List Place) := []
  site : ErrorSite := .tlbEntry 0
  unit : HwUnit := .die 0
  link : LinkDir := ⟨0, false⟩
  access : HostAccess := ⟨0, 0, none⟩
  msg : Msg := ⟨0, 0, false, 0⟩
  data : BitVec 1024 := 0
  deriving DecidableEq, Repr

/-- The i-th numeric operand of an event; 0 where it has fewer. -/
def EventArgs.nat (a : EventArgs) (i : Nat) : Nat := a.nats.getD i 0

/-- Every row of the opcode table. The constructors with operands come first. -/
inductive Instr where
  | lui (rd : BitVec 5) (imm : BitVec 20)   -- LUI (R61)
  | auipc (rd : BitVec 5) (imm : BitVec 20)   -- AUIPC (R61)
  | jal (rd : BitVec 5) (off : BitVec 20)   -- JAL (R27)
  | jalr (rd rs1 : BitVec 5) (imm : BitVec 12)   -- JALR (R27)
  | beq (rs1 rs2 : BitVec 5) (off : BitVec 12)   -- BEQ (R61)
  | bne (rs1 rs2 : BitVec 5) (off : BitVec 12)   -- BNE (R61)
  | blt (rs1 rs2 : BitVec 5) (off : BitVec 12)   -- BLT (R61)
  | bge (rs1 rs2 : BitVec 5) (off : BitVec 12)   -- BGE (R61)
  | bltu (rs1 rs2 : BitVec 5) (off : BitVec 12)   -- BLTU (R61)
  | bgeu (rs1 rs2 : BitVec 5) (off : BitVec 12)   -- BGEU (R61)
  | lb (rd rs1 : BitVec 5) (imm : BitVec 12)   -- LB (R65)
  | lh (rd rs1 : BitVec 5) (imm : BitVec 12)   -- LH (R66)
  | lw (rd rs1 : BitVec 5) (imm : BitVec 12)   -- LW (R66)
  | ld (rd rs1 : BitVec 5) (imm : BitVec 12)   -- LD (R66)
  | lbu (rd rs1 : BitVec 5) (imm : BitVec 12)   -- LBU (R65)
  | lhu (rd rs1 : BitVec 5) (imm : BitVec 12)   -- LHU (R66)
  | lwu (rd rs1 : BitVec 5) (imm : BitVec 12)   -- LWU (R66)
  | sb (rs1 rs2 : BitVec 5) (imm : BitVec 12)   -- SB (R65)
  | sh (rs1 rs2 : BitVec 5) (imm : BitVec 12)   -- SH (R66)
  | sw (rs1 rs2 : BitVec 5) (imm : BitVec 12)   -- SW (R66)
  | sd (rs1 rs2 : BitVec 5) (imm : BitVec 12)   -- SD (R66)
  | addi (rd rs1 : BitVec 5) (imm : BitVec 12)   -- ADDI (R61)
  | slti (rd rs1 : BitVec 5) (imm : BitVec 12)   -- SLTI (R61)
  | sltiu (rd rs1 : BitVec 5) (imm : BitVec 12)   -- SLTIU (R61)
  | xori (rd rs1 : BitVec 5) (imm : BitVec 12)   -- XORI (R61)
  | ori (rd rs1 : BitVec 5) (imm : BitVec 12)   -- ORI (R61)
  | andi (rd rs1 : BitVec 5) (imm : BitVec 12)   -- ANDI (R61)
  | slli (rd rs1 : BitVec 5) (amt : BitVec 6)   -- SLLI (R61)
  | srli (rd rs1 : BitVec 5) (amt : BitVec 6)   -- SRLI (R61)
  | srai (rd rs1 : BitVec 5) (amt : BitVec 6)   -- SRAI (R61)
  | addiw (rd rs1 : BitVec 5) (imm : BitVec 12)   -- ADDIW (R61)
  | slliw (rd rs1 amt : BitVec 5)   -- SLLIW (R61)
  | srliw (rd rs1 amt : BitVec 5)   -- SRLIW (R61)
  | sraiw (rd rs1 amt : BitVec 5)   -- SRAIW (R61)
  | add (rd rs1 rs2 : BitVec 5)   -- ADD (R61)
  | sub (rd rs1 rs2 : BitVec 5)   -- SUB (R61)
  | sll (rd rs1 rs2 : BitVec 5)   -- SLL (R61)
  | slt (rd rs1 rs2 : BitVec 5)   -- SLT (R61)
  | sltu (rd rs1 rs2 : BitVec 5)   -- SLTU (R61)
  | xor (rd rs1 rs2 : BitVec 5)   -- XOR (R61)
  | srl (rd rs1 rs2 : BitVec 5)   -- SRL (R61)
  | sra (rd rs1 rs2 : BitVec 5)   -- SRA (R61)
  | or (rd rs1 rs2 : BitVec 5)   -- OR (R61)
  | and (rd rs1 rs2 : BitVec 5)   -- AND (R61)
  | mul (rd rs1 rs2 : BitVec 5)   -- MUL (R61)
  | mulh (rd rs1 rs2 : BitVec 5)   -- MULH (R61)
  | mulhsu (rd rs1 rs2 : BitVec 5)   -- MULHSU (R61)
  | mulhu (rd rs1 rs2 : BitVec 5)   -- MULHU (R61)
  | div (rd rs1 rs2 : BitVec 5)   -- DIV (R62)
  | divu (rd rs1 rs2 : BitVec 5)   -- DIVU (R62)
  | rem (rd rs1 rs2 : BitVec 5)   -- REM (R62)
  | remu (rd rs1 rs2 : BitVec 5)   -- REMU (R62)
  | addw (rd rs1 rs2 : BitVec 5)   -- ADDW (R61)
  | subw (rd rs1 rs2 : BitVec 5)   -- SUBW (R61)
  | sllw (rd rs1 rs2 : BitVec 5)   -- SLLW (R61)
  | srlw (rd rs1 rs2 : BitVec 5)   -- SRLW (R61)
  | sraw (rd rs1 rs2 : BitVec 5)   -- SRAW (R61)
  | mulw (rd rs1 rs2 : BitVec 5)   -- MULW (R61)
  | divw (rd rs1 rs2 : BitVec 5)   -- DIVW (R62)
  | divuw (rd rs1 rs2 : BitVec 5)   -- DIVUW (R62)
  | remw (rd rs1 rs2 : BitVec 5)   -- REMW (R62)
  | remuw (rd rs1 rs2 : BitVec 5)   -- REMUW (R62)
  | lr (rd rs1 : BitVec 5) (aq rl dbl : Bool)   -- LR (R68)
  | sc (rd rs1 rs2 : BitVec 5) (aq rl dbl : Bool)   -- SC (R68)
  | amoswap (rd rs1 rs2 : BitVec 5) (aq rl dbl : Bool)   -- AMOSWAP (R67)
  | amoadd (rd rs1 rs2 : BitVec 5) (aq rl dbl : Bool)   -- AMOADD (R67)
  | amoxor (rd rs1 rs2 : BitVec 5) (aq rl dbl : Bool)   -- AMOXOR (R67)
  | amoand (rd rs1 rs2 : BitVec 5) (aq rl dbl : Bool)   -- AMOAND (R67)
  | amoor (rd rs1 rs2 : BitVec 5) (aq rl dbl : Bool)   -- AMOOR (R67)
  | amomin (rd rs1 rs2 : BitVec 5) (aq rl dbl : Bool)   -- AMOMIN (R67)
  | amomax (rd rs1 rs2 : BitVec 5) (aq rl dbl : Bool)   -- AMOMAX (R67)
  | amominu (rd rs1 rs2 : BitVec 5) (aq rl dbl : Bool)   -- AMOMINU (R67)
  | amomaxu (rd rs1 rs2 : BitVec 5) (aq rl dbl : Bool)   -- AMOMAXU (R67)
  | fence (tso : Bool) (pred succ : BitVec 4)   -- FENCE (R64)
  | sfenceVma (rs1 rs2 : BitVec 5)   -- SFENCE_VMA (R80)
  | csrrw (rd rs1 : BitVec 5) (csr : BitVec 12)   -- CSRRW (R35)
  | csrrs (rd rs1 : BitVec 5) (csr : BitVec 12)   -- CSRRS (R35)
  | csrrc (rd rs1 : BitVec 5) (csr : BitVec 12)   -- CSRRC (R35)
  | csrrwi (rd uimm : BitVec 5) (csr : BitVec 12)   -- CSRRWI (R35)
  | csrrsi (rd uimm : BitVec 5) (csr : BitVec 12)   -- CSRRSI (R35)
  | csrrci (rd uimm : BitVec 5) (csr : BitVec 12)   -- CSRRCI (R35)
  | ladd (f : Lane3)   -- LADD (R239)
  | laddImm (f : Lane3I)   -- LADD_IMM (R239)
  | laddS32 (f : Lane3S)   -- LADD_S32 (R239)
  | lsub (f : Lane3)   -- LSUB (R239)
  | lsubImm (f : Lane3I)   -- LSUB_IMM (R239)
  | lsubS32 (f : Lane3S)   -- LSUB_S32 (R239)
  | lmul (f : Lane3)   -- LMUL (R239)
  | lmulImm (f : Lane3I)   -- LMUL_IMM (R239)
  | lmulS32 (f : Lane3S)   -- LMUL_S32 (R239)
  | lmulh (f : Lane3)   -- LMULH (R239)
  | lmulhImm (f : Lane3I)   -- LMULH_IMM (R239)
  | lmulhS32 (f : Lane3S)   -- LMULH_S32 (R239)
  | lmad (f : Lane4)   -- LMAD (R239)
  | lmadImm (f : Lane4I)   -- LMAD_IMM (R239)
  | lmin (f : Lane3)   -- LMIN (R239)
  | lminImm (f : Lane3I)   -- LMIN_IMM (R239)
  | lminS32 (f : Lane3S)   -- LMIN_S32 (R239)
  | lmax (f : Lane3)   -- LMAX (R239)
  | lmaxImm (f : Lane3I)   -- LMAX_IMM (R239)
  | lmaxS32 (f : Lane3S)   -- LMAX_S32 (R239)
  | labs (f : Lane2)   -- LABS (R239)
  | labsS32 (f : Lane2S)   -- LABS_S32 (R239)
  | land (f : Lane3)   -- LAND (R239)
  | landImm (f : Lane3I)   -- LAND_IMM (R239)
  | landS32 (f : Lane3S)   -- LAND_S32 (R239)
  | lor (f : Lane3)   -- LOR (R239)
  | lorImm (f : Lane3I)   -- LOR_IMM (R239)
  | lorS32 (f : Lane3S)   -- LOR_S32 (R239)
  | lxor (f : Lane3)   -- LXOR (R239)
  | lxorImm (f : Lane3I)   -- LXOR_IMM (R239)
  | lxorS32 (f : Lane3S)   -- LXOR_S32 (R239)
  | landn (f : Lane3)   -- LANDN (R239)
  | landnImm (f : Lane3I)   -- LANDN_IMM (R239)
  | landnS32 (f : Lane3S)   -- LANDN_S32 (R239)
  | lshl (f : Lane3)   -- LSHL (R239)
  | lshlImm (f : Lane3I)   -- LSHL_IMM (R239)
  | lshlS32 (f : Lane3S)   -- LSHL_S32 (R239)
  | lshr (f : Lane3)   -- LSHR (R239)
  | lshrImm (f : Lane3I)   -- LSHR_IMM (R239)
  | lshrS32 (f : Lane3S)   -- LSHR_S32 (R239)
  | lsra (f : Lane3)   -- LSRA (R239)
  | lsraImm (f : Lane3I)   -- LSRA_IMM (R239)
  | lsraS32 (f : Lane3S)   -- LSRA_S32 (R239)
  | lrot (f : Lane3)   -- LROT (R239)
  | lrotImm (f : Lane3I)   -- LROT_IMM (R239)
  | lrotS32 (f : Lane3S)   -- LROT_S32 (R239)
  | lclz (f : Lane2)   -- LCLZ (R239)
  | lclzS32 (f : Lane2S)   -- LCLZ_S32 (R239)
  | lpopc (f : Lane2)   -- LPOPC (R239)
  | lpopcS32 (f : Lane2S)   -- LPOPC_S32 (R239)
  | lbrev (f : Lane2)   -- LBREV (R239)
  | lbrevS32 (f : Lane2S)   -- LBREV_S32 (R239)
  | lbfx (f : Lane2) (pos len1 : BitVec 5) (sx : Bool)   -- LBFX (R240)
  | lbfi (f : Lane3) (pos len1 : BitVec 5)   -- LBFI (R240)
  | lsel (f : Lane3) (k : BitVec 4) (neg : Bool)   -- LSEL (R241)
  | lselImm (f : Lane3I) (k : BitVec 4) (neg : Bool)   -- LSEL_IMM (R241)
  | lcmp (f : Lane3) (cond : BitVec 3)   -- LCMP (R242)
  | lcmpImm (f : Lane3I) (cond : BitVec 3)   -- LCMP_IMM (R242)
  | laddc (f : Lane3) (pci pco : BitVec 4) (used : Bool)   -- LADDC (R243)
  | lfadd (f : Lane3)   -- LFADD (R244)
  | lfaddImm (f : Lane3I)   -- LFADD_IMM (R244)
  | lfaddS32 (f : Lane3S)   -- LFADD_S32 (R244)
  | lfsub (f : Lane3)   -- LFSUB (R244)
  | lfsubImm (f : Lane3I)   -- LFSUB_IMM (R244)
  | lfsubS32 (f : Lane3S)   -- LFSUB_S32 (R244)
  | lfmul (f : Lane3)   -- LFMUL (R244)
  | lfmulImm (f : Lane3I)   -- LFMUL_IMM (R244)
  | lfmulS32 (f : Lane3S)   -- LFMUL_S32 (R244)
  | lfma (f : Lane4)   -- LFMA (R244)
  | lfmaImm (f : Lane4I)   -- LFMA_IMM (R244)
  | lfmin (f : Lane3)   -- LFMIN (R246)
  | lfminImm (f : Lane3I)   -- LFMIN_IMM (R246)
  | lfminS32 (f : Lane3S)   -- LFMIN_S32 (R246)
  | lfmax (f : Lane3)   -- LFMAX (R246)
  | lfmaxImm (f : Lane3I)   -- LFMAX_IMM (R246)
  | lfmaxS32 (f : Lane3S)   -- LFMAX_S32 (R246)
  | lfsgn (f : Lane3) (kind : BitVec 2)   -- LFSGN (R247)
  | lfrcp (f : Lane2)   -- LFRCP (R245)
  | lfrcpS32 (f : Lane2S)   -- LFRCP_S32 (R245)
  | lfrsq (f : Lane2)   -- LFRSQ (R245)
  | lfrsqS32 (f : Lane2S)   -- LFRSQ_S32 (R245)
  | lfsqrt (f : Lane2)   -- LFSQRT (R245)
  | lfsqrtS32 (f : Lane2S)   -- LFSQRT_S32 (R245)
  | lfdiv (f : Lane3)   -- LFDIV (R244)
  | lfdivImm (f : Lane3I)   -- LFDIV_IMM (R244)
  | lfdivS32 (f : Lane3S)   -- LFDIV_S32 (R244)
  | lfexp2 (f : Lane2)   -- LFEXP2 (R245)
  | lfexp2S32 (f : Lane2S)   -- LFEXP2_S32 (R245)
  | lflog2 (f : Lane2)   -- LFLOG2 (R245)
  | lflog2S32 (f : Lane2S)   -- LFLOG2_S32 (R245)
  | lfcmp (f : Lane3) (cond : BitVec 3)   -- LFCMP (R248)
  | lfcmpImm (f : Lane3I) (cond : BitVec 3)   -- LFCMP_IMM (R248)
  | lfclass (f : Lane2) (mask : BitVec 10)   -- LFCLASS (R249)
  | lcvt (f : Lane2) (dst src : BitVec 4) (bs : Bool) (sel : BitVec 2)   -- LCVT (R251)
  | lpack (f : Lane3) (dst : BitVec 4)   -- LPACK (R253)
  | lunpk (f : Lane2) (src : BitVec 4) (k : BitVec 3)   -- LUNPK (R254)
  | lmov (f : Lane2)   -- LMOV (R255)
  | lmovi (vd : BitVec 6) (imm : BitVec 16) (ty : Ty) (guard : Guard)   -- LMOVI (R255)
  | lbcast (f : Lane2)   -- LBCAST (R256)
  | lextr (xd va : BitVec 6) (ty : Ty) (n : BitVec 5)   -- LEXTR (R257)
  | lins (vd xs : BitVec 6) (ty : Ty) (n : BitVec 5)   -- LINS (R257)
  | lshfl (f : Lane3) (kind : BitVec 3) (c : BitVec 5)   -- LSHFL (R258)
  | lred (f : Lane2) (op : BitVec 3)   -- LRED (R259)
  | lscan (f : Lane2) (op : BitVec 3) (excl : Bool)   -- LSCAN (R260)
  | lballot (xd pa : BitVec 6)   -- LBALLOT (R261)
  | lgets (vd : BitVec 6) (guard : Guard) (src : BitVec 3)   -- LGETS (R262)
  | ltrns (vd va : BitVec 6)   -- LTRNS (R263)
  | plog (pd pa pb : BitVec 6) (guard : Guard) (tt : BitVec 4)   -- PLOG (R264)
  | pmovPred (pd pa : BitVec 6) (guard : Guard)   -- PMOV_PRED (R265)
  | pmovFromX (pd xs : BitVec 6) (guard : Guard)   -- PMOV_FROM_X (R265)
  | pmovToX (xd pa : BitVec 6)   -- PMOV_TO_X (R265)
  | emset (xs : BitVec 6)   -- EMSET (R266)
  | emget (xd : BitVec 6)   -- EMGET (R266)
  | emand (xd pa : BitVec 6) (neg : Bool)   -- EMAND (R267)
  | lld (m : LaneMem) (policy : BitVec 2)   -- LLD (R144)
  | lldImm (m : LaneMem) (imm : BitVec 16)   -- LLD_IMM (R144)
  | lst (m : LaneMem) (policy : BitVec 2)   -- LST (R145)
  | lstImm (m : LaneMem) (imm : BitVec 16)   -- LST_IMM (R145)
  | lldt (m : LaneMem) (policy : BitVec 2)   -- LLDT (R146)
  | lldtImm (m : LaneMem) (imm : BitVec 16)   -- LLDT_IMM (R146)
  | lamo (m : LaneMem) (op : BitVec 4) (order scope : BitVec 3) (vs : BitVec 6)   -- LAMO (R147)
  | lpref (m : LaneMem) (policy : BitVec 2)   -- LPREF (R148)
  | lprefImm (m : LaneMem) (imm : BitVec 16)   -- LPREF_IMM (R148)
  | mma (j : MatJob) (src : Bool) (q : BitVec 2) (fmt : BitVec 4) (had : BitVec 2) (norm : Bool)   -- MMA (R288)
  | mmas (j : MatJob) (src : Bool) (q fsa fsb had : BitVec 2) (norm : Bool)   -- MMAS (R288)
  | mhad (j : MatJob) (size : BitVec 2) (norm : Bool)   -- MHAD (R289)
  | mqnt (j : MatJob) (rm : BitVec 3) (fs : BitVec 2)   -- MQNT (R290)
  | mcvt (j : MatJob) (rm : BitVec 3) (sat : BitVec 2)   -- MCVT (R291)
  | mzero (j : MatJob) (kind : Bool)   -- MZERO (R292)
  | mst (j : MatJob) (rm : BitVec 3) (n1 : BitVec 4)   -- MST (R293)
  | mld (j : MatJob) (n1 : BitVec 4) (kind : Bool)   -- MLD (R294)
  | rfl (xd : BitVec 5)   -- RFL (R109)
  | spw (pd : BitVec 4) (xq vs : BitVec 5)   -- SPW (R111)
  | enq (xd xq xp : BitVec 5)   -- ENQ (R112)
  | pfence (scope : BitVec 3) (order : BitVec 2)   -- PFENCE (R199)
  | waita (xd xa xt : BitVec 5)   -- WAITA (R150)
  | lkbank (xb : BitVec 5)   -- LKBANK (R152)
  | ulkbank (xb : BitVec 5)   -- ULKBANK (R152)
  | bcpy (xd xa xn : BitVec 5)   -- BCPY (R195)
  | bfil (xd xa xn : BitVec 5)   -- BFIL (R195)
  | bgat (xd xa xn : BitVec 5)   -- BGAT (R195)
  | bsct (xd xa xn : BitVec 5)   -- BSCT (R195)
  | jpoll (xd xj : BitVec 5)   -- JPOLL (R196)
  | jwait (xd xj : BitVec 5)   -- JWAIT (R197)
  | jyield (xj xc : BitVec 5)   -- JYIELD (R198)
  | px (m : PxModes)   -- PX (R52)
  | tlbw (xe xa : BitVec 5)   -- TLBW (R379)
  | tlbinv (xa xc : BitVec 5)   -- TLBINV (R380)
  | tlbprobe (xd xa : BitVec 5)   -- TLBPROBE (R381)
  | ctxs (xr : BitVec 5)   -- CTXS (R382)
  | ctxl (xr : BitVec 5)   -- CTXL (R383)
  | msgs (xt xm : BitVec 5)   -- MSGS (R378)
  | msgr (xd xb : BitVec 5)   -- MSGR (R378)
  | fenceI   -- FENCE_I (R64)
  | ecall   -- ECALL (R77)
  | ebreak   -- EBREAK (R77)
  | sret   -- SRET (R79)
  | mret   -- MRET (R79)
  | wfi   -- WFI (R78)
  | barC   -- BAR_C (R108)
  | barK   -- BAR_K (R108)
  | xit   -- XIT (R110)
  | xfence   -- XFENCE (R200)
  | ofence   -- OFENCE (R201)
  | retx   -- RETX (R384)
  | fwVersion   -- FW_VERSION (R71)
  | fwFeatureMask   -- FW_FEATURE_MASK (R71)
  | fwPosition   -- FW_POSITION (R71)
  | fwUnsupported   -- FW_UNSUPPORTED (R71)
  | takeAsyncCause   -- TAKE_ASYNC_CAUSE (R363)
  | takeInterrupt   -- TAKE_INTERRUPT (R365)
  | missDataReturn   -- MISS_DATA_RETURN (R93)
  | releaseComplete   -- RELEASE_COMPLETE (R168)
  | rflClaimAnswer   -- RFL_CLAIM_ANSWER (R93)
  | bankLockGrant   -- BANK_LOCK_GRANT (R152)
  | bankLockBreak   -- BANK_LOCK_BREAK (R153)
  | waitaWake   -- WAITA_WAKE (R151)
  | waitaTimeout   -- WAITA_TIMEOUT (R150)
  | wfiWake   -- WFI_WAKE (R78)
  | sfenceVmaComplete   -- SFENCE_VMA_COMPLETE (R80)
  | orderedStallEnd   -- ORDERED_STALL_END (R176)
  | hangDetect   -- HANG_DETECT (R107)
  | barrierRelease   -- BARRIER_RELEASE (R102)
  | packetCheck   -- PACKET_CHECK (R84)
  | launchActivate   -- LAUNCH_ACTIVATE (R87)
  | queueAging   -- QUEUE_AGING (R88)
  | placeUnit   -- PLACE_UNIT (R89)
  | placeGang   -- PLACE_GANG (R90)
  | itemCommit   -- ITEM_COMMIT (R174)
  | launchComplete   -- LAUNCH_COMPLETE (R99)
  | launchFail   -- LAUNCH_FAIL (R99)
  | jobStart   -- JOB_START (R182)
  | matrixStartGrant   -- MATRIX_START_GRANT (R282)
  | bteChunk   -- BTE_CHUNK (R193)
  | jobComplete   -- JOB_COMPLETE (R185)
  | jobFail   -- JOB_FAIL (R187)
  | tscWalk   -- TSC_WALK (R306)
  | walkResultReturn   -- WALK_RESULT_RETURN (R308)
  | faultRecordDeferred   -- FAULT_RECORD_DEFERRED (R317)
  | lineWriteback   -- LINE_WRITEBACK (R327)
  | correctableError   -- CORRECTABLE_ERROR (R385)
  | uncorrectableError   -- UNCORRECTABLE_ERROR (R385)
  | llcTagError   -- LLC_TAG_ERROR (R387)
  | cleanSweep   -- CLEAN_SWEEP (R388)
  | spareSubstitution   -- SPARE_SUBSTITUTION (R389)
  | retirement   -- RETIREMENT (R391)
  | vacateOrder   -- VACATE_ORDER (R118)
  | vacateLift   -- VACATE_LIFT (R127)
  | progressInterval   -- PROGRESS_INTERVAL (R116)
  | vacateCheck   -- VACATE_CHECK (R123)
  | vacateDeadlineFail   -- VACATE_DEADLINE_FAIL (R124)
  | vacancyReached   -- VACANCY_REACHED (R121)
  | safePointGraceExpiry   -- SAFE_POINT_GRACE_EXPIRY (R367)
  | hartSave   -- HART_SAVE (R368)
  | contextSpill   -- CONTEXT_SPILL (R368)
  | sealedCoreSave   -- SEALED_CORE_SAVE (R369)
  | hartRestore   -- HART_RESTORE (R368)
  | powerOn   -- POWER_ON (R347)
  | powerOff   -- POWER_OFF (R347)
  | packageReset   -- PACKAGE_RESET (R420)
  | dieResetEnd   -- DIE_RESET_END (R347)
  | dieNegotiate   -- DIE_NEGOTIATE (R348)
  | dieCertificateCheck   -- DIE_CERTIFICATE_CHECK (R348)
  | dieChallenge   -- DIE_CHALLENGE (R348)
  | dieMeasurementCheck   -- DIE_MEASUREMENT_CHECK (R348)
  | dieKeyExchange   -- DIE_KEY_EXCHANGE (R348)
  | dieKeyDelivery   -- DIE_KEY_DELIVERY (R348)
  | dieAdmit   -- DIE_ADMIT (R348)
  | attestTimeout   -- ATTEST_TIMEOUT (R348)
  | flitReceive   -- FLIT_RECEIVE (R351)
  | keyRolloverStart   -- KEY_ROLLOVER_START (R352)
  | rolloverAckTimeout   -- ROLLOVER_ACK_TIMEOUT (R352)
  | oldKeyErase   -- OLD_KEY_ERASE (R352)
  | hostRawAccess   -- HOST_RAW_ACCESS (R413)
  | hostWindowAccess   -- HOST_WINDOW_ACCESS (R413)
  | poolBackInvalidate   -- POOL_BACK_INVALIDATE (R412)
  | remoteRequest   -- REMOTE_REQUEST (R422)
  | mailboxUnknownCode   -- MAILBOX_UNKNOWN_CODE (R415)
  | partSet   -- PART_SET (R331)
  | partDrop   -- PART_DROP (R331)
  | mapSet   -- MAP_SET (R405)
  | imgInfo   -- IMG_INFO (R408)
  | ringSet   -- RING_SET (R415)
  | qreg   -- QREG (R417)
  | qdrop   -- QDROP (R418)
  | winSet   -- WIN_SET (R413)
  | fltAnsReplay   -- FLT_ANS_REPLAY (R318)
  | fltAnsDecline   -- FLT_ANS_DECLINE (R318)
  | s2Set   -- S2_SET (R314)
  | pageOut   -- PAGE_OUT (R340)
  | pageIn   -- PAGE_IN (R340)
  | dieReset   -- DIE_RESET (R354)
  | dieStatus   -- DIE_STATUS (R353)
  | exportCmd   -- EXPORT (R422)
  | dbgHalt   -- DBG_HALT (R376)
  | dbgResume   -- DBG_RESUME (R376)
  | dbgStep   -- DBG_STEP (R376)
  | dbgRd   -- DBG_RD (R376)
  | dbgWr   -- DBG_WR (R376)
  | gangStop   -- GANG_STOP (R377)
  | gangGo   -- GANG_GO (R377)
  | resync   -- RESYNC (R396)
  | powerSet   -- POWER_SET (R424)
  | domSet   -- DOM_SET (R423)
  | fconsWrite   -- FCONS_WRITE (R415)
  | heatControlWrite   -- HEAT_CONTROL_WRITE (R321)
  | registerWrite   -- REGISTER_WRITE (R375)
  | getVersion   -- GET_VERSION (R357)
  | getCapabilities   -- GET_CAPABILITIES (R357)
  | negotiateAlgorithms   -- NEGOTIATE_ALGORITHMS (R357)
  | getDigests   -- GET_DIGESTS (R357)
  | getCertificate   -- GET_CERTIFICATE (R357)
  | challenge   -- CHALLENGE (R357)
  | getMeasurements   -- GET_MEASUREMENTS (R358)
  | keyExchange   -- KEY_EXCHANGE (R357)
  | finish   -- FINISH (R357)
  | endSession   -- END_SESSION (R357)
  | reportBind   -- REPORT_BIND (R361)
  | spdmUnsupportedRequest   -- SPDM_UNSUPPORTED_REQUEST (R357)
  | clusterGate   -- CLUSTER_GATE (R425)
  | clusterWake   -- CLUSTER_WAKE (R425)
  | powerWindow   -- POWER_WINDOW (R425)
  | thermalReset   -- THERMAL_RESET (R425)
  | illegalInstruction   -- ILLEGAL_INSTRUCTION (R28)
  | instructionFetchFault   -- INSTRUCTION_FETCH_FAULT (R27)
  | writePerformed   -- WRITE_PERFORMED (R166)
  | cleanSweepEnd   -- CLEAN_SWEEP_END (R388)
  | linkRetrainingEnd   -- LINK_RETRAINING_END (R389)
  | pseudoChannelCopyEnd   -- PSEUDO_CHANNEL_COPY_END (R389)
  | cobaltLinkKeying   -- COBALT_LINK_KEYING (R421)
  deriving DecidableEq, Repr

end Sys2Proof
end

