-- ==== Sys2Proof/WellFormed.lean ====
section
/-! DEFINITION. Which instructions the device accepts: the checks of R31, R32, R38 to R51 and R283 on the fields of one
instruction. A word whose instruction fails one is an illegal instruction, cause 2 (R28). -/

namespace Sys2Proof

/-- R38: type class I. -/
def Ty.inI : Ty → Bool
  | .i32 | .n32 | .i16x2 | .i8x4 => true
  | .f32 | .f16x2 | .bf16x2 | .f64 => false

/-- R38: type class S. -/
def Ty.inS : Ty → Bool
  | .i32 | .i16x2 | .i8x4 => true
  | .n32 | .f32 | .f16x2 | .bf16x2 | .f64 => false

/-- R38: type class W. -/
def Ty.inW : Ty → Bool
  | .i32 | .n32 => true
  | .f32 | .f16x2 | .bf16x2 | .f64 | .i16x2 | .i8x4 => false

/-- R38: type class F. -/
def Ty.inF : Ty → Bool
  | .f32 | .f16x2 | .bf16x2 | .f64 => true
  | .i32 | .n32 | .i16x2 | .i8x4 => false

/-- R38: type class G. -/
def Ty.inG : Ty → Bool
  | .f32 | .f64 => true
  | .i32 | .n32 | .f16x2 | .bf16x2 | .i16x2 | .i8x4 => false

/-- R40: guard 0-11 with either sense, or 15 with sense 0. -/
def Guard.ok (g : Guard) : Bool := decide (g.pred.toNat ≤ 11) || (g.pred == 15 && !g.sense)

/-- R32: a field of an f64 instruction names an even register. -/
def evenFor (t : Ty) (r : BitVec 6) : Bool := t != .f64 || r.toNat % 2 == 0

/-- R31: a predicate register p0-p11 in a 6-bit field. -/
def isPred (r : BitVec 6) : Bool := decide (r.toNat ≤ 11)

/-- R31: an x register in a 6-bit field. -/
def isX (r : BitVec 6) : Bool := decide (r.toNat ≤ 31)

/-- R47: the even register of a descriptor pair. -/
def isDescr (r : BitVec 6) : Bool := decide (2 ≤ r.toNat ∧ r.toNat ≤ 30) && r.toNat % 2 == 0

/-- R39: a scope code. -/
def isScope (s : BitVec 3) : Bool := s != 7

/-- The checks of a three-operand lane form of a type class. -/
def Lane3.ok (cls : Ty → Bool) (f : Lane3) : Bool :=
  cls f.ty && f.guard.ok && evenFor f.ty f.vd && evenFor f.ty f.va && evenFor f.ty f.vb

/-- The checks of an immediate form of a type class (R41). -/
def Lane3I.ok (cls : Ty → Bool) (f : Lane3I) : Bool :=
  cls f.ty && f.guard.ok && evenFor f.ty f.vd && evenFor f.ty f.va

/-- The checks of a short form of a type class (R48). -/
def Lane3S.ok (cls : Ty → Bool) (f : Lane3S) : Bool :=
  cls f.ty && evenFor f.ty (f.vd.setWidth 6) && evenFor f.ty (f.va.setWidth 6) && evenFor f.ty (f.vb.setWidth 6)

/-- The checks of a one-source form of a type class. -/
def Lane2.ok (cls : Ty → Bool) (f : Lane2) : Bool :=
  cls f.ty && f.guard.ok && evenFor f.ty f.vd && evenFor f.ty f.va

/-- The checks of a one-source short form (R48). -/
def Lane2S.ok (cls : Ty → Bool) (f : Lane2S) : Bool :=
  cls f.ty && evenFor f.ty (f.vd.setWidth 6) && evenFor f.ty (f.va.setWidth 6)

/-- The checks of a four-operand form. -/
def Lane4.ok (cls : Ty → Bool) (f : Lane4) : Bool :=
  cls f.ty && f.guard.ok && evenFor f.ty f.vd && evenFor f.ty f.va && evenFor f.ty f.vb && evenFor f.ty f.vc

/-- The checks of a four-operand immediate form. -/
def Lane4I.ok (cls : Ty → Bool) (f : Lane4I) : Bool :=
  cls f.ty && f.guard.ok && evenFor f.ty f.vd && evenFor f.ty f.va && evenFor f.ty f.vc

/-- R42, R43, R248, R249: a form whose vd field names a predicate. -/
def Lane3.okPred (cls : Ty → Bool) (f : Lane3) : Bool :=
  cls f.ty && f.guard.ok && isPred f.vd && evenFor f.ty f.va && evenFor f.ty f.vb

/-- The immediate form whose vd field names a predicate. -/
def Lane3I.okPred (cls : Ty → Bool) (f : Lane3I) : Bool :=
  cls f.ty && f.guard.ok && isPred f.vd && evenFor f.ty f.va

/-- R43, R250: the highest element select of `lcvt` on a side of a format code; none where the side is a whole
register or a pair. -/
def cvtSelMax (code : BitVec 4) : Option Nat :=
  match code.toNat with
  | 1 | 2 => some 1
  | 3 | 4 | 5 | 6 | 7 | 8 | 9 | 10 => some 3
  | _ => none

/-- R43, R250: the highest element index of `lunpk`; none for a code it does not take. -/
def unpkMax (code : BitVec 4) : Option Nat :=
  match code.toNat with
  | 1 | 2 => some 1
  | 3 | 4 | 9 => some 3
  | 5 | 6 => some 4
  | 7 | 8 | 10 => some 7
  | _ => none

/-- R43, R251: a side of `lcvt` is scaled: codes 5-8 and 10 always, codes 3, 4 and 9 with bit [8]. -/
def cvtScaled (bs : Bool) (code : BitVec 4) : Bool :=
  match code.toNat with
  | 5 | 6 | 7 | 8 | 10 => true
  | 3 | 4 | 9 => bs
  | _ => false

/-- R43: bit [8] of `lcvt` needs a code 3, 4 or 9. -/
def cvtBlockCode (code : BitVec 4) : Bool :=
  match code.toNat with
  | 3 | 4 | 9 => true
  | _ => false

/-- R250: a select fits every packed side; with no packed side it is 0 (log entry 11: the whole-register side of a
conversion does not bound the select). -/
def cvtSelOk (dst src : BitVec 4) (sel : BitVec 2) : Bool :=
  match cvtSelMax dst, cvtSelMax src with
  | none, none => sel == 0
  | some m, none => decide (sel.toNat ≤ m)
  | none, some m => decide (sel.toNat ≤ m)
  | some m, some n => decide (sel.toNat ≤ m ∧ sel.toNat ≤ n)

/-- R43, R251, R252: the checks of `lcvt`. -/
def cvtOk (f : Lane2) (dst src : BitVec 4) (bs : Bool) (sel : BitVec 2) : Bool :=
  f.ty == .i32 && f.guard.ok && decide (dst.toNat ≤ 11) && decide (src.toNat ≤ 11) && dst != src
  && (!bs || cvtBlockCode dst || cvtBlockCode src) && cvtSelOk dst src sel
  && (dst != 11 || f.vd.toNat % 2 == 0) && (src != 11 || f.va.toNat % 2 == 0)
  && (!(cvtScaled bs dst || cvtScaled bs src) || (f.va != 63 && src != 11))

/-- R45: the checks common to lane memory: x base, space code, guard. -/
def LaneMem.ok (m : LaneMem) : Bool := isX m.xb && decide (m.space.toNat ≤ 4) && m.guard.ok

/-- R45, R144: a load's size and sign: only a byte or a half sign-extends; a dword pair is even. -/
def LaneMem.okLoad (m : LaneMem) : Bool :=
  m.ok && (!m.sx || decide (m.size.toNat < 2)) && (m.size != 3 || m.vd.toNat % 2 == 0)

/-- R46, R145. -/
def LaneMem.okStore (m : LaneMem) : Bool := m.ok && !m.sx && (m.size != 3 || m.vd.toNat % 2 == 0)

/-- R46, R146. -/
def LaneMem.okBlock (m : LaneMem) : Bool :=
  m.ok && m.size == 2 && (m.vd == 0 || m.vd == 32) && !m.sx && m.guard.pred == 15 && isX m.vo

/-- R46, R148. -/
def LaneMem.okPref (m : LaneMem) : Bool := m.ok && m.vd == 0 && !m.sx

/-- R45: cache policy 0 to 2. -/
def isPolicy (p : BitVec 2) : Bool := p != 3

/-- R283: a job's x destination and completion scope. -/
def MatJob.ok (j : MatJob) : Bool := isX j.xd && isScope j.scope

/-- R47, R283: the operands of `mma` and `mmas`; R281: `norm` needs a transform. -/
def MatJob.okMma (j : MatJob) (src : Bool) (q had : BitVec 2) (norm : Bool) : Bool :=
  j.ok && isDescr j.b && (src || (isDescr j.a && q == 0)) && (!norm || had != 0)

/-- R28: the device accepts the instruction. An event of the package has no encoding and no field to refuse. -/
def Instr.wellFormed : Instr → Bool
  | .lui _ _ | .auipc _ _ | .jal _ _ | .jalr _ _ _ | .beq _ _ _ | .bne _ _ _ => true
  | .blt _ _ _ | .bge _ _ _ | .bltu _ _ _ | .bgeu _ _ _ | .lb _ _ _ | .lh _ _ _ => true
  | .lw _ _ _ | .ld _ _ _ | .lbu _ _ _ | .lhu _ _ _ | .lwu _ _ _ | .sb _ _ _ => true
  | .sh _ _ _ | .sw _ _ _ | .sd _ _ _ | .addi _ _ _ | .slti _ _ _ | .sltiu _ _ _ => true
  | .xori _ _ _ | .ori _ _ _ | .andi _ _ _ | .slli _ _ _ | .srli _ _ _ | .srai _ _ _ => true
  | .addiw _ _ _ | .slliw _ _ _ | .srliw _ _ _ | .sraiw _ _ _ | .add _ _ _ | .sub _ _ _ => true
  | .sll _ _ _ | .slt _ _ _ | .sltu _ _ _ | .xor _ _ _ | .srl _ _ _ | .sra _ _ _ => true
  | .or _ _ _ | .and _ _ _ | .mul _ _ _ | .mulh _ _ _ | .mulhsu _ _ _ | .mulhu _ _ _ => true
  | .div _ _ _ | .divu _ _ _ | .rem _ _ _ | .remu _ _ _ | .addw _ _ _ | .subw _ _ _ => true
  | .sllw _ _ _ | .srlw _ _ _ | .sraw _ _ _ | .mulw _ _ _ | .divw _ _ _ | .divuw _ _ _ => true
  | .remw _ _ _ | .remuw _ _ _ | .lr _ _ _ _ _ | .sc _ _ _ _ _ _ | .amoswap _ _ _ _ _ _ | .amoadd _ _ _ _ _ _ => true
  | .amoxor _ _ _ _ _ _ | .amoand _ _ _ _ _ _ | .amoor _ _ _ _ _ _ | .amomin _ _ _ _ _ _ | .amomax _ _ _ _ _ _ | .amominu _ _ _ _ _ _ => true
  | .amomaxu _ _ _ _ _ _ | .fence _ _ _ | .fenceI | .ecall | .ebreak | .sret => true
  | .mret | .wfi | .sfenceVma _ _ | .csrrw _ _ _ | .csrrs _ _ _ | .csrrc _ _ _ => true
  | .csrrwi _ _ _ | .csrrsi _ _ _ | .csrrci _ _ _ | .barC | .barK | .rfl _ => true
  | .xit | .enq _ _ _ | .xfence | .ofence | .waita _ _ _ | .lkbank _ => true
  | .ulkbank _ | .bcpy _ _ _ | .bfil _ _ _ | .bgat _ _ _ | .bsct _ _ _ | .jpoll _ _ => true
  | .jwait _ _ | .jyield _ _ | .tlbw _ _ | .tlbinv _ _ | .tlbprobe _ _ | .ctxs _ => true
  | .ctxl _ | .msgs _ _ | .msgr _ _ | .retx | .fwVersion | .fwFeatureMask => true
  | .fwPosition | .fwUnsupported | .takeAsyncCause | .takeInterrupt | .missDataReturn | .releaseComplete => true
  | .rflClaimAnswer | .bankLockGrant | .bankLockBreak | .waitaWake | .waitaTimeout | .wfiWake => true
  | .sfenceVmaComplete | .orderedStallEnd | .hangDetect | .barrierRelease | .packetCheck | .launchActivate => true
  | .queueAging | .placeUnit | .placeGang | .itemCommit | .launchComplete | .launchFail => true
  | .jobStart | .matrixStartGrant | .bteChunk | .jobComplete | .jobFail | .tscWalk => true
  | .walkResultReturn | .faultRecordDeferred | .lineWriteback | .correctableError | .uncorrectableError | .llcTagError => true
  | .cleanSweep | .spareSubstitution | .retirement | .vacateOrder | .vacateLift | .progressInterval => true
  | .vacateCheck | .vacateDeadlineFail | .vacancyReached | .safePointGraceExpiry | .hartSave | .contextSpill => true
  | .sealedCoreSave | .hartRestore | .powerOn | .powerOff | .packageReset | .dieResetEnd => true
  | .dieNegotiate | .dieCertificateCheck | .dieChallenge | .dieMeasurementCheck | .dieKeyExchange | .dieKeyDelivery => true
  | .dieAdmit | .attestTimeout | .flitReceive | .keyRolloverStart | .rolloverAckTimeout | .oldKeyErase => true
  | .hostRawAccess | .hostWindowAccess | .poolBackInvalidate | .remoteRequest | .mailboxUnknownCode | .partSet => true
  | .partDrop | .mapSet | .imgInfo | .ringSet | .qreg | .qdrop => true
  | .winSet | .fltAnsReplay | .fltAnsDecline | .s2Set | .pageOut | .pageIn => true
  | .dieReset | .dieStatus | .exportCmd | .dbgHalt | .dbgResume | .dbgStep => true
  | .dbgRd | .dbgWr | .gangStop | .gangGo | .resync | .powerSet => true
  | .domSet | .fconsWrite | .heatControlWrite | .registerWrite | .getVersion | .getCapabilities => true
  | .negotiateAlgorithms | .getDigests | .getCertificate | .challenge | .getMeasurements | .keyExchange => true
  | .finish | .endSession | .reportBind | .spdmUnsupportedRequest | .clusterGate | .clusterWake => true
  | .powerWindow | .thermalReset | .illegalInstruction | .instructionFetchFault | .writePerformed | .cleanSweepEnd => true
  | .linkRetrainingEnd | .pseudoChannelCopyEnd | .cobaltLinkKeying => true
  | .ladd f | .laddImm f | .laddS32 f | .lsub f => f.ok Ty.inI
  | .lsubImm f | .lsubS32 f | .lmul f | .lmulImm f => f.ok Ty.inI
  | .lmulS32 f | .lmulh f | .lmulhImm f | .lmulhS32 f => f.ok Ty.inI
  | .lmad f | .lmadImm f | .lmin f | .lminImm f => f.ok Ty.inI
  | .lminS32 f | .lmax f | .lmaxImm f | .lmaxS32 f => f.ok Ty.inI
  | .land f | .landImm f | .landS32 f | .lor f => f.ok Ty.inI
  | .lorImm f | .lorS32 f | .lxor f | .lxorImm f => f.ok Ty.inI
  | .lxorS32 f | .landn f | .landnImm f | .landnS32 f => f.ok Ty.inI
  | .lshl f | .lshlImm f | .lshlS32 f | .lshr f => f.ok Ty.inI
  | .lshrImm f | .lshrS32 f | .lsra f | .lsraImm f => f.ok Ty.inI
  | .lsraS32 f | .lrot f | .lrotImm f | .lrotS32 f => f.ok Ty.inI
  | .lclz f | .lclzS32 f | .lpopc f | .lpopcS32 f => f.ok Ty.inI
  | .lbrev f | .lbrevS32 f => f.ok Ty.inI
  | .labs f | .labsS32 f => f.ok Ty.inS
  | .lbfx f pos len1 _ | .lbfi f pos len1 => f.ok Ty.inW && decide (pos.toNat + len1.toNat + 1 ≤ 32)
  | .lsel f k _ | .lselImm f k _ => f.ok (fun _ => true) && decide (k.toNat ≤ 11)
  | .lcmp f cond | .lcmpImm f cond => f.okPred Ty.inW && decide (cond.toNat ≤ 5)
  | .laddc f pci pco used => f.ok Ty.inW && decide (pco.toNat ≤ 11) && (if used then decide (pci.toNat ≤ 11) else pci == 0)
  | .lfadd f | .lfaddImm f | .lfaddS32 f | .lfsub f => f.ok Ty.inF
  | .lfsubImm f | .lfsubS32 f | .lfmul f | .lfmulImm f => f.ok Ty.inF
  | .lfmulS32 f | .lfma f | .lfmaImm f | .lfmin f => f.ok Ty.inF
  | .lfminImm f | .lfminS32 f | .lfmax f | .lfmaxImm f => f.ok Ty.inF
  | .lfmaxS32 f | .lfrcp f | .lfrcpS32 f | .lfrsq f => f.ok Ty.inF
  | .lfrsqS32 f | .lfsqrt f | .lfsqrtS32 f | .lfdiv f => f.ok Ty.inF
  | .lfdivImm f | .lfdivS32 f | .lfexp2 f | .lfexp2S32 f => f.ok Ty.inF
  | .lflog2 f | .lflog2S32 f => f.ok Ty.inF
  | .lfsgn f kind => f.ok Ty.inF && kind != 3
  | .lfcmp f _ | .lfcmpImm f _ => f.okPred Ty.inG
  | .lfclass f _ => Ty.inG f.ty && f.guard.ok && isPred f.vd && evenFor f.ty f.va
  | .lcvt f dst src bs sel => cvtOk f dst src bs sel
  | .lpack f dst => f.ok (· == .i32) && decide (1 ≤ dst.toNat ∧ dst.toNat ≤ 10)
  | .lunpk f src k => f.ok (· == .i32) && (match unpkMax src with | some m => decide (k.toNat ≤ m) | none => false)
  | .lmov f => f.ok (fun _ => true)
  | .lmovi vd _ ty guard => evenFor ty vd && guard.ok
  | .lbcast f => f.guard.ok && isX f.va && evenFor f.ty f.vd
  | .lextr xd va ty _ => isX xd && evenFor ty va
  | .lins vd xs ty _ => isX xs && evenFor ty vd
  | .lshfl f kind c => f.ok (fun _ => true) && decide (kind.toNat ≤ 4) && (if kind == 0 then c == 0 else f.vb == 0)
  | .lred f op | .lscan f op _ => f.ok (fun _ => true) && decide (op.toNat ≤ 5) && (decide (op.toNat < 3) || Ty.inI f.ty)
  | .lballot xd pa | .pmovToX xd pa | .emand xd pa _ => isX xd && isPred pa
  | .lgets _ guard src => guard.ok && decide (src.toNat ≤ 5)
  | .ltrns vd va => (vd == 0 || vd == 32) && (va == 0 || va == 32)
  | .plog pd pa pb guard _ => isPred pd && isPred pa && isPred pb && guard.ok
  | .pmovPred pd pa guard => isPred pd && isPred pa && guard.ok
  | .pmovFromX pd xs guard => isPred pd && isX xs && guard.ok
  | .emset xs => isX xs
  | .emget xd => isX xd
  | .lld m policy => m.okLoad && isPolicy policy
  | .lldImm m _ => m.okLoad
  | .lst m policy => m.okStore && isPolicy policy
  | .lstImm m _ => m.okStore
  | .lldt m policy => m.okBlock && isPolicy policy
  | .lldtImm m _ => m.okBlock
  | .lamo m op order scope vs => m.ok && !m.sx && (m.size == 2 || (m.size == 3 && op != 10)) && decide (op.toNat ≤ 10) && decide (order.toNat ≤ 4) && isScope scope
      && (m.size != 3 || (m.vd.toNat % 2 == 0 && vs.toNat % 2 == 0))
  | .lpref m policy => m.okPref && isPolicy policy
  | .lprefImm m _ => m.okPref
  | .mma j src q fmt had norm => j.okMma src q had norm && (src || fmt == 0)
  | .mmas j src q _ _ had norm => j.okMma src q had norm
  | .mhad j size _ => j.ok && j.a == 0 && j.b == 0 && size != 0
  | .mqnt j rm _ => j.ok && j.a == 0 && isDescr j.b && decide (rm.toNat ≤ 4)
  | .mcvt j rm sat => j.ok && j.a == 0 && isDescr j.b && decide (rm.toNat ≤ 4) && sat != 3
  | .mzero j _ => j.ok && j.a == 0 && j.b == 0
  | .mst j rm n1 => j.ok && j.a == 0 && isDescr j.b && decide (rm.toNat ≤ 4) && decide (j.acc.toNat + n1.toNat ≤ 15)
  | .mld j n1 _ => j.ok && isDescr j.a && j.b == 0 && decide (j.acc.toNat + n1.toNat ≤ 15)
  | .spw pd _ _ => decide (pd.toNat ≤ 11)
  | .pfence scope order => isScope scope && order != 0
  | .px m => m.rm != 6 && m.sat != 3

end Sys2Proof
end

