-- ==== Sys2Proof/Decode.lean ====
section
/-! DEFINITION. The decoder of the device, total on any words (R26 to R52), and the encoder, both written from the
encoding tables of spec/02_encoding.md and R283. The decoder reads the fields of a word, finds the one operation they
name, and accepts it only if that operation's encoding gives back every field (R28: no field is ever ignored) and the
instruction is well formed. -/

namespace Sys2Proof

/-- R38: the type code of a type. -/
def Ty.code : Ty → BitVec 3
  | .i32 => 0 | .n32 => 1 | .f32 => 2 | .f16x2 => 3 | .bf16x2 => 4 | .f64 => 5 | .i16x2 => 6 | .i8x4 => 7

/-- R38: the type of a type code; all eight codes are types. -/
def Ty.ofCode (c : BitVec 3) : Ty :=
  match c.toNat with
  | 0 => .i32 | 1 => .n32 | 2 => .f32 | 3 => .f16x2 | 4 => .bf16x2 | 5 => .f64 | 6 => .i16x2 | _ => .i8x4

/-- R49, R61: the fields of a 32-bit word: [6:0], [11:7], [14:12], [19:15], [24:20], [31:25]. -/
structure W32 where
  op7 : BitVec 7
  rd : BitVec 5
  f3 : BitVec 3
  rs1 : BitVec 5
  rs2 : BitVec 5
  f7 : BitVec 7
  deriving DecidableEq, Repr

/-- R40: the fields of an L64 word above [6:0]. -/
structure L64 where
  g : BitVec 3
  op : BitVec 6
  vd : BitVec 6
  va : BitVec 6
  vb : BitVec 6
  vc : BitVec 6
  t : BitVec 3
  guard : BitVec 4
  sense : Bool
  imm : BitVec 16
  deriving DecidableEq, Repr

def W32.toBits (w : W32) : BitVec 32 := w.f7 ++ w.rs2 ++ w.rs1 ++ w.f3 ++ w.rd ++ w.op7

def W32.ofBits (b : BitVec 32) : W32 :=
  ⟨b.extractLsb' 0 7, b.extractLsb' 7 5, b.extractLsb' 12 3, b.extractLsb' 15 5, b.extractLsb' 20 5, b.extractLsb' 25 7⟩

/-- R40: an L64 word; bits [6:0] are 0b0111111. -/
def L64.toBits (w : L64) : BitVec 64 :=
  w.imm ++ BitVec.ofBool w.sense ++ w.guard ++ w.t ++ w.vc ++ w.vb ++ w.va ++ w.vd ++ w.op ++ w.g ++ 0x3f#7

def L64.ofBits (b : BitVec 64) : L64 :=
  ⟨b.extractLsb' 7 3, b.extractLsb' 10 6, b.extractLsb' 16 6, b.extractLsb' 22 6, b.extractLsb' 28 6, b.extractLsb' 34 6,
   b.extractLsb' 40 3, b.extractLsb' 43 4, b.getLsbD 47, b.extractLsb' 48 16⟩

/-- The fields of a word of either length. -/
inductive Code where
  | w32 (w : W32)
  | l64 (w : L64)
  deriving DecidableEq, Repr

/-- Why a word is no instruction of the device; each is cause 2 (R26, R28, R29). -/
inductive DecodeError where
  /-- R26: low bits other than 0b11. -/
  | halfword
  /-- R26: a 48-bit length. -/
  | length48
  /-- R26: 80 bits or more. -/
  | length80
  /-- R29, R30, R42 to R50: no operation has these fields. -/
  | noOperation
  /-- R28, R40: a reserved or unused field is not as the operation requires. -/
  | reservedField
  /-- R28: a register, type, guard or variant outside what the operation permits. -/
  | illFormed
  deriving DecidableEq, Repr

/-- R61, R67: funct3 of an atomic: 2 word, 3 doubleword. -/
def amoWidth (dbl : Bool) : BitVec 3 := if dbl then 3 else 2

/-- The fields of an instruction's word, from its encoding table; none for an event, which has no encoding. -/
def Instr.fields : Instr → Option Code
  | .lui rd imm => some (.w32 ⟨0x37, rd, imm.extractLsb' 0 3, imm.extractLsb' 3 5, imm.extractLsb' 8 5, imm.extractLsb' 13 7⟩)
  | .auipc rd imm => some (.w32 ⟨0x17, rd, imm.extractLsb' 0 3, imm.extractLsb' 3 5, imm.extractLsb' 8 5, imm.extractLsb' 13 7⟩)
  | .jal rd off => some (.w32 ⟨0x6f, rd, off.extractLsb' 11 3, off.extractLsb' 14 5, off.extractLsb' 0 4 ++ off.extractLsb' 10 1, off.extractLsb' 19 1 ++ off.extractLsb' 4 6⟩)
  | .jalr rd rs1 imm => some (.w32 ⟨0x67, rd, 0, rs1, imm.extractLsb' 0 5, imm.extractLsb' 5 7⟩)
  | .beq rs1 rs2 off => some (.w32 ⟨0x63, off.extractLsb' 0 4 ++ off.extractLsb' 10 1, 0, rs1, rs2, off.extractLsb' 11 1 ++ off.extractLsb' 4 6⟩)
  | .bne rs1 rs2 off => some (.w32 ⟨0x63, off.extractLsb' 0 4 ++ off.extractLsb' 10 1, 1, rs1, rs2, off.extractLsb' 11 1 ++ off.extractLsb' 4 6⟩)
  | .blt rs1 rs2 off => some (.w32 ⟨0x63, off.extractLsb' 0 4 ++ off.extractLsb' 10 1, 4, rs1, rs2, off.extractLsb' 11 1 ++ off.extractLsb' 4 6⟩)
  | .bge rs1 rs2 off => some (.w32 ⟨0x63, off.extractLsb' 0 4 ++ off.extractLsb' 10 1, 5, rs1, rs2, off.extractLsb' 11 1 ++ off.extractLsb' 4 6⟩)
  | .bltu rs1 rs2 off => some (.w32 ⟨0x63, off.extractLsb' 0 4 ++ off.extractLsb' 10 1, 6, rs1, rs2, off.extractLsb' 11 1 ++ off.extractLsb' 4 6⟩)
  | .bgeu rs1 rs2 off => some (.w32 ⟨0x63, off.extractLsb' 0 4 ++ off.extractLsb' 10 1, 7, rs1, rs2, off.extractLsb' 11 1 ++ off.extractLsb' 4 6⟩)
  | .lb rd rs1 imm => some (.w32 ⟨0x3, rd, 0, rs1, imm.extractLsb' 0 5, imm.extractLsb' 5 7⟩)
  | .lh rd rs1 imm => some (.w32 ⟨0x3, rd, 1, rs1, imm.extractLsb' 0 5, imm.extractLsb' 5 7⟩)
  | .lw rd rs1 imm => some (.w32 ⟨0x3, rd, 2, rs1, imm.extractLsb' 0 5, imm.extractLsb' 5 7⟩)
  | .ld rd rs1 imm => some (.w32 ⟨0x3, rd, 3, rs1, imm.extractLsb' 0 5, imm.extractLsb' 5 7⟩)
  | .lbu rd rs1 imm => some (.w32 ⟨0x3, rd, 4, rs1, imm.extractLsb' 0 5, imm.extractLsb' 5 7⟩)
  | .lhu rd rs1 imm => some (.w32 ⟨0x3, rd, 5, rs1, imm.extractLsb' 0 5, imm.extractLsb' 5 7⟩)
  | .lwu rd rs1 imm => some (.w32 ⟨0x3, rd, 6, rs1, imm.extractLsb' 0 5, imm.extractLsb' 5 7⟩)
  | .sb rs1 rs2 imm => some (.w32 ⟨0x23, imm.extractLsb' 0 5, 0, rs1, rs2, imm.extractLsb' 5 7⟩)
  | .sh rs1 rs2 imm => some (.w32 ⟨0x23, imm.extractLsb' 0 5, 1, rs1, rs2, imm.extractLsb' 5 7⟩)
  | .sw rs1 rs2 imm => some (.w32 ⟨0x23, imm.extractLsb' 0 5, 2, rs1, rs2, imm.extractLsb' 5 7⟩)
  | .sd rs1 rs2 imm => some (.w32 ⟨0x23, imm.extractLsb' 0 5, 3, rs1, rs2, imm.extractLsb' 5 7⟩)
  | .addi rd rs1 imm => some (.w32 ⟨0x13, rd, 0, rs1, imm.extractLsb' 0 5, imm.extractLsb' 5 7⟩)
  | .slti rd rs1 imm => some (.w32 ⟨0x13, rd, 2, rs1, imm.extractLsb' 0 5, imm.extractLsb' 5 7⟩)
  | .sltiu rd rs1 imm => some (.w32 ⟨0x13, rd, 3, rs1, imm.extractLsb' 0 5, imm.extractLsb' 5 7⟩)
  | .xori rd rs1 imm => some (.w32 ⟨0x13, rd, 4, rs1, imm.extractLsb' 0 5, imm.extractLsb' 5 7⟩)
  | .ori rd rs1 imm => some (.w32 ⟨0x13, rd, 6, rs1, imm.extractLsb' 0 5, imm.extractLsb' 5 7⟩)
  | .andi rd rs1 imm => some (.w32 ⟨0x13, rd, 7, rs1, imm.extractLsb' 0 5, imm.extractLsb' 5 7⟩)
  | .slli rd rs1 amt => some (.w32 ⟨0x13, rd, 1, rs1, amt.extractLsb' 0 5, 0#6 ++ amt.extractLsb' 5 1⟩)
  | .srli rd rs1 amt => some (.w32 ⟨0x13, rd, 5, rs1, amt.extractLsb' 0 5, 0#6 ++ amt.extractLsb' 5 1⟩)
  | .srai rd rs1 amt => some (.w32 ⟨0x13, rd, 5, rs1, amt.extractLsb' 0 5, 16#6 ++ amt.extractLsb' 5 1⟩)
  | .addiw rd rs1 imm => some (.w32 ⟨0x1b, rd, 0, rs1, imm.extractLsb' 0 5, imm.extractLsb' 5 7⟩)
  | .slliw rd rs1 amt => some (.w32 ⟨0x1b, rd, 1, rs1, amt, 0⟩)
  | .srliw rd rs1 amt => some (.w32 ⟨0x1b, rd, 5, rs1, amt, 0⟩)
  | .sraiw rd rs1 amt => some (.w32 ⟨0x1b, rd, 5, rs1, amt, 32⟩)
  | .add rd rs1 rs2 => some (.w32 ⟨0x33, rd, 0, rs1, rs2, 0⟩)
  | .sub rd rs1 rs2 => some (.w32 ⟨0x33, rd, 0, rs1, rs2, 32⟩)
  | .sll rd rs1 rs2 => some (.w32 ⟨0x33, rd, 1, rs1, rs2, 0⟩)
  | .slt rd rs1 rs2 => some (.w32 ⟨0x33, rd, 2, rs1, rs2, 0⟩)
  | .sltu rd rs1 rs2 => some (.w32 ⟨0x33, rd, 3, rs1, rs2, 0⟩)
  | .xor rd rs1 rs2 => some (.w32 ⟨0x33, rd, 4, rs1, rs2, 0⟩)
  | .srl rd rs1 rs2 => some (.w32 ⟨0x33, rd, 5, rs1, rs2, 0⟩)
  | .sra rd rs1 rs2 => some (.w32 ⟨0x33, rd, 5, rs1, rs2, 32⟩)
  | .or rd rs1 rs2 => some (.w32 ⟨0x33, rd, 6, rs1, rs2, 0⟩)
  | .and rd rs1 rs2 => some (.w32 ⟨0x33, rd, 7, rs1, rs2, 0⟩)
  | .mul rd rs1 rs2 => some (.w32 ⟨0x33, rd, 0, rs1, rs2, 1⟩)
  | .mulh rd rs1 rs2 => some (.w32 ⟨0x33, rd, 1, rs1, rs2, 1⟩)
  | .mulhsu rd rs1 rs2 => some (.w32 ⟨0x33, rd, 2, rs1, rs2, 1⟩)
  | .mulhu rd rs1 rs2 => some (.w32 ⟨0x33, rd, 3, rs1, rs2, 1⟩)
  | .div rd rs1 rs2 => some (.w32 ⟨0x33, rd, 4, rs1, rs2, 1⟩)
  | .divu rd rs1 rs2 => some (.w32 ⟨0x33, rd, 5, rs1, rs2, 1⟩)
  | .rem rd rs1 rs2 => some (.w32 ⟨0x33, rd, 6, rs1, rs2, 1⟩)
  | .remu rd rs1 rs2 => some (.w32 ⟨0x33, rd, 7, rs1, rs2, 1⟩)
  | .addw rd rs1 rs2 => some (.w32 ⟨0x3b, rd, 0, rs1, rs2, 0⟩)
  | .subw rd rs1 rs2 => some (.w32 ⟨0x3b, rd, 0, rs1, rs2, 32⟩)
  | .sllw rd rs1 rs2 => some (.w32 ⟨0x3b, rd, 1, rs1, rs2, 0⟩)
  | .srlw rd rs1 rs2 => some (.w32 ⟨0x3b, rd, 5, rs1, rs2, 0⟩)
  | .sraw rd rs1 rs2 => some (.w32 ⟨0x3b, rd, 5, rs1, rs2, 32⟩)
  | .mulw rd rs1 rs2 => some (.w32 ⟨0x3b, rd, 0, rs1, rs2, 1⟩)
  | .divw rd rs1 rs2 => some (.w32 ⟨0x3b, rd, 4, rs1, rs2, 1⟩)
  | .divuw rd rs1 rs2 => some (.w32 ⟨0x3b, rd, 5, rs1, rs2, 1⟩)
  | .remw rd rs1 rs2 => some (.w32 ⟨0x3b, rd, 6, rs1, rs2, 1⟩)
  | .remuw rd rs1 rs2 => some (.w32 ⟨0x3b, rd, 7, rs1, rs2, 1⟩)
  | .lr rd rs1 aq rl dbl => some (.w32 ⟨0x2f, rd, amoWidth dbl, rs1, 0, 2#5 ++ BitVec.ofBool aq ++ BitVec.ofBool rl⟩)
  | .sc rd rs1 rs2 aq rl dbl => some (.w32 ⟨0x2f, rd, amoWidth dbl, rs1, rs2, 3#5 ++ BitVec.ofBool aq ++ BitVec.ofBool rl⟩)
  | .amoswap rd rs1 rs2 aq rl dbl => some (.w32 ⟨0x2f, rd, amoWidth dbl, rs1, rs2, 1#5 ++ BitVec.ofBool aq ++ BitVec.ofBool rl⟩)
  | .amoadd rd rs1 rs2 aq rl dbl => some (.w32 ⟨0x2f, rd, amoWidth dbl, rs1, rs2, 0#5 ++ BitVec.ofBool aq ++ BitVec.ofBool rl⟩)
  | .amoxor rd rs1 rs2 aq rl dbl => some (.w32 ⟨0x2f, rd, amoWidth dbl, rs1, rs2, 4#5 ++ BitVec.ofBool aq ++ BitVec.ofBool rl⟩)
  | .amoand rd rs1 rs2 aq rl dbl => some (.w32 ⟨0x2f, rd, amoWidth dbl, rs1, rs2, 12#5 ++ BitVec.ofBool aq ++ BitVec.ofBool rl⟩)
  | .amoor rd rs1 rs2 aq rl dbl => some (.w32 ⟨0x2f, rd, amoWidth dbl, rs1, rs2, 8#5 ++ BitVec.ofBool aq ++ BitVec.ofBool rl⟩)
  | .amomin rd rs1 rs2 aq rl dbl => some (.w32 ⟨0x2f, rd, amoWidth dbl, rs1, rs2, 16#5 ++ BitVec.ofBool aq ++ BitVec.ofBool rl⟩)
  | .amomax rd rs1 rs2 aq rl dbl => some (.w32 ⟨0x2f, rd, amoWidth dbl, rs1, rs2, 20#5 ++ BitVec.ofBool aq ++ BitVec.ofBool rl⟩)
  | .amominu rd rs1 rs2 aq rl dbl => some (.w32 ⟨0x2f, rd, amoWidth dbl, rs1, rs2, 24#5 ++ BitVec.ofBool aq ++ BitVec.ofBool rl⟩)
  | .amomaxu rd rs1 rs2 aq rl dbl => some (.w32 ⟨0x2f, rd, amoWidth dbl, rs1, rs2, 28#5 ++ BitVec.ofBool aq ++ BitVec.ofBool rl⟩)
  | .fence tso pred succ => some (.w32 ⟨0x0f, 0, 0, 0, pred.extractLsb' 0 1 ++ succ, BitVec.ofBool tso ++ 0#3 ++ pred.extractLsb' 1 3⟩)
  | .fenceI => some (.w32 ⟨0x0f, 0, 1, 0, 0, 0⟩)
  | .ecall => some (.w32 ⟨0x73, 0, 0, 0, 0, 0⟩)
  | .ebreak => some (.w32 ⟨0x73, 0, 0, 0, 1, 0⟩)
  | .sret => some (.w32 ⟨0x73, 0, 0, 0, 2, 8⟩)
  | .mret => some (.w32 ⟨0x73, 0, 0, 0, 2, 24⟩)
  | .wfi => some (.w32 ⟨0x73, 0, 0, 0, 5, 8⟩)
  | .sfenceVma rs1 rs2 => some (.w32 ⟨0x73, 0, 0, rs1, rs2, 9⟩)
  | .csrrw rd rs1 csr => some (.w32 ⟨0x73, rd, 1, rs1, csr.extractLsb' 0 5, csr.extractLsb' 5 7⟩)
  | .csrrs rd rs1 csr => some (.w32 ⟨0x73, rd, 2, rs1, csr.extractLsb' 0 5, csr.extractLsb' 5 7⟩)
  | .csrrc rd rs1 csr => some (.w32 ⟨0x73, rd, 3, rs1, csr.extractLsb' 0 5, csr.extractLsb' 5 7⟩)
  | .csrrwi rd uimm csr => some (.w32 ⟨0x73, rd, 5, uimm, csr.extractLsb' 0 5, csr.extractLsb' 5 7⟩)
  | .csrrsi rd uimm csr => some (.w32 ⟨0x73, rd, 6, uimm, csr.extractLsb' 0 5, csr.extractLsb' 5 7⟩)
  | .csrrci rd uimm csr => some (.w32 ⟨0x73, rd, 7, uimm, csr.extractLsb' 0 5, csr.extractLsb' 5 7⟩)
  | .ladd f => some (.l64 ⟨0, 0x0, f.vd, f.va, f.vb, 0, f.ty.code, f.guard.pred, f.guard.sense, 0⟩)
  | .laddImm f => some (.l64 ⟨0, 0x20, f.vd, f.va, 0, 0, f.ty.code, f.guard.pred, f.guard.sense, f.imm⟩)
  | .laddS32 f => some (.w32 ⟨0x0b, f.vd, f.ty.code, f.va, f.vb, 0⟩)
  | .lsub f => some (.l64 ⟨0, 0x1, f.vd, f.va, f.vb, 0, f.ty.code, f.guard.pred, f.guard.sense, 0⟩)
  | .lsubImm f => some (.l64 ⟨0, 0x21, f.vd, f.va, 0, 0, f.ty.code, f.guard.pred, f.guard.sense, f.imm⟩)
  | .lsubS32 f => some (.w32 ⟨0x0b, f.vd, f.ty.code, f.va, f.vb, 1⟩)
  | .lmul f => some (.l64 ⟨0, 0x2, f.vd, f.va, f.vb, 0, f.ty.code, f.guard.pred, f.guard.sense, 0⟩)
  | .lmulImm f => some (.l64 ⟨0, 0x22, f.vd, f.va, 0, 0, f.ty.code, f.guard.pred, f.guard.sense, f.imm⟩)
  | .lmulS32 f => some (.w32 ⟨0x0b, f.vd, f.ty.code, f.va, f.vb, 2⟩)
  | .lmulh f => some (.l64 ⟨0, 0x3, f.vd, f.va, f.vb, 0, f.ty.code, f.guard.pred, f.guard.sense, 0⟩)
  | .lmulhImm f => some (.l64 ⟨0, 0x23, f.vd, f.va, 0, 0, f.ty.code, f.guard.pred, f.guard.sense, f.imm⟩)
  | .lmulhS32 f => some (.w32 ⟨0x0b, f.vd, f.ty.code, f.va, f.vb, 3⟩)
  | .lmad f => some (.l64 ⟨0, 0x4, f.vd, f.va, f.vb, f.vc, f.ty.code, f.guard.pred, f.guard.sense, 0⟩)
  | .lmadImm f => some (.l64 ⟨0, 0x24, f.vd, f.va, 0, f.vc, f.ty.code, f.guard.pred, f.guard.sense, f.imm⟩)
  | .lmin f => some (.l64 ⟨0, 0x5, f.vd, f.va, f.vb, 0, f.ty.code, f.guard.pred, f.guard.sense, 0⟩)
  | .lminImm f => some (.l64 ⟨0, 0x25, f.vd, f.va, 0, 0, f.ty.code, f.guard.pred, f.guard.sense, f.imm⟩)
  | .lminS32 f => some (.w32 ⟨0x0b, f.vd, f.ty.code, f.va, f.vb, 5⟩)
  | .lmax f => some (.l64 ⟨0, 0x6, f.vd, f.va, f.vb, 0, f.ty.code, f.guard.pred, f.guard.sense, 0⟩)
  | .lmaxImm f => some (.l64 ⟨0, 0x26, f.vd, f.va, 0, 0, f.ty.code, f.guard.pred, f.guard.sense, f.imm⟩)
  | .lmaxS32 f => some (.w32 ⟨0x0b, f.vd, f.ty.code, f.va, f.vb, 6⟩)
  | .labs f => some (.l64 ⟨0, 0x7, f.vd, f.va, 0, 0, f.ty.code, f.guard.pred, f.guard.sense, 0⟩)
  | .labsS32 f => some (.w32 ⟨0x0b, f.vd, f.ty.code, f.va, 0, 7⟩)
  | .land f => some (.l64 ⟨0, 0x8, f.vd, f.va, f.vb, 0, f.ty.code, f.guard.pred, f.guard.sense, 0⟩)
  | .landImm f => some (.l64 ⟨0, 0x28, f.vd, f.va, 0, 0, f.ty.code, f.guard.pred, f.guard.sense, f.imm⟩)
  | .landS32 f => some (.w32 ⟨0x0b, f.vd, f.ty.code, f.va, f.vb, 8⟩)
  | .lor f => some (.l64 ⟨0, 0x9, f.vd, f.va, f.vb, 0, f.ty.code, f.guard.pred, f.guard.sense, 0⟩)
  | .lorImm f => some (.l64 ⟨0, 0x29, f.vd, f.va, 0, 0, f.ty.code, f.guard.pred, f.guard.sense, f.imm⟩)
  | .lorS32 f => some (.w32 ⟨0x0b, f.vd, f.ty.code, f.va, f.vb, 9⟩)
  | .lxor f => some (.l64 ⟨0, 0xa, f.vd, f.va, f.vb, 0, f.ty.code, f.guard.pred, f.guard.sense, 0⟩)
  | .lxorImm f => some (.l64 ⟨0, 0x2a, f.vd, f.va, 0, 0, f.ty.code, f.guard.pred, f.guard.sense, f.imm⟩)
  | .lxorS32 f => some (.w32 ⟨0x0b, f.vd, f.ty.code, f.va, f.vb, 10⟩)
  | .landn f => some (.l64 ⟨0, 0xb, f.vd, f.va, f.vb, 0, f.ty.code, f.guard.pred, f.guard.sense, 0⟩)
  | .landnImm f => some (.l64 ⟨0, 0x2b, f.vd, f.va, 0, 0, f.ty.code, f.guard.pred, f.guard.sense, f.imm⟩)
  | .landnS32 f => some (.w32 ⟨0x0b, f.vd, f.ty.code, f.va, f.vb, 11⟩)
  | .lshl f => some (.l64 ⟨0, 0xc, f.vd, f.va, f.vb, 0, f.ty.code, f.guard.pred, f.guard.sense, 0⟩)
  | .lshlImm f => some (.l64 ⟨0, 0x2c, f.vd, f.va, 0, 0, f.ty.code, f.guard.pred, f.guard.sense, f.imm⟩)
  | .lshlS32 f => some (.w32 ⟨0x0b, f.vd, f.ty.code, f.va, f.vb, 12⟩)
  | .lshr f => some (.l64 ⟨0, 0xd, f.vd, f.va, f.vb, 0, f.ty.code, f.guard.pred, f.guard.sense, 0⟩)
  | .lshrImm f => some (.l64 ⟨0, 0x2d, f.vd, f.va, 0, 0, f.ty.code, f.guard.pred, f.guard.sense, f.imm⟩)
  | .lshrS32 f => some (.w32 ⟨0x0b, f.vd, f.ty.code, f.va, f.vb, 13⟩)
  | .lsra f => some (.l64 ⟨0, 0xe, f.vd, f.va, f.vb, 0, f.ty.code, f.guard.pred, f.guard.sense, 0⟩)
  | .lsraImm f => some (.l64 ⟨0, 0x2e, f.vd, f.va, 0, 0, f.ty.code, f.guard.pred, f.guard.sense, f.imm⟩)
  | .lsraS32 f => some (.w32 ⟨0x0b, f.vd, f.ty.code, f.va, f.vb, 14⟩)
  | .lrot f => some (.l64 ⟨0, 0xf, f.vd, f.va, f.vb, 0, f.ty.code, f.guard.pred, f.guard.sense, 0⟩)
  | .lrotImm f => some (.l64 ⟨0, 0x2f, f.vd, f.va, 0, 0, f.ty.code, f.guard.pred, f.guard.sense, f.imm⟩)
  | .lrotS32 f => some (.w32 ⟨0x0b, f.vd, f.ty.code, f.va, f.vb, 15⟩)
  | .lclz f => some (.l64 ⟨0, 0x10, f.vd, f.va, 0, 0, f.ty.code, f.guard.pred, f.guard.sense, 0⟩)
  | .lclzS32 f => some (.w32 ⟨0x0b, f.vd, f.ty.code, f.va, 0, 16⟩)
  | .lpopc f => some (.l64 ⟨0, 0x11, f.vd, f.va, 0, 0, f.ty.code, f.guard.pred, f.guard.sense, 0⟩)
  | .lpopcS32 f => some (.w32 ⟨0x0b, f.vd, f.ty.code, f.va, 0, 17⟩)
  | .lbrev f => some (.l64 ⟨0, 0x12, f.vd, f.va, 0, 0, f.ty.code, f.guard.pred, f.guard.sense, 0⟩)
  | .lbrevS32 f => some (.w32 ⟨0x0b, f.vd, f.ty.code, f.va, 0, 18⟩)
  | .lbfx f pos len1 sx => some (.l64 ⟨0, 0x13, f.vd, f.va, 0, 0, f.ty.code, f.guard.pred, f.guard.sense, 0#5 ++ BitVec.ofBool sx ++ len1 ++ pos⟩)
  | .lbfi f pos len1 => some (.l64 ⟨0, 0x14, f.vd, f.va, f.vb, 0, f.ty.code, f.guard.pred, f.guard.sense, 0#6 ++ len1 ++ pos⟩)
  | .lsel f k neg => some (.l64 ⟨0, 0x15, f.vd, f.va, f.vb, 0, f.ty.code, f.guard.pred, f.guard.sense, 0#11 ++ BitVec.ofBool neg ++ k⟩)
  | .lselImm f k neg => some (.l64 ⟨0, 0x35, f.vd, f.va, 0#1 ++ BitVec.ofBool neg ++ k, 0, f.ty.code, f.guard.pred, f.guard.sense, f.imm⟩)
  | .lcmp f cond => some (.l64 ⟨0, 0x16, f.vd, f.va, f.vb, 0, f.ty.code, f.guard.pred, f.guard.sense, 0#13 ++ cond⟩)
  | .lcmpImm f cond => some (.l64 ⟨0, 0x36, f.vd, f.va, 0#3 ++ cond, 0, f.ty.code, f.guard.pred, f.guard.sense, f.imm⟩)
  | .laddc f pci pco used => some (.l64 ⟨0, 0x17, f.vd, f.va, f.vb, 0, f.ty.code, f.guard.pred, f.guard.sense, 0#7 ++ BitVec.ofBool used ++ pco ++ pci⟩)
  | .lfadd f => some (.l64 ⟨1, 0x0, f.vd, f.va, f.vb, 0, f.ty.code, f.guard.pred, f.guard.sense, 0⟩)
  | .lfaddImm f => some (.l64 ⟨1, 0x20, f.vd, f.va, 0, 0, f.ty.code, f.guard.pred, f.guard.sense, f.imm⟩)
  | .lfaddS32 f => some (.w32 ⟨0x0b, f.vd, f.ty.code, f.va, f.vb, 32⟩)
  | .lfsub f => some (.l64 ⟨1, 0x1, f.vd, f.va, f.vb, 0, f.ty.code, f.guard.pred, f.guard.sense, 0⟩)
  | .lfsubImm f => some (.l64 ⟨1, 0x21, f.vd, f.va, 0, 0, f.ty.code, f.guard.pred, f.guard.sense, f.imm⟩)
  | .lfsubS32 f => some (.w32 ⟨0x0b, f.vd, f.ty.code, f.va, f.vb, 33⟩)
  | .lfmul f => some (.l64 ⟨1, 0x2, f.vd, f.va, f.vb, 0, f.ty.code, f.guard.pred, f.guard.sense, 0⟩)
  | .lfmulImm f => some (.l64 ⟨1, 0x22, f.vd, f.va, 0, 0, f.ty.code, f.guard.pred, f.guard.sense, f.imm⟩)
  | .lfmulS32 f => some (.w32 ⟨0x0b, f.vd, f.ty.code, f.va, f.vb, 34⟩)
  | .lfma f => some (.l64 ⟨1, 0x3, f.vd, f.va, f.vb, f.vc, f.ty.code, f.guard.pred, f.guard.sense, 0⟩)
  | .lfmaImm f => some (.l64 ⟨1, 0x23, f.vd, f.va, 0, f.vc, f.ty.code, f.guard.pred, f.guard.sense, f.imm⟩)
  | .lfmin f => some (.l64 ⟨1, 0x4, f.vd, f.va, f.vb, 0, f.ty.code, f.guard.pred, f.guard.sense, 0⟩)
  | .lfminImm f => some (.l64 ⟨1, 0x24, f.vd, f.va, 0, 0, f.ty.code, f.guard.pred, f.guard.sense, f.imm⟩)
  | .lfminS32 f => some (.w32 ⟨0x0b, f.vd, f.ty.code, f.va, f.vb, 36⟩)
  | .lfmax f => some (.l64 ⟨1, 0x5, f.vd, f.va, f.vb, 0, f.ty.code, f.guard.pred, f.guard.sense, 0⟩)
  | .lfmaxImm f => some (.l64 ⟨1, 0x25, f.vd, f.va, 0, 0, f.ty.code, f.guard.pred, f.guard.sense, f.imm⟩)
  | .lfmaxS32 f => some (.w32 ⟨0x0b, f.vd, f.ty.code, f.va, f.vb, 37⟩)
  | .lfsgn f kind => some (.l64 ⟨1, 0x6, f.vd, f.va, f.vb, 0, f.ty.code, f.guard.pred, f.guard.sense, 0#14 ++ kind⟩)
  | .lfrcp f => some (.l64 ⟨1, 0x7, f.vd, f.va, 0, 0, f.ty.code, f.guard.pred, f.guard.sense, 0⟩)
  | .lfrcpS32 f => some (.w32 ⟨0x0b, f.vd, f.ty.code, f.va, 0, 39⟩)
  | .lfrsq f => some (.l64 ⟨1, 0x8, f.vd, f.va, 0, 0, f.ty.code, f.guard.pred, f.guard.sense, 0⟩)
  | .lfrsqS32 f => some (.w32 ⟨0x0b, f.vd, f.ty.code, f.va, 0, 40⟩)
  | .lfsqrt f => some (.l64 ⟨1, 0x9, f.vd, f.va, 0, 0, f.ty.code, f.guard.pred, f.guard.sense, 0⟩)
  | .lfsqrtS32 f => some (.w32 ⟨0x0b, f.vd, f.ty.code, f.va, 0, 41⟩)
  | .lfdiv f => some (.l64 ⟨1, 0xa, f.vd, f.va, f.vb, 0, f.ty.code, f.guard.pred, f.guard.sense, 0⟩)
  | .lfdivImm f => some (.l64 ⟨1, 0x2a, f.vd, f.va, 0, 0, f.ty.code, f.guard.pred, f.guard.sense, f.imm⟩)
  | .lfdivS32 f => some (.w32 ⟨0x0b, f.vd, f.ty.code, f.va, f.vb, 42⟩)
  | .lfexp2 f => some (.l64 ⟨1, 0xb, f.vd, f.va, 0, 0, f.ty.code, f.guard.pred, f.guard.sense, 0⟩)
  | .lfexp2S32 f => some (.w32 ⟨0x0b, f.vd, f.ty.code, f.va, 0, 43⟩)
  | .lflog2 f => some (.l64 ⟨1, 0xc, f.vd, f.va, 0, 0, f.ty.code, f.guard.pred, f.guard.sense, 0⟩)
  | .lflog2S32 f => some (.w32 ⟨0x0b, f.vd, f.ty.code, f.va, 0, 44⟩)
  | .lfcmp f cond => some (.l64 ⟨1, 0xd, f.vd, f.va, f.vb, 0, f.ty.code, f.guard.pred, f.guard.sense, 0#13 ++ cond⟩)
  | .lfcmpImm f cond => some (.l64 ⟨1, 0x2d, f.vd, f.va, 0#3 ++ cond, 0, f.ty.code, f.guard.pred, f.guard.sense, f.imm⟩)
  | .lfclass f mask => some (.l64 ⟨1, 0xe, f.vd, f.va, 0, 0, f.ty.code, f.guard.pred, f.guard.sense, 0#6 ++ mask⟩)
  | .lcvt f dst src bs sel => some (.l64 ⟨1, 0xf, f.vd, f.va, 0, 0, f.ty.code, f.guard.pred, f.guard.sense, 0#5 ++ sel ++ BitVec.ofBool bs ++ src ++ dst⟩)
  | .lpack f dst => some (.l64 ⟨1, 0x10, f.vd, f.va, f.vb, 0, f.ty.code, f.guard.pred, f.guard.sense, 0#12 ++ dst⟩)
  | .lunpk f src k => some (.l64 ⟨1, 0x11, f.vd, f.va, 0, 0, f.ty.code, f.guard.pred, f.guard.sense, 0#9 ++ k ++ src⟩)
  | .lmov f => some (.l64 ⟨2, 0x0, f.vd, f.va, 0, 0, f.ty.code, f.guard.pred, f.guard.sense, 0⟩)
  | .lmovi vd imm ty guard => some (.l64 ⟨2, 0x20, vd, 0, 0, 0, ty.code, guard.pred, guard.sense, imm⟩)
  | .lbcast f => some (.l64 ⟨2, 0x1, f.vd, f.va, 0, 0, f.ty.code, f.guard.pred, f.guard.sense, 0⟩)
  | .lextr xd va ty n => some (.l64 ⟨2, 0x2, xd, va, 0, 0, ty.code, 15, false, 0#11 ++ n⟩)
  | .lins vd xs ty n => some (.l64 ⟨2, 0x3, vd, xs, 0, 0, ty.code, 15, false, 0#11 ++ n⟩)
  | .lshfl f kind c => some (.l64 ⟨2, 0x4, f.vd, f.va, f.vb, 0, f.ty.code, f.guard.pred, f.guard.sense, 0#8 ++ c ++ kind⟩)
  | .lred f op => some (.l64 ⟨2, 0x5, f.vd, f.va, 0, 0, f.ty.code, f.guard.pred, f.guard.sense, 0#13 ++ op⟩)
  | .lscan f op excl => some (.l64 ⟨2, 0x6, f.vd, f.va, 0, 0, f.ty.code, f.guard.pred, f.guard.sense, 0#12 ++ BitVec.ofBool excl ++ op⟩)
  | .lballot xd pa => some (.l64 ⟨2, 0x7, xd, pa, 0, 0, 0, 15, false, 0⟩)
  | .lgets vd guard src => some (.l64 ⟨2, 0x8, vd, 0, 0, 0, 0, guard.pred, guard.sense, 0#13 ++ src⟩)
  | .ltrns vd va => some (.l64 ⟨2, 0x9, vd, va, 0, 0, 0, 15, false, 0⟩)
  | .plog pd pa pb guard tt => some (.l64 ⟨2, 0xa, pd, pa, pb, 0, 0, guard.pred, guard.sense, 0#12 ++ tt⟩)
  | .pmovPred pd pa guard => some (.l64 ⟨2, 0xb, pd, pa, 0, 0, 0, guard.pred, guard.sense, 0⟩)
  | .pmovFromX pd xs guard => some (.l64 ⟨2, 0xb, pd, xs, 0, 0, 0, guard.pred, guard.sense, 1⟩)
  | .pmovToX xd pa => some (.l64 ⟨2, 0xb, xd, pa, 0, 0, 0, 15, false, 2⟩)
  | .emset xs => some (.l64 ⟨2, 0xc, 0, xs, 0, 0, 0, 15, false, 0⟩)
  | .emget xd => some (.l64 ⟨2, 0xd, xd, 0, 0, 0, 0, 15, false, 0⟩)
  | .emand xd pa neg => some (.l64 ⟨2, 0xe, xd, pa, 0, 0, 0, 15, false, 0#15 ++ BitVec.ofBool neg⟩)
  | .lld m policy => some (.l64 ⟨3, 0x0, m.vd, m.xb, m.vo, BitVec.ofBool m.sx ++ m.size ++ m.space, 0, m.guard.pred, m.guard.sense, 0#14 ++ policy⟩)
  | .lldImm m imm => some (.l64 ⟨3, 0x20, m.vd, m.xb, m.vo, BitVec.ofBool m.sx ++ m.size ++ m.space, 0, m.guard.pred, m.guard.sense, imm⟩)
  | .lst m policy => some (.l64 ⟨3, 0x1, m.vd, m.xb, m.vo, BitVec.ofBool m.sx ++ m.size ++ m.space, 0, m.guard.pred, m.guard.sense, 0#14 ++ policy⟩)
  | .lstImm m imm => some (.l64 ⟨3, 0x21, m.vd, m.xb, m.vo, BitVec.ofBool m.sx ++ m.size ++ m.space, 0, m.guard.pred, m.guard.sense, imm⟩)
  | .lldt m policy => some (.l64 ⟨3, 0x2, m.vd, m.xb, m.vo, BitVec.ofBool m.sx ++ m.size ++ m.space, 0, m.guard.pred, m.guard.sense, 0#14 ++ policy⟩)
  | .lldtImm m imm => some (.l64 ⟨3, 0x22, m.vd, m.xb, m.vo, BitVec.ofBool m.sx ++ m.size ++ m.space, 0, m.guard.pred, m.guard.sense, imm⟩)
  | .lamo m op order scope vs => some (.l64 ⟨3, 0x3, m.vd, m.xb, m.vo, BitVec.ofBool m.sx ++ m.size ++ m.space, 0, m.guard.pred, m.guard.sense, vs ++ scope ++ order ++ op⟩)
  | .lpref m policy => some (.l64 ⟨3, 0x4, m.vd, m.xb, m.vo, BitVec.ofBool m.sx ++ m.size ++ m.space, 0, m.guard.pred, m.guard.sense, 0#14 ++ policy⟩)
  | .lprefImm m imm => some (.l64 ⟨3, 0x24, m.vd, m.xb, m.vo, BitVec.ofBool m.sx ++ m.size ++ m.space, 0, m.guard.pred, m.guard.sense, imm⟩)
  | .mma j src q fmt had norm => some (.l64 ⟨4, 0x0, j.xd, j.a, j.b, 0#2 ++ j.acc, 0, 15, false, BitVec.ofBool j.notify ++ j.scope ++ 0#2 ++ BitVec.ofBool norm ++ had ++ fmt ++ q ++ BitVec.ofBool src⟩)
  | .mmas j src q fsa fsb had norm => some (.l64 ⟨4, 0x1, j.xd, j.a, j.b, 0#2 ++ j.acc, 0, 15, false, BitVec.ofBool j.notify ++ j.scope ++ 0#2 ++ BitVec.ofBool norm ++ had ++ fsb ++ fsa ++ q ++ BitVec.ofBool src⟩)
  | .mhad j size norm => some (.l64 ⟨4, 0x2, j.xd, j.a, j.b, 0#2 ++ j.acc, 0, 15, false, BitVec.ofBool j.notify ++ j.scope ++ 0#9 ++ BitVec.ofBool norm ++ size⟩)
  | .mqnt j rm fs => some (.l64 ⟨4, 0x3, j.xd, j.a, j.b, 0#2 ++ j.acc, 0, 15, false, BitVec.ofBool j.notify ++ j.scope ++ 0#7 ++ fs ++ rm⟩)
  | .mcvt j rm sat => some (.l64 ⟨4, 0x4, j.xd, j.a, j.b, 0#2 ++ j.acc, 0, 15, false, BitVec.ofBool j.notify ++ j.scope ++ 0#7 ++ sat ++ rm⟩)
  | .mzero j kind => some (.l64 ⟨4, 0x5, j.xd, j.a, j.b, 0#2 ++ j.acc, 0, 15, false, BitVec.ofBool j.notify ++ j.scope ++ 0#11 ++ BitVec.ofBool kind⟩)
  | .mst j rm n1 => some (.l64 ⟨4, 0x6, j.xd, j.a, j.b, 0#2 ++ j.acc, 0, 15, false, BitVec.ofBool j.notify ++ j.scope ++ 0#5 ++ n1 ++ rm⟩)
  | .mld j n1 kind => some (.l64 ⟨4, 0x7, j.xd, j.a, j.b, 0#2 ++ j.acc, 0, 15, false, BitVec.ofBool j.notify ++ j.scope ++ 0#7 ++ BitVec.ofBool kind ++ n1⟩)
  | .barC => some (.w32 ⟨0x2b, 0, 0, 0, 0, 0⟩)
  | .barK => some (.w32 ⟨0x2b, 0, 0, 0, 1, 0⟩)
  | .rfl xd => some (.w32 ⟨0x2b, xd, 0, 0, 0, 1⟩)
  | .xit => some (.w32 ⟨0x2b, 0, 0, 0, 0, 2⟩)
  | .spw pd xq vs => some (.w32 ⟨0x2b, 0#1 ++ pd, 0, xq, vs, 3⟩)
  | .enq xd xq xp => some (.w32 ⟨0x2b, xd, 0, xq, xp, 4⟩)
  | .pfence scope order => some (.w32 ⟨0x2b, 0, 1, 0, order ++ scope, 0⟩)
  | .xfence => some (.w32 ⟨0x2b, 0, 1, 0, 0, 1⟩)
  | .ofence => some (.w32 ⟨0x2b, 0, 1, 0, 0, 2⟩)
  | .waita xd xa xt => some (.w32 ⟨0x2b, xd, 2, xa, xt, 0⟩)
  | .lkbank xb => some (.w32 ⟨0x2b, 0, 2, xb, 0, 1⟩)
  | .ulkbank xb => some (.w32 ⟨0x2b, 0, 2, xb, 0, 2⟩)
  | .bcpy xd xa xn => some (.w32 ⟨0x2b, xd, 3, xa, xn, 0⟩)
  | .bfil xd xa xn => some (.w32 ⟨0x2b, xd, 3, xa, xn, 1⟩)
  | .bgat xd xa xn => some (.w32 ⟨0x2b, xd, 3, xa, xn, 2⟩)
  | .bsct xd xa xn => some (.w32 ⟨0x2b, xd, 3, xa, xn, 3⟩)
  | .jpoll xd xj => some (.w32 ⟨0x2b, xd, 4, xj, 0, 0⟩)
  | .jwait xd xj => some (.w32 ⟨0x2b, xd, 4, xj, 0, 1⟩)
  | .jyield xj xc => some (.w32 ⟨0x2b, 0, 4, xj, xc, 2⟩)
  | .px m => some (.w32 ⟨0x5b, 0, 0, m.sat ++ m.rm, 0#3 ++ BitVec.ofBool m.fso ++ BitVec.ofBool m.fsi, 0⟩)
  | .tlbw xe xa => some (.w32 ⟨0x5b, 0, 1, xe, xa, 0⟩)
  | .tlbinv xa xc => some (.w32 ⟨0x5b, 0, 1, xa, xc, 1⟩)
  | .tlbprobe xd xa => some (.w32 ⟨0x5b, xd, 1, xa, 0, 2⟩)
  | .ctxs xr => some (.w32 ⟨0x5b, 0, 2, xr, 0, 0⟩)
  | .ctxl xr => some (.w32 ⟨0x5b, 0, 2, xr, 0, 1⟩)
  | .msgs xt xm => some (.w32 ⟨0x5b, 0, 3, xt, xm, 0⟩)
  | .msgr xd xb => some (.w32 ⟨0x5b, xd, 3, xb, 0, 1⟩)
  | .retx => some (.w32 ⟨0x5b, 0, 4, 0, 0, 0⟩)
  | .fwVersion | .fwFeatureMask | .fwPosition | .fwUnsupported | .takeAsyncCause | .takeInterrupt => none
  | .missDataReturn | .releaseComplete | .rflClaimAnswer | .bankLockGrant | .bankLockBreak | .waitaWake => none
  | .waitaTimeout | .wfiWake | .sfenceVmaComplete | .orderedStallEnd | .hangDetect | .barrierRelease => none
  | .packetCheck | .launchActivate | .queueAging | .placeUnit | .placeGang | .itemCommit => none
  | .launchComplete | .launchFail | .jobStart | .matrixStartGrant | .bteChunk | .jobComplete => none
  | .jobFail | .tscWalk | .walkResultReturn | .faultRecordDeferred | .lineWriteback | .correctableError => none
  | .uncorrectableError | .llcTagError | .cleanSweep | .spareSubstitution | .retirement | .vacateOrder => none
  | .vacateLift | .progressInterval | .vacateCheck | .vacateDeadlineFail | .vacancyReached | .safePointGraceExpiry => none
  | .hartSave | .contextSpill | .sealedCoreSave | .hartRestore | .powerOn | .powerOff => none
  | .packageReset | .dieResetEnd | .dieNegotiate | .dieCertificateCheck | .dieChallenge | .dieMeasurementCheck => none
  | .dieKeyExchange | .dieKeyDelivery | .dieAdmit | .attestTimeout | .flitReceive | .keyRolloverStart => none
  | .rolloverAckTimeout | .oldKeyErase | .hostRawAccess | .hostWindowAccess | .poolBackInvalidate | .remoteRequest => none
  | .mailboxUnknownCode | .partSet | .partDrop | .mapSet | .imgInfo | .ringSet => none
  | .qreg | .qdrop | .winSet | .fltAnsReplay | .fltAnsDecline | .s2Set => none
  | .pageOut | .pageIn | .dieReset | .dieStatus | .exportCmd | .dbgHalt => none
  | .dbgResume | .dbgStep | .dbgRd | .dbgWr | .gangStop | .gangGo => none
  | .resync | .powerSet | .domSet | .fconsWrite | .heatControlWrite | .registerWrite => none
  | .getVersion | .getCapabilities | .negotiateAlgorithms | .getDigests | .getCertificate | .challenge => none
  | .getMeasurements | .keyExchange | .finish | .endSession | .reportBind | .spdmUnsupportedRequest => none
  | .clusterGate | .clusterWake | .powerWindow | .thermalReset | .illegalInstruction | .instructionFetchFault => none
  | .writePerformed | .cleanSweepEnd | .linkRetrainingEnd | .pseudoChannelCopyEnd | .cobaltLinkKeying => none

/-- R61: BRANCH. -/
def branchOf (w : W32) : Option Instr :=
  match w.f3.toNat with
  | 0 => some (.beq w.rs1 w.rs2 (w.f7.extractLsb' 6 1 ++ w.rd.extractLsb' 0 1 ++ w.f7.extractLsb' 0 6 ++ w.rd.extractLsb' 1 4))
  | 1 => some (.bne w.rs1 w.rs2 (w.f7.extractLsb' 6 1 ++ w.rd.extractLsb' 0 1 ++ w.f7.extractLsb' 0 6 ++ w.rd.extractLsb' 1 4))
  | 4 => some (.blt w.rs1 w.rs2 (w.f7.extractLsb' 6 1 ++ w.rd.extractLsb' 0 1 ++ w.f7.extractLsb' 0 6 ++ w.rd.extractLsb' 1 4))
  | 5 => some (.bge w.rs1 w.rs2 (w.f7.extractLsb' 6 1 ++ w.rd.extractLsb' 0 1 ++ w.f7.extractLsb' 0 6 ++ w.rd.extractLsb' 1 4))
  | 6 => some (.bltu w.rs1 w.rs2 (w.f7.extractLsb' 6 1 ++ w.rd.extractLsb' 0 1 ++ w.f7.extractLsb' 0 6 ++ w.rd.extractLsb' 1 4))
  | 7 => some (.bgeu w.rs1 w.rs2 (w.f7.extractLsb' 6 1 ++ w.rd.extractLsb' 0 1 ++ w.f7.extractLsb' 0 6 ++ w.rd.extractLsb' 1 4))
  | _ => none

/-- R61: LOAD. -/
def loadOf (w : W32) : Option Instr :=
  match w.f3.toNat with
  | 0 => some (.lb w.rd w.rs1 (w.f7 ++ w.rs2))
  | 1 => some (.lh w.rd w.rs1 (w.f7 ++ w.rs2))
  | 2 => some (.lw w.rd w.rs1 (w.f7 ++ w.rs2))
  | 3 => some (.ld w.rd w.rs1 (w.f7 ++ w.rs2))
  | 4 => some (.lbu w.rd w.rs1 (w.f7 ++ w.rs2))
  | 5 => some (.lhu w.rd w.rs1 (w.f7 ++ w.rs2))
  | 6 => some (.lwu w.rd w.rs1 (w.f7 ++ w.rs2))
  | _ => none

/-- R61: STORE. -/
def storeOf (w : W32) : Option Instr :=
  match w.f3.toNat with
  | 0 => some (.sb w.rs1 w.rs2 (w.f7 ++ w.rd))
  | 1 => some (.sh w.rs1 w.rs2 (w.f7 ++ w.rd))
  | 2 => some (.sw w.rs1 w.rs2 (w.f7 ++ w.rd))
  | 3 => some (.sd w.rs1 w.rs2 (w.f7 ++ w.rd))
  | _ => none

/-- R61: OP-IMM; the shifts carry funct6 in [31:26]. -/
def opImmOf (w : W32) : Option Instr :=
  match w.f3.toNat, (w.f7.extractLsb' 1 6).toNat with
  | 0, _ => some (.addi w.rd w.rs1 (w.f7 ++ w.rs2))
  | 2, _ => some (.slti w.rd w.rs1 (w.f7 ++ w.rs2))
  | 3, _ => some (.sltiu w.rd w.rs1 (w.f7 ++ w.rs2))
  | 4, _ => some (.xori w.rd w.rs1 (w.f7 ++ w.rs2))
  | 6, _ => some (.ori w.rd w.rs1 (w.f7 ++ w.rs2))
  | 7, _ => some (.andi w.rd w.rs1 (w.f7 ++ w.rs2))
  | 1, 0 => some (.slli w.rd w.rs1 (w.f7.extractLsb' 0 1 ++ w.rs2))
  | 5, 0 => some (.srli w.rd w.rs1 (w.f7.extractLsb' 0 1 ++ w.rs2))
  | 5, 16 => some (.srai w.rd w.rs1 (w.f7.extractLsb' 0 1 ++ w.rs2))
  | _, _ => none

/-- R61: OP-IMM-32. -/
def opImm32Of (w : W32) : Option Instr :=
  match w.f3.toNat, w.f7.toNat with
  | 0, _ => some (.addiw w.rd w.rs1 (w.f7 ++ w.rs2))
  | 1, 0 => some (.slliw w.rd w.rs1 w.rs2)
  | 5, 0 => some (.srliw w.rd w.rs1 w.rs2)
  | 5, 32 => some (.sraiw w.rd w.rs1 w.rs2)
  | _, _ => none

/-- R61: OP. -/
def opOf (w : W32) : Option Instr :=
  match w.f3.toNat, w.f7.toNat with
  | 0, 0 => some (.add w.rd w.rs1 w.rs2)
  | 0, 32 => some (.sub w.rd w.rs1 w.rs2)
  | 1, 0 => some (.sll w.rd w.rs1 w.rs2)
  | 2, 0 => some (.slt w.rd w.rs1 w.rs2)
  | 3, 0 => some (.sltu w.rd w.rs1 w.rs2)
  | 4, 0 => some (.xor w.rd w.rs1 w.rs2)
  | 5, 0 => some (.srl w.rd w.rs1 w.rs2)
  | 5, 32 => some (.sra w.rd w.rs1 w.rs2)
  | 6, 0 => some (.or w.rd w.rs1 w.rs2)
  | 7, 0 => some (.and w.rd w.rs1 w.rs2)
  | 0, 1 => some (.mul w.rd w.rs1 w.rs2)
  | 1, 1 => some (.mulh w.rd w.rs1 w.rs2)
  | 2, 1 => some (.mulhsu w.rd w.rs1 w.rs2)
  | 3, 1 => some (.mulhu w.rd w.rs1 w.rs2)
  | 4, 1 => some (.div w.rd w.rs1 w.rs2)
  | 5, 1 => some (.divu w.rd w.rs1 w.rs2)
  | 6, 1 => some (.rem w.rd w.rs1 w.rs2)
  | 7, 1 => some (.remu w.rd w.rs1 w.rs2)
  | _, _ => none

/-- R61: OP-32. -/
def op32Of (w : W32) : Option Instr :=
  match w.f3.toNat, w.f7.toNat with
  | 0, 0 => some (.addw w.rd w.rs1 w.rs2)
  | 0, 32 => some (.subw w.rd w.rs1 w.rs2)
  | 1, 0 => some (.sllw w.rd w.rs1 w.rs2)
  | 5, 0 => some (.srlw w.rd w.rs1 w.rs2)
  | 5, 32 => some (.sraw w.rd w.rs1 w.rs2)
  | 0, 1 => some (.mulw w.rd w.rs1 w.rs2)
  | 4, 1 => some (.divw w.rd w.rs1 w.rs2)
  | 5, 1 => some (.divuw w.rd w.rs1 w.rs2)
  | 6, 1 => some (.remw w.rd w.rs1 w.rs2)
  | 7, 1 => some (.remuw w.rd w.rs1 w.rs2)
  | _, _ => none

/-- R61, R67: AMO; funct5 in [31:27], aq [26], rl [25]. -/
def amoOf (w : W32) : Option Instr :=
  match (w.f7.extractLsb' 2 5).toNat with
  | 2 => some (.lr w.rd w.rs1 (w.f7.getLsbD 1) (w.f7.getLsbD 0) (w.f3 == 3))
  | 3 => some (.sc w.rd w.rs1 w.rs2 (w.f7.getLsbD 1) (w.f7.getLsbD 0) (w.f3 == 3))
  | 1 => some (.amoswap w.rd w.rs1 w.rs2 (w.f7.getLsbD 1) (w.f7.getLsbD 0) (w.f3 == 3))
  | 0 => some (.amoadd w.rd w.rs1 w.rs2 (w.f7.getLsbD 1) (w.f7.getLsbD 0) (w.f3 == 3))
  | 4 => some (.amoxor w.rd w.rs1 w.rs2 (w.f7.getLsbD 1) (w.f7.getLsbD 0) (w.f3 == 3))
  | 12 => some (.amoand w.rd w.rs1 w.rs2 (w.f7.getLsbD 1) (w.f7.getLsbD 0) (w.f3 == 3))
  | 8 => some (.amoor w.rd w.rs1 w.rs2 (w.f7.getLsbD 1) (w.f7.getLsbD 0) (w.f3 == 3))
  | 16 => some (.amomin w.rd w.rs1 w.rs2 (w.f7.getLsbD 1) (w.f7.getLsbD 0) (w.f3 == 3))
  | 20 => some (.amomax w.rd w.rs1 w.rs2 (w.f7.getLsbD 1) (w.f7.getLsbD 0) (w.f3 == 3))
  | 24 => some (.amominu w.rd w.rs1 w.rs2 (w.f7.getLsbD 1) (w.f7.getLsbD 0) (w.f3 == 3))
  | 28 => some (.amomaxu w.rd w.rs1 w.rs2 (w.f7.getLsbD 1) (w.f7.getLsbD 0) (w.f3 == 3))
  | _ => none

/-- R64: MISC-MEM. -/
def miscMemOf (w : W32) : Option Instr :=
  match w.f3.toNat with
  | 0 => some (.fence (w.f7.getLsbD 6) (w.f7.extractLsb' 0 3 ++ w.rs2.extractLsb' 4 1) (w.rs2.extractLsb' 0 4))
  | 1 => some (.fenceI)
  | _ => none

/-- R61, R77 to R80: SYSTEM. -/
def systemOf (w : W32) : Option Instr :=
  match w.f3.toNat, w.f7.toNat, w.rs2.toNat with
  | 0, 0, 0 => some (.ecall)
  | 0, 0, 1 => some (.ebreak)
  | 0, 8, 2 => some (.sret)
  | 0, 24, 2 => some (.mret)
  | 0, 8, 5 => some (.wfi)
  | 0, 9, _ => some (.sfenceVma w.rs1 w.rs2)
  | 1, _, _ => some (.csrrw w.rd w.rs1 (w.f7 ++ w.rs2))
  | 2, _, _ => some (.csrrs w.rd w.rs1 (w.f7 ++ w.rs2))
  | 3, _, _ => some (.csrrc w.rd w.rs1 (w.f7 ++ w.rs2))
  | 5, _, _ => some (.csrrwi w.rd w.rs1 (w.f7 ++ w.rs2))
  | 6, _, _ => some (.csrrsi w.rd w.rs1 (w.f7 ++ w.rs2))
  | 7, _, _ => some (.csrrci w.rd w.rs1 (w.f7 ++ w.rs2))
  | _, _, _ => none

/-- R48: custom-0, the short form S32. -/
def s32Of (w : W32) : Option Instr :=
  match w.f7.toNat with
  | 0 => some (.laddS32 ⟨w.rd, w.rs1, w.rs2, Ty.ofCode w.f3⟩)
  | 1 => some (.lsubS32 ⟨w.rd, w.rs1, w.rs2, Ty.ofCode w.f3⟩)
  | 2 => some (.lmulS32 ⟨w.rd, w.rs1, w.rs2, Ty.ofCode w.f3⟩)
  | 3 => some (.lmulhS32 ⟨w.rd, w.rs1, w.rs2, Ty.ofCode w.f3⟩)
  | 5 => some (.lminS32 ⟨w.rd, w.rs1, w.rs2, Ty.ofCode w.f3⟩)
  | 6 => some (.lmaxS32 ⟨w.rd, w.rs1, w.rs2, Ty.ofCode w.f3⟩)
  | 7 => some (.labsS32 ⟨w.rd, w.rs1, Ty.ofCode w.f3⟩)
  | 8 => some (.landS32 ⟨w.rd, w.rs1, w.rs2, Ty.ofCode w.f3⟩)
  | 9 => some (.lorS32 ⟨w.rd, w.rs1, w.rs2, Ty.ofCode w.f3⟩)
  | 10 => some (.lxorS32 ⟨w.rd, w.rs1, w.rs2, Ty.ofCode w.f3⟩)
  | 11 => some (.landnS32 ⟨w.rd, w.rs1, w.rs2, Ty.ofCode w.f3⟩)
  | 12 => some (.lshlS32 ⟨w.rd, w.rs1, w.rs2, Ty.ofCode w.f3⟩)
  | 13 => some (.lshrS32 ⟨w.rd, w.rs1, w.rs2, Ty.ofCode w.f3⟩)
  | 14 => some (.lsraS32 ⟨w.rd, w.rs1, w.rs2, Ty.ofCode w.f3⟩)
  | 15 => some (.lrotS32 ⟨w.rd, w.rs1, w.rs2, Ty.ofCode w.f3⟩)
  | 16 => some (.lclzS32 ⟨w.rd, w.rs1, Ty.ofCode w.f3⟩)
  | 17 => some (.lpopcS32 ⟨w.rd, w.rs1, Ty.ofCode w.f3⟩)
  | 18 => some (.lbrevS32 ⟨w.rd, w.rs1, Ty.ofCode w.f3⟩)
  | 32 => some (.lfaddS32 ⟨w.rd, w.rs1, w.rs2, Ty.ofCode w.f3⟩)
  | 33 => some (.lfsubS32 ⟨w.rd, w.rs1, w.rs2, Ty.ofCode w.f3⟩)
  | 34 => some (.lfmulS32 ⟨w.rd, w.rs1, w.rs2, Ty.ofCode w.f3⟩)
  | 36 => some (.lfminS32 ⟨w.rd, w.rs1, w.rs2, Ty.ofCode w.f3⟩)
  | 37 => some (.lfmaxS32 ⟨w.rd, w.rs1, w.rs2, Ty.ofCode w.f3⟩)
  | 39 => some (.lfrcpS32 ⟨w.rd, w.rs1, Ty.ofCode w.f3⟩)
  | 40 => some (.lfrsqS32 ⟨w.rd, w.rs1, Ty.ofCode w.f3⟩)
  | 41 => some (.lfsqrtS32 ⟨w.rd, w.rs1, Ty.ofCode w.f3⟩)
  | 42 => some (.lfdivS32 ⟨w.rd, w.rs1, w.rs2, Ty.ofCode w.f3⟩)
  | 43 => some (.lfexp2S32 ⟨w.rd, w.rs1, Ty.ofCode w.f3⟩)
  | 44 => some (.lflog2S32 ⟨w.rd, w.rs1, Ty.ofCode w.f3⟩)
  | _ => none

/-- R49: custom-1. -/
def custom1Of (w : W32) : Option Instr :=
  match w.f3.toNat, w.f7.toNat, w.rs2.toNat with
  | 0, 0, 0 => some (.barC)
  | 0, 0, 1 => some (.barK)
  | 0, 1, _ => some (.rfl w.rd)
  | 0, 2, _ => some (.xit)
  | 0, 3, _ => some (.spw (w.rd.extractLsb' 0 4) w.rs1 w.rs2)
  | 0, 4, _ => some (.enq w.rd w.rs1 w.rs2)
  | 1, 0, _ => some (.pfence (w.rs2.extractLsb' 0 3) (w.rs2.extractLsb' 3 2))
  | 1, 1, _ => some (.xfence)
  | 1, 2, _ => some (.ofence)
  | 2, 0, _ => some (.waita w.rd w.rs1 w.rs2)
  | 2, 1, _ => some (.lkbank w.rs1)
  | 2, 2, _ => some (.ulkbank w.rs1)
  | 3, 0, _ => some (.bcpy w.rd w.rs1 w.rs2)
  | 3, 1, _ => some (.bfil w.rd w.rs1 w.rs2)
  | 3, 2, _ => some (.bgat w.rd w.rs1 w.rs2)
  | 3, 3, _ => some (.bsct w.rd w.rs1 w.rs2)
  | 4, 0, _ => some (.jpoll w.rd w.rs1)
  | 4, 1, _ => some (.jwait w.rd w.rs1)
  | 4, 2, _ => some (.jyield w.rs1 w.rs2)
  | _, _, _ => none

/-- R50, R51: custom-2. -/
def custom2Of (w : W32) : Option Instr :=
  match w.f3.toNat, w.f7.toNat with
  | 0, _ => some (.px ⟨w.rs1.extractLsb' 0 3, w.rs1.extractLsb' 3 2, w.rs2.getLsbD 0, w.rs2.getLsbD 1⟩)
  | 1, 0 => some (.tlbw w.rs1 w.rs2)
  | 1, 1 => some (.tlbinv w.rs1 w.rs2)
  | 1, 2 => some (.tlbprobe w.rd w.rs1)
  | 2, 0 => some (.ctxs w.rs1)
  | 2, 1 => some (.ctxl w.rs1)
  | 3, 0 => some (.msgs w.rs1 w.rs2)
  | 3, 1 => some (.msgr w.rd w.rs1)
  | 4, 0 => some (.retx)
  | _, _ => none

/-- R29: the operation a 32-bit word names, by its major opcode. -/
def W32.candidate (w : W32) : Option Instr :=
  match w.op7.toNat with
  | 0x37 => some (.lui w.rd (w.f7 ++ w.rs2 ++ w.rs1 ++ w.f3))
  | 0x17 => some (.auipc w.rd (w.f7 ++ w.rs2 ++ w.rs1 ++ w.f3))
  | 0x6f => some (.jal w.rd (w.f7.extractLsb' 6 1 ++ w.rs1 ++ w.f3 ++ w.rs2.extractLsb' 0 1 ++ w.f7.extractLsb' 0 6 ++ w.rs2.extractLsb' 1 4))
  | 0x67 => some (.jalr w.rd w.rs1 (w.f7 ++ w.rs2))
  | 0x63 => branchOf w
  | 0x3 => loadOf w
  | 0x23 => storeOf w
  | 0x13 => opImmOf w
  | 0x1b => opImm32Of w
  | 0x33 => opOf w
  | 0x3b => op32Of w
  | 0x2f => amoOf w
  | 0xf => miscMemOf w
  | 0x73 => systemOf w
  | 0xb => s32Of w
  | 0x2b => custom1Of w
  | 0x5b => custom2Of w
  | _ => none

/-- R42: group 000, lane integer. -/
def laneIntOf (w : L64) : Option Instr :=
  match w.op.toNat with
  | 0x0 => some (.ladd ⟨w.vd, w.va, w.vb, (Ty.ofCode w.t), ⟨w.guard, w.sense⟩⟩)
  | 0x20 => some (.laddImm ⟨w.vd, w.va, w.imm, (Ty.ofCode w.t), ⟨w.guard, w.sense⟩⟩)
  | 0x1 => some (.lsub ⟨w.vd, w.va, w.vb, (Ty.ofCode w.t), ⟨w.guard, w.sense⟩⟩)
  | 0x21 => some (.lsubImm ⟨w.vd, w.va, w.imm, (Ty.ofCode w.t), ⟨w.guard, w.sense⟩⟩)
  | 0x2 => some (.lmul ⟨w.vd, w.va, w.vb, (Ty.ofCode w.t), ⟨w.guard, w.sense⟩⟩)
  | 0x22 => some (.lmulImm ⟨w.vd, w.va, w.imm, (Ty.ofCode w.t), ⟨w.guard, w.sense⟩⟩)
  | 0x3 => some (.lmulh ⟨w.vd, w.va, w.vb, (Ty.ofCode w.t), ⟨w.guard, w.sense⟩⟩)
  | 0x23 => some (.lmulhImm ⟨w.vd, w.va, w.imm, (Ty.ofCode w.t), ⟨w.guard, w.sense⟩⟩)
  | 0x4 => some (.lmad ⟨w.vd, w.va, w.vb, w.vc, (Ty.ofCode w.t), ⟨w.guard, w.sense⟩⟩)
  | 0x24 => some (.lmadImm ⟨w.vd, w.va, w.imm, w.vc, (Ty.ofCode w.t), ⟨w.guard, w.sense⟩⟩)
  | 0x5 => some (.lmin ⟨w.vd, w.va, w.vb, (Ty.ofCode w.t), ⟨w.guard, w.sense⟩⟩)
  | 0x25 => some (.lminImm ⟨w.vd, w.va, w.imm, (Ty.ofCode w.t), ⟨w.guard, w.sense⟩⟩)
  | 0x6 => some (.lmax ⟨w.vd, w.va, w.vb, (Ty.ofCode w.t), ⟨w.guard, w.sense⟩⟩)
  | 0x26 => some (.lmaxImm ⟨w.vd, w.va, w.imm, (Ty.ofCode w.t), ⟨w.guard, w.sense⟩⟩)
  | 0x7 => some (.labs ⟨w.vd, w.va, (Ty.ofCode w.t), ⟨w.guard, w.sense⟩⟩)
  | 0x8 => some (.land ⟨w.vd, w.va, w.vb, (Ty.ofCode w.t), ⟨w.guard, w.sense⟩⟩)
  | 0x28 => some (.landImm ⟨w.vd, w.va, w.imm, (Ty.ofCode w.t), ⟨w.guard, w.sense⟩⟩)
  | 0x9 => some (.lor ⟨w.vd, w.va, w.vb, (Ty.ofCode w.t), ⟨w.guard, w.sense⟩⟩)
  | 0x29 => some (.lorImm ⟨w.vd, w.va, w.imm, (Ty.ofCode w.t), ⟨w.guard, w.sense⟩⟩)
  | 0xa => some (.lxor ⟨w.vd, w.va, w.vb, (Ty.ofCode w.t), ⟨w.guard, w.sense⟩⟩)
  | 0x2a => some (.lxorImm ⟨w.vd, w.va, w.imm, (Ty.ofCode w.t), ⟨w.guard, w.sense⟩⟩)
  | 0xb => some (.landn ⟨w.vd, w.va, w.vb, (Ty.ofCode w.t), ⟨w.guard, w.sense⟩⟩)
  | 0x2b => some (.landnImm ⟨w.vd, w.va, w.imm, (Ty.ofCode w.t), ⟨w.guard, w.sense⟩⟩)
  | 0xc => some (.lshl ⟨w.vd, w.va, w.vb, (Ty.ofCode w.t), ⟨w.guard, w.sense⟩⟩)
  | 0x2c => some (.lshlImm ⟨w.vd, w.va, w.imm, (Ty.ofCode w.t), ⟨w.guard, w.sense⟩⟩)
  | 0xd => some (.lshr ⟨w.vd, w.va, w.vb, (Ty.ofCode w.t), ⟨w.guard, w.sense⟩⟩)
  | 0x2d => some (.lshrImm ⟨w.vd, w.va, w.imm, (Ty.ofCode w.t), ⟨w.guard, w.sense⟩⟩)
  | 0xe => some (.lsra ⟨w.vd, w.va, w.vb, (Ty.ofCode w.t), ⟨w.guard, w.sense⟩⟩)
  | 0x2e => some (.lsraImm ⟨w.vd, w.va, w.imm, (Ty.ofCode w.t), ⟨w.guard, w.sense⟩⟩)
  | 0xf => some (.lrot ⟨w.vd, w.va, w.vb, (Ty.ofCode w.t), ⟨w.guard, w.sense⟩⟩)
  | 0x2f => some (.lrotImm ⟨w.vd, w.va, w.imm, (Ty.ofCode w.t), ⟨w.guard, w.sense⟩⟩)
  | 0x10 => some (.lclz ⟨w.vd, w.va, (Ty.ofCode w.t), ⟨w.guard, w.sense⟩⟩)
  | 0x11 => some (.lpopc ⟨w.vd, w.va, (Ty.ofCode w.t), ⟨w.guard, w.sense⟩⟩)
  | 0x12 => some (.lbrev ⟨w.vd, w.va, (Ty.ofCode w.t), ⟨w.guard, w.sense⟩⟩)
  | 0x13 => some (.lbfx ⟨w.vd, w.va, (Ty.ofCode w.t), ⟨w.guard, w.sense⟩⟩ (w.imm.extractLsb' 0 5) (w.imm.extractLsb' 5 5) (w.imm.getLsbD 10))
  | 0x14 => some (.lbfi ⟨w.vd, w.va, w.vb, (Ty.ofCode w.t), ⟨w.guard, w.sense⟩⟩ (w.imm.extractLsb' 0 5) (w.imm.extractLsb' 5 5))
  | 0x15 => some (.lsel ⟨w.vd, w.va, w.vb, (Ty.ofCode w.t), ⟨w.guard, w.sense⟩⟩ (w.imm.extractLsb' 0 4) (w.imm.getLsbD 4))
  | 0x35 => some (.lselImm ⟨w.vd, w.va, w.imm, (Ty.ofCode w.t), ⟨w.guard, w.sense⟩⟩ (w.vb.extractLsb' 0 4) (w.vb.getLsbD 4))
  | 0x16 => some (.lcmp ⟨w.vd, w.va, w.vb, (Ty.ofCode w.t), ⟨w.guard, w.sense⟩⟩ (w.imm.extractLsb' 0 3))
  | 0x36 => some (.lcmpImm ⟨w.vd, w.va, w.imm, (Ty.ofCode w.t), ⟨w.guard, w.sense⟩⟩ (w.vb.extractLsb' 0 3))
  | 0x17 => some (.laddc ⟨w.vd, w.va, w.vb, (Ty.ofCode w.t), ⟨w.guard, w.sense⟩⟩ (w.imm.extractLsb' 0 4) (w.imm.extractLsb' 4 4) (w.imm.getLsbD 8))
  | _ => none

/-- R43: group 001, lane float. -/
def laneFloatOf (w : L64) : Option Instr :=
  match w.op.toNat with
  | 0x0 => some (.lfadd ⟨w.vd, w.va, w.vb, (Ty.ofCode w.t), ⟨w.guard, w.sense⟩⟩)
  | 0x20 => some (.lfaddImm ⟨w.vd, w.va, w.imm, (Ty.ofCode w.t), ⟨w.guard, w.sense⟩⟩)
  | 0x1 => some (.lfsub ⟨w.vd, w.va, w.vb, (Ty.ofCode w.t), ⟨w.guard, w.sense⟩⟩)
  | 0x21 => some (.lfsubImm ⟨w.vd, w.va, w.imm, (Ty.ofCode w.t), ⟨w.guard, w.sense⟩⟩)
  | 0x2 => some (.lfmul ⟨w.vd, w.va, w.vb, (Ty.ofCode w.t), ⟨w.guard, w.sense⟩⟩)
  | 0x22 => some (.lfmulImm ⟨w.vd, w.va, w.imm, (Ty.ofCode w.t), ⟨w.guard, w.sense⟩⟩)
  | 0x3 => some (.lfma ⟨w.vd, w.va, w.vb, w.vc, (Ty.ofCode w.t), ⟨w.guard, w.sense⟩⟩)
  | 0x23 => some (.lfmaImm ⟨w.vd, w.va, w.imm, w.vc, (Ty.ofCode w.t), ⟨w.guard, w.sense⟩⟩)
  | 0x4 => some (.lfmin ⟨w.vd, w.va, w.vb, (Ty.ofCode w.t), ⟨w.guard, w.sense⟩⟩)
  | 0x24 => some (.lfminImm ⟨w.vd, w.va, w.imm, (Ty.ofCode w.t), ⟨w.guard, w.sense⟩⟩)
  | 0x5 => some (.lfmax ⟨w.vd, w.va, w.vb, (Ty.ofCode w.t), ⟨w.guard, w.sense⟩⟩)
  | 0x25 => some (.lfmaxImm ⟨w.vd, w.va, w.imm, (Ty.ofCode w.t), ⟨w.guard, w.sense⟩⟩)
  | 0x6 => some (.lfsgn ⟨w.vd, w.va, w.vb, (Ty.ofCode w.t), ⟨w.guard, w.sense⟩⟩ (w.imm.extractLsb' 0 2))
  | 0x7 => some (.lfrcp ⟨w.vd, w.va, (Ty.ofCode w.t), ⟨w.guard, w.sense⟩⟩)
  | 0x8 => some (.lfrsq ⟨w.vd, w.va, (Ty.ofCode w.t), ⟨w.guard, w.sense⟩⟩)
  | 0x9 => some (.lfsqrt ⟨w.vd, w.va, (Ty.ofCode w.t), ⟨w.guard, w.sense⟩⟩)
  | 0xa => some (.lfdiv ⟨w.vd, w.va, w.vb, (Ty.ofCode w.t), ⟨w.guard, w.sense⟩⟩)
  | 0x2a => some (.lfdivImm ⟨w.vd, w.va, w.imm, (Ty.ofCode w.t), ⟨w.guard, w.sense⟩⟩)
  | 0xb => some (.lfexp2 ⟨w.vd, w.va, (Ty.ofCode w.t), ⟨w.guard, w.sense⟩⟩)
  | 0xc => some (.lflog2 ⟨w.vd, w.va, (Ty.ofCode w.t), ⟨w.guard, w.sense⟩⟩)
  | 0xd => some (.lfcmp ⟨w.vd, w.va, w.vb, (Ty.ofCode w.t), ⟨w.guard, w.sense⟩⟩ (w.imm.extractLsb' 0 3))
  | 0x2d => some (.lfcmpImm ⟨w.vd, w.va, w.imm, (Ty.ofCode w.t), ⟨w.guard, w.sense⟩⟩ (w.vb.extractLsb' 0 3))
  | 0xe => some (.lfclass ⟨w.vd, w.va, (Ty.ofCode w.t), ⟨w.guard, w.sense⟩⟩ (w.imm.extractLsb' 0 10))
  | 0xf => some (.lcvt ⟨w.vd, w.va, (Ty.ofCode w.t), ⟨w.guard, w.sense⟩⟩ (w.imm.extractLsb' 0 4) (w.imm.extractLsb' 4 4) (w.imm.getLsbD 8) (w.imm.extractLsb' 9 2))
  | 0x10 => some (.lpack ⟨w.vd, w.va, w.vb, (Ty.ofCode w.t), ⟨w.guard, w.sense⟩⟩ (w.imm.extractLsb' 0 4))
  | 0x11 => some (.lunpk ⟨w.vd, w.va, (Ty.ofCode w.t), ⟨w.guard, w.sense⟩⟩ (w.imm.extractLsb' 0 4) (w.imm.extractLsb' 4 3))
  | _ => none

/-- R44: group 010, move, shuffle, predicate and mask. -/
def laneMoveOf (w : L64) : Option Instr :=
  match w.op.toNat with
  | 0x0 => some (.lmov ⟨w.vd, w.va, (Ty.ofCode w.t), ⟨w.guard, w.sense⟩⟩)
  | 0x20 => some (.lmovi w.vd w.imm (Ty.ofCode w.t) ⟨w.guard, w.sense⟩)
  | 0x1 => some (.lbcast ⟨w.vd, w.va, (Ty.ofCode w.t), ⟨w.guard, w.sense⟩⟩)
  | 0x2 => some (.lextr w.vd w.va (Ty.ofCode w.t) (w.imm.extractLsb' 0 5))
  | 0x3 => some (.lins w.vd w.va (Ty.ofCode w.t) (w.imm.extractLsb' 0 5))
  | 0x4 => some (.lshfl ⟨w.vd, w.va, w.vb, (Ty.ofCode w.t), ⟨w.guard, w.sense⟩⟩ (w.imm.extractLsb' 0 3) (w.imm.extractLsb' 3 5))
  | 0x5 => some (.lred ⟨w.vd, w.va, (Ty.ofCode w.t), ⟨w.guard, w.sense⟩⟩ (w.imm.extractLsb' 0 3))
  | 0x6 => some (.lscan ⟨w.vd, w.va, (Ty.ofCode w.t), ⟨w.guard, w.sense⟩⟩ (w.imm.extractLsb' 0 3) (w.imm.getLsbD 3))
  | 0x7 => some (.lballot w.vd w.va)
  | 0x8 => some (.lgets w.vd ⟨w.guard, w.sense⟩ (w.imm.extractLsb' 0 3))
  | 0x9 => some (.ltrns w.vd w.va)
  | 0xa => some (.plog w.vd w.va w.vb ⟨w.guard, w.sense⟩ (w.imm.extractLsb' 0 4))
  | 0xb =>
    match w.imm.toNat with
    | 0 => some (.pmovPred w.vd w.va ⟨w.guard, w.sense⟩)
    | 1 => some (.pmovFromX w.vd w.va ⟨w.guard, w.sense⟩)
    | 2 => some (.pmovToX w.vd w.va)
    | _ => none
  | 0xc => some (.emset w.va)
  | 0xd => some (.emget w.vd)
  | 0xe => some (.emand w.vd w.va (w.imm.getLsbD 0))
  | _ => none

/-- R45, R46: group 011, lane memory. -/
def laneMemOf (w : L64) : Option Instr :=
  match w.op.toNat with
  | 0x0 => some (.lld ⟨w.vd, w.va, w.vb, w.vc.extractLsb' 0 3, w.vc.extractLsb' 3 2, w.vc.getLsbD 5, ⟨w.guard, w.sense⟩⟩ (w.imm.extractLsb' 0 2))
  | 0x20 => some (.lldImm ⟨w.vd, w.va, w.vb, w.vc.extractLsb' 0 3, w.vc.extractLsb' 3 2, w.vc.getLsbD 5, ⟨w.guard, w.sense⟩⟩ w.imm)
  | 0x1 => some (.lst ⟨w.vd, w.va, w.vb, w.vc.extractLsb' 0 3, w.vc.extractLsb' 3 2, w.vc.getLsbD 5, ⟨w.guard, w.sense⟩⟩ (w.imm.extractLsb' 0 2))
  | 0x21 => some (.lstImm ⟨w.vd, w.va, w.vb, w.vc.extractLsb' 0 3, w.vc.extractLsb' 3 2, w.vc.getLsbD 5, ⟨w.guard, w.sense⟩⟩ w.imm)
  | 0x2 => some (.lldt ⟨w.vd, w.va, w.vb, w.vc.extractLsb' 0 3, w.vc.extractLsb' 3 2, w.vc.getLsbD 5, ⟨w.guard, w.sense⟩⟩ (w.imm.extractLsb' 0 2))
  | 0x22 => some (.lldtImm ⟨w.vd, w.va, w.vb, w.vc.extractLsb' 0 3, w.vc.extractLsb' 3 2, w.vc.getLsbD 5, ⟨w.guard, w.sense⟩⟩ w.imm)
  | 0x3 => some (.lamo ⟨w.vd, w.va, w.vb, w.vc.extractLsb' 0 3, w.vc.extractLsb' 3 2, w.vc.getLsbD 5, ⟨w.guard, w.sense⟩⟩ (w.imm.extractLsb' 0 4) (w.imm.extractLsb' 4 3) (w.imm.extractLsb' 7 3) (w.imm.extractLsb' 10 6))
  | 0x4 => some (.lpref ⟨w.vd, w.va, w.vb, w.vc.extractLsb' 0 3, w.vc.extractLsb' 3 2, w.vc.getLsbD 5, ⟨w.guard, w.sense⟩⟩ (w.imm.extractLsb' 0 2))
  | 0x24 => some (.lprefImm ⟨w.vd, w.va, w.vb, w.vc.extractLsb' 0 3, w.vc.extractLsb' 3 2, w.vc.getLsbD 5, ⟨w.guard, w.sense⟩⟩ w.imm)
  | _ => none

/-- R47: group 100, matrix job. -/
def matrixOf (w : L64) : Option Instr :=
  match w.op.toNat with
  | 0x0 => some (.mma ⟨w.vd, w.va, w.vb, w.vc.extractLsb' 0 4, w.imm.extractLsb' 12 3, w.imm.getLsbD 15⟩ (w.imm.getLsbD 0) (w.imm.extractLsb' 1 2) (w.imm.extractLsb' 3 4) (w.imm.extractLsb' 7 2) (w.imm.getLsbD 9))
  | 0x1 => some (.mmas ⟨w.vd, w.va, w.vb, w.vc.extractLsb' 0 4, w.imm.extractLsb' 12 3, w.imm.getLsbD 15⟩ (w.imm.getLsbD 0) (w.imm.extractLsb' 1 2) (w.imm.extractLsb' 3 2) (w.imm.extractLsb' 5 2) (w.imm.extractLsb' 7 2) (w.imm.getLsbD 9))
  | 0x2 => some (.mhad ⟨w.vd, w.va, w.vb, w.vc.extractLsb' 0 4, w.imm.extractLsb' 12 3, w.imm.getLsbD 15⟩ (w.imm.extractLsb' 0 2) (w.imm.getLsbD 2))
  | 0x3 => some (.mqnt ⟨w.vd, w.va, w.vb, w.vc.extractLsb' 0 4, w.imm.extractLsb' 12 3, w.imm.getLsbD 15⟩ (w.imm.extractLsb' 0 3) (w.imm.extractLsb' 3 2))
  | 0x4 => some (.mcvt ⟨w.vd, w.va, w.vb, w.vc.extractLsb' 0 4, w.imm.extractLsb' 12 3, w.imm.getLsbD 15⟩ (w.imm.extractLsb' 0 3) (w.imm.extractLsb' 3 2))
  | 0x5 => some (.mzero ⟨w.vd, w.va, w.vb, w.vc.extractLsb' 0 4, w.imm.extractLsb' 12 3, w.imm.getLsbD 15⟩ (w.imm.getLsbD 0))
  | 0x6 => some (.mst ⟨w.vd, w.va, w.vb, w.vc.extractLsb' 0 4, w.imm.extractLsb' 12 3, w.imm.getLsbD 15⟩ (w.imm.extractLsb' 0 3) (w.imm.extractLsb' 3 4))
  | 0x7 => some (.mld ⟨w.vd, w.va, w.vb, w.vc.extractLsb' 0 4, w.imm.extractLsb' 12 3, w.imm.getLsbD 15⟩ (w.imm.extractLsb' 0 4) (w.imm.getLsbD 4))
  | _ => none

/-- R40: the operation an L64 word names, by its group. -/
def L64.candidate (w : L64) : Option Instr :=
  match w.g.toNat with
  | 0 => laneIntOf w
  | 1 => laneFloatOf w
  | 2 => laneMoveOf w
  | 3 => laneMemOf w
  | 4 => matrixOf w
  | _ => none

/-- The operation that the fields name. -/
def Code.candidate : Code → Option Instr
  | .w32 w => w.candidate
  | .l64 w => w.candidate

/-- R28: the instruction of the fields, or why there is none. -/
def Code.decode (c : Code) : Except DecodeError Instr :=
  match c.candidate with
  | none => .error .noOperation
  | some i => if i.fields = some c then (if i.wellFormed then .ok i else .error .illFormed) else .error .reservedField

/-- R26: the length of an instruction, in bytes, from the low bits of its first parcel. -/
def wordLength (lo : Word) : Except DecodeError Nat :=
  if (lo.extractLsb' 0 2) ≠ 3 then .error .halfword
  else if (lo.extractLsb' 2 3) ≠ 7 then .ok 4
  else if (lo.extractLsb' 0 6) = 0x1f then .error .length48
  else if (lo.extractLsb' 0 7) = 0x3f then .ok 8
  else .error .length80

/-- R26: the fields of the instruction at two successive words; `hi` counts only in a 64-bit one. -/
def codeOf (lo hi : Word) : Except DecodeError Code :=
  match wordLength lo with
  | .error e => .error e
  | .ok n => if n = 8 then .ok (.l64 (L64.ofBits (hi ++ lo))) else .ok (.w32 (W32.ofBits lo))

/-- The decoder on two successive words. -/
def decode (lo hi : Word) : Except DecodeError Instr :=
  match codeOf lo hi with
  | .error e => .error e
  | .ok c => c.decode

/-- R6: four bytes, the first the least significant. -/
def wordOfBytes : List Byte → Word
  | a :: b :: c :: d :: _ => d ++ c ++ b ++ a
  | _ => 0

/-- The decoder on any bytes: the instruction and the bytes after it. Too few bytes are no word. -/
def decodeBytes (bs : List Byte) : Except DecodeError (Instr × List Byte) :=
  if bs.length < 4 then .error .halfword
  else
    match wordLength (wordOfBytes bs) with
    | .error e => .error e
    | .ok n =>
      if bs.length < n then .error .halfword
      else
        match decode (wordOfBytes bs) (wordOfBytes (bs.drop 4)) with
        | .error e => .error e
        | .ok i => .ok (i, bs.drop n)

/-- The words of a code, as one number of 32 or 64 bits. -/
def Code.bits : Code → Nat
  | .w32 w => w.toBits.toNat
  | .l64 w => w.toBits.toNat

/-- R26: the length of a code in bytes. -/
def Code.length : Code → Nat
  | .w32 _ => 4
  | .l64 _ => 8

/-- The encoder: the words of an instruction as one number, the first word in its low 32 bits (R6); none for an event. -/
def encode (i : Instr) : Option Nat := i.fields.map Code.bits

/-- R6: the lowest `n` bytes of a number, least significant first. -/
def bytesOf (v : Nat) : Nat → List Byte
  | 0 => []
  | n + 1 => BitVec.ofNat 8 v :: bytesOf (v / 256) n

/-- The opcode table's numbering: the `nbits` bits of `w`, bit 0 the least significant of the first word, zero above,
laid out little-endian (R6) up to the longest instruction of the device. -/
def tableBytes (nbits w : Nat) : List Byte := bytesOf (w % 2 ^ nbits) 8

/-- The instruction the decoder reads from a word of the opcode table. -/
def decodeTableWord (nbits w : Nat) : Option Instr :=
  match decodeBytes (tableBytes nbits w) with
  | .error _ => none
  | .ok (i, _) => some i

end Sys2Proof
end

