-- ==== Sys2Proof/Config.lean ====
section
/-! DEFINITION. What an implementation fixes and the values the spec leaves open. Each is a constant with no body:
no proof can see its value. -/

namespace Sys2Proof

/-- R3: an undefined value of width `w`; the n-th one the package produces (`State.fresh` counts them).
Log entry 3. -/
opaque Config.freeBits (w n : Nat) : BitVec w

/-- A free choice where the spec says "may or may not"; numbered as free values are. Log entry 3. -/
opaque Config.freeBool (n : Nat) : Bool

/-- R70, R422: no export of the owning package covers a request of a partition of this package for a GPA of a class-10 range.
Log entry 28. -/
opaque Config.remoteUncovered (pkg part gpa : Nat) : Bool

/-- R71: the version of the M-mode firmware in service, [31:16] major and [15:0] minor. Log entry 8. -/
opaque Config.fwVersion : BitVec 32

/-- R408: the errata that the stepping of a die has. Log entry 8. -/
opaque Config.errata (die : Nat) : BitVec 64

/-- R136, R303: the entry that a full cache or TLB gives up, by the number of entries and the free-value count. Log entry 10. -/
opaque Config.victim (entries n : Nat) : Nat

/-- R333: the set of a slice that holds a line; the spec gives 1,024 sets and no index function. Log entry 10. -/
opaque Config.llcSet (gpaLine : Nat) : Nat

/-- R18, R389: the pseudo-channel of its stack that serves an HPA; the spec gives no interleaving. Log entry 10. -/
opaque Config.channelOf (hpa : Nat) : Nat

/-- R346: what the fuses of a die and the ROM of the Slate core hold: the serial and the public identity key of each die, and the
public key of the Luarwick root. Log entry 137. -/
opaque Config.serial (die : Nat) : BitVec 128
opaque Config.identityKey (die : Nat) : BitVec 4096
opaque Config.rootKey : BitVec 4096

/-- R349: the reference value of a die's measurement block. Log entry 137. -/
opaque Config.dieBlock (die index : Nat) : BitVec 512

/-- R357, R358: the Slate firmware in service. Log entry 137. -/
opaque Config.slateFirmware : List Byte

/-- R348, R357: a signature, nonce answer, certificate or other field of an SPDM response of the package. Log entry 7. -/
opaque Config.spdmField (code : Nat) (data : List Nat) : BitVec 512

/-- R361: the export master secret of a secured session, by its number. Log entry 7. -/
opaque Config.exportSecret (session : Nat) : BitVec 512

end Sys2Proof
end

