-- ==== Sys2Proof/Machine/State.lean ====
section
/-! DEFINITION. The state of the whole package as plain data: every piece of state the spec names, held sparsely. A hart,
core, cluster, die, partition, queue or launch that is not listed has its reset value. Maps are lists sorted by key
(`Map`); memories are lists of bytes in canonical form (`Memory`). INVENTORY.md lists every field with its rule. -/

namespace Sys2Proof.Machine

open Sys2Proof

/-- A finite map from numbers, as a list with rising keys. -/
abbrev Map (α : Type) := List (Nat × α)

/-- Bytes by address, addresses strictly rising, no byte equal to what an unlisted address reads as (0: R420, log entry 6). -/
abbrev Memory := List Host.Cell

/-- R69: privilege levels. -/
inductive Priv where
  | U | S | M
  deriving DecidableEq, Repr

/-- R68: the line a reservation covers. -/
structure Line where
  part : Nat
  line : Nat
  deriving DecidableEq, Repr

/-- R93: why a hart is out of rotation; `tag` matches the event that ends the wait. -/
inductive Wait where
  /-- Data of an access (lane L1 or hart data-cache miss), to be performed by the event: the instruction itself. -/
  | data (tag : Nat) (i : Instr)
  /-- A miss queued at the TSC, or a full miss queue (R307). -/
  | walk
  | queueFull
  /-- Host records outstanding (R315). -/
  | replay
  /-- The echoes of a release, or any other answer, after which the instruction has its effect. -/
  | release (tag : Nat) (i : Instr)
  /-- R109: the dispatcher's answer to a claim. -/
  | claim (tag : Nat) (i : Instr)
  /-- R150: parked on a line; destination and timeout tag. -/
  | waita (tag : Nat) (xd : BitVec 5) (at_ : Line)
  /-- R102: at a barrier. -/
  | barrier (cluster : Bool)
  /-- R197: the destination and the job. -/
  | jwait (xd : BitVec 5) (job : BitVec 64)
  | jyield (job : BitVec 64) (cont : BitVec 64)
  /-- R152: a bank-lock request, or an access to a held bank: the access's instruction, performed when its turn comes. -/
  | lock (bank : Nat) (access : Option Instr)
  /-- R176: ordered-item stall. -/
  | ordered
  | wfi
  | sfence (tag : Nat)
  /-- R71: a trap or call taken by the M-mode firmware. -/
  | firmware
  /-- R355: an access to a die that accepts no requests. -/
  | die (d : Nat)
  /-- R189, R154: a restored hart whose jobs or bank locks are not yet granted again. -/
  | reinstate
  /-- R103, R368: a hart at the boundary at which it is saved: 0 until its group has come there, 1 until the thread-context
  cache has an entry, 2 in the cache until its record is written; with the masks of the registers that are saved. -/
  | swap (stage x v p : Nat)
  deriving DecidableEq, Repr

/-- R72, R73: the standard CSRs a hart holds. -/
structure Csr where
  mstatus : DWord
  medeleg : DWord
  mideleg : DWord
  mie : DWord
  mtvec : DWord
  mcounteren : BitVec 3
  scounteren : BitVec 3
  mcountinhibit : BitVec 3
  mscratch : DWord
  mepc : DWord
  mcause : DWord
  mtval : DWord
  stvec : DWord
  sscratch : DWord
  sepc : DWord
  scause : DWord
  stval : DWord
  satp : DWord
  /-- R74: `mcycle` is `mcycleHeld` plus the cycles since `mcycleFrom` while it counts. -/
  mcycleHeld : DWord
  mcycleFrom : Nat
  minstret : DWord
  deriving DecidableEq, Repr

/-- R34, R36: the device CSRs a hart holds. -/
structure Dev where
  lflags : BitVec 6
  bflags : BitVec 6
  lrm : BitVec 3
  lseed : BitVec 32
  fs : Vector DWord 4
  tbm : BitVec 128
  tbmf : Bool
  hangthr : BitVec 32
  emuvec : DWord
  lfmask : BitVec 32
  lftab : DWord
  lkto : BitVec 32
  itembase : BitVec 48
  deriving DecidableEq, Repr

/-- R31, R33, R91, R95, R132, R221: the lane state of a hart. -/
structure Lanes where
  /-- v registers by `register * 32 + lane`; an unlisted one holds 0. -/
  v : Map Word
  p : Vector (BitVec 32) 12
  em : BitVec 32
  /-- Occupied lanes. -/
  occ : BitVec 32
  item : Vector (BitVec 48) 32
  gen : Vector Word 32
  fresh : BitVec 32
  cohort : Vector Word 32
  ts : Vector (BitVec 64) 32
  sticky : Vector (BitVec 6) 32
  sr : Vector Word 32
  /-- Lane-private slices by `lane * 256 + offset`. -/
  slice : Memory
  deriving DecidableEq, Repr

/-- R308: a walk's result, kept for the instruction that asked. -/
structure Leaf where
  part : Nat
  asid : Nat
  vpn : Nat
  size : Nat
  gpaPage : Nat
  r : Bool
  w : Bool
  x : Bool
  u : Bool
  g : Bool
  d : Bool
  deriving DecidableEq, Repr

/-- R305, R308, R339, R315: what a walk brings back. -/
inductive WalkResult where
  | leaf (e : Leaf)
  | fault
  | accessFault
  /-- R386: an access fault that a poisoned line of a table raised. -/
  | poisoned
  | integrity
  deriving DecidableEq, Repr

/-- R180, R184: the state of a job entry. -/
inductive JobState where
  | queued | waiting | running | faultWait | done | failed
  deriving DecidableEq, Repr

/-- R180 to R189: one entry of a cluster's job queue. -/
structure Job where
  state : JobState
  part : Nat
  launch : Option Nat
  hidx : Nat
  hart : Nat
  seq : BitVec 16
  matrix : Bool
  op : Nat
  desc : BitVec 512
  descB : BitVec 128
  arg : BitVec 64
  scope : BitVec 3
  notify : Bool
  satp : DWord
  priv : Priv
  sum : Bool
  mxr : Bool
  fs : Vector DWord 4
  /-- R275: the lane form: the lanes of `em` and the base register, with the lent registers as read at issue. -/
  lane : Option (Nat × Nat)
  regs : Map Word
  /-- Progress: row or K-step, and byte within the row. -/
  pos : Nat
  posByte : Nat
  /-- R191: the indices read so far, by row. R170, R171: bytes of elements that the job writes more than once, held until it has
  moved everything; R165: bytes of a source element read before its chunk writes them. -/
  indices : Map Nat := []
  late : List (BitVec 64 × Byte) := []
  carry : List Byte := []
  /-- R184: the status word's failure fields; R286: flags collected. -/
  kind : Nat
  gva : DWord
  flags : BitVec 6
  /-- While it lives, its grant's number in the package's count; once done, its completion's (R180, R271). -/
  order : Nat
  started : Bool
  undef : Bool
  stopped : Bool
  /-- R308, R315, R342: for the chunk in hand: walk results, and pages whose host record was declined or ended in an integrity
  failure. -/
  walks : List (Nat × WalkResult)
  declined : List Nat
  failedPages : List Nat
  deriving DecidableEq, Repr

/-- R140, R366: a lane fault on its way to its trap: the faulting lanes, each with its address and kind. -/
structure LaneTrap where
  cause : Nat
  space : Nat
  wr : Bool
  faults : List (Nat × DWord × Nat)
  deriving DecidableEq, Repr

/-- The parts of a hart that its execution uses besides its registers. -/
structure Run where
  /-- R68. -/
  resv : Option Line
  wait : Option Wait
  /-- R107: cycles counted, and the cycle from which it counts now (none: not counting). -/
  hangHeld : Nat
  hangFrom : Nat
  /-- R107, R364: pc of the last branch or jump taken backwards since the counter was set to 0. -/
  lastBack : Option DWord
  /-- R363: pending asynchronous causes with their `stval`, oldest first, at most 4; overflow. -/
  aq : List (Nat × DWord)
  aqOvf : Bool
  /-- R364. -/
  irq16 : Option DWord
  irq17 : Option DWord
  irq18 : Option DWord
  iq19 : List DWord
  iq19Ovf : Bool
  /-- R183. -/
  seq : BitVec 16
  /-- R91, R109. -/
  cohortCtr : BitVec 32
  /-- R98. -/
  drain : Bool
  /-- R103, R371: arrived at the `bar` at pc; resumes waiting without arriving again. -/
  barw : Bool
  /-- R198: restored in a `jyield` park: parks again at its next boundary, on this job, at the `jyield` of this pc. -/
  yielded : Option (DWord × DWord)
  /-- R367: the cycle of a pending pre-emption request. -/
  preempt : Option Nat
  /-- R367: the grace of the request has passed. -/
  graceOver : Bool
  /-- R376, R377: halted by the debugger, single step asked, stopped by Amber, halt asked. -/
  halted : Bool
  stepping : Bool
  amber : Bool
  haltReq : Bool
  /-- R376: resumed at this instruction, which its comparators do not halt again (log entry 17). -/
  passCmp : Bool
  /-- R308: walk results by GVA page for the instruction in hand. -/
  walks : List (Nat × WalkResult)
  /-- R318: pages whose host record was declined, for the instruction in hand. -/
  declined : List Nat
  /-- R342: pages whose host record ended in an integrity failure. -/
  failedPages : List Nat
  /-- R171, R276: lane registers lent to jobs: first register, count, job ID. -/
  lent : List (Nat × Nat × DWord)
  /-- R181: cycle and pc of the first attempt of a waiting job instruction. -/
  attempt : Option (Nat × DWord)
  /-- R52: the modes of the PX whose pair is executing; none between steps. -/
  pair : Option PxModes
  /-- R372: stopped after a failed save. -/
  saveFailed : Bool
  /-- R366: the records of a lane fault are being stored; nothing is judged until its trap is taken. -/
  entering : Option LaneTrap
  /-- The cycle from which the hart issues again. -/
  busyUntil : Nat
  /-- R233: the f64 operation whose second issue cycle comes next. -/
  second : Option Instr
  /-- R111: what the `spw` in hand has reserved: the open launch, and an index for each lane taken. -/
  spawn : Option (Nat × List (Nat × Nat))
  /-- R189: jobs of a restored hart that wait for an entry; status words (sequence number, word, scope) its record brought;
  R154: bank locks to acquire again. -/
  stoppedJobs : List Job
  doneJobs : List (Nat × DWord × Nat)
  /-- R286: flags of ended jobs, by sequence number, that lost their entries before the hart observed them. -/
  lateFlags : List (Nat × BitVec 6)
  relock : List Nat
  deriving DecidableEq, Repr

/-- R87, R101, R371, R97: where a hart belongs in its launch. -/
structure Role where
  launch : Option Nat
  part : Nat
  hidx : Nat
  unit : Nat
  member : Nat
  /-- R97: slice number and the next step j of each lane. -/
  slice : Option Nat
  steps : Vector Nat 32
  deriving DecidableEq, Repr

/-- One resident hart (or a TSC). -/
structure Hart where
  x : Vector DWord 32
  pc : DWord
  priv : Priv
  tsc : Bool
  lanes : Lanes
  csr : Csr
  dev : Dev
  run : Run
  role : Role
  deriving DecidableEq, Repr

/-- R136: a lane L1 line; R15: an instruction-cache line. Key `part * 2^45 + GPA line`. -/
structure CacheLine where
  data : BitVec 1024
  /-- R138: allocated by a streaming access: the first victim of its set. -/
  first : Bool := false
  deriving DecidableEq, Repr

/-- R137, R166, R167: a write issued and not yet performed: its place and bytes. -/
structure Flight where
  hart : Nat
  /-- R129: space, and the part or core or die that owns the place. -/
  space : Nat
  owner : Nat
  addr : Nat
  bytes : List Byte
  /-- R315: the write waits for a replay. -/
  held : Bool
  gva : DWord
  /-- R99, R315: the launch whose store it is. -/
  launch : Option Nat := none
  /-- R111: the child record that it writes: the open launch and the index. In space 4 the record waits for the walk of its
  slot's GVA, and `addr` is the GPA that the walk waits for. -/
  child : Option (Nat × Nat) := none
  deriving DecidableEq, Repr

/-- R378: a message. -/
structure InboxEntry where
  slot : Nat
  fromPos : Nat
  fromSlot : Nat
  data : BitVec 512
  deriving DecidableEq, Repr

/-- R101, R373: a barrier of a core group or a cluster group. -/
structure Barrier where
  launch : Nat
  unit : Nat
  member : Nat
  arrived : List Nat
  phase : BitVec 32
  flags : BitVec 6
  deriving DecidableEq, Repr

/-- R375: a comparator, 128 bits. -/
structure Debug where
  pcCmp : Vector (BitVec 128) 8
  dataCmp : Vector (BitVec 128) 4
  ebh : Bool
  /-- R377: the stop record. -/
  stop : BitVec 256
  deriving DecidableEq, Repr

/-- R152, R153: a held bank lock: its holder and its name. -/
structure BankLock where
  holder : Nat
  tag : Nat
  deriving DecidableEq, Repr

/-- One core of the package, by position (R25). -/
structure Core where
  /-- R15, R130: scratchpad bytes by offset in the core. -/
  spad : Memory
  l1 : Map CacheLine
  icache : Map CacheLine
  /-- R137: tags of the hart data cache, with the modified mark; data is at the home slice (log entry 12). -/
  hdc : Map Bool
  tlb : List Leaf
  locks : Map BankLock
  lockq : List (Nat × Nat)
  flight : List Flight
  inbox : List InboxEntry
  /-- R369, R378: the inbox has been saved with its core. -/
  inboxSaved : Bool
  tcc : List Nat
  owner : BitVec 6
  own : Bool
  dbg : Debug
  nsent : DWord
  nrcvd : DWord
  bar : List Barrier
  /-- R389, R390. -/
  inService : Bool
  deriving DecidableEq, Repr

/-- R171: what a write of a tile does to an undefined value in it: a job's sums over rows and the first columns hang on the job
and on what stood there; a load or clear hangs on nothing; a transform spreads over blocks of h columns. -/
inductive TileWrite where
  | sum (launch : Option Nat) (hidx : Nat) (seq : BitVec 16) (rows : List Nat) (cols : Nat) (latches : Bool)
  | load (rows cols : Nat)
  | mix (row h : Nat)
  deriving DecidableEq, Repr

/-- R269, R270: an accumulator tile. -/
structure Tile where
  t : Map Word
  int : Bool
  sigmaA : Map Word
  sigmaB : Map Word
  poison : Bool
  /-- R171: an unlisted element reads as this free value and those after it; none: 0. -/
  free : Option Nat
  /-- R171: what has written the tile since it was cleared, oldest first. -/
  trace : List TileWrite := []
  deriving DecidableEq, Repr

/-- R307: one entry of a TSC's miss queue. -/
structure TscEntry where
  id : Nat
  part : Nat
  satp : DWord
  vpn : Nat
  store : Bool
  eng : Nat
  requesters : List Nat
  /-- What the walk came to; none while it runs. -/
  result : Option WalkResult
  /-- R320: the GVA of the request that took the entry. -/
  gva : DWord
  deriving DecidableEq, Repr

/-- One cluster. -/
structure Cluster where
  jobs : Map Job
  /-- R269: tiles by `part * 16 + acc`. -/
  tiles : Map Tile
  /-- R182, R193: by engine (0 BTE, 1 matrix, 2 BTE chunks): the partition served last and what is left of its turn; by
  engine × 64 + partition (3: grants of R181): the core served last; at 256 the partition whose walk started last (R307). -/
  served : Map (Nat × Nat)
  servedCore : Map Nat
  /-- The BTE has its next chunk planned. -/
  pump : Bool
  bar : List Barrier
  tscq : List TscEntry
  /-- R307: harts whose miss could not be granted. -/
  tscWait : List (Nat × Nat)
  tlb : List Leaf
  /-- R80, R309: invalidations in progress: tag, hart, partition, address and ASID. -/
  sfences : List (Nat × Nat × Nat × Option DWord × Option Nat)
  powered : Bool
  waking : Bool
  lastBusy : Nat
  deriving DecidableEq, Repr

/-- R151: one watch. -/
structure Watch where
  hart : Nat
  line : Line
  deriving DecidableEq, Repr

/-- R151, R387, R388: one LLC slice besides its lines. -/
structure Slice where
  watches : List Watch
  /-- Partitions that have written a dirty line here, and the copy a sweep began with. -/
  dirty : BitVec 64
  sweep : Option (BitVec 64)
  deriving DecidableEq, Repr

/-- One die: N-dies 0-7, B-dies 8 and 9. -/
structure Die where
  st : Nat
  why : Nat
  nres : Nat
  tst : Nat
  tlb : List Leaf
  /-- R282: cycles of the engine starts of the last window, and the rotation. -/
  starts : List Nat
  rr : Nat
  /-- R131: die scratchpad bytes by `part * 2^25 + offset`. -/
  ds : Memory
  slices : Map Slice
  accept : Bool
  /-- R348: how often the handshake has begun. -/
  epoch : Nat
  /-- R348: the next step of the handshake, and the responses of it that have come. -/
  step : Nat
  got : Nat
  /-- R349: the five measurement blocks that the die has reported. -/
  blocks : List Nat
  /-- R354: vacate orders posted for a reset of the die. -/
  lifts : List Nat
  deriving DecidableEq, Repr

/-- R17, R312, R386: a line at its home slice. -/
structure LlcLine where
  data : BitVec 1024
  dirty : Bool
  poison : Bool
  /-- R327: a write-back that found no overflow entry. -/
  held : Bool
  deriving DecidableEq, Repr

/-- R18, R194, R338: the metadata lane of a sealed line in HBM or pool: the partition that owns it and its MAC. -/
structure SealedLine where
  part : Nat
  mac : BitVec 48
  deriving DecidableEq, Repr

/-- R338: the keys of a sealed partition. -/
structure SealKeys where
  transport : BitVec 256
  memory : BitVec 256
  tweak : BitVec 256
  mac : BitVec 256
  deriving DecidableEq, Repr

/-- Memory of the package and what it reaches. -/
structure Mem where
  /-- R18: HBM bytes by HPA. -/
  hbm : Memory
  /-- R323: CXL pool bytes by pool address. -/
  pool : Memory
  /-- R412: host memory. -/
  host : Memory
  /-- R157, R421: bytes of lines homed in other packages, by `pkg * 2^52 + GPA`. -/
  remote : Memory
  /-- R17, R312: lines at their home slices, by `part * 2^45 + GPA line`. -/
  llc : Map LlcLine
  /-- R337, R338: metadata of sealed lines by HPA line; from 2^45 on, by pool line. -/
  sealedAt : Map SealedLine
  /-- R386: poisoned lines of memory, as the lines above. -/
  poisonAt : List Nat
  /-- R341: versions by `part * 2^40 + GPA page`. -/
  versions : Map Nat
  deriving DecidableEq, Repr

/-- R321: a memory controller, by stack. -/
structure Ctrl where
  hk : BitVec 4
  hen : Bool
  c : BitVec 32
  deriving DecidableEq, Repr

/-- R311: a range-table entry. -/
structure Range where
  base : Nat
  last : Nat
  die : Nat
  cls : Nat
  pkg : Nat
  v : Bool
  deriving DecidableEq, Repr

/-- R422: an export: the requester, the local and the remote GPA base, and the size in 2 MiB units. -/
structure ExportRec where
  srcPkg : Nat
  srcPart : Nat
  base : Nat
  remote : Nat
  size : Nat
  deriving DecidableEq, Repr

/-- R329: a partition. -/
structure Part where
  sealed_ : Bool
  ltol : Bool
  heat : Bool
  prio : Nat
  slots : BitVec 16
  banks : BitVec 32
  jq : Nat
  jw : Nat
  tq : Nat
  /-- R16: KiB lent by each core. -/
  lend : Nat
  mw : Nat
  minsl : Nat
  minhbm : Nat
  minbw : Nat
  sways : Nat
  s2root : Nat
  /-- R131: bytes by N-die. -/
  dsp : List Nat
  llcl : List Nat
  evq : Nat
  evn : Nat
  cores : BitVec 2048
  rtab : List Range
  /-- R405: physical position by logical position; identity where not listed. -/
  coreTable : Map Nat
  pfmask : BitVec 8
  winBase : Option Nat
  exports : List ExportRec
  /-- R392: minima in force. -/
  inForce : Nat × Nat × Nat
  /-- R338: drawn at the creation of a sealed partition. -/
  keys : Option SealKeys
  /-- R359, R360. -/
  logHash : BitVec 512
  nlog : Nat
  tmeas : Nat
  /-- R361: the report key, and the hash of the bound requester's public key; 0: none. -/
  bkey : Option (BitVec 256)
  bhash : BitVec 512
  /-- R345. -/
  nev : Nat
  /-- R377. -/
  stopped : Bool
  /-- R322: the heat array by entry: count and epoch; after a write to `hn`, unlisted ones are free values of this
  number (none: 0). -/
  heatAt : Map (Nat × Nat)
  heatFree : Option Nat
  deriving DecidableEq, Repr

/-- R81, R88, R417: a launch queue, by `part * 256 + q`. -/
structure Queue where
  ring : Nat
  n : Nat
  prod : Nat
  cons : Nat
  prio : Nat
  wt : Nat
  sup : Nat
  /-- The supervisor block as read (R86): stvec, satp, sscratch, and whether its reserved word is 0. -/
  stvec : DWord
  satp : DWord
  sscratch : DWord
  supOk : Bool
  /-- R81: the consumer index the dispatcher keeps. -/
  consIdx : Nat
  /-- R82: packets consumed; launches of the queue in order. -/
  launches : List Nat
  checked : Bool
  /-- R88: what is left of the queue's turn, levels gained by aging, and since when it has a unit to place. -/
  credit : Nat
  level : Nat
  agingFrom : Option Nat
  deriving DecidableEq, Repr

/-- R83: a launch packet's fields. -/
structure Packet where
  entry : DWord
  args : DWord
  count : Nat
  ordered : Bool
  determ : Bool
  discard : Bool
  ckpt : Bool
  mustc : Bool
  gang : Bool
  drain : Bool
  notify : Bool
  open_ : Bool
  mode : DWord
  fmtblk : DWord
  sidetab : DWord
  cmpl : DWord
  hpc : Nat
  cpk : Nat
  prio : Nat
  ndep : Nat
  depoff : Nat
  hlim : Nat
  reserved : Bool
  deriving DecidableEq, Repr

/-- R172 to R176: an uncommitted item of an ordered launch, by timestamp order. -/
structure OrdItem where
  index : Nat
  ts : Nat
  /-- The hart and lane that hold it, if any. -/
  holder : Option (Nat × Nat)
  claimed : Bool
  exited : Bool
  nonspec : Bool
  core : Nat
  hart : Nat
  /-- R173: buffered bytes by space, owner and address; lines read. -/
  buf : List (Nat × Nat × Nat × Byte)
  reads : List (Nat × Nat)
  flags : BitVec 6
  /-- R111: held child records: target launch and index. -/
  children : List (Nat × Nat)
  deriving DecidableEq, Repr

/-- R104, R105: a child record of an open launch. -/
structure Child where
  index : Nat
  ts : Nat
  claimable : Bool
  claimed : Bool
  /-- R111: its caller holds it no more; its record is written, at this GPA. -/
  loose : Bool := false
  written : Bool := false
  at_ : Option Nat := none
  /-- R104: software stored to its record. -/
  spoilt : Bool := false
  deriving DecidableEq, Repr

/-- A hart saved by a checkpoint (R126): where its record and extension lie, and what they do not hold: its place in the
launch, its live masks (R367), its slice (R97) and the job of a `jyield` park (R198). -/
structure SavedHart where
  hidx : Nat
  addr : Nat
  annex : Nat
  unit : Nat
  member : Nat
  liveX : Nat
  liveV : Nat
  liveP : Nat
  slice : Option Nat
  steps : Vector Nat 32
  parkedOn : Option (DWord × DWord)
  /-- R369, R373: the core and slot it was saved from. -/
  core : Nat
  slot : Nat
  /-- Messages for the hart in a sealed core's inbox (R369); the lowest item of its lanes (R126). -/
  inbox : List InboxEntry
  low : Option Nat
  deriving DecidableEq, Repr

/-- R83 to R128: a launch. -/
structure Launch where
  pkt : Packet
  part : Nat
  q : Nat
  index : Nat
  /-- R87: the identifier `lnch`. -/
  lnch : DWord
  activated : Bool
  ended : Bool
  status : Nat
  fmt : Vector DWord 4
  fmtRaw : List (BitVec 512)
  safetab : DWord
  livetab : DWord
  drainpc : DWord
  /-- R96: lowest unclaimed index; requeued item indices. -/
  next : Nat
  requeued : List Nat
  exited : Nat
  flags : BitVec 6
  /-- R97: slices given. -/
  slicesGiven : Nat
  unitsPlaced : Nat
  /-- R104: appended records and their states. -/
  appended : Nat
  children : List Child
  /-- R105: timestamp of the last committed item plus 1 (0: none). -/
  frontier : Nat
  items : List OrdItem
  itembase : Nat
  /-- R126: one above the highest index ever claimed. -/
  high : Nat
  /-- R116: the rate, and the count at the last interval's end. -/
  rate : Nat
  lastExited : Nat
  saved : List SavedHart
  parked : Bool
  stopping : Bool
  barriers : List Barrier
  /-- R126, R371, R373: what is saved beside the hart records, with its address: scratchpad banks (0, unit, member, bank),
  tiles (1, unit, tile, 0), job entries (2, unit, hart index, order), barrier records (3, unit, member, kind), and the annex of
  a unit's cluster section (4, unit, 0, 0). -/
  sections : List ((Nat × Nat × Nat × Nat) × Nat)
  /-- R270: what the tile sections do not hold: kind, superscales and poison, by unit and handle. -/
  savedTiles : List (Nat × Nat × Tile)
  /-- R99: the completion word has been written, or cannot be. -/
  notifyDone : Bool
  deriving DecidableEq, Repr

/-- R114 to R128: a vacate order that was accepted. -/
structure Order where
  raw : BitVec 1024
  part : Nat
  dline : Nat
  hnum : Nat
  t0 : Nat
  /-- The named queues that no order has lifted since, the choice in force for each (1 completion, 2 checkpoint,
  3 discard: R125), and the order that set it. -/
  choices : List (Nat × Nat × Nat)
  /-- R113: an order of the device's own, which nobody numbered and nobody is answered. -/
  own : Bool
  /-- R121: launches failed, discard entries written, bytes used of the checkpoint area and of its annex. -/
  nfail : Nat
  ndisc : Nat
  ckUsed : Nat
  annexUsed : Nat
  /-- The response is final. -/
  done : Bool
  deriving DecidableEq, Repr

/-- R351, R352: one direction of a link. -/
structure LinkSt where
  kidx : Nat
  /-- R351: the keys that the receiver holds, by index. -/
  keys : Map (BitVec 256)
  /-- R352: flits carried under the key in use. -/
  flits : Nat
  /-- R351: the number of the next flit, and whether the receiver has requested it again. -/
  seqNo : Nat
  asked : Bool
  /-- R352: flits received since the switch to a new key; a new index is announced and not acknowledged. -/
  rolling : Option Nat
  awaiting : Bool
  retraining : Bool
  failed : Nat
  inService : Bool
  deriving DecidableEq, Repr

/-- R316, R317: an outstanding host record. -/
structure FaultRec where
  seq : Nat
  part : Nat
  cause : Nat
  page : Nat
  eng : Nat
  wr : Bool
  reng : Nat
  pos : Nat
  slot : Nat
  gva : DWord
  gpa : Nat
  posted : Bool
  /-- Harts, jobs (cluster * 64 + slot), walks (cluster, id) and stores that wait for it; launches, and queues from 2^32 on. -/
  harts : List Nat
  jobs : List Nat
  walks : List (Nat × Nat)
  stores : List (Nat × Nat)
  launches : List Nat
  /-- The model's own name of the record. -/
  tag : Nat
  deriving DecidableEq, Repr

/-- R412 to R417, R394 to R396: the host interface. -/
structure HostIf where
  stage : Nat
  ready : Bool
  hlast : BitVec 64
  /-- R396: accepted messages whose effect is not complete. -/
  hbusy : List (BitVec 64)
  mboxStatus : Nat
  mboxVal : BitVec 64
  mboxNum : BitVec 64
  mboxDone : Bool
  /-- R376: bytes that the last DBG-RD read. R423: the last answer over the management channel. -/
  mboxBuf : List Byte
  mgmtReply : Nat × BitVec 64
  /-- R413, R422: what the last access of the host, or of another package, read; none: CXL poison, or an access fault there. -/
  reply : Option (BitVec 1024)
  fcons : BitVec 64
  /-- Rings: base and log2 size, by kind (R417 RING-SET). -/
  rings : Map (Nat × Nat)
  fnext : Nat
  enext : Nat
  faults : List FaultRec
  errors : List (BitVec 512)
  capTable : Map Nat
  msix : List Nat
  hdm : Nat
  deriving DecidableEq, Repr

/-- R424, R425, R421, R423, R389 to R391: package-wide registers. -/
structure Pkg where
  number : Nat
  domain : Nat
  plim : Nat
  gidle : Nat
  overLimit : Bool
  hn : BitVec 5
  boot : BitVec 16
  spares : Map Nat
  /-- R391: units whose retirement was announced, and those that have left service. -/
  retired : List HwUnit
  gone : List HwUnit
  /-- R393: capacity events so far. -/
  events : Nat
  /-- R390: corrected errors of the last hour: unit, check word, cycle. -/
  wear : List (Nat × Nat × Nat)
  /-- R389: pseudo-channels being copied to a spare: stack and channel. -/
  copying : List (Nat × Nat)
  off : Bool
  /-- R341: the 256 MiB of HBM, in units of that size, that bring-up has reserved for the version table. -/
  reserved : Option Nat
  /-- R408: the package errata mask: the errata of every die admitted, as each admission set them. -/
  emask : BitVec 64
  deriving DecidableEq, Repr

/-- R357: an SPDM session, and the port of its connection. -/
structure Session where
  id : Nat
  port : Nat
  finished : Bool
  mutual_ : Bool
  /-- The SHA-512 of the requester's public key, where it has authenticated. -/
  keyHash : BitVec 512
  deriving DecidableEq, Repr

/-- R357: the connection at one port's mailbox: the exchanges it has made, and its last response, a code and fields. -/
structure Conn where
  version : Bool
  caps : Bool
  algs : Bool
  response : Nat × List Nat
  deriving DecidableEq, Repr

/-- R357 to R361: the package's SPDM responder; the connections are by port. -/
structure Spdm where
  conns : Map Conn
  sessions : List Session
  nextSession : Nat
  deriving DecidableEq, Repr

/-- An event to come: the cycle, the event and its operands. -/
structure Planned where
  at_ : Nat
  ev : Instr
  args : EventArgs
  deriving DecidableEq, Repr

/-- The whole package. The last fields are the model's own (log entries 1 to 3). -/
structure State where
  /-- R377: arithmetic cycles since package reset. -/
  now : Nat
  harts : Map Hart
  cores : Map Core
  clusters : Map Cluster
  dies : Map Die
  mem : Mem
  ctrls : Map Ctrl
  parts : Map Part
  queues : Map Queue
  launches : Map Launch
  nextLaunch : Nat
  orders : Map Order
  links : Map LinkSt
  host : HostIf
  pkg : Pkg
  spdm : Spdm
  /-- The hart that acts, by `core * 16 + slot`; TSC of cluster c: 32768 + c. -/
  cur : Nat
  /-- Cores below this have issued in this cycle. -/
  nextCore : Nat
  schedule : List Planned
  latencies : List Nat
  fresh : Nat
  tag : Nat
  /-- The operands of the event that runs. -/
  arg : EventArgs
  deriving DecidableEq, Repr

/-- Why the machine stops with a fault. -/
inductive Fault where
  /-- Raised by `step` when the schedule of events to come, which the environment fills, holds an instruction row of the
  table, which is no event. Safe: the model stops where the input is no input of the device. -/
  | notAnEvent
  deriving DecidableEq, Repr

/-- Why an instruction has no meaning in a state. -/
inductive Refusal where
  /-- Raised by `exec` for an instruction that has no meaning yet. Safe. -/
  | notModelled (mnemonic : String)
  /-- Raised by every instruction's meaning when no hart is resident at `State.cur`: there is nobody to execute it. Safe:
  `step` calls an instruction's meaning only for a resident hart. -/
  | noHart
  deriving DecidableEq, Repr

/-- R91, R73: the CSRs of a hart at dispatch (log entry 4 for those the spec gives no value). -/
def Csr.reset : Csr :=
  { mstatus := 0x0000000A00000000, medeleg := 0x00000000FF00B15D, mideleg := 0x00000000000F0000, mie := 0, mtvec := 0,
    mcounteren := 7, scounteren := 7, mcountinhibit := 0, mscratch := 0, mepc := 0, mcause := 0, mtval := 0,
    stvec := 0, sscratch := 0, sepc := 0, scause := 0, stval := 0, satp := 0, mcycleHeld := 0, mcycleFrom := 0,
    minstret := 0 }

/-- R36: the device CSRs at dispatch. -/
def Dev.reset : Dev :=
  { lflags := 0, bflags := 0, lrm := 0, lseed := 0, fs := Vector.replicate 4 0, tbm := 0, tbmf := false,
    hangthr := 0x00100000, emuvec := 0, lfmask := 0, lftab := 0, lkto := 0x00010000, itembase := 0 }

/-- R91: the lanes at dispatch before the fill: all vacant. -/
def Lanes.reset : Lanes :=
  { v := [], p := Vector.replicate 12 0, em := 0, occ := 0, item := Vector.replicate 32 0xFFFFFFFFFFFF,
    gen := Vector.replicate 32 0, fresh := 0, cohort := Vector.replicate 32 0, ts := Vector.replicate 32 0,
    sticky := Vector.replicate 32 0, sr := Vector.replicate 32 0, slice := [] }

/-- The run state of a hart at dispatch. -/
def Run.reset : Run :=
  { resv := none, wait := none, hangHeld := 0, hangFrom := 0, lastBack := none, aq := [], aqOvf := false,
    irq16 := none, irq17 := none, irq18 := none, iq19 := [], iq19Ovf := false, seq := 0, cohortCtr := 0, drain := false,
    barw := false, yielded := none, preempt := none, graceOver := false, halted := false, stepping := false, amber := false, haltReq := false, passCmp := false, walks := [],
    declined := [], failedPages := [], lent := [], attempt := none, pair := none, saveFailed := false, entering := none, busyUntil := 0, second := none, spawn := none,
    stoppedJobs := [], doneJobs := [], lateFlags := [], relock := [] }

/-- A hart of no launch. -/
def Role.reset : Role :=
  { launch := none, part := 0, hidx := 0, unit := 0, member := 0, slice := none, steps := Vector.replicate 32 0 }

/-- R69, R91: a hart at dispatch, before its launch's values are filled in. -/
def Hart.reset : Hart :=
  { x := Vector.replicate 32 0, pc := 0, priv := .U, tsc := false, lanes := Lanes.reset, csr := Csr.reset,
    dev := Dev.reset, run := Run.reset, role := Role.reset }

/-- R375. -/
def Debug.reset : Debug :=
  { pcCmp := Vector.replicate 8 0, dataCmp := Vector.replicate 4 0, ebh := false, stop := 0 }

/-- A core at package reset. -/
def Core.reset : Core :=
  { spad := [], l1 := [], icache := [], hdc := [], tlb := [], locks := [], lockq := [], flight := [], inbox := [], inboxSaved := false,
    tcc := [], owner := 0, own := false, dbg := Debug.reset, nsent := 0, nrcvd := 0, bar := [], inService := true }

/-- A cluster at package reset. -/
def Cluster.reset : Cluster :=
  { jobs := [], tiles := [], served := [], servedCore := [], pump := false, bar := [], tscq := [], tscWait := [], tlb := [], sfences := [],
    powered := true, waking := false, lastBusy := 0 }

/-- A slice at package reset. -/
def Slice.reset : Slice := { watches := [], dirty := 0, sweep := none }

/-- R350: a die at package reset: in its reset state. -/
def Die.reset : Die :=
  { st := 1, why := 0, nres := 0, tst := 0, tlb := [], starts := [], rr := 0, ds := [], slices := [], accept := false,
    epoch := 0, step := 1, got := 0, blocks := [], lifts := [] }

/-- R321. -/
def Ctrl.reset : Ctrl := { hk := 0, hen := false, c := 0 }

/-- A link direction at package reset. -/
def LinkSt.reset : LinkSt :=
  { kidx := 0, keys := [], flits := 0, seqNo := 0, asked := false, rolling := none, awaiting := false, retraining := false, failed := 0, inService := true }

/-- R420: memory at package reset; nothing is listed. -/
def Mem.reset : Mem :=
  { hbm := [], pool := [], host := [], remote := [], llc := [], sealedAt := [], poisonAt := [], versions := [] }

/-- R414: the host interface at package reset. -/
def HostIf.reset : HostIf :=
  { stage := 0, ready := false, hlast := 0, hbusy := [], mboxStatus := 0, mboxVal := 0, mboxNum := 0, mboxDone := false, mboxBuf := [],
    mgmtReply := (0, 0), reply := none,
    fcons := 0, rings := [], fnext := 0, enext := 0, faults := [], errors := [], capTable := [], msix := [], hdm := 0 }

/-- R321, R424: package registers at package reset. -/
def Pkg.reset : Pkg :=
  { number := 0, domain := 0, plim := 3000, gidle := 100000, overLimit := false, hn := 10, boot := 0, spares := [],
    retired := [], gone := [], events := 0, wear := [], copying := [], off := false, reserved := none, emask := 0 }

/-- R357. -/
def Conn.reset : Conn := { version := false, caps := false, algs := false, response := (0, []) }

def Spdm.reset : Spdm := { conns := [], sessions := [], nextSession := 0 }

/-- The package right after a package reset, before its first bring-up step (R419, R420): no partition, no hart, every
die in its reset state. -/
def State.reset : State :=
  { now := 0, harts := [], cores := [], clusters := [], dies := [], mem := Mem.reset, ctrls := [], parts := [],
    queues := [], launches := [], nextLaunch := 0, orders := [], links := [], host := HostIf.reset, pkg := Pkg.reset,
    spdm := Spdm.reset, cur := 0, nextCore := 0, schedule := [], latencies := [], fresh := 0, tag := 0, arg := {} }

end Sys2Proof.Machine
end

