-- ==== Sys2Proof/Machine/Map.lean ====
section
/-! DEFINITION. The named operations over maps, byte memories and lines; byte order is decided here, once (R6). -/

namespace Sys2Proof.Machine

open Sys2Proof

/-- The value at a key. -/
def Map.find {α : Type} : Map α → Nat → Option α
  | [], _ => none
  | (k, v) :: m, n => if n = k then some v else if n < k then none else Map.find m n

/-- The value at a key, or a default. -/
def Map.findD {α : Type} (m : Map α) (n : Nat) (d : α) : α := (Map.find m n).getD d

/-- The map with a value at a key. -/
def Map.put {α : Type} : Map α → Nat → α → Map α
  | [], n, a => [(n, a)]
  | (k, v) :: m, n, a =>
    if n < k then (n, a) :: (k, v) :: m
    else if n = k then (n, a) :: m
    else (k, v) :: Map.put m n a

/-- The map without a key. -/
def Map.del {α : Type} : Map α → Nat → Map α
  | [], _ => []
  | (k, v) :: m, n => if n = k then m else if n < k then (k, v) :: m else (k, v) :: Map.del m n

/-- The keys of a map. -/
def Map.keys {α : Type} (m : Map α) : List Nat := m.map (·.1)

/-- R15: a cache of `cap` entries with room for one at a key: the first marked entry gives way, else the one that is picked. -/
def makeRoom {α : Type} (cap : Nat) (mark : α → Bool) (pick : Nat) (m : Map α) (key : Nat) : Map α :=
  if m.length < cap || (Map.find m key).isSome then m
  else match m.findIdx? (fun e => mark e.2) with
    | some i => m.eraseIdx i
    | none => m.eraseIdx (pick % m.length)

/-- Keys strictly rising. -/
def Map.sorted {α : Type} : Map α → Bool
  | [] => true
  | [_] => true
  | a :: b :: m => decide (a.1 < b.1) && Map.sorted (b :: m)

/-- The first entry whose key and value satisfy a test. -/
def Map.first {α : Type} (m : Map α) (f : Nat → α → Bool) : Option (Nat × α) := m.find? (fun e => f e.1 e.2)

/-- Every value changed. -/
def Map.mapVal {α : Type} (m : Map α) (f : Nat → α → α) : Map α := m.map (fun e => (e.1, f e.1 e.2))

/-- The entries that satisfy a test. -/
def Map.keep {α : Type} (m : Map α) (f : Nat → α → Bool) : Map α := m.filter (fun e => f e.1 e.2)

/-- What a byte that nothing has written reads as (R420 for HBM; log entry 6 elsewhere). -/
def emptyByte : Byte := 0

/-- The byte at an address. -/
def Memory.read (m : Memory) (a : Nat) : Byte := Map.findD m a emptyByte

/-- The memory with a byte at an address, in canonical form. -/
def Memory.write (m : Memory) (a : Nat) (b : Byte) : Memory :=
  if b = emptyByte then Map.del m a else Map.put m a b

/-- The canonical form: addresses strictly rising, no byte equal to what an unlisted address reads as. -/
def Memory.wf (m : Memory) : Bool := Map.sorted m && m.all (fun c => c.2 != emptyByte)

/-- R6: n bytes from an address, lowest address first. -/
def Memory.bytes (m : Memory) (a : Nat) : Nat → List Byte
  | 0 => []
  | n + 1 => Memory.read m a :: Memory.bytes m (a + 1) n

/-- Bytes stored from an address upwards. -/
def Memory.store (m : Memory) (a : Nat) : List Byte → Memory
  | [] => m
  | b :: bs => Memory.store (Memory.write m a b) (a + 1) bs

/-- R6: the number that bytes stand for, least significant first. -/
def natOfBytes : List Byte → Nat
  | [] => 0
  | b :: bs => b.toNat + 256 * natOfBytes bs

/-- R6: the n low bytes of a number, least significant first. -/
def bytesOfNat (v : Nat) : Nat → List Byte
  | 0 => []
  | n + 1 => BitVec.ofNat 8 v :: bytesOfNat (v / 256) n

/-- A number of n bytes read from a memory. -/
def Memory.num (m : Memory) (a n : Nat) : Nat := natOfBytes (Memory.bytes m a n)

/-- A 128-byte line of a memory. -/
def Memory.line (m : Memory) (a : Nat) : BitVec 1024 := BitVec.ofNat 1024 (Memory.num m a 128)

/-- A 128-byte line stored into a memory. -/
def Memory.setLine (m : Memory) (a : Nat) (d : BitVec 1024) : Memory := Memory.store m a (bytesOfNat d.toNat 128)

/-- Byte i of a line. -/
def lineByte (d : BitVec 1024) (i : Nat) : Byte := (d >>> (8 * i)).setWidth 8

/-- Bytes of a line from offset i. -/
def lineBytes (d : BitVec 1024) (i : Nat) : Nat → List Byte
  | 0 => []
  | n + 1 => lineByte d i :: lineBytes d (i + 1) n

/-- A line with one byte replaced. -/
def setLineByte (d : BitVec 1024) (i : Nat) (b : Byte) : BitVec 1024 :=
  (d &&& ~~~((0xFF : BitVec 1024) <<< (8 * i))) ||| ((b.setWidth 1024) <<< (8 * i))

/-- A line with bytes replaced from offset i. -/
def setLineBytes (d : BitVec 1024) (i : Nat) : List Byte → BitVec 1024
  | [] => d
  | b :: bs => setLineBytes (setLineByte d i b) (i + 1) bs

/-- A list with element i replaced. -/
def setAt {α : Type} (l : List α) (i : Nat) (a : α) : List α := l.set i a

/-- The numbers from 0 below n. -/
def upTo (n : Nat) : List Nat := List.range n

/-- The 32 lanes, ascending. -/
def allLanes : List Nat := upTo 32

/-- R60: a sign-extended immediate. -/
def sext64 {n : Nat} (v : BitVec n) : DWord := v.signExtend 64

/-- R60: a zero-extended value. -/
def zext64 {n : Nat} (v : BitVec n) : DWord := v.setWidth 64

/-- One bit of a doubleword replaced. -/
def setBit (v : DWord) (i : Nat) (b : Bool) : DWord :=
  if b then v ||| ((1 : DWord) <<< i) else v &&& ~~~((1 : DWord) <<< i)

/-- One bit of a 32-bit mask replaced. -/
def setMask (v : Word) (i : Nat) (b : Bool) : Word :=
  if b then v ||| ((1 : Word) <<< i) else v &&& ~~~((1 : Word) <<< i)

end Sys2Proof.Machine
end

