-- ==== Sys2Proof/Machine/Flags.lean ====
section
/-! DEFINITION. The status register's fields (R73), the sticky flags (R36, R225) and the hang counter (R107). -/

namespace Sys2Proof.Machine

open Sys2Proof

/-- R73: bit positions of `mstatus`. -/
def bitSIE : Nat := 1
def bitMIE : Nat := 3
def bitSPIE : Nat := 5
def bitMPIE : Nat := 7
def bitSPP : Nat := 8
def bitMPRV : Nat := 17
def bitSUM : Nat := 18
def bitMXR : Nat := 19
def bitTVM : Nat := 20
def bitTW : Nat := 21
def bitTSR : Nat := 22

/-- R36: the flags of the sticky registers. -/
structure FlagSet where
  sat : Bool := false
  nv : Bool := false
  dz : Bool := false
  of : Bool := false
  uf : Bool := false
  nx : Bool := false
  deriving DecidableEq, Repr

/-- R36: [5] SAT, [4] NV, [3] DZ, [2] OF, [1] UF, [0] NX. -/
def FlagSet.bits (f : FlagSet) : BitVec 6 :=
  BitVec.ofBool f.sat ++ BitVec.ofBool f.nv ++ BitVec.ofBool f.dz ++ BitVec.ofBool f.of ++ BitVec.ofBool f.uf
    ++ BitVec.ofBool f.nx

/-- R225: flags raised together. -/
def FlagSet.or (a b : FlagSet) : FlagSet :=
  ⟨a.sat || b.sat, a.nv || b.nv, a.dz || b.dz, a.of || b.of, a.uf || b.uf, a.nx || b.nx⟩

def noFlags : FlagSet := {}
def flagNV : FlagSet := { nv := true }
def flagSAT : FlagSet := { sat := true }
def flagNX : FlagSet := { nx := true }
def flagDZ : FlagSet := { dz := true }

/-- R36: a privilege level as the two bits of MPP. -/
def Priv.code : Priv → BitVec 2
  | .U => 0 | .S => 1 | .M => 3

/-- The privilege level of MPP; 0b10 is never held (R73). -/
def Priv.ofCode (c : BitVec 2) : Priv := if c = 0 then .U else if c = 1 then .S else .M

/-- R50: privilege levels in order. -/
def Priv.num : Priv → Nat
  | .U => 0 | .S => 1 | .M => 3

def Hart.status (h : Hart) (i : Nat) : Bool := h.csr.mstatus.getLsbD i

def Hart.mpp (h : Hart) : Priv := Priv.ofCode (h.csr.mstatus.extractLsb' 11 2)

def Hart.setStatus (h : Hart) (i : Nat) (b : Bool) : Hart :=
  { h with csr := { h.csr with mstatus := setBit h.csr.mstatus i b } }

def Hart.setMpp (h : Hart) (p : Priv) : Hart :=
  { h with csr := { h.csr with mstatus := setBit (setBit h.csr.mstatus 11 (p.code.getLsbD 0)) 12 (p.code.getLsbD 1) } }

/-- R225: flags raised by lanes: each lane's sticky flags, and their OR into `lflags` (R36). -/
def Hart.raiseFlags (h : Hart) (l : Nat) (f : FlagSet) : Hart :=
  { h with
    lanes := { h.lanes with sticky := h.lanes.sticky.set! l (h.lanes.sticky.getD l 0 ||| f.bits) }
    dev := { h.dev with lflags := h.dev.lflags ||| f.bits } }

/-- R107: a wait during which the hang counter stands still. -/
def Wait.stopsHang : Wait → Bool
  | .wfi => true
  | .barrier _ => true
  | .waita _ _ _ => true
  | .jwait _ _ => true
  | .jyield _ _ => true
  | .data _ _ => false
  | .walk => false
  | .queueFull => false
  | .replay => false
  | .release _ _ => false
  | .claim _ _ => false
  | .lock _ _ => false
  | .ordered => false
  | .sfence _ => false
  | .firmware => false
  | .die _ => false
  | .reinstate => false
  | .swap _ _ _ _ => true

/-- R107: the hang counter stands still. -/
def Hart.hangStill (h : Hart) : Bool :=
  match h.run.wait with
  | none => false
  | some w => w.stopsHang

/-- R107: the hang counter at a cycle. -/
def Hart.hangNow (h : Hart) (now : Nat) : Nat :=
  if h.dev.hangthr = 0 then 0
  else if h.hangStill then h.run.hangHeld else h.run.hangHeld + (now - h.run.hangFrom)

/-- R107: the hang counter set to 0. -/
def Hart.hangClear (h : Hart) (now : Nat) : Hart :=
  { h with run := { h.run with hangHeld := 0, hangFrom := now, lastBack := none } }

/-- R107: the counter exceeds `hangthr` and a backward branch or jump was taken since it was last set to 0. -/
def Hart.hung (h : Hart) (now : Nat) : Bool :=
  h.dev.hangthr != 0 && h.run.lastBack.isSome && decide (h.dev.hangthr.toNat < h.hangNow now)

/-- A wait begins: the hang counter keeps its value where the wait stops it. -/
def Hart.park (h : Hart) (w : Wait) (now : Nat) : Hart :=
  { h with run := { h.run with hangHeld := h.hangNow now, hangFrom := now, wait := some w } }

/-- R92: a wait ends; the hart issues at a later cycle. -/
def Hart.unpark (h : Hart) (now : Nat) : Hart :=
  { h with run := { h.run with hangHeld := h.hangNow now, hangFrom := now, wait := none, busyUntil := now + 1 } }

end Sys2Proof.Machine
end

