-- ==== Sys2Proof/Machine/Ops.lean ====
section
/-! DEFINITION. The named operations every meaning is written over: registers, the acting hart, time and planned events,
free values, taking an exception (R76, R362) and returning from one (R79). -/

namespace Sys2Proof.Machine

open Sys2Proof

/-- The outcomes of a step of this machine. -/
abbrev Out := Host.Outcome State Fault Refusal

/-- R9, R31: x0 reads 0. -/
def Hart.getX (h : Hart) (r : BitVec 5) : DWord := if r = 0 then 0 else h.x[r.toNat]'r.isLt

/-- R9, R31: a write to x0 is discarded. -/
def Hart.setX (h : Hart) (r : BitVec 5) (v : DWord) : Hart :=
  if r = 0 then h else { h with x := h.x.set r.toNat v r.isLt }

/-- The x register a 6-bit field names. -/
def xOf (r : BitVec 6) : BitVec 5 := r.setWidth 5

/-- A lane register of one lane. -/
def Hart.getV (h : Hart) (r l : Nat) : Word := Map.findD h.lanes.v (r * 32 + l) 0

/-- A lane register of one lane written; a register that holds 0 is not listed. -/
def Hart.setV (h : Hart) (r l : Nat) (w : Word) : Hart :=
  { h with lanes := { h.lanes with v := if w = 0 then Map.del h.lanes.v (r * 32 + l) else Map.put h.lanes.v (r * 32 + l) w } }

/-- R32, R60: an even/odd pair of one lane. -/
def Hart.getPair (h : Hart) (r l : Nat) : DWord := h.getV (r + 1) l ++ h.getV r l

def Hart.setPair (h : Hart) (r l : Nat) (v : DWord) : Hart :=
  (h.setV r l (v.setWidth 32)).setV (r + 1) l (v.extractLsb' 32 32)

/-- A predicate register, one bit per lane; 0 beyond p11. -/
def Hart.getP (h : Hart) (p : Nat) : Word := h.lanes.p.getD p 0

/-- A predicate register written. -/
def Hart.setP (h : Hart) (p : Nat) (m : Word) : Hart :=
  { h with lanes := { h.lanes with p := h.lanes.p.set! p m } }

/-- R60: `active(l)`. -/
def Hart.active (h : Hart) (g : Guard) (l : Nat) : Bool :=
  h.lanes.em.getLsbD l && (g.pred == 15 || ((h.getP g.pred.toNat).getLsbD l != g.sense))

/-- The active lanes, ascending. -/
def Hart.activeLanes (h : Hart) (g : Guard) : List Nat := allLanes.filter (h.active g)

/-- R40: no guard. -/
def unguarded : Guard := ⟨15, false⟩

/-- The hart that acts. -/
def State.hart? (s : State) (k : Nat) : Option Hart := Map.find s.harts k

def State.setHart (s : State) (k : Nat) (h : Hart) : State := { s with harts := Map.put s.harts k h }

/-- The acting hart replaced. -/
def State.setCur (s : State) (h : Hart) : State := s.setHart s.cur h

def State.delHart (s : State) (k : Nat) : State := { s with harts := Map.del s.harts k }

/-- An instruction's meaning, given the acting hart. -/
def onHart (s : State) (f : Hart → State) : Out :=
  match s.hart? s.cur with
  | none => .refused .noHart
  | some h => .next (f h)

/-- A change of the acting hart alone, where there is one. -/
def State.modCur (s : State) (f : Hart → Hart) : State :=
  match s.hart? s.cur with
  | none => s
  | some h => s.setCur (f h)

/-- R25: the core position and slot of a hart's key. -/
def coreOf (k : Nat) : Nat := k / 16
def slotOf (k : Nat) : Nat := k % 16
def clusterOf (k : Nat) : Nat := if k < 32768 then k / 128 else k - 32768
def dieOf (k : Nat) : Nat := clusterOf k / 32

def State.core (s : State) (c : Nat) : Core := Map.findD s.cores c Core.reset
def State.setCore (s : State) (c : Nat) (v : Core) : State := { s with cores := Map.put s.cores c v }
def State.modCore (s : State) (c : Nat) (f : Core → Core) : State := s.setCore c (f (s.core c))
def State.cluster (s : State) (c : Nat) : Cluster := Map.findD s.clusters c Cluster.reset
def State.setCluster (s : State) (c : Nat) (v : Cluster) : State := { s with clusters := Map.put s.clusters c v }
def State.modCluster (s : State) (c : Nat) (f : Cluster → Cluster) : State := s.setCluster c (f (s.cluster c))
def State.die (s : State) (d : Nat) : Die := Map.findD s.dies d Die.reset
def State.setDie (s : State) (d : Nat) (v : Die) : State := { s with dies := Map.put s.dies d v }
def State.modDie (s : State) (d : Nat) (f : Die → Die) : State := s.setDie d (f (s.die d))
def State.part? (s : State) (p : Nat) : Option Part := Map.find s.parts p
def State.setPart (s : State) (p : Nat) (v : Part) : State := { s with parts := Map.put s.parts p v }
def State.modPart (s : State) (p : Nat) (f : Part → Part) : State :=
  match s.part? p with
  | none => s
  | some v => s.setPart p (f v)
def State.launch? (s : State) (l : Nat) : Option Launch := Map.find s.launches l
def State.setLaunch (s : State) (l : Nat) (v : Launch) : State := { s with launches := Map.put s.launches l v }
def State.modLaunch (s : State) (l : Nat) (f : Launch → Launch) : State :=
  match s.launch? l with
  | none => s
  | some v => s.setLaunch l (f v)
def Die.slice (d : Die) (n : Nat) : Slice := Map.findD d.slices n Slice.reset

/-- A change of every hart that satisfies a test. -/
def State.modHarts (s : State) (p : Nat → Hart → Bool) (f : Nat → Hart → Hart) : State :=
  { s with harts := Map.mapVal s.harts (fun k h => if p k h then f k h else h) }

/-- The launch of a hart. -/
def State.launchOf (s : State) (h : Hart) : Option Launch :=
  match h.role.launch with
  | none => none
  | some l => s.launch? l

/-- R177: the hart runs in an ordered launch. -/
def State.ordered (s : State) (h : Hart) : Bool :=
  match s.launchOf h with
  | none => false
  | some l => l.pkt.ordered

/-- R21: the `time` counter: one tick is 7 cycles. -/
def State.time (s : State) : Nat := s.now / 7

/-- Insert an event among those to come: after all that are due no later. -/
def insertPlanned (p : Planned) : List Planned → List Planned
  | [] => [p]
  | q :: qs => if p.at_ < q.at_ then p :: q :: qs else q :: insertPlanned p qs

/-- An event that will occur `dt` cycles from now. -/
def State.plan (s : State) (dt : Nat) (ev : Instr) (args : EventArgs) : State :=
  { s with schedule := insertPlanned ⟨s.now + dt, ev, args⟩ s.schedule }

/-- The environment's choice of the latency of the next timed operation; none left: 0 (log entry 1). -/
def State.latency (s : State) : Nat := s.latencies.headD 0

def State.popLatency (s : State) : State := { s with latencies := s.latencies.tail }

/-- A new number for a wait or a request. -/
def State.nextTag (s : State) : State := { s with tag := s.tag + 1 }

/-- R3: an undefined value (log entry 3); `State.drawn` counts it as used. -/
def State.free (s : State) (w : Nat) : BitVec w := Config.freeBits w s.fresh
def State.freeBool (s : State) : Bool := Config.freeBool s.fresh
def State.drawn (s : State) : State := { s with fresh := s.fresh + 1 }

/-- R53: where the pc goes after an instruction of `len` bytes; a pair counts its PX. -/
def Hart.nextPc (h : Hart) (len : Nat) : DWord :=
  h.pc + BitVec.ofNat 64 (len + (if h.run.pair.isSome then 4 else 0))

/-- R74: one retired instruction, where `minstret` counts. -/
def Hart.countRetired (h : Hart) : Hart :=
  if h.csr.mcountinhibit.getLsbD 2 then h else { h with csr := { h.csr with minstret := h.csr.minstret + 1 } }

/-- An instruction completes: its pair, its walk results (R308) and its fault records are done with; the hart halts after a single
step (R376). -/
def Hart.settle (h : Hart) : Hart :=
  { h with run := { h.run with pair := none, walks := [], declined := [], failedPages := [], barw := false, yielded := none,
                               passCmp := false, entering := none, second := none, stepping := false, haltReq := h.run.haltReq || h.run.stepping } }

/-- An instruction of `len` bytes retires. -/
def Hart.retire (h : Hart) (len : Nat) : Hart := ({ h with pc := h.nextPc len }).countRetired.settle

/-- An instruction retires at a pc of its own. -/
def Hart.retireTo (h : Hart) (pc : DWord) : Hart := ({ h with pc := pc }).countRetired.settle

/-- The acting hart retires an instruction of `len` bytes. -/
def State.retire (s : State) (h : Hart) (len : Nat) : State := s.setCur (h.retire len)

/-- R52, R362: `mtval` of cause 2: the first 32 bits of the word, or of the PX of a pair. -/
def Hart.firstWord (h : Hart) (i : Instr) : DWord :=
  match h.run.pair with
  | some m => BitVec.ofNat 64 (((encode (.px m)).getD 0) % 2 ^ 32)
  | none => BitVec.ofNat 64 (((encode i).getD 0) % 2 ^ 32)

/-- R76, R362: what a trap or interrupt entry leaves behind besides the saved registers: no reservation (R68), no
pair, no wait, the hang counter 0 (R107). -/
def Hart.entered (h : Hart) (now : Nat) : Hart :=
  ((({ h with run := { h.run with resv := none, wait := none } }).settle).hangClear now)

/-- R76, R362, R374: entry into S: `sepc`, `scause`, `stval`; SPIE takes SIE, SIE is cleared, SPP takes the level. -/
def Hart.enterS (h : Hart) (cause tval vec : DWord) (now : Nat) : Hart :=
  let h1 := { h with csr := { h.csr with sepc := h.pc, scause := cause, stval := tval } }
  let h2 := ((h1.setStatus bitSPIE (h.status bitSIE)).setStatus bitSIE false).setStatus bitSPP (h.priv != .U)
  ({ h2 with priv := .S, pc := vec }).entered now

/-- R76, R362: entry into M. -/
def Hart.enterM (h : Hart) (cause tval vec : DWord) (now : Nat) : Hart :=
  let h1 := { h with csr := { h.csr with mepc := h.pc, mcause := cause, mtval := tval } }
  let h2 := ((h1.setStatus bitMPIE (h.status bitMIE)).setStatus bitMIE false).setMpp h.priv
  ({ h2 with priv := .M, pc := vec }).entered now

/-- R70: the supervisor takes a cause of this number at this level. -/
def Hart.delegated (h : Hart) (deleg : DWord) (cause : Nat) : Bool := h.priv != .M && deleg.getLsbD cause

/-- R71: the event by which the firmware answers a call. -/
def firmwareCall (a7 : DWord) : Instr :=
  if a7 = 0 then .fwVersion else if a7 = 1 then .fwFeatureMask else if a7 = 2 then .fwPosition else .fwUnsupported

/-- R70: what the measured firmware does with a cause it takes from a lower level: it answers a call from S, and it fails
the launch on an access fault. `poison` marks a fault that a poisoned line raised (R386). Log entry 8. -/
def State.firmwareTakes (s : State) (h : Hart) (cause : Nat) (poison : Bool) : State :=
  let s1 := s.modCur (fun k => k.park .firmware s.now)
  if cause = 9 then (s1.popLatency).plan s.latency (firmwareCall (h.getX 17)) { nats := [s.cur] }
  else if cause = 1 ∨ cause = 5 ∨ cause = 7 then
    (s1.popLatency).plan s.latency .launchFail { nats := [(h.role.launch.getD 0), s.cur, 1], ok := true, ok2 := poison }
  else s1

/-- TAKING AN EXCEPTION (R76, R362, R70): the acting hart takes `cause` with `tval`; `sepc` or `mepc` holds its pc. -/
def State.raiseWith (s : State) (cause : Nat) (tval : DWord) (poison : Bool) : State :=
  match s.hart? s.cur with
  | none => s
  | some h =>
    if h.delegated h.csr.medeleg cause then
      s.setCur (h.enterS (BitVec.ofNat 64 cause) tval h.csr.stvec s.now)
    else
      let s1 := s.setCur (h.enterM (BitVec.ofNat 64 cause) tval h.csr.mtvec s.now)
      if h.priv = .M then s1 else s1.firmwareTakes h cause poison

def State.raise (s : State) (cause : Nat) (tval : DWord) : State := s.raiseWith cause tval false

/-- R28, R362: cause 2 of an instruction. -/
def State.illegal (s : State) (h : Hart) (i : Instr) : State := s.raise 2 (h.firstWord i)

/-- R37, R374: an instruction that `pfmask` masks: the emulation handler where `emuvec` is enabled, cause 2 otherwise. -/
def State.masked (s : State) (h : Hart) (i : Instr) : State :=
  if h.dev.emuvec.getLsbD 0 && h.delegated h.csr.medeleg 2 then
    s.setCur (h.enterS 2 (h.firstWord i) (h.dev.emuvec &&& ~~~3) s.now)
  else s.illegal h i

/-- R36: a bit of the feature mask of the hart's partition. -/
def State.pfmask (s : State) (h : Hart) (i : Nat) : Bool :=
  match s.part? h.role.part with
  | none => false
  | some p => p.pfmask.getLsbD i

/-- R364, R365: an interrupt is taken: cause with bit 63 set. -/
def State.interrupt (s : State) (n : Nat) (tval : DWord) : State :=
  match s.hart? s.cur with
  | none => s
  | some h =>
    if h.delegated h.csr.mideleg n then
      s.setCur (h.enterS (BitVec.ofNat 64 (2 ^ 63 + n)) tval h.csr.stvec s.now)
    else
      let s1 := s.setCur (h.enterM (BitVec.ofNat 64 (2 ^ 63 + n)) tval h.csr.mtvec s.now)
      if h.priv = .M then s1 else s1.modCur (fun k => k.park .firmware s.now)

/-- R79: the status after `sret`: SIE takes SPIE, SPIE is 1, SPP is U; MPRV is cleared on a return below M. -/
def Hart.returnS (h : Hart) (pc : DWord) : Hart :=
  let lower : Priv := if h.status bitSPP then .S else .U
  let h1 := (((h.setStatus bitSIE (h.status bitSPIE)).setStatus bitSPIE true).setStatus bitSPP false).setStatus bitMPRV false
  { h1 with priv := lower, pc := pc }

/-- R79: the status after `mret`: MIE takes MPIE, MPIE is 1, MPP is U; MPRV is cleared on a return below M. -/
def Hart.returnM (h : Hart) (pc : DWord) : Hart :=
  let lower := h.mpp
  let h1 := ((h.setStatus bitMIE (h.status bitMPIE)).setStatus bitMPIE true).setMpp .U
  let h2 := if lower = .M then h1 else h1.setStatus bitMPRV false
  { h2 with priv := lower, pc := pc }

/-- R74: `mcycle` at a cycle. -/
def Hart.mcycle (h : Hart) (now : Nat) : DWord :=
  if h.csr.mcountinhibit.getLsbD 0 then h.csr.mcycleHeld else h.csr.mcycleHeld + BitVec.ofNat 64 (now - h.csr.mcycleFrom)

/-- What an access or a check comes to: a value, a trap, or a wait after which the instruction executes again. -/
inductive Acc (α : Type) where
  | ok (a : α) (s : State)
  | trap (cause : Nat) (tval : DWord) (poison : Bool) (s : State)
  | park (w : Wait) (s : State)

/-- The next step of an access, where the last one came to a value. -/
def Acc.bind {α β : Type} (r : Acc α) (f : α → State → Acc β) : Acc β :=
  match r with
  | .ok a s => f a s
  | .trap c v p s => .trap c v p s
  | .park w s => .park w s

/-- The state after an access: its effect, its trap, or the acting hart out of rotation. -/
def Acc.done {α : Type} (r : Acc α) (f : α → State → State) : State :=
  match r with
  | .ok a s => f a s
  | .trap c v p s => s.raiseWith c v p
  | .park w s => s.modCur (fun h => h.park w s.now)

/-- R107: a branch or jump taken from pc to an address not above it. -/
def Hart.noteBack (h : Hart) (target : DWord) : Hart :=
  if target.toNat ≤ h.pc.toNat then { h with run := { h.run with lastBack := some h.pc } } else h

end Sys2Proof.Machine
end

