-- ==== Sys2Proof/Machine/Operands.lean ====
section
/-! DEFINITION. Lane operands: elements of a register (R38, R60), immediates (R41), the modes of a PX (R51, R54), the
common end of a lane instruction with the rule of lent registers (R171, R236). -/

namespace Sys2Proof.Machine

open Sys2Proof

/-- R38: element width in bits. -/
def Ty.width : Ty → Nat
  | .i32 | .n32 | .f32 => 32
  | .f16x2 | .bf16x2 | .i16x2 => 16
  | .i8x4 => 8
  | .f64 => 64

/-- R38: elements of a lane value. -/
def Ty.count : Ty → Nat
  | .i32 | .n32 | .f32 | .f64 => 1
  | .f16x2 | .bf16x2 | .i16x2 => 2
  | .i8x4 => 4

/-- R38: the elements, ascending. -/
def Ty.elems (t : Ty) : List Nat := upTo (Ty.count t)

/-- A lane's value of a type: the register, or the pair for f64, as a number. -/
def Hart.laneVal (h : Hart) (t : Ty) (r l : Nat) : Nat :=
  if t = .f64 then (h.getPair r l).toNat else (h.getV r l).toNat

/-- A lane's value of a type written. -/
def Hart.setLaneVal (h : Hart) (t : Ty) (r l v : Nat) : Hart :=
  if t = .f64 then h.setPair r l (BitVec.ofNat 64 v) else h.setV r l (BitVec.ofNat 32 v)

/-- R60: `elem`: the pattern of element k of a lane value. -/
def elemOf (t : Ty) (v k : Nat) : Nat := v / 2 ^ (Ty.width t * k) % 2 ^ Ty.width t

/-- Elements, lowest first, put together. -/
def joinElems (t : Ty) : List Nat → Nat
  | [] => 0
  | e :: es => e % 2 ^ Ty.width t + 2 ^ Ty.width t * joinElems t es

/-- R238: a pattern of w bits read as signed. -/
def asSigned (w v : Nat) : Int := if v < 2 ^ (w - 1) then (v : Int) else (v : Int) - 2 ^ w

/-- R238: an element as the integer its type reads. -/
def asInt (t : Ty) (v : Nat) : Int := if t = .n32 then (v : Int) else asSigned (Ty.width t) v

/-- R41: BF16 bits widened exactly to FP64: an infinity or NaN keeps its sign and payload. -/
def bf16ToF64 (b : BitVec 16) : Nat :=
  let sign := b2n (b.getLsbD 15)
  let e := bits b.toNat 14 7
  let m := bits b.toNat 6 0
  if e = 255 then sign * 2 ^ 63 + 2047 * 2 ^ 52 + m * 2 ^ 45
  else if e = 0 then
    (if m = 0 then sign * 2 ^ 63
     else
       let k := Nat.log2 m
       sign * 2 ^ 63 + (1023 - 133 + k) * 2 ^ 52 + (m * 2 ^ (52 - k) - 2 ^ 52))
  else sign * 2 ^ 63 + (e + 896) * 2 ^ 52 + m * 2 ^ 45

/-- R41: the value of an immediate in every lane. -/
def immVal (t : Ty) (imm : BitVec 16) : Nat :=
  match t with
  | .i32 | .n32 => (imm.signExtend 32).toNat
  | .i16x2 | .i8x4 | .f16x2 | .bf16x2 => (imm ++ imm).toNat
  | .f32 => imm.toNat * 2 ^ 16
  | .f64 => bf16ToF64 imm

/-- R51: rounding modes. -/
inductive Rm where
  | rne | rtz | rdn | rup | rna | sr
  deriving DecidableEq, Repr

/-- R51: the mode of a code; none for 0b110 and 0b111. -/
def Rm.ofCode (c : BitVec 3) : Option Rm :=
  match c.toNat with
  | 0 => some .rne | 1 => some .rtz | 2 => some .rdn | 3 => some .rup | 4 => some .rna | 5 => some .sr
  | _ => none

/-- R54: the rounding mode of an instruction that rounds: its PX's, or `lrm`; none where `lrm` is read and holds no mode. -/
def Hart.rounding (h : Hart) : Option Rm :=
  match h.run.pair with
  | some m => if m.rm = 7 then Rm.ofCode h.dev.lrm else Rm.ofCode m.rm
  | none => Rm.ofCode h.dev.lrm

/-- R51: the saturation code of a PX; 0 without one. -/
def Hart.satCode (h : Hart) : Nat :=
  match h.run.pair with
  | some m => m.sat.toNat
  | none => 0

def Hart.fsi (h : Hart) : Bool :=
  match h.run.pair with
  | some m => m.fsi
  | none => false

def Hart.fso (h : Hart) : Bool :=
  match h.run.pair with
  | some m => m.fso
  | none => false

/-- R183: a job ID's slot and sequence number. -/
def jobSlot (j : DWord) : Nat := bits j.toNat 15 0
def jobSeq (j : DWord) : BitVec 16 := j.extractLsb' 16 16

/-- R269: a tile that nothing has written. -/
def Tile.blank : Tile := { t := [], int := false, sigmaA := [], sigmaB := [], poison := false, free := none }

/-- R269, R270: an element of a tile. -/
def Tile.get (t : Tile) (m n : Nat) : Word :=
  match Map.find t.t (m * 128 + n) with
  | some w => w
  | none => match t.free with
    | none => 0
    | some f => Config.freeBits 32 (f + m * 128 + n)

def Tile.set (t : Tile) (m n : Nat) (w : Word) : Tile :=
  { t with t := if w = 0 ∧ t.free = none then Map.del t.t (m * 128 + n) else Map.put t.t (m * 128 + n) w }

/-- R171: the elements that hang on a job, after a write, given those that did before. -/
def TileWrite.spread (launch : Option Nat) (hidx : Nat) (seq : BitVec 16) (bad : Nat → Nat → Bool) (w : TileWrite) : Nat → Nat → Bool :=
  match w with
  | .sum l i q rows cols _ => fun m n => bad m n || (l == launch && i == hidx && q == seq && rows.contains m && decide (n < cols))
  | .load rows cols => fun m n => bad m n && !(decide (m < rows) && decide (n < cols))
  | .mix row h => fun m n => if m = row then (upTo h).any (fun i => bad m (n / h * h + i)) else bad m n

/-- R171, R278: the last job to latch a scale vector at an index is this one; `at_` picks the index. -/
def latchedBy (trace : List TileWrite) (launch : Option Nat) (hidx : Nat) (seq : BitVec 16) (at_ : List Nat → Nat → Bool) : Bool :=
  trace.foldl (fun b w => match w with
    | .sum l i q rows cols latches => if latches && at_ rows cols then l == launch && i == hidx && q == seq else b
    | .load _ _ => false
    | .mix _ _ => b) false

/-- R171, R236: the elements and scales of a tile that hang on a job become undefined values. -/
def Tile.spoilt (t : Tile) (launch : Option Nat) (hidx : Nat) (seq : BitVec 16) (fresh : Nat) : Tile :=
  let bad := t.trace.foldl (TileWrite.spread launch hidx seq) (fun _ _ => false)
  let t1 := (upTo 128).foldl (fun u m => (upTo 128).foldl (fun v n =>
    if bad m n then v.set m n (Config.freeBits 32 (fresh + m * 128 + n)) else v) u) t
  let latch := fun (off : Nat) (at_ : Nat → List Nat → Nat → Bool) (v : Map Word) => (upTo 128).foldl (fun v i =>
    if latchedBy t.trace launch hidx seq (at_ i) then Map.put v i (Config.freeBits 32 (fresh + 16384 + off + i)) else v) v
  { t1 with
    sigmaA := latch 0 (fun m rows _ => rows.contains m) t.sigmaA
    sigmaB := latch 128 (fun n _ cols => decide (n < cols)) t.sigmaB }

/-- R171, R236: a job whose lent register was written before its report: what it has written so far is undefined from here on
(log entry 13), and what it has still to write. -/
def State.spoilJob (s : State) (h : Hart) (job : DWord) : State :=
  let r := h.role
  let mine := fun (j : Job) => j.seq == jobSeq job && j.launch == r.launch && j.hidx == r.hidx && j.part == r.part
  let s1 := s.modCluster (clusterOf s.cur) (fun c => { c with
    jobs := Map.mapVal c.jobs (fun _ j => if mine j then { j with undef := true } else j)
    tiles := Map.mapVal c.tiles (fun key t => if key / 16 = r.part ∧ t.trace.any (fun w => match w with
        | .sum l i q _ _ _ => l == r.launch && i == r.hidx && q == jobSeq job
        | _ => false)
      then t.spoilt r.launch r.hidx (jobSeq job) s.fresh else t) })
  { s1 with fresh := s1.fresh + 16384 + 256 }

/-- R171: every lane of a register takes undefined values. -/
def Hart.undefReg (h : Hart) (r fresh : Nat) : Hart :=
  allLanes.foldl (fun k l => k.setV r l (Config.freeBits 32 (fresh + l))) h

/-- R171, R236: lane registers were written in `lanes`: those lent to a job become undefined, with the job's result. -/
def State.lentWrites (s : State) (h : Hart) (regs : List Nat) : State :=
  let hit := h.run.lent.filter (fun e => regs.any (fun r => decide (e.1 ≤ r ∧ r < e.1 + e.2.1)))
  if hit.isEmpty then s
  else
    let spoiled := regs.filter (fun r => hit.any (fun e => decide (e.1 ≤ r ∧ r < e.1 + e.2.1)))
    let s1 := hit.foldl (fun t e => t.spoilJob h e.2.2) s
    spoiled.foldl (fun t r => { t.modCur (fun k => k.undefReg r t.fresh) with fresh := t.fresh + 32 }) s1

/-- R230: a lane instruction of `len` bytes commits: the acting hart becomes `h'`; `regs` are the lane registers written. -/
def State.laneDone (s : State) (h h' : Hart) (regs : List Nat) (any : Bool) (len : Nat) : State :=
  let s1 := s.setCur (h'.retire len)
  if any && !h.run.lent.isEmpty then s1.lentWrites h regs else s1

/-- R32: the registers of a destination of a type. -/
def destRegs (t : Ty) (r : Nat) : List Nat := if t = .f64 then [r, r + 1] else [r]

/-- R60: a lane operation: in each active lane, `f` gives the new value and flags from the state before (R230). -/
def laneOp (len : Nat) (t : Ty) (g : Guard) (vd : Nat) (f : Hart → Nat → Nat × FlagSet) (s : State) : Out :=
  onHart s fun h =>
    let lanes := h.activeLanes g
    let h' := lanes.foldl (fun k l => let r := f h l; (k.setLaneVal t vd l r.1).raiseFlags l r.2) h
    s.laneDone h h' (destRegs t vd) (!lanes.isEmpty) len

/-- R60: a lane operation that writes a predicate. -/
def predOp (len : Nat) (g : Guard) (pd : Nat) (f : Hart → Nat → Bool × FlagSet) (s : State) : Out :=
  onHart s fun h =>
    let lanes := h.activeLanes g
    let h' := lanes.foldl (fun k l =>
      let r := f h l
      (k.setP pd (setMask (k.getP pd) l r.1)).raiseFlags l r.2) h
    s.setCur (h'.retire len)

/-- R235, R37: an instruction masked by `pfmask`.f64 where its type is f64. -/
def guardF64 (i : Instr) (t : Ty) (s : State) (go : Out) : Out :=
  match s.hart? s.cur with
  | none => .refused .noHart
  | some h => if t = .f64 ∧ s.pfmask h 4 then .next (s.masked h i) else go

end Sys2Proof.Machine
end

