-- ==== Sys2Proof/Machine/Real.lean ====
section
/-! DEFINITION. Exact real values (R216, R219, R244, R245): a sign, a whole number of units and the unit's power of two,
with a mark that the value lies strictly between this number of units and the next. The functions that are not exact
(quotient, roots, 2^x, log2) keep enough bits that every rounding of R219 sees the exact value's outcome. -/

namespace Sys2Proof.Machine

open Sys2Proof

/-- A real value: `man × 2^exp`, or strictly between it and `(man + 1) × 2^exp` where `more`. -/
structure XReal where
  neg : Bool
  man : Nat
  exp : Int
  more : Bool
  deriving DecidableEq, Repr

/-- R208, R209: what a pattern stands for. -/
inductive FVal where
  | nan (neg sig : Bool)
  | inf (neg : Bool)
  | num (x : XReal)
  deriving DecidableEq, Repr

/-- A zero of a sign. -/
def XReal.zero (neg : Bool) : XReal := ⟨neg, 0, 0, false⟩

def XReal.isZero (x : XReal) : Bool := x.man == 0 && !x.more

/-- An integer as a real. -/
def XReal.ofInt (i : Int) : XReal := ⟨decide (i < 0), i.natAbs, 0, false⟩

def FVal.isNan : FVal → Bool
  | .nan _ _ => true
  | _ => false

/-- R209: a signalling NaN. -/
def FVal.isSig : FVal → Bool
  | .nan _ s => s
  | _ => false

def FVal.neg : FVal → FVal
  | .nan n s => .nan (!n) s
  | .inf n => .inf (!n)
  | .num x => .num { x with neg := !x.neg }

/-- R209: the NaN of an operation. -/
def qNaN : FVal := .nan false false

/-- Units of `2^e` in an exact value, for `e` no larger than its own unit's exponent. -/
def XReal.units (x : XReal) (e : Int) : Int :=
  let m : Int := (x.man * 2 ^ (x.exp - e).toNat : Nat)
  if x.neg then -m else m

/-- R244: the exact sum; an exact zero of unlike signs is +0, or −0 in mode RDN. -/
def XReal.add (rm : Rm) (a b : XReal) : XReal :=
  let e := min a.exp b.exp
  let s := a.units e + b.units e
  if s = 0 then .zero (if a.neg = b.neg then a.neg else decide (rm = .rdn))
  else ⟨decide (s < 0), s.natAbs, e, false⟩

/-- The exact product. -/
def XReal.mul (a b : XReal) : XReal := ⟨a.neg != b.neg, a.man * b.man, a.exp + b.exp, false⟩

/-- The quotient to more than 120 bits, for a nonzero divisor. -/
def XReal.div (a b : XReal) : XReal :=
  let k := 128 + Nat.log2 b.man
  let n := a.man * 2 ^ k
  ⟨a.neg != b.neg, n / b.man, a.exp - b.exp - k, n % b.man != 0⟩

/-- Exact comparison of two values, as the sign of a − b. -/
def XReal.cmp (a b : XReal) : Ordering :=
  let e := min a.exp b.exp
  compare (a.units e) (b.units e)

/-- The largest r with r² ≤ n, found bit by bit from bit `i`. -/
def rootFrom (n : Nat) : Nat → Nat → Nat
  | 0, r => if (r + 1) * (r + 1) ≤ n then r + 1 else r
  | i + 1, r =>
    let t := r + 2 ^ (i + 1)
    rootFrom n i (if t * t ≤ n then t else r)

/-- The integer square root. -/
def isqrt (n : Nat) : Nat := rootFrom n (Nat.log2 n / 2) 0

/-- The square root of a positive value. -/
def XReal.sqrt (x : XReal) : XReal :=
  let odd := decide (x.exp % 2 = 1)
  let m := (if odd then x.man * 2 else x.man) * 2 ^ 256
  let e := if odd then x.exp - 1 else x.exp
  let r := isqrt m
  ⟨false, r, e / 2 - 128, r * r != m⟩

/-- The reciprocal square root of a positive value. -/
def XReal.rsqrt (x : XReal) : XReal :=
  let odd := decide (x.exp % 2 = 1)
  let m := if odd then x.man * 2 else x.man
  let e := if odd then x.exp - 1 else x.exp
  let k := 2 * (160 + Nat.log2 m)
  let q := 2 ^ k / m
  let r := isqrt q
  ⟨false, r, -(e / 2) - k / 2, decide (2 ^ k % m ≠ 0) || r * r != q⟩

/-- Bits of the working precision of 2^x and log2, and the bits of it that may be wrong (log entry 18). -/
def workBits : Nat := 400
def guardBits : Nat := 64

/-- Σ z^(2j+1)/(2j+1), the series of atanh, in units of 2^−workBits. -/
def atanhSum (z2 : Nat) : Nat → Nat → Nat → Nat
  | 0, _, _ => 0
  | fuel + 1, j, p => if p = 0 then 0 else p / (2 * j + 1) + atanhSum z2 fuel (j + 1) (p * z2 / 2 ^ workBits)

/-- The natural logarithm of `m / 2^k` in [1, 2), in units of 2^−workBits. -/
def lnOf (m k : Nat) : Nat :=
  let z := (m - 2 ^ k) * 2 ^ workBits / (m + 2 ^ k)
  2 * atanhSum (z * z / 2 ^ workBits) 400 0 z

def ln2 : Nat := lnOf 2 0

/-- Σ y^j / j!, in units of 2^−workBits. -/
def expSum (y : Nat) : Nat → Nat → Nat → Nat
  | 0, _, _ => 0
  | fuel + 1, j, p => if p = 0 then 0 else p + expSum y fuel (j + 1) (p * y / 2 ^ workBits / (j + 1))

/-- R245: 2^x; exact for an integer. -/
def XReal.exp2 (x : XReal) : XReal :=
  if x.exp ≥ 0 ∨ x.isZero then
    let n := x.man * 2 ^ x.exp.toNat
    ⟨false, 1, if x.neg then -(min n 20000 : Nat) else (min n 20000 : Nat), false⟩
  else
    let d := 2 ^ (-x.exp).toNat
    let i : Int := if x.neg then -((x.man + d - 1) / d : Nat) else (x.man / d : Nat)
    let f : Nat := if x.neg then (d - x.man % d) % d else x.man % d
    if f = 0 then ⟨false, 1, max (min i 20000) (-20000), false⟩
    else if i > 20000 then ⟨false, 1, 20000, false⟩
    else if i < -20000 then ⟨false, 1, -20000, false⟩
    else
      let y := f * 2 ^ workBits / d * ln2 / 2 ^ workBits
      let v := min (expSum y 400 0 (2 ^ workBits)) (2 ^ (workBits + 1) - 1)
      ⟨false, v / 2 ^ guardBits, i - (workBits - guardBits : Nat), true⟩

/-- R245: log2 of a positive value; exact for a power of two. -/
def XReal.log2 (x : XReal) : XReal :=
  let k := Nat.log2 x.man
  let e : Int := x.exp + k
  if x.man = 2 ^ k then XReal.ofInt e
  else
    let l := lnOf x.man k * 2 ^ workBits / ln2
    let t : Int := e * 2 ^ workBits + l
    ⟨decide (t < 0), t.natAbs / 2 ^ guardBits, -((workBits - guardBits : Nat) : Int), true⟩

end Sys2Proof.Machine
end

