-- ==== Sys2Proof/Machine/Formats.lean ====
section
/-! DEFINITION. The number formats (R207 to R211), rounding (R219 to R223), conversions (R212, R224), scale codes (R215,
R216) and the stochastic state (R109, R221). -/

namespace Sys2Proof.Machine

open Sys2Proof

/-- R208: how a format tells its specials. -/
inductive Specials where
  | none | onlyNaN | ieee
  deriving DecidableEq, Repr

/-- R208: a floating-point layout. -/
structure FloatFmt where
  E : Nat
  M : Nat
  bias : Nat
  specials : Specials
  deriving DecidableEq, Repr

/-- R208: the floating-point formats, by format code. -/
def floatFmt (code : Nat) : FloatFmt :=
  match code with
  | 0 => ⟨8, 23, 127, .ieee⟩
  | 1 => ⟨5, 10, 15, .ieee⟩
  | 2 => ⟨8, 7, 127, .ieee⟩
  | 3 => ⟨4, 3, 7, .onlyNaN⟩
  | 4 => ⟨5, 2, 15, .ieee⟩
  | 5 => ⟨2, 3, 1, .none⟩
  | 6 => ⟨3, 2, 3, .none⟩
  | 7 => ⟨2, 1, 1, .none⟩
  | _ => ⟨11, 52, 1023, .ieee⟩

/-- R207: the width of a format code. -/
def fmtWidth (code : Nat) : Nat :=
  match code with
  | 0 => 32 | 1 => 16 | 2 => 16 | 3 => 8 | 4 => 8 | 5 => 6 | 6 => 6 | 7 => 4 | 8 => 4 | 9 => 8 | 10 => 4 | 11 => 64
  | _ => 0

/-- R214: the format codes that are always scaled. -/
def alwaysScaled (code : Nat) : Bool := [5, 6, 7, 8, 10].contains code

/-- R214: a format with its flag is scaled. -/
def scaledFmt (code : Nat) (bs : Bool) : Bool := alwaysScaled code || (bs && [3, 4, 9].contains code)

/-- R38: the format code of a float type. -/
def fmtOfTy : Ty → Nat
  | .f32 => 0 | .f16x2 => 1 | .bf16x2 => 2 | .f64 => 11
  | _ => 0

def FloatFmt.signBit (F : FloatFmt) : Nat := 2 ^ (F.E + F.M)

/-- R208: the largest finite value's pattern. -/
def FloatFmt.maxMag (F : FloatFmt) : Nat :=
  match F.specials with
  | .none => 2 ^ (F.E + F.M) - 1
  | .onlyNaN => 2 ^ (F.E + F.M) - 2
  | .ieee => (2 ^ F.E - 1) * 2 ^ F.M - 1

/-- R209: the canonical NaN. -/
def FloatFmt.canonical (F : FloatFmt) : Nat :=
  match F.specials with
  | .ieee => (2 ^ F.E - 1) * 2 ^ F.M + 2 ^ (F.M - 1)
  | _ => 2 ^ (F.E + F.M) - 1

/-- R208, R209, R223: the value of a pattern; `fsi` reads subnormals as zeros. -/
def FloatFmt.value (F : FloatFmt) (fsi : Bool) (v : Nat) : FVal :=
  let s := bitOf v (F.E + F.M)
  let e := bits v (F.E + F.M - 1) F.M
  let m := v % 2 ^ F.M
  if F.specials = .ieee ∧ e = 2 ^ F.E - 1 then
    (if m = 0 then .inf s else .nan s (decide (m < 2 ^ (F.M - 1))))
  else if F.specials = .onlyNaN ∧ e = 2 ^ F.E - 1 ∧ m = 2 ^ F.M - 1 then .nan s false
  else if e = 0 then (if fsi then .num (.zero s) else .num ⟨s, m, 1 - (F.bias : Int) - F.M, false⟩)
  else .num ⟨s, m + 2 ^ F.M, (e : Int) - F.bias - F.M, false⟩

/-- R211: the Q16N magnitudes, in units of 1/1,024. -/
def qLevels : List Nat := [43, 130, 221, 318, 427, 555, 725, 1024]

/-- R208, R210, R211: the value of an element's pattern in any format. -/
def elemValue (code : Nat) (fsi : Bool) (v : Nat) : FVal :=
  if code = 8 then .num ⟨bitOf v 3, qLevels.getD (v % 8) 0, -10, false⟩
  else if code = 9 ∨ code = 10 then .num (.ofInt (asSigned (fmtWidth code) (v % 2 ^ fmtWidth code)))
  else (floatFmt code).value fsi v

/-- R221: `sr_step`. -/
def srStep (s : Word) : Word :=
  let a := s ^^^ (s <<< 13)
  let b := a ^^^ (a >>> 17)
  b ^^^ (b <<< 5)

/-- R51, R222, R223: the modes of a result. -/
structure FModes where
  rm : Rm
  sat : Nat
  fsi : Bool
  fso : Bool
  deriving DecidableEq, Repr

/-- RNE and nothing else. -/
def FModes.rne : FModes := ⟨.rne, 0, false, false⟩

/-- R219: the integer k of a magnitude in units of 2^q, and whether it is inexact; `sr` is the state, already stepped. -/
def roundUnits (rm : Rm) (sr : Word) (x : XReal) (q : Int) : Nat × Bool :=
  let s := q - x.exp
  let den := 2 ^ s.toNat
  let n := if s ≤ 0 then x.man * 2 ^ (-s).toNat else x.man
  let k := n / den
  let rem := n % den
  let any := rem != 0 || x.more
  let above := decide (den < 2 * rem) || (decide (2 * rem = den) && x.more)
  let tie := decide (2 * rem = den) && !x.more
  let up : Bool := match rm with
    | .rne => above || (tie && k % 2 == 1)
    | .rna => above || tie
    | .rtz => false
    | .rup => any && !x.neg
    | .rdn => any && x.neg
    | .sr => decide (den * 2 ^ 24 ≤ rem * 2 ^ 24 + bits sr.toNat 31 8 * den)
  (if up then k + 1 else k, any)

/-- A result before its saturation: `mag` is the pattern below the sign; `ovf` marks the NaN of an overflow (R220). -/
inductive Deliv where
  | nan
  | ovfNaN (neg : Bool)
  | inf (neg : Bool)
  | num (neg : Bool) (mag : Nat)
  deriving DecidableEq, Repr

/-- R220: overflow. -/
def FloatFmt.overflow (F : FloatFmt) (rm : Rm) (neg : Bool) : Deliv :=
  let away : Bool := match rm with
    | .rne | .rna | .sr => true
    | .rtz => false
    | .rup => !neg
    | .rdn => neg
  match F.specials with
  | .none => .num neg F.maxMag
  | .onlyNaN => if away then .ovfNaN neg else .num neg F.maxMag
  | .ieee => if away then .inf neg else .num neg F.maxMag

/-- R219: `round` of a nonzero value, with the flags it raises. -/
def FloatFmt.round (F : FloatFmt) (rm : Rm) (sr : Word) (x : XReal) : Deliv × FlagSet :=
  if x.isZero then (.num x.neg 0, noFlags)
  else
    let lg : Int := x.exp + Nat.log2 x.man
    let e := max lg (1 - (F.bias : Int))
    let r := roundUnits rm sr x (e - F.M)
    let mag := ((e + F.bias - 1) * 2 ^ F.M + r.1).toNat
    if F.maxMag < mag then (F.overflow rm x.neg, { of := true, nx := true })
    else (.num x.neg mag, { nx := r.2, uf := r.2 && decide (lg < 1 - (F.bias : Int)) })

/-- R223: fso. -/
def FloatFmt.flush (F : FloatFmt) (fso : Bool) (r : Deliv × FlagSet) : Deliv × FlagSet :=
  match r.1 with
  | .num n m => if fso ∧ 0 < m ∧ m < 2 ^ F.M then (.num n 0, { r.2 with uf := true, nx := true }) else r
  | _ => r

/-- R222: the saturation of a float result; R225: what it changes of a number or an infinity is no longer exact (log entry 133). -/
def FloatFmt.saturate (F : FloatFmt) (sat : Nat) (r : Deliv × FlagSet) : Deliv × FlagSet :=
  let changed := { r.2 with sat := true }
  let inexact := { changed with nx := true }
  if sat = 1 then
    match r.1 with
    | .inf n => (.num n F.maxMag, inexact)
    | .ovfNaN n => (.num n F.maxMag, inexact)
    | _ => r
  else if sat = 2 then
    match r.1 with
    | .nan => (.num false 0, changed)
    | .ovfNaN _ => (.num false 0, inexact)
    | .inf n => (.num false (if n then 0 else F.maxMag), inexact)
    | .num n m => if n then (.num false 0, if m = 0 then r.2 else inexact) else r
  else r

/-- R208, R209, R220: the pattern of a result. -/
def FloatFmt.pattern (F : FloatFmt) : Deliv → Nat
  | .nan => F.canonical
  | .ovfNaN n => b2n n * F.signBit + F.canonical
  | .inf n => b2n n * F.signBit + (2 ^ F.E - 1) * 2 ^ F.M
  | .num n m => b2n n * F.signBit + m

/-- A result: its pattern, its flags and the stochastic state after it. -/
structure FOut where
  pat : Nat
  flags : FlagSet
  sr : Word
  deriving DecidableEq, Repr

/-- R219, R220, R222 to R224: a value into a float format. Under SR the state steps once for a real value. -/
def FloatFmt.encode (F : FloatFmt) (md : FModes) (sr : Word) (v : FVal) : FOut :=
  match v with
  | .nan n sig =>
    let d : Deliv × FlagSet :=
      if F.specials = .none then (.num n F.maxMag, flagNV) else (.nan, if sig then flagNV else noFlags)
    let r := F.saturate md.sat d
    ⟨F.pattern r.1, r.2, sr⟩
  | .inf n =>
    let d : Deliv × FlagSet :=
      if F.specials = .ieee then (.inf n, noFlags) else (.num n F.maxMag, { of := true, nx := true })
    let r := F.saturate md.sat d
    ⟨F.pattern r.1, r.2, sr⟩
  | .num x =>
    let sr1 := if md.rm = .sr then srStep sr else sr
    let r := F.saturate md.sat (F.flush md.fso (F.round md.rm sr1 x))
    ⟨F.pattern r.1, r.2, sr1⟩

/-- R224: a value into a two's-complement integer of w bits, as its pattern. -/
def toIntFmt (w : Nat) (rm : Rm) (sr : Word) (v : FVal) : FOut :=
  let hi : Int := 2 ^ (w - 1) - 1
  let lo : Int := -(2 ^ (w - 1))
  let pat := fun (i : Int) => (i % 2 ^ w).toNat
  match v with
  | .nan _ _ => ⟨pat hi, flagNV, sr⟩
  | .inf n => ⟨pat (if n then lo else hi), flagNV, sr⟩
  | .num x =>
    let sr1 := if rm = .sr then srStep sr else sr
    let r := roundUnits rm sr1 x 0
    let i : Int := if x.neg then -(r.1 : Int) else r.1
    if i < lo then ⟨pat lo, flagNV, sr1⟩
    else if hi < i then ⟨pat hi, flagNV, sr1⟩
    else ⟨pat i, if r.2 then flagNX else noFlags, sr1⟩

/-- |v − level| in units of 2^−10 × 2^e, for the distance comparisons of R212. -/
def qDist (x : XReal) (lvl : Nat) : Nat :=
  let e := min x.exp (-10)
  let a : Int := (x.man * 2 ^ (x.exp - e).toNat : Nat)
  let b : Int := (lvl * 2 ^ (-10 - e).toNat : Nat)
  2 * (a - b).natAbs + (if x.more ∧ a ≥ b then 1 else 0) - (if x.more ∧ a < b then 1 else 0)

/-- R212: the nearest magnitude index, a tie going to the smaller magnitude. -/
def qNearest (x : XReal) : Nat :=
  (upTo 8).foldl (fun best i => if qDist x (qLevels.getD i 0) < qDist x (qLevels.getD best 0) then i else best) 0

/-- R212, R224: quantisation to Q16N. -/
def toQ16N (sr : Word) (v : FVal) : FOut :=
  match v with
  | .nan n _ => ⟨b2n n * 8 + 7, flagNV, sr⟩
  | .inf n => ⟨b2n n * 8 + 7, { of := true, nx := true }, sr⟩
  | .num x =>
    let i := qNearest x
    let above := decide (2 * 1024 * 2 ^ (-10 - min x.exp (-10)).toNat
      < 2 * (x.man * 2 ^ (x.exp - min x.exp (-10)).toNat) + b2n x.more)
    if above then ⟨b2n x.neg * 8 + 7, { of := true, nx := true }, sr⟩
    else ⟨b2n x.neg * 8 + i, if qDist x (qLevels.getD i 0) = 0 then noFlags else flagNX, sr⟩

/-- R224: a value into any format. -/
def convertTo (code : Nat) (md : FModes) (sr : Word) (v : FVal) : FOut :=
  if code = 8 then toQ16N sr v
  else if code = 9 ∨ code = 10 then toIntFmt (fmtWidth code) md.rm sr v
  else (floatFmt code).encode md sr v

/-- R215: the value of a scale code; none for a block NaN. -/
def scaleValue (c : Nat) : Option XReal :=
  if c ≥ 0xF8 then none
  else if c / 8 = 0 then some ⟨false, c % 8, -17, false⟩
  else some ⟨false, c % 8 + 8, (c / 8 : Nat) - 18, false⟩

/-- R216: an element with its scale code and its superscale. -/
def scaledValue (code pat c sup : Nat) : FVal × FlagSet :=
  let v := elemValue code false pat
  let s := (floatFmt 0).value false sup
  match scaleValue c, v, s with
  | none, _, _ => (qNaN, noFlags)
  | some _, .nan _ _, _ => (qNaN, noFlags)
  | some _, _, .nan _ _ => (qNaN, noFlags)
  | some k, .inf n, .inf m => if k.isZero then (qNaN, flagNV) else (.inf (n != m), noFlags)
  | some k, .inf n, .num y => if k.isZero || y.isZero then (qNaN, flagNV) else (.inf (n != y.neg), noFlags)
  | some k, .num x, .inf m => if k.isZero || x.isZero then (qNaN, flagNV) else (.inf (x.neg != m), noFlags)
  | some k, .num x, .num y => (.num ((x.mul k).mul y), noFlags)

/-- R244, R225: a + b. -/
def FVal.add (rm : Rm) (a b : FVal) : FVal × FlagSet :=
  if a.isNan || b.isNan then (qNaN, if a.isSig || b.isSig then flagNV else noFlags)
  else match a, b with
    | .inf n, .inf m => if n = m then (.inf n, noFlags) else (qNaN, flagNV)
    | .inf n, _ => (.inf n, noFlags)
    | _, .inf m => (.inf m, noFlags)
    | .num x, .num y => (.num (x.add rm y), noFlags)
    | _, _ => (qNaN, noFlags)

/-- R244, R225: a × b. -/
def FVal.mul (a b : FVal) : FVal × FlagSet :=
  if a.isNan || b.isNan then (qNaN, if a.isSig || b.isSig then flagNV else noFlags)
  else match a, b with
    | .inf n, .inf m => (.inf (n != m), noFlags)
    | .inf n, .num y => if y.isZero then (qNaN, flagNV) else (.inf (n != y.neg), noFlags)
    | .num x, .inf m => if x.isZero then (qNaN, flagNV) else (.inf (x.neg != m), noFlags)
    | .num x, .num y => (.num (x.mul y), noFlags)
    | _, _ => (qNaN, noFlags)

/-- R244: a × b + c, not yet rounded; 0 × ∞ raises NV whatever c is. -/
def FVal.fma (rm : Rm) (a b c : FVal) : FVal × FlagSet :=
  let p := a.mul b
  let r := p.1.add rm c
  (r.1, p.2.or r.2)

/-- R244, R225: a / b. -/
def FVal.div (a b : FVal) : FVal × FlagSet :=
  if a.isNan || b.isNan then (qNaN, if a.isSig || b.isSig then flagNV else noFlags)
  else match a, b with
    | .inf _, .inf _ => (qNaN, flagNV)
    | .inf n, .num y => (.inf (n != y.neg), noFlags)
    | .num x, .inf m => (.num (.zero (x.neg != m)), noFlags)
    | .num x, .num y =>
      if y.isZero then (if x.isZero then (qNaN, flagNV) else (.inf (x.neg != y.neg), flagDZ))
      else (.num (x.div y), noFlags)
    | _, _ => (qNaN, noFlags)

/-- R245: 1 / x. -/
def FVal.rcp (a : FVal) : FVal × FlagSet := FVal.div (.num ⟨false, 1, 0, false⟩) a

/-- R245: a function of one operand: its NaN rows, then the rest. -/
def FVal.unary (a : FVal) (onInf : Bool → FVal × FlagSet) (onNum : XReal → FVal × FlagSet) : FVal × FlagSet :=
  match a with
  | .nan _ sig => (qNaN, if sig then flagNV else noFlags)
  | .inf n => onInf n
  | .num x => onNum x

/-- R245. -/
def FVal.sqrt (a : FVal) : FVal × FlagSet :=
  a.unary (fun n => if n then (qNaN, flagNV) else (.inf false, noFlags))
    (fun x => if x.isZero then (.num x, noFlags) else if x.neg then (qNaN, flagNV) else (.num x.sqrt, noFlags))

/-- R245. -/
def FVal.rsqrt (a : FVal) : FVal × FlagSet :=
  a.unary (fun n => if n then (qNaN, flagNV) else (.num (.zero false), noFlags))
    (fun x => if x.isZero then (.inf x.neg, flagDZ) else if x.neg then (qNaN, flagNV) else (.num x.rsqrt, noFlags))

/-- R245. -/
def FVal.exp2 (a : FVal) : FVal × FlagSet :=
  a.unary (fun n => if n then (.num (.zero false), noFlags) else (.inf false, noFlags)) (fun x => (.num x.exp2, noFlags))

/-- R245. -/
def FVal.log2 (a : FVal) : FVal × FlagSet :=
  a.unary (fun n => if n then (qNaN, flagNV) else (.inf false, noFlags))
    (fun x => if x.isZero then (.inf true, flagDZ) else if x.neg then (qNaN, flagNV) else (.num x.log2, noFlags))

/-- R246: the order of the values that are no NaN, −0 below +0. -/
def FVal.less (a b : FVal) : Bool :=
  match a, b with
  | .inf n, .inf m => n && !m
  | .inf n, _ => n
  | _, .inf m => !m
  | .num x, .num y => if x.isZero && y.isZero then x.neg && !y.neg else x.cmp y == .lt
  | _, _ => false

/-- R246: the smaller (`max` false) or larger of two patterns of a format, after fsi. -/
def FloatFmt.pick (F : FloatFmt) (fsi max : Bool) (pa pb : Nat) : Nat × FlagSet :=
  let a := F.value fsi pa
  let b := F.value fsi pb
  let flushed := fun (v : FVal) (p : Nat) => match v with
    | .num x => if x.isZero then b2n x.neg * F.signBit else p
    | _ => p
  let fl := if a.isSig || b.isSig then flagNV else noFlags
  if a.isNan && b.isNan then (F.canonical, fl)
  else if a.isNan then (flushed b pb, fl)
  else if b.isNan then (flushed a pa, fl)
  else (if (if max then a.less b else b.less a) then flushed b pb else flushed a pa, fl)

/-- R248: the outcome of a comparison and whether NV is set. -/
def FVal.compare (cond : Nat) (a b : FVal) : Bool × Bool :=
  if a.isNan || b.isNan then
    (cond == 1 || cond == 6, (decide (2 ≤ cond ∧ cond ≤ 5)) || a.isSig || b.isSig)
  else
    let zero := match a, b with
      | .num x, .num y => x.isZero && y.isZero
      | _, _ => false
    let lt := !zero && a.less b
    let gt := !zero && b.less a
    let eq := !lt && !gt
    let r := match cond with
      | 0 => eq | 1 => !eq | 2 => lt | 3 => lt || eq | 4 => gt | 5 => gt || eq | 6 => false | _ => true
    (r, false)

/-- R43, R249: the class of a pattern, as a bit number. -/
def FloatFmt.classOf (F : FloatFmt) (fsi : Bool) (p : Nat) : Nat :=
  match F.value fsi p with
  | .nan _ sig => if sig then 8 else 9
  | .inf n => if n then 0 else 7
  | .num x =>
    if x.isZero then (if x.neg then 3 else 4)
    else if x.man < 2 ^ F.M then (if x.neg then 2 else 5)
    else (if x.neg then 1 else 6)

end Sys2Proof.Machine
end

