-- ==== Sys2Proof/Machine/Float.lean ====
section
/-! DEFINITION. Group 001, lane float (R244 to R254), in its long, immediate and short forms. -/

namespace Sys2Proof.Machine

open Sys2Proof

/-- R36: the sticky stochastic state of a lane written. -/
def Hart.setSr (h : Hart) (l : Nat) (w : Word) : Hart :=
  { h with lanes := { h.lanes with sr := h.lanes.sr.set! l w } }

def Hart.srOf (h : Hart) (l : Nat) : Word := h.lanes.sr.getD l 0

/-- R54, R222, R223: the modes of an instruction that rounds by `rm`. -/
def Hart.modes (h : Hart) (rm : Rm) : FModes := ⟨rm, h.satCode, h.fsi, h.fso⟩

/-- R54, R235: the checks of an instruction that rounds (`rounds`) or reads the type f64 (`wide`): the mask of its type, an
invalid mode of `lrm`, the mask of SR. What follows runs under the mode. -/
def roundChecked (i : Instr) (wide rounds : Bool) (s : State) (go : Hart → Rm → Out) : Out :=
  match s.hart? s.cur with
  | none => .refused .noHart
  | some h =>
    if wide && s.pfmask h 4 then .next (s.masked h i)
    else if rounds then
      match h.rounding with
      | none => .next (s.illegal h i)
      | some rm => if decide (rm = .sr) && s.pfmask h 5 then .next (s.masked h i) else go h rm
    else go h .rne

/-- R230: the active lanes' results by `f`, which answers a lane's value, flags and stochastic state. -/
def roundLanes (len : Nat) (t : Ty) (g : Guard) (vd : Nat) (f : Nat → Nat × FlagSet × Word) (s : State) (h : Hart) : Out :=
  let lanes := h.activeLanes g
  let h' := lanes.foldl (fun k l =>
    let r := f l
    ((k.setLaneVal t vd l r.1).raiseFlags l r.2.1).setSr l r.2.2) h
  .next (s.laneDone h h' (destRegs t vd) (!lanes.isEmpty) len)

/-- R233: an f64 operation computes in two issue cycles of its slot and commits at the second, with no boundary between them. -/
def Hart.firstCycle (h : Hart) (t : Ty) : Bool := t == .f64 && h.run.second.isNone

/-- R233: the first of its cycles is done. -/
def State.atSecond (s : State) (i : Instr) : State := s.modCur (fun h => { h with run := { h.run with second := some i } })

/-- R244: what one element's operation gives, not yet rounded. -/
abbrev FloatFn := Rm → FVal → FVal → FVal → FVal × FlagSet

/-- R232: one lane, elements ascending. -/
def floatLane (f : FloatFn) (md : FModes) (t : Ty) (sr : Word) (a b c : Nat) : Nat × FlagSet × Word :=
  let F := floatFmt (fmtOfTy t)
  let r := (Ty.elems t).foldl (fun (acc : List Nat × FlagSet × Word) k =>
    let v := f md.rm (F.value md.fsi (elemOf t a k)) (F.value md.fsi (elemOf t b k)) (F.value md.fsi (elemOf t c k))
    let e := F.encode md acc.2.2 v.1
    (acc.1 ++ [e.pat], (acc.2.1.or v.2).or e.flags, e.sr)) ([], noFlags, sr)
  (joinElems t r.1, r.2)

/-- R244, R245: an arithmetic operation: each active lane's three operands by `a`, `b` and `c`. -/
def floatOp (len : Nat) (i : Instr) (fn : FloatFn) (t : Ty) (g : Guard) (vd : Nat) (a b c : Hart → Nat → Nat) (s : State) : Out :=
  roundChecked i (decide (t = .f64)) true s fun h rm =>
    if h.firstCycle t then .next (s.atSecond i)
    else roundLanes len t g vd (fun l => floatLane fn (h.modes rm) t (h.srOf l) (a h l) (b h l) (c h l)) s h

/-- A lane register operand. -/
def regOp (t : Ty) (r : Nat) (h : Hart) (l : Nat) : Nat := h.laneVal t r l

/-- An operand that the operation does not have. -/
def noOp (_ : Hart) (_ : Nat) : Nat := 0

/-- An immediate operand (R41). -/
def immOp (t : Ty) (imm : BitVec 16) (_ : Hart) (_ : Nat) : Nat := immVal t imm

/-- R244: a + b. -/
def lfaddFn : FloatFn := fun rm a b _ => a.add rm b

/-- R244. -/
def execLfadd (f : Lane3) (s : State) : Out :=
  floatOp 8 (.lfadd f) lfaddFn f.ty f.guard f.vd.toNat (regOp f.ty f.va.toNat) (regOp f.ty f.vb.toNat) noOp s

/-- R244, R41. -/
def execLfaddImm (f : Lane3I) (s : State) : Out :=
  floatOp 8 (.lfaddImm f) lfaddFn f.ty f.guard f.vd.toNat (regOp f.ty f.va.toNat) (immOp f.ty f.imm) noOp s

/-- R244, R48. -/
def execLfaddS32 (f : Lane3S) (s : State) : Out :=
  floatOp 4 (.lfaddS32 f) lfaddFn f.ty unguarded f.vd.toNat (regOp f.ty f.va.toNat) (regOp f.ty f.vb.toNat) noOp s

/-- R244: a − b. -/
def lfsubFn : FloatFn := fun rm a b _ => a.add rm b.neg

/-- R244. -/
def execLfsub (f : Lane3) (s : State) : Out :=
  floatOp 8 (.lfsub f) lfsubFn f.ty f.guard f.vd.toNat (regOp f.ty f.va.toNat) (regOp f.ty f.vb.toNat) noOp s

/-- R244, R41. -/
def execLfsubImm (f : Lane3I) (s : State) : Out :=
  floatOp 8 (.lfsubImm f) lfsubFn f.ty f.guard f.vd.toNat (regOp f.ty f.va.toNat) (immOp f.ty f.imm) noOp s

/-- R244, R48. -/
def execLfsubS32 (f : Lane3S) (s : State) : Out :=
  floatOp 4 (.lfsubS32 f) lfsubFn f.ty unguarded f.vd.toNat (regOp f.ty f.va.toNat) (regOp f.ty f.vb.toNat) noOp s

/-- R244: a × b. -/
def lfmulFn : FloatFn := fun _ a b _ => a.mul b

/-- R244. -/
def execLfmul (f : Lane3) (s : State) : Out :=
  floatOp 8 (.lfmul f) lfmulFn f.ty f.guard f.vd.toNat (regOp f.ty f.va.toNat) (regOp f.ty f.vb.toNat) noOp s

/-- R244, R41. -/
def execLfmulImm (f : Lane3I) (s : State) : Out :=
  floatOp 8 (.lfmulImm f) lfmulFn f.ty f.guard f.vd.toNat (regOp f.ty f.va.toNat) (immOp f.ty f.imm) noOp s

/-- R244, R48. -/
def execLfmulS32 (f : Lane3S) (s : State) : Out :=
  floatOp 4 (.lfmulS32 f) lfmulFn f.ty unguarded f.vd.toNat (regOp f.ty f.va.toNat) (regOp f.ty f.vb.toNat) noOp s

/-- R244: a / b. -/
def lfdivFn : FloatFn := fun _ a b _ => a.div b

/-- R244. -/
def execLfdiv (f : Lane3) (s : State) : Out :=
  floatOp 8 (.lfdiv f) lfdivFn f.ty f.guard f.vd.toNat (regOp f.ty f.va.toNat) (regOp f.ty f.vb.toNat) noOp s

/-- R244, R41. -/
def execLfdivImm (f : Lane3I) (s : State) : Out :=
  floatOp 8 (.lfdivImm f) lfdivFn f.ty f.guard f.vd.toNat (regOp f.ty f.va.toNat) (immOp f.ty f.imm) noOp s

/-- R244, R48. -/
def execLfdivS32 (f : Lane3S) (s : State) : Out :=
  floatOp 4 (.lfdivS32 f) lfdivFn f.ty unguarded f.vd.toNat (regOp f.ty f.va.toNat) (regOp f.ty f.vb.toNat) noOp s

/-- R244: a × b + c, rounded once. -/
def lfmaFn : FloatFn := fun rm a b c => FVal.fma rm a b c

/-- R244. -/
def execLfma (f : Lane4) (s : State) : Out :=
  floatOp 8 (.lfma f) lfmaFn f.ty f.guard f.vd.toNat (regOp f.ty f.va.toNat) (regOp f.ty f.vb.toNat) (regOp f.ty f.vc.toNat) s

/-- R244, R41. -/
def execLfmaImm (f : Lane4I) (s : State) : Out :=
  floatOp 8 (.lfmaImm f) lfmaFn f.ty f.guard f.vd.toNat (regOp f.ty f.va.toNat) (immOp f.ty f.imm) (regOp f.ty f.vc.toNat) s

/-- R245. -/
def lfrcpFn : FloatFn := fun _ a _ _ => a.rcp

/-- R245. -/
def execLfrcp (f : Lane2) (s : State) : Out :=
  floatOp 8 (.lfrcp f) lfrcpFn f.ty f.guard f.vd.toNat (regOp f.ty f.va.toNat) noOp noOp s

/-- R245, R48. -/
def execLfrcpS32 (f : Lane2S) (s : State) : Out :=
  floatOp 4 (.lfrcpS32 f) lfrcpFn f.ty unguarded f.vd.toNat (regOp f.ty f.va.toNat) noOp noOp s

/-- R245. -/
def lfrsqFn : FloatFn := fun _ a _ _ => a.rsqrt

/-- R245. -/
def execLfrsq (f : Lane2) (s : State) : Out :=
  floatOp 8 (.lfrsq f) lfrsqFn f.ty f.guard f.vd.toNat (regOp f.ty f.va.toNat) noOp noOp s

/-- R245, R48. -/
def execLfrsqS32 (f : Lane2S) (s : State) : Out :=
  floatOp 4 (.lfrsqS32 f) lfrsqFn f.ty unguarded f.vd.toNat (regOp f.ty f.va.toNat) noOp noOp s

/-- R245. -/
def lfsqrtFn : FloatFn := fun _ a _ _ => a.sqrt

/-- R245. -/
def execLfsqrt (f : Lane2) (s : State) : Out :=
  floatOp 8 (.lfsqrt f) lfsqrtFn f.ty f.guard f.vd.toNat (regOp f.ty f.va.toNat) noOp noOp s

/-- R245, R48. -/
def execLfsqrtS32 (f : Lane2S) (s : State) : Out :=
  floatOp 4 (.lfsqrtS32 f) lfsqrtFn f.ty unguarded f.vd.toNat (regOp f.ty f.va.toNat) noOp noOp s

/-- R245. -/
def lfexp2Fn : FloatFn := fun _ a _ _ => a.exp2

/-- R245. -/
def execLfexp2 (f : Lane2) (s : State) : Out :=
  floatOp 8 (.lfexp2 f) lfexp2Fn f.ty f.guard f.vd.toNat (regOp f.ty f.va.toNat) noOp noOp s

/-- R245, R48. -/
def execLfexp2S32 (f : Lane2S) (s : State) : Out :=
  floatOp 4 (.lfexp2S32 f) lfexp2Fn f.ty unguarded f.vd.toNat (regOp f.ty f.va.toNat) noOp noOp s

/-- R245. -/
def lflog2Fn : FloatFn := fun _ a _ _ => a.log2

/-- R245. -/
def execLflog2 (f : Lane2) (s : State) : Out :=
  floatOp 8 (.lflog2 f) lflog2Fn f.ty f.guard f.vd.toNat (regOp f.ty f.va.toNat) noOp noOp s

/-- R245, R48. -/
def execLflog2S32 (f : Lane2S) (s : State) : Out :=
  floatOp 4 (.lflog2S32 f) lflog2Fn f.ty unguarded f.vd.toNat (regOp f.ty f.va.toNat) noOp noOp s

/-- R246: one lane of `lfmin` or `lfmax`. -/
def pickLane (max fsi : Bool) (t : Ty) (a b : Nat) : Nat × FlagSet :=
  let es := (Ty.elems t).map (fun k => (floatFmt (fmtOfTy t)).pick fsi max (elemOf t a k) (elemOf t b k))
  (joinElems t (es.map (·.1)), (es.map (·.2)).foldl FlagSet.or noFlags)

/-- R246: an operation of `lfmin` or `lfmax`. -/
def pickOp (len : Nat) (i : Instr) (max : Bool) (t : Ty) (g : Guard) (vd : Nat) (a b : Hart → Nat → Nat) (s : State) : Out :=
  guardF64 i t s (laneOp len t g vd (fun h l => pickLane max h.fsi t (a h l) (b h l)) s)

/-- R246. -/
def execLfmin (f : Lane3) (s : State) : Out :=
  pickOp 8 (.lfmin f) false f.ty f.guard f.vd.toNat (regOp f.ty f.va.toNat) (regOp f.ty f.vb.toNat) s

/-- R246, R41. -/
def execLfminImm (f : Lane3I) (s : State) : Out :=
  pickOp 8 (.lfminImm f) false f.ty f.guard f.vd.toNat (regOp f.ty f.va.toNat) (immOp f.ty f.imm) s

/-- R246, R48. -/
def execLfminS32 (f : Lane3S) (s : State) : Out :=
  pickOp 4 (.lfminS32 f) false f.ty unguarded f.vd.toNat (regOp f.ty f.va.toNat) (regOp f.ty f.vb.toNat) s

/-- R246. -/
def execLfmax (f : Lane3) (s : State) : Out :=
  pickOp 8 (.lfmax f) true f.ty f.guard f.vd.toNat (regOp f.ty f.va.toNat) (regOp f.ty f.vb.toNat) s

/-- R246, R41. -/
def execLfmaxImm (f : Lane3I) (s : State) : Out :=
  pickOp 8 (.lfmaxImm f) true f.ty f.guard f.vd.toNat (regOp f.ty f.va.toNat) (immOp f.ty f.imm) s

/-- R246, R48. -/
def execLfmaxS32 (f : Lane3S) (s : State) : Out :=
  pickOp 4 (.lfmaxS32 f) true f.ty unguarded f.vd.toNat (regOp f.ty f.va.toNat) (regOp f.ty f.vb.toNat) s

/-- R247: one element of `lfsgn`: a's bits below its sign, under the new sign. -/
def signElem (t : Ty) (kind : Nat) (a b : Nat) : Nat :=
  let w := 2 ^ (Ty.width t - 1)
  let sa := decide (w ≤ a)
  let sb := decide (w ≤ b)
  a % w + w * b2n (if kind = 0 then sb else if kind = 1 then !sb else sa != sb)

/-- R247. -/
def execLfsgn (f : Lane3) (kind : BitVec 2) (s : State) : Out :=
  guardF64 (.lfsgn f kind) f.ty s (laneOp 8 f.ty f.guard f.vd.toNat (fun h l =>
    (joinElems f.ty ((Ty.elems f.ty).map (fun k => signElem f.ty kind.toNat
      (elemOf f.ty (h.laneVal f.ty f.va.toNat l) k) (elemOf f.ty (h.laneVal f.ty f.vb.toNat l) k))), noFlags)) s)

/-- R248: a comparison of a lane's values of a type of G. -/
def floatCmp (i : Instr) (t : Ty) (g : Guard) (pd cond : Nat) (a b : Hart → Nat → Nat) (s : State) : Out :=
  guardF64 i t s (predOp 8 g pd (fun h l =>
    let F := floatFmt (fmtOfTy t)
    let r := FVal.compare cond (F.value h.fsi (a h l)) (F.value h.fsi (b h l))
    (r.1, if r.2 then flagNV else noFlags)) s)

/-- R248. -/
def execLfcmp (f : Lane3) (cond : BitVec 3) (s : State) : Out :=
  floatCmp (.lfcmp f cond) f.ty f.guard f.vd.toNat cond.toNat (regOp f.ty f.va.toNat) (regOp f.ty f.vb.toNat) s

/-- R248, R41. -/
def execLfcmpImm (f : Lane3I) (cond : BitVec 3) (s : State) : Out :=
  floatCmp (.lfcmpImm f cond) f.ty f.guard f.vd.toNat cond.toNat (regOp f.ty f.va.toNat) (immOp f.ty f.imm) s

/-- R249. -/
def execLfclass (f : Lane2) (mask : BitVec 10) (s : State) : Out :=
  guardF64 (.lfclass f mask) f.ty s (predOp 8 f.guard f.vd.toNat (fun h l =>
    (mask.getLsbD ((floatFmt (fmtOfTy f.ty)).classOf h.fsi (h.laneVal f.ty f.va.toNat l)), noFlags)) s)

/-- R54: a conversion rounds by its formats alone. -/
def cvtRounds (dst src : Nat) : Bool :=
  if dst = 8 then false
  else if dst = 9 ∨ dst = 10 then !(src == 9 || src == 10)
  else true

/-- R252: the lane scale is usable. -/
def usableScale : FVal → Option XReal
  | .num x => if x.neg then none else some x
  | _ => none

/-- R252: a scaled source element under a lane scale. -/
def scaleSource (v : FVal) (sc : Option XReal) : FVal × FlagSet :=
  match sc with
  | none => (qNaN, noFlags)
  | some k =>
    match v with
    | .nan n sig => (.nan n sig, noFlags)
    | .inf n => if k.isZero then (qNaN, flagNV) else (.inf n, noFlags)
    | .num x => if k.isZero then (.num (.zero x.neg), noFlags) else (.num { x.mul k with neg := x.neg }, noFlags)

/-- R252, R224: a value into a scaled destination under a lane scale. -/
def scaleDest (dst : Nat) (md : FModes) (sr : Word) (v : FVal) (sc : Option XReal) : FOut :=
  match sc with
  | none => ⟨0, flagNV, sr⟩
  | some k =>
    if k.isZero then
      ⟨0, (match v with
        | .num x => if x.isZero then noFlags else flagNX
        | .nan _ sig => if sig then flagNV.or flagNX else flagNX
        | .inf _ => flagNX), sr⟩
    else
      match v with
      | .num x => convertTo dst md sr (.num { x.div k with neg := x.neg })
      | _ => convertTo dst md sr v

/-- R250, R251: a packed element put into a register; a register of format 5 or 6 has its top bits zero. -/
def putPacked (code old k e : Nat) : Nat :=
  let w := fmtWidth code
  let base := if code = 5 ∨ code = 6 then old % 2 ^ 30 else old
  base - base / 2 ^ (w * k) % 2 ^ w * 2 ^ (w * k) + e % 2 ^ w * 2 ^ (w * k)

/-- R251: one lane of `lcvt`: the new value of vd. -/
def cvtLane (md : FModes) (dst src : Nat) (bs : Bool) (sel : Nat) (sr : Word) (pat scale old : Nat) : Nat × FlagSet × Word :=
  let e := if src = 11 ∨ src = 0 then pat else pat / 2 ^ (fmtWidth src * sel) % 2 ^ fmtWidth src
  let sc := usableScale ((floatFmt 0).value false scale)
  let x := elemValue src md.fsi e
  let v := if scaledFmt src bs then scaleSource x sc else (x, noFlags)
  let y := if scaledFmt dst bs then scaleDest dst md sr v.1 sc else convertTo dst md sr v.1
  (if dst = 11 ∨ dst = 0 then y.pat else putPacked dst old sel y.pat, v.2.or y.flags, y.sr)

/-- R251, R252. -/
def execLcvt (f : Lane2) (dst src : BitVec 4) (bs : Bool) (sel : BitVec 2) (s : State) : Out :=
  let tsrc : Ty := if src = 11 then .f64 else .i32
  let tdst : Ty := if dst = 11 then .f64 else .i32
  roundChecked (.lcvt f dst src bs sel) (src == 11 || dst == 11) (cvtRounds dst.toNat src.toNat) s fun h rm =>
    roundLanes 8 tdst f.guard f.vd.toNat (fun l =>
      cvtLane (h.modes rm) dst.toNat src.toNat bs sel.toNat (h.srOf l) (h.laneVal tsrc f.va.toNat l)
        (h.getV (f.va.toNat + 1) l).toNat (h.getV f.vd.toNat l).toNat) s h

/-- R253: one lane of `lpack`. -/
def packLane (md : FModes) (dst : Nat) (sr : Word) (a b : Nat) : Nat × FlagSet × Word :=
  let x := if dst = 9 ∨ dst = 10 then FVal.num (.ofInt (asSigned 32 a)) else (floatFmt 0).value md.fsi a
  let y := convertTo dst md sr x
  let w := fmtWidth dst
  (if dst = 5 ∨ dst = 6 then b % 2 ^ 30 / 2 ^ 6 + y.pat % 2 ^ 6 * 2 ^ 24 else b / 2 ^ w + y.pat % 2 ^ w * 2 ^ (32 - w),
    y.flags, y.sr)

/-- R253. -/
def execLpack (f : Lane3) (dst : BitVec 4) (s : State) : Out :=
  roundChecked (.lpack f dst) false (cvtRounds dst.toNat (if dst = 9 ∨ dst = 10 then 9 else 0)) s fun h rm =>
    roundLanes 8 .i32 f.guard f.vd.toNat (fun l =>
      packLane (h.modes rm) dst.toNat (h.srOf l) (h.getV f.va.toNat l).toNat (h.getV f.vb.toNat l).toNat) s h

/-- R254: one lane of `lunpk`. -/
def unpackLane (fsi : Bool) (src k a : Nat) : Nat × FlagSet :=
  let e := a / 2 ^ (fmtWidth src * k) % 2 ^ fmtWidth src
  if src = 9 ∨ src = 10 then ((asSigned (fmtWidth src) e % 2 ^ 32).toNat, noFlags)
  else
    let r := (floatFmt 0).encode .rne 0 (elemValue src fsi e)
    (r.pat, r.flags)

/-- R254. -/
def execLunpk (f : Lane2) (src : BitVec 4) (k : BitVec 3) (s : State) : Out :=
  laneOp 8 .i32 f.guard f.vd.toNat (fun h l => unpackLane h.fsi src.toNat k.toNat (h.getV f.va.toNat l).toNat) s

end Sys2Proof.Machine
end

