-- ==== Sys2Proof/Machine/Crypto.lean ====
section
/-! DEFINITION. The algorithms that the isolation rules name: AES-256 with its modes XTS and CMAC (R338, R340) and GCM (R345), and
SHA-512 with HMAC and HKDF-Expand (R346, R360, R361). Each is the published standard of that name (log entry 134). -/

namespace Sys2Proof.Machine

open Sys2Proof

/-- Multiplication by x in the field of AES, modulo x^8 + x^4 + x^3 + x + 1. -/
def aesDouble (a : Nat) : Nat := if a < 128 then 2 * a else (2 * a) ^^^ 0x11B

/-- The product of two bytes in the field of AES. -/
def aesMul (a b : Nat) : Nat :=
  ((upTo 8).foldl (fun (acc : Nat × Nat) i => (if b.testBit i then acc.1 ^^^ acc.2 else acc.1, aesDouble acc.2)) (0, a)).1

/-- The inverse of a byte, its power 254; 0 for 0. -/
def aesInverse (a : Nat) : Nat := (upTo 7).foldl (fun r i => aesMul r ((upTo (i + 1)).foldl (fun q _ => aesMul q q) a)) 1

/-- A byte rotated left. -/
def rotByte (a n : Nat) : Nat := (a * 2 ^ n) % 256 + a / 2 ^ (8 - n)

/-- The substitution of one byte, by its definition. -/
def aesSub (a : Nat) : Nat :=
  let b := aesInverse a
  b ^^^ rotByte b 1 ^^^ rotByte b 2 ^^^ rotByte b 3 ^^^ rotByte b 4 ^^^ 0x63

/-- The substitution and its inverse as tables. -/
def aesBox : Array Nat := ((upTo 256).map aesSub).toArray
def aesUnbox : Array Nat := ((upTo 256).foldl (fun (t : Array Nat) i => t.set! (aesBox.getD i 0) i) (Array.replicate 256 0))

/-- Two byte strings added bit by bit. -/
def xorBytes (a b : List Nat) : List Nat := a.zipWith (· ^^^ ·) b

/-- The 60 words of four bytes that a key of 32 bytes expands to. -/
def aesExpand (key : List Nat) : Array (List Nat) :=
  let first : Array (List Nat) := ((upTo 8).map (fun i => (key.drop (4 * i)).take 4)).toArray
  ((upTo 52).foldl (fun (acc : Array (List Nat) × Nat) j =>
    let i := j + 8
    let prev := acc.1.getD (i - 1) []
    let sub := fun (w : List Nat) => w.map (fun b => aesBox.getD b 0)
    let turned := sub (prev.drop 1 ++ prev.take 1)
    let t := if i % 8 = 0 then xorBytes turned [acc.2, 0, 0, 0] else if i % 8 = 4 then sub prev else prev
    (acc.1.push (xorBytes (acc.1.getD (i - 8) []) t), if i % 8 = 0 then aesDouble acc.2 else acc.2)) (first, 1)).1

/-- The sixteen bytes of round key r. -/
def aesRoundKey (w : Array (List Nat)) (r : Nat) : List Nat := ((upTo 4).map (fun i => w.getD (4 * r + i) [])).flatten

/-- A column multiplied by the circulant matrix of a row of four coefficients. -/
def aesMixColumn (row : List Nat) (c : List Nat) : List Nat :=
  (upTo 4).map (fun i => (upTo 4).foldl (fun a j => a ^^^ aesMul (c.getD j 0) (row.getD ((j + 4 - i) % 4) 0)) 0)

/-- All four columns of a block. -/
def aesMix (row : List Nat) (b : List Nat) : List Nat := ((upTo 4).map (fun c => aesMixColumn row ((b.drop (4 * c)).take 4))).flatten

/-- The rows of a block rotated, row r by r columns or back by as many. -/
def aesShift (back : Bool) (b : List Nat) : List Nat :=
  (upTo 16).map (fun k => b.getD (4 * ((k / 4 + (if back then 4 - k % 4 else k % 4)) % 4) + k % 4) 0)

/-- AES-256 of one block of sixteen bytes under an expanded key. -/
def aesBlock (w : Array (List Nat)) (b : List Nat) : List Nat :=
  let sub := fun (x : List Nat) => aesShift false (x.map (fun v => aesBox.getD v 0))
  let mid := (upTo 13).foldl (fun x r => xorBytes (aesMix [2, 3, 1, 1] (sub x)) (aesRoundKey w (r + 1))) (xorBytes b (aesRoundKey w 0))
  xorBytes (sub mid) (aesRoundKey w 14)

/-- The inverse of AES-256. -/
def aesUnblock (w : Array (List Nat)) (b : List Nat) : List Nat :=
  let unsub := fun (x : List Nat) => (aesShift true x).map (fun v => aesUnbox.getD v 0)
  let mid := (upTo 13).foldl (fun x r => aesMix [14, 11, 13, 9] (xorBytes (unsub x) (aesRoundKey w (13 - r)))) (xorBytes b (aesRoundKey w 14))
  xorBytes (unsub mid) (aesRoundKey w 0)

/-- Bytes as numbers, a number as bytes, and a byte string as a number with its first byte the highest. -/
def rawBytes (b : List Byte) : List Nat := b.map BitVec.toNat
def byteStr (b : List Nat) : List Byte := b.map (BitVec.ofNat 8)
def numBytes (v n : Nat) : List Nat := rawBytes (bytesOfNat v n)
def bigNum (b : List Nat) : Nat := b.foldl (fun a x => 256 * a + x) 0
def bigBytes (v n : Nat) : List Nat := (numBytes v n).reverse

/-- A key of 256 bits, expanded; its first byte is the lowest. -/
def aesKey (k : BitVec 256) : Array (List Nat) := aesExpand (numBytes k.toNat 32)

/-- AES-256-XTS of a data unit of whole blocks under two keys and a tweak; `block` is the cipher or its inverse. -/
def xtsUnit (block : List Nat → List Nat) (k2 : Array (List Nat)) (tweak n : Nat) (data : List Nat) : List Nat :=
  let next := fun (t : Nat) => if t < 2 ^ 127 then 2 * t else ((2 * t) % 2 ^ 128) ^^^ 0x87
  ((upTo n).foldl (fun (acc : List Nat × Nat) i =>
    let m := numBytes acc.2 16
    (acc.1 ++ xorBytes (block (xorBytes ((data.drop (16 * i)).take 16) m)) m, next acc.2))
    ([], natOfBytes (byteStr (aesBlock k2 (numBytes tweak 16))))).1

/-- AES-256-CMAC: the tag of a byte string. -/
def cmac (w : Array (List Nat)) (m : List Nat) : List Nat :=
  let double := fun (b : List Nat) =>
    let v := bigNum b
    bigBytes (if v < 2 ^ 127 then 2 * v else ((2 * v) % 2 ^ 128) ^^^ 0x87) 16
  let k1 := double (aesBlock w (List.replicate 16 0))
  let n := max 1 ((m.length + 15) / 16)
  let last := m.drop (16 * (n - 1))
  let final := if last.length = 16 then xorBytes last k1
    else xorBytes (last ++ [0x80] ++ List.replicate (15 - last.length) 0) (double k1)
  aesBlock w (xorBytes ((upTo (n - 1)).foldl (fun x i => aesBlock w (xorBytes x ((m.drop (16 * i)).take 16))) (List.replicate 16 0)) final)

/-- The product of two blocks in the field of GCM, the first bit of a block the coefficient of 1. -/
def ghashMul (x y : Nat) : Nat :=
  ((upTo 128).foldl (fun (acc : Nat × Nat) i =>
    (if x.testBit (127 - i) then acc.1 ^^^ acc.2 else acc.1,
      if acc.2 % 2 = 0 then acc.2 / 2 else (acc.2 / 2) ^^^ (0xE1 * 2 ^ 120))) (0, y)).1

/-- GHASH of whole blocks. -/
def ghash (h : Nat) (m : List Nat) : Nat :=
  (upTo (m.length / 16)).foldl (fun y i => ghashMul (y ^^^ bigNum ((m.drop (16 * i)).take 16)) h) 0

/-- A byte string filled with zeros to whole blocks. -/
def padBlocks (m : List Nat) : List Nat := m ++ List.replicate ((16 - m.length % 16) % 16) 0

/-- AES-256-GCM with no associated data: the ciphertext and the tag. -/
def gcmSeal (w : Array (List Nat)) (nonce m : List Nat) : List Nat × List Nat :=
  let h := bigNum (aesBlock w (List.replicate 16 0))
  let j0 := if nonce.length = 12 then bigNum (nonce ++ [0, 0, 0, 1]) else ghash h (padBlocks nonce ++ bigBytes (8 * nonce.length) 16)
  let ctr := fun (i : Nat) => aesBlock w (bigBytes (j0 / 2 ^ 32 * 2 ^ 32 + (j0 + i) % 2 ^ 32) 16)
  let c := ((upTo ((m.length + 15) / 16)).map (fun i => xorBytes ((m.drop (16 * i)).take 16) (ctr (i + 1)))).flatten
  (c, xorBytes (bigBytes (ghash h (padBlocks c ++ bigBytes (8 * c.length) 16)) 16) (ctr 0))

/-- The whole part of the k-th root of a number, by its bits from the n-th down. -/
def wholeRoot (k v n : Nat) : Nat :=
  (upTo n).foldl (fun r i => if (r + 2 ^ (n - 1 - i)) ^ k ≤ v then r + 2 ^ (n - 1 - i) else r) 0

/-- The first n primes. -/
def firstPrimes (n : Nat) : List Nat :=
  ((upTo 420).filter (fun p => 2 ≤ p && (upTo p).all (fun d => d < 2 || p % d != 0))).take n

/-- The constants of SHA-512: 64 bits of the fractions of the square and cube roots of primes. -/
def shaStart : List Nat := (firstPrimes 8).map (fun p => wholeRoot 2 (p * 2 ^ 128) 70 % 2 ^ 64)
def shaRound : Array Nat := ((firstPrimes 80).map (fun p => wholeRoot 3 (p * 2 ^ 192) 70 % 2 ^ 64)).toArray

/-- A word of 64 bits rotated right. -/
def rotWord (x n : Nat) : Nat := x / 2 ^ n + x % 2 ^ n * 2 ^ (64 - n)

/-- The message schedule of a block of 128 bytes. -/
def shaSchedule (b : List Nat) : Array Nat :=
  (upTo 64).foldl (fun (w : Array Nat) j =>
    let at_ := fun (d : Nat) => w.getD (16 + j - d) 0
    let s0 := rotWord (at_ 15) 1 ^^^ rotWord (at_ 15) 8 ^^^ at_ 15 / 2 ^ 7
    let s1 := rotWord (at_ 2) 19 ^^^ rotWord (at_ 2) 61 ^^^ at_ 2 / 2 ^ 6
    w.push ((at_ 16 + s0 + at_ 7 + s1) % 2 ^ 64)) ((upTo 16).map (fun i => bigNum ((b.drop (8 * i)).take 8))).toArray

/-- One round of SHA-512 on its eight working words. -/
def shaStep (v : List Nat) (kw : Nat) : List Nat :=
  match v with
  | [a, b, c, d, e, f, g, h] =>
    let t1 := h + (rotWord e 14 ^^^ rotWord e 18 ^^^ rotWord e 41) + ((e &&& f) ^^^ ((2 ^ 64 - 1 - e) &&& g)) + kw
    let t2 := (rotWord a 28 ^^^ rotWord a 34 ^^^ rotWord a 39) + ((a &&& b) ^^^ (a &&& c) ^^^ (b &&& c))
    [(t1 + t2) % 2 ^ 64, a, b, c, (d + t1) % 2 ^ 64, e, f, g]
  | _ => v

/-- SHA-512 of a byte string: 64 bytes. -/
def sha512 (m : List Nat) : List Nat :=
  let padded := m ++ [0x80] ++ List.replicate ((239 - m.length % 128) % 128) 0 ++ bigBytes (8 * m.length) 16
  let out := (upTo (padded.length / 128)).foldl (fun (h : List Nat) i =>
    let w := shaSchedule ((padded.drop (128 * i)).take 128)
    (h.zipWith (fun x y => (x + y) % 2 ^ 64) ((upTo 80).foldl (fun v t => shaStep v (shaRound.getD t 0 + w.getD t 0)) h))) shaStart
  (out.map (fun x => bigBytes x 8)).flatten

/-- SHA-512 as 512 bits, its first byte the lowest (R6). -/
def sha512Of (m : List Byte) : BitVec 512 := BitVec.ofNat 512 (natOfBytes (byteStr (sha512 (rawBytes m))))

/-- HMAC with SHA-512 under a key of at most 128 bytes. -/
def hmac (key m : List Nat) : List Nat :=
  let k := key ++ List.replicate (128 - key.length) 0
  sha512 (k.map (· ^^^ 0x5C) ++ sha512 (k.map (· ^^^ 0x36) ++ m))

/-- HKDF-Expand with SHA-512 to 32 bytes. -/
def hkdfExpand (secret info : List Nat) : List Nat := (hmac secret (info ++ [1])).take 32

/-- R338: the ciphertext of a line of 128 bytes under two memory keys; the tweak is its partition and GPA line. -/
def sealLine (k1 k2 : BitVec 256) (part gpaLine : Nat) (plain : BitVec 1024) : BitVec 1024 :=
  BitVec.ofNat 1024 (natOfBytes (byteStr
    (xtsUnit (aesBlock (aesKey k1)) (aesKey k2) (part * 2 ^ 45 + gpaLine) 8 (numBytes plain.toNat 128))))

/-- R338: the line that a ciphertext stands for. -/
def unsealLine (k1 k2 : BitVec 256) (part gpaLine : Nat) (cipher : BitVec 1024) : BitVec 1024 :=
  BitVec.ofNat 1024 (natOfBytes (byteStr
    (xtsUnit (aesUnblock (aesKey k1)) (aesKey k2) (part * 2 ^ 45 + gpaLine) 8 (numBytes cipher.toNat 128))))

/-- R338: the line MAC: the low 48 bits of the CMAC of the ciphertext and its GPA line. -/
def lineMac (k : BitVec 256) (gpaLine : Nat) (cipher : BitVec 1024) : BitVec 48 :=
  BitVec.ofNat 48 (natOfBytes (byteStr (cmac (aesKey k) (numBytes cipher.toNat 128 ++ numBytes gpaLine 8))))

/-- R340: the page MAC: the low 64 bits of the CMAC of the line MACs, the GPA and the version. -/
def pageMac (k : BitVec 256) (covered : List Byte) : BitVec 64 :=
  BitVec.ofNat 64 (natOfBytes (byteStr (cmac (aesKey k) (rawBytes covered))))

/-- R345: the body and the tag of a sealed event entry under a report key; the nonce is `seq`. -/
def sealEvent (k : BitVec 256) (seq : Nat) (body : List Byte) : List Byte :=
  let r := gcmSeal (aesKey k) (numBytes seq 8) (rawBytes body)
  byteStr (r.1 ++ r.2)

/-- R361: the report key of a session's export master secret for a partition. -/
def reportKey (secret : BitVec 512) (part : Nat) : BitVec 256 :=
  BitVec.ofNat 256 (natOfBytes (byteStr (hkdfExpand (numBytes secret.toNat 64)
    ("galkai report".toList.map Char.toNat ++ [part]))))

end Sys2Proof.Machine
end

