-- ==== Sys2Proof/Machine/Stage2.lean ====
section
/-! DEFINITION. Guest-physical to placement: the range table (R311), home slices (R133), stage 2 (R312, R313), fault
records (R315 to R317), fills and write-backs (R337 to R339), page heat (R321, R322) and inline compression (R323 to R328). -/

namespace Sys2Proof.Machine

open Sys2Proof

/-- R311: the valid range-table entry that holds a GPA. -/
def Part.range? (p : Part) (gpa : Nat) : Option Range :=
  p.rtab.find? (fun r => r.v && decide (r.base ≤ gpa / 2 ^ 21 ∧ gpa / 2 ^ 21 ≤ r.last))

/-- R133: exclusive or of the 6-bit fields of G from bit 7 up, the last one 3 bits. -/
def sliceOf (g : Nat) : Nat :=
  bits g 12 7 ^^^ bits g 18 13 ^^^ bits g 24 19 ^^^ bits g 30 25 ^^^ bits g 36 31 ^^^ bits g 42 37 ^^^ bits g 48 43
    ^^^ bits g 51 49

/-- R133: the address hash of pool and remote lines, die in [8:6] and slice in [5:0]. -/
def hashOf (g : Nat) : Nat :=
  bits g 15 7 ^^^ bits g 24 16 ^^^ bits g 33 25 ^^^ bits g 42 34 ^^^ bits g 51 43

/-- R133: the home slice of a line, as die × 64 + slice. -/
def homeOf (r : Range) (g : Nat) : Nat := if r.cls = 0 then r.die * 64 + sliceOf g else hashOf g

/-- R134: the touched-bank bit of a home slice: die × 16 + slice group. -/
def groupOf (place : Nat) : Nat := (place / 64) * 16 + (place % 64) / 4

/-- The home slice of a partition's line; 0 where no range holds it. -/
def State.home (s : State) (part gpa : Nat) : Nat :=
  match s.part? part with
  | none => 0
  | some p => match p.range? gpa with
    | none => 0
    | some r => homeOf r gpa

/-- Key of a line in an LLC or a cache. -/
def lineKey (part gpa : Nat) : Nat := part * 2 ^ 45 + gpa / 128

/-- R312, R313: what a stage-2 walk ends in. -/
inductive S2 where
  | hbm (a : Nat)
  | pool (a : Nat)
  | packed (desc line : Nat)
  | absent
  | invalid
  deriving DecidableEq, Repr

/-- R312: index of a level, level 0 the root. -/
def s2Index (gpa level : Nat) : Nat :=
  match level with
  | 0 => bits gpa 51 48
  | 1 => bits gpa 47 39
  | 2 => bits gpa 38 30
  | 3 => bits gpa 29 21
  | _ => bits gpa 20 12

/-- R313: what makes an entry of the walked path invalid, whatever its `v` holds. `group` tells whether the 16 leaves of
its 64 KiB group are identical. -/
def s2Bad (e level : Nat) (group : Bool) (die : Option Nat) (sl : Bool) : Bool :=
  let leaf := e.testBit 1
  let tgt := bits e 3 2
  let g64 := e.testBit 4
  bits e 11 5 != 0 || bits e 63 52 != 0 || (leaf && decide (level < 3))
  || tgt == 3
  || (g64 && (!leaf || level != 4 || !group))
  || (leaf && tgt == 2 && (!g64 || sl))
  || (leaf && tgt == 0 && (match die with
        | none => true
        | some d => decide (bits e 51 12 * 4096 / 2 ^ 37 ≠ d)))

/-- R312: where a leaf at a level sends a GPA. -/
def s2Leaf (e level gpa : Nat) : S2 :=
  let size := if level = 3 then 2 ^ 21 else if e.testBit 4 then 2 ^ 16 else 2 ^ 12
  let addr := bits e 51 12 * 4096
  match bits e 3 2 with
  | 0 => .hbm (addr / size * size + gpa % size)
  | 1 => .pool (addr / size * size + gpa % size)
  | _ => .packed addr (gpa % 2 ^ 16 / 128)

/-- R312: the 16 leaves of a 64 KiB group are identical. -/
def s2Group (hbm : Memory) (entry : Nat) : Bool :=
  (upTo 16).all (fun i => Memory.num hbm (entry / 128 * 128 + 8 * i) 8 == Memory.num hbm entry 8)

/-- R312, R313: the walk from a table at a level; `fuel` levels remain. -/
def s2Walk (hbm : Memory) (die : Option Nat) (sl : Bool) (gpa : Nat) : Nat → Nat → Nat → S2
  | 0, _, _ => .invalid
  | fuel + 1, table, level =>
    let at_ := table + 8 * s2Index gpa level
    let e := Memory.num hbm at_ 8
    if s2Bad e level (e.testBit 4 && level == 4 && s2Group hbm at_) die sl then .invalid
    else if e.testBit 0 = false then .absent
    else if e.testBit 1 then s2Leaf e level gpa
    else if level = 4 then .invalid
    else s2Walk hbm die sl gpa fuel (bits e 51 12 * 4096) (level + 1)

/-- R341: an HPA of the region that bring-up has reserved. -/
def State.reservedHpa (s : State) (a : Nat) : Bool := s.pkg.reserved == some (a / 2 ^ 28)

/-- The placement of a partition's GPA; the reserved region lies in no stage-2 table (R341, log entry 136). -/
def State.stage2 (s : State) (p : Part) (r : Range) (gpa : Nat) : S2 :=
  match s2Walk s.mem.hbm (if r.cls = 0 then some r.die else none) p.sealed_ gpa 5 p.s2root 0 with
  | .hbm a => if s.reservedHpa a then .invalid else .hbm a
  | x => x

/-- R316: a fault record as the 64 bytes written to the ring. -/
def FaultRec.bits (f : FaultRec) (sl : Bool) : BitVec 512 :=
  let gpa := if sl then f.gpa / 4096 * 4096 else f.gpa
  let gva := if sl || f.eng == 5 || f.eng == 6 then 0 else f.gva.toNat
  BitVec.ofNat 512 (f.seq + f.part * 2 ^ 64 + f.cause * 2 ^ 72 + f.eng * 2 ^ 76 + (b2n f.wr) * 2 ^ 80 + f.reng * 2 ^ 81
    + f.pos * 2 ^ 96 + f.slot * 2 ^ 107 + gva * 2 ^ 128 + gpa * 2 ^ 192)

/-- R415, R417: the ring of a kind (0 fault, 1 error): base and k. -/
def State.ring? (s : State) (kind : Nat) : Option (Nat × Nat) := Map.find s.host.rings kind

/-- R416: an MSI-X message. -/
def State.sendMsix (s : State) (v : Nat) : State := { s with host := { s.host with msix := s.host.msix ++ [v] } }

/-- R417: a 64-byte record written to a ring in host memory. -/
def State.ringWrite (s : State) (base k i : Nat) (d : BitVec 512) : State :=
  { s with mem := { s.mem with host := Memory.store s.mem.host (base + 64 * (i % 2 ^ k)) (bytesOfNat d.toNat 64) } }

/-- R317: how many records are outstanding and posted. -/
def State.postedRecs (s : State) : Nat := (s.host.faults.filter (·.posted)).length

/-- R317, R415: the fault ring takes another record. -/
def State.ringHasRoom (s : State) : Bool :=
  match s.ring? 0 with
  | none => false
  | some (_, k) => decide (s.host.fnext - s.host.fcons.toNat < 2 ^ k) && decide (s.postedRecs < 4096)

/-- R316, R317: the oldest record held back is posted where the ring and the limit permit. -/
def State.postFault (s : State) : State :=
  match s.host.faults.find? (fun f => !f.posted), s.ring? 0 with
  | some f, some (base, k) =>
    if s.ringHasRoom then
      let sl := match s.part? f.part with
        | none => false
        | some p => p.sealed_
      let f' := { f with seq := s.host.fnext, posted := true }
      let s1 := s.ringWrite base k s.host.fnext (f'.bits sl)
      let s2 := { s1 with host := { s1.host with
        faults := s1.host.faults.map (fun (g : FaultRec) => if g.tag = f.tag then f' else g), fnext := s1.host.fnext + 1 } }
      s2.sendMsix 1
    else s
  | _, _ => s

/-- R315: a hart that goes on, or waits anew, waits for no record of an earlier access. -/
def State.leaveRecords (s : State) (k : Nat) : State :=
  { s with host := { s.host with faults := s.host.faults.map (fun (f : FaultRec) => { f with harts := f.harts.filter (· != k) }) } }

/-- R317: a fault met by a requester: it joins the outstanding record of its partition, cause and page, or raises one. -/
def State.raiseRecord (s : State) (f : FaultRec) : State :=
  if s.host.faults.any (fun (g : FaultRec) => g.part == f.part && g.cause == f.cause && g.page == f.page) then
    { s with host := { s.host with faults := s.host.faults.map (fun g =>
        if g.part == f.part && g.cause == f.cause && g.page == f.page then
          { g with harts := g.harts ++ f.harts, jobs := g.jobs ++ f.jobs, walks := g.walks ++ f.walks,
                   stores := g.stores ++ f.stores, launches := g.launches ++ f.launches }
        else g) } }
  else
    let s1 := s.nextTag
    let s2 := { s1 with host := { s1.host with faults := s1.host.faults ++ [{ f with tag := s1.tag, posted := false }] } }
    s2.postFault

/-- R322: an entry of the heat array; an undefined value after a write to `hn`. -/
def Part.heatOf (p : Part) (i : Nat) : Nat × Nat :=
  match Map.find p.heatAt i, p.heatFree with
  | some e, _ => e
  | none, none => (0, 0)
  | none, some n =>
    let v := (Config.freeBits 64 (2 ^ 90 + n * 2 ^ 40 + i)).toNat
    (v % 2 ^ 16, v / 2 ^ 16)

/-- R322: the regions that a range contributes to the heat array: none for another package's. -/
def Range.heatRegions (r : Range) : Nat := if r.v && r.cls != 2 then r.last + 1 - r.base else 0

/-- R322: the place of a 2 MiB region in the heat array: its range's place, ranges in entry order, and its own within the range. -/
def heatIndex : List Range → Nat → Option Nat
  | [], _ => none
  | r :: rs, region =>
    if decide (0 < r.heatRegions) && decide (r.base ≤ region ∧ region ≤ r.last) then some (region - r.base)
    else (heatIndex rs region).map (· + r.heatRegions)

/-- R321, R322: a request of a line reaches the controller of a stack: it is counted and, where sampled, its 2 MiB region
of the partition's heat array is incremented. -/
def State.heatCount (s : State) (stack part gpa : Nat) : State :=
  let c := Map.findD s.ctrls stack Ctrl.reset
  let c' := { c with c := c.c + 1 }
  let s1 := { s with ctrls := Map.put s.ctrls stack c' }
  match s.part? part with
  | none => s1
  | some p =>
    match heatIndex p.rtab (gpa / 2 ^ 21) with
    | none => s1
    | some i =>
      if c.hen && c'.c.toNat % 2 ^ c.hk.toNat == 0 && (!p.sealed_ || p.heat) then
        let e := s.time / (100 * 2 ^ (min s.pkg.hn.toNat 24))
        let old := p.heatOf i
        let value := if e - old.2 ≥ 16 then 0 else old.1 / 2 ^ (e - old.2)
        s1.setPart part { p with heatAt := Map.put p.heatAt i (min (value + 1) 65535, e) }
      else s1

/-- R324: the form of a line: code and stored bytes. -/
def lineForm (d : BitVec 1024) : Nat × List Byte :=
  let dw := fun i => bits d.toNat (64 * i + 63) (64 * i)
  let delta := fun i => (BitVec.ofNat 64 (dw i) - BitVec.ofNat 64 (dw 0)).toInt
  if d = 0 then (0, [])
  else if (upTo 16).all (fun i => dw i == dw 0) then (1, bytesOfNat (dw 0) 8)
  else if (upTo 16).all (fun i => decide (-128 ≤ delta i ∧ delta i ≤ 127)) then
    (2, bytesOfNat (dw 0) 8 ++ (upTo 16).map (fun i => BitVec.ofInt 8 (delta i)))
  else (3, bytesOfNat d.toNat 128)

/-- R324: the line that a form's stored bytes stand for. -/
def lineOfForm (form : Nat) (bs : List Byte) : BitVec 1024 :=
  match form with
  | 0 => 0
  | 1 => BitVec.ofNat 1024 ((upTo 16).foldl (fun a i => a + natOfBytes (bs.take 8) * 2 ^ (64 * i)) 0)
  | 2 => BitVec.ofNat 1024 ((upTo 16).foldl (fun a i =>
      a + (BitVec.ofNat 64 (natOfBytes (bs.take 8)) + (bs.getD (8 + i) 0).signExtend 64).toNat * 2 ^ (64 * i)) 0)
  | _ => BitVec.ofNat 1024 (natOfBytes (bs.take 128))

/-- R325: the bytes of a slot code. -/
def slotSize (c : Nat) : Nat := match c with | 0 => 0 | 1 => 32 | 2 => 64 | _ => 128

/-- R326: the slot code of a line of a packed page. -/
def slotCode (pool : Memory) (desc l : Nat) : Nat := bits (Memory.num pool (desc + l / 4) 1) (2 * (l % 4) + 1) (2 * (l % 4))

/-- R325: where a line's slot lies. -/
def slotAddr (pool : Memory) (desc l : Nat) : Nat :=
  Memory.num pool (desc + 768) 8 + (upTo l).foldl (fun a i => a + slotSize (slotCode pool desc i)) 0

/-- R326: a line's form code. -/
def formCode (pool : Memory) (desc l : Nat) : Nat :=
  bits (Memory.num pool (desc + 128 + l / 4) 1) (2 * (l % 4) + 1) (2 * (l % 4))

/-- R326: a line's overflow byte. -/
def ovfByte (pool : Memory) (desc l : Nat) : Nat := Memory.num pool (desc + 256 + l) 1

/-- R325, R326: a line of a packed page, decompressed. -/
def packedLine (pool : Memory) (desc l : Nat) : BitVec 1024 :=
  let o := ovfByte pool desc l
  let at_ := if o.testBit 7 then Memory.num pool (desc + 776) 8 + 128 * (o % 64) else slotAddr pool desc l
  lineOfForm (formCode pool desc l) (Memory.bytes pool at_ 128)

/-- R326: the form code of a line replaced. -/
def setForm (pool : Memory) (desc l c : Nat) : Memory :=
  let a := desc + 128 + l / 4
  let old := Memory.num pool a 1
  let sh := 2 * (l % 4)
  Memory.store pool a (bytesOfNat (old - bits old (sh + 1) sh * 2 ^ sh + c * 2 ^ sh) 1)

/-- R326: one of the descriptor's 8-byte words changed. -/
def bumpWord (pool : Memory) (a : Nat) (f : Nat → Nat) : Memory :=
  Memory.store pool a (bytesOfNat (f (Memory.num pool a 8)) 8)

/-- R327: a line written back into a packed page; none where it fits no slot and no overflow entry is free (`nfull` is
then counted by the caller). -/
def packedWrite (pool : Memory) (desc l : Nat) (d : BitVec 1024) : Option Memory :=
  let (form, bs) := lineForm d
  let o := ovfByte pool desc l
  let p1 := setForm pool desc l form
  if bs.length ≤ slotSize (slotCode pool desc l) then
    let p2 := Memory.store p1 (slotAddr pool desc l) bs
    if o.testBit 7 then
      let p3 := Memory.store p2 (desc + 256 + l) [0]
      some (bumpWord (bumpWord p3 (desc + 784) (fun w => w ||| 2 ^ (o % 64))) (desc + 800) (· + 1))
    else some p2
  else if o.testBit 7 then some (Memory.store p1 (Memory.num pool (desc + 776) 8 + 128 * (o % 64)) bs)
  else
    match (upTo 64).find? (fun e => (Memory.num pool (desc + 784) 8).testBit e) with
    | none => none
    | some e =>
      let p2 := Memory.store p1 (Memory.num pool (desc + 776) 8 + 128 * e) bs
      let p3 := Memory.store p2 (desc + 256 + l) (bytesOfNat (128 + e) 1)
      some (bumpWord (bumpWord p3 (desc + 784) (fun w => w - 2 ^ e)) (desc + 792) (· + 1))

/-- R326: the form and the overflow map of a line agree with what its descriptor holds: its stored bytes fit its slot, or it has
an overflow entry of its own that is not free. -/
def packedSound (pool : Memory) (desc l : Nat) : Bool :=
  let o := ovfByte pool desc l
  let stored := match formCode pool desc l with | 0 => 0 | 1 => 8 | 2 => 24 | _ => 128
  if o.testBit 7 then
    !o.testBit 6 && !(Memory.num pool (desc + 784) 8).testBit (o % 64)
      && (upTo 512).all (fun k => k == l || ovfByte pool desc k != o)
  else o == 0 && decide (stored ≤ slotSize (slotCode pool desc l))

/-- R3, R326: a line of a packed page as a fill finds it: undefined where its descriptor does not agree with it. -/
def State.packedFill (s : State) (desc l : Nat) : BitVec 1024 :=
  if packedSound s.mem.pool desc l then packedLine s.mem.pool desc l else s.free 1024

/-- R18: the pseudo-channel of its stack, one of 160, that serves an HPA (log entry 10). -/
def channelOf (hpa : Nat) : Nat := Config.channelOf hpa % 160

/-- R337: the record of a sealed line or the poison of a line at an HPA line or (from 2^45) a pool line. -/
def hbmLine (a : Nat) : Nat := a / 128
def poolLine (a : Nat) : Nat := 2 ^ 45 + a / 128
def packedKey (desc l : Nat) : Nat := 2 ^ 50 + desc * 512 + l

/-- What a fill brings: the line, or why there is none. -/
inductive Fill where
  | line (d : BitVec 1024) (poison : Bool)
  | absent
  | invalid
  | integrity
  deriving DecidableEq, Repr

/-- R338: the MAC of a line in memory; 0 where no sealed partition has written it. -/
def Mem.macAt (m : Mem) (key : Nat) : BitVec 48 :=
  match Map.find m.sealedAt key with
  | none => 0
  | some l => l.mac

/-- R337, R338: what memory holds of a line of a partition: itself, or its ciphertext. -/
def Part.stored (p : Part) (partNo gpa : Nat) (d : BitVec 1024) : BitVec 1024 :=
  match p.keys with
  | none => d
  | some k => sealLine k.memory k.tweak partNo (gpa / 128) d

/-- R18, R338: the metadata written with a line: none for an open partition. -/
def Part.metadata (p : Part) (partNo gpa : Nat) (stored : BitVec 1024) : Option SealedLine :=
  p.keys.map (fun k => ⟨partNo, lineMac k.mac (gpa / 128) stored⟩)

/-- R337 to R339: a line read at a placement: its ECC first, then, for a sealed line, its metadata. -/
def Mem.fillAt (m : Mem) (p : Part) (partNo gpa key : Nat) (raw : BitVec 1024) : Fill :=
  if m.poisonAt.contains key then .line 0 true
  else if p.sealed_ then
    match p.keys with
    | none => .integrity
    | some k =>
      if m.macAt key = lineMac k.mac (gpa / 128) raw then .line (unsealLine k.memory k.tweak partNo (gpa / 128) raw) false else .integrity
  else .line raw false

/-- R312, R315, R339, R391: what a fill of a line of a partition finds in memory; poison in a stack or pseudo-channel that has left service. -/
def State.fill (s : State) (p : Part) (partNo : Nat) (r : Range) (gpa : Nat) : Fill :=
  match s.stage2 p r gpa with
  | .absent => .absent
  | .invalid => .invalid
  | .hbm a =>
    if s.pkg.gone.contains (.stack (a / 2 ^ 36)) || s.pkg.gone.contains (.pseudoChannel (a / 2 ^ 36) (channelOf a)) then .line 0 true
    else s.mem.fillAt p partNo gpa (hbmLine a) (Memory.line s.mem.hbm (a / 128 * 128))
  | .pool a => s.mem.fillAt p partNo gpa (poolLine a) (Memory.line s.mem.pool (a / 128 * 128))
  | .packed d l => .line (s.packedFill d l) (s.mem.poisonAt.contains (packedKey d l))

/-- R321: the stack whose controller serves a placement: pool requests by the even stack of the home slice's die. -/
def stackOf (place : S2) (home : Nat) : Nat :=
  match place with
  | .hbm a => a / 2 ^ 36
  | _ => 2 * (home / 64)

/-- What an access at a home slice meets, with the state a fill leaves. -/
inductive AtHome where
  /-- The line stands at its home slice. -/
  | ready (s : State)
  /-- R157: the line is homed in another package. -/
  | far (pkg : Nat)
  | absent (cause : Nat) (s : State)
  | integrity (s : State)
  /-- R386: the line stands at its home slice, poisoned. -/
  | poisoned (s : State)
  /-- R311, R70: no valid range-table entry, or a remote request that no export covers. -/
  | outside
  /-- R354: the home die accepts no requests. -/
  | dieDown (d : Nat)
  /-- R355: the home die was rejected. -/
  | lost
  deriving DecidableEq, Repr

/-- R328: a cause-2 record of a line's page is outstanding. -/
def State.pageFull (s : State) (part gpa : Nat) : Bool :=
  s.host.faults.any (fun (f : FaultRec) => f.part == part && f.cause == 2 && f.page == gpa / 2 ^ 16)

/-- The partition and GPA of a key of `Mem.llc`. -/
def keyPart (key : Nat) : Nat := key / 2 ^ 45
def keyGpa (key : Nat) : Nat := key % 2 ^ 45 * 128

/-- R17, R333: the ways of a set of a slice that a partition's lines may take: its own or the shared ones, less what the die scratchpads
of those ways carve out of them (log entry 26). -/
def State.waysFor (s : State) (p : Part) (place set_ : Nat) : Nat :=
  let carve := fun (q : Part) => q.dsp.getD (place / 64) 0
  let ways := if p.sealed_ then p.sways else 16 - ((s.parts.filter (fun q => q.2.sealed_)).map (fun q => q.2.sways)).sum
  let lines := (if p.sealed_ then carve p else ((s.parts.filter (fun q => !q.2.sealed_)).map (fun q => carve q.2)).sum) / 2 ^ 13
  if lines = 0 then ways else ways - (lines + 1023 - set_) / 1024

/-- R333: the other lines of a slice in the ways of a partition. -/
def State.lineMates (s : State) (p : Part) (partNo place key : Nat) : List (Nat × LlcLine) :=
  s.mem.llc.filter (fun e => e.1 != key && s.home (keyPart e.1) (keyGpa e.1) == place
    && (if p.sealed_ then keyPart e.1 == partNo else match s.part? (keyPart e.1) with
      | none => false
      | some q => !q.sealed_))

/-- R333: a partition's lines in a slice's shared ways, and its limit there. -/
def overLimit (mates : List (Nat × LlcLine)) (p : Part) (partNo die : Nat) (least : Nat) : Bool :=
  decide (p.llcl.getD die 0 * 128 + least ≤ (mates.filter (fun e => keyPart e.1 == partNo)).length)

/-- R333: the lines of a set among which the one to give way is found: the allocating partition's, if it is at its limit; those of
partitions above theirs; all of them. Which is the least recently used is free (log entry 26). -/
def State.victims (s : State) (p : Part) (partNo die : Nat) (mates inSet : List (Nat × LlcLine)) : List (Nat × LlcLine) :=
  if p.sealed_ then inSet
  else
    let mine := if overLimit mates p partNo die 0 then inSet.filter (fun e => keyPart e.1 == partNo) else []
    let over_ := inSet.filter (fun e => match s.part? (keyPart e.1) with
      | none => false
      | some q => overLimit mates q (keyPart e.1) die 1)
    if !mine.isEmpty then mine else if !over_.isEmpty then over_ else inSet

/-- R333: the set of its slice that holds a line, by the line's key. -/
def lineSet (key : Nat) : Nat := Config.llcSet (key % 2 ^ 45) % 1024

/-- R17, R333: a line that finds its set full makes another give way. -/
def State.evictFor (s : State) (p : Part) (partNo place key : Nat) : State :=
  let ways := s.waysFor p place (lineSet key)
  let mates := s.lineMates p partNo place key
  if mates.length < ways then s
  else
    let inSet := mates.filter (fun e => lineSet e.1 == lineSet key)
    if inSet.length < ways then s
    else
      let vs := s.victims p partNo (place / 64) mates inSet
      match vs[Config.victim vs.length s.fresh % vs.length]? with
      | none => s
      | some v => (s.plan 0 .lineWriteback { nats := [keyPart v.1, keyGpa v.1], ok := true }).drawn

/-- R312, R315, R321, R339, R386: a line that no home slice holds is requested of its memory controller. -/
def State.fillHome (s : State) (p : Part) (partNo : Nat) (r : Range) (gpa : Nat) : AtHome :=
  let place := s.stage2 p r gpa
  let s0 := s.heatCount (stackOf place (homeOf r gpa)) partNo gpa
  match s.fill p partNo r gpa with
  | .absent => .absent 1 s0
  | .invalid => .absent 4 s0
  | .integrity => .integrity s0
  | .line d poison =>
    let s1 := ({ s0 with mem := { s0.mem with llc := Map.put s0.mem.llc (lineKey partNo gpa) ⟨d, false, poison, false⟩ } } : State).evictFor p
      partNo (homeOf r gpa) (lineKey partNo gpa)
    let s2 := match place with
      | .packed e l => if packedSound s.mem.pool e l then s1 else s1.drawn
      | _ => s1
    if poison then .poisoned s2 else .ready s2

/-- R315, R339, R386: a line brought to its home slice. -/
def State.atHome (s : State) (partNo gpa : Nat) : AtHome :=
  match s.part? partNo with
  | none => .outside
  | some p =>
    match p.range? gpa with
    | none => .outside
    | some r =>
      if r.cls = 2 then (if Config.remoteUncovered r.pkg partNo gpa then .outside else .far r.pkg)
      else if !(s.die (homeOf r gpa / 64)).accept then
        (if (s.die (homeOf r gpa / 64)).st = 6 then .lost else .dieDown (homeOf r gpa / 64))
      else
        match Map.find s.mem.llc (lineKey partNo gpa) with
        | some l => if l.poison then .poisoned s else .ready s
        | none => if s.pageFull partNo gpa then .absent 2 s else s.fillHome p partNo r gpa

/-- R312, R327, R337: a dirty line written back to its placement; none where it must be held (R327) or has no placement. -/
def State.writeBack (s : State) (p : Part) (partNo gpa : Nat) (d : BitVec 1024) (poison : Bool) : Option State :=
  match p.range? gpa with
  | none => none
  | some r =>
    let place := s.stage2 p r gpa
    let stored := p.stored partNo gpa d
    let mark := fun (m : Mem) (key : Nat) =>
      let m1 := { m with poisonAt := if poison then (if m.poisonAt.contains key then m.poisonAt else key :: m.poisonAt)
                                      else m.poisonAt.filter (· != key) }
      { m1 with sealedAt := match p.metadata partNo gpa stored with
        | some l => Map.put m1.sealedAt key l
        | none => Map.del m1.sealedAt key }
    match place with
    | .hbm a =>
      let m := mark s.mem (hbmLine a)
      some (({ s with mem := { m with hbm := Memory.setLine m.hbm (a / 128 * 128) stored } }).heatCount
        (stackOf place (homeOf r gpa)) partNo gpa)
    | .pool a =>
      let m := mark s.mem (poolLine a)
      some (({ s with mem := { m with pool := Memory.setLine m.pool (a / 128 * 128) stored } }).heatCount
        (stackOf place (homeOf r gpa)) partNo gpa)
    | .packed desc l =>
      match packedWrite s.mem.pool desc l d with
      | some pool => some (({ s with mem := { mark s.mem (packedKey desc l) with pool := pool } }).heatCount (stackOf place (homeOf r gpa)) partNo gpa)
      | none => none
    | .absent => none
    | .invalid => none

end Sys2Proof.Machine
end

