-- ==== Sys2Proof/Machine/Home.lean ====
section
/-! DEFINITION. Accesses at the place where they are performed (R129, R157): the home slice, the scratchpads and the die
scratchpad; what a write does to reservations, watches and caches (R68, R136, R137, R151). -/

namespace Sys2Proof.Machine

open Sys2Proof

/-- A line standing at its home slice; zero where it does not. -/
def State.llcData (s : State) (part gpa : Nat) : BitVec 1024 :=
  match Map.find s.mem.llc (lineKey part gpa) with
  | none => 0
  | some l => l.data

/-- R157: where a remote line's bytes are. -/
def remoteAddr (pkg gpa : Nat) : Nat := pkg * 2 ^ 52 + gpa

/-- A read performed at the home slice: bytes, or why there are none. -/
inductive HomeRead where
  | val (b : List Byte) (s : State)
  | no (why : AtHome)

/-- R137: a line held modified in a hart data cache, other than that of the core that reads, is recalled: the copy is clean. -/
def State.cleanHdc (s : State) (part gpa : Nat) (but : Option Nat) : State :=
  if s.cores.any (fun c => but != some c.1 && Map.find c.2.hdc (lineKey part gpa) == some true) then
    { s with cores := Map.mapVal s.cores (fun k v =>
      if but != some k && Map.find v.hdc (lineKey part gpa) == some true then { v with hdc := Map.put v.hdc (lineKey part gpa) false } else v) }
  else s

/-- R17, R137, R157: n bytes of one line read at their home slice. -/
def State.readHome (s : State) (part gpa n : Nat) : HomeRead :=
  match s.atHome part gpa with
  | .ready s1 => .val (lineBytes (s1.llcData part gpa) (gpa % 128) n) (s1.cleanHdc part gpa none)
  | .far pkg => .val (Memory.bytes s.mem.remote (remoteAddr pkg gpa) n) s
  | w => .no w

/-- R150, R151: the wake messages of a write, in registration order, one per mesh cycle (20 of them in 7 cycles) from the
`i`-th on; a wait that a message will end is named anew, so that no timeout ends it before. -/
def State.sendWakes (s : State) (lat i : Nat) : List Watch → State
  | [] => s
  | w :: ws =>
    match s.hart? w.hart with
    | none => s.sendWakes lat (i + 1) ws
    | some h =>
      match h.run.wait with
      | some (.waita _ xd a) =>
        let s1 := s.nextTag
        ((s1.setHart w.hart { h with run := { h.run with wait := some (.waita s1.tag xd a) } }).plan (lat + (7 * i + 19) / 20)
          .waitaWake { nats := [w.hart, s1.tag] }).sendWakes lat (i + 1) ws
      | _ => s.sendWakes lat (i + 1) ws

/-- R150, R151: every watch of a line is removed and its hart sent a wake message. -/
def State.wakeLine (s : State) (part gpa : Nat) : State :=
  let place := s.home part gpa
  let d := s.die (place / 64)
  let sl := d.slice (place % 64)
  let hit := sl.watches.filter (fun w => w.line == ⟨part, gpa / 128⟩)
  if hit.isEmpty then s
  else
    let s1 := s.setDie (place / 64) { d with
      slices := (Map.put d.slices (place % 64) ({ sl with watches := sl.watches.filter (fun w => w.line != ⟨part, gpa / 128⟩) })) }
    (s1.popLatency).sendWakes s1.latency 0 hit

/-- R68: every reservation of a line ends. -/
def State.breakResv (s : State) (part gpa : Nat) : State :=
  s.modHarts (fun _ h => h.run.resv == some ⟨part, gpa / 128⟩) (fun _ h => { h with run := { h.run with resv := none } })

/-- R137: every hart data cache but one drops its copy of a line. -/
def State.dropHdc (s : State) (part gpa : Nat) (but : Option Nat) : State :=
  { s with cores := Map.mapVal s.cores (fun c v => if some c = but then v else { v with hdc := Map.del v.hdc (lineKey part gpa) }) }

/-- R387: an open partition makes a line dirty in a slice's shared ways. -/
def State.markDirty (s : State) (part place : Nat) : State :=
  let d := s.die (place / 64)
  let sl := d.slice (place % 64)
  match s.part? part with
  | none => s
  | some p =>
    if p.sealed_ then s
    else s.setDie (place / 64) { d with slices := Map.put d.slices (place % 64) { sl with dirty := sl.dirty ||| ((1 : BitVec 64) <<< part) } }

/-- R82, R87: the dispatcher looks at the packet slot at a queue's consumer index after a write to its line, and at the dependences
of a checked packet after any write of its partition. -/
def State.pollQueues (s : State) (part gpa : Nat) : State :=
  s.queues.foldl (fun t e =>
    if e.1 / 256 == part && (e.2.ring + 64 * (e.2.consIdx % 2 ^ e.2.n)) / 128 == gpa / 128 then
      t.plan 0 .packetCheck { nats := [part, e.1 % 256] }
    else if e.1 / 256 == part && e.2.checked then t.plan 0 .launchActivate { nats := [part, e.1 % 256] }
    else t) s

/-- R104: an open launch that waits for its dependences alone is looked at after any write of its partition. -/
def State.pollOpen (s : State) (part : Nat) : State :=
  s.launches.foldl (fun t e =>
    if e.2.part == part && e.2.pkt.open_ && e.2.pkt.ndep != 0 && e.2.activated && !e.2.ended && e.2.children.isEmpty then
      t.plan 0 .launchComplete { nats := [e.1] }
    else t) s

/-- What every write performed at a home slice does besides storing its bytes. -/
def State.wrote (s : State) (part gpa : Nat) (by_ : Option Nat) : State :=
  ((((s.breakResv part gpa).dropHdc part gpa by_).wakeLine part gpa).pollQueues part gpa).pollOpen part

/-- R386: bytes that cover a line clear its poison. -/
def State.putLine (s : State) (part gpa : Nat) (bs : List Byte) : State :=
  let key := lineKey part gpa
  let old := Map.findD s.mem.llc key ⟨0, false, false, false⟩
  let full := gpa % 128 == 0 && bs.length == 128
  let new : LlcLine := ⟨setLineBytes old.data (gpa % 128) bs, true, old.poison && !full, old.held⟩
  ({ s with mem := { s.mem with llc := Map.put s.mem.llc key new } }).markDirty part (s.home part gpa)

/-- A write performed at the home slice, of bytes of one line that stands there or is remote; `by_` is the core whose hart
data cache keeps its copy. -/
def State.writeHome (s : State) (part gpa : Nat) (bs : List Byte) (by_ : Option Nat) : State :=
  match s.part? part with
  | none => s
  | some p => match p.range? gpa with
    | none => s
    | some r =>
      if r.cls = 2 then
        ({ s with mem := { s.mem with remote := Memory.store s.mem.remote (remoteAddr r.pkg gpa) bs } }).wrote part gpa by_
      else (s.putLine part gpa bs).wrote part gpa by_

/-- R104: bytes of a standing child record. -/
def Child.touches (c : Child) (gpa n : Nat) : Bool :=
  match c.at_ with
  | none => false
  | some a => decide (a < gpa + n) && decide (gpa < a + 16)

/-- R104: a software store of n bytes: the arguments of the items whose records it meets are undefined. -/
def State.spoilRing (s : State) (part gpa n : Nat) : State :=
  if s.launches.any (fun e => e.2.part == part && e.2.children.any (fun c => c.touches gpa n)) then
    { s with launches := Map.mapVal s.launches (fun _ l =>
      if l.part = part then { l with children := l.children.map (fun c => if c.touches gpa n then { c with spoilt := true } else c) } else l) }
  else s

/-- R15, R130: scratchpad bytes of a core. -/
def State.spadRead (s : State) (core off n : Nat) : List Byte := Memory.bytes (s.core core).spad off n

def State.spadWrite (s : State) (core off : Nat) (bs : List Byte) : State :=
  s.modCore core (fun c => { c with spad := Memory.store c.spad off bs })

/-- R131: die-scratchpad bytes of a partition on a die. -/
def dsAddr (part off : Nat) : Nat := part * 2 ^ 25 + off

def State.dsRead (s : State) (die part off n : Nat) : List Byte := Memory.bytes (s.die die).ds (dsAddr part off) n

def State.dsWrite (s : State) (die part off : Nat) (bs : List Byte) : State :=
  s.modDie die (fun d => { d with ds := Memory.store d.ds (dsAddr part off) bs })

/-- R129, R167: the place of a write, as one number: home slices and die-scratchpad slices below 2^10, banks above. -/
def State.placeOf (s : State) (space owner addr : Nat) : Nat :=
  match space with
  | 0 => s.home owner addr
  | 3 => (owner / 64) * 64 + (addr / 128) % 64
  | _ => 1024 + owner * 32 + addr / 16384

def Flight.place (f : Flight) (s : State) : Nat := s.placeOf f.space f.owner f.addr

/-- R315: the page of a fault record: 4 KiB, or 64 KiB for cause 2. -/
def recPage (cause gpa : Nat) : Nat := if cause = 2 then gpa / 2 ^ 16 else gpa / 4096

/-- A fault record with no requester yet. -/
def blankRec (part cause gpa eng pos slot : Nat) (gva : DWord) (wr : Bool) : FaultRec :=
  { seq := 0, part := part, cause := cause, page := recPage cause gpa, eng := eng, wr := wr, reng := 0, pos := pos, slot := slot,
    gva := gva, gpa := gpa, posted := false, harts := [], jobs := [], walks := [], stores := [], launches := [], tag := 0 }

/-- R386: a line brought to its home slice, poison and all, where it can be. -/
def State.standLine (s : State) (part gpa : Nat) : State :=
  match s.atHome part gpa with
  | .ready t => t
  | .poisoned t => t
  | _ => s

/-- R107: a store of a hart has been performed: its hang counter is 0. -/
def State.storeDone (s : State) (k : Nat) : State := s.modHarts (fun j _ => j == k) (fun _ h => h.hangClear s.now)

end Sys2Proof.Machine
end

