-- ==== Sys2Proof/Machine/Records.lean ====
section
/-! DEFINITION. Error records for the host (R344, R394) and event-queue entries for the tenant (R345). -/

namespace Sys2Proof.Machine

open Sys2Proof

/-- What an error record tells (R394), with what only the tenant's entry tells (R345). -/
structure ErrRec where
  cls : Nat
  part : Option Nat
  die : Nat := 0
  unit : Nat := 7
  addr : Nat := 0
  gpa : Nat := 0
  synd : Nat := 0
  pos : Nat := 0
  slot : Nat := 0
  gva : Nat := 0
  eng : Nat := 0
  job : Nat := 0
  deriving DecidableEq, Repr

/-- R344: the redacted record. -/
def ErrRec.redacted (e : ErrRec) (time seq : Nat) : BitVec 512 :=
  BitVec.ofNat 512 (e.cls % 256 + (e.part.getD 0) % 64 * 2 ^ 8 + e.die % 16 * 2 ^ 16 + time % 2 ^ 64 * 2 ^ 64 + seq % 2 ^ 64 * 2 ^ 128)

/-- R394: the full record. -/
def ErrRec.full (e : ErrRec) (time seq : Nat) : BitVec 512 :=
  e.redacted time seq ||| BitVec.ofNat 512 (b2n e.part.isNone * 2 ^ 14 + e.unit % 16 * 2 ^ 20 + e.addr % 2 ^ 64 * 2 ^ 192
    + e.gpa % 2 ^ 64 * 2 ^ 256 + e.synd % 2 ^ 32 * 2 ^ 320 + e.pos % 2 ^ 11 * 2 ^ 352 + e.slot % 16 * 2 ^ 363)

/-- R345: the 64 bytes of a sealed entry's body: the fields of R344 but `seq`, then GVA, GPA, syndrome, engine, core position, slot and
job ID (log entry 139). -/
def ErrRec.body (e : ErrRec) (time : Nat) : List Byte :=
  bytesOfNat ((e.redacted time 0).toNat % 2 ^ 128) 16 ++ bytesOfNat e.gva 8 ++ bytesOfNat e.gpa 8 ++ bytesOfNat e.synd 4
  ++ bytesOfNat e.eng 1 ++ bytesOfNat e.pos 2 ++ bytesOfNat e.slot 1 ++ bytesOfNat e.job 8 ++ bytesOfNat 0 16

/-- R394, R345: the 128 bytes of an event-queue entry. -/
def ErrRec.entry (e : ErrRec) (p : Part) (time seq : Nat) : List Byte :=
  if p.sealed_ then
    bytesOfNat seq 8
    ++ (match p.bkey with
        | none => bytesOfNat (e.redacted time seq).toNat 64 ++ bytesOfNat 0 16
        | some k => sealEvent k seq (e.body time))
    ++ bytesOfNat p.nev 8 ++ bytesOfNat 0 32
  else bytesOfNat (e.full time seq).toNat 64 ++ bytesOfNat 0 24 ++ bytesOfNat p.nev 8 ++ bytesOfNat 0 32

/-- R345: the tenant's entry; a write that fails is not an entry. -/
def State.tenantEvent (s : State) (e : ErrRec) (time seq : Nat) : State :=
  match e.part with
  | none => s
  | some n =>
    match s.part? n with
    | none => s
    | some p =>
      if p.evq = 0 then s
      else
        let a := p.evq + 128 * (p.nev % 2 ^ (p.evn + 6))
        let put := fun (t : State) => (t.writeHome n a (e.entry p time seq) none).modPart n (fun q => { q with nev := q.nev + 1 })
        match s.atHome n a with
        | .ready t => put t
        | .far _ => put s
        | .poisoned t => put t
        | _ => s

/-- R394, R415, R416: an error is written to the error ring, or kept among the last 64 until the ring is registered, and to
the tenant's event queue. -/
def State.report (s : State) (e : ErrRec) : State :=
  let seq := s.host.enext
  let hides : Bool := match e.part with
    | none => false
    | some n => match s.part? n with
      | none => false
      | some p => p.sealed_
  let r := if hides then e.redacted s.time seq else e.full s.time seq
  let s1 := { s with host := { s.host with enext := seq + 1 } }
  let s2 := match s.ring? 1 with
    | some (base, k) => (s1.ringWrite base k seq r).sendMsix 2
    | none => { s1 with host := { s1.host with errors := (s1.host.errors ++ [r]).drop ((s1.host.errors.length + 1) - 64) } }
  s2.tenantEvent e s.time seq

/-- R18, R312: the HPA of a line; 0 where it has none. -/
def State.hpaOf (s : State) (part gpa : Nat) : Nat :=
  match s.part? part with
  | none => 0
  | some p => match p.range? gpa with
    | none => 0
    | some r => match s.stage2 p r gpa with
      | .hbm a => a / 128 * 128
      | _ => 0

/-- R339, R344: a fill that fails its MAC is an integrity failure. -/
def State.integrityError (s : State) (part gpa eng pos slot : Nat) (gva : DWord) (job : Nat := 0) : State :=
  s.report { cls := 1, part := some part, die := s.home part gpa / 64, unit := 0, addr := s.hpaOf part gpa, gpa := gpa, pos := pos,
             slot := slot, gva := gva.toNat, eng := eng, job := job }

end Sys2Proof.Machine
end

