-- ==== Sys2Proof/Machine/Access.lean ====
section
/-! DEFINITION. Writes in flight and the path order (R166, R167); release and acquire (R168, R169). -/

namespace Sys2Proof.Machine

open Sys2Proof

/-- R167, R315, R355: a write that is held stands behind the held writes its core issued before it. -/
def State.holdFlight (s : State) (f : Flight) : State :=
  s.modCore (coreOf f.hart) (fun k => { k with flight := k.flight ++ [{ f with held := true }] })

/-- R141, R167: the core has a held write to a line. -/
def State.heldAt (s : State) (core part gpa : Nat) : Bool :=
  (s.core core).flight.any (fun g => g.held && g.space == 0 && g.owner == part && g.addr / 128 == gpa / 128)

/-- R104: an index of an open launch that has exited or was voided; its record is forgotten. -/
def Launch.childGone (l : Launch) (index : Nat) : Launch :=
  { l with children := l.children.filter (fun d => d.index != index) }

/-- R111: a child is voided: it counts as exited and is never run, and its record is not written. -/
def State.voidChild (s : State) (t index : Nat) : State :=
  let mine := fun (f : Flight) => f.child == some (t, index)
  let s1 := if s.cores.any (fun c => c.2.flight.any mine) then
    { s with cores := Map.mapVal s.cores (fun _ c => { c with flight := c.flight.filter (fun f => !mine f) }) } else s
  (s1.modLaunch t (fun l => l.childGone index)).plan 0 .launchComplete { nats := [t] }

/-- R105, R111: a child record that is written and that its caller holds no more becomes claimable, with its effective
timestamp. -/
def State.freeChild (s : State) (t index : Nat) : State :=
  match s.launch? t with
  | none => s
  | some l =>
    match l.children.find? (fun c => c.index == index) with
    | none => s
    | some c =>
      if !c.loose || !c.written || c.claimable then s
      else
        let ts := if l.pkt.ordered then max c.ts l.frontier else c.ts
        let s1 := s.setLaunch t { l with children := l.children.map (fun d =>
          if d.index = index then { d with ts := ts, claimable := true } else d) }
        (s1.popLatency).plan s1.latency .placeUnit {}

/-- R105, R111: a child record has been written at a GPA: the timestamp it holds from then on is its effective one. -/
def State.recordWritten (s : State) (t index gpa : Nat) (by_ : Option Nat) : State :=
  let s1 := (s.modLaunch t (fun l => { l with children := l.children.map (fun d =>
    if d.index = index then { d with written := true, at_ := some gpa } else d) })).freeChild t index
  match s1.launch? t with
  | none => s1
  | some l =>
    match l.children.find? (fun c => c.index == index) with
    | none => s1
    | some c => if l.pkt.ordered && c.claimable then s1.writeHome l.part gpa (bytesOfNat c.ts 8) by_ else s1

/-- R104, R111: what a write performed at a line does besides its bytes. -/
def State.landed (s : State) (f : Flight) : State :=
  match f.child with
  | some (t, n) => s.recordWritten t n f.addr (some (coreOf f.hart))
  | none => s.spoilRing f.owner f.addr f.bytes.length

/-- R70, R99, R111: a write ends in an access fault: the launch whose store it is fails; the child whose record it is is voided. -/
def State.failFlight (s : State) (f : Flight) (poison : Bool) : State :=
  let s1 := match f.child with
    | none => s
    | some (t, n) => s.voidChild t n
  match f.launch with
  | none => s1
  | some l => (s1.popLatency).plan s1.latency .launchFail { nats := [l, f.hart, 1], ok := true, ok2 := poison }

/-- R166, R315: the write is performed, or held on a fault record of its page; a page that leaves it no place drops it. -/
def State.performFlight (s : State) (f : Flight) : State :=
  match f.space with
  | 0 =>
    if s.heldAt (coreOf f.hart) f.owner f.addr then s.holdFlight f
    else match s.atHome f.owner f.addr with
    | .ready s1 => ((s1.writeHome f.owner f.addr f.bytes (some (coreOf f.hart))).landed f).storeDone f.hart
    | .far _ => ((s.writeHome f.owner f.addr f.bytes (some (coreOf f.hart))).landed f).storeDone f.hart
    | .absent c t =>
      (t.holdFlight f).raiseRecord { blankRec f.owner c f.addr 0 (coreOf f.hart) (slotOf f.hart) f.gva true with stores := [(coreOf f.hart, f.hart)] }
    | .integrity t =>
      (t.integrityError f.owner f.addr 0 (coreOf f.hart) (slotOf f.hart) f.gva).modHarts (fun k _ => k == f.hart) (fun _ h => { h with run := { h.run with
        aq := if h.run.aq.length < 4 then h.run.aq ++ [(28, f.gva)] else h.run.aq,
        aqOvf := h.run.aqOvf || !decide (h.run.aq.length < 4) } })
    | .poisoned t => ((t.writeHome f.owner f.addr f.bytes (some (coreOf f.hart))).landed f).storeDone f.hart
    | .outside => s.failFlight f false
    | .lost => s.failFlight f true
    | .dieDown _ => s.holdFlight f
  | 3 => (s.dsWrite (f.owner / 64) (f.owner % 64) f.addr f.bytes).storeDone f.hart
  | _ => (s.spadWrite f.owner f.addr f.bytes).storeDone f.hart

/-- R167: every write of a core to a place that is still in flight is performed, in the order issued. -/
def State.drainPlace (s : State) (core place : Nat) : State :=
  let go := (s.core core).flight.filter (fun f => !f.held && f.place s == place)
  if go.isEmpty then s
  else
    go.foldl State.performFlight
      (s.modCore core (fun c => { c with flight := c.flight.filter (fun f => f.held || f.place s != place) }))

/-- R167, R168, R169: every write of a core that is still in flight is performed, in the order issued, except those held on a
fault record: an echo follows every earlier request of the core. -/
def State.drainCore (s : State) (core : Nat) : State :=
  let go := (s.core core).flight.filter (fun f => !f.held)
  if go.isEmpty then s
  else go.foldl State.performFlight (s.modCore core (fun c => { c with flight := c.flight.filter (·.held) }))

/-- R141, R167, R315, R355: a read of a line to which the acting hart's core has a held write waits with that write: for the
record it is held on, or for the die. -/
def State.joinHeld (s : State) (part gpa : Nat) : Wait × State :=
  let mine := fun (g : FaultRec) => g.part == part && recPage g.cause gpa == g.page && g.stores.any (fun e => e.1 == coreOf s.cur)
  if s.host.faults.any mine then
    (.replay, { s with host := { s.host with faults := s.host.faults.map (fun g =>
      if mine g then { g with harts := g.harts ++ [s.cur] } else g) } })
  else (.die (s.home part gpa / 64), s)

/-- R315: a hart has a store held on a fault record. -/
def State.storesHeld (s : State) (k : Nat) : Bool := (s.core (coreOf k)).flight.any (fun f => f.hart == k && f.held)

/-- R315, R355: a release of a hart cannot complete yet: a store waits for the host, or a marked slice group lies on a die
that accepts no requests and is not rejected. -/
def State.echoHeld (s : State) (k : Nat) : Bool :=
  s.storesHeld k || (match s.hart? k with
    | none => false
    | some h => h.dev.tbm != 0 && (upTo 8).any (fun d =>
        !(s.die d).accept && decide ((s.die d).st ≠ 6) && bits h.dev.tbm.toNat (16 * d + 15) (16 * d) != 0))

/-- R99: a write with the launch of the hart that issues it. -/
def State.owned (s : State) (f : Flight) : Flight :=
  match s.hart? f.hart with
  | none => f
  | some h => { f with launch := h.role.launch }

/-- R166: a write issued by the acting hart: performed at once or, with a latency, later (`writePerformed`). -/
def State.issueWrite (s : State) (g : Flight) : State :=
  let f := s.owned g
  let place := f.place s
  if s.latency = 0 then ((s.popLatency).drainPlace (coreOf f.hart) place).performFlight f
  else
    let s1 := (s.popLatency).modCore (coreOf f.hart) (fun c => { c with flight := c.flight ++ [f] })
    s1.plan s.latency .writePerformed { nats := [coreOf f.hart, place] }

/-- R134: an access marks the touched-bank mask. -/
def Hart.touch (h : Hart) (place : Nat) (far : Bool) : Hart :=
  { h with dev := { h.dev with tbm := h.dev.tbm ||| ((1 : BitVec 128) <<< groupOf place), tbmf := h.dev.tbmf || far } }

/-- R134: the line of a GPA lies in CXL pool memory or in another package: by its range's class, or by the placement of
its page. -/
def State.isFar (s : State) (part gpa : Nat) : Bool :=
  match s.part? part with
  | none => false
  | some p => match p.range? gpa with
    | none => false
    | some r => if r.cls = 0 then (match s.stage2 p r gpa with
        | .pool _ => true
        | .packed _ _ => true
        | _ => false) else true

/-- R39: scope codes. -/
def scH : Nat := 0
def scC : Nat := 1
def scK : Nat := 2
def scD : Nat := 3
def scP : Nat := 4
def scX : Nat := 5
def scS : Nat := 6

/-- R136, R168: an acquire at a scope: C or wider invalidates the core's whole lane L1. -/
def State.acquire (s : State) (core scope : Nat) : State :=
  if scope ≥ scC then s.modCore core (fun c => { c with l1 := [] }) else s

/-- R168, R169: a release of a hart is complete: its writes are performed, its touched-bank mask is cleared by a scope of
K or wider, the far bit by X and S. -/
def State.released (s : State) (k scope : Nat) : State :=
  if scope ≤ scC then s
  else
    (s.drainCore (coreOf k)).modHarts (fun j _ => j == k) (fun _ h =>
      { h with dev := { h.dev with tbm := 0, tbmf := h.dev.tbmf && decide (scope < scX) } })

/-- R168: a release of a hart at a scope has something to wait for: marked slice groups, far writes, or writes in flight. -/
def State.marked (s : State) (k scope : Nat) : Bool :=
  (s.core (coreOf k)).flight.any (fun f => f.hart == k) ||
  (match s.hart? k with
    | none => false
    | some h => h.dev.tbm != 0 || (h.dev.tbmf && decide (scX ≤ scope)))

/-- R168: whether a release of the acting hart at a scope has to wait for echoes: narrower scopes complete at issue. -/
def State.releaseWaits (s : State) (k scope : Nat) : Bool :=
  decide (scC < scope) && (decide (s.latency ≠ 0) || s.echoHeld k)

/-- R93, R168: the acting hart waits for the echoes of a release and then performs `i`; one whose stores wait for the
host (R315) waits for them first. -/
def State.awaitRelease (s : State) (i : Instr) : State :=
  let s1 := (s.popLatency).nextTag
  let s2 := s1.modCur (fun h => h.park (.release s1.tag i) s.now)
  if s.echoHeld s.cur then s2 else s2.plan s.latency .releaseComplete { nats := [s.cur, s1.tag] }

/-- R168, R315: releases that waited for a hart's held stores go on. -/
def State.wakeRelease (s : State) (k : Nat) : State :=
  match s.hart? k with
  | none => s
  | some h =>
    match h.run.wait with
    | some (.release tag _) => if s.echoHeld k then s else (s.popLatency).plan s.latency .releaseComplete { nats := [k, tag] }
    | _ => s

/-- R168: a release of the acting hart at a scope, and then what follows it; `i` is the instruction, performed by the
completion event where the release has to wait. -/
def State.releasing (s : State) (scope : Nat) (i : Instr) (f : State → State) : State :=
  if scope ≤ scC then f s
  else if !s.marked s.cur scope then f (s.released s.cur scope)
  else if s.releaseWaits s.cur scope then s.awaitRelease i
  else f ((s.popLatency).released s.cur scope)

end Sys2Proof.Machine
end

