-- ==== Sys2Proof/Machine/Translate.lean ====
section
/-! DEFINITION. Stage 1: TLBs, permissions, the miss queue of the translation service core and its walks (R302 to R310). -/

namespace Sys2Proof.Machine

open Sys2Proof

/-- R304: what an access does with a page. -/
inductive AccKind where
  | load | store | fetch
  deriving DecidableEq, Repr

/-- R362: the page-fault cause of an access. -/
def AccKind.pageCause : AccKind → Nat
  | .load => 13 | .store => 15 | .fetch => 12

/-- R362: the access-fault cause of an access. -/
def AccKind.accessCause : AccKind → Nat
  | .load => 5 | .store => 7 | .fetch => 1

/-- R20: bits of a page of a size code. -/
def pageBits (size : Nat) : Nat := match size with | 0 => 12 | 1 => 16 | 2 => 21 | _ => 26

/-- R75: the fields of `satp`. -/
def satpMode (v : DWord) : Nat := bits v.toNat 63 60
def satpAsid (v : DWord) : Nat := bits v.toNat 59 44
def satpPpn (v : DWord) : Nat := bits v.toNat 43 0

/-- The GVA[56:12] of an address. -/
def vpnOf (va : DWord) : Nat := bits va.toNat 56 12

/-- R303: an entry covers an address of a partition and ASID. -/
def Leaf.covers (e : Leaf) (part asid : Nat) (va : DWord) : Bool :=
  e.part == part && (e.g || e.asid == asid)
  && vpnOf va / 2 ^ (pageBits e.size - 12) == e.vpn / 2 ^ (pageBits e.size - 12)

/-- R303: the GPA an entry gives. -/
def Leaf.gpa (e : Leaf) (va : DWord) : Nat :=
  e.gpaPage * 4096 / 2 ^ pageBits e.size * 2 ^ pageBits e.size + va.toNat % 2 ^ pageBits e.size

/-- R304: the RISC-V privileged rules on an entry. -/
def Leaf.permits (e : Leaf) (k : AccKind) (priv : Priv) (sum mxr : Bool) : Bool :=
  (match k with
    | .load => e.r || (mxr && e.x)
    | .store => e.w
    | .fetch => e.x)
  && (match priv with
    | .U => e.u
    | .S => !e.u || (sum && k != .fetch)
    | .M => true)

/-- R303: a TLB with an entry: one of the same page is replaced; a full one gives up an entry of the device's choice
(log entry 10). -/
def tlbInsert (cap : Nat) (fresh : Nat) (tlb : List Leaf) (e : Leaf) : List Leaf :=
  let rest := tlb.filter (fun o => !(o.part == e.part && o.asid == e.asid && o.vpn == e.vpn && o.size == e.size))
  e :: (if rest.length < cap then rest else rest.eraseIdx (Config.victim rest.length fresh % rest.length))

/-- Who translates: the fields of R302 and R304 at the access's issue. -/
structure Ctx where
  part : Nat
  satp : DWord
  priv : Priv
  sum : Bool
  mxr : Bool
  deriving DecidableEq, Repr

/-- R73, R304: the context of a hart's access; MPRV lends MPP's privilege to loads and stores in M. -/
def Hart.ctx (h : Hart) (k : AccKind) : Ctx :=
  { part := h.role.part, satp := h.csr.satp,
    priv := if h.priv == .M && h.status bitMPRV && k != .fetch then h.mpp else h.priv,
    sum := h.status bitSUM, mxr := h.status bitMXR }

/-- R65, R302: the address is canonical under its MODE. -/
def canonical (mode : Nat) (va : DWord) : Bool :=
  match mode with
  | 0 => bits va.toNat 63 52 == 0
  | 9 => bits va.toNat 63 48 == (if va.getLsbD 47 then 2 ^ 16 - 1 else 0)
  | _ => bits va.toNat 63 57 == (if va.getLsbD 56 then 2 ^ 7 - 1 else 0)

/-- What stage 1 answers. -/
inductive Tr where
  | gpa (a : Nat)
  /-- No valid leaf, a reserved bit or a non-canonical address (R305). -/
  | unmapped
  /-- R304. -/
  | denied
  | accessFault
  /-- R386. -/
  | poisoned
  | integrity
  | miss
  deriving DecidableEq, Repr

/-- An entry applied to an access: a store through D = 0 is a miss (R303). -/
def Leaf.answer (e : Leaf) (c : Ctx) (va : DWord) (k : AccKind) : Tr :=
  if !e.permits k c.priv c.sum c.mxr then .denied
  else if k == .store && !e.d then .miss
  else .gpa (e.gpa va)

/-- R20, R306: the entry that covers an address, from the TLBs of a core, its cluster and its die, with its level. -/
def State.tlbFind (s : State) (core : Nat) (part asid : Nat) (va : DWord) : Option (Leaf × Nat) :=
  match (s.core core).tlb.find? (fun e => e.covers part asid va) with
  | some e => some (e, 1)
  | none => match (s.cluster (core / 8)).tlb.find? (fun e => e.covers part asid va) with
    | some e => some (e, 2)
    | none => match (s.die (core / 256)).tlb.find? (fun e => e.covers part asid va) with
      | some e => some (e, 3)
      | none => none

/-- R302 to R304, R308: stage 1 for an access of a context, with the walk results its instruction holds. -/
def State.stage1 (s : State) (core : Nat) (c : Ctx) (walks : List (Nat × WalkResult)) (va : DWord) (k : AccKind) : Tr :=
  if c.priv = .M then .gpa va.toNat
  else if !canonical (satpMode c.satp) va then .unmapped
  else if satpMode c.satp = 0 then .gpa va.toNat
  else
    match walks.find? (fun w => w.1 == vpnOf va) with
    | some (_, .leaf e) => e.answer c va k
    | some (_, .fault) => .unmapped
    | some (_, .accessFault) => .accessFault
    | some (_, .poisoned) => .poisoned
    | some (_, .integrity) => .integrity
    | none =>
      match s.tlbFind core c.part (satpAsid c.satp) va with
      | some (e, _) => e.answer c va k
      | none => .miss

/-- R306: an entry found beyond the core's L1 TLB is entered there. -/
def State.fillL1 (s : State) (core : Nat) (c : Ctx) (va : DWord) : State :=
  match s.tlbFind core c.part (satpAsid c.satp) va with
  | some (e, lvl) =>
    if lvl = 1 then s
    else (s.modCore core (fun k => { k with tlb := tlbInsert 64 s.fresh k.tlb e })).drawn
  | none => s

/-- R307: entries of a partition in a miss queue. -/
def tscHeld (q : List TscEntry) (p : Nat) : Nat := (q.filter (·.part == p)).length

/-- R307: partitions with a hart resident in a cluster. -/
def State.residentParts (s : State) (cl : Nat) : List Nat :=
  ((s.harts.filter (fun e => decide (e.1 < 32768) && clusterOf e.1 == cl)).map (fun e => e.2.role.part)).eraseDups

/-- R307: the queue grants a new entry to a partition: every other resident partition could still obtain 4. -/
def State.tscGrants (s : State) (cl p : Nat) : Bool :=
  let q := (s.cluster cl).tscq
  let owed := ((s.residentParts cl).filter (· != p)).foldl (fun a o => a + (4 - tscHeld q o)) 0
  decide (q.length + 1 + owed ≤ 512)

/-- R307: a miss of a requester (a hart, or 65536 + cluster × 64 + job slot) joins or takes an entry; false where none can
be granted. -/
def State.queueMiss (s : State) (cl req : Nat) (c : Ctx) (va : DWord) (k : AccKind) (eng : Nat) : State × Bool :=
  let q := (s.cluster cl).tscq
  let same := fun (e : TscEntry) => e.part == c.part && e.satp == c.satp && e.vpn == vpnOf va
  if q.any same then
    (s.modCluster cl (fun v => { v with tscq := v.tscq.map (fun e =>
      if same e then { e with requesters := if e.requesters.contains req then e.requesters else e.requesters ++ [req],
                              store := e.store || k == .store } else e) }), true)
  else if s.tscGrants cl c.part then
    let s1 := s.nextTag
    let e : TscEntry := ⟨s1.tag, c.part, c.satp, vpnOf va, k == .store, eng, [req], none, va⟩
    let s2 := s1.modCluster cl (fun v => { v with tscq := v.tscq ++ [e] })
    ((s2.popLatency).plan s.latency .tscWalk { nats := [cl, s1.tag] }, true)
  else (s, false)

/-- R302 to R305, R311: the GPA of an access of the acting hart: a page fault, an access fault where no range holds it, a
wait on the walk. -/
def State.translate (s : State) (h : Hart) (va : DWord) (k : AccKind) : Acc Nat :=
  let c := h.ctx k
  let core := coreOf s.cur
  match s.stage1 core c h.run.walks va k with
  | .unmapped => .trap k.pageCause va false s
  | .denied => .trap k.pageCause va false s
  | .accessFault => .trap k.accessCause va false s
  | .poisoned => .trap k.accessCause va true s
  | .integrity => .trap 28 va false s
  | .miss =>
    match s.queueMiss (clusterOf s.cur) s.cur c va k 0 with
    | (s1, true) => .park .walk s1
    | (s1, false) => .park .queueFull s1
  | .gpa a =>
    match s.part? h.role.part with
    | none => .trap k.accessCause va false s
    | some p =>
      match p.range? a with
      | none => .trap k.accessCause va false s
      | some _ => if c.priv = .M then .ok a s else .ok a (s.fillL1 core c va)

/-- R315, R339, R386: a line of a scalar access of the acting hart stands at its home slice, or what happens instead. -/
def State.lineFor (s : State) (h : Hart) (va : DWord) (gpa : Nat) (k : AccKind) : Acc Unit :=
  if h.run.declined.contains (gpa / 4096) then .trap k.pageCause va false s
  else if h.run.failedPages.contains (gpa / 4096) then .trap 28 va false s
  else if k != .fetch && s.heldAt (coreOf s.cur) h.role.part gpa then
    let j := (s.leaveRecords s.cur).joinHeld h.role.part gpa
    .park j.1 j.2
  else
    match s.atHome h.role.part gpa with
    | .ready s1 => .ok () s1
    | .far _ => .ok () s
    | .absent c t => .park .replay ((t.leaveRecords s.cur).raiseRecord
        { blankRec h.role.part c gpa 0 (coreOf s.cur) (slotOf s.cur) va (k == .store) with harts := [s.cur] })
    | .integrity t => .trap 28 va false (t.integrityError h.role.part gpa 0 (coreOf s.cur) (slotOf s.cur) va)
    | .poisoned t => .trap k.accessCause va true t
    | .outside => .trap k.accessCause va false s
    | .dieDown d => .park (.die d) s
    | .lost => .trap k.accessCause va true s

/-- What a stage-1 walk comes to. -/
inductive WalkOut where
  | res (r : WalkResult) (s : State)
  /-- R320: a stage-2 fault at a table entry; with cause 0, its home die accepts no requests (R355). -/
  | held (cause gpa : Nat) (s : State)

/-- R306: a table entry read at its home slice by the TSC. -/
def State.readTable (s : State) (part gpa n : Nat) (f : Nat → State → WalkOut) : WalkOut :=
  match s.readHome part gpa n with
  | .val b s1 => f (natOfBytes b) s1
  | .no (.absent c t) => .held c gpa t
  | .no (.integrity t) => .res .integrity (t.integrityError part gpa 4 0 0 0)
  | .no (.poisoned t) => .res .poisoned t
  | .no .outside => .res .accessFault s
  | .no (.dieDown _) => .held 0 gpa s
  | .no .lost => .res .poisoned s
  | .no (.ready _) => .res .fault s
  | .no (.far _) => .res .fault s

/-- R303: a table entry's number at a level: PTE index. -/
def svIndex (va : Nat) (level : Nat) : Nat := va / 2 ^ (12 + 9 * level) % 512

/-- R303: a leaf PTE at a level as a TLB entry; none where it is misaligned or its NAPOT encoding is not accepted. -/
def svLeaf (pte va level part asid : Nat) : Option Leaf :=
  let ppn := bits pte 53 10
  let napot := pte.testBit 63
  let perm := fun (vpn size page : Nat) =>
    ({ part := part, asid := asid, vpn := vpn, size := size, gpaPage := page, r := pte.testBit 1, w := pte.testBit 2,
       x := pte.testBit 3, u := pte.testBit 4, g := pte.testBit 5, d := pte.testBit 7 } : Leaf)
  let vpn := bits va 56 12
  if level = 0 then
    if napot then (if ppn % 16 = 8 then some (perm (vpn / 16 * 16) 1 (ppn / 16 * 16)) else none)
    else some (perm vpn 0 ppn)
  else if napot then none
  else if ppn % 2 ^ (9 * level) ≠ 0 then none
  else if level = 1 then some (perm (vpn / 512 * 512) 2 ppn)
  else some (perm (vpn / 2 ^ 14 * 2 ^ 14) 3 (ppn + vpn % 2 ^ (9 * level) / 2 ^ 14 * 2 ^ 14))

/-- R303, R305: a walk of Sv48 or Sv57 tables from a level; A is set, and D for a store the leaf permits. -/
def State.svWalk (part asid : Nat) (va : Nat) (store : Bool) : Nat → Nat → State → WalkOut
  | 0, _, s => .res .fault s
  | level + 1, table, s =>
    let at_ := table * 4096 + 8 * svIndex va level
    s.readTable part at_ 8 (fun pte s1 =>
      let r := pte.testBit 1
      let w := pte.testBit 2
      let x := pte.testBit 3
      if !pte.testBit 0 || (!r && w) || bits pte 62 54 != 0 then .res .fault s1
      else if r || x then
        match svLeaf pte va level part asid with
        | none => .res .fault s1
        | some e =>
          let dirty := store && w
          let pte' := pte ||| (if dirty then 0xC0 else 0x40)
          let s2 := if pte' = pte then s1 else s1.writeHome part at_ (bytesOfNat pte' 8) none
          .res (.leaf { e with d := e.d || dirty }) s2
      else if pte.testBit 63 || pte.testBit 4 || pte.testBit 6 || pte.testBit 7 then .res .fault s1
      else State.svWalk part asid va store level (bits pte 53 10) s1)

/-- R310: the bucket a page number of a size falls into. -/
def hashBucket (vpn z n : Nat) : Nat := ((vpn ^^^ (z * 2 ^ 45)) * 0x9E3779B97F4A7C15 % 2 ^ 64) / 2 ^ (64 - n)

/-- R310: one 32-byte entry matches. -/
def hashMatch (e vpn z asid : Nat) : Bool :=
  e.testBit 0 && bits e 9 8 == z && bits e 108 64 == vpn && (e.testBit 5 || bits e 31 16 == asid)

/-- R310: the four entries of a bucket searched in order; `none` continues with the next size. -/
def State.hashBucketSearch (part asid vpn z : Nat) (store : Bool) (bucket : Nat) (next : State → WalkOut) :
    List Nat → State → WalkOut
  | [], s => next s
  | i :: is, s =>
    s.readTable part (bucket + 32 * i) 32 (fun e s1 =>
      if hashMatch e vpn z asid then
        let k := pageBits z - 12
        if bits e 15 10 != 0 || bits e 63 32 != 0 || bits e 127 109 != 0 || bits e 255 168 != 0
            || bits e 108 64 % 2 ^ k != 0 || bits e 167 128 % 2 ^ k != 0 then .res .fault s1
        else
          let dirty := store && e.testBit 2
          let e' := e ||| (if dirty then 0xC0 else 0x40)
          let s2 := if e' = e then s1 else s1.writeHome part (bucket + 32 * i) (bytesOfNat (e' % 2 ^ 64) 8) none
          .res (.leaf { part := part, asid := asid, vpn := vpn, size := z, gpaPage := bits e 167 128, r := e.testBit 1,
                        w := e.testBit 2, x := e.testBit 3, u := e.testBit 4, g := e.testBit 5,
                        d := e.testBit 7 || dirty }) s2
      else State.hashBucketSearch part asid vpn z store bucket next is s1)

/-- R310: the sizes present are probed from 64 MiB down to 4 KiB. -/
def State.hashSizes (part asid va : Nat) (store : Bool) (n szm bkt : Nat) : List Nat → State → WalkOut
  | [], s => .res .fault s
  | z :: zs, s =>
    if szm.testBit z then
      let k := pageBits z - 12
      let vpn := bits va 56 12 / 2 ^ k * 2 ^ k
      State.hashBucketSearch part asid vpn z store (bkt + 128 * hashBucket vpn z n)
        (State.hashSizes part asid va store n szm bkt zs) [0, 1, 2, 3] s
    else State.hashSizes part asid va store n szm bkt zs s

/-- R310: a walk of the hashed layout. -/
def State.hashWalk (s : State) (part asid va ppn : Nat) (store : Bool) : WalkOut :=
  s.readTable part (ppn * 4096) 32 (fun hd s1 =>
    let n := bits hd 4 0
    if n < 6 ∨ 30 < n ∨ bits hd 7 5 ≠ 0 ∨ bits hd 63 12 ≠ 0 ∨ bits hd 255 128 ≠ 0 ∨ bits hd 127 64 % 128 ≠ 0 then .res .fault s1
    else State.hashSizes part asid va store n (bits hd 11 8) (bits hd 127 64) [3, 2, 1, 0] s1)

/-- R302, R303, R310: the walk of a queued miss. -/
def State.walk (s : State) (e : TscEntry) : WalkOut :=
  let va := e.vpn * 4096
  match satpMode e.satp with
  | 9 => State.svWalk e.part (satpAsid e.satp) va e.store 4 (satpPpn e.satp) s
  | 10 => State.svWalk e.part (satpAsid e.satp) va e.store 5 (satpPpn e.satp) s
  | 14 => s.hashWalk e.part (satpAsid e.satp) va (satpPpn e.satp) e.store
  | _ => .res .fault s

/-- R306, R379: a leaf entered into the cluster's L2 TLB and the die's last-level TLB. -/
def State.tlbFill (s : State) (cl : Nat) (e : Leaf) : State :=
  ((s.modCluster cl (fun c => { c with tlb := tlbInsert 2048 s.fresh c.tlb e })).drawn).modDie (cl / 32)
    (fun d => { d with tlb := tlbInsert 65536 (s.fresh + 1) d.tlb e }) |>.drawn

end Sys2Proof.Machine
end

