-- ==== Sys2Proof/Machine/Dispatcher.lean ====
section
/-! DEFINITION. Accesses that a dispatcher makes for a launch or a queue (R82, R84, R99, R111): translated under the
launch's `satp`, performed at the home slice. -/

namespace Sys2Proof.Machine

open Sys2Proof

/-- R82: queues by partition and number. -/
def queueKey (part q : Nat) : Nat := part * 256 + q

def State.queue? (s : State) (part q : Nat) : Option Queue := Map.find s.queues (queueKey part q)

def State.modQueue (s : State) (part q : Nat) (f : Queue → Queue) : State :=
  match s.queue? part q with
  | none => s
  | some v => { s with queues := Map.put s.queues (queueKey part q) (f v) }

/-- R88: the dispatchers look for a unit to place. -/
def State.kickDispatch (s : State) : State := (s.popLatency).plan s.latency .placeUnit {}

/-- R87: packets that were checked may activate. -/
def State.kickActivate (s : State) (part : Nat) : State :=
  s.queues.foldl (fun t e => if e.1 / 256 == part && e.2.checked then t.plan 0 .launchActivate { nats := [part, e.1 % 256] } else t) s

/-- R315, R320: a replayable fault of a dispatcher's access: the cause (0: its home die accepts no requests, R355), the GPA, and
the GVA of the walk that met it, if it was one. -/
structure DispWait where
  cause : Nat
  gpa : Nat
  walk : Option DWord := none

/-- R316, R320: the record of such a fault. -/
def DispWait.record (w : DispWait) (part : Nat) (wr : Bool) : FaultRec :=
  match w.walk with
  | none => blankRec part w.cause w.gpa 6 0 0 0 wr
  | some va => { blankRec part (if w.cause = 2 then 2 else 3) w.gpa 4 0 0 va wr with reng := if w.cause = 2 then 0 else 6 }

/-- What a dispatcher's access comes to. -/
inductive Disp (α : Type) where
  | ok (a : α) (s : State)
  | wait (w : DispWait) (s : State)
  /-- R315: a fault that cannot be resolved, or poison (R386) or an integrity failure (R339). -/
  | fail (s : State)

def Disp.bind {α β : Type} (r : Disp α) (f : α → State → Disp β) : Disp β :=
  match r with
  | .ok a s => f a s
  | .wait w s => .wait w s
  | .fail s => .fail s

/-- R302: a dispatcher's translation of a GVA under a `satp`; the walk is its own. -/
def State.dispGpa (s : State) (part : Nat) (satp va : DWord) : Disp Nat :=
  if !canonical (satpMode satp) va then .fail s
  else if satpMode satp = 0 then .ok va.toNat s
  else
    match s.walk ⟨0, part, satp, vpnOf va, false, 6, [], none, va⟩ with
    | .res (.leaf e) s1 => .ok (e.gpa va) s1
    | .res _ s1 => .fail s1
    | .held c g s1 => .wait ⟨c, g, some va⟩ s1

/-- A dispatcher's read of n bytes within one line, by GPA. -/
def State.dispReadGpa (s : State) (part gpa n : Nat) : Disp Nat :=
  match s.readHome part gpa n with
  | .val b s1 => .ok (natOfBytes b) s1
  | .no (.absent c t) => .wait ⟨c, gpa, none⟩ t
  | .no (.dieDown _) => .wait ⟨0, gpa, none⟩ s
  | .no (.integrity t) => .fail (t.integrityError part gpa 6 0 0 0)
  | .no _ => .fail s

def State.dispRead (s : State) (part : Nat) (satp va : DWord) (n : Nat) : Disp Nat :=
  (s.dispGpa part satp va).bind fun gpa s1 => s1.dispReadGpa part gpa n

/-- A dispatcher's write within one line, by GPA, performed at the home slice. -/
def State.dispWriteGpa (s : State) (part gpa : Nat) (bs : List Byte) : Disp Unit :=
  match s.atHome part gpa with
  | .ready s1 => .ok () (s1.writeHome part gpa bs none)
  | .far _ => .ok () (s.writeHome part gpa bs none)
  | .absent c t => .wait ⟨c, gpa, none⟩ t
  | .dieDown _ => .wait ⟨0, gpa, none⟩ s
  | .lost => .fail s
  | .integrity t => .fail (t.integrityError part gpa 6 0 0 0)
  | .poisoned t => .ok () (t.writeHome part gpa bs none)
  | .outside => .fail s

def State.dispWrite (s : State) (part : Nat) (satp va : DWord) (bs : List Byte) : Disp Unit :=
  (s.dispGpa part satp va).bind fun gpa s1 => s1.dispWriteGpa part gpa bs

/-- The `satp` of a launch's queue. -/
def State.launchSatp (s : State) (l : Launch) : DWord :=
  match s.queue? l.part l.q with
  | none => 0
  | some q => q.satp

/-- R104: the address of child record `i` of an open launch. -/
def Launch.ringSlot (l : Launch) (i : Nat) : DWord := l.pkt.mode + BitVec.ofNat 64 (16 * (i % (max l.pkt.count 1)))

/-- R104, R315, R355: a child record written to an open launch's ring on a hart's behalf, as a store of the hart: held while
its walk or its page waits; one that can never be written voids the child and fails the hart's launch (log entry 19). -/
def State.dispStore (s : State) (l : Launch) (va : DWord) (bs : List Byte) (hart : Nat) (launch : Option Nat) (child : Nat × Nat) : State :=
  let f : Flight := { hart := hart, space := 4, owner := l.part, addr := 0, bytes := bs, held := true, gva := va, launch := launch,
                      child := some child }
  match s.dispGpa l.part (s.launchSatp l) va with
  | .ok gpa s1 => s1.performFlight { f with space := 0, addr := gpa, held := false }
  | .wait w s1 =>
    let s2 := s1.holdFlight { f with addr := w.gpa }
    if w.cause = 0 then s2 else s2.raiseRecord { w.record l.part true with stores := [(coreOf hart, hart)] }
  | .fail s1 =>
    match launch with
    | none => s1.voidChild child.1 child.2
    | some m => (((s1.voidChild child.1 child.2).popLatency)).plan s1.latency .launchFail { nats := [m] }

/-- R315, R355: a held write goes on. -/
def State.goHeld (s : State) (f : Flight) : State :=
  match f.space, f.child with
  | 4, some c =>
    (match s.launch? c.1 with
    | none => s
    | some l => s.dispStore l f.gva f.bytes f.hart f.launch c)
  | _, _ => s.performFlight { f with held := false }

/-- The held writes of a partition, with what each waits for. -/
def Flight.waitsAt (f : Flight) : Bool := f.held && (f.space == 0 || f.space == 4)

end Sys2Proof.Machine
end

