-- ==== Sys2Proof/Machine/Ordered.lean ====
section
/-! DEFINITION. Ordered launches (R105, R172 to R178): speculative buffers and read logs, commit, abort and
non-speculative execution. A launch keeps its uncommitted items in age order. -/

namespace Sys2Proof.Machine

open Sys2Proof

/-- R172: age order: ascending timestamp, ties in ascending index. -/
def OrdItem.before (a b : OrdItem) : Bool := decide (a.ts < b.ts) || (a.ts == b.ts && decide (a.index < b.index))

/-- An item entered at its place in the age order. -/
def insertItem (a : OrdItem) : List OrdItem → List OrdItem
  | [] => [a]
  | b :: bs => if a.before b then a :: b :: bs else b :: insertItem a bs

/-- The item that a lane of a hart holds. -/
def Launch.itemAt (l : Launch) (k lane : Nat) : Option OrdItem := l.items.find? (fun i => i.holder == some (k, lane))

/-- Items by index: one changed. -/
def Launch.modItem (l : Launch) (index : Nat) (f : OrdItem → OrdItem) : Launch :=
  { l with items := l.items.map (fun i => if i.index = index then f i else i) }

/-- R176: the items held by a hart's lanes, and those its lanes have exited. -/
def Launch.heldBy (l : Launch) (k : Nat) : List OrdItem :=
  l.items.filter (fun i => match i.holder with
    | some (h, _) => h == k
    | none => false)

def Launch.exitedBy (l : Launch) (k : Nat) : List OrdItem := l.items.filter (fun i => i.hart == k && i.exited)

/-- R173: a line as the read log and the commit name it: space and owner in one number, and the line. -/
def lineName (space owner addr : Nat) : Nat × Nat := (owner * 8 + space, addr / 128)

/-- The lines an item's buffered bytes lie in. -/
def OrdItem.lines (i : OrdItem) : List (Nat × Nat) := (i.buf.map (fun b => lineName b.1 b.2.1 b.2.2.1)).eraseDups

/-- R173: sectors of 32 bytes an item holds. -/
def OrdItem.sectors (i : OrdItem) : List (Nat × Nat × Nat) := (i.buf.map (fun b => (b.1, b.2.1, b.2.2.1 / 32))).eraseDups

/-- R173: items whose speculative state lies in a core's buffers. -/
def State.itemsOnCore (s : State) (core : Nat) : List OrdItem :=
  (s.launches.map (fun e => e.2.items.filter (fun i => i.core == core && !i.nonspec && (i.claimed || i.exited)))).flatten

def State.sectorsUsed (s : State) (core : Nat) : Nat := ((s.itemsOnCore core).map (fun i => i.sectors.length)).sum

def State.logUsed (s : State) (core : Nat) : Nat := ((s.itemsOnCore core).map (fun i => i.reads.length)).sum

/-- R111, R105: a caller's item has committed: its child record becomes claimable, once it is written; its effective
timestamp is written to the ring. -/
def State.releaseChild (s : State) (t index hart : Nat) : State :=
  let s1 := (s.modLaunch t (fun l => { l with children := l.children.map (fun d =>
    if d.index = index then { d with loose := true } else d) })).freeChild t index
  match s1.launch? t with
  | none => s1
  | some l =>
    match l.children.find? (fun c => c.index == index) with
    | none => s1
    | some c =>
      match c.at_ with
      | some a => if l.pkt.ordered && c.claimable then
          s1.performFlight (s1.owned { hart := hart, space := 0, owner := l.part, addr := a, bytes := bytesOfNat c.ts 8, held := false,
                                       gva := l.ringSlot index, child := some (t, index) })
        else s1
      | none => s1

/-- R95, R175: a lane loses its item. -/
def Hart.vacate (h : Hart) (lane : Nat) : Hart :=
  { h with lanes := { h.lanes with em := setMask h.lanes.em lane false, occ := setMask h.lanes.occ lane false } }

/-- R175: the lane registers that an instruction which may wait writes. -/
def waitingDest (i : Instr) : List Nat :=
  match i with
  | .lld m _ => m.vd.toNat :: (if m.size = 3 then [m.vd.toNat + 1] else [])
  | .lldImm m _ => m.vd.toNat :: (if m.size = 3 then [m.vd.toNat + 1] else [])
  | .lldt m _ => (upTo 32).map (· + m.vd.toNat)
  | .lldtImm m _ => (upTo 32).map (· + m.vd.toNat)
  | .lamo m _ _ _ _ => m.vd.toNat :: (if m.size = 3 then [m.vd.toNat + 1] else [])
  | _ => []

/-- R15, R64: a word of an instruction-cache line. -/
def lineWord (d : BitVec 1024) (gpa : Nat) : Word := (d >>> (8 * (gpa % 128))).setWidth 32

/-- A word of code as its core's instruction cache holds it. -/
def State.cachedWord (s : State) (k : Nat) (h : Hart) (va : DWord) : Option Word :=
  let gpa := if h.priv = .M ∨ satpMode h.csr.satp = 0 then some va.toNat
    else (s.tlbFind (coreOf k) h.role.part (satpAsid h.csr.satp) va).map (fun e => e.1.gpa va)
  gpa.bind (fun g => (Map.find (s.core (coreOf k)).icache (lineKey h.role.part g)).map (fun l => lineWord l.data g))

/-- The instruction at a hart's pc, which has begun: its words are cached. -/
def State.begun (s : State) (k : Nat) (h : Hart) : Option Instr :=
  (s.cachedWord k h h.pc).bind (fun lo => match decode lo ((s.cachedWord k h (h.pc + 4)).getD 0) with
    | .ok i => some i
    | .error _ => none)

/-- R175: the lane registers that a hart's in-flight instruction writes. -/
def State.inFlightDest (s : State) (k : Nat) (h : Hart) : List Nat :=
  match h.run.wait with
  | some (.data _ i) => waitingDest i
  | some (.release _ i) => waitingDest i
  | some (.lock _ (some i)) => waitingDest i
  | some .replay | some .walk | some .queueFull | some (.die _) => ((s.begun k h).map waitingDest).getD []
  | _ => []

/-- R175: the registers an aborted lane's in-flight instruction writes hold undefined values. -/
def State.clobber (s : State) (k lane : Nat) : List Nat → State
  | [] => s
  | r :: rs => ((s.modHarts (fun j _ => j == k) (fun _ h => h.setV r lane (s.free 32))).drawn).clobber k lane rs

/-- R175: what an abort leaves of an item: it is requeued. -/
def OrdItem.requeue (i : OrdItem) : OrdItem :=
  { i with holder := none, claimed := false, exited := false, buf := [], reads := [], flags := 0, children := [] }

/-- R175: an abort: the item's buffers and log are discarded, its children voided; it is requeued in its place in the age
order, and a lane that holds it becomes vacant. -/
def State.abortItem (s : State) (l index : Nat) : State :=
  match s.launch? l with
  | none => s
  | some L =>
    match L.items.find? (fun i => i.index == index) with
    | none => s
    | some i =>
      if i.nonspec then s
      else
        let s1 := i.children.foldl (fun t c => t.voidChild c.1 c.2) s
        let s2 := (s1.modLaunch l (fun M => { M.modItem index OrdItem.requeue with requeued := M.requeued ++ [index] })).kickDispatch
        match i.holder with
        | none => s2
        | some (k, lane) =>
          match s2.hart? k with
          | none => s2
          | some h => (s2.setHart k (h.vacate lane)).clobber k lane (s2.inFlightDest k h)

/-- R174, R175: lines written by a commit or a non-speculative write reach every core: every other uncommitted item of the
launch that has one in its read log is aborted. -/
def State.sendLines (s : State) (l : Nat) (but : List Nat) (lines : List (Nat × Nat)) : State :=
  match s.launch? l with
  | none => s
  | some L =>
    let hit := L.items.filter (fun i => !i.nonspec && !but.contains i.index && i.reads.any (fun r => lines.contains r))
    hit.foldl (fun t i => t.abortItem l i.index) s

/-- A buffered byte in order of space code and then address (R174). -/
def bufBefore (a b : Nat × Nat × Nat × Byte) : Bool :=
  decide (a.1 < b.1) || (a.1 == b.1 && (decide (a.2.1 < b.2.1) || (a.2.1 == b.2.1 && decide (a.2.2.1 ≤ b.2.2.1))))

def insertBuf (a : Nat × Nat × Nat × Byte) : List (Nat × Nat × Nat × Byte) → List (Nat × Nat × Nat × Byte)
  | [] => [a]
  | b :: bs => if bufBefore a b then a :: b :: bs else b :: insertBuf a bs

/-- R174: an item's buffered bytes performed at their places. -/
def State.performBuf (s : State) (l : Nat) (i : OrdItem) : State :=
  (i.buf.foldl (fun acc b => insertBuf b acc) []).foldl (fun t b =>
    t.performFlight { hart := i.hart, space := b.1, owner := b.2.1, addr := b.2.2.1, bytes := [b.2.2.2], held := false,
                      gva := 0, launch := some l }) s

/-- R176: the instruction of a hart may execute non-speculatively now. -/
def Launch.mayGo (l : Launch) (k : Nat) : Bool :=
  match l.items.head? with
  | none => true
  | some o => match o.holder with
    | some (h, _) => h == k || ((l.heldBy k).isEmpty && (l.exitedBy k).isEmpty)
    | none => ((l.heldBy k).isEmpty && (l.exitedBy k).isEmpty) || (!o.claimed && !o.exited)

/-- R93: the waits of R176 that may end are ended. -/
def State.wakeOrdered (s : State) (l : Nat) : State :=
  match s.launch? l with
  | none => s
  | some L =>
    s.harts.foldl (fun t e =>
      if e.2.role.launch == some l && e.2.run.wait == some .ordered && L.mayGo e.1 then
        (t.popLatency).plan t.latency .orderedStallEnd { nats := [e.1] }
      else t) s

/-- R176: the run of the oldest items that a hart holds. -/
def leadRun (k : Nat) : List OrdItem → List OrdItem
  | [] => []
  | i :: is => match i.holder with
    | some (h, _) => if h = k then i :: leadRun k is else []
    | none => []

/-- The lines of global memory that an item's buffered bytes lie in. -/
def OrdItem.homeLines (i : OrdItem) : List (Nat × Nat) :=
  ((i.buf.filter (fun b => b.1 == 0)).map (fun b => (b.2.1, b.2.2.1 / 128 * 128))).eraseDups

/-- R174, R176, R315, R355: buffered writes are performed together: their lines are brought to their home slices first; what
the launch, and with `asHart` the acting hart, wait for where one cannot stand there. -/
def State.standLines (s : State) (l k : Nat) (asHart : Bool) : List (Nat × Nat) → Option Wait × State
  | [] => (none, s)
  | (o, a) :: ls =>
    let r : Option Wait × State :=
      if s.heldAt (coreOf k) o a then
        (if asHart then (some (s.joinHeld o a).1, (s.joinHeld o a).2) else (some .replay, s))
      else match s.atHome o a with
        | .ready t => (none, t)
        | .absent c t => (some .replay, t.raiseRecord
            { blankRec o c a 6 0 0 0 true with harts := if asHart then [k] else [], launches := [l] })
        | .dieDown d => (some (.die d), s)
        | _ => (none, s)
    let q := r.2.standLines l k asHart ls
    (match r.1 with
      | none => q.1
      | some w => some w, q.2)

/-- R176: items of the run, by index, become non-speculative, in age order; where a line that one of them writes aborts a later
one, the run ends there and the rest of it is aborted (log entry 127). -/
def State.goDirect (s : State) (l k : Nat) : List Nat → State
  | [] => s
  | n :: ns =>
    match (s.launch? l).bind (fun L => L.items.find? (fun i => i.index == n)) with
    | none => s
    | some i =>
      if i.holder.map (·.1) == some k then
        let s1 := s.performBuf l i
        let s2 := s1.modLaunch l (fun L => L.modItem n (fun j => { j with nonspec := true, buf := [], reads := [] }))
        (s2.sendLines l [n] i.lines).goDirect l k ns
      else ns.foldl (fun t m => t.abortItem l m) s

/-- R176: the items that become non-speculative with an instruction of a hart. -/
def Launch.toDirect (l : Launch) (k : Nat) : List OrdItem := (leadRun k l.items).filter (fun i => !i.nonspec)

/-- R176: a hart's instruction executes non-speculatively: the state it executes in. -/
def State.nonSpeculative (s : State) (l k : Nat) : State :=
  match s.launch? l with
  | none => s
  | some L =>
    let q := leadRun k L.items
    let s1 := ((L.heldBy k).filter (fun i => !q.any (fun j => j.index == i.index))).foldl (fun t i => t.abortItem l i.index) s
    s1.goDirect l k ((L.toDirect k).map (·.index))

/-- R176: an instruction of the acting hart that must execute non-speculatively: it waits, or goes on. -/
def State.stalling (s : State) (h : Hart) (f : State → State) : State :=
  if !s.ordered h then f s
  else
    match h.role.launch with
    | none => f s
    | some l =>
      match s.launch? l with
      | none => f s
      | some L =>
        if !L.mayGo s.cur then s.modCur (fun k => k.park .ordered s.now)
        else match s.standLines l s.cur true (((L.toDirect s.cur).map OrdItem.homeLines).flatten) with
          | (some w, t) => t.modCur (fun k => k.park w s.now)
          | (none, t) => f (t.nonSpeculative l s.cur)

/-- R173: a byte as an item reads it: from its own buffer, or none. -/
def OrdItem.own (i : OrdItem) (space owner addr : Nat) : Option Byte :=
  (i.buf.find? (fun b => b.1 == space && b.2.1 == owner && b.2.2.1 == addr)).map (·.2.2.2)

/-- R173: an item's buffer with bytes of one access. -/
def OrdItem.put (i : OrdItem) (space owner addr : Nat) (bs : List Byte) : OrdItem :=
  let rest := i.buf.filter (fun b => !(b.1 == space && b.2.1 == owner && decide (addr ≤ b.2.2.1) && decide (b.2.2.1 < addr + bs.length)))
  { i with buf := rest ++ (bs.zipIdx.map (fun e => (space, owner, addr + e.2, e.1))) }

/-- R173: an item's read of bytes at a place, given what stands there; the line is logged unless the item's own buffer
serves all of them. -/
def OrdItem.read (i : OrdItem) (space owner addr : Nat) (there : List Byte) : List Byte × OrdItem :=
  let vals := there.zipIdx.map (fun e => (i.own space owner (addr + e.2)).getD e.1)
  let whole := (upTo there.length).all (fun j => (i.own space owner (addr + j)).isSome)
  let name := lineName space owner addr
  (vals, if whole || i.nonspec || i.reads.contains name then i else { i with reads := i.reads ++ [name] })

/-- R173: an item's own buffer holds all of n bytes at a place. -/
def OrdItem.owns (i : OrdItem) (space owner addr n : Nat) : Bool := (upTo n).all (fun j => (i.own space owner (addr + j)).isSome)

/-- R174, R315: the lines that the oldest item, exited, is to write stand at their home slices, or what its commit waits for. -/
def State.standOldest (s : State) (l : Nat) : Option Wait × State :=
  match s.launch? l with
  | none => (none, s)
  | some L =>
    match L.items.head? with
    | none => (none, s)
    | some i => if i.exited then s.standLines l i.hart false i.homeLines else (none, s)

/-- R174: the oldest item, exited, commits. -/
def State.commitOldest (s : State) (l : Nat) : State :=
  match s.launch? l with
  | none => s
  | some L =>
    match L.items with
    | [] => s
    | i :: rest =>
      if !i.exited then s
      else
        let s1 := s.performBuf l i
        let s2 := s1.modLaunch l (fun M =>
          let M1 := { M with items := rest, exited := M.exited + 1, flags := M.flags ||| i.flags, frontier := i.ts + 1 }
          if M.pkt.open_ then M1.childGone i.index else M1)
        let s3 := i.children.foldl (fun t c => t.releaseChild c.1 c.2 i.hart) s2
        (s3.sendLines l [] i.lines).wakeOrdered l

end Sys2Proof.Machine
end

