-- ==== Sys2Proof/Machine/Fetch.lean ====
section
/-! DEFINITION. Instruction fetch (R26 to R28, R64) and the checks of the debug comparators (R375). -/

namespace Sys2Proof.Machine

open Sys2Proof

/-- R15: the core's instruction cache, 64 KiB, holds a line. The line that gives way is the device's choice (log entry 10). -/
def State.putIcache (s : State) (core key : Nat) (l : CacheLine) : State :=
  s.modCore core (fun c => { c with icache := Map.put (makeRoom 512 (fun _ => false) (Config.victim c.icache.length s.tag) c.icache key) key l })

/-- R64: one word fetched for the acting hart at an address: from the instruction cache, or from its line at the home
slice, which then enters the cache. -/
def State.fetchWord (s : State) (h : Hart) (va : DWord) : Acc Word :=
  (s.translate h va .fetch).bind fun gpa s1 =>
    match Map.find (s1.core (coreOf s.cur)).icache (lineKey h.role.part gpa) with
    | some l => .ok (lineWord l.data gpa) s1
    | none =>
      (s1.lineFor h va gpa .fetch).bind fun _ s2 =>
        match s2.readHome h.role.part (gpa / 128 * 128) 128 with
        | .val b s3 =>
          let d := BitVec.ofNat 1024 (natOfBytes b)
          .ok (lineWord d gpa) (s3.putIcache (coreOf s.cur) (lineKey h.role.part gpa) { data := d })
        | .no _ => .trap 1 va false s2

/-- R26, R27: the words of the instruction at an address; the second is 0 for a 32-bit one. -/
def State.fetchPair (s : State) (h : Hart) (va : DWord) : Acc (Word × Word) :=
  (s.fetchWord h va).bind fun lo s1 =>
    match wordLength lo with
    | .ok 8 => (s1.fetchWord h (va + 4)).bind fun hi s2 => .ok (lo, hi) s2
    | .ok _ => .ok (lo, 0) s1
    | .error _ => .ok (lo, 0) s1

/-- R375: the fields of a comparator. -/
def cmpEn (c : BitVec 128) : Bool := c.getLsbD 0
def cmpGang (c : BitVec 128) : Bool := c.getLsbD 1
def cmpAddr (c : BitVec 128) : DWord := (c.setWidth 64) &&& ~~~3
def cmpLanes (c : BitVec 128) : Word := c.extractLsb' 64 32
def cmpSlots (c : BitVec 128) : BitVec 16 := c.extractLsb' 96 16
def cmpAcc (c : BitVec 128) : BitVec 2 := c.extractLsb' 112 2

/-- R375: a match counts for this hart and these lanes. -/
def cmpCounts (c : BitVec 128) (h : Hart) (slot : Nat) (lanes : Word) : Bool :=
  cmpEn c && (cmpSlots c).getLsbD slot && (cmpLanes c &&& lanes) != 0
  && (match h.priv with
    | .U => c.getLsbD 114
    | .S => c.getLsbD 115
    | .M => false)

/-- R53, R375: the PC comparator that matches the acting hart's instruction, at one of its words' addresses. -/
def State.pcMatch (s : State) (h : Hart) (lanes : Word) (pcs : List DWord) : Option (BitVec 128) :=
  if h.run.passCmp then none
  else (s.core (coreOf s.cur)).dbg.pcCmp.toList.find? (fun c => cmpCounts c h (slotOf s.cur) lanes && pcs.contains (cmpAddr c))

/-- R375: the data comparator that a space-0 access of the acting hart matches: `acc` 1 loads, 2 stores, 3 both. -/
def State.dataMatch (s : State) (h : Hart) (acc : BitVec 2) (addrs : List (Nat × DWord)) (n : Nat) : Option (BitVec 128) :=
  if h.run.passCmp then none
  else (s.core (coreOf s.cur)).dbg.dataCmp.toList.find? (fun c =>
    (cmpAcc c &&& acc) != 0 && addrs.any (fun a =>
      let first := a.2.toNat / 8
      let last := (a.2.toNat + n - 1) / 8
      let m := bits (cmpAddr c).toNat 63 3
      decide (first ≤ m ∧ m ≤ last) && cmpCounts c h (slotOf s.cur) (if a.1 < 32 then (1 : Word) <<< a.1 else 0xFFFFFFFF)))

/-- R377: a core's stop record. -/
def Core.stopRecord (c : Core) (now : Nat) : BitVec 256 := 0#64 ++ c.nrcvd ++ c.nsent ++ BitVec.ofNat 64 now

/-- R377: an Amber stop of a partition: its cores write their stop records, and every hart of it halts at its next
boundary. -/
def State.amberStop (s : State) (part : Nat) : State :=
  match s.part? part with
  | none => s
  | some p =>
    let s1 := ((upTo 2048).filter (fun c => p.cores.getLsbD c)).foldl (fun t c =>
      t.modCore c (fun k => { k with dbg := { k.dbg with stop := k.stopRecord s.now } })) (s.setPart part { p with stopped := true })
    s1.modHarts (fun _ h => h.role.part == part && !h.run.halted) (fun _ h => { h with run := { h.run with amber := true } })

/-- R376: a hart halts at an instruction boundary. -/
def Hart.halt (h : Hart) : Hart :=
  { h with run := { h.run with halted := true, haltReq := false, stepping := false, pair := none } }

/-- R375, R376: the acting hart halts at a comparator's match. -/
def State.cmpHalt (s : State) (h : Hart) (c : BitVec 128) : State :=
  let s1 := s.modCur Hart.halt
  if cmpGang c then s1.amberStop h.role.part else s1

/-- R375: the acting hart's instruction, halted by a PC comparator or done. -/
def State.pcWatching (s : State) (h : Hart) (lanes : Word) (pcs : List DWord) (f : State → State) : State :=
  match s.pcMatch h lanes pcs with
  | some c => s.cmpHalt h c
  | none => f s

/-- R375: a data access of the acting hart, halted by a comparator or done. -/
def State.watching (s : State) (h : Hart) (acc : BitVec 2) (addrs : List (Nat × DWord)) (n : Nat) (f : State → State) : State :=
  match s.dataMatch h acc addrs n with
  | some c => s.cmpHalt h c
  | none => f s

end Sys2Proof.Machine
end

