-- ==== Sys2Proof/Machine/Scalar.lean ====
section
/-! DEFINITION. The scalar arithmetic of RV64I and M (R61, R62): one shared shape per format, one meaning per instruction. -/

namespace Sys2Proof.Machine

open Sys2Proof

/-- R61: a register-register operation. -/
def aluRR (f : DWord → DWord → DWord) (rd rs1 rs2 : BitVec 5) (s : State) : Out :=
  onHart s fun h => s.retire (h.setX rd (f (h.getX rs1) (h.getX rs2))) 4

/-- R61: a register-immediate operation; the immediate is sign-extended. -/
def aluRI (f : DWord → DWord → DWord) (rd rs1 : BitVec 5) (imm : BitVec 12) (s : State) : Out :=
  onHart s fun h => s.retire (h.setX rd (f (h.getX rs1) (sext64 imm))) 4

/-- R61: a shift by a constant. -/
def aluShift (f : DWord → Nat → DWord) (rd rs1 : BitVec 5) (amt : Nat) (s : State) : Out :=
  onHart s fun h => s.retire (h.setX rd (f (h.getX rs1) amt)) 4

/-- The low word of a result, sign-extended: the W forms. -/
def wordResult (v : DWord) : DWord := sext64 (v.setWidth 32 : Word)

/-- A W form of a 32-bit operation. -/
def onWords (f : Word → Word → Word) (a b : DWord) : DWord := sext64 (f (a.setWidth 32) (b.setWidth 32))

def boolWord (b : Bool) : DWord := if b then 1 else 0

/-- M: the upper half of a product. -/
def mulHigh (a b : Int) : DWord := BitVec.ofInt 64 ((a * b) / 2 ^ 64)

/-- M: division as RISC-V defines it: by zero all ones, overflow the dividend. -/
def divS {n : Nat} (a b : BitVec n) : BitVec n := if b = 0 then -1 else a.sdiv b
def divU {n : Nat} (a b : BitVec n) : BitVec n := if b = 0 then -1 else a / b
def remS {n : Nat} (a b : BitVec n) : BitVec n := if b = 0 then a else a.srem b
def remU {n : Nat} (a b : BitVec n) : BitVec n := if b = 0 then a else a % b

/-- R61. -/
def execAddi (rd rs1 : BitVec 5) (imm : BitVec 12) (s : State) : Out := aluRI (· + ·) rd rs1 imm s

/-- R61. -/
def execSlti (rd rs1 : BitVec 5) (imm : BitVec 12) (s : State) : Out := aluRI (fun a b => boolWord (a.slt b)) rd rs1 imm s

/-- R61. -/
def execSltiu (rd rs1 : BitVec 5) (imm : BitVec 12) (s : State) : Out := aluRI (fun a b => boolWord (a.ult b)) rd rs1 imm s

/-- R61. -/
def execXori (rd rs1 : BitVec 5) (imm : BitVec 12) (s : State) : Out := aluRI (· ^^^ ·) rd rs1 imm s

/-- R61. -/
def execOri (rd rs1 : BitVec 5) (imm : BitVec 12) (s : State) : Out := aluRI (· ||| ·) rd rs1 imm s

/-- R61. -/
def execAndi (rd rs1 : BitVec 5) (imm : BitVec 12) (s : State) : Out := aluRI (· &&& ·) rd rs1 imm s

/-- R61. -/
def execAddiw (rd rs1 : BitVec 5) (imm : BitVec 12) (s : State) : Out := aluRI (fun a b => wordResult (a + b)) rd rs1 imm s

/-- R61. -/
def execSlli (rd rs1 : BitVec 5) (amt : BitVec 6) (s : State) : Out := aluShift (· <<< ·) rd rs1 amt.toNat s

/-- R61. -/
def execSrli (rd rs1 : BitVec 5) (amt : BitVec 6) (s : State) : Out := aluShift (· >>> ·) rd rs1 amt.toNat s

/-- R61. -/
def execSrai (rd rs1 : BitVec 5) (amt : BitVec 6) (s : State) : Out := aluShift (fun a n => a.sshiftRight n) rd rs1 amt.toNat s

/-- R61. -/
def execSlliw (rd rs1 : BitVec 5) (amt : BitVec 5) (s : State) : Out := aluShift (fun a n => sext64 ((a.setWidth 32 : Word) <<< n)) rd rs1 amt.toNat s

/-- R61. -/
def execSrliw (rd rs1 : BitVec 5) (amt : BitVec 5) (s : State) : Out := aluShift (fun a n => sext64 ((a.setWidth 32 : Word) >>> n)) rd rs1 amt.toNat s

/-- R61. -/
def execSraiw (rd rs1 : BitVec 5) (amt : BitVec 5) (s : State) : Out := aluShift (fun a n => sext64 ((a.setWidth 32 : Word).sshiftRight n)) rd rs1 amt.toNat s

/-- R61. -/
def execAdd (rd rs1 rs2 : BitVec 5) (s : State) : Out := aluRR (· + ·) rd rs1 rs2 s

/-- R61. -/
def execSub (rd rs1 rs2 : BitVec 5) (s : State) : Out := aluRR (· - ·) rd rs1 rs2 s

/-- R61. -/
def execSll (rd rs1 rs2 : BitVec 5) (s : State) : Out := aluRR (fun a b => a <<< (b.toNat % 64)) rd rs1 rs2 s

/-- R61. -/
def execSlt (rd rs1 rs2 : BitVec 5) (s : State) : Out := aluRR (fun a b => boolWord (a.slt b)) rd rs1 rs2 s

/-- R61. -/
def execSltu (rd rs1 rs2 : BitVec 5) (s : State) : Out := aluRR (fun a b => boolWord (a.ult b)) rd rs1 rs2 s

/-- R61. -/
def execXor (rd rs1 rs2 : BitVec 5) (s : State) : Out := aluRR (· ^^^ ·) rd rs1 rs2 s

/-- R61. -/
def execSrl (rd rs1 rs2 : BitVec 5) (s : State) : Out := aluRR (fun a b => a >>> (b.toNat % 64)) rd rs1 rs2 s

/-- R61. -/
def execSra (rd rs1 rs2 : BitVec 5) (s : State) : Out := aluRR (fun a b => a.sshiftRight (b.toNat % 64)) rd rs1 rs2 s

/-- R61. -/
def execOr (rd rs1 rs2 : BitVec 5) (s : State) : Out := aluRR (· ||| ·) rd rs1 rs2 s

/-- R61. -/
def execAnd (rd rs1 rs2 : BitVec 5) (s : State) : Out := aluRR (· &&& ·) rd rs1 rs2 s

/-- R61. -/
def execMul (rd rs1 rs2 : BitVec 5) (s : State) : Out := aluRR (· * ·) rd rs1 rs2 s

/-- R61. -/
def execMulh (rd rs1 rs2 : BitVec 5) (s : State) : Out := aluRR (fun a b => mulHigh a.toInt b.toInt) rd rs1 rs2 s

/-- R61. -/
def execMulhsu (rd rs1 rs2 : BitVec 5) (s : State) : Out := aluRR (fun a b => mulHigh a.toInt b.toNat) rd rs1 rs2 s

/-- R61. -/
def execMulhu (rd rs1 rs2 : BitVec 5) (s : State) : Out := aluRR (fun a b => mulHigh a.toNat b.toNat) rd rs1 rs2 s

/-- R62. -/
def execDiv (rd rs1 rs2 : BitVec 5) (s : State) : Out := aluRR divS rd rs1 rs2 s

/-- R62. -/
def execDivu (rd rs1 rs2 : BitVec 5) (s : State) : Out := aluRR divU rd rs1 rs2 s

/-- R62. -/
def execRem (rd rs1 rs2 : BitVec 5) (s : State) : Out := aluRR remS rd rs1 rs2 s

/-- R62. -/
def execRemu (rd rs1 rs2 : BitVec 5) (s : State) : Out := aluRR remU rd rs1 rs2 s

/-- R61. -/
def execAddw (rd rs1 rs2 : BitVec 5) (s : State) : Out := aluRR (onWords (· + ·)) rd rs1 rs2 s

/-- R61. -/
def execSubw (rd rs1 rs2 : BitVec 5) (s : State) : Out := aluRR (onWords (· - ·)) rd rs1 rs2 s

/-- R61. -/
def execSllw (rd rs1 rs2 : BitVec 5) (s : State) : Out := aluRR (onWords (fun a b => a <<< (b.toNat % 32))) rd rs1 rs2 s

/-- R61. -/
def execSrlw (rd rs1 rs2 : BitVec 5) (s : State) : Out := aluRR (onWords (fun a b => a >>> (b.toNat % 32))) rd rs1 rs2 s

/-- R61. -/
def execSraw (rd rs1 rs2 : BitVec 5) (s : State) : Out := aluRR (onWords (fun a b => a.sshiftRight (b.toNat % 32))) rd rs1 rs2 s

/-- R61. -/
def execMulw (rd rs1 rs2 : BitVec 5) (s : State) : Out := aluRR (onWords (· * ·)) rd rs1 rs2 s

/-- R62. -/
def execDivw (rd rs1 rs2 : BitVec 5) (s : State) : Out := aluRR (onWords divS) rd rs1 rs2 s

/-- R62. -/
def execDivuw (rd rs1 rs2 : BitVec 5) (s : State) : Out := aluRR (onWords divU) rd rs1 rs2 s

/-- R62. -/
def execRemw (rd rs1 rs2 : BitVec 5) (s : State) : Out := aluRR (onWords remS) rd rs1 rs2 s

/-- R62. -/
def execRemuw (rd rs1 rs2 : BitVec 5) (s : State) : Out := aluRR (onWords remU) rd rs1 rs2 s

/-- R61: `lui`. -/
def execLui (rd : BitVec 5) (imm : BitVec 20) (s : State) : Out :=
  onHart s fun h => s.retire (h.setX rd (sext64 (imm ++ 0#12))) 4

/-- R61: `auipc`. -/
def execAuipc (rd : BitVec 5) (imm : BitVec 20) (s : State) : Out :=
  onHart s fun h => s.retire (h.setX rd (h.pc + sext64 (imm ++ 0#12))) 4

/-- R27, R107: a jump or taken branch of the acting hart to a target: cause 0 where bit [1] is set, with no other effect;
otherwise the link register is written and the jump is taken. -/
def State.jump (s : State) (h : Hart) (rd : BitVec 5) (target : DWord) : State :=
  if target.getLsbD 1 then s.raise 0 target
  else s.setCur (((h.noteBack target).setX rd (h.nextPc 4)).retireTo target)

/-- R61: `jal`. -/
def execJal (rd : BitVec 5) (off : BitVec 20) (s : State) : Out :=
  onHart s fun h => s.jump h rd (h.pc + sext64 (off ++ 0#1))

/-- R61: `jalr`. -/
def execJalr (rd rs1 : BitVec 5) (imm : BitVec 12) (s : State) : Out :=
  onHart s fun h => s.jump h rd ((h.getX rs1 + sext64 imm) &&& ~~~1)

/-- R61: a conditional branch. -/
def branch (c : DWord → DWord → Bool) (rs1 rs2 : BitVec 5) (off : BitVec 12) (s : State) : Out :=
  onHart s fun h =>
    if c (h.getX rs1) (h.getX rs2) then s.jump h 0 (h.pc + sext64 (off ++ 0#1)) else s.retire h 4

/-- R61, R27. -/
def execBeq (rs1 rs2 : BitVec 5) (off : BitVec 12) (s : State) : Out := branch (· == ·) rs1 rs2 off s

/-- R61, R27. -/
def execBne (rs1 rs2 : BitVec 5) (off : BitVec 12) (s : State) : Out := branch (· != ·) rs1 rs2 off s

/-- R61, R27. -/
def execBlt (rs1 rs2 : BitVec 5) (off : BitVec 12) (s : State) : Out := branch (fun a b => a.slt b) rs1 rs2 off s

/-- R61, R27. -/
def execBge (rs1 rs2 : BitVec 5) (off : BitVec 12) (s : State) : Out := branch (fun a b => !a.slt b) rs1 rs2 off s

/-- R61, R27. -/
def execBltu (rs1 rs2 : BitVec 5) (off : BitVec 12) (s : State) : Out := branch (fun a b => a.ult b) rs1 rs2 off s

/-- R61, R27. -/
def execBgeu (rs1 rs2 : BitVec 5) (off : BitVec 12) (s : State) : Out := branch (fun a b => !a.ult b) rs1 rs2 off s

end Sys2Proof.Machine
end

