-- ==== Sys2Proof/Machine/Csr.lean ====
section
/-! DEFINITION. The CSRs: every register of R34 to R36 and R72 to R75, read and written through one table each, and the six
Zicsr instructions. -/

namespace Sys2Proof.Machine

open Sys2Proof

/-- R34, R72: lowest privilege of a CSR and whether an instruction may write it; none for an address the device lacks. -/
def csrAccess (a : Nat) : Option (Priv × Bool) :=
  match a with
  | 0x800 | 0x801 | 0x803 | 0x804 => some (.U, true)
  | 0x802 => some (.U, false)
  | 0xCC0 | 0xCC1 | 0xCC2 | 0xCC3 | 0xCC4 | 0xCC5 | 0xCC6 | 0xCC7 | 0xCC8 | 0xCC9 | 0xCCA | 0xCCB | 0xCCC => some (.U, false)
  | 0x5C0 | 0x5C1 | 0x5C2 | 0x5C3 | 0x5C4 => some (.S, true)
  | 0x7C0 => some (.M, true)
  | 0xF11 | 0xF12 | 0xF13 | 0xF14 => some (.M, false)
  | 0x300 | 0x302 | 0x303 | 0x304 | 0x305 | 0x306 => some (.M, true)
  | 0x301 => some (.M, false)
  | 0x320 => some (.M, true)
  | 0x340 | 0x341 | 0x342 | 0x343 | 0x344 => some (.M, true)
  | 0xB00 | 0xB02 => some (.M, true)
  | 0x100 | 0x104 | 0x105 | 0x106 => some (.S, true)
  | 0x140 | 0x141 | 0x142 | 0x143 | 0x144 => some (.S, true)
  | 0x180 => some (.S, true)
  | 0xC00 | 0xC01 | 0xC02 => some (.U, false)
  | _ =>
    if 0x323 ≤ a ∧ a ≤ 0x33F then some (.M, false)
    else if 0xB03 ≤ a ∧ a ≤ 0xB1F then some (.M, false)
    else none

/-- R73: the bits of `mstatus` that `sstatus` shows: SIE, SPIE, SPP, SUM, MXR, and UXL. -/
def sstatusMask : DWord := 0x00000003000C0122

/-- R73: the bits of `mstatus` that are held: SIE, MIE, SPIE, MPIE, SPP, MPP, MPRV, SUM, MXR, TVM, TW, TSR. -/
def mstatusMask : DWord := 0x00000000007E19AA

/-- R73: the bits that a write of `sstatus` reaches. -/
def sstatusWritable : DWord := 0x00000000000C0122

/-- R73: interrupts 16 to 19. -/
def irqMask : DWord := 0x00000000000F0000

/-- R364: pending interrupts 16 to 19. -/
def Hart.mip (h : Hart) : DWord :=
  (if h.run.irq16.isSome then (1 : DWord) <<< 16 else 0) ||| (if h.run.irq17.isSome then (1 : DWord) <<< 17 else 0)
    ||| (if h.run.irq18.isSome then (1 : DWord) <<< 18 else 0)
    ||| (if !h.run.iq19.isEmpty || h.run.iq19Ovf then (1 : DWord) <<< 19 else 0)

/-- R25, R405: the logical position that a partition's core table gives a physical one. -/
def State.logicalPos (s : State) (part phys : Nat) : Nat :=
  match s.part? part with
  | none => phys
  | some p => match p.coreTable.find? (fun e => e.2 == phys) with
    | some e => e.1
    | none => phys

/-- R405: the physical position of a logical one; a number that the table does not hold names no core. -/
def State.physicalPos (s : State) (part log : Nat) : Nat :=
  match s.part? part with
  | none => log
  | some p => if p.coreTable.isEmpty then log else Map.findD p.coreTable log 4096

/-- R36: the value of a CSR of the acting hart; `mhartid` of a TSC: log entry 144. -/
def State.csrValue (s : State) (h : Hart) (a : Nat) : DWord :=
  let pos := s.logicalPos h.role.part (coreOf s.cur)
  match a with
  | 0x800 => zext64 h.lanes.em
  | 0x801 => zext64 h.dev.lflags
  | 0x802 => zext64 h.dev.bflags
  | 0x803 => zext64 h.dev.lrm
  | 0x804 => zext64 h.dev.lseed
  | 0xCC0 => h.dev.fs[0]
  | 0xCC1 => h.dev.fs[1]
  | 0xCC2 => h.dev.fs[2]
  | 0xCC3 => h.dev.fs[3]
  | 0xCC4 => h.dev.tbm.extractLsb' 0 64
  | 0xCC5 => h.dev.tbm.extractLsb' 64 64
  | 0xCC6 => BitVec.ofNat 64 (b2n h.dev.tbmf)
  | 0xCC7 => BitVec.ofNat 64 (slotOf s.cur)
  | 0xCC8 => BitVec.ofNat 64 (pos % 8)
  | 0xCC9 => BitVec.ofNat 64 (pos / 8 % 32)
  | 0xCCA => BitVec.ofNat 64 (pos / 256)
  | 0xCCB => match s.launchOf h with
    | none => 0
    | some l => l.lnch
  | 0xCCC => zext64 h.dev.itembase
  | 0x5C0 => zext64 h.dev.hangthr
  | 0x5C1 => h.dev.emuvec
  | 0x5C2 => zext64 h.dev.lfmask
  | 0x5C3 => h.dev.lftab
  | 0x5C4 => zext64 h.dev.lkto
  | 0x7C0 => match s.part? h.role.part with
    | none => 0
    | some p => zext64 p.pfmask
  | 0xF11 => 0
  | 0xF12 => 0x8000000000000110
  | 0xF13 => 0x0000000000000100
  | 0xF14 => BitVec.ofNat 64 s.cur
  | 0x300 => h.csr.mstatus
  | 0x301 => 0x8000000000941101
  | 0x302 => h.csr.medeleg
  | 0x303 => h.csr.mideleg
  | 0x304 => h.csr.mie
  | 0x305 => h.csr.mtvec
  | 0x306 => zext64 h.csr.mcounteren
  | 0x320 => zext64 h.csr.mcountinhibit
  | 0x340 => h.csr.mscratch
  | 0x341 => h.csr.mepc
  | 0x342 => h.csr.mcause
  | 0x343 => h.csr.mtval
  | 0x344 => h.mip
  | 0xB00 => h.mcycle s.now
  | 0xB02 => h.csr.minstret
  | 0x100 => h.csr.mstatus &&& sstatusMask
  | 0x104 => h.csr.mie &&& h.csr.mideleg
  | 0x105 => h.csr.stvec
  | 0x106 => zext64 h.csr.scounteren
  | 0x140 => h.csr.sscratch
  | 0x141 => h.csr.sepc
  | 0x142 => h.csr.scause
  | 0x143 => h.csr.stval
  | 0x144 => h.mip &&& h.csr.mideleg
  | 0x180 => h.csr.satp
  | 0xC00 => h.mcycle s.now
  | 0xC01 => BitVec.ofNat 64 s.time
  | 0xC02 => h.csr.minstret
  | _ => 0

/-- R74: the counter-enable bits let the privilege read `cycle`, `time` or `instret`. -/
def Hart.counterOk (h : Hart) (i : Nat) : Bool :=
  match h.priv with
  | .M => true
  | .S => h.csr.mcounteren.getLsbD i
  | .U => h.csr.mcounteren.getLsbD i && h.csr.scounteren.getLsbD i

/-- R35, R72, R74, R75: the acting hart may access the CSR, and write it where `wr`. -/
def Hart.csrAllowed (h : Hart) (a : Nat) (wr : Bool) : Bool :=
  match csrAccess a with
  | none => false
  | some (p, w) =>
    decide (p.num ≤ h.priv.num) && (w || !wr)
    && (match a with
      | 0xC00 => h.counterOk 0
      | 0xC01 => h.counterOk 1
      | 0xC02 => h.counterOk 2
      | 0x180 => !(h.priv == .S && h.status bitTVM)
      | _ => true)

/-- R73: `mstatus` after a write of the bits of a mask; MPP keeps its value where 0b10 is written. -/
def mstatusWrite (old v mask : DWord) : DWord :=
  let m := if (v.extractLsb' 11 2) = 2 then mask &&& ~~~0x1800 else mask
  (old &&& ~~~m) ||| (v &&& m)

/-- R75: `satp` after a write; a MODE not in the table changes no field. -/
def satpWrite (old v : DWord) : DWord :=
  if satpMode v = 0 ∨ satpMode v = 9 ∨ satpMode v = 10 ∨ satpMode v = 14 then v else old

/-- R36: the partition's feature mask written (R36: bits above 7 read 0). -/
def State.setPfmask (s : State) (part : Nat) (v : DWord) : State :=
  s.modPart part (fun p => { p with pfmask := v.setWidth 8 })

/-- R36, R73: a hart after a CSR is written. -/
def Hart.csrSet (h : Hart) (a : Nat) (v : DWord) (now : Nat) : Hart :=
  match a with
  | 0x800 => { h with lanes := { h.lanes with em := v.setWidth 32 &&& h.lanes.occ } }
  | 0x801 => { h with dev := { h.dev with lflags := v.setWidth 6 } }
  | 0x803 => { h with dev := { h.dev with lrm := v.setWidth 3 } }
  | 0x804 => { h with dev := { h.dev with lseed := v.setWidth 32 } }
  | 0x5C0 => { h with run := { h.run with hangHeld := h.hangNow now, hangFrom := now }
                      dev := { h.dev with hangthr := v.setWidth 32 } }
  | 0x5C1 => { h with dev := { h.dev with emuvec := v &&& ~~~2 } }
  | 0x5C2 => { h with dev := { h.dev with lfmask := v.setWidth 32 } }
  | 0x5C3 => { h with dev := { h.dev with lftab := v &&& ~~~63 } }
  | 0x5C4 => { h with dev := { h.dev with lkto := v.setWidth 32 } }
  | 0x300 => { h with csr := { h.csr with mstatus := mstatusWrite h.csr.mstatus v mstatusMask } }
  | 0x302 => { h with csr := { h.csr with medeleg := v } }
  | 0x303 => { h with csr := { h.csr with mideleg := v } }
  | 0x304 => { h with csr := { h.csr with mie := v &&& irqMask } }
  | 0x305 => { h with csr := { h.csr with mtvec := v &&& ~~~3 } }
  | 0x306 => { h with csr := { h.csr with mcounteren := v.setWidth 3 } }
  | 0x320 => { h with csr := { h.csr with mcycleHeld := h.mcycle now, mcycleFrom := now,
                                          mcountinhibit := v.setWidth 3 &&& 5 } }
  | 0x340 => { h with csr := { h.csr with mscratch := v } }
  | 0x341 => { h with csr := { h.csr with mepc := v &&& ~~~3 } }
  | 0x342 => { h with csr := { h.csr with mcause := v } }
  | 0x343 => { h with csr := { h.csr with mtval := v } }
  | 0xB00 => { h with csr := { h.csr with mcycleHeld := v, mcycleFrom := now } }
  | 0xB02 => { h with csr := { h.csr with minstret := v } }
  | 0x100 => { h with csr := { h.csr with mstatus := mstatusWrite h.csr.mstatus v sstatusWritable } }
  | 0x104 => { h with csr := { h.csr with mie := (h.csr.mie &&& ~~~h.csr.mideleg) ||| (v &&& h.csr.mideleg &&& irqMask) } }
  | 0x105 => { h with csr := { h.csr with stvec := v &&& ~~~3 } }
  | 0x106 => { h with csr := { h.csr with scounteren := v.setWidth 3 } }
  | 0x140 => { h with csr := { h.csr with sscratch := v } }
  | 0x141 => { h with csr := { h.csr with sepc := v &&& ~~~3 } }
  | 0x142 => { h with csr := { h.csr with scause := v } }
  | 0x143 => { h with csr := { h.csr with stval := v } }
  | 0x180 => { h with csr := { h.csr with satp := satpWrite h.csr.satp v } }
  | _ => h

/-- Zicsr: a CSR instruction of the acting hart. `src` none: nothing is written (CSRRS and CSRRC with a zero source). -/
def csrOp (i : Instr) (rd : BitVec 5) (csr : BitVec 12) (f : Hart → DWord → Option DWord) (s : State) : Out :=
  onHart s fun h =>
    let a := csr.toNat
    let old := s.csrValue h a
    match f h old with
    | none => if h.csrAllowed a false then s.retire (h.setX rd old) 4 else s.illegal h i
    | some v =>
      if !h.csrAllowed a true then s.illegal h i
      else if a = 0x7C0 then (s.setPfmask h.role.part v).setCur ((h.setX rd old).retire 4)
      else if a = 0xB02 then s.setCur (((h.setX rd old).retire 4).csrSet a v s.now)
      else s.setCur (((h.csrSet a v s.now).setX rd old).retire 4)

/-- R35. -/
def execCsrrw (rd rs1 : BitVec 5) (csr : BitVec 12) (s : State) : Out :=
  csrOp (.csrrw rd rs1 csr) rd csr (fun h _ => some (h.getX rs1)) s

/-- R35: no write where rs1 is x0. -/
def execCsrrs (rd rs1 : BitVec 5) (csr : BitVec 12) (s : State) : Out :=
  csrOp (.csrrs rd rs1 csr) rd csr (fun h o => if rs1 = 0 then none else some (o ||| h.getX rs1)) s

/-- R35: no write where rs1 is x0. -/
def execCsrrc (rd rs1 : BitVec 5) (csr : BitVec 12) (s : State) : Out :=
  csrOp (.csrrc rd rs1 csr) rd csr (fun h o => if rs1 = 0 then none else some (o &&& ~~~h.getX rs1)) s

/-- R35. -/
def execCsrrwi (rd uimm : BitVec 5) (csr : BitVec 12) (s : State) : Out :=
  csrOp (.csrrwi rd uimm csr) rd csr (fun _ _ => some (zext64 uimm)) s

/-- R35: no write where the immediate is 0. -/
def execCsrrsi (rd uimm : BitVec 5) (csr : BitVec 12) (s : State) : Out :=
  csrOp (.csrrsi rd uimm csr) rd csr (fun _ o => if uimm = 0 then none else some (o ||| zext64 uimm)) s

/-- R35: no write where the immediate is 0. -/
def execCsrrci (rd uimm : BitVec 5) (csr : BitVec 12) (s : State) : Out :=
  csrOp (.csrrci rd uimm csr) rd csr (fun _ o => if uimm = 0 then none else some (o &&& ~~~(zext64 uimm))) s

end Sys2Proof.Machine
end

