-- ==== Sys2Proof/Machine/LoadStore.lean ====
section
/-! DEFINITION. Scalar loads, stores and atomics (R65 to R68, R134, R136, R137, R149, R177). -/

namespace Sys2Proof.Machine

open Sys2Proof

/-- R177: the items of the acting hart's active lanes in an ordered launch. -/
def State.activeItems (s : State) (h : Hart) : List OrdItem :=
  match s.launchOf h with
  | none => []
  | some l => (allLanes.filter (fun i => h.lanes.em.getLsbD i)).filterMap (fun i => l.itemAt s.cur i)

/-- R173, R177: a line recorded in the read log for the item of every active lane. -/
def State.logScalar (s : State) (h : Hart) (gpa : Nat) : State :=
  match h.role.launch with
  | none => s
  | some l => (s.activeItems h).foldl (fun t i => t.modLaunch l (fun L => L.modItem i.index (fun j =>
      let name := lineName 0 h.role.part gpa
      if j.nonspec || j.reads.contains name then j else { j with reads := j.reads ++ [name] }))) s

/-- R176, R177: log entries a scalar load of the acting hart needs. -/
def State.logNeeds (s : State) (h : Hart) (gpa : Nat) : Nat :=
  ((s.activeItems h).filter (fun i => !i.nonspec && !i.reads.contains (lineName 0 h.role.part gpa))).length

/-- R93, R94: the acting hart waits for data, which the event then brings by performing `i`. -/
def State.awaitData (s : State) (i : Instr) : State :=
  let s1 := (s.popLatency).nextTag
  (s1.modCur (fun h => h.park (.data s1.tag i) s.now)).plan s.latency .missDataReturn { nats := [s.cur, s1.tag] }

/-- R137: the line is in the core's hart data cache. -/
def State.inHdc (s : State) (core part gpa : Nat) : Bool := (Map.find (s.core core).hdc (lineKey part gpa)).isSome

/-- R15, R137: the core's hart data cache, 16 KiB, holds the line; `m` marks it modified. The line that gives way is the device's
choice (log entry 10). -/
def State.putHdc (s : State) (core part gpa : Nat) (m : Bool) : State :=
  (s.cleanHdc part gpa (some core)).modCore core (fun c =>
    let key := lineKey part gpa
    { c with hdc := Map.put (makeRoom 128 (fun _ => false) (Config.victim c.hdc.length s.tag) c.hdc key) key (m || Map.findD c.hdc key false) })

/-- R136: the core's lane L1 drops a line. -/
def State.dropL1 (s : State) (core part gpa : Nat) : State :=
  s.modCore core (fun c => { c with l1 := Map.del c.l1 (lineKey part gpa) })

/-- Bytes of a line at its home slice or owner, once it stands there. -/
def State.bytesAt (s : State) (part gpa n : Nat) : List Byte :=
  match s.readHome part gpa n with
  | .val b _ => b
  | .no _ => []

/-- A loaded value, extended to 64 bits. -/
def loadValue (bs : List Byte) (n : Nat) (signed : Bool) : DWord :=
  let v := natOfBytes bs
  if signed then
    (match n with
      | 1 => sext64 (BitVec.ofNat 8 v)
      | 2 => sext64 (BitVec.ofNat 16 v)
      | 4 => sext64 (BitVec.ofNat 32 v)
      | _ => BitVec.ofNat 64 v)
  else BitVec.ofNat 64 v

/-- R167: a scalar access's line: earlier requests of the core to its place are applied first. -/
def State.ready (s : State) (part gpa : Nat) : State := s.drainPlace (coreOf s.cur) (s.home part gpa)

/-- R66: a misaligned scalar access traps; the reservation stays. -/
def State.misaligned (s : State) (cause : Nat) (va : DWord) : State :=
  match s.hart? s.cur with
  | none => s
  | some h => (s.raise cause va).modCur (fun k => { k with run := { k.run with resv := h.run.resv } })

/-- R65, R66, R304, R315: a scalar load of the acting hart. -/
def scalarLoad (i : Instr) (rd rs1 : BitVec 5) (imm : BitVec 12) (n : Nat) (signed : Bool) (s : State) : Out :=
  onHart s fun h =>
    let va := h.getX rs1 + sext64 imm
    s.watching h 1 [(32, va)] n fun s0 =>
      if va.toNat % n ≠ 0 then s0.misaligned 4 va
      else ((s0.translate h va .load).bind fun gpa s1 => (s1.lineFor h va gpa .load).bind fun _ s2 => .ok gpa s2).done fun gpa s2 =>
        if s2.inHdc (coreOf s.cur) h.role.part gpa || s2.latency = 0 then
          let s3 := if s2.inHdc (coreOf s.cur) h.role.part gpa then s2 else s2.popLatency
          let finish := fun (t : State) =>
            let t1 := t.ready h.role.part gpa
            let v := loadValue (t1.bytesAt h.role.part gpa n) n signed
            (t1.putHdc (coreOf s.cur) h.role.part gpa false).modCur (fun k => (k.setX rd v).retire 4)
          if s3.ordered h then
            if s3.logUsed (coreOf s.cur) + s3.logNeeds h gpa > 4096 then s3.stalling h finish
            else finish (s3.logScalar h gpa)
          else finish s3
        else s2.awaitData i

/-- R65, R66, R177, R315: a scalar store of the acting hart. A line that is not resident holds the store alone. -/
def scalarStore (rs1 rs2 : BitVec 5) (imm : BitVec 12) (n : Nat) (s : State) : Out :=
  onHart s fun h =>
    let va := h.getX rs1 + sext64 imm
    s.watching h 2 [(32, va)] n fun s0 =>
      if s.ordered h then s0.raise 31 0
      else if va.toNat % n ≠ 0 then s0.misaligned 6 va
      else (s0.translate h va .store).done fun gpa s1 =>
          let s2 := (s1.dropL1 (coreOf s.cur) h.role.part gpa).putHdc (coreOf s.cur) h.role.part gpa true
          let s3 := s2.modCur (fun k => (k.touch (s2.home h.role.part gpa) (s2.isFar h.role.part gpa)).retire 4)
          s3.issueWrite { hart := s.cur, space := 0, owner := h.role.part, addr := gpa,
                          bytes := bytesOfNat (h.getX rs2).toNat n, held := false, gva := va }

/-- R67: a release before an atomic with rl. -/
def atomicRelease (rl : Bool) (s : State) (i : Instr) (f : State → State) : State := if rl then s.releasing scP i f else f s

/-- R67: an acquire after an atomic with aq. -/
def atomicAcquire (aq : Bool) (s : State) : State := if aq then s.acquire (coreOf s.cur) scP else s

/-- R136, R137, R149: before an atomic of the acting hart is performed, every other hart data cache drops the line and the core's
lane L1 does. -/
def State.claimLine (s : State) (part gpa : Nat) : State :=
  (s.dropHdc part gpa (some (coreOf s.cur))).dropL1 (coreOf s.cur) part gpa

/-- R67, R149: the common part of `lr`, `sc` and the AMOs: checks, translation, the line at its home slice, and the wait
for the result. -/
def atomicAccess (i : Instr) (rs1 : BitVec 5) (rl dbl : Bool) (k : AccKind) (s : State)
    (f : Hart → DWord → Nat → State → State) : Out :=
  onHart s fun h =>
    let va := h.getX rs1
    let n := if dbl then 8 else 4
    s.watching h (if k = .load then 1 else 3) [(32, va)] n fun s0 =>
      if s.ordered h then s0.raise 31 0
      else if va.toNat % n ≠ 0 then s0.misaligned (if k = .load then 4 else 6) va
      else ((s0.translate h va k).bind fun gpa s1 => (s1.lineFor h va gpa k).bind fun _ s2 => .ok gpa s2).done fun gpa s2 =>
        atomicRelease rl s2 i fun s3 =>
          if s3.latency = 0 then f h va gpa (((s3.popLatency).ready h.role.part gpa).claimLine h.role.part gpa)
          else (if k = .load then s3 else s3.dropL1 (coreOf s.cur) h.role.part gpa).awaitData i

/-- R68: `lr`. -/
def execLr (rd rs1 : BitVec 5) (aq rl dbl : Bool) (s : State) : Out :=
  atomicAccess (.lr rd rs1 aq rl dbl) rs1 rl dbl .load s fun h _ gpa t =>
    let n := if dbl then 8 else 4
    let v := loadValue (t.bytesAt h.role.part gpa n) n true
    atomicAcquire aq ((t.putHdc (coreOf s.cur) h.role.part gpa false).modCur (fun k =>
      (({ k with run := { k.run with resv := some ⟨h.role.part, gpa / 128⟩ } }).setX rd v).retire 4))

/-- R67, R149: what every atomic write by the acting hart does at issue. -/
def State.atomicWrite (s : State) (h : Hart) (gpa : Nat) (bs : List Byte) : State :=
  (((s.dropL1 (coreOf s.cur) h.role.part gpa).writeHome h.role.part gpa bs (some (coreOf s.cur))).spoilRing h.role.part gpa bs.length).modCur (fun k =>
    (k.touch (s.home h.role.part gpa) (s.isFar h.role.part gpa)).hangClear s.now)

/-- R68: `sc`. -/
def execSc (rd rs1 rs2 : BitVec 5) (aq rl dbl : Bool) (s : State) : Out :=
  atomicAccess (.sc rd rs1 rs2 aq rl dbl) rs1 rl dbl .store s fun h _ gpa t =>
    let n := if dbl then 8 else 4
    let won : Bool := match t.hart? s.cur with
      | none => false
      | some k => k.run.resv == some ⟨h.role.part, gpa / 128⟩
    let t1 := if won then t.atomicWrite h gpa (bytesOfNat (h.getX rs2).toNat n) else t
    atomicAcquire aq (t1.modCur (fun k =>
      (({ k with run := { k.run with resv := none } }).setX rd (if won then 0 else 1)).retire 4))

/-- R67, R149: an AMO: the old value to rd, the new one to memory, in one step at the home slice. -/
def scalarAmo (i : Instr) (f : (w : Nat) → BitVec w → BitVec w → BitVec w) (rd rs1 rs2 : BitVec 5) (aq rl dbl : Bool)
    (s : State) : Out :=
  atomicAccess i rs1 rl dbl .store s fun h _ gpa t =>
    let n := if dbl then 8 else 4
    let old := natOfBytes (t.bytesAt h.role.part gpa n)
    let new := (f (8 * n) (BitVec.ofNat (8 * n) old) ((h.getX rs2).setWidth (8 * n))).toNat
    atomicAcquire aq ((t.atomicWrite h gpa (bytesOfNat new n)).modCur (fun k =>
      (k.setX rd (loadValue (bytesOfNat old n) n true)).retire 4))

/-- R65, R66. -/
def execLb (rd rs1 : BitVec 5) (imm : BitVec 12) (s : State) : Out := scalarLoad (.lb rd rs1 imm) rd rs1 imm 1 true s

/-- R65, R66. -/
def execLh (rd rs1 : BitVec 5) (imm : BitVec 12) (s : State) : Out := scalarLoad (.lh rd rs1 imm) rd rs1 imm 2 true s

/-- R65, R66. -/
def execLw (rd rs1 : BitVec 5) (imm : BitVec 12) (s : State) : Out := scalarLoad (.lw rd rs1 imm) rd rs1 imm 4 true s

/-- R65, R66. -/
def execLd (rd rs1 : BitVec 5) (imm : BitVec 12) (s : State) : Out := scalarLoad (.ld rd rs1 imm) rd rs1 imm 8 true s

/-- R65, R66. -/
def execLbu (rd rs1 : BitVec 5) (imm : BitVec 12) (s : State) : Out := scalarLoad (.lbu rd rs1 imm) rd rs1 imm 1 false s

/-- R65, R66. -/
def execLhu (rd rs1 : BitVec 5) (imm : BitVec 12) (s : State) : Out := scalarLoad (.lhu rd rs1 imm) rd rs1 imm 2 false s

/-- R65, R66. -/
def execLwu (rd rs1 : BitVec 5) (imm : BitVec 12) (s : State) : Out := scalarLoad (.lwu rd rs1 imm) rd rs1 imm 4 false s

/-- R65, R66. -/
def execSb (rs1 rs2 : BitVec 5) (imm : BitVec 12) (s : State) : Out := scalarStore rs1 rs2 imm 1 s

/-- R65, R66. -/
def execSh (rs1 rs2 : BitVec 5) (imm : BitVec 12) (s : State) : Out := scalarStore rs1 rs2 imm 2 s

/-- R65, R66. -/
def execSw (rs1 rs2 : BitVec 5) (imm : BitVec 12) (s : State) : Out := scalarStore rs1 rs2 imm 4 s

/-- R65, R66. -/
def execSd (rs1 rs2 : BitVec 5) (imm : BitVec 12) (s : State) : Out := scalarStore rs1 rs2 imm 8 s

/-- R67. -/
def execAmoswap (rd rs1 rs2 : BitVec 5) (aq rl dbl : Bool) (s : State) : Out :=
  scalarAmo (.amoswap rd rs1 rs2 aq rl dbl) (fun _ _ b => b) rd rs1 rs2 aq rl dbl s

/-- R67. -/
def execAmoadd (rd rs1 rs2 : BitVec 5) (aq rl dbl : Bool) (s : State) : Out :=
  scalarAmo (.amoadd rd rs1 rs2 aq rl dbl) (fun _ a b => a + b) rd rs1 rs2 aq rl dbl s

/-- R67. -/
def execAmoxor (rd rs1 rs2 : BitVec 5) (aq rl dbl : Bool) (s : State) : Out :=
  scalarAmo (.amoxor rd rs1 rs2 aq rl dbl) (fun _ a b => a ^^^ b) rd rs1 rs2 aq rl dbl s

/-- R67. -/
def execAmoand (rd rs1 rs2 : BitVec 5) (aq rl dbl : Bool) (s : State) : Out :=
  scalarAmo (.amoand rd rs1 rs2 aq rl dbl) (fun _ a b => a &&& b) rd rs1 rs2 aq rl dbl s

/-- R67. -/
def execAmoor (rd rs1 rs2 : BitVec 5) (aq rl dbl : Bool) (s : State) : Out :=
  scalarAmo (.amoor rd rs1 rs2 aq rl dbl) (fun _ a b => a ||| b) rd rs1 rs2 aq rl dbl s

/-- R67. -/
def execAmomin (rd rs1 rs2 : BitVec 5) (aq rl dbl : Bool) (s : State) : Out :=
  scalarAmo (.amomin rd rs1 rs2 aq rl dbl) (fun _ a b => if b.slt a then b else a) rd rs1 rs2 aq rl dbl s

/-- R67. -/
def execAmomax (rd rs1 rs2 : BitVec 5) (aq rl dbl : Bool) (s : State) : Out :=
  scalarAmo (.amomax rd rs1 rs2 aq rl dbl) (fun _ a b => if a.slt b then b else a) rd rs1 rs2 aq rl dbl s

/-- R67. -/
def execAmominu (rd rs1 rs2 : BitVec 5) (aq rl dbl : Bool) (s : State) : Out :=
  scalarAmo (.amominu rd rs1 rs2 aq rl dbl) (fun _ a b => if b.ult a then b else a) rd rs1 rs2 aq rl dbl s

/-- R67. -/
def execAmomaxu (rd rs1 rs2 : BitVec 5) (aq rl dbl : Bool) (s : State) : Out :=
  scalarAmo (.amomaxu rd rs1 rs2 aq rl dbl) (fun _ a b => if a.ult b then b else a) rd rs1 rs2 aq rl dbl s

end Sys2Proof.Machine
end

