-- ==== Sys2Proof/Machine/System.lean ====
section
/-! DEFINITION. Environment calls, returns, waits and fences of the scalar hart (R64, R77 to R80). -/

namespace Sys2Proof.Machine

open Sys2Proof

/-- R77: `ecall`: cause 8, 9 or 11 by the privilege, `tval` 0. -/
def execEcall (s : State) : Out :=
  onHart s fun h => s.raise (match h.priv with | .U => 8 | .S => 9 | .M => 11) 0

/-- R77, R376: `ebreak`: cause 3 with its pc, or a halt where the debug block's `ebh` bit is set. -/
def execEbreak (s : State) : Out :=
  onHart s fun h =>
    if (s.core (coreOf s.cur)).dbg.ebh then s.modCur Hart.halt
    else s.raise 3 h.pc

/-- R79: `sret`. -/
def execSret (s : State) : Out :=
  onHart s fun h =>
    if h.priv = .U ∨ (h.priv = .S ∧ h.status bitTSR) then s.illegal h .sret
    else s.setCur (((h.returnS h.csr.sepc).retireTo h.csr.sepc).hangClear s.now)

/-- R79: `mret`. -/
def execMret (s : State) : Out :=
  onHart s fun h =>
    if h.priv = .M then s.setCur (((h.returnM h.csr.mepc).retireTo h.csr.mepc).hangClear s.now) else s.illegal h .mret

/-- R78: an interrupt enabled in `mie` or `sie` is pending. -/
def Hart.wakes (h : Hart) : Bool := (h.mip &&& h.csr.mie) != 0

/-- R78: `wfi`: the pc already stands at the next instruction while the hart waits. -/
def execWfi (s : State) : Out :=
  onHart s fun h =>
    if h.priv = .U ∨ (h.priv = .S ∧ h.status bitTW) then s.illegal h .wfi
    else if h.wakes then s.retire h 4
    else s.setCur ((h.retire 4).park .wfi s.now)

/-- R199: a fence of the acting hart at a scope, with release, acquire or both, and then the rest. -/
def State.fence (s : State) (scope : Nat) (rel acq : Bool) (i : Instr) (f : State → State) : State :=
  let after := fun (t : State) => f (if acq then t.acquire (coreOf t.cur) scope else t)
  if rel then s.releasing scope i after else after s

/-- R64: `fence` executes as `pfence.s.ar`, whatever its fields. -/
def execFence (tso : Bool) (pred succ : BitVec 4) (s : State) : Out :=
  onHart s fun _ => s.fence scS true true (.fence tso pred succ) fun t => t.modCur (fun k => k.retire 4)

/-- R64: `fence.i`: `pfence.p.rel`, then the core's instruction cache is invalidated. -/
def execFenceI (s : State) : Out :=
  onHart s fun _ => s.fence scP true false .fenceI fun t =>
    (t.modCore (coreOf t.cur) (fun c => { c with icache := [] })).modCur (fun k => k.retire 4)

/-- R80, R380: an entry matches an invalidation. -/
def Leaf.matchesFence (e : Leaf) (part : Nat) (va : Option DWord) (asid : Option Nat) : Bool :=
  e.part == part
  && (match va with
    | none => true
    | some a => vpnOf a / 2 ^ (pageBits e.size - 12) == e.vpn / 2 ^ (pageBits e.size - 12))
  && (match asid with
    | none => true
    | some a => !e.g && e.asid == a)

/-- R80, R380: matching entries removed from every L1, L2 and last-level TLB of the package. -/
def State.tlbRemove (s : State) (part : Nat) (va : Option DWord) (asid : Option Nat) : State :=
  let cut := fun (l : List Leaf) => l.filter (fun e => !e.matchesFence part va asid)
  { s with cores := Map.mapVal s.cores (fun _ c => { c with tlb := cut c.tlb })
           clusters := Map.mapVal s.clusters (fun _ c => { c with tlb := cut c.tlb })
           dies := Map.mapVal s.dies (fun _ d => { d with tlb := cut d.tlb }) }

/-- R309: walks of a partition that have not returned, anywhere. -/
def State.walksOf (s : State) (part : Nat) : Bool :=
  s.clusters.any (fun e => e.2.tscq.any (fun t => t.part == part))

/-- R80: `sfence.vma`: a release at P, then the invalidation through the TSC; the hart waits until every TLB has removed
the matching entries. -/
def execSfenceVma (rs1 rs2 : BitVec 5) (s : State) : Out :=
  onHart s fun h =>
    if h.priv = .U ∨ (h.priv = .S ∧ h.status bitTVM) then s.illegal h (.sfenceVma rs1 rs2)
    else s.releasing scP (.sfenceVma rs1 rs2) fun t =>
      let va := if rs1 = 0 then none else some (h.getX rs1)
      let asid := if rs2 = 0 then none else some ((h.getX rs2).toNat % 2 ^ 16)
      let t1 := t.tlbRemove h.role.part va asid
      if t1.latency = 0 && !t1.walksOf h.role.part then (t1.popLatency).modCur (fun k => k.retire 4)
      else
        let t2 := (t1.popLatency).nextTag
        ((t2.modCur (fun k => (k.retire 4).park (.sfence t2.tag) t.now)).modCluster (clusterOf t.cur) (fun c =>
          { c with sfences := c.sfences ++ [(t2.tag, t.cur, h.role.part, va, asid)] })).plan t1.latency .sfenceVmaComplete
            { nats := [t.cur, t2.tag] }

end Sys2Proof.Machine
end

