-- ==== Sys2Proof/Machine/LaneMem.lean ====
section
/-! DEFINITION. Group 011, lane memory (R129 to R148): addresses and checks of every lane, lane faults and their records
(R135, R140, R366), the lane L1 (R136, R138), loads, stores, atomics and prefetches, in plain and ordered launches. -/

namespace Sys2Proof.Machine

open Sys2Proof

/-- R45: the bytes of a size code. -/
def sizeBytes (m : LaneMem) : Nat := 2 ^ m.size.toNat

/-- R45: the lane address. -/
def laneAddr (h : Hart) (m : LaneMem) (imm : BitVec 16) (l : Nat) : DWord :=
  h.getX (xOf m.xb) + sext64 (h.getV m.vo.toNat l) + sext64 imm

/-- One access of a lane: the lane, the address it reports, and the address accessed. -/
abbrev LaneAcc := Nat × DWord × DWord

/-- R16: bytes that each core of a partition lends. -/
def Part.lentBytes (p : Part) : Nat := p.lend * 1024

/-- R16, R130: the cores of a partition in a cluster, by logical number. -/
def State.windowCores (s : State) (part cl : Nat) : List Nat :=
  match s.part? part with
  | none => []
  | some p =>
    let mine := (upTo 8).filter (fun i => p.cores.getLsbD (cl * 8 + i))
    ((upTo 2048).filterMap (fun log => mine.find? (fun i => s.logicalPos part (cl * 8 + i) == log))).map (cl * 8 + ·)

/-- R129, R130: where an offset of a space other than 0 lies: the owner of the place and the address there; or the kind of
the lane fault. -/
def State.spotOf (s : State) (h : Hart) (space lane off n : Nat) : Except Nat (Nat × Nat) :=
  match s.part? h.role.part with
  | none => .error 2
  | some p =>
    let core := coreOf s.cur
    let lent := p.lentBytes
    match space with
    | 1 =>
      if off + n ≤ 524288 - lent then
        (if p.banks.getLsbD (off / 16384) then .ok (core, off) else .error 3)
      else .error 2
    | 2 =>
      let cs := s.windowCores h.role.part (clusterOf s.cur)
      if off + n ≤ cs.length * lent then
        let at_ := 524288 - lent + off % lent
        if p.banks.getLsbD (at_ / 16384) then .ok (cs.getD (off / lent) 0, at_) else .error 3
      else .error 2
    | 3 =>
      if off + n ≤ p.dsp.getD (dieOf s.cur) 0 then .ok (dieOf s.cur * 64 + h.role.part, off) else .error 2
    | _ => if off + n ≤ 256 then .ok (lane, off) else .error 2

/-- R140: the kind of one access's fault before translation; 0: none. -/
def State.firstKind (s : State) (h : Hart) (space n : Nat) (a : LaneAcc) : Nat :=
  if a.2.2.toNat % n ≠ 0 then 1
  else if space = 0 then 0
  else match s.spotOf h space a.1 a.2.2.toNat n with
    | .ok _ => 0
    | .error k => k

/-- The lanes of a list of faults, each once with its reported address and its smallest kind. -/
def faultLanes (fs : List (LaneAcc × Nat)) : List (Nat × DWord × Nat) :=
  allLanes.filterMap (fun l =>
    match (fs.filter (fun f => f.1.1 == l && f.2 != 0)) with
    | [] => none
    | f :: rest => some (l, f.1.2.1, rest.foldl (fun k g => min k g.2) f.2))

/-- R366: the record of a faulting lane. -/
def faultRecord (space : Nat) (wr : Bool) (addr : DWord) (kind : Nat) : List Byte :=
  bytesOfNat (addr.toNat + (kind + space * 16 + b2n wr * 128) * 2 ^ 64) 16

/-- R366: one record stored, at privilege S under the hart's `satp` with SUM as 1; a store that cannot be made is left out. -/
def State.storeRecord (s : State) (h : Hart) (va : DWord) (bs : List Byte) : Acc Unit :=
  let c : Ctx := { part := h.role.part, satp := h.csr.satp, priv := .S, sum := true, mxr := false }
  match s.stage1 (coreOf s.cur) c h.run.walks va .store with
  | .gpa a =>
    if h.run.declined.contains (a / 4096) then .ok () s
    else match s.atHome h.role.part a with
      | .ready s1 => .ok () (s1.writeHome h.role.part a bs none)
      | .far _ => .ok () (s.writeHome h.role.part a bs none)
      | .poisoned t => .ok () (t.writeHome h.role.part a bs none)
      | .absent k t => .park .replay ((t.leaveRecords s.cur).raiseRecord
          { blankRec h.role.part k a 0 (coreOf s.cur) (slotOf s.cur) va true with harts := [s.cur] })
      | .dieDown d => .park (.die d) s
      | .lost => .ok () s
      | .integrity t => .ok () (t.integrityError h.role.part a 0 (coreOf s.cur) (slotOf s.cur) va)
      | .outside => .ok () s
  | .miss =>
    match s.queueMiss (clusterOf s.cur) s.cur c va .store 0 with
    | (s1, true) => .park .walk s1
    | (s1, false) => .park .queueFull s1
  | _ => .ok () s

/-- R366: the records of the faulting lanes, in ascending order. -/
def State.storeRecords (s : State) (h : Hart) (space : Nat) (wr : Bool) : List (Nat × DWord × Nat) → Acc Unit
  | [] => .ok () s
  | f :: fs => (s.storeRecord h (h.dev.lftab + BitVec.ofNat 64 (16 * f.1)) (faultRecord space wr f.2.1 f.2.2)).bind
      fun _ s1 => s1.storeRecords h space wr fs

/-- R140, R366: the records of a lane fault, then its trap with the lowest lane's address. -/
def State.enterLaneTrap (s : State) (h : Hart) (t : LaneTrap) : State :=
  let first := (t.faults.headD (0, 0, 0)).2.1
  if h.dev.lftab = 0 then s.raise t.cause first
  else (s.storeRecords h t.space t.wr t.faults).done fun _ s2 => s2.raise t.cause first

/-- R140, R366: `lane_trap`: `lfmask`, the records, the trap. -/
def State.laneTrap (s : State) (h : Hart) (cause space : Nat) (wr : Bool) (fs : List (Nat × DWord × Nat)) : State :=
  let mask := fs.foldl (fun m f => setMask m f.1 true) (0 : Word)
  let t : LaneTrap := ⟨cause, space, wr, fs⟩
  (s.modCur (fun k => { k with dev := { k.dev with lfmask := mask }, run := { k.run with entering := some t } })).enterLaneTrap h t

/-- Stage 1 of every access: answers, and the wait on walks where one is queued or cannot be. -/
def State.translateAll (s : State) (h : Hart) (k : AccKind) (as : List LaneAcc) :
    List (LaneAcc × Tr) × Option Wait × State :=
  let c := h.ctx k
  let r := as.foldl (fun (acc : List (LaneAcc × Tr) × Option Wait × State) a =>
    match acc.2.2.stage1 (coreOf s.cur) c h.run.walks a.2.2 k with
    | .miss =>
      let q := acc.2.2.queueMiss (clusterOf s.cur) s.cur c a.2.2 k 1
      ((a, .miss) :: acc.1, (if q.2 then some (acc.2.1.getD .walk) else some .queueFull), q.1)
    | .gpa g => ((a, .gpa g) :: acc.1, acc.2.1, if c.priv = .M then acc.2.2 else acc.2.2.fillL1 (coreOf s.cur) c a.2.2)
    | t => ((a, t) :: acc.1, acc.2.1, acc.2.2)) ([], none, s)
  (r.1.reverse, r.2.1, r.2.2)

/-- What a line of a lane access comes to: kind 4 or 6, poison (7), a wait. -/
structure LineJudgement where
  kinds : List (LaneAcc × Nat)
  poison : Option DWord
  /-- R70: a remote request that no export covers. -/
  outside : Option DWord
  wait : Option Wait
  st : State

/-- R136, R138: a lane load that the lane L1 can serve. -/
def State.l1Serves (s : State) (part gpa : Nat) (useL1 : Bool) : Bool :=
  useL1 && (Map.find (s.core (coreOf s.cur)).l1 (lineKey part gpa)).isSome

/-- R141, R315: a lane read that has to wait with a held write of its core: the lane L1 serves a hart its own stores. -/
def State.laneHeld (s : State) (part gpa : Nat) (useL1 : Bool) : Bool :=
  if s.l1Serves part gpa useL1 then
    (s.core (coreOf s.cur)).flight.any (fun g => g.held && g.hart != s.cur && g.space == 0 && g.owner == part && g.addr / 128 == gpa / 128)
  else s.heldAt (coreOf s.cur) part gpa

/-- R140, R315, R339, R386: the lines of a lane access at their home slices. -/
def State.judgeLines (s : State) (h : Hart) (wr reads useL1 : Bool) (as : List (LaneAcc × Nat)) : LineJudgement :=
  as.foldl (fun j a =>
    let part := h.role.part
    if h.run.declined.contains (a.2 / 4096) then { j with kinds := j.kinds ++ [(a.1, 4)] }
    else if h.run.failedPages.contains (a.2 / 4096) then { j with kinds := j.kinds ++ [(a.1, 6)] }
    else if reads && j.st.laneHeld part a.2 useL1 then
      let w := j.st.joinHeld part a.2
      { j with wait := some w.1, st := w.2 }
    else if j.st.l1Serves part a.2 useL1 then j
    else match j.st.atHome part a.2 with
      | .ready t => { j with st := t }
      | .far _ => j
      | .absent c t => { j with wait := some .replay, st := (t.raiseRecord
          { blankRec part c a.2 1 (coreOf s.cur) (slotOf s.cur) a.1.2.2 wr with harts := [s.cur] }) }
      | .integrity t => { j with
          kinds := j.kinds ++ [(a.1, 6)], st := t.integrityError part a.2 1 (coreOf s.cur) (slotOf s.cur) a.1.2.2 }
      | .poisoned t => { j with st := t, poison := if reads then some (j.poison.getD a.1.2.1) else j.poison }
      | .dieDown d => { j with wait := some (.die d) }
      | .lost => { j with poison := some (j.poison.getD a.1.2.1) }
      | .outside => { j with outside := some (j.outside.getD a.1.2.1) }) ⟨[], none, none, none, s⟩

/-- A place a lane accesses: the lane, the space, the owner of the place, and the address there. -/
structure Spot where
  lane : Nat
  space : Nat
  owner : Nat
  addr : Nat
  va : DWord
  deriving DecidableEq, Repr

/-- R140: `check_lanes` for the accesses of an instruction, each of `n` bytes; what follows acts on their places. -/
def State.checkLanes (s : State) (h : Hart) (space n : Nat) (wr reads useL1 : Bool) (as : List LaneAcc)
    (f : List Spot → State → State) : State :=
  let early := faultLanes (as.map (fun a => (a, s.firstKind h space n a)))
  if !early.isEmpty then s.laneTrap h 25 space wr early
  else if space ≠ 0 then
    f (as.map (fun a => match s.spotOf h space a.1 a.2.2.toNat n with
      | .ok p => ⟨a.1, space, p.1, p.2, a.2.2⟩
      | .error _ => ⟨a.1, space, 0, 0, a.2.2⟩)) s
  else
    let k : AccKind := if wr then .store else .load
    match s.translateAll h k as with
    | (_, some w, s1) => s1.modCur (fun c => c.park w s.now)
    | (trs, none, s1) =>
      let bad := faultLanes (trs.map (fun t => (t.1, match t.2 with
        | .unmapped => 4
        | .denied => 5
        | _ => 0)))
      let broken := faultLanes (trs.map (fun t => (t.1, if t.2 = .integrity then 6 else 0)))
      if !bad.isEmpty then s1.laneTrap h 25 space wr bad
      else if !broken.isEmpty then s1.laneTrap h 28 space wr broken
      else match trs.find? (fun t => t.2 == .accessFault || t.2 == .poisoned) with
      | some t => s1.raiseWith k.accessCause t.1.2.1 (t.2 == .poisoned)
      | none =>
        let gs := trs.map (fun t => (t.1, match t.2 with
          | .gpa g => g
          | _ => 0))
        match gs.find? (fun g => match s1.part? h.role.part with
            | none => true
            | some p => (p.range? g.2).isNone) with
        | some g => s1.raise k.accessCause g.1.2.1
        | none =>
          let j := (s1.leaveRecords s1.cur).judgeLines h wr reads useL1 gs
          match j.wait with
          | some w => j.st.modCur (fun c => c.park w s.now)
          | none =>
            let gone := faultLanes (j.kinds.filter (·.2 == 4))
            let fail := faultLanes (j.kinds.filter (·.2 == 6))
            if !gone.isEmpty then j.st.laneTrap h 25 space wr gone
            else if !fail.isEmpty then j.st.laneTrap h 28 space wr fail
            else match j.poison, j.outside with
            | some a, _ => j.st.raiseWith k.accessCause a true
            | none, some a => j.st.raise k.accessCause a
            | none, none => f (gs.map (fun g => ⟨g.1.1, 0, h.role.part, g.2, g.1.2.2⟩)) j.st

/-- R130, R152: a bank of a place that another hart holds. -/
def State.lockedBank (s : State) (spots : List Spot) : Option (Nat × Nat) :=
  (spots.find? (fun p => (p.space == 1 || p.space == 2) &&
    (match Map.find (s.core p.owner).locks (p.addr / 16384) with
      | some l => l.holder != s.cur
      | none => false))).map (fun p => (p.owner, p.addr / 16384))

/-- R152: an access to a bank that another hart holds waits for it, in the order of the bank's queue. -/
def State.unlessLocked (s : State) (i : Instr) (spots : List Spot) (f : State → State) : State :=
  match s.lockedBank spots with
  | none => f s
  | some (core, bank) =>
    (s.modCore core (fun c => { c with lockq := c.lockq ++ [(bank, s.cur)] })).modCur
      (fun h => h.park (.lock bank (some i)) s.now)

/-- R167: earlier requests of the core to the places are applied first. -/
def State.readySpots (s : State) (spots : List Spot) : State :=
  spots.foldl (fun t p => if p.space = 4 then t else t.drainPlace (coreOf s.cur) (t.placeOf p.space p.owner p.addr)) s

/-- Bytes at a place. -/
def State.spotBytes (s : State) (p : Spot) (n : Nat) : List Byte :=
  match p.space with
  | 0 => s.bytesAt p.owner p.addr n
  | 3 => s.dsRead (p.owner / 64) (p.owner % 64) p.addr n
  | 4 => match s.hart? s.cur with
    | none => []
    | some h => Memory.bytes h.lanes.slice (p.lane * 256 + p.addr) n
  | _ => s.spadRead p.owner p.addr n

/-- R136, R138: the lane L1's capacity in lines; the line that gives way is the device's choice (log entry 10). -/
def l1Insert (fresh : Nat) (m : Map CacheLine) (key : Nat) (l : CacheLine) : Map CacheLine :=
  Map.put (makeRoom 512 (·.first) (Config.victim m.length fresh) m key) key l

/-- R136, R138: a line enters the lane L1 of the acting hart's core, by a streaming access as the first victim. -/
def State.allocL1 (s : State) (part gpa : Nat) (streaming : Bool) : State :=
  let line := BitVec.ofNat 1024 (natOfBytes (s.bytesAt part (gpa / 128 * 128) 128))
  (((s.cleanHdc part gpa none).modCore (coreOf s.cur) (fun c =>
    { c with l1 := l1Insert s.fresh c.l1 (lineKey part gpa) { data := line, first := streaming } }))).drawn

/-- R164, R169: a line of the lane L1 shows another hart's `lst` only once it has been performed. -/
def State.settleL1 (s : State) (p : Spot) : State :=
  if (s.core (coreOf s.cur)).flight.any (fun g => g.hart != s.cur && g.space == 0 && g.owner == p.owner && g.addr / 128 == p.addr / 128)
  then s.readySpots [p] else s

/-- R136, R144: a lane read, from the lane L1 where it may serve, else from the place. -/
def State.laneRead (s : State) (policy : Nat) (p : Spot) (n : Nat) : List Byte × State :=
  if p.space = 0 && policy != 2 then
    match Map.find (s.core (coreOf s.cur)).l1 (lineKey p.owner p.addr) with
    | some l => (lineBytes l.data (p.addr % 128) n, s.settleL1 p)
    | none =>
      let s1 := (s.readySpots [p]).allocL1 p.owner p.addr (policy == 1)
      (s1.spotBytes p n, s1)
  else
    let s1 := s.readySpots [p]
    let s2 := if p.space = 0 then s1.cleanHdc p.owner p.addr none else s1
    (s2.spotBytes p n, s2)

/-- R172: the item a lane of a hart holds in its ordered launch. -/
def State.laneItem (s : State) (h : Hart) (lane : Nat) : Option OrdItem :=
  match s.launchOf h with
  | none => none
  | some l => l.itemAt s.cur lane

/-- R173: a lane read in an ordered launch: its item's own bytes, or the place's, with the line logged. -/
def State.orderedRead (s : State) (h : Hart) (p : Spot) (n : Nat) : List Byte × State :=
  let r := s.laneRead 2 p n
  if p.space = 4 then r
  else
    match h.role.launch, r.2.laneItem h p.lane with
    | some l, some i =>
      let o := i.read p.space p.owner p.addr r.1
      (o.1, r.2.modLaunch l (fun L => L.modItem i.index (fun _ => o.2)))
    | _, _ => r

/-- R173, R176: log entries that the reads of an instruction need on the core. -/
def State.logRoom (s : State) (h : Hart) (n : Nat) (spots : List Spot) : Bool :=
  let want := (spots.filterMap (fun p => if p.space = 4 then none else
    match s.laneItem h p.lane with
    | none => none
    | some i =>
      let name := lineName p.space p.owner p.addr
      if i.nonspec || i.reads.contains name || i.owns p.space p.owner p.addr n then none else some (i.index, name))).eraseDups
  decide (s.logUsed (coreOf s.cur) + want.length ≤ 4096)

/-- R176: in an ordered launch, `f` where the core's buffers have room, else non-speculatively. -/
def State.withRoom (s : State) (h : Hart) (room : Bool) (f : State → State) : State :=
  if !s.ordered h || room then f s else s.stalling h f

/-- R93, R94: a lane access whose data comes from beyond the core waits for it; `away` says that it does. -/
def State.withData (s : State) (i : Instr) (away : Bool) (f : State → State) : State :=
  if !away then f s
  else if s.latency = 0 then f s.popLatency
  else s.awaitData i

/-- R173, R136, R138: a lane load may use the lane L1. -/
def usesL1 (s : State) (h : Hart) (space policy : Nat) : Bool := space == 0 && policy != 2 && !s.ordered h

/-- R144: the value of a loaded element. -/
def laneLoaded (m : LaneMem) (bs : List Byte) : Nat :=
  let v := natOfBytes bs
  if m.sx then (asSigned (8 * sizeBytes m) v % 2 ^ 32).toNat else v

/-- R45, R36: the masks of a lane memory instruction, then its checks. -/
def laneMemory (i : Instr) (masked : State → Hart → Bool) (s : State) (f : Hart → State → State) : Out :=
  onHart s fun h => if masked s h then s.masked h i else f h s

/-- R36: size dword is masked by `pfmask`.f64. -/
def dwordMasked (m : LaneMem) (s : State) (h : Hart) : Bool := m.size == 3 && s.pfmask h 4

/-- R375, R140: the comparators of a lane access to space 0, judged before its checks. -/
def State.watchLanes (s : State) (h : Hart) (space : Nat) (acc : BitVec 2) (as : List LaneAcc) (n : Nat) (f : State → State) : State :=
  if space = 0 then s.watching h acc (as.map (fun a => (a.1, a.2.2))) n f else f s

/-- R144: `lld`. -/
def laneLoad (i : Instr) (m : LaneMem) (policy : Nat) (imm : BitVec 16) (s : State) : Out :=
  laneMemory i (dwordMasked m) s fun h s0 =>
    let n := sizeBytes m
    let space := m.space.toNat
    let useL1 := usesL1 s h space policy
    let as : List LaneAcc := (h.activeLanes m.guard).map (fun l => (l, laneAddr h m imm l, laneAddr h m imm l))
    s0.watchLanes h space 1 as n fun s1 =>
      s1.checkLanes h space n false true useL1 as fun (spots : List Spot) s2 =>
        s2.unlessLocked i spots fun s3 =>
          s3.withRoom h (s3.logRoom h n spots) fun s4 =>
            let live : List Spot := match s4.hart? s4.cur with
              | none => []
              | some k => spots.filter (fun p => k.lanes.em.getLsbD p.lane)
            let away := (space == 0 && live.any (fun p => !s4.l1Serves p.owner p.addr useL1)) ||
              ((space == 2 || space == 3) && !live.isEmpty)
            s4.withData i away fun s5 =>
              let r := live.foldl (fun (acc : List (Nat × Nat) × State) p =>
                let v := if s5.ordered h then acc.2.orderedRead h p n else acc.2.laneRead policy p n
                (acc.1 ++ [(p.lane, laneLoaded m v.1)], v.2)) ([], s5)
              let t : Ty := if m.size = 3 then .f64 else .i32
              match r.2.hart? r.2.cur with
              | none => r.2
              | some k =>
                let k' := r.1.foldl (fun q e => q.setLaneVal t m.vd.toNat e.1 e.2) k
                r.2.laneDone k k' (destRegs t m.vd.toNat) (!live.isEmpty) 8

/-- R144, R138. -/
def execLld (m : LaneMem) (policy : BitVec 2) (s : State) : Out := laneLoad (.lld m policy) m policy.toNat 0 s

/-- R144, R45: the immediate form, with the normal policy. -/
def execLldImm (m : LaneMem) (imm : BitVec 16) (s : State) : Out := laneLoad (.lldImm m imm) m 0 imm s

/-- R146: the accesses of `lldt`: the 32 words of each active row. -/
def rowAccesses (h : Hart) (m : LaneMem) (imm : BitVec 16) : List LaneAcc :=
  ((h.activeLanes unguarded).map (fun l =>
    let row := h.getX (xOf m.xb) + sext64 imm + BitVec.ofNat 64 l * h.getX (xOf m.vo)
    (upTo 32).map (fun j => (l, row, row + BitVec.ofNat 64 (4 * j))))).flatten

/-- R146: `lldt`. -/
def laneBlock (i : Instr) (m : LaneMem) (policy : Nat) (imm : BitVec 16) (s : State) : Out :=
  laneMemory i (fun t h => t.pfmask h 7) s fun h s0 =>
    let space := m.space.toNat
    let useL1 := usesL1 s h space policy
    let as := rowAccesses h m imm
    s0.watchLanes h space 1 as 4 fun s1 =>
      s1.checkLanes h space 4 false true useL1 as fun (spots : List Spot) s2 =>
        s2.unlessLocked i spots fun s3 =>
          s3.withRoom h (s3.logRoom h 4 spots) fun s4 =>
            let live : List (Spot × Nat) := match s4.hart? s4.cur with
              | none => []
              | some k => (spots.zipIdx).filter (fun p => k.lanes.em.getLsbD p.1.lane)
            let away := (space == 0 && live.any (fun p => !s4.l1Serves p.1.owner p.1.addr useL1)) ||
              ((space == 2 || space == 3) && !live.isEmpty)
            s4.withData i away fun s5 =>
              let r := live.foldl (fun (acc : List (Nat × Nat × Nat) × State) p =>
                let v := if s5.ordered h then acc.2.orderedRead h p.1 4 else acc.2.laneRead policy p.1 4
                ((p.1.lane, p.2 % 32, natOfBytes v.1) :: acc.1, v.2)) ([], s5)
              match r.2.hart? r.2.cur with
              | none => r.2
              | some k =>
                let k' := r.1.foldl (fun q e => q.setV (m.vd.toNat + e.2.1) e.1 (BitVec.ofNat 32 e.2.2)) k
                r.2.laneDone k k' ((upTo 32).map (fun j => m.vd.toNat + j)) (!live.isEmpty) 8

/-- R146, R138. -/
def execLldt (m : LaneMem) (policy : BitVec 2) (s : State) : Out := laneBlock (.lldt m policy) m policy.toNat 0 s

/-- R146, R45. -/
def execLldtImm (m : LaneMem) (imm : BitVec 16) (s : State) : Out := laneBlock (.lldtImm m imm) m 0 imm s

/-- R134: an access of the acting hart marks the slice group of its place. -/
def State.touchSpot (s : State) (p : Spot) : State :=
  if p.space = 0 ∨ p.space = 3 then
    s.modCur (fun k => k.touch (s.placeOf p.space p.owner p.addr) (p.space == 0 && s.isFar p.owner p.addr))
  else s

/-- R136, R138, R167: what an `lst` to a line does to the core's caches at issue: the lane L1 line is updated, or
invalidated under bypass; the hart data cache's line is invalidated. -/
def State.storeCaches (s : State) (p : Spot) (bs : List Byte) (bypass : Bool) : State :=
  if p.space = 0 then
    s.modCore (coreOf s.cur) (fun c =>
      let key := lineKey p.owner p.addr
      let c1 := { c with hdc := Map.del c.hdc key }
      if bypass then { c1 with l1 := Map.del c1.l1 key }
      else match Map.find c1.l1 key with
        | none => c1
        | some l => { c1 with l1 := Map.put c1.l1 key { l with data := setLineBytes l.data (p.addr % 128) bs } })
  else s

/-- A write of the acting hart's lane as a write in flight. -/
def Spot.flight (p : Spot) (hart : Nat) (bs : List Byte) : Flight :=
  { hart := hart, space := p.space, owner := p.owner, addr := p.addr, bytes := bs, held := false, gva := p.va }

/-- R129, R166: the writes of one instruction: at once in spaces 1 and 4, else performed together after a latency. -/
def State.issueWrites (s : State) (ws : List (Spot × List Byte)) : State :=
  let near := ws.filter (fun w => w.1.space == 4 || w.1.space == 1)
  let far := ws.filter (fun w => !(w.1.space == 4 || w.1.space == 1))
  let s1 := near.foldl (fun t w =>
    if w.1.space = 1 then t.spadWrite w.1.owner w.1.addr w.2
    else t.modCur (fun k => { k with lanes := { k.lanes with slice := Memory.store k.lanes.slice (w.1.lane * 256 + w.1.addr) w.2 } })) s
  if far.isEmpty then s1
  else if s1.latency = 0 then
    far.foldl (fun t w => (t.readySpots [w.1]).performFlight (t.owned (w.1.flight t.cur w.2))) s1.popLatency
  else
    let core := coreOf s1.cur
    let s2 := s1.modCore core (fun c => { c with flight := c.flight ++ far.map (fun w => s1.owned (w.1.flight s1.cur w.2)) })
    let places := (far.map (fun w => s1.placeOf w.1.space w.1.owner w.1.addr)).eraseDups
    places.foldl (fun t pl => t.plan s1.latency .writePerformed { nats := [core, pl] }) s2.popLatency

/-- R173, R176: a write by an item: into its buffer while it is speculative. -/
def State.bufferWrite (s : State) (h : Hart) (p : Spot) (bs : List Byte) : Option State :=
  if p.space = 4 then none
  else match h.role.launch, s.laneItem h p.lane with
    | some l, some i =>
      if i.nonspec then none
      else some (s.modLaunch l (fun L => L.modItem i.index (fun j => j.put p.space p.owner p.addr bs)))
    | _, _ => none

/-- R173, R176: sectors the writes of an instruction need on the core. -/
def State.sectorRoom (s : State) (h : Hart) (spots : List Spot) : Bool :=
  let want := (spots.filterMap (fun p => if p.space = 4 then none else
    match s.laneItem h p.lane with
    | none => none
    | some i =>
      let sec := (p.space, p.owner, p.addr / 32)
      if i.nonspec || i.sectors.contains sec then none else some (i.index, sec))).eraseDups
  decide (s.sectorsUsed (coreOf s.cur) + want.length ≤ 1024)

/-- R176, R178: the direct writes of an ordered launch's items are performed, and their lines sent. -/
def State.sendDirect (s : State) (h : Hart) (spots : List Spot) : State :=
  match h.role.launch with
  | none => s
  | some l =>
    if s.ordered h then
      spots.foldl (fun t p => match t.laneItem h p.lane with
        | some i => if p.space = 4 then t else t.sendLines l [i.index] [lineName p.space p.owner p.addr]
        | none => t) (s.readySpots spots)
    else s

/-- R145: `lst`. -/
def laneStore (i : Instr) (m : LaneMem) (policy : Nat) (imm : BitVec 16) (s : State) : Out :=
  laneMemory i (dwordMasked m) s fun h s0 =>
    let n := sizeBytes m
    let space := m.space.toNat
    let as : List LaneAcc := (h.activeLanes m.guard).map (fun l => (l, laneAddr h m imm l, laneAddr h m imm l))
    let t : Ty := if m.size = 3 then .f64 else .i32
    s0.watchLanes h space 2 as n fun s1 =>
      s1.checkLanes h space n true false false as fun (spots : List Spot) s2 =>
        s2.unlessLocked i spots fun s3 =>
          s3.withRoom h (s3.sectorRoom h spots) fun s4 =>
            let live : List Spot := match s4.hart? s4.cur with
              | none => []
              | some k => spots.filter (fun p => k.lanes.em.getLsbD p.lane)
            let ws := live.map (fun p => (p, bytesOfNat (h.laneVal t m.vd.toNat p.lane) n))
            let marked := live.foldl State.touchSpot s4
            let split := ws.foldl (fun (acc : List (Spot × List Byte) × State) w =>
              match if s4.ordered h then acc.2.bufferWrite h w.1 w.2 else none with
              | some t => (acc.1, t)
              | none => (acc.1 ++ [w], acc.2.storeCaches w.1 w.2 (policy == 2))) ([], marked)
            let done := split.2.modCur (fun k => (if split.1.any (fun w => w.1.space == 4 || w.1.space == 1) then k.hangClear s.now else k).retire 8)
            (done.issueWrites split.1).sendDirect h (split.1.map (·.1))

/-- R145, R138. -/
def execLst (m : LaneMem) (policy : BitVec 2) (s : State) : Out := laneStore (.lst m policy) m policy.toNat 0 s

/-- R145, R45. -/
def execLstImm (m : LaneMem) (imm : BitVec 16) (s : State) : Out := laneStore (.lstImm m imm) m 0 imm s

/-- R147: `fadd_atomic`. -/
def fAddAtomic (x y : Nat) : Nat :=
  let F := floatFmt 0
  (F.encode .rne 0 ((F.value false x).add .rne (F.value false y)).1).pat

/-- R46, R147: `apply`: the new value from the old, the operand, all of n bytes. -/
def lamoApply (op n old sv : Nat) : Nat :=
  let w := 8 * n
  match op with
  | 1 => (old + sv) % 2 ^ w
  | 2 => old &&& sv
  | 3 => old ||| sv
  | 4 => old ^^^ sv
  | 5 => if asSigned w old ≤ asSigned w sv then old else sv
  | 6 => if asSigned w old ≤ asSigned w sv then sv else old
  | 7 => min old sv
  | 8 => max old sv
  | 10 => fAddAtomic old sv
  | _ => sv

/-- A write performed at its place at once. -/
def State.spotWrite (s : State) (p : Spot) (bs : List Byte) : State :=
  match p.space with
  | 0 => (s.writeHome p.owner p.addr bs none).spoilRing p.owner p.addr bs.length
  | 3 => s.dsWrite (p.owner / 64) (p.owner % 64) p.addr bs
  | 4 => s.modCur (fun k => { k with lanes := { k.lanes with slice := Memory.store k.lanes.slice (p.lane * 256 + p.addr) bs } })
  | _ => s.spadWrite p.owner p.addr bs

/-- R147: the read-modify-write of one lane. -/
def State.lamoLane (s : State) (h : Hart) (t : Ty) (n op vd vs : Nat) (p : Spot) : State :=
  let s1 := s.readySpots [p]
  let old := natOfBytes (s1.spotBytes p n)
  let new := lamoApply op n old (h.laneVal t vs p.lane)
  let writes := op ≠ 9 ∨ old = h.laneVal t vd p.lane
  let s2 := if p.space = 0 then (s1.cleanHdc p.owner p.addr none).dropL1 (coreOf s.cur) p.owner p.addr else s1
  let s3 := if writes then ((s2.spotWrite p (bytesOfNat new n)).touchSpot p).sendDirect h [p] else s2
  s3.modCur (fun k => k.setLaneVal t vd p.lane old)

/-- R136: the lines an `lamo` names leave the core's lane L1 at issue. -/
def State.dropSpots (s : State) (spots : List Spot) : State :=
  spots.foldl (fun t p => if p.space = 0 then t.dropL1 (coreOf s.cur) p.owner p.addr else t) s

/-- R46: the orders of an `lamo` that release and that acquire. -/
def lamoReleases (order : BitVec 3) : Bool := order == 2 || order == 3 || order == 4
def lamoAcquires (order : BitVec 3) : Bool := order == 1 || order == 3 || order == 4

/-- R147, R143: `lamo`; in an ordered launch it first waits to execute non-speculatively. -/
def execLamo (m : LaneMem) (op : BitVec 4) (order scope : BitVec 3) (vs : BitVec 6) (s : State) : Out :=
  let i : Instr := .lamo m op order scope vs
  laneMemory i (fun t h => t.pfmask h 3 || dwordMasked m t h) s fun h0 s00 =>
    s00.stalling h0 fun s0 =>
      match s0.hart? s0.cur with
      | none => s0
      | some h =>
        let n := sizeBytes m
        let space := m.space.toNat
        let as : List LaneAcc := (h.activeLanes m.guard).map (fun l => (l, laneAddr h m 0 l, laneAddr h m 0 l))
        let t : Ty := if m.size = 3 then .f64 else .i32
        s0.watchLanes h space 3 as n fun s1 =>
          s1.checkLanes h space n true true false as fun (spots : List Spot) s2 =>
            s2.unlessLocked i spots fun s3 =>
              s3.fence scope.toNat (lamoReleases order) false i fun s4 =>
                (s4.dropSpots spots).withData i ((space == 0 || space == 2 || space == 3) && !spots.isEmpty) fun s5 =>
                  let s6 := spots.foldl (fun a p => a.lamoLane h t n op.toNat m.vd.toNat vs.toNat p) s5
                  let s7 := if lamoAcquires order then s6.acquire (coreOf s6.cur) scope.toNat else s6
                  match s7.hart? s7.cur with
                  | none => s7
                  | some k => s7.laneDone k (if spots.isEmpty then k else k.hangClear s.now) (destRegs t m.vd.toNat) (!spots.isEmpty) 8

/-- R148: one line requested by `lpref`: filled where it can be, dropped otherwise. -/
def State.prefetch (s : State) (h : Hart) (policy : Nat) (va : DWord) : State :=
  let c := h.ctx .load
  match s.stage1 (coreOf s.cur) c [] va .load with
  | .gpa g =>
    match s.atHome h.role.part g with
    | .ready s1 => if policy = 2 ∨ s1.ordered h ∨ s1.heldAt (coreOf s.cur) h.role.part g = true then s1
        else (s1.drainPlace (coreOf s.cur) (s1.home h.role.part g)).allocL1 h.role.part g (policy == 1)
    | .far _ => if policy = 2 ∨ s.ordered h then s else s.allocL1 h.role.part g (policy == 1)
    | .integrity t => t.integrityError h.role.part g 1 (coreOf s.cur) (slotOf s.cur) va
    | _ => s
  | .miss => (s.queueMiss (clusterOf s.cur) 1000000 c va .load 1).1
  | _ => s

/-- R148: the lines an `lpref` names. -/
def prefetchLines (h : Hart) (m : LaneMem) (imm : BitVec 16) : List DWord :=
  ((h.activeLanes m.guard).map (fun l =>
    let first := laneAddr h m imm l &&& ~~~127
    (upTo (2 ^ m.size.toNat)).map (fun j => first + BitVec.ofNat 64 (128 * j)))).flatten.eraseDups

/-- R148: `lpref`. -/
def lanePrefetch (m : LaneMem) (policy : Nat) (imm : BitVec 16) (s : State) : Out :=
  onHart s fun h =>
    let s1 := if m.space = 0 then (prefetchLines h m imm).foldl (fun t va => t.prefetch h policy va) s else s
    s1.modCur (fun k => k.retire 8)

/-- R148, R138. -/
def execLpref (m : LaneMem) (policy : BitVec 2) (s : State) : Out := lanePrefetch m policy.toNat 0 s

/-- R148, R45. -/
def execLprefImm (m : LaneMem) (imm : BitVec 16) (s : State) : Out := lanePrefetch m 0 imm s

end Sys2Proof.Machine
end

