-- ==== Sys2Proof/Machine/Sync.lean ====
section
/-! DEFINITION. Fences (R199 to R201), `waita` and its watches (R150, R151), scratchpad bank locks (R152, R153), pending
asynchronous causes (R363), and the waits that an interrupt or pre-emption ends. -/

namespace Sys2Proof.Machine

open Sys2Proof

/-- R199: `pfence`. -/
def execPfence (scope : BitVec 3) (order : BitVec 2) (s : State) : Out :=
  onHart s fun _ => s.fence scope.toNat (order.getLsbD 1) (order.getLsbD 0) (.pfence scope order) fun t =>
    t.modCur (fun k => k.retire 4)

/-- R200, R201: the waits of `xfence` and `ofence`, which are those of a release at P. -/
def engineFence (i : Instr) (s : State) : Out :=
  onHart s fun h => s.stalling h fun s1 => s1.releasing scP i fun t => t.modCur (fun k => k.retire 4)

/-- R200. -/
def execXfence (s : State) : Out := engineFence .xfence s

/-- R201. -/
def execOfence (s : State) : Out := engineFence .ofence s

/-- R150: a hart's watch is deregistered. -/
def State.dropWatch (s : State) (k : Nat) : State :=
  { s with dies := Map.mapVal s.dies (fun _ d => { d with slices := Map.mapVal d.slices (fun _ sl =>
    { sl with watches := sl.watches.filter (fun w => w.hart != k) }) }) }

/-- R152: a hart's requests and waiting accesses leave the queues of its core. -/
def State.dropLockRequests (s : State) (k : Nat) : State :=
  s.modCore (coreOf k) (fun c => { c with lockq := c.lockq.filter (fun e => e.2 != k) })

/-- R307, R319: a hart that waits for no walk any more is a requester of none. -/
def State.dropMisses (s : State) (k : Nat) : State :=
  s.modCluster (clusterOf k) (fun c => { c with tscq := c.tscq.map (fun e => { e with requesters := e.requesters.filter (· != k) }) })

/-- R111: the children that a hart's `spw` in hand has reserved and not written are voided. -/
def State.dropSpawn (s : State) (k : Nat) (h : Hart) : State :=
  match h.run.spawn with
  | none => s
  | some (t, ls) => (ls.foldl (fun u e => u.voidChild t e.2) s).modHarts (fun j _ => j == k) (fun _ g => { g with run := { g.run with spawn := none } })

/-- A hart's wait ends, with what it had registered elsewhere. -/
def State.endWait (s : State) (k : Nat) : State :=
  match s.hart? k with
  | none => s
  | some h =>
    let s1 := (s.setHart k (h.unpark s.now)).dropSpawn k h
    match h.run.wait with
    | some (.waita _ _ _) => s1.dropWatch k
    | some (.lock _ _) => s1.dropLockRequests k
    | some .walk => s1.dropMisses k
    | _ => s1

/-- R78, R150, R152, R197, R198, R319: waits that an interrupt or a pre-emption ends. -/
def Wait.yields : Wait → Bool
  | .wfi | .waita _ _ _ | .jwait _ _ | .jyield _ _ | .lock _ none | .replay => true
  | .lock _ (some _) | .data _ _ | .walk | .queueFull | .release _ _ | .claim _ _ | .barrier _ | .ordered | .sfence _
  | .firmware | .die _ | .reinstate | .swap _ _ _ _ => false

/-- R187: waits that an asynchronous cause ends. -/
def Wait.endsOnCause : Wait → Bool
  | .wfi | .waita _ _ _ | .jwait _ _ | .jyield _ _ => true
  | .lock _ _ | .replay | .data _ _ | .walk | .queueFull | .release _ _ | .claim _ _ | .barrier _ | .ordered | .sfence _
  | .firmware | .die _ | .reinstate | .swap _ _ _ _ => false

/-- R363: an asynchronous cause becomes pending on a hart: at most 4 are held. -/
def State.pushCause (s : State) (k cause : Nat) (tval : DWord) : State :=
  match s.hart? k with
  | none => s
  | some h =>
    let h1 := if h.run.aq.length < 4 then { h with run := { h.run with aq := h.run.aq ++ [(cause, tval)] } }
      else { h with run := { h.run with aqOvf := true } }
    let s1 := s.setHart k h1
    match h.run.wait with
    | some w => if w.endsOnCause then s1.endWait k else s1
    | none => s1

/-- R364: a job's completion reaches a hart's queue of interrupt 19. -/
def State.pushIrq19 (s : State) (k : Nat) (job : DWord) : State :=
  s.modHarts (fun j _ => j == k) (fun _ h =>
    if h.run.iq19.length < 4 then { h with run := { h.run with iq19 := h.run.iq19 ++ [job] } }
    else { h with run := { h.run with iq19Ovf := true } })

/-- R151: a watch entered in a slice's table of 256; a full one gives up its oldest, whose hart resumes with status 3. -/
def State.registerWatch (s : State) (place : Nat) (w : Watch) : State :=
  let d := s.die (place / 64)
  let sl := d.slice (place % 64)
  let put := fun (l : List Watch) => s.setDie (place / 64) { d with slices := Map.put d.slices (place % 64) { sl with watches := l ++ [w] } }
  if sl.watches.length < 256 then put sl.watches
  else
    match sl.watches with
    | [] => put []
    | o :: rest =>
      let s1 := put rest
      match s.hart? o.hart with
      | none => s1
      | some h => match h.run.wait with
        | some (.waita _ xd a) =>
          let s2 := s1.nextTag
          ((s2.setHart o.hart { h with run := { h.run with wait := some (.waita s2.tag xd a) } }).popLatency).plan s2.latency
            .waitaWake { nats := [o.hart, s2.tag, 3] }
        | _ => s1

/-- R150: a `waita` ends: the status is written and the acquire made. -/
def State.finishWaita (s : State) (xd : BitVec 5) (status : Nat) : State :=
  (s.acquire (coreOf s.cur) scP).modCur (fun k => (k.setX xd (BitVec.ofNat 64 status)).retire 4)

/-- R150: `waita`. -/
def execWaita (xd xa xt : BitVec 5) (s : State) : Out :=
  onHart s fun h =>
    let va := h.getX xa
    if s.pfmask h 6 then s.masked h (.waita xd xa xt)
    else s.watching h 1 [(32, va)] 8 fun s0 =>
      if s0.ordered h then s0.raise 31 0
      else if va.toNat % 8 ≠ 0 then s0.raise 4 va
      else ((s0.translate h va .load).bind fun gpa s1 => (s1.lineFor h va gpa .load).bind fun _ s2 => .ok gpa s2).done fun gpa s2 =>
        let s3 := (s2.ready h.role.part gpa).cleanHdc h.role.part gpa none
        if natOfBytes (s3.bytesAt h.role.part gpa 8) ≠ (h.getX xd).toNat then s3.finishWaita xd 2
        else
          let s4 := s3.nextTag
          let s5 := (s4.registerWatch (s4.home h.role.part gpa) ⟨s.cur, ⟨h.role.part, gpa / 128⟩⟩).modCur
            (fun k => k.park (.waita s4.tag xd ⟨h.role.part, gpa / 128⟩) s.now)
          if h.getX xt = 0 then s5 else s5.plan (h.getX xt).toNat .waitaTimeout { nats := [s.cur, s4.tag] }

/-- R152: the number of banks a hart holds. -/
def State.locksHeld (s : State) (k : Nat) : Nat :=
  ((s.core (coreOf k)).locks.filter (fun l => l.2.holder == k)).length

/-- R153: a bank is granted to a hart: the acquire at C is made and the timeout set. -/
def State.grantBank (s : State) (core bank k : Nat) : State :=
  match s.hart? k with
  | none => s
  | some h =>
    let s1 := s.nextTag
    ((s1.modCore core (fun c => { c with locks := Map.put c.locks bank ⟨k, s1.tag⟩ })).acquire core scC).plan
      (max h.dev.lkto.toNat 1024) .bankLockBreak { nats := [core, bank, s1.tag] }

/-- R152: a bank's next request or access is served where one waits. -/
def State.serveBank (s : State) (core bank : Nat) : State :=
  if (s.core core).lockq.any (fun e => e.1 == bank) then s.plan 0 .bankLockGrant { nats := [core, bank] } else s

/-- R152, R153: a bank is freed. -/
def State.freeBank (s : State) (core bank : Nat) : State :=
  (s.modCore core (fun c => { c with locks := Map.del c.locks bank })).serveBank core bank

/-- R152, R154: every bank a hart holds is freed. -/
def State.freeLocks (s : State) (k : Nat) : State :=
  ((s.core (coreOf k)).locks.filter (fun l => l.2.holder == k)).foldl (fun t l => t.freeBank (coreOf k) l.1) s

/-- R152: x[xb] names no bank the hart may lock. -/
def State.badBank (s : State) (h : Hart) (b : DWord) : Bool :=
  match s.part? h.role.part with
  | none => true
  | some p => decide (31 < b.toNat) || decide (524288 - p.lentBytes ≤ b.toNat * 16384) || !p.banks.getLsbD b.toNat

/-- R152: the hart holds the bank. -/
def State.holdsBank (s : State) (k bank : Nat) : Bool :=
  match Map.find (s.core (coreOf k)).locks bank with
  | none => false
  | some l => l.holder == k

/-- R152: `lkbank`. -/
def execLkbank (xb : BitVec 5) (s : State) : Out :=
  onHart s fun h =>
    let b := h.getX xb
    let core := coreOf s.cur
    if s.ordered h then s.raise 31 0
    else if s.badBank h b then s.illegal h (.lkbank xb)
    else if s.holdsBank s.cur b.toNat then s.retire h 4
    else if 4 ≤ s.locksHeld s.cur then s.illegal h (.lkbank xb)
    else if (Map.find (s.core core).locks b.toNat).isNone && !(s.core core).lockq.any (fun e => e.1 == b.toNat) then
      (s.grantBank core b.toNat s.cur).modCur (fun k => k.retire 4)
    else (s.modCore core (fun c => { c with lockq := c.lockq ++ [(b.toNat, s.cur)] })).modCur
      (fun k => k.park (.lock b.toNat none) s.now)

/-- R152: `ulkbank`; its release at C completes at issue (R168). -/
def execUlkbank (xb : BitVec 5) (s : State) : Out :=
  onHart s fun h =>
    let b := h.getX xb
    if s.ordered h then s.raise 31 0
    else if s.badBank h b then s.illegal h (.ulkbank xb)
    else if s.holdsBank s.cur b.toNat then (s.freeBank (coreOf s.cur) b.toNat).modCur (fun k => k.retire 4)
    else s.retire h 4

end Sys2Proof.Machine
end

