-- ==== Sys2Proof/Machine/Items.lean ====
section
/-! DEFINITION. Items and lanes: the supply of items (R96, R97, R104), `rfl`, `xit`, retirement of a hart (R95 to R99, R109,
R110), barriers (R101 to R103, R108), `spw` and `enq` (R111, R112). -/

namespace Sys2Proof.Machine

open Sys2Proof

/-- R96: the timestamp of an index of an ordered launch that is not open. -/
def Launch.tsOf (l : Launch) (index : Nat) : Nat := (l.pkt.mode.toNat + index) * 2 ^ 16

/-- R172: an item newly claimed by a lane. -/
def newItem (k lane index ts : Nat) : OrdItem :=
  { index := index, ts := ts, holder := some (k, lane), claimed := true, exited := false, nonspec := false, core := coreOf k,
    hart := k, buf := [], reads := [], flags := 0, children := [] }

/-- R97: the index that a lane's step `j` of a slice names, where it lies in the slice. -/
def Launch.sliceIndex (l : Launch) (sl lane j : Nat) : Option Nat :=
  let S := max l.pkt.mode.toNat 1
  let len := (l.pkt.count + S - 1) / S
  let i := sl * len + lane + 32 * j
  if i < min ((sl + 1) * len) l.pkt.count then some i else none

/-- R126: an index claimed for the first time. -/
def Launch.claimed (l : Launch) (i : Nat) : Launch := { l with high := max l.high (i + 1) }

/-- R104: the argument of an item whose record software stored to is an undefined value. -/
def State.spoilArgument (s : State) (part k : Nat) (c : Child) : State :=
  match c.spoilt, c.at_ with
  | true, some a =>
    (s.drawn).performFlight (s.owned { hart := k, space := 0, owner := part, addr := a + 8, bytes := bytesOfNat (s.free 32).toNat 4,
                                       held := false, gva := 0 })
  | _, _ => s

/-- R96: `next_item`: an item for a lane of a hart, with its timestamp, and the state with it claimed. -/
def State.nextItem (s : State) (lid k lane : Nat) : Option (Nat × Nat) × State :=
  match s.launch? lid with
  | none => (none, s)
  | some L =>
    if L.ended then (none, s)
    else
      match L.items.find? (fun i => L.requeued.contains i.index) with
      | some i =>
        (some (i.index, i.ts), s.setLaunch lid { L.modItem i.index (fun o => { o with
          holder := some (k, lane), claimed := true, exited := false, core := coreOf k, hart := k }) with
            requeued := L.requeued.filter (fun r => r != i.index) })
      | none =>
        if L.pkt.determ then
          match s.hart? k with
          | none => (none, s)
          | some h => match h.role.slice with
            | none => (none, s)
            | some sl =>
              match L.sliceIndex sl lane (h.role.steps.getD lane 0) with
              | none => (none, s)
              | some i => (some (i, 0), (s.setLaunch lid (L.claimed i)).setHart k { h with role := { h.role with steps := h.role.steps.set! lane (h.role.steps.getD lane 0 + 1) } })
        else if L.pkt.open_ then
          match L.children.find? (fun c => c.claimable && !c.claimed) with
          | none => (none, s)
          | some c =>
            let L0 := L.claimed c.index
            let L1 := { L0 with
              children := L.children.map (fun d => if d.index = c.index then { d with claimed := true } else d)
              next := max L.next (c.index + 1) }
            (some (c.index, c.ts), (s.setLaunch lid
              (if L.pkt.ordered then { L1 with items := insertItem (newItem k lane c.index c.ts) L1.items } else L1)).spoilArgument L.part k c)
        else if L.next < L.pkt.count then
          let i := L.next
          let L1 := { L.claimed i with next := i + 1 }
          (some (i, L.tsOf i), s.setLaunch lid
            (if L.pkt.ordered then { L1 with items := insertItem (newItem k lane i (L.tsOf i)) L1.items } else L1))
        else (none, s)

/-- R109: `sr_seed`. -/
def srSeed (seed : BitVec 32) (item : Nat) : Word :=
  let z := seed ^^^ BitVec.ofNat 32 (item % 2 ^ 32) ^^^ BitVec.ofNat 32 (bits item 47 32 * 2 ^ 16)
  if z = 0 then 1 else z

/-- R109: a lane takes an item. -/
def Hart.fillLane (h : Hart) (l item ts : Nat) (again : Bool) (cohort : BitVec 32) : Hart :=
  { h with lanes := { h.lanes with
      item := h.lanes.item.set! l (BitVec.ofNat 48 item)
      gen := if again then h.lanes.gen.set! l (h.lanes.gen.getD l 0 + 1) else h.lanes.gen
      cohort := h.lanes.cohort.set! l cohort
      fresh := setMask h.lanes.fresh l true
      ts := h.lanes.ts.set! l (BitVec.ofNat 64 ts)
      p := h.lanes.p.map (fun m => setMask m l false)
      sticky := h.lanes.sticky.set! l 0
      sr := h.lanes.sr.set! l (srSeed h.dev.lseed item)
      occ := setMask h.lanes.occ l true
      em := setMask h.lanes.em l true } }

/-- R91, R109: the vacant lanes of a hart are filled in ascending order; the mask of the lanes filled. `again` is false at
dispatch: the generation stays. -/
def State.fillLanes (s : State) (lid k : Nat) (again : Bool) (cohort : BitVec 32) : Word × State :=
  allLanes.foldl (fun (acc : Word × State) l =>
    match acc.2.hart? k with
    | none => acc
    | some h =>
      if h.lanes.occ.getLsbD l then (acc.1, acc.2.setHart k { h with lanes := { h.lanes with fresh := setMask h.lanes.fresh l false } })
      else
        match acc.2.nextItem lid k l with
        | (some (i, ts), t) => (setMask acc.1 l true, t.modHarts (fun j _ => j == k) (fun _ g => g.fillLane l i ts again cohort))
        | (none, t) => (acc.1, t.setHart k { h with lanes := { h.lanes with fresh := setMask h.lanes.fresh l false } })) (0, s)

/-- R87: once a launch has no index left that was never claimed, the packets behind it may activate. -/
def State.noteClaims (s : State) (l : Nat) : State :=
  match s.launch? l with
  | none => s
  | some L => if !L.pkt.open_ && (L.pkt.determ || decide (L.pkt.count ≤ L.next)) then s.kickActivate L.part else s

/-- R101: the harts of a core group, or of a cluster group. -/
def State.groupHarts (s : State) (l unit : Nat) (member : Option Nat) : List Nat :=
  (s.harts.filter (fun e => e.2.role.launch == some l && e.2.role.unit == unit &&
    (match member with
      | none => true
      | some m => e.2.role.member == m))).map (·.1)

/-- R101: a group's barrier in a list. -/
def Barrier.is (b : Barrier) (l unit member : Nat) : Bool := b.launch == l && b.unit == unit && b.member == member

/-- R101: the barrier of a hart's core group or cluster group; the cluster's carries member 0. -/
def State.barrierOf (s : State) (k : Nat) (h : Hart) (cluster : Bool) : Option Barrier :=
  match h.role.launch with
  | none => none
  | some l =>
    if cluster then (s.cluster (clusterOf k)).bar.find? (fun b => b.is l h.role.unit 0)
    else (s.core (coreOf k)).bar.find? (fun b => b.is l h.role.unit h.role.member)

/-- R101: a barrier of a hart's groups changed. -/
def State.modBarrier (s : State) (k l unit member : Nat) (cluster : Bool) (f : Barrier → Barrier) : State :=
  if cluster then
    s.modCluster (clusterOf k) (fun c => { c with bar := c.bar.map (fun b => if b.is l unit 0 then f b else b) })
  else s.modCore (coreOf k) (fun c => { c with bar := c.bar.map (fun b => if b.is l unit member then f b else b) })

/-- R102: every participant has arrived. -/
def State.barrierFull (s : State) (b : Barrier) (cluster : Bool) : Bool :=
  let ps := s.groupHarts b.launch b.unit (if cluster then none else some b.member)
  !ps.isEmpty && ps.all (fun p => b.arrived.contains p)

/-- R102, R103: the release follows the last arrival within 16 or 48 cycles, a retirement at once. -/
def State.checkBarrier (s : State) (k l unit member : Nat) (cluster atOnce : Bool) : State :=
  let found := if cluster then (s.cluster (clusterOf k)).bar.find? (fun b => b.is l unit 0)
    else (s.core (coreOf k)).bar.find? (fun b => b.is l unit member)
  match found with
  | none => s
  | some b =>
    let args : EventArgs := { nats := [l, unit, if cluster then 0 else member], ok := cluster }
    if !s.barrierFull b cluster then s
    else if atOnce then s.plan 0 .barrierRelease args
    else (s.popLatency).plan (min s.latency (if cluster then 48 else 16)) .barrierRelease args

/-- R108: `bar` arrives and waits; a hart that had arrived before it was saved only waits. -/
def barrierOp (i : Instr) (cluster : Bool) (s : State) : Out :=
  onHart s fun h =>
    match s.launchOf h, h.role.launch, s.barrierOf s.cur h cluster with
    | some L, some l, some _ =>
      if !L.pkt.gang || L.pkt.ordered then s.raise 29 0
      else if h.run.barw then s.modCur (fun k => k.park (.barrier cluster) s.now)
      else s.fence (if cluster then scK else scC) true false i fun t =>
        let t1 := t.modBarrier t.cur l h.role.unit h.role.member cluster (fun b =>
          { b with arrived := b.arrived ++ [t.cur], flags := b.flags ||| h.dev.lflags })
        let t2 := t1.modCur (fun k => { k.park (.barrier cluster) t.now with
          run := { (k.park (.barrier cluster) t.now).run with barw := true } })
        t2.checkBarrier t.cur l h.role.unit h.role.member cluster false
    | _, _, _ => s.raise 29 0

/-- R108. -/
def execBarC (s : State) : Out := barrierOp .barC false s

/-- R108. -/
def execBarK (s : State) : Out := barrierOp .barK true s

/-- R99: jobs of a launch that have not completed. -/
def State.jobsOf (s : State) (l : Nat) : Bool :=
  s.clusters.any (fun c => c.2.jobs.any (fun j => j.2.launch == some l && j.2.state != .done && j.2.state != .failed))

/-- R99, R315: a store of a launch waits for the host, or for a die. -/
def State.launchHeld (s : State) (l : Nat) : Bool := s.cores.any (fun c => c.2.flight.any (fun f => f.held && f.launch == some l))

/-- R99, R104: everything that a launch's completion needs but, for an open launch, its dependences. -/
def State.launchDone (s : State) (l : Nat) (L : Launch) : Bool :=
  L.activated && !L.ended && !L.parked && L.saved.isEmpty && L.items.isEmpty
  && !s.harts.any (fun e => e.2.role.launch == some l) && !s.jobsOf l
  && !s.launchHeld l
  && (if L.pkt.open_ then L.children.isEmpty else decide (L.pkt.count ≤ L.exited))

/-- R99: the dispatcher notices that a launch may be complete. -/
def State.checkComplete (s : State) (l : Nat) : State :=
  match s.launch? l with
  | none => s
  | some L => if s.launchDone l L then (s.popLatency).plan s.latency .launchComplete { nats := [l] } else s

/-- R286: the flags of a retiring hart's ended and unobserved jobs go to its launch. -/
def State.jobFlagsToLaunch (s : State) (cl l hidx : Nat) (late : List (Nat × BitVec 6)) : State :=
  let mine := fun (j : Job) => j.launch == some l && j.hidx == hidx && (j.state == .done || j.state == .failed)
  let flags := ((s.cluster cl).jobs.filter (fun e => mine e.2)).foldl (fun f e => f ||| e.2.flags) (late.foldl (fun f e => f ||| e.2) 0)
  (s.modLaunch l (fun L => { L with flags := L.flags ||| flags })).modCluster cl (fun c =>
    { c with jobs := Map.mapVal c.jobs (fun _ j => if mine j then { j with flags := 0 } else j) })

/-- R425: a cluster without harts may become idle; it is gated `gidle` ticks later. -/
def State.restCluster (s : State) (cl : Nat) : State :=
  if s.harts.any (fun e => decide (e.1 < 32768) && clusterOf e.1 == cl) then s
  else (s.modCluster cl (fun c => { c with lastBusy := s.now })).plan (7 * s.pkg.gidle) .clusterGate { nats := [cl] }

/-- R126: the last hart of a launch that is being checkpointed has left: the launch may be parked. -/
def State.noteStop (s : State) (l k : Nat) : State :=
  match s.launch? l with
  | none => s
  | some L => if L.stopping && !s.harts.any (fun e => e.2.role.launch == some l) then s.plan 0 .hartSave { nats := [k, l] } else s

/-- R98, R103, R152: a hart retires: its slot becomes vacant, its locks are freed, it leaves its barrier groups. -/
def State.retireHart (s : State) (k : Nat) : State :=
  match s.hart? k with
  | none => s
  | some h =>
    let s0 := (((s.endWait k).freeLocks k).modCore (coreOf k) (fun c => { c with tcc := c.tcc.filter (· != k) })).delHart k
    match h.role.launch with
    | none => s0
    | some l =>
      let s1 := s0.jobFlagsToLaunch (clusterOf k) l h.role.hidx h.run.lateFlags
      let s2 := ((s1.checkBarrier k l h.role.unit h.role.member false true).checkBarrier k l h.role.unit h.role.member true true).noteStop l k
      (((s2.wakeOrdered l).checkComplete l).kickDispatch).restCluster (clusterOf k)

/-- R109: `rfl` once the claims may be made. -/
def State.refill (s : State) (h : Hart) (l : Nat) (xd : BitVec 5) : State :=
  let cohort := h.run.cohortCtr + 1
  let s1 := s.modCur (fun k => { k with run := { k.run with cohortCtr := cohort } })
  let filled := s1.fillLanes l s.cur true cohort
  let r := (filled.1, filled.2.noteClaims l)
  match r.2.hart? s.cur, r.2.launch? l with
  | some k, some L =>
    if k.lanes.occ = 0 then
      (if L.pkt.drain then
        r.2.setCur (({ (k.setX xd 0) with run := { k.run with drain := true } }).retireTo L.drainpc)
      else (r.2.modCur (fun g => g.retire 4)).retireHart s.cur)
    else
      r.2.setCur (((if r.1 = 0 then k else k.hangClear s.now).setX xd (zext64 r.1)).retire 4)
  | _, _ => r.2

/-- R109: `rfl`; a hart outside a launch has no items and no lane to fill. -/
def execRfl (xd : BitVec 5) (s : State) : Out :=
  onHart s fun h =>
    match h.role.launch with
    | none => (s.modCur (fun k => k.retire 4)).retireHart s.cur
    | some l =>
      if h.run.drain then
        (if h.lanes.occ = 0 then (s.modCur (fun k => k.retire 4)).retireHart s.cur
        else s.modCur (fun k => (k.setX xd 0).retire 4))
      else if h.lanes.occ = 0xFFFFFFFF || s.latency = 0 then
        (if h.lanes.occ = 0xFFFFFFFF then s else s.popLatency).refill h l xd
      else
        let s1 := (s.popLatency).nextTag
        (s1.modCur (fun k => k.park (.claim s1.tag (.rfl xd)) s.now)).plan s.latency .rflClaimAnswer { nats := [s.cur, s1.tag] }

/-- R174: the oldest item of a launch has exited: its commit comes. -/
def State.planCommit (s : State) (l : Nat) : State :=
  match s.launch? l with
  | none => s
  | some L => match L.items.head? with
    | none => s
    | some i => if i.exited then (s.popLatency).plan s.latency .itemCommit { nats := [l] } else s

/-- R110: the item of one lane ends. -/
def State.exitLane (s : State) (h : Hart) (l lane : Nat) : State :=
  let flags := h.lanes.sticky.getD lane 0
  let item := (h.lanes.item.getD lane 0).toNat
  let s1 := s.modLaunch l (fun L =>
    if L.pkt.ordered then
      match L.itemAt s.cur lane with
      | none => L
      | some i => L.modItem i.index (fun o => { o with exited := true, holder := none, flags := flags })
    else
      let L1 := { L with flags := L.flags ||| flags, exited := L.exited + 1 }
      if L.pkt.open_ then L1.childGone item else L1)
  s1.modCur (fun k => k.vacate lane)

/-- R110: `xit`; its releases at C complete at issue (R168). -/
def execXit (s : State) : Out :=
  onHart s fun h =>
    let ending := allLanes.filter (fun l => h.lanes.em.getLsbD l)
    match h.role.launch with
    | none => s.modCur (fun k => (ending.foldl (fun a l => a.vacate l) (if ending.isEmpty then k else k.hangClear s.now)).retire 4)
    | some l =>
      let s1 := ending.foldl (fun t lane => t.exitLane h l lane) s
      let s2 := s1.modCur (fun k => (if ending.isEmpty then k else k.hangClear s.now).retire 4)
      if ending.isEmpty then s2 else (if s2.ordered h then (s2.planCommit l).wakeOrdered l else s2)

/-- R104: the oldest active open launch of a queue. -/
def State.spawnTarget (s : State) (part q : Nat) : Option (Nat × Launch) :=
  if 255 < q then none
  else match s.queue? part q with
    | none => none
    | some v => (v.launches.filterMap (fun l => match s.launch? l with
        | none => none
        | some L => if L.activated && L.pkt.open_ && !L.ended then some (l, L) else none)).head?

/-- R104: the low mark of an open launch, and the room of its ring. -/
def Launch.openLow (l : Launch) : Nat := l.children.foldl (fun a c => min a c.index) l.appended
def Launch.room (l : Launch) : Nat := l.pkt.count - (l.appended - l.openLow)

/-- R111: `child_ts`. -/
def childTs (target : Launch) (callerOrdered : Bool) (laneTs sub index : Nat) : Nat :=
  if !target.pkt.ordered then 0
  else if callerOrdered then laneTs / 2 ^ 16 * 2 ^ 16 + sub % 2 ^ 16
  else index * 2 ^ 16 + sub % 2 ^ 16

/-- R111: room and indices in the target's ring are taken for the lanes of a `spw`, in one step. -/
def State.reserve (s : State) (h : Hart) (pd : BitVec 4) (xq : BitVec 5) : State :=
  let eligible := allLanes.filter (fun l => h.lanes.em.getLsbD l && (h.getP pd.toNat).getLsbD l)
  match s.spawnTarget h.role.part (h.getX xq).toNat with
  | none => s.modCur (fun k => { k with run := { k.run with spawn := some (0, []) } })
  | some (t, T) =>
    let taken := (eligible.take T.room).zipIdx.map (fun e => (e.1, T.appended + e.2))
    (s.setLaunch t { T with
      appended := T.appended + taken.length
      children := T.children ++ taken.map (fun e => { index := e.2, ts := 0, claimable := false, claimed := false }) }).modCur
        (fun k => { k with run := { k.run with spawn := some (t, taken) } })

/-- R111: a reserved child of a lane: its record is written, and it becomes claimable unless its caller is ordered. -/
def State.appendChild (s : State) (h : Hart) (t : Nat) (vs lane n : Nat) : State :=
  match s.launch? t with
  | none => s
  | some T =>
    if !T.children.any (fun c => c.index == n) then s
    else
      let ord := s.ordered h
      let ts := childTs T ord (h.lanes.ts.getD lane 0).toNat (h.getV (vs + 1) lane).toNat n
      let s1 := s.setLaunch t { T with children := T.children.map (fun d => if d.index = n then { d with ts := ts, loose := !ord } else d) }
      let s2 := s1.dispStore T (T.ringSlot n) (bytesOfNat (ts + (h.getV vs lane).toNat * 2 ^ 64) 16) s.cur h.role.launch (t, n)
      if ord then
        match h.role.launch, s2.laneItem h lane with
        | some l, some i => s2.modLaunch l (fun L => L.modItem i.index (fun o => { o with children := o.children ++ [(t, n)] }))
        | _, _ => s2
      else s2

/-- R111: after its release, the children of a `spw`: a lane that has lost its item spawns none; the lanes refused lose their bit
of p[pd]. -/
def State.spawnAll (s : State) (pd : BitVec 4) (vs : BitVec 5) : State :=
  match s.hart? s.cur with
  | none => s
  | some h =>
    let eligible := allLanes.filter (fun l => h.lanes.em.getLsbD l && (h.getP pd.toNat).getLsbD l)
    let got := h.run.spawn.getD (0, [])
    let s1 := got.2.foldl (fun a e => if eligible.contains e.1 then a.appendChild h got.1 vs.toNat e.1 e.2 else a.voidChild got.1 e.2) s
    let refused := eligible.filter (fun l => !got.2.any (fun e => e.1 == l))
    s1.modCur (fun g =>
      let g1 := refused.foldl (fun a l => a.setP pd.toNat (setMask (a.getP pd.toNat) l false)) g
      ({ g1 with run := { g1.run with spawn := none } }).retire 4)

/-- R111: `spw`: the reservation, the release, the children. -/
def execSpw (pd : BitVec 4) (xq vs : BitVec 5) (s : State) : Out :=
  onHart s fun h =>
    if s.pfmask h 2 then s.masked h (.spw pd xq vs)
    else (if h.run.spawn.isSome then s else s.reserve h pd xq).fence scP true false (.spw pd xq vs) fun s1 => s1.spawnAll pd vs

/-- R112: `enq`; in an ordered launch it first waits to execute non-speculatively. -/
def execEnq (xd xq xp : BitVec 5) (s : State) : Out :=
  onHart s fun h =>
    if s.pfmask h 2 then s.masked h (.enq xd xq xp)
    else s.stalling h fun s0 =>
      let a := h.getX xp
      let done := fun (t : State) (v : Nat) => t.modCur (fun k => (k.setX xd (BitVec.ofNat 64 v)).retire 4)
      if a.toNat % 64 ≠ 0 then s0.raise 4 a
      else if 255 < (h.getX xq).toNat then done s0 2
      else match s0.queue? h.role.part (h.getX xq).toNat with
      | none => done s0 2
      | some q =>
        s0.fence scP true false (.enq xd xq xp) fun s1 =>
          ((s1.translate h a .load).bind fun gpa t1 => (t1.lineFor h a gpa .load).bind fun _ t2 =>
            (t2.lineFor h (BitVec.ofNat 64 q.prod) q.prod .store).bind fun _ t3 =>
              let p := natOfBytes (t3.bytesAt h.role.part q.prod 8)
              let slot := q.ring + 64 * (p % 2 ^ q.n)
              (t3.lineFor h (BitVec.ofNat 64 slot) slot .store).bind fun _ t4 => .ok (gpa, slot) t4).done fun g t5 =>
            t5.withData (.enq xd xq xp) true fun t6 =>
              let pkt := natOfBytes ((t6.ready h.role.part g.1).bytesAt h.role.part g.1 64)
              let p := natOfBytes (t6.bytesAt h.role.part q.prod 8)
              if p - q.consIdx = 2 ^ q.n then done t6 1
              else
                let t7 := t6.writeHome h.role.part q.prod (bytesOfNat (p + 1) 8) none
                let t8 := t7.writeHome h.role.part g.2 (bytesOfNat (pkt % 2 ^ 511 + 2 ^ 511) 64) none
                done t8 0

end Sys2Proof.Machine
end

