-- ==== Sys2Proof/Machine/Jobs.lean ====
section
/-! DEFINITION. The cluster job queue (R179 to R189): entries, grants, starts, the end of a job and its status; the block
transfer engine (R190 to R195) and the job instructions of the hart (R196 to R198). -/

namespace Sys2Proof.Machine

open Sys2Proof

/-- R180: an entry that counts against the quota. -/
def Job.live (j : Job) : Bool := j.state != .done && j.state != .failed

/-- R179: entries of a partition that live in a cluster. -/
def Cluster.liveOf (c : Cluster) (part : Nat) : Nat := (c.jobs.filter (fun e => e.2.live && e.2.part == part)).length

def Cluster.liveAll (c : Cluster) : Nat := (c.jobs.filter (fun e => e.2.live)).length

/-- R179: entries available to a partition in a cluster. -/
def State.entriesFor (s : State) (cl part : Nat) : Nat :=
  match s.part? part with
  | none => 0
  | some p => min (p.jq - (s.cluster cl).liveOf part) (64 - (s.cluster cl).liveAll)

/-- R180: the entry granted next: one that never held a job (which of them is the device's choice, log entry 9), else the
one whose job completed least recently. -/
def State.entryToGrant (s : State) (cl : Nat) : Option Nat :=
  let jobs := (s.cluster cl).jobs
  let never := (upTo 64).filter (fun i => (Map.find jobs i).isNone)
  match never with
  | [] =>
    (jobs.filter (fun e => !e.2.live)).foldl (fun best e =>
      match best with
      | none => some e.1
      | some b => if e.2.order < (match Map.find jobs b with | none => 0 | some k => k.order) then some e.1 else some b) none
  | _ => never[Config.victim never.length s.fresh % never.length]?

/-- R181: the harts of a partition that wait for an entry in a cluster, with the cycle of their first attempt. -/
def State.attempting (s : State) (cl part : Nat) : List (Nat × Nat) :=
  s.harts.filterMap (fun e =>
    if clusterOf e.1 == cl && e.2.role.part == part && e.2.run.wait.isNone && !e.2.run.halted then
      (match e.2.run.attempt with
        | some (c, pc) => if pc = e.2.pc then some (e.1, c) else none
        | none => none)
    else none)

/-- R181: within one core, the earliest first attempt, then the lower slot. -/
def attemptBefore (a b : Nat × Nat) : Bool := decide (a.2 < b.2) || (a.2 == b.2 && decide (slotOf a.1 < slotOf b.1))

/-- R181: a waiting hart's place in the order of grants: its place on its core, then its core's distance from the one
served last. -/
def State.grantRank (s : State) (cl part : Nat) (h : Nat × Nat) : Nat × Nat :=
  let w := s.attempting cl part
  let mine := (w.filter (fun o => coreOf o.1 == coreOf h.1 && attemptBefore o h)).length
  let last := Map.findD (s.cluster cl).servedCore (3 * 64 + part) 7
  (mine, (coreOf h.1 % 8 + 7 - last) % 8)

/-- R189: a restored hart still waits for entries for its stopped jobs. -/
def Hart.wantsEntries (h : Hart) : Bool := h.run.wait == some .reinstate && !h.run.stoppedJobs.isEmpty

/-- R189: a restored hart of the partition still waits for entries in the cluster. -/
def State.reinstating (s : State) (cl part : Nat) : Bool :=
  s.harts.any (fun e => clusterOf e.1 == cl && e.2.role.part == part && e.2.wantsEntries)

/-- R181: the acting hart, which attempts now, is granted an entry. -/
def State.grants (s : State) (cl part k : Nat) : Bool :=
  let w := s.attempting cl part
  match w.find? (fun e => e.1 == k) with
  | none => false
  | some me =>
    let r := s.grantRank cl part me
    let ahead := (w.filter (fun o =>
      let q := s.grantRank cl part o
      decide (q.1 < r.1) || (q.1 == r.1 && decide (q.2 < r.2)))).length
    !s.reinstating cl part && decide (ahead < s.entriesFor cl part)

/-- R182, R193: weighted round-robin: the partition served next of those that ask. -/
def State.servePart (s : State) (cl engine : Nat) (parts : List Nat) : Nat × State :=
  let c := s.cluster cl
  let cur := Map.findD c.served engine (63, 0)
  let next := ((upTo 64).map (fun i => (cur.1 + 1 + i) % 64)).find? (fun p => parts.contains p)
  let pick : Nat × Nat := if parts.contains cur.1 && cur.2 != 0 then cur
    else (next.getD 0, match s.part? (next.getD 0) with
      | none => 1
      | some p => max p.jw 1)
  (pick.1, s.setCluster cl { c with served := Map.put c.served engine (pick.1, pick.2 - 1) })

/-- R182, R193: round-robin over keys within a partition. -/
def State.serveKey (s : State) (cl engine part : Nat) (n : Nat) (keys : List Nat) : Nat × State :=
  let c := s.cluster cl
  let last := Map.findD c.servedCore (engine * 64 + part) (n - 1)
  let pick := (((upTo n).map (fun i => (last + 1 + i) % n)).find? (fun k => keys.contains k)).getD 0
  (pick, s.setCluster cl { c with servedCore := Map.put c.servedCore (engine * 64 + part) pick })

/-- R47: the tiles a matrix job names: the first and their number. -/
def Job.tileSpan (j : Job) : Nat × Nat :=
  let acc := bits j.arg.toNat 19 16
  match j.op with
  | 6 => (acc, bits j.arg.toNat 6 3 + 1)
  | 7 => (acc, bits j.arg.toNat 3 0 + 1)
  | _ => (acc, 1)

/-- R271: two matrix jobs name one tile. -/
def Job.sharesTile (a b : Job) : Bool :=
  a.part == b.part && decide (a.tileSpan.1 < b.tileSpan.1 + b.tileSpan.2) && decide (b.tileSpan.1 < a.tileSpan.1 + a.tileSpan.2)

/-- R271: no earlier-granted job on its tiles is unfinished; R189: a stopped job keeps its place. -/
def State.tileFree (s : State) (cl : Nat) (j : Job) : Bool :=
  let first := fun (o : Job) => o.matrix && o.sharesTile j && decide (o.order < j.order)
  !j.matrix || !((s.cluster cl).jobs.any (fun e => e.2.live && first e.2)
    || s.harts.any (fun e => clusterOf e.1 == cl && e.2.run.stoppedJobs.any first))

/-- R282: a matrix job of the cluster asks the arbiter of its die: one at a time, so that no die has more than 32 requests. -/
def Cluster.asking (c : Cluster) : Bool := c.jobs.any (fun e => e.2.matrix && e.2.state == .running && !e.2.started)

/-- R193: jobs of an engine that run. -/
def Cluster.running (c : Cluster) (matrix : Bool) : List (Nat × Job) :=
  c.jobs.filter (fun e => e.2.matrix == matrix && (e.2.state == .running || e.2.state == .waiting))

/-- R377: the partition of a job is stopped by Amber. -/
def State.partStopped (s : State) (part : Nat) : Bool :=
  match s.part? part with
  | none => false
  | some p => p.stopped

/-- R182: the jobs queued for an engine of a cluster. -/
def State.queuedFor (s : State) (cl : Nat) (matrix : Bool) : List (Nat × Job) :=
  (s.cluster cl).jobs.filter (fun e => e.2.matrix == matrix && e.2.state == .queued && !s.partStopped e.2.part)

/-- R193: a BTE may run one more job of a partition: it runs 8 at most, and 2 of the partition while another's is queued. -/
def State.bteRoom (s : State) (cl part : Nat) : Bool :=
  let run := (s.cluster cl).running false
  decide (run.length < 8) && (!(s.queuedFor cl false).any (fun o => o.2.part != part)
    || decide ((run.filter (fun r => r.2.part == part)).length < 2))

/-- R182, R193, R271: the queued jobs that an engine may start now. -/
def State.startable (s : State) (cl : Nat) (matrix : Bool) : List (Nat × Job) :=
  (s.queuedFor cl matrix).filter (fun e => if matrix then !(s.cluster cl).asking && s.tileFree cl e.2 else s.bteRoom cl e.2.part)

/-- R182: an engine's next start comes where a job may start. -/
def State.kickEngine (s : State) (cl : Nat) (matrix : Bool) : State :=
  if (s.startable cl matrix).isEmpty then s
  else (s.popLatency).plan s.latency .jobStart { nats := [cl], ok := matrix }

def State.modJob (s : State) (cl slot : Nat) (f : Job → Job) : State :=
  s.modCluster cl (fun c => { c with jobs := match Map.find c.jobs slot with
    | none => c.jobs
    | some j => Map.put c.jobs slot (f j) })

def State.job? (s : State) (cl slot : Nat) : Option Job := Map.find (s.cluster cl).jobs slot

/-- R193: while a job of another partition is queued for the BTE, a partition runs two jobs; those granted later are queued again. -/
def State.trimBte (s : State) (cl : Nat) : State :=
  let run := (s.cluster cl).running false
  let q := s.queuedFor cl false
  let over_ := run.filter (fun e => e.2.state == .running && q.any (fun o => o.2.part != e.2.part)
    && decide (2 ≤ (run.filter (fun o => o.2.part == e.2.part && decide (o.2.order < e.2.order))).length))
  over_.foldl (fun t e => t.modJob cl e.1 (fun j => { j with state := .queued })) s

def State.kick (s : State) (cl : Nat) : State := ((s.trimBte cl).kickEngine cl false).kickEngine cl true

/-- R185: the hart that issued a job is still there. -/
def State.issuerThere (s : State) (j : Job) : Bool :=
  match s.hart? j.hart with
  | none => false
  | some h => h.role.launch == j.launch && h.role.hidx == j.hidx && h.role.part == j.part

/-- R286: the flags of an ended job that its hart has not observed, when its entry is granted again: its hart keeps them, or its
launch has them. -/
def State.keepFlags (s : State) (cl slot : Nat) : State :=
  match s.job? cl slot with
  | none => s
  | some j =>
    if j.live || j.flags = 0 then s
    else if s.issuerThere j then
      s.modHarts (fun k _ => k == j.hart) (fun _ h => { h with run := { h.run with lateFlags := h.run.lateFlags ++ [(j.seq.toNat, j.flags)] } })
    else match j.launch with
      | none => s
      | some l => s.modLaunch l (fun L => { L with flags := L.flags ||| j.flags })

/-- R180: a job entered in an entry, queued. -/
def State.enterJob (s : State) (cl slot : Nat) (j : Job) : State :=
  ((s.keepFlags cl slot).modCluster cl (fun c => { c with jobs := Map.put c.jobs slot { j with state := .queued, started := false, walks := [], declined := [], failedPages := [] } })).kick cl

/-- R181: the acting hart attempts: the place of its first attempt at this pc is kept. -/
def Hart.attempts (h : Hart) (now : Nat) : Hart :=
  match h.run.attempt with
  | some (c, pc) => if pc = h.pc then { h with run := { h.run with attempt := some (c, pc) } }
      else { h with run := { h.run with attempt := some (now, h.pc) } }
  | none => { h with run := { h.run with attempt := some (now, h.pc) } }

/-- R183: a job ID. -/
def jobId (seq : BitVec 16) (slot : Nat) : DWord := BitVec.ofNat 64 (seq.toNat * 2 ^ 16 + slot)

/-- R181, R183, R195, R285: the acting hart's job takes an entry, or is attempted again; `mk` makes the job of its issue. An
attempt is an issue that comes this far (log entry 148). -/
def State.issueJob (s : State) (xd : BitVec 5) (len : Nat) (mk : Hart → Job) : State :=
  let s1 := s.modCur (fun h => h.attempts s.now)
  let cl := clusterOf s.cur
  match s1.hart? s.cur with
  | none => s
  | some h =>
    if !s1.grants cl h.role.part s.cur then s1
    else
      match s1.entryToGrant cl with
      | none => s1
      | some slot =>
        let s2 := (s1.drawn).nextTag
        let j := { mk h with order := s2.tag, seq := h.run.seq, hart := s.cur, part := h.role.part, launch := h.role.launch,
                             hidx := h.role.hidx }
        let s3 := s2.modCluster cl (fun c => { c with servedCore := Map.put c.servedCore (3 * 64 + h.role.part) (coreOf s.cur % 8) })
        (s3.modCur (fun k => ({ (k.setX xd (jobId h.run.seq slot)) with
          run := { k.run with seq := k.run.seq + 1, attempt := none } }).retire len)).enterJob cl slot j

/-- A job with nothing but what its issuing hart gives it (R194). -/
def Hart.newJob (h : Hart) (matrix : Bool) (op : Nat) : Job :=
  { state := .queued, part := h.role.part, launch := h.role.launch, hidx := h.role.hidx, hart := 0, seq := 0, matrix := matrix,
    op := op, desc := 0, descB := 0, arg := 0, scope := 0, notify := false, satp := h.csr.satp, priv := h.priv,
    sum := h.status bitSUM, mxr := h.status bitMXR, fs := h.dev.fs, lane := none, regs := [], pos := 0, posByte := 0, kind := 0, gva := 0,
    flags := 0, order := 0, started := false, undef := false, stopped := false, walks := [],
    declined := [], failedPages := [] }

/-- R304: the context in which a job's accesses are translated. -/
def Job.ctx (j : Job) : Ctx := ⟨j.part, j.satp, j.priv, j.sum, j.mxr⟩

/-- R184: a job's status word. -/
def Job.word (j : Job) : DWord :=
  let e := b2n j.matrix * 2 ^ 8
  match j.state with
  | .done => BitVec.ofNat 64 (1 + e)
  | .failed => BitVec.ofNat 64 (3 + j.kind * 16 + e + (if j.kind < 5 then bits j.gva.toNat 56 12 * 2 ^ 12 else 0))
  | _ => 0

/-- R186: what a status read of a hart answers: the word, the scope of the acquire, and the entry it found. -/
def State.jobStatus (s : State) (k : Nat) (h : Hart) (id : DWord) : DWord × Option Nat × Option Nat :=
  if bits id.toNat 63 32 ≠ 0 ∨ bits id.toNat 15 6 ≠ 0 then (4, none, none)
  else
    let seq := bits id.toNat 31 16
    let mine := (s.cluster (clusterOf k)).jobs.filter (fun e => e.2.launch == h.role.launch && e.2.hidx == h.role.hidx
      && e.2.part == h.role.part && e.2.seq.toNat == seq)
    match mine.foldl (fun (best : Option (Nat × Job)) e => match best with
        | none => some e
        | some b => if e.2.order < b.2.order then some e else some b) none with
    | some (slot, j) => if j.live then (0, none, some slot) else (j.word, some j.scope.toNat, some slot)
    | none =>
      match h.run.doneJobs.find? (fun d => d.1 == seq) with
      | some d => (d.2.1, some d.2.2, none)
      | none => (2, some scS, none)

/-- R276: registers lent to jobs of a sequence number are given back. -/
def Hart.giveBack (h : Hart) (seq : Nat) : Hart :=
  { h with run := { h.run with lent := h.run.lent.filter (fun l => bits l.2.2.toNat 31 16 != seq) } }

/-- R186, R276, R286: a hart observes a job: the acquire, its flags and its lent registers. -/
def State.observe (s : State) (k : Nat) (id : DWord) (scope slot : Option Nat) : State :=
  let s1 := match scope with
    | none => s
    | some c => s.acquire (coreOf k) c
  match scope with
  | none => s1
  | some _ =>
    let seq := bits id.toNat 31 16
    let flags : BitVec 6 := match slot with
      | none => 0
      | some n => match s1.job? (clusterOf k) n with
        | none => 0
        | some j => j.flags
    let s2 := match slot with
      | none => s1
      | some n => s1.modJob (clusterOf k) n (fun j => { j with flags := 0 })
    s2.modHarts (fun j _ => j == k) (fun _ h =>
      let late := h.run.lateFlags.filter (fun e => e.1 == seq)
      ({ h with
        dev := { h.dev with lflags := late.foldl (fun f (e : Nat × BitVec 6) => f ||| e.2) (h.dev.lflags ||| flags) }
        run := { h.run with lateFlags := h.run.lateFlags.filter (fun e => e.1 != seq) } }).giveBack seq)

/-- R197, R198: a hart that waits for a job goes on, where the job has ended. -/
def State.endJobWait (s : State) (k : Nat) : State :=
  match s.hart? k with
  | none => s
  | some h =>
    match h.run.wait with
    | some (.jwait xd id) =>
      let r := s.jobStatus k h id
      if r.1 = 0 then s
      else (s.observe k id r.2.1 r.2.2).modHarts (fun j _ => j == k) (fun _ g => ((g.unpark s.now).setX xd r.1).retire 4)
    | some (.jyield id c) =>
      let r := s.jobStatus k h id
      if r.1 = 0 then s
      else (s.observe k id r.2.1 r.2.2).modHarts (fun j _ => j == k) (fun _ g => (g.unpark s.now).retireTo c)
    | _ => s

/-- R154, R189: a restored hart whose jobs and locks are all granted issues. -/
def State.endReinstate (s : State) (k : Nat) : State :=
  s.modHarts (fun j h => j == k && h.run.wait == some .reinstate && h.run.stoppedJobs.isEmpty && h.run.relock.isEmpty)
    (fun _ h => h.unpark s.now)

/-- R189: one stopped job of a restored hart takes an entry. -/
def State.reinstateOne (s : State) (cl : Nat) : State :=
  match s.harts.find? (fun e => clusterOf e.1 == cl && e.2.wantsEntries && decide (0 < s.entriesFor cl e.2.role.part)) with
  | none => s
  | some (k, h) =>
    match h.run.stoppedJobs, s.entryToGrant cl with
    | j :: rest, some slot =>
      let lent := h.run.lent.map (fun l => if bits l.2.2.toNat 31 16 = j.seq.toNat then (l.1, l.2.1, jobId j.seq slot) else l)
      (((s.drawn).setHart k { h with run := { h.run with stoppedJobs := rest, lent := lent } }).enterJob cl slot
        { j with hart := k, part := h.role.part, launch := h.role.launch, hidx := h.role.hidx }).endReinstate k
    | _, _ => s

/-- R189: entries that are free go to stopped jobs first. -/
def State.reinstateAll (s : State) (cl : Nat) : Nat → State
  | 0 => s
  | n + 1 => if s.harts.any (fun e => clusterOf e.1 == cl && e.2.wantsEntries) then (s.reinstateOne cl).reinstateAll cl n else s

/-- R185, R187: a job ends: its entry is Done, its hart learns of it, and what waited for it goes on. -/
def State.endJob (s : State) (cl slot : Nat) (fail : Option (Nat × DWord)) : State :=
  match s.job? cl slot with
  | none => s
  | some j =>
    if !j.live then s
    else
      let s1 := s.nextTag
      let s2 := s1.modJob cl slot (fun o => { o with
        state := (match fail with | none => .done | some _ => .failed)
        kind := (match fail with | none => 0 | some f => f.1)
        gva := (match fail with | none => 0 | some f => f.2)
        order := s1.tag, walks := [] })
      let id := jobId j.seq slot
      let there := s2.issuerThere j
      let s3 := match fail with
        | none => s2
        | some f =>
          if there then s2.pushCause j.hart (if f.1 = 3 then 28 else 27) id
          else match j.launch with
            | none => s2
            | some l => (s2.popLatency).plan s2.latency .launchFail { nats := [l] }
      let s4 := if j.notify && there then s3.pushIrq19 j.hart id else s3
      let s5 := if there then s4.endJobWait j.hart
        else match j.launch with
          | none => s4
          | some l => (s4.modLaunch l (fun L => { L with flags := L.flags ||| j.flags })).modJob cl slot (fun o => { o with flags := 0 })
      let s6 := (s5.reinstateAll cl 64).kick cl
      match j.launch with
      | none => s6
      | some l => s6.checkComplete l

/-- R184, R187: the step in which a job fails comes at once. -/
def State.failJob (s : State) (cl slot kind : Nat) (gva : DWord) : State :=
  match s.job? cl slot with
  | none => s
  | some j => (s.modJob cl slot (fun o => { o with state := .waiting })).plan 0 .jobFail { nats := [cl, slot, j.order, kind, gva.toNat] }

/-- What an access of a job comes to. -/
inductive JobAcc (α : Type) where
  | ok (a : α) (s : State)
  | park (st : JobState) (s : State)
  | fail (kind : Nat) (va : DWord) (s : State)

def JobAcc.bind {α β : Type} (r : JobAcc α) (f : α → State → JobAcc β) : JobAcc β :=
  match r with
  | .ok a s => f a s
  | .park st s => .park st s
  | .fail k v s => .fail k v s

/-- R307: the requester number of a job. -/
def jobReq (cl slot : Nat) : Nat := 65536 + cl * 64 + slot

/-- The engine code of a job in host records (R316). -/
def Job.eng (j : Job) : Nat := if j.matrix then 3 else 2

/-- R194, R302 to R305, R311: the GPA of a job's access. -/
def State.jobGpa (s : State) (cl slot : Nat) (j : Job) (va : DWord) (k : AccKind) : JobAcc Nat :=
  match s.stage1 (coreOf j.hart) j.ctx j.walks va k with
  | .gpa a =>
    match s.part? j.part with
    | none => .fail 2 va s
    | some p => match p.range? a with
      | none => .fail 2 va s
      | some _ => .ok a s
  | .unmapped => .fail 1 va s
  | .denied => .fail 2 va s
  | .accessFault => .fail 2 va s
  | .poisoned => .fail 4 va s
  | .integrity => .fail 3 va s
  | .miss =>
    let q := s.queueMiss cl (jobReq cl slot) j.ctx va k j.eng
    if q.2 then .park .waiting q.1
    else .park .waiting (q.1.modCluster cl (fun c => { c with tscWait := c.tscWait ++ [(jobReq cl slot, 0)] }))

/-- R194: the line of a sealed partition that memory does not hold for it: another's page (kind 2), or a broken one (kind 3). -/
def State.sealedKind (s : State) (part gpa : Nat) : Nat :=
  match s.part? part with
  | none => 3
  | some p => match p.range? gpa with
    | none => 3
    | some r =>
      let key : Option Nat := match s.stage2 p r gpa with
        | .hbm a => some (hbmLine a)
        | .pool a => some (poolLine a)
        | _ => none
      match key with
      | none => 3
      | some a => match Map.find s.mem.sealedAt a with
        | none => 2
        | some l => if l.part = part then 3 else 2

/-- R187, R194, R315, R355, R386: one line of a job's access stands at its home slice. -/
def State.jobLine (s : State) (cl slot : Nat) (j : Job) (va : DWord) (gpa : Nat) (wr : Bool) : JobAcc Unit :=
  if j.declined.contains (gpa / 4096) then .fail 1 va s
  else if j.failedPages.contains (gpa / 4096) then .fail 3 va s
  else match s.atHome j.part gpa with
  | .ready s1 => .ok () (if wr then s1 else s1.cleanHdc j.part gpa none)
  | .far _ => .ok () s
  | .absent c t => .park .faultWait (t.raiseRecord
      { blankRec j.part c gpa j.eng (coreOf j.hart) (slotOf j.hart) va wr with jobs := [cl * 64 + slot] })
  | .integrity t =>
    let s1 := if s.sealedKind j.part gpa = 3 then t.integrityError j.part gpa j.eng (coreOf j.hart) (slotOf j.hart) va (jobId j.seq slot).toNat else t
    .fail (s.sealedKind j.part gpa) va s1
  | .poisoned t => if wr then .ok () t else .fail 4 va t
  | .outside => .fail 2 va s
  | .dieDown _ => .park .waiting s
  | .lost => .fail 4 va s

/-- The pieces of a byte range that lie in one line each: address and length. -/
def linePieces (a n : Nat) : List (Nat × Nat) :=
  if n = 0 then []
  else (upTo ((a + n - 1) / 128 - a / 128 + 1)).map (fun i =>
    let lo := max a ((a / 128 + i) * 128)
    (lo, min (a + n) ((a / 128 + i + 1) * 128) - lo))

/-- A place of a job's access: space (2 is named as 1: the same storage), owner and address. -/
structure JobSpot where
  space : Nat
  owner : Nat
  addr : Nat
  deriving DecidableEq, Repr

/-- R192, R193: an offset of spaces 1 to 3, seen from the issuing hart's core, cluster and die. -/
def State.jobOffset (s : State) (j : Job) (space off n : Nat) : Option JobSpot :=
  let h := { Hart.reset with role := { Role.reset with part := j.part } }
  match ({ s with cur := j.hart }).spotOf h space 0 off n with
  | .ok p => some ⟨if space = 2 then 1 else space, p.1, p.2⟩
  | .error _ => none

/-- R152: a bank that a hart other than the job's issuer holds. -/
def State.jobLocked (s : State) (j : Job) (p : JobSpot) : Bool :=
  p.space == 1 && (match Map.find (s.core p.owner).locks (p.addr / 16384) with
    | some l => l.holder != j.hart
    | none => false)

/-- R152: a job waits for a bank. -/
def State.queueBank (s : State) (req : Nat) (p : JobSpot) : State :=
  s.modCore p.owner (fun c => { c with lockq := if c.lockq.contains (p.addr / 16384, req) then c.lockq
                                                 else c.lockq ++ [(p.addr / 16384, req)] })

/-- R193, R194: `n` bytes that cross no 4 KiB boundary, at an address of a space, ready to be read or written. -/
def State.jobSpot (s : State) (cl slot : Nat) (j : Job) (space : Nat) (va : DWord) (n : Nat) (wr : Bool) : JobAcc JobSpot :=
  if space = 0 then
    (s.jobGpa cl slot j va (if wr then .store else .load)).bind fun gpa s1 =>
      (linePieces gpa n).foldl (fun (r : JobAcc JobSpot) p => r.bind fun sp t =>
        (t.jobLine cl slot j (va + BitVec.ofNat 64 (p.1 - gpa)) p.1 wr).bind fun _ t2 => .ok sp t2)
        (.ok ⟨0, j.part, gpa⟩ s1)
  else
    match s.jobOffset j space va.toNat n with
    | none => .fail 5 va s
    | some p => if s.jobLocked j p then .park .waiting (s.queueBank (jobReq cl slot) p) else .ok p s

/-- Bytes at a place of a job. -/
def State.jobRead (s : State) (p : JobSpot) (n : Nat) : List Byte :=
  match p.space with
  | 0 => ((linePieces p.addr n).map (fun q => s.bytesAt p.owner q.1 q.2)).flatten
  | 3 => s.dsRead (p.owner / 64) (p.owner % 64) p.addr n
  | _ => s.spadRead p.owner p.addr n

/-- Bytes written by a job at a place. -/
def State.jobWrite (s : State) (p : JobSpot) (bs : List Byte) : State :=
  match p.space with
  | 0 => ((linePieces p.addr bs.length).foldl (fun t q => t.writeHome p.owner q.1 ((bs.drop (q.1 - p.addr)).take q.2) none) s).spoilRing
      p.owner p.addr bs.length
  | 3 => s.dsWrite (p.owner / 64) (p.owner % 64) p.addr bs
  | _ => s.spadWrite p.owner p.addr bs

/-- Results of a list of accesses, in order. -/
def JobAcc.collect {α β : Type} (f : α → State → JobAcc β) : List α → State → JobAcc (List β)
  | [], s => .ok [] s
  | a :: as, s => (f a s).bind fun b s1 => (JobAcc.collect f as s1).bind fun bs s2 => .ok (b :: bs) s2

/-- Runs of bytes read by a job. -/
def State.readRuns (s : State) (cl slot : Nat) (j : Job) (sp : Nat) (rs : List (DWord × Nat)) : JobAcc (List Byte) :=
  (JobAcc.collect (fun (p : DWord × Nat) t => (t.jobSpot cl slot j sp p.1 p.2 false).bind fun q t1 => .ok (t1.jobRead q p.2) t1) rs s).bind
    fun (bs : List (List Byte)) t => .ok bs.flatten t

/-- A job's writes performed. -/
def State.performWrites (s : State) (ws : List (JobSpot × List Byte)) : State := ws.foldl (fun t w => t.jobWrite w.1 w.2) s

/-- R190: fields of a BTE descriptor. -/
structure BteDesc where
  sbase : Nat
  ssp : Nat
  dbase : Nat
  dsp : Nat
  rowlen : Nat
  rpp : Nat
  spitch : Nat
  dpitch : Nat
  splane : Nat
  dplane : Nat
  scope : Nat
  notify : Bool
  esz : Nat

def bteDesc (d : BitVec 512) : BteDesc :=
  let f := fun hi lo => bits d.toNat hi lo
  { sbase := f 56 0, ssp := f 59 57, dbase := f 120 64, dsp := f 123 121, rowlen := f 159 128, rpp := f 191 160,
    spitch := f 255 192, dpitch := f 319 256, splane := f 383 320, dplane := f 447 384, scope := f 450 448,
    notify := d.getLsbD 451, esz := f 453 452 }

/-- R191: rows and the bytes of each. -/
def bteShape (d : BteDesc) (n : Nat) : Nat × Nat := if d.rowlen = 0 then (1, n) else (n, d.rowlen)

/-- R191: a row's source and destination, given the index of an indexed side. -/
def bteRow (op : Nat) (d : BteDesc) (n r : Nat) (index : Nat) : DWord × DWord :=
  let per := if d.rpp = 0 then (bteShape d n).1 else d.rpp
  let pl := r / per
  let q := r % per
  let strided := fun (base pitch plane : Nat) => BitVec.ofNat 64 (base + pl * plane + q * pitch)
  match op with
  | 2 => (BitVec.ofNat 64 (d.sbase + index * d.spitch), BitVec.ofNat 64 (d.dbase + r * d.dpitch))
  | 3 => (BitVec.ofNat 64 (d.sbase + r * d.spitch), BitVec.ofNat 64 (d.dbase + index * d.dpitch))
  | _ => (strided d.sbase d.spitch d.splane, strided d.dbase d.dpitch d.dplane)

/-- R190: the address of a row's index. -/
def indexAddr (op : Nat) (d : BteDesc) (r : Nat) : DWord := BitVec.ofNat 64 ((if op = 2 then d.splane else d.dplane) + 4 * r)

/-- R191: a range cut at 4 KiB boundaries of the address. -/
def pagePieces (a : DWord) (n : Nat) : List (DWord × Nat) :=
  if n = 0 then []
  else (upTo ((a.toNat + n - 1) / 4096 - a.toNat / 4096 + 1)).map (fun i =>
    let lo := max a.toNat ((a.toNat / 4096 + i) * 4096)
    (BitVec.ofNat 64 lo, min (a.toNat + n) ((a.toNat / 4096 + i + 1) * 4096) - lo))

/-- R192: a range of spaces 1 to 3 that leaves the legal range or the bank mask. -/
def State.badOffsets (s : State) (j : Job) (space : Nat) (a : DWord) (n : Nat) : Bool :=
  n != 0 && (decide (2 ^ 26 < a.toNat + n) || (pagePieces a n).any (fun p => (s.jobOffset j space p.1.toNat p.2).isNone))

/-- R192: the checks at issue. -/
def State.badBte (s : State) (j : Job) (op : Nat) (d : BitVec 512) (n : Nat) : Bool :=
  let b := bteDesc d
  let rows := (bteShape b n).1
  let len := (bteShape b n).2
  bits d.toNat 127 124 != 0 || bits d.toNat 511 454 != 0 || decide (3 < b.dsp) || b.scope == 7
  || (op != 1 && (bits d.toNat 63 60 != 0 || decide (3 < b.ssp) || b.esz != 0))
  || (b.rowlen == 0 && (op == 2 || op == 3 || b.rpp != 0 || b.spitch != 0 || b.dpitch != 0 || b.splane != 0 || b.dplane != 0))
  || (op == 2 && (b.rpp != 0 || b.dplane != 0 || b.splane % 4 != 0))
  || (op == 3 && (b.rpp != 0 || b.splane != 0 || b.dplane % 4 != 0))
  || (op == 1 && (b.dbase % 2 ^ b.esz != 0 || len % 2 ^ b.esz != 0))
  || decide (2 ^ 32 < n) || decide (2 ^ 32 < rows * len)
  || ((op == 0 || op == 3) && b.ssp != 0 && (upTo rows).any (fun r => s.badOffsets j b.ssp (bteRow op b n r 0).1 len))
  || (op != 3 && b.dsp != 0 && (upTo rows).any (fun r => s.badOffsets j b.dsp (bteRow op b n r 0).2 len))

/-- R195: the issue of a BTE job. -/
def bteIssue (op : Nat) (i : Instr) (xd xa xn : BitVec 5) (s : State) : Out :=
  onHart s fun h =>
    if s.pfmask h 1 then s.masked h i
    else s.stalling h fun s0 =>
      let a := h.getX xa
      if a.toNat % 64 ≠ 0 then s0.raise 4 a
      else ((s0.translate h a .load).bind fun gpa t1 => (t1.lineFor h a gpa .load).bind fun _ t2 => .ok gpa t2).done fun gpa t2 =>
        t2.withData i (!t2.inHdc (coreOf s.cur) h.role.part gpa) fun t3 =>
          let t4 := (t3.ready h.role.part gpa).putHdc (coreOf s.cur) h.role.part gpa false
          let d := BitVec.ofNat 512 (natOfBytes (t4.bytesAt h.role.part gpa 64))
          let n := h.getX xn
          let j := { h.newJob false op with hart := s.cur, desc := d, arg := n, scope := d.extractLsb' 448 3, notify := d.getLsbD 451 }
          if t4.badBte j op d n.toNat then t4.raise 26 a
          else t4.issueJob xd 4 fun _ => j

/-- R195. -/
def execBcpy (xd xa xn : BitVec 5) (s : State) : Out := bteIssue 0 (.bcpy xd xa xn) xd xa xn s

/-- R195. -/
def execBfil (xd xa xn : BitVec 5) (s : State) : Out := bteIssue 1 (.bfil xd xa xn) xd xa xn s

/-- R195. -/
def execBgat (xd xa xn : BitVec 5) (s : State) : Out := bteIssue 2 (.bgat xd xa xn) xd xa xn s

/-- R195. -/
def execBsct (xd xa xn : BitVec 5) (s : State) : Out := bteIssue 3 (.bsct xd xa xn) xd xa xn s

/-- A run of bytes as locations. -/
abbrev Extent := JobSpot × Nat

/-- R191: a range of a job as locations: space-0 bytes by GPA and, whether or not they can be translated now, by GVA (as space 5);
others by their storage. -/
def State.extents (s : State) (j : Job) (space : Nat) (a : DWord) (n : Nat) : List Extent :=
  ((pagePieces a n).map (fun p =>
    if space = 0 then
      (⟨5, j.part, p.1.toNat⟩, p.2) :: (match s.dispGpa j.part j.satp p.1 with
        | .ok g _ => [(⟨0, j.part, g⟩, p.2)]
        | .wait _ _ => []
        | .fail _ => [])
    else ((s.jobOffset j space p.1.toNat p.2).map (fun o => (o, p.2))).toList)).flatten

/-- A location lies in an extent. -/
def Extent.has (e : Extent) (space owner addr : Nat) : Bool :=
  e.1.space == space && e.1.owner == owner && decide (e.1.addr ≤ addr) && decide (addr < e.1.addr + e.2)

/-- R191: a byte of a job at a place, and at its address there, lies in one of the extents. -/
def meets (es : List Extent) (p : JobSpot) (va : DWord) : Bool :=
  es.any (fun e => e.has p.space p.owner p.addr || (p.space == 0 && e.has 5 p.owner va.toNat))

/-- R191: a row's index as memory holds it now. -/
def State.indexNow (s : State) (j : Job) (d : BteDesc) (r : Nat) : Nat :=
  if j.op = 2 ∨ j.op = 3 then
    (match s.dispRead j.part j.satp (indexAddr j.op d r) 4 with
      | .ok v _ => v
      | .wait _ _ => 0
      | .fail _ => 0)
  else 0

/-- R191: the index of a row: as the job read it, or as memory holds it now. -/
def State.rowIndex (s : State) (j : Job) (d : BteDesc) (r : Nat) : Nat :=
  match Map.find j.indices r with
  | some i => i
  | none => s.indexNow j d r

/-- R191: the destination bytes of a job. -/
def State.bteDests (s : State) (j : Job) : List Extent :=
  let d := bteDesc j.desc
  let sh := bteShape d j.arg.toNat
  ((upTo sh.1).map (fun r => s.extents j d.dsp (bteRow j.op d j.arg.toNat r (s.rowIndex j d r)).2 sh.2)).flatten

/-- R191: the source bytes of a job: the rows it reads and its index list. -/
def State.bteSources (s : State) (j : Job) : List Extent :=
  let d := bteDesc j.desc
  let sh := bteShape d j.arg.toNat
  (if j.op = 1 then [] else ((upTo sh.1).map (fun r => s.extents j d.ssp (bteRow j.op d j.arg.toNat r (s.rowIndex j d r)).1 sh.2)).flatten)
  ++ (if j.op = 2 ∨ j.op = 3 then s.extents j 0 (indexAddr j.op d 0) (4 * sh.1) else [])

/-- R191: the free value of an index word that destination bytes overlay (log entry 3). -/
def freeIndex (j : Job) (r : Nat) : Nat := (Config.freeBits 32 (2 ^ 64 + j.order * 2 ^ 33 + r)).toNat

/-- R190, R191: a row's index: read once by the job, and kept. -/
def State.readIndex (s : State) (cl slot : Nat) (j : Job) (r : Nat) : JobAcc Nat :=
  let d := bteDesc j.desc
  if j.op = 2 ∨ j.op = 3 then
    match Map.find j.indices r with
    | some i => .ok i s
    | none =>
      (s.jobSpot cl slot j 0 (indexAddr j.op d r) 4 false).bind fun p s1 =>
        let ds := s1.bteDests j
        let over_ := (upTo 4).any (fun b => meets ds { p with addr := p.addr + b } (indexAddr j.op d r + BitVec.ofNat 64 b))
        let i := if over_ then freeIndex j r else natOfBytes (s1.jobRead p 4)
        .ok i (s1.modJob cl slot (fun o => { o with indices := Map.put o.indices r i }))
  else .ok 0 s

/-- R191: bytes of a chunk as they are written: undefined where the destination is also source. -/
def State.chunkBytes (s : State) (src : List Extent) (p : JobSpot) (va : DWord) (bs : List Byte) : List Byte :=
  bs.zipIdx.map (fun b =>
    if meets src { p with addr := p.addr + b.2 } (va + BitVec.ofNat 64 b.2) then (s.free (8 * bs.length)).extractLsb' (8 * b.2) 8 else b.1)

/-- R165, R193: the length of the chunk that moves from src to dst where `left` bytes of its row are left: it crosses no 4 KiB
boundary and splits no aligned element of its destination, for which alone it may cross one of its source (log entry 131);
`limit`, if not 0, bounds it too. -/
def chunkLen (fill : Bool) (src dst : DWord) (left limit : Nat) : Nat :=
  let c0 := min left (4096 - dst.toNat % 4096)
  let c1 := if fill then c0 else min c0 (4096 - src.toNat % 4096)
  let c := if limit = 0 then c1 else min c1 limit
  let part := (dst.toNat + c) % 4
  if c = left ∨ part = 0 then c
  else if part < c then c - part
  else min left (4 - dst.toNat % 4)

/-- R165: bytes of the last source element that a chunk splits, beyond its end: they are read with it. -/
def readAhead (src : DWord) (c left : Nat) : Nat := min ((4 - (src.toNat + c) % 4) % 4) (left - c)

/-- R170: the aligned element of a row's destination at an address is also written in another row, as far as can be known: its
bytes are held until the job has moved everything. -/
def Job.shares (j : Job) (a : DWord) : Bool :=
  let d := bteDesc j.desc
  let n := j.arg.toNat
  let sh := bteShape d n
  let e := a.toNat / 4 * 4
  decide (1 < sh.1) && (j.op == 3 || (upTo sh.1).any (fun r =>
    let t := (bteRow j.op d n r 0).2.toNat
    r != j.pos && decide (t < e + 4) && decide (e < t + sh.2)))

/-- R191: a job has nothing (more) to move. -/
def Job.moved (j : Job) : Bool :=
  let sh := bteShape (bteDesc j.desc) j.arg.toNat
  (sh.1 * sh.2 == 0 || decide (sh.1 ≤ j.pos)) && j.late.isEmpty

/-- R170: the bytes that a job has held are written, together. -/
def State.writeLate (s : State) (cl slot : Nat) (j : Job) : JobAcc Unit :=
  (JobAcc.collect (fun (w : DWord × Byte) t => (t.jobSpot cl slot j (bteDesc j.desc).dsp w.1 1 true).bind fun p t1 => .ok (p, [w.2]) t1)
    j.late s).bind fun (ws : List (JobSpot × List Byte)) t => .ok () (t.performWrites ws)

/-- R191, R193: the chunk at a job's position: its length and the job after it. -/
def State.bteChunk (s : State) (cl slot : Nat) (j : Job) (limit : Nat) : JobAcc (Nat × Job) :=
  let d := bteDesc j.desc
  let n := j.arg.toNat
  let sh := bteShape d n
  if sh.1 ≤ j.pos then (s.writeLate cl slot j).bind fun _ s1 => .ok (0, { j with late := [] }) s1
  else
    (s.readIndex cl slot j j.pos).bind fun idx s1 =>
      let row := bteRow j.op d n j.pos idx
      let src := row.1 + BitVec.ofNat 64 j.posByte
      let dst := row.2 + BitVec.ofNat 64 j.posByte
      let left := sh.2 - j.posByte
      let c := chunkLen (j.op == 1) src dst left limit
      let had := j.carry.length
      (if j.op = 1 then .ok [] s1
        else s1.readRuns cl slot j d.ssp (pagePieces (src + BitVec.ofNat 64 had) (c + readAhead src c left - had))).bind
      fun (got : List Byte) s2 =>
        (s2.jobSpot cl slot j d.dsp dst c true).bind fun dp s3 =>
          let all := j.carry ++ got
          let bs := if j.op = 1 then (upTo c).map (fun i => BitVec.ofNat 8 (j.desc.toNat / 2 ^ (8 * ((j.posByte + i) % 2 ^ d.esz))))
            else all.take c
          let out := (s3.chunkBytes (s3.bteSources j) dp dst bs).zipIdx
          let held := out.filter (fun e => j.shares (dst + BitVec.ofNat 64 e.2))
          let s4 := if held.isEmpty then s3.jobWrite dp (out.map (·.1))
            else (out.filter (fun e => !j.shares (dst + BitVec.ofNat 64 e.2))).foldl (fun t e =>
              t.jobWrite { dp with addr := dp.addr + e.2 } [e.1]) s3
          let at_ := j.posByte + c
          let late := j.late ++ held.map (fun e => (dst + BitVec.ofNat 64 e.2, e.1))
          .ok (c, if at_ = sh.2 then { j with pos := j.pos + 1, posByte := 0, carry := [], late := late }
            else { j with posByte := at_, carry := all.drop c, late := late }) s4.drawn

/-- R193: the BTE jobs of a cluster that have a chunk to perform. -/
def State.chunkers (s : State) (cl : Nat) : List (Nat × Job) :=
  (s.cluster cl).jobs.filter (fun e => !e.2.matrix && e.2.state == .running && !e.2.moved && !s.partStopped e.2.part)

/-- R193: the BTE's next chunk comes where a job runs; a chunk takes its bytes' time. -/
def State.pumpBte (s : State) (cl bytes : Nat) : State :=
  let c := s.cluster cl
  if c.pump || (s.chunkers cl).isEmpty then s
  else
    (((s.popLatency).modCluster cl (fun k => { k with pump := true })).plan
      (max 1 ((bytes * 7 + 5119) / 5120) + s.latency) .bteChunk { nats := [cl] })

/-- R185: a job's last write has been performed: its completion comes. -/
def State.planComplete (s : State) (cl slot : Nat) : State :=
  match s.job? cl slot with
  | none => s
  | some j => (s.popLatency).plan s.latency .jobComplete { nats := [cl, slot, j.order] }

/-- R191, R193, R194: one running job of the BTE performs a chunk, or waits, or fails; bytes of a chunk that faults
are not written (log entry 147). -/
def State.runChunk (s : State) (cl slot limit : Nat) : State :=
  match s.job? cl slot with
  | none => s
  | some j =>
    match s.bteChunk cl slot j limit with
    | .ok r s1 =>
      let s2 := s1.modJob cl slot (fun o => { o with
        pos := r.2.pos, posByte := r.2.posByte, carry := r.2.carry, late := r.2.late, walks := [], declined := [], failedPages := [] })
      if r.2.moved then (s2.planComplete cl slot).pumpBte cl r.1 else s2.pumpBte cl r.1
    | .park st s1 => (((s1.modJob cl slot (fun o => { o with state := st })).kick cl).pumpBte cl 0)
    | .fail kind va s1 => (s1.failJob cl slot kind va).pumpBte cl 0

/-- R193: BTE_CHUNK: chunks are interleaved by weighted round-robin over partitions and round-robin over jobs.
Operands: the cluster and, where the environment cuts the chunk shorter, the number of its bytes. -/
def execBteChunk (s : State) : Out :=
  let cl := s.arg.nat 0
  let s1 := s.modCluster cl (fun c => { c with pump := false })
  let run := s1.chunkers cl
  .next (if run.isEmpty then s1
  else
    let a := s1.servePart cl 2 (run.map (fun e => e.2.part)).eraseDups
    let b := a.2.serveKey cl 2 a.1 64 ((run.filter (fun e => e.2.part == a.1)).map (·.1))
    b.2.runChunk cl b.1 (s.arg.nat 1))

/-- R182, R193, R282: a job starts: a BTE job moves chunks, a matrix job asks the arbiter of its die. -/
def State.startJob (s : State) (cl slot : Nat) (j : Job) : State :=
  let s1 := s.modJob cl slot (fun o => { o with state := .running })
  if j.matrix then s1.plan 0 .matrixStartGrant { nats := [cl / 32] }
  else if j.moved then s1.planComplete cl slot
  else s1.pumpBte cl 0

/-- R182: JOB_START: an engine starts the next job: weighted round-robin over partitions, round-robin over cores, the
oldest of the core. Operands: the cluster; `ok` for the matrix engine. -/
def execJobStart (s : State) : Out :=
  let cl := s.arg.nat 0
  let matrix := s.arg.ok
  let cand := s.startable cl matrix
  .next (if cand.isEmpty then s
  else
    let a := s.servePart cl (b2n matrix) (cand.map (fun e => e.2.part)).eraseDups
    let mine := cand.filter (fun e => e.2.part == a.1)
    let b := a.2.serveKey cl (b2n matrix) a.1 8 (mine.map (fun e => coreOf e.2.hart % 8))
    match (mine.filter (fun e => coreOf e.2.hart % 8 == b.1)).foldl (fun (best : Option (Nat × Job)) e => match best with
        | none => some e
        | some o => if e.2.order < o.2.order then some e else some o) none with
    | none => b.2
    | some e => (b.2.startJob cl e.1 e.2).kickEngine cl matrix)

/-- R187: the chunks that a job has finished are performed, as far as their places are ready, before it fails or is stopped. -/
def State.settleLate (s : State) (cl slot : Nat) (j : Job) : State :=
  if j.late.isEmpty then s
  else match s.writeLate cl slot j with
  | .ok _ t => t.modJob cl slot (fun o => { o with late := [] })
  | _ => s

/-- R184, R187: JOB_FAIL. Operands: the cluster, the slot, the job's number, the kind and the address. -/
def execJobFail (s : State) : Out :=
  let cl := s.arg.nat 0
  let slot := s.arg.nat 1
  .next (match s.job? cl slot with
    | none => s
    | some j => if j.live && j.order == s.arg.nat 2 then (s.settleLate cl slot j).endJob cl slot (some (s.arg.nat 3, BitVec.ofNat 64 (s.arg.nat 4))) else s)

/-- R180, R193, R282: a job that waited goes on: at once, or as a queued job where its engine takes no more; a matrix job that
was in Fault-wait asks for its start again (log entry 132). -/
def State.resumeJob (s : State) (cl slot : Nat) : State :=
  match s.job? cl slot with
  | none => s
  | some j =>
    let again := j.state == .faultWait
    if !again && j.state != .waiting then s
    else if again && (if j.matrix then (s.cluster cl).asking else !s.bteRoom cl j.part) then
      (s.modJob cl slot (fun o => { o with state := .queued, started := false })).kick cl
    else if j.matrix then
      (if again then (s.modJob cl slot (fun o => { o with state := .running, started := false })).plan 0 .matrixStartGrant { nats := [cl / 32] }
      else (s.modJob cl slot (fun o => { o with state := .running })).planComplete cl slot)
    else ((s.modJob cl slot (fun o => { o with state := .running })).trimBte cl).pumpBte cl 0

/-- R196: `jpoll`. -/
def execJpoll (xd xj : BitVec 5) (s : State) : Out :=
  onHart s fun h =>
    let r := s.jobStatus s.cur h (h.getX xj)
    (s.observe s.cur (h.getX xj) r.2.1 r.2.2).modCur (fun k => (k.setX xd r.1).retire 4)

/-- R197: `jwait`. -/
def execJwait (xd xj : BitVec 5) (s : State) : Out :=
  onHart s fun h =>
    let r := s.jobStatus s.cur h (h.getX xj)
    if r.1 = 0 then s.modCur (fun k => k.park (.jwait xd (h.getX xj)) s.now)
    else (s.observe s.cur (h.getX xj) r.2.1 r.2.2).modCur (fun k => (k.setX xd r.1).retire 4)

/-- R198: `jyield`. -/
def execJyield (xj xc : BitVec 5) (s : State) : Out :=
  onHart s fun h =>
    let c := h.getX xc
    if c.toNat % 4 ≠ 0 then s.raise 0 c
    else
      let r := s.jobStatus s.cur h (h.getX xj)
      if r.1 = 0 then s.modCur (fun k => k.park (.jyield (h.getX xj) c) s.now)
      else (s.observe s.cur (h.getX xj) r.2.1 r.2.2).modCur (fun k => k.retireTo c)

end Sys2Proof.Machine
end

