-- ==== Sys2Proof/Machine/Matrix.lean ====
section
/-! DEFINITION. The matrix engine (R268 to R295): descriptors, the checks at issue (R274), the current-surge arbiter (R282)
and the jobs' effects, each computed by K-steps or rows (R287). -/

namespace Sys2Proof.Machine

open Sys2Proof

/-- R272: a descriptor. -/
structure MDesc where
  base : Nat
  sp : Nat
  pitch : Nat
  tpitch : Nat
  rot : Nat
  rows : Nat
  E : Nat
  fmt : Nat
  tr : Bool
  reserved : Bool

/-- R272: the descriptor of 128 bits. -/
def mdesc (v : Nat) : MDesc :=
  { base := bits v 56 0, sp := bits v 59 57, pitch := bits v 79 64, tpitch := bits v 95 80, rot := bits v 99 96,
    rows := bits v 107 100 + 1, E := 8 * (bits v 115 108 + 1), fmt := bits v 119 116, tr := v.testBit 120,
    reserved := bits v 63 60 != 0 || bits v 127 121 != 0 }

/-- R273: stored rows, and the bytes that each holds. -/
def MDesc.stored (d : MDesc) : Nat := if d.tr then d.E else d.rows
def MDesc.rowBytes (d : MDesc) : Nat := ((if d.tr then d.rows else d.E) * fmtWidth d.fmt + 7) / 8

/-- R273: `n` bytes of a stored row from byte `off`, as runs within one bank: address and length; `tile` offsets the base. -/
def MDesc.runs (d : MDesc) (tile sr off n : Nat) : List (DWord × Nat) :=
  (pagePieces (BitVec.ofNat 64 (d.base + tile * d.tpitch * 128 + sr * d.pitch + off)) n).map (fun p =>
    let o := p.1.toNat
    (if d.rot = 0 then p.1 else BitVec.ofNat 64 (o - bits o 18 14 * 2 ^ 14 + (bits o 18 14 + sr * d.rot) % 32 * 2 ^ 14), p.2))

/-- R213, R273: the bytes of elements k0 to k1 − 1 of a row of an operand, or of a tile of `mld`, as runs. -/
def MDesc.elemRuns (d : MDesc) (tile r k0 k1 : Nat) : List (DWord × Nat) :=
  let w := fmtWidth d.fmt
  if d.tr then ((upTo (k1 - k0)).map (fun i => d.runs tile (k0 + i) (r * w / 8) (w / 8))).flatten
  else d.runs tile r (k0 * w / 8) (((k1 - k0) * w + 7) / 8)

/-- R213, R273: those elements, read by a job. -/
def State.readElems (s : State) (cl slot : Nat) (j : Job) (d : MDesc) (tile k0 k1 r : Nat) : JobAcc (List Nat) :=
  let w := fmtWidth d.fmt
  (s.readRuns cl slot j d.sp (d.elemRuns tile r k0 k1)).bind fun bs t =>
    .ok ((upTo (k1 - k0)).map (fun i => natOfBytes bs / 2 ^ (i * w) % 2 ^ w)) t

/-- The same elements of every row of an operand. -/
def State.readCols (s : State) (cl slot : Nat) (j : Job) (d : MDesc) (k0 k1 : Nat) : JobAcc (List (List Nat)) :=
  JobAcc.collect (fun (r : Nat) t => t.readElems cl slot j d 0 k0 k1 r) (upTo d.rows) s

/-- R217: a format entry of a job's launch. -/
def State.fmtEntry (s : State) (j : Job) (k : Nat) : Nat :=
  match j.launch with
  | none => 0
  | some l => match s.launch? l with
    | none => 0
    | some L => (L.fmtRaw.getD k 0).toNat

def entCode (e : Nat) : Nat := bits e 3 0
def entBs (e : Nat) : Bool := e.testBit 4
def entScales (e : Nat) : Nat := bits e 120 64
def entSsp (e : Nat) : Nat := bits e 123 121
def entSupers (e : Nat) : Nat := bits e 184 128
def entPsp (e : Nat) : Nat := bits e 187 185

/-- R214: bytes of the scale codes of `rows` rows of `E` elements. -/
def scaleBytes (rows E : Nat) : Nat := (rows * E + 7) / 8

/-- R214, R274, R278: the superscales that a job touches, as offsets and lengths: those of all its elements (`mqnt`), or that of each
row's first element (`mmas`). -/
def superSpans (all : Bool) (rows E : Nat) : List (Nat × Nat) :=
  if all then [(0, 4 * ((rows * E + 255) / 256))] else ((upTo rows).map (fun m => (4 * (m * E / 256), 4))).eraseDups

/-- The fields of a job's variant (R283), tile and lane base. -/
def Job.var (j : Job) (hi lo : Nat) : Nat := bits j.arg.toNat hi lo
def Job.acc (j : Job) : Nat := j.var 19 16
def Job.a (j : Job) : MDesc := mdesc (j.desc.toNat % 2 ^ 128)
def Job.b (j : Job) : MDesc := mdesc j.descB.toNat

/-- R283: the transform size of `mma` and `mmas`: 0 none. -/
def hadSize (code : Nat) : Nat := match code with | 0 => 0 | 1 => 16 | 2 => 32 | _ => 64

/-- R288: `mma` or `mmas`; R275: A's format. -/
def Job.isMm (j : Job) : Bool := j.op == 0 || j.op == 1
def Job.fmtA (j : Job) (s : State) : Nat :=
  match j.lane with
  | some _ => if j.op = 1 then entCode (s.fmtEntry j (j.var 4 3)) else j.var 6 3
  | none => j.a.fmt

/-- R275: rows of A. -/
def Job.rowsA (j : Job) : Nat := match j.lane with | some _ => 32 | none => j.a.rows

/-- R268: the step length. -/
def stepLen (op fa fb : Nat) : Nat :=
  if op = 1 then 8
  else if fa = 0 ∨ fb = 0 then 1
  else if fa = 1 ∨ fa = 2 ∨ fb = 1 ∨ fb = 2 then 4
  else 8

/-- R271, R274: the kind of a tile at an issue: that of the last job naming it to be granted, else the tile's. -/
def State.tileKind (s : State) (cl part acc : Nat) : Bool :=
  let names := (s.cluster cl).jobs.filter (fun e => e.2.live && e.2.matrix && e.2.part == part && (e.2.op == 5 || e.2.op == 7)
    && decide (e.2.tileSpan.1 ≤ acc ∧ acc < e.2.tileSpan.1 + e.2.tileSpan.2))
  match names.foldl (fun (best : Option Job) e => match best with
      | none => some e.2
      | some b => if b.order < e.2.order then some e.2 else some b) none with
  | some j => if j.op = 5 then j.arg.getLsbD 0 else j.arg.getLsbD 4
  | none => match Map.find (s.cluster cl).tiles (part * 16 + acc) with
    | none => false
    | some t => t.int

/-- R274: reasons 2 and 3 of runs of bytes of a space; 0: none. -/
def State.badRuns (s : State) (h : Hart) (sp : Nat) (rs : List (DWord × Nat)) : Nat :=
  if 3 < sp then 2
  else
    let kinds := rs.map (fun p =>
      if sp = 0 then
        (if canonical (satpMode h.csr.satp) p.1 && canonical (satpMode h.csr.satp) (p.1 + BitVec.ofNat 64 (p.2 - 1)) then 0 else 2)
      else match s.spotOf h sp 0 p.1.toNat p.2 with
        | .ok _ => 0
        | .error k => k)
    if kinds.contains 2 then 2 else if kinds.contains 3 then 3 else 0

/-- R274: the first reason of a descriptor operand, in ascending number; 0: none. -/
def State.descReason (s : State) (h : Hart) (d : MDesc) (tiles : Nat) (fmtOk shapeBad : Bool) : Nat :=
  let touched := if 10 < d.fmt then [] else
    ((upTo tiles).map (fun t => ((upTo d.stored).map (fun sr => d.runs t sr 0 d.rowBytes)).flatten)).flatten
  if d.reserved then 1
  else if s.badRuns h d.sp touched ≠ 0 then s.badRuns h d.sp touched
  else if !fmtOk then 4
  else if shapeBad || d.pitch % 16 != 0 || (d.rot != 0 && d.sp != 1) then 5
  else 0

/-- R274, R279: the first reason of a format entry used by an operand of `rows` rows of `E` elements. -/
def State.entryReason (s : State) (h : Hart) (e rows E : Nat) (all : Bool) (fmt : Option Nat) : Nat :=
  let r := s.badRuns h (entSsp e) (pagePieces (BitVec.ofNat 64 (entScales e)) (scaleBytes rows E))
  let r2 := s.badRuns h (entPsp e) ((superSpans all rows E).flatMap (fun p => pagePieces (BitVec.ofNat 64 (entSupers e + p.1)) p.2))
  let ranges := if r = 2 ∨ r2 = 2 then 2 else if r = 3 ∨ r2 = 3 then 3 else 0
  if ranges ≠ 0 then ranges
  else if (match fmt with
      | none => false
      | some f => entCode e != f) || !entBs e then 7
  else 0

/-- A reason found for an operand, as `tval` reports it. -/
def reasonOf (reason operand : Nat) : Option Nat := if reason = 0 then none else some (reason + operand * 16)

/-- R274: a tile handle of the job at or above the quota. -/
def State.overQuota (s : State) (part : Nat) (j : Job) : Bool :=
  match s.part? part with
  | none => true
  | some p => decide (p.tq < j.tileSpan.1 + j.tileSpan.2)

/-- R288: format codes that `mma` (0) and `mmas` (1) permit, alone and as a pair. -/
def mmFmt (op f : Nat) : Bool := if op = 0 then decide (f ≤ 4) || f == 9 else decide (3 ≤ f ∧ f ≤ 10)
def mmPair (op fa fb : Nat) : Bool := op == 1 || (fa == 9) == (fb == 9)

/-- R281: the transform does not fit. -/
def hadBad (had E : Nat) : Bool := had != 0 && E % had != 0

/-- R274, R275, R288: the checks of `mma` and `mmas`. -/
def State.checkMm (s : State) (h : Hart) (j : Job) : Option Nat :=
  let b := j.b
  let had := hadSize (j.var 8 7)
  let fa := j.fmtA s
  let isInt := fun (f : Nat) => f == 9 || f == 10
  let onA := match j.lane with
    | some (_, base) =>
      let P := 32 / fmtWidth fa
      let ok := if j.op = 0 then decide (fa ≤ 4) || fa == 9 else [3, 4, 7, 8, 9, 10].contains fa
      if !ok || (had != 0 && isInt fa) then 4 else if 63 < base + b.E / P - 1 then 5 else 0
    | none => s.descReason h j.a 1 (mmFmt j.op fa && !(had != 0 && isInt fa))
        (decide (128 < j.a.rows) || j.a.tpitch != 0 || (j.op == 1 && j.a.tr) || hadBad had j.a.E)
  let onB := s.descReason h b 1 (mmFmt j.op b.fmt && mmPair j.op fa b.fmt && !(had != 0 && isInt b.fmt))
    (decide (128 < b.rows) || b.tpitch != 0 || (j.op == 1 && b.tr) || (j.lane.isNone && j.a.E != b.E) || hadBad had b.E)
  let kind := j.op == 0 && fa == 9
  let onT := if s.tileKind (clusterOf s.cur) j.part j.acc != kind then 4 else if s.overQuota j.part j then 6 else 0
  let ea := s.fmtEntry j (j.var 4 3)
  let eb := s.fmtEntry j (j.var 6 5)
  let onE := if j.op = 0 then 0
    else
      let ra := s.entryReason h ea j.rowsA b.E false (if j.lane.isSome then none else some j.a.fmt)
      if ra ≠ 0 then ra else s.entryReason h eb b.rows b.E false (some b.fmt)
  (((reasonOf onA 0).or (reasonOf onB 1)).or (reasonOf onT 2)).or (reasonOf onE 3)

/-- R274: the first check that a matrix job fails, as `tval`. -/
def State.checkJob (s : State) (h : Hart) (j : Job) : Option Nat :=
  let quota := if s.overQuota j.part j then 6 else 0
  let span := j.tileSpan.2
  let shape := fun (d : MDesc) => decide (128 < d.rows) || decide (128 < d.E) || ((d.tpitch != 0) != decide (1 < span))
  match j.op with
  | 0 => s.checkMm h j
  | 1 => s.checkMm h j
  | 2 => reasonOf (if s.tileKind (clusterOf s.cur) j.part j.acc && j.arg.getLsbD 2 then 4 else quota) 2
  | 3 =>
    let onB := s.descReason h j.b 1 (decide (3 ≤ j.b.fmt ∧ j.b.fmt ≤ 10)) (shape j.b || j.b.tr)
    let e := s.fmtEntry j (j.var 4 3)
    ((reasonOf onB 1).or (reasonOf quota 2)).or (reasonOf (s.entryReason h e j.b.rows j.b.E true (some j.b.fmt)) 3)
  | 4 => (reasonOf (s.descReason h j.b 1 ([1, 2, 3, 4, 9].contains j.b.fmt) (shape j.b)) 1).or (reasonOf quota 2)
  | 6 => (reasonOf (s.descReason h j.b span (j.b.fmt == 0) (shape j.b)) 1).or (reasonOf quota 2)
  | 7 => (reasonOf (s.descReason h j.a span (j.a.fmt == 0) (shape j.a)) 0).or (reasonOf quota 2)
  | _ => reasonOf quota 2

/-- R272: the descriptor pair that a field names. -/
def Hart.descPair (h : Hart) (n : BitVec 6) : BitVec 128 := h.getX (xOf (n + 1)) ++ h.getX (xOf n)

/-- R275: registers of the lane operand. -/
def Job.span (j : Job) (s : State) : Nat := j.b.E * fmtWidth (j.fmtA s) / 32

/-- R285: the issue of a matrix job. -/
def matIssue (i : Instr) (op : Nat) (m : MatJob) (var : Nat) (lane : Bool) (s : State) : Out :=
  onHart s fun h =>
    if s.pfmask h 0 then s.masked h i
    else s.stalling h fun s0 =>
      match s0.hart? s0.cur with
      | none => s0
      | some g =>
        let arg := BitVec.ofNat 64 (var + m.scope.toNat * 2 ^ 12 + b2n m.notify * 2 ^ 15 + m.acc.toNat * 2 ^ 16
          + (if lane then m.a.toNat else 0) * 2 ^ 20)
        let j := { g.newJob true op with
          hart := s0.cur, arg := arg, scope := m.scope, notify := m.notify
          desc := if lane then 0 else (g.descPair m.a).setWidth 512
          descB := g.descPair m.b
          lane := if lane then some (g.lanes.em.toNat, m.a.toNat) else none }
        match s0.checkJob g j with
        | some v => s0.raise 26 (BitVec.ofNat 64 v)
        | none =>
          let n := if lane then j.span s0 else 0
          let j1 := { j with regs := g.lanes.v.filter (fun e => decide (m.a.toNat * 32 ≤ e.1 ∧ e.1 < (m.a.toNat + n) * 32)) }
          let s1 := s0.issueJob (xOf m.xd) 8 fun _ => if lane then j1 else j
          match s1.hart? s1.cur with
          | none => s1
          | some k =>
            if lane && k.run.seq != g.run.seq then
              let slot := (((s1.cluster (clusterOf s1.cur)).jobs.find? (fun e => e.2.hart == s1.cur && e.2.live && e.2.seq == g.run.seq)).map (·.1)).getD 0
              s1.setCur { k with run := { k.run with lent := k.run.lent ++ [(m.a.toNat, n, jobId g.run.seq slot)] } }
            else s1

/-- R288. -/
def execMma (j : MatJob) (src : Bool) (q : BitVec 2) (fmt : BitVec 4) (had : BitVec 2) (norm : Bool) (s : State) : Out :=
  matIssue (.mma j src q fmt had norm) 0 j
    (b2n src + q.toNat * 2 + fmt.toNat * 8 + had.toNat * 128 + b2n norm * 512) src s

/-- R288. -/
def execMmas (j : MatJob) (src : Bool) (q fsa fsb had : BitVec 2) (norm : Bool) (s : State) : Out :=
  matIssue (.mmas j src q fsa fsb had norm) 1 j
    (b2n src + q.toNat * 2 + fsa.toNat * 8 + fsb.toNat * 32 + had.toNat * 128 + b2n norm * 512) src s

/-- R289. -/
def execMhad (j : MatJob) (size : BitVec 2) (norm : Bool) (s : State) : Out :=
  matIssue (.mhad j size norm) 2 j (size.toNat + b2n norm * 4) false s

/-- R290. -/
def execMqnt (j : MatJob) (rm : BitVec 3) (fs : BitVec 2) (s : State) : Out :=
  matIssue (.mqnt j rm fs) 3 j (rm.toNat + fs.toNat * 8) false s

/-- R291. -/
def execMcvt (j : MatJob) (rm : BitVec 3) (sat : BitVec 2) (s : State) : Out :=
  matIssue (.mcvt j rm sat) 4 j (rm.toNat + sat.toNat * 8) false s

/-- R292. -/
def execMzero (j : MatJob) (kind : Bool) (s : State) : Out := matIssue (.mzero j kind) 5 j (b2n kind) false s

/-- R293. -/
def execMst (j : MatJob) (rm : BitVec 3) (n1 : BitVec 4) (s : State) : Out :=
  matIssue (.mst j rm n1) 6 j (rm.toNat + n1.toNat * 8) false s

/-- R294. -/
def execMld (j : MatJob) (n1 : BitVec 4) (kind : Bool) (s : State) : Out :=
  matIssue (.mld j n1 kind) 7 j (n1.toNat + b2n kind * 16) false s

/-- R282: matrix jobs of a die that wait for their start. -/
def State.awaitingStart (s : State) (die : Nat) : List (Nat × Nat × Job) :=
  (s.clusters.filter (fun c => c.1 / 32 == die)).flatMap (fun c =>
    (c.2.jobs.filter (fun e => e.2.matrix && e.2.state == .running && !e.2.started && !s.partStopped e.2.part)).map
      (fun e => (c.1, e.1, e.2)))

/-- R282: MATRIX_START_GRANT: the arbiter of a die grants a start: partitions in rotation, the lowest cluster first, at most
four in any 8 cycles. Operand: the die. -/
def execMatrixStartGrant (s : State) : Out :=
  let die := s.arg.nat 0
  let d := s.die die
  let recent := d.starts.filter (fun t => decide (s.now < t + 8))
  let wait := s.awaitingStart die
  .next (match wait with
  | [] => s
  | _ =>
    if 4 ≤ recent.length then
      s.plan ((recent.foldl min s.now) + 8 - s.now) .matrixStartGrant { nats := [die] }
    else
      let p := (((upTo 64).map (fun i => (d.rr + 1 + i) % 64)).find? (fun p => wait.any (fun w => w.2.2.part == p))).getD 0
      match (wait.filter (fun w => w.2.2.part == p)).foldl (fun (best : Option (Nat × Nat × Job)) w => match best with
          | none => some w
          | some b => if w.1 < b.1 ∨ (w.1 = b.1 ∧ w.2.2.order < b.2.2.order) then some w else some b) none with
      | none => s
      | some w =>
        let s1 := s.setDie die { d with starts := recent ++ [s.now], rr := p }
        (((s1.modJob w.1 w.2.1 (fun j => { j with started := true })).planComplete w.1 w.2.1).kickEngine w.1 true).plan 0 .matrixStartGrant
          { nats := [die] })

def one32 : Word := 0x3F800000

/-- R270: the readout value. -/
def Tile.readout (t : Tile) (m n : Nat) : FVal × FlagSet :=
  if t.int then (.num (.ofInt (t.get m n).toInt), noFlags)
  else
    let v := fun (w : Word) => (floatFmt 0).value false w.toNat
    let a := (v (t.get m n)).mul (v (Map.findD t.sigmaA m one32))
    let b := a.1.mul (v (Map.findD t.sigmaB n one32))
    (b.1, a.2.or b.2)

def State.tile (s : State) (cl part acc : Nat) : Tile := Map.findD (s.cluster cl).tiles (part * 16 + acc) Tile.blank

def State.setTile (s : State) (cl part acc : Nat) (t : Tile) : State :=
  s.modCluster cl (fun c => { c with tiles := Map.put c.tiles (part * 16 + acc) t })

/-- R280: one bit sum: popcount(i and j) is odd. -/
def oddAnd (i j : Nat) : Bool := ((upTo 6).foldl (fun a b => a + b2n ((i &&& j).testBit b)) 0) % 2 == 1

/-- R280: the factor of the transform. -/
def hadFactor (h : Nat) (norm : Bool) : FVal :=
  if !norm then .num ⟨false, 1, 0, false⟩
  else (floatFmt 0).value false (if h = 16 then 0x3E800000 else if h = 32 then 0x3E3504F3 else 0x3E000000)

/-- R225, R277: a sum of values, exact, judged as a whole: a NaN among them, or infinities of both signs, makes it a NaN; NV is set by
a signalling NaN and by the infinities. -/
def sumVals (vs : List FVal) : FVal × FlagSet :=
  let inf := fun (n : Bool) => vs.any (fun v => match v with
    | .inf m => m == n
    | _ => false)
  let both := inf true && inf false
  if both || vs.any FVal.isNan then (qNaN, if both || vs.any FVal.isSig then flagNV else noFlags)
  else match vs with
  | [] => (.num (.zero false), noFlags)
  | v :: rest => (rest.foldl (fun a w => (a.add .rne w).1) v, noFlags)

/-- R280, R281: the transform of one block; a NaN anywhere makes all of it NaN. -/
def hadBlock (norm : Bool) (x : List FVal) : List (FVal × FlagSet) :=
  let h := x.length
  if x.any FVal.isNan then x.map (fun _ => (qNaN, if x.any FVal.isSig then flagNV else noFlags))
  else (upTo h).map (fun j =>
    let s := sumVals (x.zipIdx.map (fun e => if oddAnd e.2 j then e.1.neg else e.1))
    let p := s.1.mul (hadFactor h norm)
    (p.1, s.2.or p.2))

/-- A list cut into runs of n. -/
def chunksOf {α : Type} (n : Nat) (l : List α) : List (List α) :=
  (upTo (l.length / (max n 1))).map (fun i => (l.drop (i * n)).take n)

/-- R277: one K-step's products. -/
def dotProduct (a b : List FVal) : FVal × FlagSet :=
  let ps := List.zipWith FVal.mul a b
  let s := sumVals (ps.map (·.1))
  (s.1, ps.foldl (fun f p => f.or p.2) s.2)

/-- R277: a product sum with one microscale; none: a block NaN. -/
def timesScale (p : FVal × FlagSet) (c : Option XReal) : FVal × FlagSet :=
  match c with
  | none => (qNaN, p.2)
  | some x => let r := p.1.mul (.num x); (r.1, p.2.or r.2)

/-- R277: `rne32`. -/
def rne32 (v : FVal) : FOut := (floatFmt 0).encode FModes.rne 0 v

/-- R277: one float element over its K-steps: `steps` gives each step's p. -/
def accumulate (t : Word) (steps : List (FVal × FlagSet)) : Word × FlagSet :=
  steps.foldl (fun acc p =>
    let r := rne32 p.1
    let f32 := fun (n : Nat) => (floatFmt 0).value false n
    let sum := (f32 acc.1.toNat).add .rne (f32 r.pat)
    let o := rne32 sum.1
    (BitVec.ofNat 32 o.pat, acc.2.or (((p.2.or r.flags).or sum.2).or o.flags))) (t, noFlags)

/-- R277: one integer element: exact, modulo 2^32. -/
def accumulateInt (t : Word) (a b : List Int) : Word := t + BitVec.ofInt 32 ((List.zipWith (· * ·) a b).sum)

/-- R277, R281: a row of operand values, scaled and transformed where the job asks for it, with its flags. -/
def rowVals (vals : List FVal) (scales : Option (List (Option XReal))) (had : Nat) (norm : Bool) : List (FVal × FlagSet) :=
  if had = 0 then vals.map (fun v => (v, noFlags))
  else
    let scaled : List (FVal × FlagSet) := match scales with
      | none => vals.map (fun v => (v, noFlags))
      | some cs => vals.zipIdx.map (fun e => timesScale (e.1, if e.1.isSig then flagNV else noFlags) (cs.getD (e.2 / 8) none))
    let fl := scaled.foldl (fun f v => f.or v.2) noFlags
    ((chunksOf had (scaled.map (·.1))).map (hadBlock norm)).flatten.map (fun v => (v.1, v.2.or fl))

/-- An operand of a product, as read: the values of its rows, their integers, their microscales and their superscales. -/
structure Operand where
  vals : List (List FVal)
  ints : List (List Int)
  scales : List (List (Option XReal))
  supers : List Word

/-- Patterns of rows as an operand. -/
def operandOf (fmt : Nat) (pats : List (List Nat)) (scales : List (List (Option XReal))) (supers : List Word) : Operand :=
  { vals := pats.map (fun r => r.map (elemValue fmt false)), ints := pats.map (fun r => r.map (fun p => asSigned (fmtWidth fmt) p)),
    scales := scales, supers := supers }

/-- R275: the patterns of elements k0 to k1 − 1 of the lane operand. -/
def Job.lanePats (j : Job) (fmt base k0 k1 : Nat) : List (List Nat) :=
  let w := fmtWidth fmt
  let P := 32 / w
  allLanes.map (fun m => (upTo (k1 - k0)).map (fun i =>
    (Map.findD j.regs ((base + (k0 + i) / P) * 32 + m) 0).toNat / 2 ^ (w * ((k0 + i) % P)) % 2 ^ w))

/-- R278, R279: the scale codes of microblocks u0 to u1 − 1 of each row, and, with the first of them, the superscales. -/
def State.readScales (s : State) (cl slot : Nat) (j : Job) (e rows E u0 u1 : Nat) : JobAcc (List (List (Option XReal)) × List Word) :=
  (JobAcc.collect (fun (m : Nat) t =>
    t.readRuns cl slot j (entSsp e) (pagePieces (BitVec.ofNat 64 (entScales e + m * E / 8 + u0)) (u1 - u0))) (upTo rows) s).bind
  fun (codes : List (List Byte)) s1 =>
    (if u0 ≠ 0 then .ok [] s1
      else JobAcc.collect (fun (m : Nat) t =>
        t.readRuns cl slot j (entPsp e) (pagePieces (BitVec.ofNat 64 (entSupers e + 4 * (m * E / 256))) 4)) (upTo rows) s1).bind
    fun (sup : List (List Byte)) s2 =>
      .ok (codes.map (fun r => r.map (fun c => scaleValue c.toNat)), sup.map (fun b => BitVec.ofNat 32 (natOfBytes b))) s2

/-- R268, R281, R287: the K positions that a product takes in one go: a K-step, or the block of its transform. -/
def Job.unit (j : Job) (fa : Nat) : Nat := max (hadSize (j.var 8 7)) (stepLen j.op fa j.b.fmt)

/-- R272 to R279: what a product reads of both operands at its position. -/
def State.readOperands (s : State) (cl slot : Nat) (j : Job) : JobAcc (Operand × Operand) :=
  let fa := j.fmtA s
  let k0 := j.pos * stepLen j.op fa j.b.fmt
  let k1 := k0 + j.unit fa
  (match j.lane with
    | some (_, base) => JobAcc.ok (j.lanePats fa base k0 k1) s
    | none => s.readCols cl slot j j.a k0 k1).bind fun (pa : List (List Nat)) s1 =>
  (s1.readCols cl slot j j.b k0 k1).bind fun (pb : List (List Nat)) s2 =>
  if j.op = 0 then .ok (operandOf fa pa [] [], operandOf j.b.fmt pb [] []) s2
  else
    (s2.readScales cl slot j (s2.fmtEntry j (j.var 4 3)) j.rowsA j.b.E (k0 / 8) (k1 / 8)).bind fun sa s3 =>
    (s3.readScales cl slot j (s3.fmtEntry j (j.var 6 5)) j.b.rows j.b.E (k0 / 8) (k1 / 8)).bind fun sb s4 =>
    .ok (operandOf fa pa sa.1 sa.2, operandOf j.b.fmt pb sb.1 sb.2) s4

/-- R275: the rows of the tile a product updates: (row of A, row of the tile). -/
def Job.updates (j : Job) : List (Nat × Nat) :=
  match j.lane with
  | some (mask, _) => (allLanes.filter (fun m => mask.testBit m)).map (fun m => (m, 32 * j.var 2 1 + m))
  | none => (upTo j.a.rows).map (fun m => (m, m))

/-- R277: the K-steps of element (m, n) in the values read. -/
def Job.steps (j : Job) (L : Nat) (a b : List (FVal × FlagSet)) (ca cb : List (Option XReal)) : List (FVal × FlagSet) :=
  let scaled := j.op == 1 && j.var 8 7 == 0
  ((chunksOf L a).zip (chunksOf L b)).zipIdx.map (fun e =>
    let p := dotProduct (e.1.1.map (·.1)) (e.1.2.map (·.1))
    let fl := (e.1.1.foldl (fun f v => f.or v.2) noFlags).or (e.1.2.foldl (fun f v => f.or v.2) noFlags)
    let q := if scaled then timesScale (timesScale p (ca.getD e.2 none)) (cb.getD e.2 none) else p
    (q.1, q.2.or fl))

/-- R171, R277, R278: what the first step of a product does to its tile besides its sums: `mmas` latches the superscales. -/
def Job.latch (j : Job) (t : Tile) (A B : Operand) (fresh : Nat) : Tile :=
  let w : TileWrite := .sum j.launch j.hidx j.seq (j.updates.map (·.2)) j.b.rows (j.op == 1)
  let scale := fun (i : Nat) (v : Word) => if j.undef then Config.freeBits 32 (fresh + 16384 + i) else v
  let t1 := { t with trace := t.trace ++ [w] }
  if j.op = 1 then
    { t1 with
      sigmaA := j.updates.foldl (fun m u => Map.put m u.2 (scale u.2 (A.supers.getD u.1 one32))) t.sigmaA
      sigmaB := (upTo j.b.rows).foldl (fun m n => Map.put m n (scale (128 + n) (B.supers.getD n one32))) t.sigmaB }
  else t1

/-- R277, R278: `mm_run` on a tile over the K positions read, with the flags collected (R286). -/
def Job.product (j : Job) (fa : Nat) (t : Tile) (A B : Operand) (fresh : Nat) : Tile × FlagSet :=
  let L := stepLen j.op fa j.b.fmt
  let had := hadSize (j.var 8 7)
  let norm := j.arg.getLsbD 9
  let prep := fun (o : Operand) => o.vals.zipIdx.map (fun r => rowVals r.1 (if j.op = 1 then some (o.scales.getD r.2 []) else none) had norm)
  let av := prep A
  let bv := prep B
  let t0 := if j.pos = 0 then j.latch t A B fresh else t
  j.updates.foldl (fun acc u => (upTo j.b.rows).foldl (fun (acc : Tile × FlagSet) n =>
    if j.undef then (acc.1.set u.2 n (Config.freeBits 32 (fresh + u.2 * 128 + n)), acc.2)
    else if t.int then (acc.1.set u.2 n (accumulateInt (t.get u.2 n) (A.ints.getD u.1 []) (B.ints.getD n [])), acc.2)
    else
      let r := accumulate (t.get u.2 n) (j.steps L (av.getD u.1 []) (bv.getD n []) (A.scales.getD u.1 []) (B.scales.getD n []))
      (acc.1.set u.2 n r.1, acc.2.or r.2)) acc) (t0, noFlags)

/-- R289: one block of a tile's row. -/
def Tile.hadRow (t : Tile) (h : Nat) (norm : Bool) (m blk : Nat) (acc : Tile × FlagSet) : Tile × FlagSet :=
  let cols := (upTo h).map (fun i => blk * h + i)
  if t.int then
    ((upTo h).foldl (fun u j => u.set m (blk * h + j) (BitVec.ofInt 32
      ((cols.zipIdx.map (fun e => if oddAnd e.2 j then -(t.get m e.1).toInt else (t.get m e.1).toInt)).sum))) acc.1, acc.2)
  else
    let ys := hadBlock norm (cols.map (fun n => (floatFmt 0).value false (t.get m n).toNat))
    ys.zipIdx.foldl (fun acc y =>
      let r := rne32 y.1.1
      (acc.1.set m (blk * h + y.2) (BitVec.ofNat 32 r.pat), acc.2.or (y.1.2.or r.flags))) acc

/-- R289: `mhad` on a row of a tile. -/
def Tile.hadamard (t : Tile) (h : Nat) (norm : Bool) (m : Nat) : Tile × FlagSet :=
  (upTo (128 / h)).foldl (fun acc b => t.hadRow h norm m b acc) ({ t with trace := t.trace ++ [.mix m h] }, noFlags)

/-- R293, R291, R290: a write of a job: the run's address and its bytes. -/
abbrev JobRun := DWord × List Byte

/-- R273: the writes of one logical row of a destination, given its elements' patterns. -/
def MDesc.rowWrites (d : MDesc) (tile r : Nat) (pats : List Nat) : List JobRun :=
  let w := fmtWidth d.fmt
  let place := fun (off sr : Nat) (bs : List Byte) =>
    ((d.runs tile sr off bs.length).foldl (fun (acc : List JobRun × List Byte) p =>
      (acc.1 ++ [(p.1, acc.2.take p.2)], acc.2.drop p.2)) ([], bs)).1
  if d.tr then (pats.zipIdx.map (fun e => place (r * w / 8) e.2 (bytesOfNat e.1 (w / 8)))).flatten
  else place 0 r (bytesOfNat (pats.zipIdx.foldl (fun a e => a + e.1 * 2 ^ (w * e.2)) 0) ((pats.length * w + 7) / 8))

/-- R287, R315: writes of a job in a space: every place is ready before the first is written. -/
def State.jobWrites (s : State) (cl slot : Nat) (j : Job) (sp : Nat) (ws : List JobRun) : JobAcc (List (JobSpot × List Byte)) :=
  JobAcc.collect (fun (w : JobRun) t => (t.jobSpot cl slot j sp w.1 w.2.length true).bind fun p t1 => .ok (p, w.2) t1) ws s

/-- R51: a rounding mode of the engine. -/
def Job.rm (j : Job) : Rm := (Rm.ofCode (BitVec.ofNat 3 (j.var 2 0))).getD .rne

/-- R293: one element of `mst`. -/
def Job.storeElem (j : Job) (t : Tile) (m n : Nat) : Nat × FlagSet :=
  if t.int then ((t.get m n).toNat, noFlags)
  else
    let v := t.readout m n
    let o := (floatFmt 0).encode ⟨j.rm, 0, false, false⟩ 0 v.1
    (o.pat, v.2.or o.flags)

/-- R291: one element of `mcvt`. -/
def Job.cvtElem (j : Job) (t : Tile) (m n : Nat) : Nat × FlagSet :=
  let v := t.readout m n
  let o := convertTo j.b.fmt ⟨j.rm, j.var 4 3, false, false⟩ 0 v.1
  (o.pat, v.2.or o.flags)

/-- One row of a destination, each element by `f`: the writes and the flags. -/
def MDesc.writeRow (d : MDesc) (tile r : Nat) (f : Nat → Nat → Nat × FlagSet) : List JobRun × FlagSet :=
  let es := (upTo d.E).map (fun n => f r n)
  (d.rowWrites tile r (es.map (·.1)), es.foldl (fun g e => g.or e.2) noFlags)

/-- R290: the largest finite magnitude of a destination format, and the value it stands for. -/
def fmtMax (code : Nat) : XReal :=
  match code with
  | 8 => ⟨false, 1, 0, false⟩
  | 9 => ⟨false, 127, 0, false⟩
  | 10 => ⟨false, 7, 0, false⟩
  | c => match (floatFmt c).value false (floatFmt c).maxMag with
    | .num x => x
    | _ => .zero false

/-- The magnitude of a finite value, or none. -/
def FVal.mag : FVal → Option XReal
  | .num x => some { x with neg := false }
  | _ => none

/-- The larger of two magnitudes. -/
def maxMags (vs : List FVal) : XReal :=
  (vs.filterMap FVal.mag).foldl (fun a b => if a.cmp b == .lt then b else a) (.zero false)

/-- R290: the exponent of a superblock's superscale. -/
def superExp (A : XReal) : Int :=
  if A.man = 0 then 0 else max (-126) (min 127 (A.exp + Nat.log2 A.man))

/-- R290: the smallest code whose scale covers a / Fmax. -/
def codeFor (code : Nat) (a : XReal) (anyInf : Bool) : Nat :=
  if a.man = 0 then (if anyInf then 0x78 else 0)
  else (((upTo 0xF7).map (· + 1)).find? (fun c => match scaleValue c with
    | none => false
    | some k => ((k.mul (fmtMax code)).cmp a != .lt))).getD 0xF7

/-- R290: one element of a microblock under its scale. -/
def Job.quantElem (j : Job) (v : FVal) (S : Int) (code : Nat) : Nat × FlagSet :=
  match scaleValue code with
  | none => (0, noFlags)
  | some k =>
    if k.man = 0 then (0, match v with
      | .num x => if x.isZero then noFlags else flagNX
      | _ => flagNX)
    else
      let q := (v.div (.num { k with exp := k.exp + S })).1
      let o := convertTo j.b.fmt ⟨j.rm, 0, false, false⟩ 0 q
      (o.pat, o.flags)

/-- R290: a microblock quantised: its scale code, and its elements' patterns and flags. -/
abbrev Micro := Nat × List (Nat × FlagSet)

/-- R290: a tile quantised: each superblock's superscale and its microblocks, in index order. -/
def Job.quantise (j : Job) (t : Tile) : List (Nat × List Micro) :=
  let d := j.b
  let vs := ((upTo d.rows).map (fun m => (upTo d.E).map (fun n => (t.readout m n).1))).flatten
  ((upTo ((vs.length + 255) / 256)).map (fun b => (vs.drop (256 * b)).take 256)).map (fun b =>
    let S := superExp (maxMags b)
    let micro := (upTo ((b.length + 7) / 8)).map (fun u => (b.drop (8 * u)).take 8)
    ((127 + S).toNat * 2 ^ 23, micro.map (fun u =>
      if u.any FVal.isNan then (0xFF, u.map (fun _ => (0, flagNV)))
      else
        let top := maxMags u
        let code := codeFor d.fmt { top with exp := top.exp - S } (u.any (fun v => match v with
          | .inf _ => true
          | _ => false))
        (code, u.map (fun v => j.quantElem v S code)))))

/-- Bytes cut at 4 KiB boundaries of their address. -/
def cutRuns (a : Nat) (bs : List Byte) : List JobRun :=
  ((pagePieces (BitVec.ofNat 64 a) bs.length).foldl (fun (acc : List JobRun × List Byte) p =>
    (acc.1 ++ [(p.1, acc.2.take p.2)], acc.2.drop p.2)) ([], bs)).1

/-- R290: what `mqnt` writes for row r: its elements, their scale codes, and the superscales of the superblocks that begin in it; and
its flags. -/
def Job.quantRow (j : Job) (t : Tile) (e r : Nat) : (List JobRun × List JobRun × List JobRun) × FlagSet :=
  let d := j.b
  let q := j.quantise t
  let row := ((q.map (·.2)).flatten.drop (r * d.E / 8)).take (d.E / 8)
  let els := (row.map (·.2)).flatten
  let supers := q.zipIdx.filter (fun b => decide (r * d.E ≤ 256 * b.2 ∧ 256 * b.2 < (r + 1) * d.E))
  let fl := els.foldl (fun f x => f.or x.2) noFlags
  ((d.rowWrites 0 r (els.map (·.1)), cutRuns (entScales e + r * d.E / 8) (row.map (fun u => BitVec.ofNat 8 u.1)),
    (supers.map (fun b => cutRuns (entSupers e + 4 * b.2) (bytesOfNat b.1.1 4))).flatten),
   (upTo d.E).foldl (fun f n => f.or (t.readout r n).2) fl)

/-- Bytes of undefined value in place of a spoilt job's (R171). -/
def Job.spoil (j : Job) (s : State) (ws : List JobRun) : List JobRun :=
  if j.undef then (ws.zipIdx.map (fun w => (w.1.1, bytesOfNat (Config.freeBits (8 * w.1.2.length) (s.fresh + w.2)).toNat w.1.2.length))) else ws

/-- R277, R287: the K-steps of a product, or the rows of any other job. -/
def Job.total (j : Job) (s : State) : Nat :=
  match j.op with
  | 0 | 1 => j.b.E / stepLen j.op (j.fmtA s) j.b.fmt
  | 2 => 128
  | 5 => 1
  | 6 => j.tileSpan.2 * j.b.rows
  | 7 => j.tileSpan.2 * j.a.rows
  | _ => j.b.rows

/-- R287: one step of a matrix job at its position: its flags, and the K-steps or rows done. -/
def State.matStep (s : State) (cl slot : Nat) (j : Job) : JobAcc (FlagSet × Nat) :=
  let t := s.tile cl j.part j.acc
  match j.op with
  | 0 | 1 =>
    (s.readOperands cl slot j).bind fun o s1 =>
      let fa := j.fmtA s
      let r := j.product fa t o.1 o.2 s1.fresh
      .ok (r.2, j.unit fa / stepLen j.op fa j.b.fmt) { s1.setTile cl j.part j.acc r.1 with fresh := s1.fresh + 16384 + 256 }
  | 2 =>
    let r := t.hadamard (hadSize (j.var 1 0)) (j.arg.getLsbD 2) j.pos
    .ok (r.2, 1) (s.setTile cl j.part j.acc r.1)
  | 3 =>
    let e := s.fmtEntry j (j.var 4 3)
    let q := j.quantRow t e j.pos
    (s.jobWrites cl slot j j.b.sp (j.spoil s q.1.1)).bind fun w1 s1 =>
    (s1.jobWrites cl slot j (entSsp e) (j.spoil s q.1.2.1)).bind fun w2 s2 =>
    (s2.jobWrites cl slot j (entPsp e) (j.spoil s q.1.2.2)).bind fun w3 s3 =>
      .ok (q.2, 1) (((s3.performWrites w1).performWrites w2).performWrites w3)
  | 4 =>
    let r := j.b.writeRow 0 j.pos (j.cvtElem t)
    (s.jobWrites cl slot j j.b.sp (j.spoil s r.1)).bind fun ws s1 => .ok (r.2, 1) (s1.performWrites ws)
  | 5 => .ok (noFlags, 1) (s.setTile cl j.part j.acc { Tile.blank with int := j.arg.getLsbD 0 })
  | 6 =>
    let i := j.pos / j.b.rows
    let r := j.b.writeRow i (j.pos % j.b.rows) (j.storeElem (s.tile cl j.part (j.acc + i)))
    (s.jobWrites cl slot j j.b.sp (j.spoil s r.1)).bind fun ws s1 => .ok (r.2, 1) (s1.performWrites ws)
  | _ =>
    let i := j.pos / j.a.rows
    let m := j.pos % j.a.rows
    (s.readElems cl slot j j.a i 0 j.a.E m).bind fun (row : List Nat) s1 =>
      let old := s1.tile cl j.part (j.acc + i)
      let start := if m = 0 then
          { old with int := j.arg.getLsbD 4, sigmaA := [], sigmaB := [], poison := false, trace := old.trace ++ [.load j.a.rows j.a.E] }
        else old
      .ok (noFlags, 1) (s1.setTile cl j.part (j.acc + i) (row.zipIdx.foldl (fun u e => u.set m e.2 (BitVec.ofNat 32 e.1)) start))

/-- R287, R315: a matrix job goes on from its position, for at most n steps; true once it has done them all. -/
def State.runMatrix (s : State) (cl slot : Nat) : Nat → JobAcc Bool
  | 0 => .ok (match s.job? cl slot with
    | none => false
    | some j => decide (j.total s ≤ j.pos)) s
  | n + 1 =>
    match s.job? cl slot with
    | none => .ok false s
    | some j =>
      if j.total s ≤ j.pos then .ok true s
      else match s.matStep cl slot j with
      | .ok r s1 => (s1.modJob cl slot (fun o => { o with
          pos := o.pos + r.2, flags := o.flags ||| r.1.bits, walks := [], declined := [], failedPages := [] })).runMatrix cl slot n
      | .park st s1 => .park st s1
      | .fail kind va s1 => .fail kind va s1

/-- R385: a tile the job names is poisoned, and the job does not clear it. -/
def State.tilePoisoned (s : State) (cl : Nat) (j : Job) : Bool :=
  j.op != 5 && j.op != 7 && (upTo j.tileSpan.2).any (fun i => (s.tile cl j.part (j.acc + i)).poison)

/-- R185: JOB_COMPLETE: the last write of a BTE job has been performed; a matrix job has its effect, or waits, or fails.
Operands: the cluster, the slot, the job's number and, where the environment lets a matrix job do only a part, its steps. -/
def execJobComplete (s : State) : Out :=
  let cl := s.arg.nat 0
  let slot := s.arg.nat 1
  .next (match s.job? cl slot with
  | none => s
  | some j =>
    if !(j.live && j.order == s.arg.nat 2) then s
    else if s.partStopped j.part then s.modJob cl slot (fun o => { o with stopped := true })
    else if j.state != .running || (j.matrix && !j.started) || (!j.matrix && !j.moved) then s
    else if !j.matrix then s.endJob cl slot none
    else if s.tilePoisoned cl j then s.failJob cl slot 4 0
    else match s.runMatrix cl slot (if s.arg.nat 3 = 0 then j.total s else s.arg.nat 3) with
      | .ok true s1 => s1.endJob cl slot none
      | .ok false s1 => s1.planComplete cl slot
      | .park st s1 => s1.modJob cl slot (fun o => { o with state := st })
      | .fail kind va s1 => s1.failJob cl slot kind va)

end Sys2Proof.Machine
end

