-- ==== Sys2Proof/Machine/Context.lean ====
section
/-! DEFINITION. The hart record and its extension (R370, R371) and the system instructions of custom-2 (R378 to R384). -/

namespace Sys2Proof.Machine

open Sys2Proof

/-- Fields placed in a number: (low bit, width, value). -/
def packFields (fs : List (Nat × Nat × Nat)) : Nat := fs.foldl (fun a f => a + f.2.2 % 2 ^ f.2.1 * 2 ^ f.1) 0

/-- R58, R404: the live masks of a safe point: x, v and p registers. -/
structure Live where
  x : Nat
  v : Nat
  p : Nat
  deriving DecidableEq, Repr

def Live.all : Live := ⟨2 ^ 32 - 1, 2 ^ 64 - 1, 2 ^ 12 - 1⟩

/-- R371: what a record holds of the privileged state: the pc, the privilege and the `sst` fields. -/
structure Resume where
  pc : DWord
  priv : Priv
  sie : Bool
  spie : Bool
  spp : Bool
  sum : Bool
  mxr : Bool
  deriving DecidableEq, Repr

/-- R371: a hart's own resumption. -/
def Hart.resume (h : Hart) : Resume :=
  ⟨h.pc, h.priv, h.status bitSIE, h.status bitSPIE, h.status bitSPP, h.status bitSUM, h.status bitMXR⟩

/-- R382: the interrupted context that `ctxs` snapshots. -/
def Hart.interrupted (h : Hart) : Resume := { h.resume with pc := h.csr.mepc, priv := h.mpp }

/-- R371: the first 1,024 bytes of a hart record; `valid` is bit 0. -/
def Hart.header (h : Hart) (r : Resume) (live : Live) : Nat :=
  let lane := fun (l : Nat) =>
    packFields [(0, 48, (h.lanes.item.getD l 0).toNat), (48, 1, b2n (h.lanes.fresh.getLsbD l)),
      (49, 1, b2n (!h.lanes.occ.getLsbD l)), (50, 1, b2n (h.lanes.em.getLsbD l)), (51, 6, (h.lanes.sticky.getD l 0).toNat)]
  let c := h.csr.scause
  packFields ([(0, 1, 1), (2, 62, r.pc.toNat / 4)]
    ++ ((upTo 32).drop 1).map (fun n => (64 * n, 64, if live.x.testBit n then (h.getX (BitVec.ofNat 5 n)).toNat else 0))
    ++ (upTo 12).map (fun k => (2048 + 32 * k, 32, if live.p.testBit k then (h.getP k).toNat else 0))
    ++ allLanes.map (fun l => (2432 + 64 * l, 64, lane l))
    ++ allLanes.map (fun l => (4480 + 32 * l, 32, (h.lanes.gen.getD l 0).toNat))
    ++ allLanes.map (fun l => (5504 + 32 * l, 32, (h.lanes.cohort.getD l 0).toNat))
    ++ allLanes.map (fun l => (6528 + 32 * l, 32, (h.lanes.sr.getD l 0).toNat))
    ++ [(7552, 64, h.csr.sepc.toNat), (7616, 64, h.csr.stval.toNat), (7680, 64, h.csr.sscratch.toNat),
        (7744, 64, h.csr.satp.toNat), (7808, 64, h.csr.stvec.toNat), (7872, 64, h.dev.lftab.toNat),
        (7936, 64, h.dev.emuvec.toNat), (8000, 32, h.dev.lseed.toNat), (8032, 32, h.dev.lfmask.toNat),
        (8064, 32, h.dev.hangthr.toNat), (8096, 32, h.dev.lkto.toNat), (8128, 5, c.toNat), (8133, 1, b2n (c.getLsbD 63)),
        (8134, 1, b2n (r.priv != .U)), (8135, 1, b2n r.sie), (8136, 1, b2n r.spie), (8137, 1, b2n r.spp),
        (8138, 1, b2n r.sum), (8139, 1, b2n r.mxr), (8140, 4, bits h.csr.mie.toNat 19 16),
        (8144, 6, h.dev.lflags.toNat), (8150, 6, h.dev.bflags.toNat), (8156, 3, h.dev.lrm.toNat),
        (8159, 1, b2n h.run.drain), (8160, 1, b2n h.run.barw)])

/-- R371: the v registers and the slices of a hart record. -/
def Hart.bulk (h : Hart) (live : Live) : List Byte :=
  ((upTo 64).map (fun n => (allLanes.map (fun l =>
    bytesOfNat (if live.v.testBit n then (h.getV n l).toNat else 0) 4)).flatten)).flatten
  ++ (allLanes.map (fun l => Memory.bytes h.lanes.slice (l * 256) 256)).flatten

/-- R371: the extension of a record. -/
def Hart.extension (h : Hart) (locks : List Nat) (njob now : Nat) : Nat :=
  let aq := fun (i : Nat) => h.run.aq.getD i (0, 0)
  packFields ([(0, 64, (h.mcycle now).toNat), (64, 64, h.csr.minstret.toNat), (128, 32, h.run.cohortCtr.toNat),
      (160, 16, h.run.seq.toNat)]
    ++ (upTo 4).map (fun i => (176 + 8 * i, 8, if i < locks.length then 128 + locks.getD i 0 else 0))
    ++ (upTo 4).map (fun i => (208 + 32 * i, 32, (h.run.iq19.getD i 0).toNat))
    ++ [(336, 3, h.run.iq19.length), (339, 1, b2n h.run.iq19Ovf), (340, 3, h.run.aq.length), (343, 1, b2n h.run.aqOvf),
        (344, 1, b2n h.run.irq16.isSome), (345, 1, b2n h.run.irq18.isSome)]
    ++ (upTo 4).map (fun i => (352 + 8 * i, 8, (aq i).1))
    ++ (upTo 4).map (fun i => (384 + 64 * i, 64, (aq i).2.toNat))
    ++ [(640, 8, njob), (648, 16, h.role.hidx), (664, 48, h.dev.itembase.toNat),
        (712, 64, (h.run.irq16.getD 0).toNat), (776, 64, (h.run.irq18.getD 0).toNat)])

/-- R371: the `sst` fields of a record, in an `mstatus` that keeps its other bits. -/
def statusOf (old : DWord) (hd : Nat) : DWord :=
  let b := fun (v : DWord) (e : Nat × Nat) => setBit v e.1 (hd.testBit e.2)
  [(bitSIE, 8135), (bitSPIE, 8136), (bitSPP, 8137), (bitSUM, 8138), (bitMXR, 8139)].foldl b old

/-- R371: a hart loaded from a record, its extension and its 16,384 further bytes; fields that the record does not hold are
those of `base`, pending requests of R125, R367, R376 and R377 among them; fields that a CSR fixes read as R36 and R73 state. -/
def Hart.load (base : Hart) (hd ext : Nat) (bulk : List Byte) (now : Nat) : Hart :=
  let f := fun (lo w : Nat) => hd / 2 ^ lo % 2 ^ w
  let e := fun (lo w : Nat) => ext / 2 ^ lo % 2 ^ w
  let d := fun (lo : Nat) => BitVec.ofNat 64 (f lo 64)
  let mask := fun (bit : Nat) => allLanes.foldl (fun m l => setMask m l (hd.testBit (2432 + 64 * l + bit))) (0 : Word)
  let vac := mask 49
  { base with
    pc := BitVec.ofNat 64 (f 2 62 * 4)
    priv := if hd.testBit 8134 then .S else .U
    x := Vector.ofFn (fun (i : Fin 32) => if i.val = 0 then 0 else d (64 * i.val))
    lanes :=
      { v := ((upTo 2048).foldl (fun acc n =>
          let w := natOfBytes ((bulk.drop (4 * n)).take 4)
          if w = 0 then acc else (n, BitVec.ofNat 32 w) :: acc) []).reverse
        p := Vector.ofFn (fun (i : Fin 12) => BitVec.ofNat 32 (f (2048 + 32 * i.val) 32))
        em := mask 50 &&& ~~~vac
        occ := ~~~vac
        item := Vector.ofFn (fun (i : Fin 32) => BitVec.ofNat 48 (f (2432 + 64 * i.val) 48))
        gen := Vector.ofFn (fun (i : Fin 32) => BitVec.ofNat 32 (f (4480 + 32 * i.val) 32))
        fresh := mask 48
        cohort := Vector.ofFn (fun (i : Fin 32) => BitVec.ofNat 32 (f (5504 + 32 * i.val) 32))
        ts := base.lanes.ts
        sticky := Vector.ofFn (fun (i : Fin 32) => BitVec.ofNat 6 (f (2432 + 64 * i.val + 51) 6))
        sr := Vector.ofFn (fun (i : Fin 32) => BitVec.ofNat 32 (f (6528 + 32 * i.val) 32))
        slice := Memory.store [] 0 (bulk.drop 8192) }
    csr := { base.csr with
      mstatus := statusOf base.csr.mstatus hd, mie := BitVec.ofNat 64 (f 8140 4 * 2 ^ 16), stvec := d 7808 &&& ~~~3, sscratch := d 7680,
      sepc := d 7552 &&& ~~~3, scause := BitVec.ofNat 64 (f 8128 5 + f 8133 1 * 2 ^ 63), stval := d 7616,
      satp := satpWrite base.csr.satp (d 7744),
      mcycleHeld := BitVec.ofNat 64 (e 0 64), mcycleFrom := now, minstret := BitVec.ofNat 64 (e 64 64) }
    dev := { base.dev with
      lflags := BitVec.ofNat 6 (f 8144 6), bflags := BitVec.ofNat 6 (f 8150 6), lrm := BitVec.ofNat 3 (f 8156 3),
      lseed := BitVec.ofNat 32 (f 8000 32), hangthr := BitVec.ofNat 32 (f 8064 32), emuvec := d 7936 &&& ~~~2,
      lfmask := BitVec.ofNat 32 (f 8032 32), lftab := d 7872 &&& ~~~63, lkto := BitVec.ofNat 32 (f 8096 32),
      itembase := BitVec.ofNat 48 (e 664 48) }
    run := { Run.reset with
      irq17 := base.run.irq17, preempt := base.run.preempt, graceOver := base.run.graceOver, lent := base.run.lent
      halted := base.run.halted, amber := base.run.amber, haltReq := base.run.haltReq, stepping := base.run.stepping
      busyUntil := base.run.busyUntil, hangFrom := now, drain := hd.testBit 8159, barw := hd.testBit 8160
      aq := (upTo (min (e 340 3) 4)).map (fun i => (e (352 + 8 * i) 8, BitVec.ofNat 64 (e (384 + 64 * i) 64)))
      aqOvf := ext.testBit 343
      irq16 := if ext.testBit 344 then some (BitVec.ofNat 64 (e 712 64)) else none
      irq18 := if ext.testBit 345 then some (BitVec.ofNat 64 (e 776 64)) else none
      iq19 := (upTo (min (e 336 3) 4)).map (fun i => BitVec.ofNat 64 (e (208 + 32 * i) 32))
      iq19Ovf := ext.testBit 339
      seq := BitVec.ofNat 16 (e 160 16), cohortCtr := BitVec.ofNat 32 (e 128 32) }
    role := { base.role with hidx := e 648 16 } }

/-- R371: bank locks recorded as held. -/
def extLocks (ext : Nat) : List Nat :=
  (upTo 4).filterMap (fun i => if ext.testBit (176 + 8 * i + 7) then some (bits ext (176 + 8 * i + 4) (176 + 8 * i)) else none)

/-- R152, R154: the bank locks a hart holds. -/
def State.locksOf (s : State) (k : Nat) : List Nat :=
  ((s.core (coreOf k)).locks.filter (fun l => l.2.holder == k)).map (·.1)

/-- R154: a restored hart's recorded locks acquired again, as far as they are free; it waits in the queue of the next. -/
def State.relock (s : State) (k : Nat) : Nat → State
  | 0 => s
  | n + 1 =>
    match s.hart? k with
    | none => s
    | some h =>
      match h.run.relock with
      | [] => s.endReinstate k
      | b :: rest =>
        let c := coreOf k
        if (Map.find (s.core c).locks b).isNone && !(s.core c).lockq.any (fun e => e.1 == b) then
          ((s.grantBank c b k).modHarts (fun j _ => j == k) (fun _ g => { g with run := { g.run with relock := rest } })).relock k n
        else s.modCore c (fun v => { v with lockq := if v.lockq.contains (b, k) then v.lockq else v.lockq ++ [(b, k)] })

/-- Every line of a range of guest-physical bytes stands at its home slice, for a store or a load of the acting hart at M. -/
def State.linesFor (s : State) (h : Hart) (gpa n : Nat) (k : AccKind) : Acc Unit :=
  (linePieces gpa n).foldl (fun (r : Acc Unit) p => r.bind fun _ t =>
    match t.part? h.role.part with
    | none => .trap k.accessCause (BitVec.ofNat 64 p.1) false t
    | some v => match v.range? p.1 with
      | none => .trap k.accessCause (BitVec.ofNat 64 p.1) false t
      | some _ => t.lineFor h (BitVec.ofNat 64 p.1) p.1 k) (.ok () s)

/-- Bytes of a partition read by GPA. -/
def State.gpaBytes (s : State) (part gpa n : Nat) : List Byte := ((linePieces gpa n).map (fun q => s.bytesAt part q.1 q.2)).flatten

/-- Bytes of a partition written by GPA. -/
def State.gpaWrite (s : State) (part gpa : Nat) (bs : List Byte) (by_ : Option Nat) : State :=
  (linePieces gpa bs.length).foldl (fun t q => t.writeHome part q.1 ((bs.drop (q.1 - gpa)).take q.2) by_) s

/-- R382, R189: a job of the acting hart that has not ended. -/
def State.jobsLive (s : State) (k : Nat) (h : Hart) : Bool :=
  (s.cluster (clusterOf k)).jobs.any (fun e => e.2.live && e.2.launch == h.role.launch && e.2.hidx == h.role.hidx && e.2.part == h.role.part)

/-- R382: `ctxs`. -/
def execCtxs (xr : BitVec 5) (s : State) : Out :=
  onHart s fun h =>
    let a := h.getX xr
    if h.priv ≠ .M ∨ h.tsc then s.illegal h (.ctxs xr)
    else if a.toNat % 64 ≠ 0 then s.raise 6 a
    else if s.jobsLive s.cur h then s
    else s.releasing scS (.ctxs xr) fun t =>
      (t.linesFor h a.toNat 17536 .store).done fun _ t1 =>
        let hd := h.header h.interrupted Live.all
        let part := h.role.part
        let t2 := t1.gpaWrite part (a.toNat + 17408) (bytesOfNat (h.extension (s.locksOf s.cur) 0 s.now) 128) (some (coreOf s.cur))
        let t3 := t2.gpaWrite part (a.toNat + 8) ((bytesOfNat hd 1024).drop 8 ++ h.bulk Live.all) (some (coreOf s.cur))
        let t4 := t3.gpaWrite part a.toNat ((bytesOfNat hd 1024).take 8) (some (coreOf s.cur))
        t4.modCur (fun k => (k.hangClear s.now).retire 4)

/-- R186, R383: the tags of the acting hart's ended jobs are forgotten. -/
def State.forgetJobs (s : State) (k : Nat) (h : Hart) : State :=
  s.modCluster (clusterOf k) (fun c => { c with jobs := Map.mapVal c.jobs (fun _ j =>
    if j.launch == h.role.launch && j.hidx == h.role.hidx && j.part == h.role.part && !j.live then { j with launch := none, hidx := 2 ^ 16 } else j) })

/-- R383: `ctxl`. -/
def execCtxl (xr : BitVec 5) (s : State) : Out :=
  onHart s fun h =>
    let a := h.getX xr
    if h.priv ≠ .M ∨ h.tsc then s.illegal h (.ctxl xr)
    else if a.toNat % 64 ≠ 0 then s.raise 4 a
    else (s.linesFor h a.toNat 17536 .load).done fun _ t =>
      let bs := t.gpaBytes h.role.part a.toNat 17536
      let hd := natOfBytes (bs.take 1024)
      let ext := natOfBytes (bs.drop 17408)
      if !hd.testBit 0 then t.raise 5 a
      else
        let t1 := ((t.freeLocks s.cur).forgetJobs s.cur h).acquire (coreOf s.cur) scC
        let locks := extLocks ext
        let base := { h with csr := { h.csr with mepc := 0 } }
        let g := base.load hd ext ((bs.drop 1024).take 16384) s.now
        let g1 := { g with run := { g.run with relock := locks } }
        if locks.isEmpty then t1.setCur g1
        else (t1.setCur (g1.park .reinstate s.now)).relock s.cur 5

/-- R80, R309: an invalidation in progress cancels a fill. -/
def State.cancelled (s : State) (e : Leaf) : Bool :=
  s.clusters.any (fun c => c.2.sfences.any (fun f => e.matchesFence f.2.2.1 f.2.2.2.1 f.2.2.2.2))

/-- R379: the leaf that `tlbw` names; none where a must-be-zero bit is set or an address is not aligned to the size. -/
def tlbwLeaf (e a : DWord) : Option Leaf :=
  let size := bits e.toNat 41 40
  let k := 2 ^ (pageBits size - 12)
  let gpa := bits e.toNat 39 0
  let vpn := bits a.toNat 44 0
  if bits e.toNat 63 54 ≠ 0 ∨ bits a.toNat 63 61 ≠ 0 ∨ gpa % k ≠ 0 ∨ vpn % k ≠ 0 then none
  else some { part := bits e.toNat 53 48, asid := bits a.toNat 60 45, vpn := vpn, size := size, gpaPage := gpa,
              r := e.getLsbD 42, w := e.getLsbD 43, x := e.getLsbD 44, u := e.getLsbD 45, g := e.getLsbD 46, d := e.getLsbD 47 }

/-- R379: `tlbw`: on a translation service core, at M. -/
def execTlbw (xe xa : BitVec 5) (s : State) : Out :=
  onHart s fun h =>
    if !h.tsc || h.priv != .M then s.illegal h (.tlbw xe xa)
    else match tlbwLeaf (h.getX xe) (h.getX xa) with
    | none => s.illegal h (.tlbw xe xa)
    | some e => (if s.cancelled e then s else s.tlbFill (clusterOf s.cur) e).modCur (fun k => k.retire 4)

/-- R380: `tlbinv`. -/
def execTlbinv (xa xc : BitVec 5) (s : State) : Out :=
  onHart s fun h =>
    let c := (h.getX xc).toNat
    if !h.tsc || h.priv != .M || bits c 63 24 != 0 then s.illegal h (.tlbinv xa xc)
    else (s.tlbRemove (bits c 5 0) (if c.testBit 22 then none else some (h.getX xa))
      (if c.testBit 23 then none else some (bits c 21 6))).modCur (fun k => k.retire 4)

/-- R381: what `tlbprobe` writes for an entry. -/
def probeWord (e : Leaf) (level : Nat) (va : DWord) : DWord :=
  BitVec.ofNat 64 (packFields [(0, 1, 1), (1, 2, level), (3, 2, e.size), (5, 1, b2n e.r), (6, 1, b2n e.w), (7, 1, b2n e.x),
    (8, 1, b2n e.u), (9, 1, b2n e.g), (10, 1, b2n e.d), (12, 40, e.gpa va / 4096)])

/-- R381: `tlbprobe`; attempted again until the answer has arrived (log entry 1). -/
def execTlbprobe (xd xa : BitVec 5) (s : State) : Out :=
  onHart s fun h =>
    if h.priv = .U then s.illegal h (.tlbprobe xd xa)
    else if s.latency ≠ 0 then s.popLatency
    else
      let va := h.getX xa
      let v := match s.tlbFind (coreOf s.cur) h.role.part (satpAsid h.csr.satp) va with
        | some (e, lvl) => probeWord e lvl va
        | none => 0
      (s.popLatency).modCur (fun k => (k.setX xd v).retire 4)

/-- R378: the core that a message's target names: none where it lies outside the partition. -/
def State.msgTarget (s : State) (part : Nat) (t : DWord) : Option Nat :=
  let phys := s.physicalPos part (bits t.toNat 10 0)
  match s.part? part with
  | none => none
  | some p =>
    if bits t.toNat 63 15 = 0 ∧ phys < 2048 ∧ p.cores.getLsbD phys ∧ p.slots.getLsbD (bits t.toNat 14 11) then some phys else none

/-- R378: `msgs`. -/
def execMsgs (xt xm : BitVec 5) (s : State) : Out :=
  onHart s fun h =>
    let t := h.getX xt
    let a := h.getX xm
    if h.priv = .U then s.illegal h (.msgs xt xm)
    else if s.ordered h then s.raise 31 0
    else match s.msgTarget h.role.part t with
    | none => s.raise 26 t
    | some core =>
      if a.toNat % 64 ≠ 0 then s.raise 6 a
      else s.releasing scP (.msgs xt xm) fun s1 =>
        ((s1.translate h a .load).bind fun gpa t1 => (t1.lineFor h a gpa .load).bind fun _ t2 => .ok gpa t2).done fun gpa t2 =>
          t2.withData (.msgs xt xm) (!t2.inHdc (coreOf s.cur) h.role.part gpa) fun t3 =>
            let t4 := (t3.ready h.role.part gpa).putHdc (coreOf s.cur) h.role.part gpa false
            if 32 ≤ (t4.core core).inbox.length ∨ (t4.core core).inboxSaved then t4
            else
              let m := BitVec.ofNat 512 (natOfBytes (t4.bytesAt h.role.part gpa 64))
              let t5 := t4.modCore core (fun c => { c with
                inbox := c.inbox ++ [⟨bits t.toNat 14 11, coreOf s.cur, slotOf s.cur, m⟩], nrcvd := c.nrcvd + 1 })
              (t5.modCore (coreOf s.cur) (fun c => { c with nsent := c.nsent + 1 })).modCur (fun k => k.retire 4)

/-- R378: `msgr`. -/
def execMsgr (xd xb : BitVec 5) (s : State) : Out :=
  onHart s fun h =>
    let a := h.getX xb
    let core := coreOf s.cur
    if h.priv = .U then s.illegal h (.msgr xd xb)
    else if s.ordered h then s.raise 31 0
    else if a.toNat % 64 ≠ 0 then s.raise 6 a
    else match (s.core core).inbox.find? (fun e => e.slot == slotOf s.cur) with
    | none => s.modCur (fun k => (k.setX xd 0).retire 4)
    | some e =>
      (s.translate h a .store).done fun gpa s1 =>
        let s2 := ((s1.dropL1 core h.role.part gpa).putHdc core h.role.part gpa true).modCore core (fun c =>
          ({ c with inbox := c.inbox.eraseIdx (List.findIdx (fun (o : InboxEntry) => o.slot == slotOf s.cur) c.inbox) }))
        let v := BitVec.ofNat 64 (1 + e.fromPos * 2 ^ 8 + e.fromSlot * 2 ^ 24)
        let s3 := s2.modCur (fun k => (((k.touch (s2.home h.role.part gpa) (s2.isFar h.role.part gpa)).setX xd v).retire 4))
        (s3.acquire core scP).issueWrite
          { hart := s.cur, space := 0, owner := h.role.part, addr := gpa, bytes := bytesOfNat e.data.toNat 64, held := false,
            gva := a }

/-- R26: the length of a word as `retx` counts it; of a word of 80 bits or more the rule gives none: a free value (log entry 141). -/
def State.skipLength (s : State) (w : Word) : BitVec 64 × State :=
  if w.toNat % 4 ≠ 3 then (2, s)
  else if w.toNat % 32 ≠ 31 then (4, s)
  else if w.toNat % 64 = 31 then (6, s)
  else if w.toNat % 128 = 63 then (8, s)
  else (s.free 64, s.drawn)

/-- R384: `retx`. -/
def execRetx (s : State) : Out :=
  onHart s fun h =>
    if h.priv = .U ∨ (h.priv = .S ∧ h.status bitTSR) then s.illegal h .retx
    else ((s.fetchWord h h.csr.sepc).bind fun w s1 =>
      if w.toNat % 128 = 0x5B ∧ bits w.toNat 14 12 = 0 then
        (s1.fetchWord h (h.csr.sepc + 4)).bind fun w2 s2 => .ok (4 + (s2.skipLength w2).1) (s2.skipLength w2).2
      else .ok (s1.skipLength w).1 (s1.skipLength w).2).done fun n s2 =>
        s2.modCur (fun k => (((k.returnS k.csr.sepc).retireTo (k.csr.sepc + n)).hangClear s.now))

end Sys2Proof.Machine
end

