-- ==== Sys2Proof/Machine/Boundary.lean ====
section
/-! DEFINITION. The instruction boundary (R365): asynchronous causes (R363), interrupts (R364), halts (R376, R377),
pre-emption (R367), and the events that take them; the hang detector (R107) and the end of `wfi` (R78). -/

namespace Sys2Proof.Machine

open Sys2Proof

/-- A step of one hart, whichever hart acted before. -/
def State.asHart (s : State) (k : Nat) (f : State → State) : State := { f { s with cur := k } with cur := s.cur }

/-- R70, R73: an interrupt that is pending, enabled in `mie` and not held off by SIE or MIE. -/
def Hart.irqReady (h : Hart) (n : Nat) : Bool :=
  h.mip.getLsbD n && h.csr.mie.getLsbD n
  && (if h.csr.mideleg.getLsbD n then h.priv == .U || (h.priv == .S && h.status bitSIE) else h.priv != .M || h.status bitMIE)

/-- R365: the interrupt that comes before a pre-emption, and those that come after it. -/
def Hart.noticeReady (h : Hart) : Bool := h.irqReady 17

def Hart.otherIrq (h : Hart) : Option Nat := [18, 16, 19].find? h.irqReady

/-- R363: an asynchronous cause waits to be taken. -/
def Hart.causePending (h : Hart) : Bool := !h.run.aq.isEmpty || h.run.aqOvf

/-- R376, R377: a halt is asked for. -/
def Hart.haltPending (h : Hart) : Bool := h.run.amber || h.run.haltReq

/-- R376: what is not the stepped instruction itself leaves a single step still to be made. -/
def State.keepStep (s : State) (h : Hart) : State :=
  s.modCur (fun g => { g with run := { g.run with stepping := h.run.stepping, haltReq := h.run.haltReq } })

/-- R363: the oldest pending asynchronous cause is taken; the queue drained with its overflow bit set gives one cause 27. -/
def State.takeCause (s : State) (k : Nat) : State :=
  s.asHart k fun t =>
    match t.hart? k with
    | none => t
    | some h =>
      match h.run.aq with
      | (c, v) :: rest => ((t.setCur { h with run := { h.run with aq := rest } }).raise c v).keepStep h
      | [] =>
        if h.run.aqOvf then ((t.setCur { h with run := { h.run with aqOvf := false } }).raise 27 0xFFFFFFFFFFFFFFFF).keepStep h else t

/-- R364: an interrupt delivered: its `stval`, and the hart with it no longer pending. -/
def Hart.deliver (h : Hart) (n : Nat) : DWord × Hart :=
  match n with
  | 16 => (h.run.irq16.getD 0, { h with run := { h.run with irq16 := none } })
  | 17 => (h.run.irq17.getD 0, { h with run := { h.run with irq17 := none } })
  | 18 => (h.run.irq18.getD 0, { h with run := { h.run with irq18 := none } })
  | _ =>
    match h.run.iq19 with
    | j :: rest => (j, { h with run := { h.run with iq19 := rest } })
    | [] => (0xFFFFFFFFFFFFFFFF, { h with run := { h.run with iq19Ovf := false } })

/-- R364, R365: an interrupt is taken; a wait that it ends is left as R78, R150, R152, R197, R198 and R319 state. -/
def State.takeIrq (s : State) (k n : Nat) : State :=
  (s.endWait k).asHart k fun t =>
    match t.hart? k with
    | none => t
    | some h => ((t.setCur (h.deliver n).2).interrupt n (h.deliver n).1).keepStep h

/-- A hart is at an instruction boundary: not halted, not waiting, not between the cycles of an operation. -/
def Hart.atBoundary (h : Hart) (now : Nat) : Bool :=
  h.run.wait.isNone && !h.run.halted && h.run.entering.isNone && h.run.second.isNone && decide (h.run.busyUntil ≤ now)

/-- R319, R320: a hart waits for a walk that a host record has stopped. -/
def State.walkHeld (s : State) (k : Nat) : Bool :=
  (s.cluster (clusterOf k)).tscq.any (fun e => e.requesters.contains k
    && s.host.faults.any (fun f => f.walks.contains (clusterOf k, e.id)))

/-- R78, R150, R152, R197, R198, R319: a hart whose wait an interrupt or a pre-emption may end; a wait within a trap entry is part
of it (R366). -/
def State.yielding (s : State) (k : Nat) (h : Hart) : Bool :=
  match h.run.wait with
  | none => false
  | some w => (w.yields || (w == .walk && s.walkHeld k)) && !h.run.halted && h.run.entering.isNone

/-- R363: TAKE_ASYNC_CAUSE. Operand: the hart. -/
def execTakeAsyncCause (s : State) : Out :=
  let k := s.arg.nat 0
  .next (match s.hart? k with
    | none => s
    | some h => if h.causePending && h.atBoundary s.now then s.takeCause k else s)

/-- R365: TAKE_INTERRUPT: the first enabled pending interrupt in the order 17, 18, 16, 19. Operand: the hart. -/
def execTakeInterrupt (s : State) : Out :=
  let k := s.arg.nat 0
  .next (match s.hart? k with
    | none => s
    | some h =>
      if !h.causePending && (h.atBoundary s.now || s.yielding k h) then
        (if h.noticeReady then s.takeIrq k 17
        else match h.otherIrq with
          | some n => s.takeIrq k n
          | none => s)
      else s)

/-- R78: WFI_WAKE: an interrupt enabled in `mie` is pending. Operand: the hart. -/
def execWfiWake (s : State) : Out :=
  let k := s.arg.nat 0
  .next (match s.hart? k with
    | none => s
    | some h => if h.run.wait == some .wfi && h.wakes then s.setHart k (h.unpark s.now) else s)

/-- R107: HANG_DETECT: interrupt 16 becomes pending with the pc of the last backward branch or jump, and the counter is 0.
Operand: the hart. -/
def execHangDetect (s : State) : Out :=
  let k := s.arg.nat 0
  .next (match s.hart? k with
    | none => s
    | some h => if h.hung s.now then s.setHart k (({ h with run := { h.run with irq16 := h.run.lastBack } }).hangClear s.now) else s)

/-- R28: ILLEGAL_INSTRUCTION: a hart issues a word that is no defined instruction: cause 2 at its own address, `tval` its
first 32 bits. Operands: the hart and the word. -/
def execIllegalInstruction (s : State) : Out :=
  let k := s.arg.nat 0
  .next (match s.hart? k with
    | none => s
    | some h => if h.atBoundary s.now then s.asHart k (fun t => t.raise 2 (BitVec.ofNat 64 (s.arg.nat 1 % 2 ^ 32))) else s)

/-- R27, R305, R311, R339, R386: INSTRUCTION_FETCH_FAULT: the fetch at a hart's pc fails. Operands: the hart, the cause and
`tval`; `ok` marks poison. -/
def execInstructionFetchFault (s : State) : Out :=
  let k := s.arg.nat 0
  .next (match s.hart? k with
    | none => s
    | some h => if h.atBoundary s.now then s.asHart k (fun t => t.raiseWith (s.arg.nat 1) (BitVec.ofNat 64 (s.arg.nat 2)) s.arg.ok) else s)

end Sys2Proof.Machine
end

