-- ==== Sys2Proof/Machine/LaneInt.lean ====
section
/-! DEFINITION. Group 000, lane integer (R238 to R243), in its long, immediate and short forms. -/

namespace Sys2Proof.Machine

open Sys2Proof

/-- R238: the written value of an exact result under a saturation code, and whether the clamp changed it. -/
def clampInt (sat w : Nat) (e : Int) : Nat × FlagSet :=
  let lo : Int := if sat = 1 then -(2 ^ (w - 1)) else 0
  let hi : Int := if sat = 1 then 2 ^ (w - 1) - 1 else 2 ^ w - 1
  if sat = 0 then ((e % 2 ^ w).toNat, noFlags)
  else
    let c := max lo (min hi e)
    ((c % 2 ^ w).toNat, if c = e then noFlags else flagSAT)

/-- R239: what one element's operation gives: the exact result from the patterns of a, b and c. -/
abbrev IntFn := Ty → Nat → Nat → Nat → Int

/-- R238: one lane: element by element. -/
def intLane (f : IntFn) (honours : Bool) (sat : Nat) (t : Ty) (a b c : Nat) : Nat × FlagSet :=
  let es := (Ty.elems t).map (fun k =>
    clampInt (if honours then sat else 0) (Ty.width t) (f t (elemOf t a k) (elemOf t b k) (elemOf t c k)))
  (joinElems t (es.map (·.1)), (es.map (·.2)).foldl FlagSet.or noFlags)

/-- R40: a three-operand form. -/
def int3 (f : IntFn) (hon : Bool) (x : Lane3) (s : State) : Out :=
  laneOp 8 x.ty x.guard x.vd.toNat (fun h l => intLane f hon h.satCode x.ty (h.laneVal x.ty x.va.toNat l) (h.laneVal x.ty x.vb.toNat l) 0) s

/-- R41: an immediate form. -/
def int3I (f : IntFn) (hon : Bool) (x : Lane3I) (s : State) : Out :=
  laneOp 8 x.ty x.guard x.vd.toNat (fun h l => intLane f hon h.satCode x.ty (h.laneVal x.ty x.va.toNat l) (immVal x.ty x.imm) 0) s

/-- R48: a short form. -/
def int3S (f : IntFn) (hon : Bool) (x : Lane3S) (s : State) : Out :=
  laneOp 4 x.ty unguarded x.vd.toNat (fun h l => intLane f hon h.satCode x.ty (h.laneVal x.ty x.va.toNat l) (h.laneVal x.ty x.vb.toNat l) 0) s

/-- A one-source form. -/
def int2 (f : IntFn) (hon : Bool) (x : Lane2) (s : State) : Out :=
  laneOp 8 x.ty x.guard x.vd.toNat (fun h l => intLane f hon h.satCode x.ty (h.laneVal x.ty x.va.toNat l) 0 0) s

/-- A one-source short form. -/
def int2S (f : IntFn) (hon : Bool) (x : Lane2S) (s : State) : Out :=
  laneOp 4 x.ty unguarded x.vd.toNat (fun h l => intLane f hon h.satCode x.ty (h.laneVal x.ty x.va.toNat l) 0 0) s

/-- R239: the shift count: the low bits of the element's pattern. -/
def shiftCount (t : Ty) (b : Nat) : Nat := b % Ty.width t

/-- R239: leading zero bits of a pattern of w bits. -/
def leadZeros (w v : Nat) : Nat := if v = 0 then w else w - 1 - Nat.log2 v

/-- R239: one bits of a pattern. -/
def onesOf (w v : Nat) : Nat := ((upTo w).filter (fun i => v.testBit i)).length

/-- R239: bit j of a pattern moved to bit w - 1 - j. -/
def reverseBits (w v : Nat) : Nat := (upTo w).foldl (fun a j => a + (if v.testBit j then 2 ^ (w - 1 - j) else 0)) 0

/-- R239: a + b. -/
def intAddFn : IntFn := fun t a b _ => asInt t a + asInt t b

/-- R239. -/
def execLadd (f : Lane3) (s : State) : Out := int3 intAddFn true f s

/-- R239, R41. -/
def execLaddImm (f : Lane3I) (s : State) : Out := int3I intAddFn true f s

/-- R239, R48. -/
def execLaddS32 (f : Lane3S) (s : State) : Out := int3S intAddFn true f s

/-- R239: a - b. -/
def intSubFn : IntFn := fun t a b _ => asInt t a - asInt t b

/-- R239. -/
def execLsub (f : Lane3) (s : State) : Out := int3 intSubFn true f s

/-- R239, R41. -/
def execLsubImm (f : Lane3I) (s : State) : Out := int3I intSubFn true f s

/-- R239, R48. -/
def execLsubS32 (f : Lane3S) (s : State) : Out := int3S intSubFn true f s

/-- R239: a × b. -/
def intMulFn : IntFn := fun t a b _ => asInt t a * asInt t b

/-- R239. -/
def execLmul (f : Lane3) (s : State) : Out := int3 intMulFn true f s

/-- R239, R41. -/
def execLmulImm (f : Lane3I) (s : State) : Out := int3I intMulFn true f s

/-- R239, R48. -/
def execLmulS32 (f : Lane3S) (s : State) : Out := int3S intMulFn true f s

/-- R239: the upper half of the product. -/
def intMulhFn : IntFn := fun t a b _ => asInt t a * asInt t b / 2 ^ Ty.width t

/-- R239. -/
def execLmulh (f : Lane3) (s : State) : Out := int3 intMulhFn false f s

/-- R239, R41. -/
def execLmulhImm (f : Lane3I) (s : State) : Out := int3I intMulhFn false f s

/-- R239, R48. -/
def execLmulhS32 (f : Lane3S) (s : State) : Out := int3S intMulhFn false f s

/-- R239: a × b + c. -/
def intMadFn : IntFn := fun t a b c => asInt t a * asInt t b + asInt t c

/-- R239. -/
def execLmad (f : Lane4) (s : State) : Out :=
  laneOp 8 f.ty f.guard f.vd.toNat (fun h l => intLane intMadFn true h.satCode f.ty (h.laneVal f.ty f.va.toNat l)
    (h.laneVal f.ty f.vb.toNat l) (h.laneVal f.ty f.vc.toNat l)) s

/-- R239: `lmad.t vd, va, imm, vc`. -/
def execLmadImm (f : Lane4I) (s : State) : Out :=
  laneOp 8 f.ty f.guard f.vd.toNat (fun h l => intLane intMadFn true h.satCode f.ty (h.laneVal f.ty f.va.toNat l)
    (immVal f.ty f.imm) (h.laneVal f.ty f.vc.toNat l)) s

/-- R239: the smaller. -/
def intMinFn : IntFn := fun t a b _ => min (asInt t a) (asInt t b)

/-- R239. -/
def execLmin (f : Lane3) (s : State) : Out := int3 intMinFn false f s

/-- R239, R41. -/
def execLminImm (f : Lane3I) (s : State) : Out := int3I intMinFn false f s

/-- R239, R48. -/
def execLminS32 (f : Lane3S) (s : State) : Out := int3S intMinFn false f s

/-- R239: the larger. -/
def intMaxFn : IntFn := fun t a b _ => max (asInt t a) (asInt t b)

/-- R239. -/
def execLmax (f : Lane3) (s : State) : Out := int3 intMaxFn false f s

/-- R239, R41. -/
def execLmaxImm (f : Lane3I) (s : State) : Out := int3I intMaxFn false f s

/-- R239, R48. -/
def execLmaxS32 (f : Lane3S) (s : State) : Out := int3S intMaxFn false f s

/-- R239: the absolute value. -/
def intAbsFn : IntFn := fun t a _ _ => ((asInt t a).natAbs : Int)

/-- R239. -/
def execLabs (f : Lane2) (s : State) : Out := int2 intAbsFn true f s

/-- R239, R48. -/
def execLabsS32 (f : Lane2S) (s : State) : Out := int2S intAbsFn true f s

/-- R239: and. -/
def intAndFn : IntFn := fun _ a b _ => ((a &&& b : Nat) : Int)

/-- R239. -/
def execLand (f : Lane3) (s : State) : Out := int3 intAndFn false f s

/-- R239, R41. -/
def execLandImm (f : Lane3I) (s : State) : Out := int3I intAndFn false f s

/-- R239, R48. -/
def execLandS32 (f : Lane3S) (s : State) : Out := int3S intAndFn false f s

/-- R239: or. -/
def intOrFn : IntFn := fun _ a b _ => ((a ||| b : Nat) : Int)

/-- R239. -/
def execLor (f : Lane3) (s : State) : Out := int3 intOrFn false f s

/-- R239, R41. -/
def execLorImm (f : Lane3I) (s : State) : Out := int3I intOrFn false f s

/-- R239, R48. -/
def execLorS32 (f : Lane3S) (s : State) : Out := int3S intOrFn false f s

/-- R239: exclusive or. -/
def intXorFn : IntFn := fun _ a b _ => ((a ^^^ b : Nat) : Int)

/-- R239. -/
def execLxor (f : Lane3) (s : State) : Out := int3 intXorFn false f s

/-- R239, R41. -/
def execLxorImm (f : Lane3I) (s : State) : Out := int3I intXorFn false f s

/-- R239, R48. -/
def execLxorS32 (f : Lane3S) (s : State) : Out := int3S intXorFn false f s

/-- R239: a and not b. -/
def intAndnFn : IntFn := fun t a b _ => ((a &&& (2 ^ Ty.width t - 1 - b) : Nat) : Int)

/-- R239. -/
def execLandn (f : Lane3) (s : State) : Out := int3 intAndnFn false f s

/-- R239, R41. -/
def execLandnImm (f : Lane3I) (s : State) : Out := int3I intAndnFn false f s

/-- R239, R48. -/
def execLandnS32 (f : Lane3S) (s : State) : Out := int3S intAndnFn false f s

/-- R239: a × 2^s. -/
def intShlFn : IntFn := fun t a b _ => asInt t a * 2 ^ shiftCount t b

/-- R239. -/
def execLshl (f : Lane3) (s : State) : Out := int3 intShlFn true f s

/-- R239, R41. -/
def execLshlImm (f : Lane3I) (s : State) : Out := int3I intShlFn true f s

/-- R239, R48. -/
def execLshlS32 (f : Lane3S) (s : State) : Out := int3S intShlFn true f s

/-- R239: the unsigned pattern shifted right. -/
def intShrFn : IntFn := fun t a b _ => ((a / 2 ^ shiftCount t b : Nat) : Int)

/-- R239. -/
def execLshr (f : Lane3) (s : State) : Out := int3 intShrFn false f s

/-- R239, R41. -/
def execLshrImm (f : Lane3I) (s : State) : Out := int3I intShrFn false f s

/-- R239, R48. -/
def execLshrS32 (f : Lane3S) (s : State) : Out := int3S intShrFn false f s

/-- R239: the signed pattern shifted right. -/
def intSraFn : IntFn := fun t a b _ => asSigned (Ty.width t) a / 2 ^ shiftCount t b

/-- R239. -/
def execLsra (f : Lane3) (s : State) : Out := int3 intSraFn false f s

/-- R239, R41. -/
def execLsraImm (f : Lane3I) (s : State) : Out := int3I intSraFn false f s

/-- R239, R48. -/
def execLsraS32 (f : Lane3S) (s : State) : Out := int3S intSraFn false f s

/-- R239: the pattern rotated left. -/
def intRotFn : IntFn := fun t a b _ => ((a * 2 ^ shiftCount t b % 2 ^ Ty.width t + a / 2 ^ (Ty.width t - shiftCount t b) : Nat) : Int)

/-- R239. -/
def execLrot (f : Lane3) (s : State) : Out := int3 intRotFn false f s

/-- R239, R41. -/
def execLrotImm (f : Lane3I) (s : State) : Out := int3I intRotFn false f s

/-- R239, R48. -/
def execLrotS32 (f : Lane3S) (s : State) : Out := int3S intRotFn false f s

/-- R239: leading zero bits. -/
def intClzFn : IntFn := fun t a _ _ => (leadZeros (Ty.width t) a : Int)

/-- R239. -/
def execLclz (f : Lane2) (s : State) : Out := int2 intClzFn false f s

/-- R239, R48. -/
def execLclzS32 (f : Lane2S) (s : State) : Out := int2S intClzFn false f s

/-- R239: one bits. -/
def intPopcFn : IntFn := fun t a _ _ => (onesOf (Ty.width t) a : Int)

/-- R239. -/
def execLpopc (f : Lane2) (s : State) : Out := int2 intPopcFn false f s

/-- R239, R48. -/
def execLpopcS32 (f : Lane2S) (s : State) : Out := int2S intPopcFn false f s

/-- R239: bits reversed. -/
def intBrevFn : IntFn := fun t a _ _ => (reverseBits (Ty.width t) a : Int)

/-- R239. -/
def execLbrev (f : Lane2) (s : State) : Out := int2 intBrevFn false f s

/-- R239, R48. -/
def execLbrevS32 (f : Lane2S) (s : State) : Out := int2S intBrevFn false f s

/-- R240: `lbfx`. -/
def execLbfx (f : Lane2) (pos len1 : BitVec 5) (sx : Bool) (s : State) : Out :=
  laneOp 8 .i32 f.guard f.vd.toNat (fun h l =>
    let n := len1.toNat + 1
    let v := (h.getV f.va.toNat l).toNat / 2 ^ pos.toNat % 2 ^ n
    ((if sx then (asSigned n v % 2 ^ 32).toNat else v), noFlags)) s

/-- R240: `lbfi`. -/
def execLbfi (f : Lane3) (pos len1 : BitVec 5) (s : State) : Out :=
  laneOp 8 .i32 f.guard f.vd.toNat (fun h l =>
    let n := len1.toNat + 1
    let a := (h.getV f.va.toNat l).toNat
    let b := (h.getV f.vb.toNat l).toNat
    (a - a / 2 ^ pos.toNat % 2 ^ n * 2 ^ pos.toNat + b % 2 ^ n * 2 ^ pos.toNat, noFlags)) s

/-- R241: the selecting predicate of a lane. -/
def selects (h : Hart) (k : BitVec 4) (neg : Bool) (l : Nat) : Bool := (h.getP k.toNat).getLsbD l != neg

/-- R241: `lsel`. -/
def execLsel (f : Lane3) (k : BitVec 4) (neg : Bool) (s : State) : Out :=
  guardF64 (.lsel f k neg) f.ty s (laneOp 8 f.ty f.guard f.vd.toNat (fun h l =>
    (if selects h k neg l then h.laneVal f.ty f.va.toNat l else h.laneVal f.ty f.vb.toNat l, noFlags)) s)

/-- R241: `lsel` with an immediate. -/
def execLselImm (f : Lane3I) (k : BitVec 4) (neg : Bool) (s : State) : Out :=
  guardF64 (.lselImm f k neg) f.ty s (laneOp 8 f.ty f.guard f.vd.toNat (fun h l =>
    (if selects h k neg l then h.laneVal f.ty f.va.toNat l else immVal f.ty f.imm, noFlags)) s)

/-- R242: a condition on two integers. -/
def intCond (c : BitVec 3) (a b : Int) : Bool :=
  match c.toNat with
  | 0 => a == b
  | 1 => a != b
  | 2 => decide (a < b)
  | 3 => decide (a ≤ b)
  | 4 => decide (b < a)
  | _ => decide (b ≤ a)

/-- R242: `lcmp`. -/
def execLcmp (f : Lane3) (cond : BitVec 3) (s : State) : Out :=
  predOp 8 f.guard f.vd.toNat (fun h l =>
    (intCond cond (asInt f.ty (h.getV f.va.toNat l).toNat) (asInt f.ty (h.getV f.vb.toNat l).toNat), noFlags)) s

/-- R242: `lcmp` with an immediate. -/
def execLcmpImm (f : Lane3I) (cond : BitVec 3) (s : State) : Out :=
  predOp 8 f.guard f.vd.toNat (fun h l =>
    (intCond cond (asInt f.ty (h.getV f.va.toNat l).toNat) (asInt f.ty (immVal f.ty f.imm)), noFlags)) s

/-- R243: `laddc`. -/
def execLaddc (f : Lane3) (pci pco : BitVec 4) (used : Bool) (s : State) : Out :=
  onHart s fun h =>
    let lanes := h.activeLanes f.guard
    let h' := lanes.foldl (fun k l =>
      let cin := if used then b2n ((h.getP pci.toNat).getLsbD l) else 0
      let e := (h.getV f.va.toNat l).toNat + (h.getV f.vb.toNat l).toNat + cin
      (k.setV f.vd.toNat l (BitVec.ofNat 32 e)).setP pco.toNat (setMask (k.getP pco.toNat) l (e.testBit 32))) h
    s.laneDone h h' [f.vd.toNat] (!lanes.isEmpty) 8

end Sys2Proof.Machine
end

