-- ==== Sys2Proof/Machine/Move.lean ====
section
/-! DEFINITION. Group 010: moves, shuffles, collectives, predicates and the exec mask (R255 to R267). -/

namespace Sys2Proof.Machine

open Sys2Proof

/-- R255. -/
def execLmov (f : Lane2) (s : State) : Out :=
  guardF64 (.lmov f) f.ty s (laneOp 8 f.ty f.guard f.vd.toNat (fun h l => (h.laneVal f.ty f.va.toNat l, noFlags)) s)

/-- R255. -/
def execLmovi (vd : BitVec 6) (imm : BitVec 16) (ty : Ty) (guard : Guard) (s : State) : Out :=
  guardF64 (.lmovi vd imm ty guard) ty s (laneOp 8 ty guard vd.toNat (fun _ _ => (immVal ty imm, noFlags)) s)

/-- R256: the va field names the x register. -/
def execLbcast (f : Lane2) (s : State) : Out :=
  guardF64 (.lbcast f) f.ty s (laneOp 8 f.ty f.guard f.vd.toNat (fun h _ =>
    let x := (h.getX (xOf f.va)).toNat
    (if f.ty = .f64 then x else x % 2 ^ 32, noFlags)) s)

/-- R257: what `lextr` writes. -/
def extracted (h : Hart) (t : Ty) (va n : Nat) : DWord :=
  match t with
  | .i32 => sext64 (h.getV va n)
  | .f64 => h.getPair va n
  | _ => zext64 (h.getV va n)

/-- R257. -/
def execLextr (xd va : BitVec 6) (ty : Ty) (n : BitVec 5) (s : State) : Out :=
  guardF64 (.lextr xd va ty n) ty s (onHart s fun h =>
    s.retire (h.setX (xOf xd) (extracted h ty va.toNat n.toNat)) 8)

/-- R257. -/
def execLins (vd xs : BitVec 6) (ty : Ty) (n : BitVec 5) (s : State) : Out :=
  guardF64 (.lins vd xs ty n) ty s (onHart s fun h =>
    s.laneDone h (h.setLaneVal ty vd.toNat n.toNat (h.getX (xOf xs)).toNat) (destRegs ty vd.toNat) true 8)

/-- R258: the source lane of a lane. -/
def shuffleSrc (kind c idx l : Nat) : Nat :=
  match kind with
  | 0 => idx % 32
  | 1 => l ^^^ c
  | 2 => if c ≤ l then l - c else l
  | 3 => if l + c ≤ 31 then l + c else l
  | _ => (l + c) % 32

/-- R258. -/
def execLshfl (f : Lane3) (kind : BitVec 3) (c : BitVec 5) (s : State) : Out :=
  guardF64 (.lshfl f kind c) f.ty s (laneOp 8 f.ty f.guard f.vd.toNat (fun h l =>
    (h.laneVal f.ty f.va.toNat (shuffleSrc kind.toNat c.toNat (h.getV f.vb.toNat l).toNat l), noFlags)) s)

/-- R38: the float types. -/
def Ty.isFloat : Ty → Bool
  | .f32 | .f16x2 | .bf16x2 | .f64 => true
  | _ => false

/-- R259: the identity of one element. -/
def identityElem (op : Nat) (t : Ty) : Nat :=
  let w := Ty.width t
  if Ty.isFloat t then
    (if op = 0 then 2 ^ (w - 1) else (floatFmt (fmtOfTy t)).canonical)
  else
    match op with
    | 1 => if t = .n32 then 2 ^ w - 1 else 2 ^ (w - 1) - 1
    | 2 => if t = .n32 then 0 else 2 ^ (w - 1)
    | 3 => 2 ^ w - 1
    | _ => 0

/-- R259: the identity. -/
def identityOf (op : Nat) (t : Ty) : Nat := joinElems t ((Ty.elems t).map (fun _ => identityElem op t))

/-- R259: what a node of integers gives. -/
def intNode (op : Nat) (t : Ty) (a b : Nat) : Nat :=
  let w := Ty.width t
  match op with
  | 0 => (a + b) % 2 ^ w
  | 1 => if asInt t a ≤ asInt t b then a else b
  | 2 => if asInt t a ≤ asInt t b then b else a
  | 3 => a &&& b
  | 4 => a ||| b
  | _ => a ^^^ b

/-- A reduction under way: the flags raised and the stochastic state. -/
structure Reduction where
  flags : FlagSet
  sr : Word
  deriving DecidableEq, Repr

/-- R259, R260: under SR every float add node steps the state once for each element, also where the sum is no number. -/
def stepNode (t : Ty) (md : FModes) (sr : Word) (a b : Nat) : Nat × FlagSet × Word :=
  let F := floatFmt (fmtOfTy t)
  let r := (Ty.elems t).foldl (fun (acc : List Nat × FlagSet × Word) k =>
    let v := (F.value md.fsi (elemOf t a k)).add md.rm (F.value md.fsi (elemOf t b k))
    let e := F.encode md acc.2.2 v.1
    (acc.1 ++ [e.pat], (acc.2.1.or v.2).or e.flags, if md.rm = .sr then srStep acc.2.2 else acc.2.2)) ([], noFlags, sr)
  (joinElems t r.1, r.2)

/-- R259: one node: its two children combined element by element. -/
def combineNode (op : Nat) (t : Ty) (rm : Rm) (r : Reduction) (a b : Nat) : Nat × Reduction :=
  if Ty.isFloat t ∧ op = 0 then
    let v := stepNode t ⟨rm, 0, false, false⟩ r.sr a b
    (v.1, ⟨r.flags.or v.2.1, v.2.2⟩)
  else if Ty.isFloat t then
    let v := pickLane (op == 2) false t a b
    (v.1, ⟨r.flags.or v.2, r.sr⟩)
  else (joinElems t ((Ty.elems t).map (fun k => intNode op t (elemOf t a k) (elemOf t b k))), r)

/-- R227: one level of the tree from the level below. -/
def treeLevel (comb : Reduction → Nat → Nat → Nat × Reduction) : List Nat → Reduction → List Nat × Reduction
  | a :: b :: rest, r =>
    let x := comb r a b
    let y := treeLevel comb rest x.2
    (x.1 :: y.1, y.2)
  | l, r => (l, r)

/-- R227: the levels of the tree, widths 1, 2, 4, 8, 16 and 32. -/
def treeLevels (comb : Reduction → Nat → Nat → Nat × Reduction) : Nat → List Nat → Reduction → List (List Nat) × Reduction
  | 0, l, r => ([l], r)
  | n + 1, l, r =>
    let x := treeLevel comb l r
    let y := treeLevels comb n x.1 x.2
    (l :: y.1, y.2)

/-- R260: the aligned nodes whose union is [0, n), in ascending position: (level, index). -/
def prefixBlocks (n : Nat) : List (Nat × Nat) :=
  ([5, 4, 3, 2, 1, 0].foldl (fun (acc : List (Nat × Nat) × Nat) k =>
    if n.testBit k then (acc.1 ++ [(k, acc.2 / 2 ^ k)], acc.2 + 2 ^ k) else acc) ([], 0)).1

/-- R260: the combination of the nodes of [0, n), from left to right; the identity for n = 0. -/
def prefixOf (comb : Reduction → Nat → Nat → Nat × Reduction) (levels : List (List Nat)) (ident n : Nat) (r : Reduction) :
    Nat × Reduction :=
  match (prefixBlocks n).map (fun p => (levels.getD p.1 []).getD p.2 ident) with
  | [] => (ident, r)
  | b :: bs => bs.foldl (fun (acc : Nat × Reduction) x => comb acc.2 acc.1 x) (b, r)

/-- R259: NV for each signalling leaf. -/
def leafFlags (t : Ty) (v : Nat) : FlagSet :=
  if Ty.isFloat t then
    { nv := (Ty.elems t).any (fun k => ((floatFmt (fmtOfTy t)).value false (elemOf t v k)).isSig) }
  else noFlags

/-- R259, R260: what each active lane receives, with the flags and the last stochastic state. -/
def collectiveValues (h : Hart) (op : Nat) (t : Ty) (rm : Rm) (lanes : List Nat) (va : Nat) (pre : Option Bool) :
    List (Nat × Nat) × Reduction :=
  let ident := identityOf op t
  let comb := combineNode op t rm
  let leaves := allLanes.map (fun l => if lanes.contains l then h.laneVal t va l else ident)
  let fl := lanes.foldl (fun a l => a.or (leafFlags t (h.laneVal t va l))) noFlags
  let tree := treeLevels comb 5 leaves ⟨fl, h.srOf (lanes.headD 0)⟩
  match pre with
  | none => (lanes.map (fun l => (l, (tree.1.getD 5 []).getD 0 ident)), tree.2)
  | some excl => lanes.foldl (fun (acc : List (Nat × Nat) × Reduction) l =>
      let x := prefixOf comb tree.1 ident (if excl then l else l + 1) acc.2
      (acc.1 ++ [(l, x.1)], x.2)) ([], tree.2)

/-- R259, R260: a reduction, or a scan where `pre` says whether it is exclusive. -/
def collective (i : Instr) (f : Lane2) (op : Nat) (pre : Option Bool) (s : State) : Out :=
  roundChecked i (decide (f.ty = .f64)) (Ty.isFloat f.ty && op == 0) s fun h rm =>
    let lanes := h.activeLanes f.guard
    let r := collectiveValues h op f.ty rm lanes f.va.toNat pre
    let h1 := r.1.foldl (fun k e => (k.setLaneVal f.ty f.vd.toNat e.1 e.2).raiseFlags e.1 r.2.flags) h
    let h2 := if lanes.isEmpty then h1 else h1.setSr (lanes.headD 0) r.2.sr
    .next (s.laneDone h h2 (destRegs f.ty f.vd.toNat) (!lanes.isEmpty) 8)

/-- R259. -/
def execLred (f : Lane2) (op : BitVec 3) (s : State) : Out := collective (.lred f op) f op.toNat none s

/-- R260. -/
def execLscan (f : Lane2) (op : BitVec 3) (excl : Bool) (s : State) : Out :=
  collective (.lscan f op excl) f op.toNat (some excl) s

/-- R261. -/
def execLballot (xd pa : BitVec 6) (s : State) : Out :=
  onHart s fun h => s.retire (h.setX (xOf xd) (zext64 (h.lanes.em &&& h.getP pa.toNat))) 8

/-- R33, R262: a special lane source of a lane. -/
def specialSource (h : Hart) (src l : Nat) : Nat :=
  match src with
  | 0 => l
  | 1 => (h.lanes.item.getD l 0).toNat % 2 ^ 32
  | 2 => (h.lanes.item.getD l 0).toNat / 2 ^ 32
  | 3 => (h.lanes.gen.getD l 0).toNat
  | 4 => b2n (h.lanes.fresh.getLsbD l)
  | _ => (h.lanes.cohort.getD l 0).toNat

/-- R262. -/
def execLgets (vd : BitVec 6) (guard : Guard) (src : BitVec 3) (s : State) : Out :=
  laneOp 8 .i32 guard vd.toNat (fun h l => (specialSource h src.toNat l, noFlags)) s

/-- R263: the block of registers from `vd` after a transposition of the block from `va`. -/
def Hart.transposed (h : Hart) (vd va : Nat) : Hart :=
  let block := ((upTo 1024).map (fun e => (vd * 32 + e, h.getV (va + e % 32) (e / 32)))).filter (fun e => e.2 != 0)
  let below := Map.keep h.lanes.v (fun k _ => decide (k < vd * 32))
  let above := Map.keep h.lanes.v (fun k _ => decide (vd * 32 + 1024 ≤ k))
  { h with lanes := { h.lanes with v := below ++ block ++ above } }

/-- R263, R235. -/
def execLtrns (vd va : BitVec 6) (s : State) : Out :=
  onHart s fun h =>
    if s.pfmask h 7 then s.masked h (.ltrns vd va)
    else s.laneDone h (h.transposed vd.toNat va.toNat) ((upTo 32).map (fun j => vd.toNat + j)) true 8

/-- R264. -/
def execPlog (pd pa pb : BitVec 6) (guard : Guard) (tt : BitVec 4) (s : State) : Out :=
  predOp 8 guard pd.toNat (fun h l =>
    (tt.getLsbD (2 * b2n ((h.getP pa.toNat).getLsbD l) + b2n ((h.getP pb.toNat).getLsbD l)), noFlags)) s

/-- R265: form 0. -/
def execPmovPred (pd pa : BitVec 6) (guard : Guard) (s : State) : Out :=
  predOp 8 guard pd.toNat (fun h l => ((h.getP pa.toNat).getLsbD l, noFlags)) s

/-- R265: form 1. -/
def execPmovFromX (pd xs : BitVec 6) (guard : Guard) (s : State) : Out :=
  predOp 8 guard pd.toNat (fun h l => ((h.getX (xOf xs)).getLsbD l, noFlags)) s

/-- R265: form 2. -/
def execPmovToX (xd pa : BitVec 6) (s : State) : Out :=
  onHart s fun h => s.retire (h.setX (xOf xd) (zext64 (h.getP pa.toNat))) 8

/-- R266: the effect of a write of the CSR `em`. -/
def execEmset (xs : BitVec 6) (s : State) : Out :=
  onHart s fun h => s.retire (h.csrSet 0x800 (h.getX (xOf xs)) s.now) 8

/-- R266. -/
def execEmget (xd : BitVec 6) (s : State) : Out :=
  onHart s fun h => s.retire (h.setX (xOf xd) (zext64 h.lanes.em)) 8

/-- R267. -/
def execEmand (xd pa : BitVec 6) (neg : Bool) (s : State) : Out :=
  onHart s fun h =>
    let p := h.getP pa.toNat
    let h1 := { h with lanes := { h.lanes with em := h.lanes.em &&& (if neg then ~~~p else p) } }
    s.retire (h1.setX (xOf xd) (zext64 h.lanes.em)) 8

end Sys2Proof.Machine
end

