-- ==== Sys2Proof/Machine/Px.lean ====
section
/-! DEFINITION. PX and its pair (R51 to R53). -/

namespace Sys2Proof.Machine

open Sys2Proof

/-- R52: a prefixable instruction executed under the PX of its pair; no other follows a PX. -/
def execPrefixed (i : Instr) (s : State) : Out :=
  match i with
  | .ladd f => execLadd f s
  | .laddImm f => execLaddImm f s
  | .laddS32 f => execLaddS32 f s
  | .lsub f => execLsub f s
  | .lsubImm f => execLsubImm f s
  | .lsubS32 f => execLsubS32 f s
  | .lmul f => execLmul f s
  | .lmulImm f => execLmulImm f s
  | .lmulS32 f => execLmulS32 f s
  | .lmulh f => execLmulh f s
  | .lmulhImm f => execLmulhImm f s
  | .lmulhS32 f => execLmulhS32 f s
  | .lmad f => execLmad f s
  | .lmadImm f => execLmadImm f s
  | .lmin f => execLmin f s
  | .lminImm f => execLminImm f s
  | .lminS32 f => execLminS32 f s
  | .lmax f => execLmax f s
  | .lmaxImm f => execLmaxImm f s
  | .lmaxS32 f => execLmaxS32 f s
  | .labs f => execLabs f s
  | .labsS32 f => execLabsS32 f s
  | .land f => execLand f s
  | .landImm f => execLandImm f s
  | .landS32 f => execLandS32 f s
  | .lor f => execLor f s
  | .lorImm f => execLorImm f s
  | .lorS32 f => execLorS32 f s
  | .lxor f => execLxor f s
  | .lxorImm f => execLxorImm f s
  | .lxorS32 f => execLxorS32 f s
  | .landn f => execLandn f s
  | .landnImm f => execLandnImm f s
  | .landnS32 f => execLandnS32 f s
  | .lshl f => execLshl f s
  | .lshlImm f => execLshlImm f s
  | .lshlS32 f => execLshlS32 f s
  | .lshr f => execLshr f s
  | .lshrImm f => execLshrImm f s
  | .lshrS32 f => execLshrS32 f s
  | .lsra f => execLsra f s
  | .lsraImm f => execLsraImm f s
  | .lsraS32 f => execLsraS32 f s
  | .lrot f => execLrot f s
  | .lrotImm f => execLrotImm f s
  | .lrotS32 f => execLrotS32 f s
  | .lclz f => execLclz f s
  | .lclzS32 f => execLclzS32 f s
  | .lpopc f => execLpopc f s
  | .lpopcS32 f => execLpopcS32 f s
  | .lbrev f => execLbrev f s
  | .lbrevS32 f => execLbrevS32 f s
  | .lbfx f pos len1 sx => execLbfx f pos len1 sx s
  | .lbfi f pos len1 => execLbfi f pos len1 s
  | .lsel f k neg => execLsel f k neg s
  | .lselImm f k neg => execLselImm f k neg s
  | .lcmp f cond => execLcmp f cond s
  | .lcmpImm f cond => execLcmpImm f cond s
  | .laddc f pci pco used => execLaddc f pci pco used s
  | .lfadd f => execLfadd f s
  | .lfaddImm f => execLfaddImm f s
  | .lfaddS32 f => execLfaddS32 f s
  | .lfsub f => execLfsub f s
  | .lfsubImm f => execLfsubImm f s
  | .lfsubS32 f => execLfsubS32 f s
  | .lfmul f => execLfmul f s
  | .lfmulImm f => execLfmulImm f s
  | .lfmulS32 f => execLfmulS32 f s
  | .lfma f => execLfma f s
  | .lfmaImm f => execLfmaImm f s
  | .lfmin f => execLfmin f s
  | .lfminImm f => execLfminImm f s
  | .lfminS32 f => execLfminS32 f s
  | .lfmax f => execLfmax f s
  | .lfmaxImm f => execLfmaxImm f s
  | .lfmaxS32 f => execLfmaxS32 f s
  | .lfsgn f kind => execLfsgn f kind s
  | .lfrcp f => execLfrcp f s
  | .lfrcpS32 f => execLfrcpS32 f s
  | .lfrsq f => execLfrsq f s
  | .lfrsqS32 f => execLfrsqS32 f s
  | .lfsqrt f => execLfsqrt f s
  | .lfsqrtS32 f => execLfsqrtS32 f s
  | .lfdiv f => execLfdiv f s
  | .lfdivImm f => execLfdivImm f s
  | .lfdivS32 f => execLfdivS32 f s
  | .lfexp2 f => execLfexp2 f s
  | .lfexp2S32 f => execLfexp2S32 f s
  | .lflog2 f => execLflog2 f s
  | .lflog2S32 f => execLflog2S32 f s
  | .lfcmp f cond => execLfcmp f cond s
  | .lfcmpImm f cond => execLfcmpImm f cond s
  | .lfclass f mask => execLfclass f mask s
  | .lcvt f dst src bs sel => execLcvt f dst src bs sel s
  | .lpack f dst => execLpack f dst s
  | .lunpk f src k => execLunpk f src k s
  | .lmov f => execLmov f s
  | .lmovi vd imm ty guard => execLmovi vd imm ty guard s
  | .lbcast f => execLbcast f s
  | .lextr xd va ty n => execLextr xd va ty n s
  | .lins vd xs ty n => execLins vd xs ty n s
  | .lshfl f kind c => execLshfl f kind c s
  | .lred f op => execLred f op s
  | .lscan f op excl => execLscan f op excl s
  | .lballot xd pa => execLballot xd pa s
  | .lgets vd guard src => execLgets vd guard src s
  | .ltrns vd va => execLtrns vd va s
  | .plog pd pa pb guard tt => execPlog pd pa pb guard tt s
  | .pmovPred pd pa guard => execPmovPred pd pa guard s
  | .pmovFromX pd xs guard => execPmovFromX pd xs guard s
  | .pmovToX xd pa => execPmovToX xd pa s
  | .emset xs => execEmset xs s
  | .emget xd => execEmget xd s
  | .emand xd pa neg => execEmand xd pa neg s
  | _ => onHart s fun h => s.raise 24 (h.firstWord i)

/-- R375: the guard of a lane instruction: its lanes count for a comparator; a scalar instruction counts with all 32. -/
def Instr.guardOf (i : Instr) : Option Guard :=
  match i with
  | .ladd f => some f.guard
  | .laddImm f => some f.guard
  | .laddS32 _ => some unguarded
  | .lsub f => some f.guard
  | .lsubImm f => some f.guard
  | .lsubS32 _ => some unguarded
  | .lmul f => some f.guard
  | .lmulImm f => some f.guard
  | .lmulS32 _ => some unguarded
  | .lmulh f => some f.guard
  | .lmulhImm f => some f.guard
  | .lmulhS32 _ => some unguarded
  | .lmad f => some f.guard
  | .lmadImm f => some f.guard
  | .lmin f => some f.guard
  | .lminImm f => some f.guard
  | .lminS32 _ => some unguarded
  | .lmax f => some f.guard
  | .lmaxImm f => some f.guard
  | .lmaxS32 _ => some unguarded
  | .labs f => some f.guard
  | .labsS32 _ => some unguarded
  | .land f => some f.guard
  | .landImm f => some f.guard
  | .landS32 _ => some unguarded
  | .lor f => some f.guard
  | .lorImm f => some f.guard
  | .lorS32 _ => some unguarded
  | .lxor f => some f.guard
  | .lxorImm f => some f.guard
  | .lxorS32 _ => some unguarded
  | .landn f => some f.guard
  | .landnImm f => some f.guard
  | .landnS32 _ => some unguarded
  | .lshl f => some f.guard
  | .lshlImm f => some f.guard
  | .lshlS32 _ => some unguarded
  | .lshr f => some f.guard
  | .lshrImm f => some f.guard
  | .lshrS32 _ => some unguarded
  | .lsra f => some f.guard
  | .lsraImm f => some f.guard
  | .lsraS32 _ => some unguarded
  | .lrot f => some f.guard
  | .lrotImm f => some f.guard
  | .lrotS32 _ => some unguarded
  | .lclz f => some f.guard
  | .lclzS32 _ => some unguarded
  | .lpopc f => some f.guard
  | .lpopcS32 _ => some unguarded
  | .lbrev f => some f.guard
  | .lbrevS32 _ => some unguarded
  | .lbfx f _ _ _ => some f.guard
  | .lbfi f _ _ => some f.guard
  | .lsel f _ _ => some f.guard
  | .lselImm f _ _ => some f.guard
  | .lcmp f _ => some f.guard
  | .lcmpImm f _ => some f.guard
  | .laddc f _ _ _ => some f.guard
  | .lfadd f => some f.guard
  | .lfaddImm f => some f.guard
  | .lfaddS32 _ => some unguarded
  | .lfsub f => some f.guard
  | .lfsubImm f => some f.guard
  | .lfsubS32 _ => some unguarded
  | .lfmul f => some f.guard
  | .lfmulImm f => some f.guard
  | .lfmulS32 _ => some unguarded
  | .lfma f => some f.guard
  | .lfmaImm f => some f.guard
  | .lfmin f => some f.guard
  | .lfminImm f => some f.guard
  | .lfminS32 _ => some unguarded
  | .lfmax f => some f.guard
  | .lfmaxImm f => some f.guard
  | .lfmaxS32 _ => some unguarded
  | .lfsgn f _ => some f.guard
  | .lfrcp f => some f.guard
  | .lfrcpS32 _ => some unguarded
  | .lfrsq f => some f.guard
  | .lfrsqS32 _ => some unguarded
  | .lfsqrt f => some f.guard
  | .lfsqrtS32 _ => some unguarded
  | .lfdiv f => some f.guard
  | .lfdivImm f => some f.guard
  | .lfdivS32 _ => some unguarded
  | .lfexp2 f => some f.guard
  | .lfexp2S32 _ => some unguarded
  | .lflog2 f => some f.guard
  | .lflog2S32 _ => some unguarded
  | .lfcmp f _ => some f.guard
  | .lfcmpImm f _ => some f.guard
  | .lfclass f _ => some f.guard
  | .lcvt f _ _ _ _ => some f.guard
  | .lpack f _ => some f.guard
  | .lunpk f _ _ => some f.guard
  | .lmov f => some f.guard
  | .lmovi _ _ _ guard => some guard
  | .lbcast f => some f.guard
  | .lextr _ _ _ _ => some unguarded
  | .lins _ _ _ _ => some unguarded
  | .lshfl f _ _ => some f.guard
  | .lred f _ => some f.guard
  | .lscan f _ _ => some f.guard
  | .lballot _ _ => some unguarded
  | .lgets _ guard _ => some guard
  | .ltrns _ _ => some unguarded
  | .plog _ _ _ guard _ => some guard
  | .pmovPred _ _ guard => some guard
  | .pmovFromX _ _ guard => some guard
  | .pmovToX _ _ => some unguarded
  | .emset _ => some unguarded
  | .emget _ => some unguarded
  | .emand _ _ _ => some unguarded
  | .lld m _ => some m.guard
  | .lldImm m _ => some m.guard
  | .lst m _ => some m.guard
  | .lstImm m _ => some m.guard
  | .lldt m _ => some m.guard
  | .lldtImm m _ => some m.guard
  | .lamo m _ _ _ _ => some m.guard
  | .lpref m _ => some m.guard
  | .lprefImm m _ => some m.guard
  | _ => none

/-- R60, R375: the lanes of an instruction of a hart. -/
def Hart.lanesOf (h : Hart) (i : Instr) : Word :=
  match Instr.guardOf i with
  | none => 0xFFFFFFFF
  | some g => (h.activeLanes g).foldl (fun m l => setMask m l true) 0

/-- R52: an S32 word, or an L64 word with G = 000 or 001. -/
def prefixable (lo : Word) : Bool :=
  lo.toNat % 128 == 0x0B || (lo.toNat % 128 == 0x3F && decide (bits lo.toNat 9 7 ≤ 1))

/-- R52, R53: a PX, judged by the word at the next address; the pair executes as one instruction at the PX's pc. -/
def execPx (m : PxModes) (s : State) : Out :=
  onHart s fun h =>
    let alone := fun (c : Nat) (v : DWord) (poison : Bool) (t : State) =>
      t.pcWatching h 0xFFFFFFFF [h.pc] (fun u => u.raiseWith c v poison)
    match s.fetchPair h (h.pc + 4) with
    | .park w s1 => s1.modCur (fun k => k.park w s.now)
    | .trap c v p s1 => alone c v p s1
    | .ok w s1 =>
      let first := BitVec.ofNat 64 w.1.toNat
      if !prefixable w.1 then alone 24 first false s1
      else match decode w.1 w.2 with
      | .error _ => alone 2 first false s1
      | .ok i =>
        s1.pcWatching h (h.lanesOf i) [h.pc, h.pc + 4] fun t =>
          match execPrefixed i (t.modCur (fun k => { k with run := { k.run with pair := some m } })) with
          | .next u => u
          | .fault _ => t
          | .refused _ => t

end Sys2Proof.Machine
end

