-- ==== Sys2Proof/Machine/Waits.lean ====
section
/-! DEFINITION. The ends of a hart's waits (R93): what an answer from beyond the core lets the waiting instruction do. -/

namespace Sys2Proof.Machine

open Sys2Proof

/-- The state an instruction's meaning gives; unchanged where there is no next state. -/
def nextOf (o : Out) (s : State) : State :=
  match o with
  | .next t => t
  | .fault _ => s
  | .refused _ => s

/-- R93, R94: an instruction that waited for an answer has its effect. -/
def performed (i : Instr) (s : State) : Out :=
  match i with
  | .lb rd rs1 imm => execLb rd rs1 imm s
  | .lh rd rs1 imm => execLh rd rs1 imm s
  | .lw rd rs1 imm => execLw rd rs1 imm s
  | .ld rd rs1 imm => execLd rd rs1 imm s
  | .lbu rd rs1 imm => execLbu rd rs1 imm s
  | .lhu rd rs1 imm => execLhu rd rs1 imm s
  | .lwu rd rs1 imm => execLwu rd rs1 imm s
  | .lr rd rs1 aq rl dbl => execLr rd rs1 aq rl dbl s
  | .sc rd rs1 rs2 aq rl dbl => execSc rd rs1 rs2 aq rl dbl s
  | .amoswap rd rs1 rs2 aq rl dbl => execAmoswap rd rs1 rs2 aq rl dbl s
  | .amoadd rd rs1 rs2 aq rl dbl => execAmoadd rd rs1 rs2 aq rl dbl s
  | .amoxor rd rs1 rs2 aq rl dbl => execAmoxor rd rs1 rs2 aq rl dbl s
  | .amoand rd rs1 rs2 aq rl dbl => execAmoand rd rs1 rs2 aq rl dbl s
  | .amoor rd rs1 rs2 aq rl dbl => execAmoor rd rs1 rs2 aq rl dbl s
  | .amomin rd rs1 rs2 aq rl dbl => execAmomin rd rs1 rs2 aq rl dbl s
  | .amomax rd rs1 rs2 aq rl dbl => execAmomax rd rs1 rs2 aq rl dbl s
  | .amominu rd rs1 rs2 aq rl dbl => execAmominu rd rs1 rs2 aq rl dbl s
  | .amomaxu rd rs1 rs2 aq rl dbl => execAmomaxu rd rs1 rs2 aq rl dbl s
  | .fence tso pred succ => execFence tso pred succ s
  | .sfenceVma rs1 rs2 => execSfenceVma rs1 rs2 s
  | .lld m policy => execLld m policy s
  | .lldImm m imm => execLldImm m imm s
  | .lst m policy => execLst m policy s
  | .lstImm m imm => execLstImm m imm s
  | .lldt m policy => execLldt m policy s
  | .lldtImm m imm => execLldtImm m imm s
  | .lamo m op order scope vs => execLamo m op order scope vs s
  | .rfl xd => execRfl xd s
  | .spw pd xq vs => execSpw pd xq vs s
  | .enq xd xq xp => execEnq xd xq xp s
  | .pfence scope order => execPfence scope order s
  | .bcpy xd xa xn => execBcpy xd xa xn s
  | .bfil xd xa xn => execBfil xd xa xn s
  | .bgat xd xa xn => execBgat xd xa xn s
  | .bsct xd xa xn => execBsct xd xa xn s
  | .ctxs xr => execCtxs xr s
  | .msgs xt xm => execMsgs xt xm s
  | .fenceI => execFenceI s
  | .barC => execBarC s
  | .barK => execBarK s
  | .xfence => execXfence s
  | .ofence => execOfence s
  | _ => .next s

/-- A parked instruction of a hart is performed, with the latencies its operations still have; the environment's own
latencies are kept. -/
def State.perform (s : State) (k : Nat) (i : Instr) (lat : List Nat) : State :=
  s.asHart k fun t =>
    let t1 := { (t.modCur (fun h => h.unpark t.now)) with latencies := lat }
    nextOf (performed i t1) t1

/-- R93: MISS_DATA_RETURN: the data of the last lane that missed returns. Operands: the hart and the wait's number. -/
def execMissDataReturn (s : State) : Out :=
  let k := s.arg.nat 0
  .next (match s.hart? k with
    | none => s
    | some h =>
      match h.run.wait with
      | some (.data tag i) => if tag = s.arg.nat 1 then { s.perform k i [] with latencies := s.latencies } else s
      | _ => s)

/-- R168: RELEASE_COMPLETE: every echo of a release has returned; a hart with stores held on fault records goes on waiting
(R315). Operands: the hart and the wait's number. -/
def execReleaseComplete (s : State) : Out :=
  let k := s.arg.nat 0
  .next (match s.hart? k with
    | none => s
    | some h =>
      match h.run.wait with
      | some (.release tag i) =>
        if tag = s.arg.nat 1 && !s.echoHeld k then
          (let t := s.perform k i (0 :: s.latencies)
          if t.latencies.length = s.latencies.length + 1 then { t with latencies := s.latencies } else t)
        else s
      | _ => s)

/-- R93, R109: RFL_CLAIM_ANSWER: the cluster dispatcher answers a claim. Operands: the hart and the wait's number. -/
def execRflClaimAnswer (s : State) : Out :=
  let k := s.arg.nat 0
  .next (match s.hart? k with
    | none => s
    | some h =>
      match h.run.wait with
      | some (.claim tag i) => if tag = s.arg.nat 1 then { s.perform k i [] with latencies := s.latencies } else s
      | _ => s)

/-- R152: the first in a bank's queue leaves it. -/
def State.popBank (s : State) (core bank who : Nat) : State :=
  s.modCore core (fun c => { c with lockq := c.lockq.erase (bank, who) })

/-- R152: a free bank serves the next in its queue: a request is granted, an access of a lane or a job performed. -/
def State.serveLock (s : State) (core bank who : Nat) : State :=
  let s1 := s.popBank core bank who
  if 65536 ≤ who then ((s1.resumeJob ((who - 65536) / 64) ((who - 65536) % 64))).serveBank core bank
  else
    match s1.hart? who with
    | none => s1.serveBank core bank
    | some h =>
      match h.run.wait with
      | some (.lock _ none) =>
        (s1.grantBank core bank who).modHarts (fun j _ => j == who) (fun _ g => (g.unpark s.now).retire 4)
      | some (.lock _ (some i)) => (s1.perform who i s1.latencies).serveBank core bank
      | some .reinstate => ((s1.grantBank core bank who).modHarts (fun j _ => j == who) (fun _ g =>
          { g with run := { g.run with relock := g.run.relock.filter (· != bank) } })).relock who 5
      | _ => s1.serveBank core bank

/-- R152: BANK_LOCK_GRANT: a free bank goes to the request that waits longest. Operands: the core and the bank. -/
def execBankLockGrant (s : State) : Out :=
  let core := s.arg.nat 0
  let bank := s.arg.nat 1
  .next (if (Map.find (s.core core).locks bank).isSome then s
  else match (s.core core).lockq.find? (fun e => e.1 == bank) with
    | none => s
    | some e => s.serveLock core bank e.2)

/-- R153: BANK_LOCK_BREAK: a lock is broken `lkto` cycles after its grant; its holder takes cause 30. Operands: the core, the
bank and the lock's number. -/
def execBankLockBreak (s : State) : Out :=
  let core := s.arg.nat 0
  let bank := s.arg.nat 1
  .next (match Map.find (s.core core).locks bank with
    | none => s
    | some l => if l.tag = s.arg.nat 2 then (s.freeBank core bank).pushCause l.holder 30 (BitVec.ofNat 64 bank) else s)

/-- R150: a parked `waita` of a hart ends with a status. -/
def State.endWaita (s : State) (k tag status : Nat) : State :=
  match s.hart? k with
  | none => s
  | some h =>
    match h.run.wait with
    | some (.waita t xd _) =>
      if t = tag then ((s.dropWatch k).asHart k fun u => (u.modCur (fun g => g.unpark u.now)).finishWaita xd status) else s
    | _ => s

/-- R150, R151: WAITA_WAKE: a wake message reaches the hart. Operands: the hart, the wait's number and the status (3: the
watch was evicted). -/
def execWaitaWake (s : State) : Out := .next (s.endWaita (s.arg.nat 0) (s.arg.nat 1) (s.arg.nat 2))

/-- R150: WAITA_TIMEOUT. Operands: the hart and the wait's number. -/
def execWaitaTimeout (s : State) : Out := .next (s.endWaita (s.arg.nat 0) (s.arg.nat 1) 1)

/-- R309: a walk of a partition that an invalidation has to wait for has not returned. -/
def State.walksBefore (s : State) (part tag : Nat) : Bool :=
  s.clusters.any (fun e => e.2.tscq.any (fun t => t.part == part && decide (t.id < tag)))

/-- R80, R309: SFENCE_VMA_COMPLETE: every TLB of the package has removed the matching entries. Operands: the hart and the
wait's number. -/
def execSfenceVmaComplete (s : State) : Out :=
  let k := s.arg.nat 0
  let tag := s.arg.nat 1
  .next (match s.hart? k with
    | none => s
    | some h =>
      if h.run.wait == some (.sfence tag) && !s.walksBefore h.role.part tag then
        (s.setHart k (h.unpark s.now)).modCluster (clusterOf k) (fun c => { c with sfences := c.sfences.filter (fun f => f.1 != tag) })
      else s)

/-- R176: ORDERED_STALL_END: a condition of R176 holds and the hart issues again. Operand: the hart. -/
def execOrderedStallEnd (s : State) : Out :=
  let k := s.arg.nat 0
  .next (match s.hart? k with
    | none => s
    | some h => if h.run.wait == some .ordered then s.setHart k (h.unpark s.now) else s)

/-- R102: BARRIER_RELEASE: every participant has arrived. Operands: the launch, the unit, the member, and `ok` for a
cluster-group barrier. -/
def execBarrierRelease (s : State) : Out :=
  let l := s.arg.nat 0
  let unit := s.arg.nat 1
  let member := s.arg.nat 2
  let ps := s.groupHarts l unit (if s.arg.ok then none else some member)
  .next (match ps with
    | [] => s
    | p :: _ =>
      let found := if s.arg.ok then (s.cluster (clusterOf p)).bar.find? (fun b => b.is l unit 0)
        else (s.core (coreOf p)).bar.find? (fun b => b.is l unit member)
      match found with
      | none => s
      | some b =>
        if !s.barrierFull b s.arg.ok then s
        else
          let s1 := s.modBarrier p l unit member s.arg.ok (fun c => { c with arrived := [], phase := c.phase + 1, flags := 0 })
          ps.foldl (fun t k => (t.acquire (coreOf k) (if s.arg.ok then scK else scC)).modHarts
            (fun j h => j == k && (h.run.wait == some (.barrier s.arg.ok) || h.run.barw))
            (fun _ h =>
              let g := { h with dev := { h.dev with bflags := b.flags } }
              ((if h.run.wait = some (.barrier s.arg.ok) then g.unpark s.now else g).retire 4).hangClear s.now)) s1)

/-- R174: ITEM_COMMIT: the oldest item of an ordered launch, exited, commits. Operand: the launch. -/
def execItemCommit (s : State) : Out :=
  let l := s.arg.nat 0
  .next (match s.standOldest l with
    | (some _, t) => t
    | (none, t) => ((t.commitOldest l).planCommit l).checkComplete l)

/-- R166: WRITE_PERFORMED: the writes of a core to a place arrive. Operands: the core and the place. -/
def execWritePerformed (s : State) : Out := .next (s.drainPlace (s.arg.nat 0) (s.arg.nat 1))

/-- R71: the firmware's answer to a call of S: status in a0 and value in a1; the hart returns to S at the next instruction. The
firmware's instructions do not count in `minstret` (log entry 8). -/
def State.answerCall (s : State) (k : Nat) (status value : DWord) : State :=
  s.modHarts (fun j h => j == k && h.run.wait == some .firmware && h.csr.mcause == 9)
    (fun _ h =>
      let h1 := (((h.unpark s.now).setX 10 status).setX 11 value).returnM (h.csr.mepc + 4)
      (h1.hangClear s.now).settle)

/-- R71. Operand: the hart. -/
def execFwVersion (s : State) : Out := .next (s.answerCall (s.arg.nat 0) 0 (zext64 Config.fwVersion))

/-- R71. Operand: the hart. -/
def execFwFeatureMask (s : State) : Out :=
  .next (match s.hart? (s.arg.nat 0) with
    | none => s
    | some h => s.answerCall (s.arg.nat 0) 0 (match s.part? h.role.part with
        | none => 0
        | some p => zext64 p.pfmask))

/-- R71, R25: the caller's `mhartid`. Operand: the hart. -/
def execFwPosition (s : State) : Out :=
  .next (match s.hart? (s.arg.nat 0) with
    | none => s
    | some h => s.answerCall (s.arg.nat 0) 0 (({ s with cur := s.arg.nat 0 }).csrValue h 0xF14))

/-- R71: a1 is no value of an unsupported function, and keeps what it held. Operand: the hart. -/
def execFwUnsupported (s : State) : Out :=
  .next (match s.hart? (s.arg.nat 0) with
    | none => s
    | some h => s.answerCall (s.arg.nat 0) (BitVec.ofInt 64 (-2)) (h.getX 11))

end Sys2Proof.Machine
end

