-- ==== Sys2Proof/Machine/Estimate.lean ====
section
/-! DEFINITION. What the device tracks for vacancy by deadline (R115 to R119): dirty state, completion estimate, checkpoint
time, and the orders that govern a queue (R114, R128). -/

namespace Sys2Proof.Machine

open Sys2Proof

/-- R116, R117: the interval and the quiesce bound, in cycles. -/
def interval : Nat := 65536
def quiesce : Nat := 10240

/-- R7: cycles as whole ticks, rounded up. -/
def ticksOf (cycles : Nat) : Nat := (cycles + 6) / 7

def popcount (n w : Nat) : Nat := ((upTo w).filter (fun i => n.testBit i)).length

/-- The resident harts of a launch. -/
def State.hartsOf (s : State) (l : Nat) : List (Nat × Hart) := s.harts.filter (fun e => e.2.role.launch == some l)

/-- R115: the dirty state of a launch on a die, with units that would be placed there too. -/
def State.dirtyOn (s : State) (l d : Nat) (extra : List Place) : Nat :=
  match s.launch? l with
  | none => 0
  | some L =>
    let banks := match s.part? L.part with
      | none => 0
      | some p => popcount p.banks.toNat 32
    let here := (s.hartsOf l).filter (fun e => dieOf e.1 == d)
    let more := extra.filter (fun p => p.core / 256 == d)
    let cores := (here.map (fun e => coreOf e.1) ++ more.map (·.core)).eraseDups
    17408 * (here.length + (more.map (fun p => p.slots.length)).sum) + 16384 * banks * cores.length
      + 1048576 * ((cores.map (· / 8)).eraseDups).length

/-- The dies that hold a launch. -/
def State.diesOf (s : State) (l : Nat) : List Nat := ((s.hartsOf l).map (fun e => dieOf e.1)).eraseDups

/-- R116: the completion estimate in cycles; none: infinite. -/
def Launch.estimate (l : Launch) : Option Nat :=
  if l.pkt.open_ || l.rate == 0 then none else some (((l.pkt.count - l.exited) * interval + l.rate - 1) / l.rate)

/-- R119: the checkpoint time of a die that holds `c` bytes. -/
def ckTime (c : Nat) : Nat := quiesce + (c * 7 + 9999) / 10000

/-- R114: the fields of an order. -/
def orderDline (r : BitVec 1024) : Nat := bits r.toNat 63 0
def orderPart (r : BitVec 1024) : Nat := bits r.toNat 69 64
def orderQset (r : BitVec 1024) : Bool := r.getLsbD 70
def orderTag (r : BitVec 1024) : Nat := bits r.toNat 87 72
def orderQmask (r : BitVec 1024) : Nat := bits r.toNat 383 128
def orderResp (r : BitVec 1024) : Nat := bits r.toNat 447 384
def orderCkarea (r : BitVec 1024) : Nat := bits r.toNat 511 448
def orderDlist (r : BitVec 1024) : Nat := bits r.toNat 575 512
def orderCksize (r : BitVec 1024) : Nat := bits r.toNat 607 576
def orderDcap (r : BitVec 1024) : Nat := bits r.toNat 623 608

/-- R114: the order names a queue. -/
def orderNames (r : BitVec 1024) (q : Nat) : Bool := !orderQset r || (orderQmask r).testBit q

/-- The standing orders that name a queue. -/
def State.ordersOn (s : State) (part q : Nat) : List (Nat × Order) :=
  s.orders.filter (fun e => e.2.part == part && e.2.choices.any (fun c => c.1 == q))

/-- R128: the order that governs a queue: the earlier deadline. -/
def State.governing (s : State) (part q : Nat) : Option (Nat × Order) :=
  (s.ordersOn part q).foldl (fun (best : Option (Nat × Order)) e => match best with
    | none => some e
    | some b => if e.2.dline < b.2.dline then some e else some b) none

/-- R125: the choice in force for a queue: 1 completion, 2 checkpoint, 3 discard; none: no order stands. -/
def State.choiceOf (s : State) (part q : Nat) : Option Nat :=
  (s.governing part q).bind (fun e => (e.2.choices.find? (fun c => c.1 == q)).map (·.2.1))

/-- R126: the order that set a queue's choice, which has its areas. -/
def State.setterOf (s : State) (part q : Nat) : Option Nat :=
  (s.governing part q).bind (fun e => (e.2.choices.find? (fun c => c.1 == q)).map (·.2.2))

/-- The active launches of a queue. -/
def State.activeOf (s : State) (part q : Nat) : List (Nat × Launch) :=
  match s.queue? part q with
  | none => []
  | some v => v.launches.filterMap (fun l => match s.launch? l with
    | none => none
    | some L => if L.activated && !L.ended && !L.parked then some (l, L) else none)

/-- R119: the launches whose dirty state counts against checkpoints of a partition, with queues that an order being decided
names. -/
def State.ckLaunches (s : State) (part : Nat) (named : Nat → Bool) : List Nat :=
  (s.launches.filter (fun e => e.2.part == part && e.2.activated && !e.2.ended && e.2.pkt.ckpt &&
    (named e.2.q || (match s.choiceOf part e.2.q with
      | none => false
      | some c => decide (c ≤ 2))))).map (·.1)

/-- R119: C of a die, for a set of launches, with a unit that would be placed for one of them. -/
def State.ckBytes (s : State) (ls : List Nat) (d : Nat) (unit : Option (Nat × List Place)) : Nat :=
  (ls.map (fun l => s.dirtyOn l d (match unit with
    | some (u, ps) => if u = l then ps else []
    | none => []))).sum

/-- R119: all bytes of a set of launches. -/
def State.ckTotal (s : State) (ls : List Nat) (unit : Option (Nat × List Place)) : Nat :=
  ((upTo 8).map (fun d => s.ckBytes ls d unit)).sum

/-- R119, R123: the checkpoint time of a queue's launches. -/
def State.ckTimeOf (s : State) (ls mine : List Nat) (unit : Option (Nat × List Place)) : Nat :=
  let dies := ((mine.map s.diesOf).flatten ++ (match unit with
    | some (_, ps) => ps.map (fun p => p.core / 256)
    | none => [])).eraseDups
  (dies.map (fun d => ckTime (s.ckBytes ls d unit))).foldl max quiesce

/-- R119: a checkpoint of a queue's launches fits the time that is left and the order's area. -/
def State.ckFeasible (s : State) (o : BitVec 1024) (deadline : Nat) (ls mine : List Nat) (unit : Option (Nat × List Place)) : Bool :=
  orderCksize o != 0 && decide (s.time + ticksOf (s.ckTimeOf ls mine unit) ≤ deadline)
  && decide (s.ckTotal ls unit ≤ orderCksize o * 4096)

/-- R118: a discard of `n` launches fits the time and the list. -/
def State.discFeasible (s : State) (o : BitVec 1024) (deadline used n : Nat) : Bool :=
  decide (s.time + ticksOf quiesce ≤ deadline) && decide (used + n ≤ orderDcap o)

/-- R122: a further unit of a launch may be placed: no order stands on its queue, or it is under completion and the fallback
arithmetic still holds; a launch whose flags permit no fallback has none. -/
def State.mayPlace (s : State) (l : Nat) (L : Launch) (unit : List Place) : Bool :=
  match s.governing L.part L.q with
  | none => true
  | some (_, o) =>
    match s.choiceOf L.part L.q with
    | some 1 =>
      let mine := s.activeOf L.part L.q
      let must := mine.any (fun e => e.2.pkt.mustc)
      let ck := mine.all (fun e => e.2.pkt.ckpt)
      let dc := mine.all (fun e => e.2.pkt.discard)
      if must || !(ck || dc) then true
      else (ck && s.ckFeasible o.raw o.dline (s.ckLaunches L.part (fun _ => false)) (mine.map (·.1)) (some (l, unit)))
        || (dc && s.discFeasible o.raw o.dline o.ndisc mine.length)
    | _ => false

end Sys2Proof.Machine
end

