-- ==== Sys2Proof/Machine/Launch.lean ====
section
/-! DEFINITION. Launch packets (R81 to R86), activation (R87), service (R88), placement and dispatch (R89 to R91), and the end
of a launch (R85, R99, R104). -/

namespace Sys2Proof.Machine

open Sys2Proof

/-- R83: the fields of a packet. -/
def packetOf (v : Nat) : Packet :=
  let f := fun hi lo => bits v hi lo
  { entry := BitVec.ofNat 64 (f 63 0), args := BitVec.ofNat 64 (f 127 64), count := f 175 128, ordered := v.testBit 176,
    determ := v.testBit 177, discard := v.testBit 178, ckpt := v.testBit 179, mustc := v.testBit 180, gang := v.testBit 181,
    drain := v.testBit 182, notify := v.testBit 183, open_ := v.testBit 184, mode := BitVec.ofNat 64 (f 255 192),
    fmtblk := BitVec.ofNat 64 (f 319 256), sidetab := BitVec.ofNat 64 (f 383 320), cmpl := BitVec.ofNat 64 (f 447 384),
    hpc := f 451 448, cpk := f 454 452, prio := f 458 456, ndep := f 461 459, depoff := f 479 464, hlim := f 495 480,
    reserved := f 191 185 != 0 || v.testBit 455 || f 463 462 != 0 || f 510 496 != 0 }

/-- R89: harts per core group, core groups per unit, harts per unit. -/
def Packet.h (p : Packet) : Nat := p.hpc + 1
def Packet.g (p : Packet) : Nat := p.cpk + 1
def Packet.hg (p : Packet) : Nat := p.h * p.g

/-- R84: the child ring's capacity is a power of two from 32 to 2^32. -/
def ringSize (n : Nat) : Bool := (upTo 33).any (fun k => decide (5 ≤ k) && n == 2 ^ k)

/-- R84, R86: the checks of a packet, given its queue's supervisor block and its drain pc. -/
def Packet.bad (p : Packet) (supOk : Bool) (drainpc : DWord) : Bool :=
  p.reserved || !supOk || p.entry.toNat % 4 != 0
  || (p.determ && (p.ordered || p.open_)) || (p.gang && (p.determ || p.open_))
  || (p.mustc && (p.discard || p.ckpt)) || decide (4 < p.ndep)
  || (p.mode != 0 && !(p.ordered || p.determ || p.open_))
  || (p.ordered && !p.open_ && decide (2 ^ 48 < p.mode.toNat + p.count))
  || (p.determ && (p.mode == 0 || decide (p.count < p.mode.toNat)))
  || (p.open_ && (!ringSize p.count || p.mode.toNat % 64 != 0))
  || p.hlim % p.hg != 0 || (p.gang && p.hlim == 0) || (p.drain && drainpc == 0)

/-- R83: a launch as its packet makes it, before it activates. -/
def launchOf (p : Packet) (part q index : Nat) : Launch :=
  { pkt := p, part := part, q := q, index := index, lnch := BitVec.ofNat 64 (q + part * 2 ^ 8 + index % 2 ^ 50 * 2 ^ 14),
    activated := false, ended := false, status := 0, fmt := Vector.replicate 4 0, fmtRaw := [], safetab := 0, livetab := 0,
    drainpc := 0, next := 0, requeued := [], exited := 0, flags := 0, slicesGiven := 0, unitsPlaced := 0, appended := 0,
    children := [], frontier := 0, items := [], itembase := 0, high := 0, rate := 0, lastExited := 0, saved := [], parked := false,
    stopping := false, barriers := [], sections := [], savedTiles := [], notifyDone := false }

/-- R315: what a dispatcher's access that waits for the host raises; launches, or queues from 2^32 on, wait for it. -/
def State.dispWaits (s : State) (part : Nat) (w : DispWait) (who : Nat) (wr : Bool) : State :=
  if w.cause = 0 then s else s.raiseRecord { w.record part wr with launches := [who] }

/-- The waiting queue's number in a fault record. -/
def queueWho (part q : Nat) : Nat := 2 ^ 32 + queueKey part q

/-- R81: the slot of a queue's next packet. -/
def Queue.slotAddr (q : Queue) : Nat := q.ring + 64 * (q.consIdx % 2 ^ q.n)

/-- R86, R73: the supervisor block as the dispatcher reads it, its fields as the CSRs hold them (log entry 149). -/
def Queue.withSup (q : Queue) (v : Nat) : Queue :=
  { q with stvec := BitVec.ofNat 64 (bits v 63 0) &&& ~~~3, satp := satpWrite 0 (BitVec.ofNat 64 (bits v 127 64)),
           sscratch := BitVec.ofNat 64 (bits v 191 128), supOk := bits v 255 192 == 0 }

/-- R82: the packet at the consumer index, with the supervisor block; none: not ready. -/
def State.readPacket (s : State) (part : Nat) (q : Queue) : Disp (Option (Nat × Queue)) :=
  (s.dispReadGpa part q.slotAddr 64).bind fun v s1 =>
    if v.testBit 511 then
      (s1.dispReadGpa part q.sup 32).bind fun sup s2 =>
        (s2.dispReadGpa part q.cons 8).bind fun _ s3 => .ok (some (v, q.withSup sup)) s3
    else .ok none s1

/-- R86: the side-table header: `safetab`, `livetab` and `drainpc` (an address of 0 is an address: log entry 21). -/
def State.readSide (s : State) (part : Nat) (satp : DWord) (p : Packet) : Disp (DWord × DWord × DWord) :=
  (s.dispRead part satp p.sidetab 32).bind fun v t =>
    .ok (BitVec.ofNat 64 (bits v 63 0), BitVec.ofNat 64 (bits v 127 64), BitVec.ofNat 64 (bits v 191 128)) t

/-- R82: the packet is consumed: its ready bit is cleared, the index advances and is written. -/
def State.consume (s : State) (part qn : Nat) (q : Queue) : State :=
  let last := s.gpaBytes part (q.slotAddr + 56) 8
  let s1 := s.modQueue part qn (fun v => { v with consIdx := v.consIdx + 1, checked := false })
  let s2 := s1.writeHome part (q.slotAddr + 56) (bytesOfNat (natOfBytes last % 2 ^ 63) 8) none
  (s2.writeHome part q.cons (bytesOfNat (q.consIdx + 1) 8) none).plan 0 .packetCheck { nats := [part, qn] }

/-- R99, R416: the launch's end is announced where `notify` is set. -/
def State.announce (s : State) (l : Nat) : State :=
  match s.launch? l with
  | none => s
  | some L =>
    let s1 := s.modLaunch l (fun M => { M with notifyDone := true })
    if L.pkt.notify then s1.sendMsix (4 + L.part) else s1

/-- R85: the completion word. -/
def Launch.word (l : Launch) : Nat := l.exited % 2 ^ 48 + l.status * 2 ^ 48 + l.flags.toNat * 2 ^ 56 + 2 ^ 63

/-- R99: a completion word that cannot be written: an error record of class 0x09. -/
def State.wordLost (s : State) (l : Nat) : State :=
  match s.launch? l with
  | none => s
  | some L =>
    let gpa := match s.dispGpa L.part (s.launchSatp L) L.pkt.cmpl with
      | .ok a _ => a
      | .wait _ _ => 0
      | .fail _ => 0
    (s.report { cls := 9, part := some L.part, unit := 7, gpa := gpa }).announce l

/-- R85, R99, R162: the completion word is written, after the launch's stores; it waits for the host, or cannot be written. -/
def State.writeWord (s : State) (l : Nat) : State :=
  match s.launch? l with
  | none => s
  | some L =>
    if L.notifyDone || s.launchHeld l then s
    else if L.pkt.cmpl = 0 then s.announce l
    else match s.dispWrite L.part (s.launchSatp L) L.pkt.cmpl (bytesOfNat L.word 8) with
    | .ok _ t => t.announce l
    | .wait w t => t.dispWaits L.part w l true
    | .fail t => t.wordLost l

/-- R121: the vacancy of the queues of a partition's orders is judged again. -/
def State.kickVacancy (s : State) (part : Nat) : State :=
  s.orders.foldl (fun t o => if o.2.part == part && !o.2.done then t.plan 0 .vacancyReached { nats := [o.1] } else t) s

/-- R99, R162: every store of a launch that is on its way is performed. -/
def State.drainLaunch (s : State) (l : Nat) : State :=
  s.cores.foldl (fun t e => if e.2.flight.any (fun f => !f.held && f.launch == some l) then t.drainCore e.1 else t) s

/-- R117, R124, R126: the jobs of a launch that is stopped are stopped and not resumed. -/
def State.dropJobs (s : State) (l : Nat) : State :=
  let hit := (s.clusters.filter (fun c => c.2.jobs.any (fun j => j.2.live && j.2.launch == some l))).map (·.1)
  let ended := fun (t : State) (i : Nat) (j : Job) =>
    if j.live && j.launch == some l then ({ j with state := .done, launch := none, hidx := 2 ^ 16, flags := 0, order := t.tag + 1 + i } : Job) else j
  hit.foldl (fun t cl =>
    let u := t.modCluster cl (fun c => { c with jobs := Map.mapVal c.jobs (ended t) })
    (({ u with tag := u.tag + 64 } : State).reinstateAll cl 64).kick cl) s

/-- R85, R99, R162: a launch ends with a status: its stores are performed and its jobs stopped before its completion word is
written. -/
def State.endLaunch (s : State) (l status : Nat) : State :=
  match s.launch? l with
  | none => s
  | some L =>
    if L.ended then s
    else
      let s0 := s.modLaunch l (fun M => { M with
        ended := true, status := status, items := [], children := [], requeued := [], saved := [], parked := false, stopping := false })
      let s1 := (s0.drainLaunch l).dropJobs l
      let s2 := (s1.hartsOf l).foldl (fun t e => t.retireHart e.1) s1
      let s3 := { s2 with
        cores := Map.mapVal s2.cores (fun _ c => { c with bar := c.bar.filter (fun b => b.launch != l) })
        clusters := Map.mapVal s2.clusters (fun _ c => { c with bar := c.bar.filter (fun b => b.launch != l) }) }
      let s4 := (s3.writeWord l).modQueue L.part L.q (fun q => { q with launches := q.launches.filter (· != l) })
      let s5 := s4.launches.foldl (fun t e => if e.2.part == L.part && e.2.pkt.open_ then t.checkComplete e.1 else t) s4
      ((s5.kickActivate L.part).kickDispatch).kickVacancy L.part

/-- A launch entered under a new number, activated or not, at its queue's index. -/
def State.addLaunch (s : State) (L : Launch) : State :=
  ({ s with launches := Map.put s.launches s.nextLaunch L, nextLaunch := s.nextLaunch + 1 }).modQueue L.part L.q
    (fun q => { q with launches := q.launches ++ [s.nextLaunch] })

/-- R84, R315, R339: the packet at a queue's consumer index is consumed with status 0x02; one that cannot be read is passed over
where its producer has reserved its slot, and its launch has no field of its own (log entry 128). -/
def State.failPacket (s : State) (part qn : Nat) (q : Queue) : State :=
  let lost := fun (t : State) => match t.dispReadGpa part q.prod 8 with
    | .ok p u =>
      if q.consIdx < p then
        let u1 := u.modQueue part qn (fun v => { v with consIdx := v.consIdx + 1, checked := false })
        let u2 := match u1.dispWriteGpa part q.cons (bytesOfNat (q.consIdx + 1) 8) with
          | .ok _ w => w
          | .wait _ w => w
          | .fail w => w
        ((u2.plan 0 .packetCheck { nats := [part, qn] }).addLaunch (Machine.launchOf (packetOf 0) part qn q.consIdx)).endLaunch u2.nextLaunch 2
      else u
    | .wait _ u => u
    | .fail u => u
  match s.dispReadGpa part q.slotAddr 64 with
  | .ok v t => if v.testBit 511 then
      ((t.consume part qn q).addLaunch (Machine.launchOf (packetOf v) part qn q.consIdx)).endLaunch t.nextLaunch 2 else t
  | .wait _ t => lost t
  | .fail t => lost t

/-- R84: PACKET_CHECK: the packet that stands at a queue's consumer index is checked; a malformed one is consumed and
completes with status 0x01, one whose reads cannot be made with 0x02. Operands: the partition and the queue. -/
def execPacketCheck (s : State) : Out :=
  let part := s.arg.nat 0
  let qn := s.arg.nat 1
  .next (match s.queue? part qn with
    | none => s
    | some q =>
      if q.checked then s
      else
        match s.readPacket part q with
        | .wait w t => t.dispWaits part w (queueWho part qn) false
        | .fail t => t.failPacket part qn q
        | .ok none t => t
        | .ok (some (v, q1)) t =>
          let p := packetOf v
          let t1 := t.modQueue part qn (fun _ => q1)
          let over_ := fun (u : State) (status : Nat) =>
            ((u.consume part qn q1).addLaunch (launchOf p part qn q1.consIdx)).endLaunch u.nextLaunch status
          if p.bad q1.supOk 1 then over_ t1 1
          else
          match (if p.drain then t1.readSide part q1.satp p else .ok (0, 0, 0) t1) with
          | .wait w u => u.dispWaits part w (queueWho part qn) false
          | .fail u => over_ u 2
          | .ok side u =>
            if p.bad q1.supOk side.2.2 then over_ u 1
            else (u.modQueue part qn (fun w => { w with checked := true })).plan 0 .launchActivate { nats := [part, qn] })

/-- R97: the length of a slice and the slices that hold an index. -/
def Launch.sliceLen (l : Launch) : Nat := (l.pkt.count + max l.pkt.mode.toNat 1 - 1) / max l.pkt.mode.toNat 1

/-- R89, R97: the launch has an item that a new hart could claim. -/
def Launch.claimable (l : Launch) : Bool :=
  !l.requeued.isEmpty
  || (if l.pkt.open_ then l.children.any (fun c => c.claimable && !c.claimed)
      else if l.pkt.determ then decide (l.slicesGiven < l.pkt.mode.toNat) && decide (l.slicesGiven * l.sliceLen < l.pkt.count)
      else decide (l.next < l.pkt.count))

/-- R87: the launch has an unclaimed item. -/
def State.unclaimed (s : State) (l : Nat) (L : Launch) : Bool :=
  L.claimable || (L.pkt.determ && (s.hartsOf l).any (fun e => match e.2.role.slice with
    | none => false
    | some sl => allLanes.any (fun i => (L.sliceIndex sl i (e.2.role.steps.getD i 0)).isSome)))
  || (L.pkt.determ && L.saved.any (fun h => match h.slice with
    | none => false
    | some sl => allLanes.any (fun i => (L.sliceIndex sl i (h.steps.getD i 0)).isSome)))

/-- R83: the words of a packet's dependence list. -/
def State.depWords (s : State) (part : Nat) (satp : DWord) (p : Packet) : Nat → Disp (List Nat)
  | 0 => .ok [] s
  | n + 1 =>
    (s.depWords part satp p n).bind fun ws t =>
      (t.dispRead part satp (p.args + BitVec.ofNat 64 (8 * (p.depoff + n))) 8).bind fun a u =>
        (u.dispRead part satp (BitVec.ofNat 64 a) 8).bind fun w v => .ok (ws ++ [w]) v

/-- R85: a completion word's `done` and `status`. -/
def wordDone (w : Nat) : Bool := w.testBit 63
def wordStatus (w : Nat) : Nat := bits w 55 48

/-- R217: a format entry breaks a rule. -/
def badEntry (e : Nat) : Bool :=
  let code := bits e 3 0
  let bs := e.testBit 4
  bits e 63 5 != 0 || bits e 127 124 != 0 || bits e 255 188 != 0 || decide (10 < code)
  || ((decide (5 ≤ code ∧ code ≤ 8) || code == 10) && !bs) || (decide (code ≤ 2) && bs)
  || (bs && (decide (3 < bits e 123 121) || decide (3 < bits e 187 185) || bits e 129 128 != 0))

/-- R217: the four format entries. -/
def State.readFmt (s : State) (part : Nat) (satp blk : DWord) : Nat → Disp (List Nat)
  | 0 => .ok [] s
  | n + 1 =>
    (s.readFmt part satp blk n).bind fun es t =>
      (t.dispRead part satp (blk + BitVec.ofNat 64 (32 * n)) 32).bind fun e u => .ok (es ++ [e]) u

/-- R218: what `fs` of entry n holds. -/
def fsWord (blk : DWord) (n e : Nat) : DWord :=
  BitVec.ofNat 64 (bits e 4 0 + (blk.toNat + 32 * n) / 32 * 32)

/-- R89: the cores of a partition, by position. -/
def Part.coreList (p : Part) : List Nat := (upTo 2048).filter (fun c => p.cores.getLsbD c)

/-- R84: units of g groups of h harts that a partition could hold with every slot vacant. -/
def Part.capacity (p : Part) (h g : Nat) : Nat :=
  let per := popcount p.slots.toNat 16 / h
  let cs := p.coreList
  (((cs.map (· / 8)).eraseDups).map (fun cl =>
    let n := (cs.filter (fun c => c / 8 == cl)).length
    if n < g then 0 else n * per / g)).sum

/-- R84, R87: a dependence of a launch has failed. -/
def Packet.depFailed (p : Packet) (words : List Nat) : Bool := !p.open_ && words.any (fun w => wordStatus w != 0)

/-- R84: what settles a launch at once besides a dependence, given its format entries and the units its partition could hold. -/
def Packet.settles (p : Packet) (entries : List Nat) (room : Nat) : Option Nat :=
  if p.fmtblk != 0 && (p.fmtblk.toNat % 32 != 0 || entries.any badEntry) then some 1
  else if p.count = 0 && !p.open_ then some 0
  else if p.gang && decide (room < p.hlim / p.hg) then some 4
  else none

/-- R84, R87: what an activating launch begins with: the status that settles it at once, its format entries and its side table.
What comes first in R84 is judged before what comes later is read. -/
structure Opening where
  settled : Option Nat := none
  entries : List Nat := []
  side : DWord × DWord × DWord := (0, 0, 0)

/-- R84, R87: a launch's opening; none: a dependence is not done. -/
def State.opening (s : State) (part : Nat) (satp : DWord) (p : Packet) (room : Nat) : Disp (Option Opening) :=
  (s.depWords part satp p (if p.open_ then 0 else p.ndep)).bind fun ws t1 =>
    if ws.any (fun w => !wordDone w) then .ok none t1
    else if p.depFailed ws then .ok (some { settled := some 5 }) t1
    else (if p.fmtblk = 0 ∨ p.fmtblk.toNat % 32 ≠ 0 then .ok [] t1 else t1.readFmt part satp p.fmtblk 4).bind fun es t2 =>
      match p.settles es room with
      | some st => .ok (some { settled := some st, entries := es }) t2
      | none => (t2.readSide part satp p).bind fun side t3 => .ok (some { entries := es, side := side }) t3

/-- R87: LAUNCH_ACTIVATE: the checked packet at a queue's consumer index activates. Operands: the partition and the queue. -/
def execLaunchActivate (s : State) : Out :=
  let part := s.arg.nat 0
  let qn := s.arg.nat 1
  .next (match s.queue? part qn, s.part? part with
    | some q, some pt =>
      if !q.checked || (s.governing part qn).isSome then s
      else if q.launches.any (fun l => match s.launch? l with
          | none => false
          | some L => !L.ended && !L.pkt.open_ && s.unclaimed l L) then s
      else
        match s.readPacket part q with
        | .wait w t => t.dispWaits part w (queueWho part qn) false
        | .fail t => t.failPacket part qn q
        | .ok none t => t
        | .ok (some (v, q1)) t =>
          let p := packetOf v
          match t.opening part q1.satp p (if p.gang then pt.capacity p.h p.g else 0) with
          | .wait w u => u.dispWaits part w (queueWho part qn) false
          | .ok none u => u
          | .fail u => ((u.consume part qn q1).addLaunch (launchOf p part qn q1.consIdx)).endLaunch u.nextLaunch 2
          | .ok (some o) u =>
            let l := u.nextLaunch
            let L := { launchOf p part qn q1.consIdx with
              activated := true
              fmt := Vector.ofFn (fun (i : Fin 4) => if o.entries.isEmpty then 0 else fsWord p.fmtblk i.val (o.entries.getD i.val 0))
              fmtRaw := o.entries.map (BitVec.ofNat 512), safetab := o.side.1, livetab := o.side.2.1, drainpc := o.side.2.2 }
            let u1 := (u.consume part qn q1).addLaunch L
            match o.settled with
            | some st => u1.endLaunch l st
            | none => ((u1.plan interval .progressInterval { nats := [l] }).checkComplete l).kickDispatch
    | _, _ => s)

/-- R88, R127: the launch has a unit that waits to be placed or restored. -/
def State.wants (s : State) (l : Nat) (L : Launch) : Bool :=
  L.activated && !L.ended && !L.parked && !L.stopping
  && (!L.saved.isEmpty
      || (if L.pkt.gang then L.unitsPlaced == 0
          else L.claimable && (L.pkt.hlim == 0 || decide ((s.hartsOf l).length + L.pkt.hg ≤ L.pkt.hlim))))

/-- R88: the oldest launch of a queue that has a placeable unit. -/
def State.headOf (s : State) (q : Queue) : Option (Nat × Launch) :=
  (q.launches.filterMap (fun l => match s.launch? l with
    | none => none
    | some L => if s.wants l L then some (l, L) else none)).head?

/-- R88: the effective priority. -/
def effective (q : Queue) (L : Launch) : Nat := min 7 (min q.prio L.pkt.prio + q.level)

/-- R89, R347, R391: slots of a core that a partition may be given now, beside those already taken. -/
def State.vacantSlots (s : State) (p : Part) (core : Nat) (taken : List Nat) : List Nat :=
  if p.cores.getLsbD core && (s.core core).inService && (s.die (core / 256)).accept then
    (upTo 16).filter (fun k => p.slots.getLsbD k && (s.hart? (core * 16 + k)).isNone && !taken.contains (core * 16 + k))
  else []

/-- R89: the cores of a cluster that have room for h harts, with all their vacant slots. -/
def State.roomy (s : State) (p : Part) (h cl : Nat) (taken : List Nat) : List Place :=
  (upTo 8).filterMap (fun i =>
    let v := s.vacantSlots p (cl * 8 + i) taken
    if h ≤ v.length then some (⟨cl * 8 + i, v⟩ : Place) else none)

/-- R89: a unit of g groups of h harts on the first g of a list of cores. -/
def unitOn (h g : Nat) (ps : List Place) : Option (List Place) :=
  if g ≤ ps.length then some ((ps.take g).map (fun p => ⟨p.core, p.slots.take h⟩)) else none

/-- R89: a unit in a cluster. -/
def State.fitUnit (s : State) (p : Part) (h g cl : Nat) (taken : List Nat) : Option (List Place) := unitOn h g (s.roomy p h cl taken)

/-- The slots of a unit. -/
def placeKeys (u : List Place) : List Nat := (u.map (fun p => p.slots.map (fun k => p.core * 16 + k))).flatten

/-- Cores in descending order of their vacant slots. -/
def byRoom (a : Place) : List Place → List Place
  | [] => [a]
  | b :: bs => if b.slots.length < a.slots.length then a :: b :: bs else b :: byRoom a bs

/-- R90: as many units as one cluster can hold, at most `n`: each on the cores that have the most room, so that no more could be
placed otherwise. -/
def State.fitMany (s : State) (p : Part) (h g cl : Nat) : Nat → List Nat → List (List Place)
  | 0, _ => []
  | n + 1, taken =>
    match unitOn h g ((s.roomy p h cl taken).foldl (fun acc a => byRoom a acc) []) with
    | some u => u :: s.fitMany p h g cl n (taken ++ placeKeys u)
    | none => []

/-- R90: at most `n` units in a list of clusters. -/
def State.fitUnits (s : State) (p : Part) (h g n : Nat) (cls : List Nat) : List (List Place) :=
  cls.foldl (fun acc cl => acc ++ s.fitMany p h g cl (n - acc.length) []) []

/-- R425: the clusters of a partition that have power, or that are gated. -/
def State.clustersOf (s : State) (p : Part) (powered : Bool) : List Nat :=
  ((p.coreList.map (· / 8)).eraseDups).filter (fun c => (s.cluster c).powered == powered)

/-- R86: the queue's supervisor block as it stands. -/
def State.supOf (s : State) (part qn : Nat) : State :=
  match s.queue? part qn with
  | none => s
  | some q =>
    match s.dispReadGpa part q.sup 32 with
    | .ok v t => t.modQueue part qn (fun w => w.withSup v)
    | .wait _ _ => s
    | .fail _ => s

/-- R69, R91: a hart at dispatch. -/
def Launch.newHart (L : Launch) (q : Queue) (role : Role) (stopped : Bool) (now : Nat) : Hart :=
  { Hart.reset with
    x := Hart.reset.x.set 10 L.pkt.args
    pc := L.pkt.entry
    csr := { Csr.reset with stvec := q.stvec &&& ~~~3, satp := satpWrite 0 q.satp, sscratch := q.sscratch, mcycleFrom := now }
    dev := { Dev.reset with fs := L.fmt, itembase := BitVec.ofNat 48 L.itembase }
    run := { Run.reset with hangFrom := now, amber := stopped, busyUntil := now + 1 }
    role := role }

/-- R91: one hart of a unit is dispatched; outside a gang only where an item is left for it. -/
def State.dispatchHart (s : State) (l unit member i k : Nat) : State :=
  match s.launch? l with
  | none => s
  | some L =>
    match s.queue? L.part L.q, s.part? L.part with
    | some q, some p =>
      if !L.pkt.gang && !L.claimable then s
      else
        let role : Role := { Role.reset with
          launch := some l, part := L.part, hidx := unit * L.pkt.hg + member * L.pkt.h + i, unit := unit, member := member,
          slice := if L.pkt.determ then some L.slicesGiven else none }
        let s1 := (s.setHart k (L.newHart q role p.stopped s.now)).modCore (coreOf k) (fun c => { c with inboxSaved := false })
        let s2 := s1.modLaunch l (fun M => if M.pkt.determ then { M with slicesGiven := M.slicesGiven + 1 } else M)
        ((s2.fillLanes l k false 0).2).noteClaims l
    | _, _ => s

/-- R101: the barriers of a gang unit's groups. -/
def State.addBarriers (s : State) (l unit : Nat) (u : List Place) : State :=
  let b := fun (m : Nat) => (⟨l, unit, m, [], 0, 0⟩ : Barrier)
  let s1 := u.zipIdx.foldl (fun t e => t.modCore e.1.core (fun c => { c with bar := c.bar ++ [b e.2] })) s
  match u.head? with
  | none => s1
  | some p => s1.modCluster (p.core / 8) (fun c => { c with bar := c.bar ++ [b 0] })

/-- R89, R91: a unit placed: its harts are dispatched in the order of their groups. -/
def State.dispatchUnit (s : State) (l : Nat) (u : List Place) : State :=
  match s.launch? l with
  | none => s
  | some L =>
    let s1 := (s.supOf L.part L.q).modLaunch l (fun M => { M with unitsPlaced := M.unitsPlaced + 1 })
    let s2 := if L.pkt.gang then s1.addBarriers l L.unitsPlaced u else s1
    u.zipIdx.foldl (fun t e => e.1.slots.zipIdx.foldl (fun r f => r.dispatchHart l L.unitsPlaced e.2 f.2 (e.1.core * 16 + f.1)) t) s2

/-- R88: a queue's aging begins again. -/
def State.startAging (s : State) (part qn : Nat) : State :=
  (s.modQueue part qn (fun q => { q with level := 0, agingFrom := some s.now })).plan (2 ^ 20) .queueAging { nats := [part, qn] }

/-- R88: a queue receives n units: its turn is charged and it returns to its own level. -/
def State.takeTurn (s : State) (part qn n : Nat) : State :=
  (s.modQueue part qn (fun q => { q with credit := q.credit - n })).startAging part qn

/-- R88: which queues have a unit to place: those begin to age, others have no level. -/
def State.ageQueues (s : State) : State :=
  s.queues.foldl (fun t e =>
    match t.headOf e.2, e.2.agingFrom with
    | some _, none => t.startAging (e.1 / 256) (e.1 % 256)
    | some _, some _ => t
    | none, none => t
    | none, some _ => t.modQueue (e.1 / 256) (e.1 % 256) (fun q => { q with level := 0, agingFrom := none })) s

/-- R88: QUEUE_AGING: a queue that has waited 2^20 cycles for a unit rises one level. Operands: the partition and the queue. -/
def execQueueAging (s : State) : Out :=
  let part := s.arg.nat 0
  let qn := s.arg.nat 1
  .next (match s.queue? part qn with
    | none => s
    | some q =>
      match q.agingFrom with
      | none => s
      | some t =>
        if q.level < 7 ∧ t + 2 ^ 20 * (q.level + 1) ≤ s.now ∧ (s.headOf q).isSome then
          ((s.modQueue part qn (fun w => { w with level := w.level + 1 })).plan (2 ^ 20) .queueAging { nats := [part, qn] }).kickDispatch
        else s)

/-- R88: a queue whose head launch has a unit to place: its partition and number, the launch, and its effective priority. -/
structure Head where
  part : Nat
  q : Nat
  launch : Nat
  l : Launch
  pri : Nat
  credit : Nat
  deriving DecidableEq, Repr

/-- R88, R90: the units that a queue receives when its head launch is served: all of a gang launch in one step. -/
def Launch.unitsAtOnce (l : Launch) : Nat := if l.pkt.gang && l.saved.isEmpty then l.pkt.hlim / l.pkt.hg else 1

/-- R88: what is left of a queue's turn for its head: nothing where its units do not fit in it. A gang launch of more units than
the weight takes a whole turn (log entry 129). -/
def Queue.turnFor (q : Queue) (L : Launch) : Nat := if min L.unitsAtOnce (max 1 q.wt) ≤ q.credit then q.credit else 0

/-- R88: the heads of all queues. -/
def State.heads (s : State) : List Head :=
  s.queues.filterMap (fun e => (s.headOf e.2).map (fun h => ⟨e.1 / 256, e.1 % 256, h.1, h.2, effective e.2 h.2, e.2.turnFor h.2⟩))

/-- R127: the launch's saved unit that is restored next. -/
def Launch.savedUnit (l : Launch) : Option (Nat × List SavedHart) :=
  match l.saved with
  | [] => none
  | h :: _ => some (h.unit, l.saved.filter (fun g => g.unit == h.unit))

/-- R127: the groups of a saved unit, as numbers of harts. -/
def groupSizes (hs : List SavedHart) : List Nat :=
  ((hs.map (·.member)).eraseDups).map (fun m => (hs.filter (fun h => h.member == m)).length)

/-- R89, R90, R127: the ways to place the next unit of a launch in clusters that have power, or in gated ones. -/
def State.fits (s : State) (l : Nat) (L : Launch) (powered : Bool) : List (List Place) :=
  match s.part? L.part with
  | none => []
  | some p =>
    let cls := s.clustersOf p powered
    let units := match L.savedUnit with
      | some (_, hs) => cls.filterMap (fun cl => s.fitUnit p ((groupSizes hs).foldl max 1) (groupSizes hs).length cl [])
      | none => cls.filterMap (fun cl => s.fitUnit p L.pkt.h L.pkt.g cl [])
    units.filter (s.mayPlace l L)

/-- R90: all units of a gang launch. -/
def State.gangFit (s : State) (l : Nat) (L : Launch) (powered : Bool) : Option (List (List Place)) :=
  match s.part? L.part with
  | none => none
  | some p =>
    let n := L.pkt.hlim / L.pkt.hg
    let us := s.fitUnits p L.pkt.h L.pkt.g n (if powered then s.clustersOf p true else s.clustersOf p true ++ s.clustersOf p false)
    if us.length = n ∧ s.mayPlace l L us.flatten = true then some us else none

/-- R90: a head that is placed whole: a gang launch, or a saved unit of one. -/
def Head.whole (h : Head) : Bool := h.l.pkt.gang

/-- R89, R90: a head fits now. -/
def State.fitsNow (s : State) (h : Head) : Bool :=
  if h.l.pkt.gang && h.l.saved.isEmpty then (s.gangFit h.launch h.l true).isSome else !(s.fits h.launch h.l true).isEmpty

/-- R90: a gang that heads its partition's queues and does not fit holds the partition's slots. -/
def State.heldFor (s : State) (hs : List Head) (part : Nat) : Bool :=
  let mine := hs.filter (fun h => h.part == part)
  let top := (mine.map (·.pri)).foldl max 0
  mine.any (fun h => h.pri == top && h.whole && !s.fitsNow h)

/-- R88 to R90: the heads that may be served now, with those of another round where none has a turn left. -/
def State.served (s : State) : List Head × Bool :=
  let hs := s.heads
  let cand := hs.filter (fun h => !s.heldFor hs h.part && s.fitsNow h)
  let top := (cand.map (·.pri)).foldl max 0
  let level := cand.filter (fun h => h.pri == top)
  let turn := level.filter (fun h => decide (0 < h.credit))
  if turn.isEmpty then (level, true) else (turn, false)

/-- R88: a new round: each queue of the level has its weight in units. -/
def State.newRound (s : State) (hs : List Head) : State :=
  hs.foldl (fun t h => t.modQueue h.part h.q (fun q => { q with credit := max 1 q.wt })) s

/-- R425: a head fits on a cluster that has no power: one is powered up. -/
def State.wakeFor (s : State) (h : Head) : State :=
  if s.pkg.overLimit then s
  else
    let us := if h.l.pkt.gang && h.l.saved.isEmpty then (match s.gangFit h.launch h.l false with
        | some v => v
        | none => [])
      else (s.fits h.launch h.l false).take 1
    let cls := (us.flatten.map (fun p => p.core / 8)).eraseDups
    cls.foldl (fun t cl =>
      if (t.cluster cl).powered || (t.cluster cl).waking then t
      else ((t.popLatency).modCluster cl (fun c => { c with waking := true })).plan (min t.latency 140000) .clusterWake { nats := [cl] }) s

/-- R89: an explicit placement is one the dispatcher could make. -/
def State.validUnit (s : State) (p : Part) (h g : Nat) (u : List Place) : Bool :=
  decide (u.length = g) && decide ((u.map (·.core)).eraseDups.length = g)
  && u.all (fun e => decide (e.slots.length = h) && decide (e.slots.eraseDups.length = h)
      && e.core / 8 == (u.map (fun f => f.core / 8)).headD 0
      && e.slots.all (fun k => (s.vacantSlots p e.core []).contains k) && (s.cluster (e.core / 8)).powered)

/-- R89: where a head's unit goes: the placement the environment names, or one of the device's choice (log entry 9). -/
def State.unitFor (s : State) (h : Head) : Option (List Place) :=
  let fits := s.fits h.launch h.l true
  match s.part? h.part, s.arg.places with
  | some p, u :: _ =>
    if s.validUnit p h.l.pkt.h h.l.pkt.g u && s.mayPlace h.launch h.l u then some u
    else fits[(s.free 16).toNat % max 1 fits.length]?
  | _, _ => fits[(s.free 16).toNat % max 1 fits.length]?

/-- R88 to R90: the head that is served, of those that may be. -/
def State.chosen (s : State) (hs : List Head) : Option Head :=
  match s.arg.nats with
  | l :: _ => hs.find? (fun h => h.launch == l)
  | [] => hs.head?

/-- R88, R89: PLACE_UNIT: the dispatchers serve the next queue. Operands, where the environment chooses: the launch, and
one unit of places. -/
def execPlaceUnit (s : State) : Out :=
  let s1 := s.ageQueues
  let sv := s1.served
  let s2 := if sv.2 then s1.newRound sv.1 else s1
  .next (match s2.chosen sv.1 with
    | none => if sv.1.isEmpty then s2.heads.foldl (fun t h => t.wakeFor h) s2 else s2
    | some h =>
      if !h.l.saved.isEmpty then s2.plan 0 .hartRestore { nats := [h.launch], places := s.arg.places }
      else if h.l.pkt.gang then s2.plan 0 .placeGang { nats := [h.launch], places := s.arg.places }
      else match s2.unitFor h with
      | none => s2
      | some u => (((s2.drawn).takeTurn h.part h.q 1).dispatchUnit h.launch u).kickDispatch)

/-- R90: units of an explicit placement of a gang. -/
def State.validGang (s : State) (L : Launch) (us : List (List Place)) : Bool :=
  match s.part? L.part with
  | none => false
  | some p => decide (us.length = L.pkt.hlim / L.pkt.hg) && us.all (s.validUnit p L.pkt.h L.pkt.g)
      && decide ((us.map placeKeys).flatten.eraseDups.length = L.pkt.hlim)

/-- R90: PLACE_GANG: a gang launch is placed as a whole. Operands: the launch and, where the environment chooses, its units. -/
def execPlaceGang (s : State) : Out :=
  let l := s.arg.nat 0
  .next (match s.served.1.find? (fun h => h.launch == l) with
    | none => s
    | some h =>
      if !h.l.pkt.gang || !h.l.saved.isEmpty then s
      else match (if s.validGang h.l s.arg.places then some s.arg.places else s.gangFit h.launch h.l true) with
      | none => s
      | some us => (us.foldl (fun t u => t.dispatchUnit l u) (s.takeTurn h.part h.q us.length)).kickDispatch)

/-- R99, R104: a launch that is done completes, once the dependences of an open launch are. -/
def State.completeLaunch (s : State) (l : Nat) (L : Launch) : State :=
  if !L.pkt.open_ then s.endLaunch l 0
  else
    match s.depWords L.part (s.launchSatp L) L.pkt L.pkt.ndep with
    | .wait w t => t.dispWaits L.part w l false
    | .fail t => t.endLaunch l 2
    | .ok ws t =>
      if ws.any (fun w => !wordDone w) then t
      else t.endLaunch l (if ws.any (fun w => wordStatus w != 0) then 5 else 0)

/-- R99: LAUNCH_COMPLETE: the dispatcher completes a launch whose work is done. Operand: the launch. -/
def execLaunchComplete (s : State) : Out :=
  let l := s.arg.nat 0
  .next (match s.launch? l with
    | none => s
    | some L =>
      if L.ended then (if L.notifyDone then s else s.writeWord l)
      else if s.launchDone l L then s.completeLaunch l L else s)

/-- The GPA of the access that a hart's access fault met, where its TLBs still give it; else 0. -/
def State.faultGpa (s : State) (k : Nat) (h : Hart) : Nat :=
  let va := h.csr.mtval
  if h.mpp == .M || satpMode h.csr.satp == 0 then va.toNat
  else match s.tlbFind (coreOf k) h.role.part (satpAsid h.csr.satp) va with
    | some (e, _) => e.gpa va
    | none => 0

/-- R99, R70: LAUNCH_FAIL: a launch fails with status 0x02. Operands: the launch and, where its firmware reports an access
fault (`ok`), the hart; `ok2` marks poison. -/
def execLaunchFail (s : State) : Out :=
  let l := s.arg.nat 0
  .next (match s.launch? l with
    | none => s
    | some L =>
      if L.ended then s
      else
        let k := s.arg.nat 1
        let s1 := match s.arg.ok, s.hart? k with
          | true, some h => s.report { cls := (if s.arg.ok2 then 3 else 9), part := some L.part, die := dieOf k, unit := 7, pos := coreOf k, slot := slotOf k, gva := h.csr.mtval.toNat, gpa := s.faultGpa k h }
          | _, _ => s
        s1.endLaunch l 2)

/-- R116: PROGRESS_INTERVAL: a launch's rate at the end of an interval. Operand: the launch. -/
def execProgressInterval (s : State) : Out :=
  let l := s.arg.nat 0
  .next (match s.launch? l with
    | none => s
    | some L =>
      if L.ended || !L.activated then s
      else (s.setLaunch l { L with rate := (L.rate + (L.exited - L.lastExited)) / 2, lastExited := L.exited }).plan interval
        .progressInterval { nats := [l] })

end Sys2Proof.Machine
end

