-- ==== Sys2Proof/Machine/Save.lean ====
section
/-! DEFINITION. Pre-emption and the context record: safe points (R403, R404), the boundary at which a hart is saved (R367,
R369), the save (R368, R154, R189), the records of a checkpoint (R126, R370 to R373) and restoration (R127, R368). -/

namespace Sys2Proof.Machine

open Sys2Proof

/-- R404: the binary search of a safe-point table: the entry of a pc among `n` from `lo`. -/
def State.searchSafe (s : State) (part : Nat) (satp tab pc : DWord) : Nat → Nat → Nat → Disp (Option (Nat × Nat))
  | 0, _, _ => .ok none s
  | fuel + 1, lo, n =>
    if n = 0 then .ok none s
    else
      let mid := lo + n / 2
      match s.dispRead part satp (tab + BitVec.ofNat 64 (16 + 8 * mid)) 8 with
      | .wait w t => .wait w t
      | .fail t => .fail t
      | .ok e t =>
        let at_ := bits e 63 2 * 4
        if at_ = pc.toNat then .ok (some (mid, e)) t
        else if at_ < pc.toNat then t.searchSafe part satp tab pc fuel (mid + 1) (n - n / 2 - 1)
        else t.searchSafe part satp tab pc fuel lo (n / 2)

/-- R53, R404: a pc is the second word of a pair: the word before it is a PX (log entry 153). -/
def State.secondWord (s : State) (part : Nat) (satp pc : DWord) : Bool :=
  match s.dispRead part satp (pc - 4) 4 with
  | .ok w _ => w % 128 == 0x5B && bits w 14 12 == 0
  | .wait _ _ => false
  | .fail _ => false

/-- R403, R404: the live masks of the safe point at a pc, if there is one. -/
def State.safePoint (s : State) (L : Launch) (pc : DWord) : Disp (Option Live) :=
  let satp := s.launchSatp L
  if L.safetab = 0 ∨ L.safetab.toNat % 8 ≠ 0 ∨ L.livetab.toNat % 16 ≠ 0 then .ok none s
  else (s.dispRead L.part satp L.safetab 4).bind fun n t =>
    (t.searchSafe L.part satp L.safetab pc 26 0 (min n (2 ^ 24))).bind fun r u =>
      match r with
      | none => .ok none u
      | some (i, e) =>
        if bits e 1 0 = 0 ∨ bits e 1 0 = 3 then .ok none u
        else (u.dispRead L.part satp (L.livetab + BitVec.ofNat 64 (16 * i)) 16).bind fun m v =>
          if bits m 127 108 ≠ 0 ∨ v.secondWord L.part satp pc = true then .ok none v
          else .ok (some ⟨bits m 31 0, bits m 95 32, bits m 107 96⟩) v

/-- R369: the hart's partition is sealed. -/
def State.sealedHart (s : State) (h : Hart) : Bool :=
  match s.part? h.role.part with
  | none => false
  | some p => p.sealed_

/-- R367, R369: the registers a pre-empted hart is saved with at the place where it stands; none: it is not saved here. -/
def State.saveMasks (s : State) (h : Hart) : Disp (Option Live) :=
  match s.launchOf h with
  | none => .ok none s
  | some L =>
    if h.run.preempt.isNone || h.run.saveFailed || h.priv == .M then .ok none s
    else if s.sealedHart h then .ok (some Live.all) s
    else
      let orAll := fun (r : Disp (Option Live)) => r.bind fun m t => .ok (some (m.getD Live.all)) t
      match h.run.wait with
      | some (.jyield _ c) => orAll (s.safePoint L c)
      | some _ => orAll (if h.priv == .U then s.safePoint L h.pc else .ok none s)
      | none => if h.run.graceOver then .ok (some Live.all) s else if h.priv == .U then s.safePoint L h.pc else .ok none s

/-- R315, R367: a pre-empted hart is saved here, or its lookup raises a record or fails its launch. -/
def State.savable (s : State) (h : Hart) : Bool :=
  if h.run.preempt.isNone then false
  else match s.saveMasks h with
  | .ok m _ => m.isSome
  | .wait w _ =>
    let r := w.record h.role.part false
    w.cause != 0 && !s.host.faults.any (fun f => f.part == r.part && f.cause == r.cause && f.page == r.page)
  | .fail _ => true

/-- R126: the lowest item of a hart's lanes, with those of its slice that no lane has claimed. -/
def Hart.lowItem (h : Hart) (L : Launch) : Option Nat :=
  let held := (allLanes.filter (fun l => h.lanes.occ.getLsbD l)).map (fun l => (h.lanes.item.getD l 0).toNat)
  let next := match h.role.slice with
    | none => []
    | some sl => allLanes.filterMap (fun l => L.sliceIndex sl l (h.role.steps.getD l 0))
  match held ++ next with
  | [] => none
  | a :: as => some (as.foldl min a)

/-- R126: the low mark of a launch: every lower index has exited. -/
def State.lowMark (s : State) (l : Nat) (L : Launch) : Nat :=
  if L.pkt.open_ then L.openLow
  else
    let base := if L.pkt.determ then min (L.slicesGiven * L.sliceLen) L.pkt.count else L.next
    (((s.hartsOf l).filterMap (fun e => e.2.lowItem L)) ++ L.saved.filterMap (·.low) ++ L.requeued ++ L.items.map (·.index)).foldl min base

/-- R103, R369: the harts that are saved with a hart, from those in hand: its unit in a gang and, in a sealed partition, every
resident hart of the cores. -/
def State.widen (s : State) (sealed_ : Bool) (ks : List Nat) : List Nat :=
  (s.harts.filter (fun e =>
    ks.contains e.1
    || ks.any (fun k => match s.hart? k with
      | none => false
      | some h => (match s.launchOf h with
          | none => false
          | some L => L.pkt.gang && h.role.launch == e.2.role.launch && h.role.unit == e.2.role.unit)
        || (sealed_ && coreOf k == coreOf e.1 && decide (e.1 < 32768))))).map (·.1)

/-- R103, R369: the group that is saved together. -/
def State.saveGroup (s : State) (k : Nat) : List Nat :=
  match s.hart? k with
  | none => []
  | some h => if s.sealedHart h then s.widen true (s.widen true (s.widen true [k])) else s.widen false [k]

/-- R103, R367: a hart stands, pre-empted, where its group is saved. -/
def Hart.stands (h : Hart) : Bool :=
  h.run.preempt.isSome && (match h.run.wait with
    | some (.swap 0 _ _ _) => true
    | some (.barrier _) => true
    | _ => false)

/-- R103, R367: a hart stands where its group is saved, its stores performed. -/
def State.standsReady (s : State) (k : Nat) : Bool :=
  match s.hart? k with
  | none => false
  | some h => h.stands && !s.storesHeld k

/-- R189: the jobs of a hart leave their entries: those that have not ended are stopped, of the others the status words
are kept; collected flags go to the hart (R286). -/
def State.stopJobs (s : State) (k : Nat) (h : Hart) : State :=
  let cl := clusterOf k
  let mine := fun (j : Job) => j.launch == h.role.launch && j.hidx == h.role.hidx && j.part == h.role.part
  let s0 := (s.cluster cl).jobs.foldl (fun t e => if mine e.2 && e.2.live then t.settleLate cl e.1 e.2 else t) s
  let js := ((s0.cluster cl).jobs.filter (fun e => mine e.2)).map (·.2)
  let flags := (js.filter (fun j => !j.live)).foldl (fun f j => f ||| j.flags) (h.run.lateFlags.foldl (fun f e => f ||| e.2) 0)
  let s1 := s0.modCluster cl (fun c => { c with jobs := Map.mapVal c.jobs (fun i j =>
    if mine j then { j with state := .done, launch := none, hidx := 2 ^ 16, flags := 0, order := if j.live then s.tag + 1 + i else j.order } else j) })
  let s2 := { s1 with tag := s1.tag + 64 }
  (s2.modHarts (fun i _ => i == k) (fun _ g => { g with
    dev := { g.dev with lflags := g.dev.lflags ||| flags }
    run := { g.run with
      lateFlags := []
      stoppedJobs := g.run.stoppedJobs ++ js.filter (·.live)
      doneJobs := g.run.doneJobs ++ (js.filter (fun j => !j.live)).map (fun j => (j.seq.toNat, j.word, j.scope.toNat)) } })).kick cl

/-- R175, R126: the speculative items of a hart are aborted. -/
def State.abortHeld (s : State) (k l : Nat) : State :=
  match s.launch? l with
  | none => s
  | some L => (L.items.filter (fun i => i.hart == k && !i.nonspec && (i.claimed || i.exited))).foldl (fun t i => t.abortItem l i.index) s

/-- R103, R367: the registers that a hart waiting at a barrier is saved with: those of the safe point at its `bar`, or
all of them where there is none or the lookup does not end. -/
def State.barrierMasks (s : State) (h : Hart) : Live :=
  match s.launchOf h with
  | none => Live.all
  | some L =>
    if s.sealedHart h || h.priv != .U then Live.all
    else match s.safePoint L h.pc with
    | .ok m _ => m.getD Live.all
    | .wait _ _ => Live.all
    | .fail _ => Live.all

/-- R368, steps 1 to 3: a hart's items, locks, stores, reservation and jobs; it then waits for an entry of the
thread-context cache. -/
def State.prepareHart (s : State) (k : Nat) : State :=
  match s.hart? k with
  | none => s
  | some h0 =>
    let s1 := match h0.role.launch with
      | none => s
      | some l => s.abortHeld k l
    let locks := s1.locksOf k
    let m := s1.barrierMasks h0
    let s2 := (s1.freeLocks k).released k scS
    let s3 := s2.modHarts (fun i _ => i == k) (fun _ h => { h with run := { h.run with
      resv := none, relock := locks, irq17 := none, lent := []
      wait := match h.run.wait with
        | some (.swap _ x v p) => some (.swap 1 x v p)
        | _ => some (.swap 1 m.x m.v m.p) } })
    match s3.hart? k with
    | none => s3
    | some h => s3.stopJobs k h

/-- R368, step 4: harts of a core that wait for an entry of the thread-context cache take the free ones. -/
def State.takeEntries (s : State) (core : Nat) : Nat → State
  | 0 => s
  | n + 1 =>
    if 4 ≤ (s.core core).tcc.length then s
    else match s.harts.find? (fun e => coreOf e.1 == core && (match e.2.run.wait with
        | some (.swap 1 _ _ _) => true
        | _ => false)) with
      | none => s
      | some (k, _) =>
        let s1 := s.modHarts (fun i _ => i == k) (fun _ h => { h with run := { h.run with wait := match h.run.wait with
          | some (.swap _ x v p) => some (.swap 2 x v p)
          | w => w } })
        (((s1.popLatency).modCore core (fun c => { c with tcc := c.tcc ++ [k] })).plan (272 + s1.latency) .contextSpill
          { nats := [core, k] }).takeEntries core n

/-- R373: the barriers of a unit with the arrivals by hart index, kept until its restoration; member 8 is the cluster's. -/
def State.keepBarriers (s : State) (k : Nat) : State :=
  match s.hart? k with
  | none => s
  | some h => match h.role.launch with
    | none => s
    | some l =>
      let unit := h.role.unit
      let hidxOf := fun (j : Nat) => match s.hart? j with
        | none => 2 ^ 16
        | some g => g.role.hidx
      let cores := ((s.groupHarts l unit none).map coreOf).eraseDups
      let mine := (cores.map (fun c => (s.core c).bar.filter (fun b => b.launch == l && b.unit == unit))).flatten
      let kb := ((s.cluster (clusterOf k)).bar.filter (fun b => b.launch == l && b.unit == unit)).map (fun b => { b with member := 8 })
      s.modLaunch l (fun L => if L.barriers.any (fun b => b.unit == unit) then L
        else { L with barriers := L.barriers ++ (mine ++ kb).map (fun b => { b with arrived := b.arrived.map hidxOf }) })

/-- R189, R368: a group is saved: steps 1 to 3 of each, the job entries that this frees, first to stopped jobs of restored harts,
and the cache entries that are free. -/
def State.prepareGroup (s : State) (ks : List Nat) : State :=
  let s0 := ks.foldl State.keepBarriers s
  let s1 := ((ks.map clusterOf).eraseDups).foldl (fun t cl => (t.reinstateAll cl 64).kick cl) (ks.foldl State.prepareHart s0)
  ((ks.map coreOf).eraseDups).foldl (fun t c =>
    let sealed_ := ks.any (fun k => coreOf k == c && (match t.hart? k with
      | none => false
      | some h => t.sealedHart h))
    ((if sealed_ then t.modCore c (fun v => { v with inboxSaved := true }) else t).takeEntries c 16)) s1

/-- R103, R367, R369: a group is saved once every member stands ready; a sealed core in an event of its own. -/
def State.trySave (s : State) (k : Nat) : State :=
  match s.hart? k with
  | none => s
  | some h =>
    let ks := s.saveGroup k
    if !ks.all s.standsReady then s
    else if s.sealedHart h then s.plan 0 .sealedCoreSave { nats := [coreOf k] }
    else s.prepareGroup ks

/-- R126, R127: a launch whose last hart has left is parked, unless it is done; in an ordered launch every uncommitted item that is
still speculative is aborted and requeued. -/
def State.parkIfDone (s : State) (l : Nat) : State :=
  match s.launch? l with
  | none => s
  | some L =>
    if (s.hartsOf l).isEmpty && L.stopping && !s.launchDone l L then
      let t := (L.items.filter (fun i => !i.nonspec && (i.claimed || i.exited))).foldl (fun u i => u.abortItem l i.index) s
      (t.modLaunch l (fun M => { M with parked := true, stopping := false, itembase := t.lowMark l M })).kickVacancy L.part
    else s

/-- R103, R367, R368: HART_SAVE: a pre-empted hart stands where it is saved, and waits there for its group; with a second operand,
the last hart of that launch has left. Operand: the hart. -/
def execHartSave (s : State) : Out :=
  let k := s.arg.nat 0
  .next (match s.arg.nats, s.hart? k with
    | [_, l], _ => s.parkIfDone l
    | _, none => s
    | _, some h =>
      if h.stands then s.trySave k
      else if !(h.atBoundary s.now || s.yielding k h) then s
      else match s.saveMasks h with
      | .ok none _ => s
      | .wait w t => match h.role.launch with
        | none => s
        | some l => t.dispWaits h.role.part w l false
      | .fail t => match h.role.launch with
        | none => s
        | some l => t.endLaunch l 2
      | .ok (some m) t =>
        let t1 := t.endWait k
        let t2 := t1.modHarts (fun j _ => j == k) (fun _ g =>
          let g1 := match h.run.wait with
            | some (.jyield id c) => { g with pc := c, run := { g.run with yielded := some (id, h.pc) } }
            | _ => g
          g1.park (.swap 0 m.x m.v m.p) s.now)
        t2.trySave k)

/-- R369: SEALED_CORE_SAVE: every pre-empted hart of a sealed core has reached its boundary. Operand: the core. -/
def execSealedCoreSave (s : State) : Out :=
  let core := s.arg.nat 0
  .next (match s.harts.find? (fun e => coreOf e.1 == core && s.standsReady e.1) with
    | none => s
    | some (k, _) =>
      let ks := s.saveGroup k
      if ks.all s.standsReady then s.prepareGroup ks else s)

/-- R367: SAFE_POINT_GRACE_EXPIRY: the grace of a request has passed. Operands: the hart, and the cycle of the request. -/
def execSafePointGraceExpiry (s : State) : Out :=
  let k := s.arg.nat 0
  .next (match s.hart? k with
    | none => s
    | some h => if h.run.preempt == some (s.arg.nat 1) && decide (s.arg.nat 1 + 8192 ≤ s.now) then
        s.setHart k { h with run := { h.run with graceOver := true } } else s)

/-- R369: the harts that a pre-emption of a launch requests: its own and, of a sealed partition, all that reside on their cores. -/
def State.toPreempt (s : State) (l : Nat) : List (Nat × Hart) :=
  let own := s.hartsOf l
  s.harts.filter (fun e => own.any (fun o => o.1 == e.1 || (s.sealedHart o.2 && coreOf o.1 == coreOf e.1 && decide (e.1 < 32768))))

/-- R367: a pre-emption request to every hart of a launch. -/
def State.preemptLaunch (s : State) (l : Nat) : State :=
  (s.toPreempt l).foldl (fun t e =>
    if e.2.run.preempt.isSome then t
    else (t.setHart e.1 { e.2 with run := { e.2.run with preempt := some s.now, graceOver := false } }).plan 8192
      .safePointGraceExpiry { nats := [e.1, s.now] }) s

/-- R371: the job entry of a stopped job; a lane operand's mask stands in place of its a-descriptor (log entry 22). -/
def Job.entry (j : Job) : Nat :=
  let common := [(0, 16, j.seq.toNat), (17, 1, b2n j.matrix), (18, 5, j.op), (24, 16, j.hidx), (128, 64, j.arg.toNat)]
  if j.matrix then
    packFields (common ++ [(64, 64, j.pos), (192, 128, match j.lane with
      | none => j.desc.toNat
      | some (m, _) => m), (320, 128, j.descB.toNat)])
  else packFields (common ++ [(64, 32, j.pos), (96, 32, j.posByte), (192, 512, j.desc.toNat)])

/-- R371: the entry of an ended job: its status word, with the scope of its acquire in `arg` (log entry 22). -/
def doneEntry (hidx : Nat) (d : Nat × DWord × Nat) : Nat :=
  packFields [(0, 16, d.1), (16, 1, 1), (24, 16, hidx), (64, 64, d.2.1.toNat), (128, 64, d.2.2)]

/-- R373: a barrier record; participants and arrivals by slot. -/
def barrierRecord (b : Barrier) (cluster : Bool) (cnt : Nat) (arr : List (Nat × Nat)) : Nat :=
  packFields [(0, 8, cnt), (8, 1, b2n cluster), (16, 32, b.phase.toNat), (48, 6, b.flags.toNat),
    (64, 128, (arr.map (fun e => 16 * (if cluster then e.1 else 0) + e.2)).eraseDups.foldl (fun a i => a + 2 ^ i) 0)]

/-- R355: a die that may hold lines of a partition accepts no requests, and is not rejected. -/
def State.waitsDie (s : State) (part : Nat) : Bool :=
  match s.part? part with
  | none => false
  | some p => p.rtab.any (fun r => r.v && r.cls != 2 && (upTo 8).any (fun d =>
      (r.cls == 1 || r.die == d) && !(s.die d).accept && decide ((s.die d).st ≠ 6)))

/-- R372: bytes written to a save area at GPAs; none where a memory error strikes. -/
def State.areaWrite (s : State) (part gpa : Nat) (bs : List Byte) : Option State :=
  (linePieces gpa bs.length).foldl (fun (r : Option State) q => r.bind fun t =>
    match t.dispWriteGpa part q.1 ((bs.drop (q.1 - gpa)).take q.2) with
    | .ok _ u => some u
    | .wait _ _ => none
    | .fail _ => none) (some s)

/-- Bytes of a save area, read by GPA; none where they cannot be. -/
def State.areaRead (s : State) (part gpa n : Nat) : Option (List Byte × State) :=
  (linePieces gpa n).foldl (fun (r : Option (List Byte × State)) q => r.bind fun a =>
    match a.2.readHome part q.1 q.2 with
    | .val b t => some (a.1 ++ b, t)
    | .no _ => none) (some ([], s))

/-- R371: the bytes of a record that a dead register would hold. -/
def deadByte (m : Live) (i : Nat) : Bool :=
  if i < 8 then false
  else if i < 256 then !m.x.testBit (i / 8)
  else if i < 304 then !m.p.testBit ((i - 256) / 4)
  else if i < 1024 then false
  else if i < 9216 then !m.v.testBit ((i - 1024) / 128)
  else false

/-- R370: bytes taken from an order's checkpoint area, and from its annex; their address. -/
def State.takeArea (s : State) (oid n : Nat) : Nat × State :=
  match Map.find s.orders oid with
  | none => (0, s)
  | some o => (orderCkarea o.raw + o.ckUsed, { s with orders := Map.put s.orders oid { o with ckUsed := o.ckUsed + n } })

def State.takeAnnex (s : State) (oid n : Nat) : Nat × State :=
  match Map.find s.orders oid with
  | none => (0, s)
  | some o => (orderCkarea o.raw + orderCksize o.raw * 4096 + o.annexUsed,
      { s with orders := Map.put s.orders oid { o with annexUsed := o.annexUsed + n } })

/-- R370: the annex of a unit's cluster section. -/
def State.unitAnnex (s : State) (oid l unit : Nat) : Nat × State :=
  match (s.launch? l).bind (fun L => L.sections.find? (fun e => e.1 == (4, unit, 0, 0))) with
  | some e => (e.2, s)
  | none =>
    let r := s.takeAnnex oid 16384
    (r.1, r.2.modLaunch l (fun L => { L with sections := L.sections ++ [((4, unit, 0, 0), r.1)] }))

/-- A section written and entered. -/
def State.addSection (s : State) (part l : Nat) (key : Nat × Nat × Nat × Nat) (addr : Nat) (bs : List Byte) : Option State :=
  (s.areaWrite part addr bs).map (fun t => t.modLaunch l (fun L => { L with sections := L.sections ++ [(key, addr)] }))

/-- R371: the job entries of a hart, written to its cluster section's annex. -/
def State.spillJobs (s : State) (oid l : Nat) (h : Hart) : Option State :=
  let entries := h.run.stoppedJobs.map (fun j => (j.order, j.entry)) ++ h.run.doneJobs.zipIdx.map (fun d => (2 ^ 64 + d.2, doneEntry h.role.hidx d.1))
  if entries.isEmpty then some s
  else
    let r := s.unitAnnex oid l h.role.unit
    entries.foldl (fun (t : Option State) e => t.bind fun u =>
      let n := match u.launch? l with
        | none => 0
        | some L => (L.sections.filter (fun x => x.1.1 == 2 && x.1.2.1 == h.role.unit)).length
      u.addSection h.role.part l (2, h.role.unit, h.role.hidx, e.1) (r.1 + 128 * n) (bytesOfNat e.2 128)) (some r.2)

/-- R126: the scratchpad banks of a core of a launch. -/
def State.spillBanks (s : State) (oid l core unit member part banks : Nat) : Option State :=
  ((upTo 32).filter (fun b => banks.testBit b)).foldl (fun (t : Option State) b => t.bind fun u =>
    let r := u.takeArea oid 16384
    r.2.addSection part l (0, unit, member, b) r.1 (u.spadRead core (16384 * b) 16384)) (some s)

/-- R126, R270: the accumulator tiles of a cluster. -/
def State.spillTiles (s : State) (oid l cl unit part tq : Nat) : Option State :=
  (upTo (min tq 16)).foldl (fun (t : Option State) i => t.bind fun u =>
    let r := u.takeArea oid 65536
    let tile := u.tile cl part i
    (r.2.addSection part l (1, unit, i, 0) r.1 ((upTo 16384).map (fun n => bytesOfNat (tile.get (n / 128) (n % 128)).toNat 4)).flatten).map
      (fun v => v.modLaunch l (fun L => { L with savedTiles := L.savedTiles ++ [(unit, i, { tile with t := [], free := none })] }))) (some s)

/-- R373: one barrier record of a unit, whose other members have been saved; `self` is the hart saved now. -/
def State.spillBarrier (s : State) (oid l unit member part : Nat) (cluster : Bool) (self : Nat × Nat × Nat) : Option State :=
  match (s.launch? l).bind (fun L => (L.barriers.find? (fun b => b.unit == unit && b.member == (if cluster then 8 else member))).map (fun b => (L, b))) with
  | some (L, v) =>
    let r := s.unitAnnex oid l unit
    let mine := (L.saved.filter (fun h => h.unit == unit)).map (fun h => (h.hidx, h.member, h.slot)) ++ [self]
    let ps := (mine.filter (fun h => cluster || h.2.1 == member)).length
    let place := fun (i : Nat) => match mine.find? (fun h => h.1 == i) with
      | none => (0, 16)
      | some h => h.2
    r.2.addSection part l (3, unit, member, b2n cluster) (r.1 + 16096 + 32 * (if cluster then 8 else member))
      (bytesOfNat (barrierRecord v cluster ps ((v.arrived.map place).filter (fun e => decide (e.2 < 16)))) 32)
  | none => some s

/-- R126, R368, R371 to R373: everything the record of a hart leaves in the save area: sections that no later hart writes,
job entries, extension and record, its first 8 bytes last. -/
def State.spillHart (s : State) (oid l k : Nat) (h : Hart) (L : Launch) (p : Part) (live : Live) : Option (State × SavedHart) :=
  let rest := (s.hartsOf l).filter (fun e => e.1 != k)
  let core := coreOf k
  let onCore := rest.any (fun e => coreOf e.1 == core)
  let onCoreAny := s.harts.any (fun e => e.1 != k && decide (e.1 < 32768) && coreOf e.1 == core)
  let ofMember := rest.any (fun e => e.2.role.unit == h.role.unit && e.2.role.member == h.role.member)
  let ofUnit := rest.any (fun e => e.2.role.unit == h.role.unit)
  let inCluster := rest.any (fun e => clusterOf e.1 == clusterOf k)
  let unit := h.role.unit
  let member := h.role.member
  let rec_ := s.takeArea oid 17408
  let ann := rec_.2.takeAnnex oid 128
  let s0 := ann.2
  (if onCore then some s0 else s0.spillBanks oid l core unit member L.part p.banks.toNat).bind fun s1 =>
  (if inCluster then some s1 else s1.spillTiles oid l (clusterOf k) unit L.part p.tq).bind fun s2 =>
  (if ofMember then some s2
    else s2.spillBarrier oid l unit member L.part false (h.role.hidx, member, slotOf k)).bind fun s3 =>
  (if ofUnit then some s3
    else s3.spillBarrier oid l unit 0 L.part true (h.role.hidx, member, slotOf k)).bind fun s4 =>
  (s4.spillJobs oid l h).bind fun s5 =>
    let njob := h.run.stoppedJobs.length + h.run.doneJobs.length
    let hd := bytesOfNat (h.header h.resume live) 1024 ++ h.bulk live
    (s5.areaRead L.part rec_.1 17408).bind fun old =>
    let bs := (hd.zip old.1).zipIdx.map (fun e => if deadByte live e.2 then e.1.2 else e.1.1)
    (old.2.areaWrite L.part ann.1 (bytesOfNat (h.extension h.run.relock njob s.now) 128)).bind fun s6 =>
    (s6.areaWrite L.part (rec_.1 + 8) (bs.drop 8)).bind fun s7 =>
    (s7.areaWrite L.part rec_.1 (bs.take 8)).map fun s8 =>
      (s8, { hidx := h.role.hidx, addr := rec_.1, annex := ann.1, unit := unit, member := member, liveX := live.x, liveV := live.v,
             liveP := live.p, slice := h.role.slice, steps := h.role.steps, parkedOn := h.run.yielded
             core := core, slot := slotOf k
             inbox := if p.sealed_ then (s.core core).inbox.filter (fun m => !onCoreAny || m.slot == slotOf k) else []
             low := h.lowItem L })

/-- R114, R370: the order whose checkpoint area takes a launch's records: the one that governs its queue, or the last of its
partition where that has been lifted since the save began. -/
def State.spillOrder (s : State) (L : Launch) : Option Nat :=
  match s.setterOf L.part L.q with
  | some o => some o
  | none => ((s.orders.filter (fun o => o.2.part == L.part && orderCksize o.2.raw != 0)).getLast?).map (·.1)

/-- R368, R372: CONTEXT_SPILL: the context save engine writes an entry of a core's thread-context cache to the checkpoint
area; a memory error leaves the hart stopped in its slot. Operands: the core and the hart. -/
def execContextSpill (s : State) : Out :=
  let core := s.arg.nat 0
  let k := s.arg.nat 1
  .next (match s.hart? k with
    | none => s
    | some h =>
      match h.run.wait, h.role.launch, s.launchOf h, s.part? h.role.part with
      | some (.swap 2 x v p), some l, some L, some pt =>
        if s.waitsDie L.part then s.plan 272 .contextSpill s.arg
        else
        let freed := fun (t : State) => (t.modCore core (fun c => { c with tcc := c.tcc.filter (· != k) })).takeEntries core 16
        (match (s.spillOrder L).bind (fun o => s.spillHart o l k h L pt ⟨x, v, p⟩) with
        | none =>
          (freed (s.setHart k { h with run := { h.run with saveFailed := true } })).report
            { cls := 6, part := some L.part, die := dieOf k, unit := 3, pos := core, slot := slotOf k }
        | some (t, sv) =>
          let t1 := (t.delHart k).modLaunch l (fun M => { M with
            saved := M.saved ++ [sv]
            items := M.items.map (fun i => match i.holder with
              | some (j, _) => if j = k then { i with holder := none } else i
              | none => i) })
          let t2 := t1.modCore core (fun c => { c with
            inbox := if pt.sealed_ then c.inbox.filter (fun m => !sv.inbox.contains m) else c.inbox
            bar := if (t1.hartsOf l).any (fun e => e.2.role.unit == h.role.unit && e.2.role.member == h.role.member) then c.bar
                   else c.bar.filter (fun b => !b.is l h.role.unit h.role.member) })
          let t3 := if (t2.hartsOf l).any (fun e => e.2.role.unit == h.role.unit) then t2
            else t2.modCluster (clusterOf k) (fun c => { c with bar := c.bar.filter (fun b => !b.is l h.role.unit 0) })
          (((freed t3).parkIfDone l).kickDispatch).restCluster (clusterOf k))
      | _, _, _, _ => s)

/-- R371: a job loaded from its entry, for a hart being restored. -/
def loadJob (h : Hart) (L : Launch) (order e : Nat) : Job :=
  let matrix := e.testBit 17
  let arg := bits e 191 128
  let base := h.newJob matrix (bits e 22 18)
  let laneForm := matrix && bits e 22 18 ≤ 1 && arg.testBit 11
  { base with
    seq := BitVec.ofNat 16 (bits e 15 0), hidx := bits e 39 24, arg := BitVec.ofNat 64 arg, fs := L.fmt
    desc := BitVec.ofNat 512 (if laneForm then 0 else if matrix then bits e 319 192 else bits e 703 192)
    descB := BitVec.ofNat 128 (bits e 447 320)
    scope := if matrix then BitVec.ofNat 3 (bits arg 14 12) else BitVec.ofNat 3 (bits e 642 640)
    notify := if matrix then arg.testBit 15 else e.testBit 643
    lane := if laneForm then some (bits e 223 192, bits arg 25 20) else none
    regs := if laneForm then h.lanes.v.filter (fun w => decide (bits arg 25 20 * 32 ≤ w.1)) else []
    pos := if matrix then bits e 127 64 else bits e 95 64
    posByte := if matrix then 0 else bits e 127 96
    order := order, stopped := true }

/-- R96, R105: the timestamp of an item a restored lane holds. -/
def Launch.laneTs (L : Launch) (index : Nat) : Nat :=
  match L.items.find? (fun i => i.index == index) with
  | some i => i.ts
  | none => if L.pkt.open_ then (match L.children.find? (fun c => c.index == index) with
      | some c => c.ts
      | none => 0) else if L.pkt.determ then 0 else L.tsOf index

/-- R371: a restored hart reads 0 in the registers that were dead. -/
def Hart.onlyLive (h : Hart) (x v p : Nat) : Hart :=
  { h with
    x := Vector.ofFn (fun (i : Fin 32) => if x.testBit i.val then h.x[i] else 0)
    lanes := { h.lanes with
      v := h.lanes.v.filter (fun e => v.testBit (e.1 / 32))
      p := Vector.ofFn (fun (i : Fin 12) => if p.testBit i.val then h.lanes.p[i] else 0) } }

/-- R368: the hart that a record stands for, in its new place; none: the record is not valid or cannot be read. -/
def State.loadSaved (s : State) (l k : Nat) (L : Launch) (q : Queue) (stopped : Bool) (sv : SavedHart) : Option State :=
  (s.areaRead L.part sv.addr 17408).bind fun a =>
  (a.2.areaRead L.part sv.annex 128).bind fun b =>
    let hd := natOfBytes (a.1.take 1024)
    let ext := natOfBytes b.1
    if !hd.testBit 0 then none
    else
      let role : Role := { launch := some l, part := L.part, hidx := sv.hidx, unit := sv.unit, member := sv.member, slice := sv.slice,
                           steps := sv.steps }
      let g := ((L.newHart q role stopped s.now).load hd ext (a.1.drop 1024) s.now).onlyLive sv.liveX sv.liveV sv.liveP
      let g1 := { g with
        lanes := { g.lanes with ts := Vector.ofFn (fun (i : Fin 32) =>
          if g.lanes.occ.getLsbD i.val then BitVec.ofNat 64 (L.laneTs (g.lanes.item[i]).toNat) else 0) } }
      let keys := L.sections.filter (fun e => e.1.1 == 2 && e.1.2.1 == sv.unit && e.1.2.2.1 == sv.hidx)
      (keys.foldl (fun (r : Option (List (Nat × Nat) × State)) e => r.bind fun c =>
        (c.2.areaRead L.part e.2 128).map fun d => (c.1 ++ [(e.1.2.2.2, natOfBytes d.1)], d.2)) (some ([], b.2))).map fun es =>
        let jobs := (es.1.filter (fun e => !e.2.testBit 16)).map (fun e => loadJob g1 L e.1 e.2)
        let done := (es.1.filter (fun e => e.2.testBit 16)).map (fun e => (bits e.2 15 0, BitVec.ofNat 64 (bits e.2 127 64), bits e.2 191 128))
        let locks := extLocks ext
        let lent := jobs.filterMap (fun j => j.lane.map (fun m => (m.2, j.span es.2, jobId j.seq 0)))
        let g2 := { g1 with run := { g1.run with
          relock := locks, stoppedJobs := jobs, doneJobs := done, lent := lent, yielded := sv.parkedOn, amber := stopped, busyUntil := s.now + 272 } }
        let g3 := if locks.isEmpty && jobs.isEmpty then g2 else g2.park .reinstate s.now
        let t0 := (es.2.setHart k g3).modCore sv.core (fun c => { c with inboxSaved := false })
        let t1 := t0.modCore (coreOf k) (fun c => { c with
          inbox := c.inbox ++ sv.inbox.map (fun m => if m.slot = sv.slot then { m with slot := slotOf k } else m), inboxSaved := false })
        let t2 := t1.modLaunch l (fun M => { M with
          saved := M.saved.filter (fun h => h.hidx != sv.hidx)
          items := M.items.map (fun i =>
            if i.nonspec && i.claimed && !i.exited && i.holder.isNone then
              (match allLanes.find? (fun n => g.lanes.occ.getLsbD n && (g.lanes.item.getD n 0).toNat == i.index) with
              | none => i
              | some n => { i with holder := some (k, n), core := coreOf k, hart := k })
            else i) })
        (t2.acquire (coreOf k) scC).relock k 5

/-- R126: the banks and tiles of a saved unit written back, its sections forgotten. -/
def State.loadSections (s : State) (l unit : Nat) (L : Launch) (u : List Place) : Option State :=
  let cl := match u with
    | [] => 0
    | p :: _ => p.core / 8
  let mine := L.sections.filter (fun e => e.1.2.1 == unit && decide (e.1.1 ≤ 1))
  (mine.foldl (fun (r : Option State) e => r.bind fun t =>
    (t.areaRead L.part e.2 (if e.1.1 = 0 then 16384 else 65536)).map fun d =>
      if e.1.1 = 0 then
        (match u[e.1.2.2.1]? with
        | none => d.2
        | some p => d.2.spadWrite p.core (16384 * e.1.2.2.2) d.1)
      else
        let blank := (L.savedTiles.find? (fun x => x.1 == unit && x.2.1 == e.1.2.2.1)).map (·.2.2)
        d.2.setTile cl L.part e.1.2.2.1 ((upTo 16384).foldl (fun tile n =>
          tile.set (n / 128) (n % 128) (BitVec.ofNat 32 (natOfBytes ((d.1.drop (4 * n)).take 4)))) (blank.getD Tile.blank))) (some s)).map
    (fun t => t.modLaunch l (fun M => { M with
      sections := M.sections.filter (fun e => e.1.2.1 != unit), savedTiles := M.savedTiles.filter (fun x => x.1 != unit) }))

/-- R373: the barriers of a unit installed from their records, before any member issues; arrivals are renumbered to the new places. -/
def State.loadBarriers (s : State) (l unit : Nat) (L : Launch) (hs : List SavedHart) (u : List Place) (place : Nat → Nat) : Option State :=
  let recs := L.sections.filter (fun e => e.1.1 == 3 && e.1.2.1 == unit)
  (recs.foldl (fun (r : Option State) e => r.bind fun t =>
    (t.areaRead L.part e.2 32).map fun d =>
      let v := natOfBytes d.1
      let cluster := v.testBit 8
      let member := e.1.2.2.1
      let came := hs.filter (fun h => if cluster then v.testBit (64 + 16 * h.member + h.slot) else h.member == member && v.testBit (64 + h.slot))
      let b : Barrier := { launch := l, unit := unit, member := if cluster then 0 else member, arrived := came.map (fun h => place h.hidx),
                           phase := BitVec.ofNat 32 (bits v 47 16), flags := BitVec.ofNat 6 (bits v 53 48) }
      match (if cluster then u.head? else u[member]?) with
      | none => d.2
      | some p => if cluster then d.2.modCluster (p.core / 8) (fun c => { c with bar := c.bar ++ [b] })
        else d.2.modCore p.core (fun c => { c with bar := c.bar ++ [b] })) (some s)).map
    (fun t => t.modLaunch l (fun M => { M with barriers := M.barriers.filter (fun b => b.unit != unit) }))

/-- R127: the slots of a saved unit's harts. -/
def savedPlaces (hs : List SavedHart) (u : List Place) : List (SavedHart × Nat) :=
  (((hs.map (·.member)).eraseDups.zip u).map (fun e =>
    ((hs.filter (fun h => h.member == e.1)).zip e.2.slots).map (fun x => (x.1, e.2.core * 16 + x.2)))).flatten

/-- R127, R368: HART_RESTORE: the next saved unit of a launch is restored as a whole; a record that is not valid fails the
launch. Operands: the launch and, where the environment chooses, one unit of places. -/
def execHartRestore (s : State) : Out :=
  let l := s.arg.nat 0
  .next (match s.served.1.find? (fun h => h.launch == l) with
    | none => s
    | some h =>
      match h.l.savedUnit, s.queue? h.part h.q, s.part? h.part with
      | some (unit, hs), some q, some p =>
        if s.waitsDie h.part then s
        else
        let sizes := groupSizes hs
        let pick := match s.arg.places with
          | u :: _ => if s.validUnit p (sizes.foldl max 1) sizes.length u && s.mayPlace l h.l u then some u
            else (s.fits l h.l true).head?
          | [] => (s.fits l h.l true).head?
        (match pick with
        | none => s
        | some u =>
          let places := savedPlaces hs u
          let s1 := s.takeTurn h.part h.q 1
          let done := ((s1.loadSections l unit h.l u).bind (fun t => t.loadBarriers l unit h.l hs u (fun i =>
              ((places.find? (fun e => e.1.hidx == i)).map (·.2)).getD (2 ^ 16)))).bind fun t =>
            places.foldl (fun (r : Option State) e => r.bind fun v => v.loadSaved l e.2 h.l q p.stopped e.1) (some t)
          match done with
          | none => s1.endLaunch l 2
          | some t =>
            let t1 := (places.map (fun e => clusterOf e.2)).eraseDups.foldl (fun v cl => v.reinstateAll cl 64) t
            (places.foldl (fun v e => (v.checkBarrier e.2 l unit e.1.member false true).checkBarrier e.2 l unit 0 true true) t1).kickDispatch)
      | _, _, _ => s)

/-- R127, R372: a hart that was pre-empted and is still in its slot goes on there, with its locks and jobs taken again where
its save was given up; one whose save has begun is saved and then restored. -/
def State.resumeInPlace (s : State) (k : Nat) : State :=
  match s.hart? k with
  | none => s
  | some h =>
    let g := { h with run := { h.run with preempt := none, graceOver := false, saveFailed := false } }
    if h.run.saveFailed then
      (((s.setHart k (if h.run.stoppedJobs.isEmpty && h.run.relock.isEmpty then g.unpark s.now else g.park .reinstate s.now)).relock k 5).reinstateAll
        (clusterOf k) 64)
    else match h.run.wait with
    | some (.swap 0 _ _ _) => s.setHart k (g.unpark s.now)
    | some (.swap _ _ _ _) => s
    | _ => s.setHart k g

end Sys2Proof.Machine
end

