-- ==== Sys2Proof/Machine/Issue.lean ====
section
/-! DEFINITION. What a step of the package does: the event that is due, the hart that issues (R92) and what it does at its
boundary (R365), or the next cycle. -/

namespace Sys2Proof.Machine

open Sys2Proof

/-- R198: a hart restored in a `jyield` park parks again, or continues at c where the job has ended; a pending cause ends the park
at once. -/
def State.parkAgain (s : State) (h : Hart) (y : DWord × DWord) : State :=
  let s1 := s.modCur (fun k => { k with run := { k.run with yielded := none } })
  let r := s1.jobStatus s1.cur h y.1
  if r.1 ≠ 0 then (s1.observe s1.cur y.1 r.2.1 r.2.2).modCur (fun k => k.retireTo h.pc)
  else
    let s2 := s1.modCur (fun k => { k with pc := y.2 })
    if h.causePending then s2 else s2.modCur (fun k => k.park (.jyield y.1 h.pc) s.now)

/-- R18, R379: instructions that need lanes, items, banks or engines, none of which a translation service core has. -/
def Instr.beyondScalar (i : Instr) : Bool :=
  match i with
  | .rfl _ => true
  | .spw _ _ _ => true
  | .enq _ _ _ => true
  | .barC => true
  | .barK => true
  | .xit => true
  | .lkbank _ => true
  | .ulkbank _ => true
  | .bcpy _ _ _ => true
  | .bfil _ _ _ => true
  | .bgat _ _ _ => true
  | .bsct _ _ _ => true
  | .jpoll _ _ => true
  | .jwait _ _ => true
  | .jyield _ _ => true
  | .px _ => true
  | .mma _ _ _ _ _ _ => true
  | .mmas _ _ _ _ _ _ _ => true
  | .mhad _ _ _ => true
  | .mqnt _ _ _ => true
  | .mcvt _ _ _ => true
  | .mzero _ _ => true
  | .mst _ _ _ => true
  | .mld _ _ _ => true
  | j => (Instr.guardOf j).isSome

/-- What comes next: an instruction or event that is executed in a state, or a state already reached. -/
inductive Act where
  | run (i : Instr) (s : State)
  | settled (s : State)

/-- An event about one hart. -/
def State.about (s : State) (nats : List Nat) : State := { s with arg := { nats := nats } }

/-- R375: an exception of the instruction itself, after the PC comparators. -/
def State.orHalt (s : State) (h : Hart) (i : Instr) (t : State) : Act :=
  match s.pcMatch h 0xFFFFFFFF [h.pc] with
  | some c => .settled (s.cmpHalt h c)
  | none => .run i t

/-- R26 to R28, R52, R375: the acting hart's instruction. -/
def State.fetchAct (s : State) (h : Hart) : Act :=
  match s.fetchPair h h.pc with
  | .park w s1 => .settled (s1.modCur (fun k => k.park w s.now))
  | .trap c v p s1 =>
    s1.orHalt h .instructionFetchFault { s1 with arg := { nats := [s.cur, c, v.toNat], ok := p } }
  | .ok w s1 =>
    match decode w.1 w.2 with
    | .error _ => s1.orHalt h .illegalInstruction (s1.about [s.cur, w.1.toNat])
    | .ok i =>
      if h.tsc && Instr.beyondScalar i then s1.orHalt h .illegalInstruction (s1.about [s.cur, w.1.toNat])
      else match i with
      | .px m => .run (.px m) s1
      | j => match s1.pcMatch h (h.lanesOf j) [h.pc] with
        | some c => .settled (s1.cmpHalt h c)
        | none => .run j s1

/-- R365: what a hart does in a wait: it is saved with its group, or it halts, takes an interrupt or is saved where that ends its
wait (R367, R376). -/
def State.waitAct (s : State) (h : Hart) : Act :=
  if h.stands then .run .hartSave (s.about [s.cur])
  else if h.haltPending && !h.causePending then .settled ((s.endWait s.cur).modCur Hart.halt)
  else if h.noticeReady && !h.causePending then .run .takeInterrupt (s.about [s.cur])
  else if s.savable h then .run .hartSave (s.about [s.cur])
  else .run .takeInterrupt (s.about [s.cur])

/-- R365: what a hart does at an instruction boundary. -/
def State.boundaryAct (s : State) (h : Hart) : Act :=
  if h.run.wait.isSome then s.waitAct h
  else match h.run.second, h.run.entering, h.run.yielded with
  | some i, _, _ => .run i s
  | none, some t, _ => .settled (s.enterLaneTrap h t)
  | none, none, some y => .settled (s.parkAgain h y)
  | none, none, none =>
    if h.run.barw then s.fetchAct h
    else if h.causePending then .run .takeAsyncCause (s.about [s.cur])
    else if h.haltPending then .settled (s.modCur Hart.halt)
    else if h.noticeReady then .run .takeInterrupt (s.about [s.cur])
    else if s.savable h then .run .hartSave (s.about [s.cur])
    else if h.otherIrq.isSome then .run .takeInterrupt (s.about [s.cur])
    else s.fetchAct h

/-- R78, R92, R103, R365, R367: a hart that does something on its cycle: at its boundary, in a wait that an interrupt or a
pre-emption ends, or where its whole group stands to be saved. -/
def State.due (s : State) (k : Nat) (h : Hart) : Bool :=
  (h.run.wait.isNone && !h.run.halted && decide (h.run.busyUntil ≤ s.now))
  || (s.yielding k h && ((!h.causePending && (h.noticeReady || h.otherIrq.isSome)) || s.savable h))
  || (h.stands && (s.saveGroup k).all s.standsReady)

/-- R18, R25, R92: the place of a hart in the order of a cycle, and whether the cycle is its slot's; a translation service
core issues on every cycle. -/
def turnOf (k : Nat) : Nat := if k < 32768 then coreOf k else 2048 + clusterOf k

def onCycle (k now : Nat) : Bool := decide (32768 ≤ k) || slotOf k == now % 16

/-- The hart that acts next in this cycle. -/
def State.nextHart (s : State) : Option (Nat × Hart) :=
  s.harts.foldl (fun best e =>
    if onCycle e.1 s.now && decide (s.nextCore ≤ turnOf e.1) && s.due e.1 e.2 then
      (match best with
        | none => some e
        | some b => if turnOf e.1 < turnOf b.1 then some e else some b)
    else best) none

/-- R78, R107: a hart whose `wfi` ends or whose hang counter exceeds its threshold, and the event. -/
def State.alert (s : State) : Option (Nat × Instr) :=
  match s.harts.find? (fun e => e.2.run.wait == some .wfi && e.2.wakes) with
  | some e => some (e.1, .wfiWake)
  | none => match s.harts.find? (fun e => e.2.hung s.now) with
    | some e => some (e.1, .hangDetect)
    | none => none

/-- R107: the cycle at which a hart's hang counter will exceed its threshold. -/
def Hart.hangAt (h : Hart) (now : Nat) : Option Nat :=
  if h.dev.hangthr = 0 ∨ h.run.lastBack.isNone ∨ h.hangStill then none
  else some (now + (h.dev.hangthr.toNat + 1 - h.hangNow now))

/-- The next cycle in which anything happens: the next event, hang or issue; the following cycle where nothing will. -/
def State.nextCycle (s : State) : Nat :=
  let evs := (s.schedule.map (·.at_)) ++ (s.harts.filterMap (fun e => e.2.hangAt s.now))
  let issues := (upTo 16).filterMap (fun d =>
    if s.harts.any (fun e => onCycle e.1 (s.now + 1 + d) && s.due e.1 { e.2 with run := { e.2.run with busyUntil := 0 } })
    then some (s.now + 1 + d) else none)
  match evs ++ issues with
  | [] => s.now + 1
  | c :: cs => max (s.now + 1) (cs.foldl min c)

/-- Time passes. -/
def State.tick (s : State) : State := { s with now := s.nextCycle, nextCore := 0 }

/-- Rows of the table that are events of the package. -/
def Instr.isEvent (i : Instr) : Bool := (encode i).isNone

/-- What the package does next. -/
def State.nextAct (s : State) : Act :=
  match s.alert with
  | some (k, i) => .run i (s.about [k])
  | none =>
    match s.nextHart with
    | some (k, h) => State.boundaryAct { s with cur := k, nextCore := turnOf k + 1 } h
    | none => .settled s.tick

/-- The first event that is due, and the state without it, its operands at hand. -/
def State.dueEvent (s : State) : Option (Instr × State) :=
  match s.schedule with
  | [] => none
  | p :: rest => if p.at_ ≤ s.now then some (p.ev, { s with schedule := rest, arg := p.args }) else none

end Sys2Proof.Machine
end

