-- ==== Sys2Proof/Machine/Image.lean ====
section
/-! DEFINITION. How bytes are placed where the next step fetches them: what the bring-up, a partition, its page and a
dispatched hart come to, in one state (log entry 20). -/

namespace Sys2Proof.Machine

open Sys2Proof

/-- A partition with nothing granted; `pfmask` as at package reset (log entry 142). -/
def Part.blank : Part :=
  { sealed_ := false, ltol := false, heat := false, prio := 0, slots := 0, banks := 0, jq := 0, jw := 0, tq := 0,
    lend := 0, mw := 0, minsl := 0, minhbm := 0, minbw := 0, sways := 0, s2root := 0, dsp := [], llcl := [], evq := 0, evn := 0,
    cores := 0, rtab := [], coreTable := [], pfmask := 0, winBase := none, exports := [], inForce := (0, 0, 0), keys := none,
    logHash := 0, nlog := 0, tmeas := 0, bkey := none, bhash := 0, nev := 0, stopped := false, heatAt := [],
    heatFree := none }

/-- Where the code is placed. -/
def codeAt : Nat := 0x10000

/-- The hart that executes next: in U, bare addresses, nothing pending. -/
def Hart.atCode (h : Hart) : Hart :=
  { h with
    pc := BitVec.ofNat 64 codeAt
    priv := .U
    tsc := false
    csr := { h.csr with satp := 0, mie := 0 }
    role := { h.role with part := 0 }
    run := { h.run with wait := none, aq := [], aqOvf := false, preempt := none, halted := false, amber := false, haltReq := false,
                        passCmp := true, walks := [], declined := [], failedPages := [], pair := none, entering := none,
                        busyUntil := 0, second := none } }

/-- Bytes of one line placed in memory at `codeAt`, in a partition of which core 0's slot of this cycle fetches next. -/
def State.withCode (s : State) (bs : List Byte) : State :=
  let k := s.now % 16
  let p := (s.part? 0).getD Part.blank
  let s1 := s.setPart 0 { p with rtab := ⟨0, 0, 0, 0, 0, true⟩ :: p.rtab }
  let s2 := s1.modDie 0 (fun d => { d with accept := true })
  let s3 := { s2 with mem := { s2.mem with llc := Map.put s2.mem.llc (lineKey 0 codeAt) ⟨setLineBytes 0 0 bs, true, false, false⟩ } }
  let s4 := s3.modCore 0 (fun c => { c with icache := Map.del c.icache (lineKey 0 codeAt) })
  { s4.setHart k (((s4.hart? k).getD Hart.reset).atCode) with
    cur := k, nextCore := 0, schedule := s4.schedule.filter (fun e => decide (s4.now < e.at_)) }

end Sys2Proof.Machine
end

