-- ==== Sys2Proof/Machine/Vacate.lean ====
section
/-! DEFINITION. Vacancy by deadline: vacate orders (R113, R114), the decision (R118 to R120), responses (R121), standing
orders (R122 to R125, R128), discard and lifting (R126, R127); the numbers of host messages (R395). -/

namespace Sys2Proof.Machine

open Sys2Proof

/-- R395: a message's number is the next one. -/
def State.numberOk (s : State) (n : BitVec 64) : Bool := n == s.host.hlast + 1

/-- R395, R396: a message is accepted, its effect still to come, and has its effect. -/
def State.acceptNum (s : State) (n : BitVec 64) : State := { s with host := { s.host with hlast := n, hbusy := n :: s.host.hbusy } }

def State.doneNum (s : State) (n : BitVec 64) : State := { s with host := { s.host with hbusy := s.host.hbusy.filter (· != n) } }

/-- R121: the fields of a response besides tag, t0 and `done`. -/
structure Response where
  status : Nat
  tearly : Nat := 0
  ncomp : Nat := 0
  nckpt : Nat := 0
  ndisc : Nat := 0
  nfail : Nat := 0
  tvac : Nat := 0
  ckused : Nat := 0
  final : Bool := true

/-- R121, R416: the response record is written to host memory. -/
def State.respond (s : State) (raw : BitVec 1024) (t0 : Nat) (r : Response) : State :=
  let v := packFields [(0, 8, r.status), (16, 16, orderTag raw), (32, 64, r.tearly), (96, 16, r.ncomp), (112, 16, r.nckpt),
    (128, 16, r.ndisc), (144, 16, r.nfail), (160, 64, t0), (224, 64, r.tvac), (288, 64, r.ckused), (511, 1, b2n r.final)]
  ({ s with mem := { s.mem with host := Memory.store s.mem.host (orderResp raw) (bytesOfNat v 64) } }).sendMsix 3

/-- R114: a malformed order. -/
def State.badOrder (s : State) (r : BitVec 1024) : Bool :=
  r.getLsbD 71 || bits r.toNat 127 88 != 0 || bits r.toNat 1022 624 != 0
  || orderResp r % 64 != 0 || orderCkarea r % 4096 != 0 || orderDlist r % 32 != 0
  || (s.part? (orderPart r)).isNone || (!orderQset r && orderQmask r != 0)

/-- R114: the registered queues that an order names. -/
def State.namedQueues (s : State) (part : Nat) (r : BitVec 1024) : List Nat :=
  (s.queues.filter (fun e => e.1 / 256 == part && orderNames r (e.1 % 256))).map (fun e => e.1 % 256)

/-- R118, R120: what is known of a queue when an order is decided; times in cycles. -/
structure QueueView where
  q : Nat
  live : List (Nat × Launch)
  /-- R128: the earlier deadline, in ticks, and the choice already in force. -/
  deadline : Nat
  /-- R128: the deadline is earlier than the one under which the choice was made. -/
  sooner : Bool
  was : Option Nat
  /-- 1.5 × E of the slowest launch; none: infinite. -/
  comp : Option Nat
  ck : Bool
  dc : Bool
  tck : Nat

def State.viewOf (s : State) (part T : Nat) (ls : List Nat) (q : Nat) : QueueView :=
  let live := s.activeOf part q
  let es := live.map (fun e => e.2.estimate)
  let must := live.any (fun e => e.2.pkt.mustc)
  { q := q, live := live
    deadline := (match s.governing part q with
      | none => T
      | some e => min T e.2.dline)
    sooner := (match s.governing part q with
      | none => false
      | some e => decide (T < e.2.dline))
    was := s.choiceOf part q
    comp := if es.any Option.isNone then none else some ((es.map (fun e => (3 * e.getD 0 + 1) / 2)).foldl max 0)
    ck := !must && live.all (fun e => e.2.pkt.ckpt)
    dc := !must && live.all (fun e => e.2.pkt.discard)
    tck := s.ckTimeOf ls (live.map (·.1)) none }

/-- R118, R128: the first feasible choice of a queue, with the entries of the discard list it uses. A choice of checkpoint or
discard stays; with an earlier deadline, a checkpoint still to be made is judged again (log entry 130). -/
def State.decide_ (s : State) (raw : BitVec 1024) (ls : List Nat) (used : Nat) (v : QueueView) : Option Nat × Nat :=
  let fits := fun (c : Nat) => decide (s.time + ticksOf c ≤ v.deadline)
  match v.was with
  | some 2 => (if v.live.isEmpty || !v.sooner || fits v.tck then some 2 else none, used)
  | some 3 => (some 3, used)
  | _ =>
    if v.live.isEmpty then (some 1, used)
    else if (match v.comp with
      | none => false
      | some c => fits c) then (some 1, used)
    else if v.ck && s.ckFeasible raw v.deadline ls (v.live.map (·.1)) none then (some 2, used)
    else if v.dc && s.discFeasible raw v.deadline used v.live.length then (some 3, used + v.live.length)
    else (none, used)

/-- R120: the cheapest permitted choice of a queue, in cycles; none: infinite. -/
def QueueView.cheapest (v : QueueView) : Option Nat :=
  if v.live.isEmpty then some 0
  else match ((match v.comp with
    | some c => [c]
    | none => []) ++ (if v.ck then [v.tck] else []) ++ (if v.dc then [quiesce] else [])) with
  | [] => none
  | c :: cs => some (cs.foldl min c)

/-- R120: the earliest feasible deadline of a refused order: all ones where only a size stands in the way, or a queue has no
finite choice. -/
def State.tearly (s : State) (vs : List (QueueView × Option Nat)) : Nat :=
  let all := 2 ^ 64 - 1
  let costs := vs.map (fun v => v.1.cheapest)
  let timely := vs.all (fun v => v.2.isSome || (v.1.ck && decide (s.time + ticksOf v.1.tck ≤ v.1.deadline))
    || (v.1.dc && decide (s.time + ticksOf quiesce ≤ v.1.deadline)))
  if timely || costs.any Option.isNone then all
  else s.time + ticksOf ((costs.map (fun c => c.getD 0)).foldl max 0)

/-- R125: interrupt 17 on the harts of a queue's launches. -/
def State.giveNotice (s : State) (part q choice T : Nat) : State :=
  let v := BitVec.ofNat 64 (q + choice * 2 ^ 8 + T % 2 ^ 48 * 2 ^ 16)
  let ls := (s.activeOf part q).map (·.1)
  s.modHarts (fun _ h => match h.role.launch with
    | none => false
    | some l => ls.contains l) (fun _ h => { h with run := { h.run with irq17 := some v } })

/-- R125, R128: a choice in force for a queue, in every order that names it. -/
def State.setChoice (s : State) (part q choice setter : Nat) : State :=
  { s with orders := Map.mapVal s.orders (fun _ o =>
    if o.part = part then { o with choices := o.choices.map (fun c => if c.1 = q then (q, choice, setter) else c) } else o) }

/-- R126: a launch is discarded: one entry of the discard list, and its end with status 0x03. -/
def State.discard (s : State) (oid l : Nat) (L : Launch) : State :=
  match Map.find s.orders oid with
  | none => s.endLaunch l 3
  | some o =>
    let e := packFields [(0, 64, L.lnch.toNat), (64, 48, s.lowMark l L), (128, 48, L.high), (192, 48, L.exited)]
    let s1 := match s.dispWriteGpa L.part (orderDlist o.raw + 32 * o.ndisc) (bytesOfNat e 32) with
      | .ok _ t => t
      | .wait _ t => t
      | .fail t => t
    let s2 := { s1 with orders := Map.put s1.orders oid { o with ndisc := o.ndisc + 1 } }
    s2.endLaunch l 3

/-- R122: a choice takes effect on a queue. -/
def State.applyChoice (s : State) (part q choice setter T : Nat) : State :=
  let s1 := (s.setChoice part q choice setter).giveNotice part q choice T
  let ls := s1.activeOf part q
  match choice with
  | 2 => ls.foldl (fun t e => ((t.modLaunch e.1 (fun L => { L with stopping := true })).preemptLaunch e.1).parkIfDone e.1) s1
  | 3 => ls.foldl (fun t e => t.discard setter e.1 e.2) s1
  | _ => s1

/-- R118, R122: an order is accepted: its choices take effect, its checks and its deadline are planned. -/
def State.stand (s : State) (raw : BitVec 1024) (part T hnum : Nat) (own : Bool) (vs : List (QueueView × Nat)) : State :=
  let s1 := s.nextTag
  let oid := s1.tag
  let o : Order := { raw := raw, part := part, dline := T, hnum := hnum, t0 := s.time, choices := vs.map (fun v => (v.1.q, v.2, oid)),
                     own := own, nfail := 0, ndisc := 0, ckUsed := 0, annexUsed := 0, done := false }
  let s2 := { s1 with orders := Map.put s1.orders oid o }
  let s3 := vs.foldl (fun t v =>
    match v.1.was with
    | none => t.applyChoice part v.1.q v.2 oid v.1.deadline
    | some c =>
      if c = v.2 then
        (match s.setterOf part v.1.q with
        | some old => (t.setChoice part v.1.q c old).giveNotice part v.1.q c v.1.deadline
        | none => t)
      else t.applyChoice part v.1.q v.2 oid v.1.deadline) s2
  let due := T * 7 - quiesce - s.now
  ((s3.plan interval .vacateCheck { nats := [oid] }).plan due .vacateDeadlineFail { nats := [oid] }).plan 0 .vacancyReached { nats := [oid] }

/-- R118 to R120: the views of an order's queues, with the choice of each. -/
def State.decideAll (s : State) (raw : BitVec 1024) (part T : Nat) : List (QueueView × Option Nat) :=
  let qs := s.namedQueues part raw
  let ls := s.ckLaunches part (fun q => qs.contains q)
  (qs.foldl (fun (acc : List (QueueView × Option Nat) × Nat) q =>
    let v := s.viewOf part T ls q
    let d := s.decide_ raw ls acc.2 v
    (acc.1 ++ [(v, d.1)], d.2)) ([], 0)).1

/-- R113, R392, R354: an order of the device's own, never refused: a queue with no feasible choice runs to its deadline. -/
def State.ownOrder (s : State) (raw : BitVec 1024) : State :=
  let part := orderPart raw
  let T := orderDline raw
  s.stand raw part T 0 true ((s.decideAll raw part T).map (fun v => (v.1, v.2.getD 1)))

/-- R12, R420: a message arrives: port 1 and the management channel are lost with B-die 1, rejected or without power; BAR 0 appears
at step 6 of the bring-up. -/
def State.arrives (s : State) (m : Msg) : Bool :=
  (m.mgmt || (decide (6 ≤ s.host.stage) && s.host.stage != 15)) && (!(m.mgmt || m.port == 1) || !((s.die 9).st == 6 || (s.die 9).st == 0))

/-- R127: a partition's queues that now stand under no order: their launches go on. -/
def State.freeQueues (s : State) (part : Nat) (qs : List Nat) : State :=
  let free := qs.filter (fun q => !s.orders.any (fun o => o.2.part == part && o.2.choices.any (fun c => c.1 == q)))
  let ls := (s.launches.filter (fun e => e.2.part == part && free.contains e.2.q && !e.2.ended)).map (·.1)
  let s2 := ls.foldl (fun t l =>
    let t1 := t.modLaunch l (fun L => { L with parked := false, stopping := false })
    (t1.hartsOf l).foldl (fun u e => u.resumeInPlace e.1) t1) s
  ((s2.kickActivate part).kickDispatch).kickVacancy part

/-- R127: the queues that a lifting order names stand under no order. -/
def State.liftQueues (s : State) (part : Nat) (qs : List Nat) : State :=
  ({ s with orders := Map.mapVal s.orders (fun _ o =>
      if o.part = part then { o with choices := o.choices.filter (fun c => !qs.contains c.1) } else o) } : State).freeQueues part qs

/-- R354: one order is lifted; its queues may stand under others. -/
def State.liftOrder (s : State) (oid : Nat) : State :=
  match Map.find s.orders oid with
  | none => s
  | some o => ({ s with orders := Map.put s.orders oid { o with choices := [] } } : State).freeQueues o.part (o.choices.map (·.1))

/-- R114 to R128, R395: an order reaches the doorbell; one that is not `valid`, and the counts of a first response: log entry 145. -/
def State.postOrder (s : State) (raw : BitVec 1024) (hnum : BitVec 64) : State :=
  let t0 := s.time
  if !raw.getLsbD 1023 then s
  else if !s.numberOk hnum then s.respond raw t0 { status := 6 }
  else
    let s1 := s.acceptNum hnum
    if s1.badOrder raw then (s1.respond raw t0 { status := 3 }).doneNum hnum
    else if orderDline raw = 0 then
      ((s1.liftQueues (orderPart raw) (s1.namedQueues (orderPart raw) raw)).respond raw t0 { status := 1 }).doneNum hnum
    else
      let vs := s1.decideAll raw (orderPart raw) (orderDline raw)
      if vs.any (fun v => v.2.isNone) then (s1.respond raw t0 { status := 2, tearly := s1.tearly vs }).doneNum hnum
      else (s1.respond raw t0 { status := 1, final := false }).stand raw (orderPart raw) (orderDline raw) hnum.toNat false
        (vs.map (fun v => (v.1, v.2.getD 1)))

/-- R118: VACATE_ORDER. Operands: `data` holds the order, `msg` its number. -/
def execVacateOrder (s : State) : Out :=
  .next (if s.arrives s.arg.msg then s.postOrder s.arg.data s.arg.msg.hnum else s)

/-- R127: VACATE_LIFT: an order whose `dline` is 0. Operands as VACATE_ORDER. -/
def execVacateLift (s : State) : Out :=
  .next (if orderDline s.arg.data = 0 ∧ s.arrives s.arg.msg = true then s.postOrder s.arg.data s.arg.msg.hnum else s)

/-- R123: the fallback of a queue under completion, with its time in cycles. -/
def State.fallback (s : State) (o : Order) (q : Nat) : Option (Nat × Nat) :=
  let live := s.activeOf o.part q
  let ls := s.ckLaunches o.part (fun _ => false)
  if live.any (fun e => e.2.pkt.mustc) then none
  else if live.all (fun e => e.2.pkt.ckpt) && orderCksize o.raw != 0 && decide (s.ckTotal ls none ≤ orderCksize o.raw * 4096) then
    some (2, s.ckTimeOf ls (live.map (·.1)) none)
  else if live.all (fun e => e.2.pkt.discard) && decide (o.ndisc + live.length ≤ orderDcap o.raw) then some (3, quiesce)
  else none

/-- R123: the queues of an order that it governs and that still run to completion. -/
def State.running (s : State) (oid : Nat) (o : Order) : List Nat :=
  (o.choices.filter (fun c => c.2.1 == 1 && ((s.governing o.part c.1).map (·.1)) == some oid && !(s.activeOf o.part c.1).isEmpty)).map (·.1)

/-- R123: VACATE_CHECK: the end of an interval under an order. Operand: the order. -/
def execVacateCheck (s : State) : Out :=
  let oid := s.arg.nat 0
  .next (match Map.find s.orders oid with
    | none => s
    | some o =>
      if o.done then s
      else
        let s1 := (s.running oid o).foldl (fun t q =>
          match t.fallback o q with
          | none => t
          | some (c, fb) => if o.dline * 7 < t.now + interval + fb then t.applyChoice o.part q c oid o.dline else t) s
        s1.plan interval .vacateCheck { nats := [oid] })

/-- R124, R372: VACATE_DEADLINE_FAIL: at T − Q launches without a fallback, or with a save that failed, are failed. Operand:
the order. -/
def execVacateDeadlineFail (s : State) : Out :=
  let oid := s.arg.nat 0
  .next (match Map.find s.orders oid with
    | none => s
    | some o =>
      if o.done || decide (s.now < o.dline * 7 - quiesce) then s
      else
        let mine := (o.choices.filter (fun c => ((s.governing o.part c.1).map (·.1)) == some oid)).map (·.1)
        let late := (mine.map (fun q => (s.activeOf o.part q).filter (fun e =>
          (s.choiceOf o.part q == some 1 && (s.fallback o q).isNone)
          || (s.hartsOf e.1).any (fun h => h.2.run.saveFailed)))).flatten
        let s1 := late.foldl (fun t e =>
          let t1 := { t with orders := Map.mapVal t.orders (fun _ p =>
            if p.part == o.part && p.choices.any (fun c => c.1 == e.2.q) then { p with nfail := p.nfail + 1 } else p) }
          t1.endLaunch e.1 2) s
        s1.kickVacancy o.part)

/-- R354: a die whose reset waits for its vacate orders is reset once the last of them is done. -/
def State.lastLift (s : State) (oid : Nat) : State :=
  s.dies.foldl (fun t d =>
    if d.2.lifts.contains oid && d.2.lifts.all (fun i => match Map.find s.orders i with
        | none => true
        | some o => o.done)
    then t.plan 0 .dieReset { nats := [d.1, 0, 0, 1, d.2.nres] } else t) s

/-- R121: VACANCY_REACHED: the queues of an order are vacant, and the response is final; so it is where all have been
lifted (log entry 146). Operand: the order. -/
def execVacancyReached (s : State) : Out :=
  let oid := s.arg.nat 0
  .next (match Map.find s.orders oid with
    | none => s
    | some o =>
      if o.done || o.choices.any (fun c => !(s.activeOf o.part c.1).isEmpty) then s
      else
        let n := fun (c : Nat) => (o.choices.filter (fun e => e.2.1 == c)).length
        let s1 := { s with orders := Map.put s.orders oid { o with done := true } }
        if o.own then s1.lastLift oid
        else (s1.respond o.raw o.t0 { status := (if o.nfail = 0 then 4 else 5), ncomp := n 1, nckpt := n 2, ndisc := n 3, nfail := o.nfail,
                                      tvac := s.time, ckused := o.ckUsed }).doneNum (BitVec.ofNat 64 o.hnum))

end Sys2Proof.Machine
end

