-- ==== Sys2Proof/Machine/Walks.lean ====
section
/-! DEFINITION. The translation service core (R306 to R309), write-backs (R312, R327), and what follows the host's answer to a
fault record (R315, R318, R328, R342); controls of page heat (R321). -/

namespace Sys2Proof.Machine

open Sys2Proof

/-- R307, R320: queued misses whose walk may start. -/
def State.walkable (s : State) (cl : Nat) : List TscEntry :=
  (s.cluster cl).tscq.filter (fun e => e.result.isNone && !s.host.faults.any (fun f => f.walks.contains (cl, e.id)))

/-- R307: walks that have not returned. -/
def State.walking (s : State) (cl : Nat) : Nat := ((s.cluster cl).tscq.filter (fun e => e.result.isSome)).length

/-- The core and slot that a requester's record names. -/
def State.requesterAt (s : State) (q : Nat) : Nat × Nat :=
  if q < 65536 then (coreOf q, slotOf q)
  else match s.job? ((q - 65536) / 64) ((q - 65536) % 64) with
    | none => (0, 0)
    | some j => (coreOf j.hart, slotOf j.hart)

/-- R306, R308, R309: a walk is finished: the leaf enters the TLBs unless an invalidation cancels it, the result returns. -/
def State.walkDone (s : State) (cl : Nat) (e : TscEntry) (r : WalkResult) : State :=
  let s1 := match r with
    | .leaf f => if s.cancelled f then s else s.tlbFill cl f
    | _ => s
  let s2 := s1.modCluster cl (fun c => { c with tscq := c.tscq.map (fun o => if o.id = e.id then { o with result := some r } else o) })
  (s2.popLatency).plan s2.latency .walkResultReturn { nats := [cl, e.id] }

/-- R307, R320: the TSC starts the next walk. -/
def State.startWalk (s : State) (cl : Nat) : State :=
  let ws := s.walkable cl
  if ws.isEmpty || decide (16 ≤ s.walking cl) then s
  else
    let a := s.serveKey cl 4 0 64 ((ws.map (·.part)).eraseDups)
    match ws.find? (fun e => e.part == a.1) with
    | none => a.2
    | some e =>
      match a.2.walk e with
      | .res r t => t.walkDone cl e r
      | .held c gpa t =>
        if c = 0 then t
        else
          let who := t.requesterAt (e.requesters.headD 0)
          t.raiseRecord { blankRec e.part (if c = 2 then 2 else 3) gpa 4 who.1 who.2 e.gva e.store with
            reng := if c = 2 then 0 else e.eng, walks := [(cl, e.id)] }

/-- R306, R307: TSC_WALK: the TSC starts a walk, first-in first-out within a partition and round-robin across partitions.
Operand: the cluster. -/
def execTscWalk (s : State) : Out := .next (s.startWalk (s.arg.nat 0))

/-- R308: a requester of an entry has its result, and goes on where no other entry has it as a requester. The
result serves its one access whatever fence completes meanwhile (log entry 143). -/
def State.giveWalk (s : State) (cl : Nat) (e : TscEntry) (r : WalkResult) (q : Nat) : State :=
  let more := (s.cluster cl).tscq.any (fun o => o.requesters.contains q)
  if q < 65536 then
    s.modHarts (fun k h => k == q && h.run.wait == some .walk && h.role.part == e.part && h.csr.satp == e.satp) (fun _ h =>
      let g := { h with run := { h.run with walks := (e.vpn, r) :: h.run.walks } }
      if more then g else g.unpark s.now)
  else
    let c := (q - 65536) / 64
    let slot := (q - 65536) % 64
    match s.job? c slot with
    | none => s
    | some j =>
      if j.live && j.part == e.part && j.satp == e.satp then
        (let t := s.modJob c slot (fun o => { o with walks := (e.vpn, r) :: o.walks })
        if more then t else t.resumeJob c slot)
      else s

/-- R307: requesters whose miss can be granted now try again. -/
def State.retryMisses (s : State) (cl : Nat) : State :=
  let s1 := s.modHarts (fun k h => clusterOf k == cl && h.run.wait == some .queueFull && s.tscGrants cl h.role.part) (fun _ h => h.unpark s.now)
  let ready := fun (w : Nat × Nat) => match s1.job? ((w.1 - 65536) / 64) ((w.1 - 65536) % 64) with
    | none => true
    | some j => s1.tscGrants cl j.part
  let go := (s1.cluster cl).tscWait.filter ready
  go.foldl (fun t w => t.resumeJob ((w.1 - 65536) / 64) ((w.1 - 65536) % 64))
    (s1.modCluster cl (fun c => { c with tscWait := c.tscWait.filter (fun w => !ready w) }))

/-- R309: invalidations that waited for the walks of a partition may be complete. -/
def State.retryFences (s : State) (part : Nat) : State :=
  s.clusters.foldl (fun t c => (c.2.sfences.filter (fun f => f.2.2.1 == part)).foldl (fun u f =>
    (u.popLatency).plan u.latency .sfenceVmaComplete { nats := [f.2.1, f.1] }) t) s

/-- R308: WALK_RESULT_RETURN: a finished walk answers every requester that joined it. Operands: the cluster and the entry. -/
def execWalkResultReturn (s : State) : Out :=
  let cl := s.arg.nat 0
  .next (match (s.cluster cl).tscq.find? (fun e => e.id == s.arg.nat 1) with
    | none => s
    | some e => match e.result with
      | none => s
      | some r =>
        let s1 := s.modCluster cl (fun c => { c with tscq := c.tscq.filter (fun o => o.id != e.id) })
        let s2 := e.requesters.foldl (fun t q => t.giveWalk cl e r q) s1
        let s3 := (s2.retryMisses cl).retryFences e.part
        if (s3.walkable cl).isEmpty then s3 else (s3.popLatency).plan s3.latency .tscWalk { nats := [cl] })

/-- R317: records held back are posted while the ring and the limit permit. -/
def State.postDeferred (s : State) : State := s.plan 0 .faultRecordDeferred {}

/-- R317: FAULT_RECORD_DEFERRED: the oldest record held back is posted. -/
def execFaultRecordDeferred (s : State) : Out :=
  let t := s.postFault
  .next (if t.host.fnext = s.host.fnext then s else if t.host.faults.any (fun f => !f.posted) then t.postDeferred else t)

/-- R415, R317: FCONS_WRITE: the host has consumed fault records. Operand: the value. -/
def execFconsWrite (s : State) : Out :=
  .next ({ s with host := { s.host with fcons := BitVec.ofNat 64 (s.arg.nat 0) } } : State).postDeferred

/-- R327: a dirty line is kept at its home slice on a record of its page. -/
def State.holdLine (s : State) (part gpa cause : Nat) (l : LlcLine) : State :=
  let s1 := { s with mem := { s.mem with llc := Map.put s.mem.llc (lineKey part gpa) { l with held := true } } }
  s1.raiseRecord (blankRec part cause gpa 5 (s.home part gpa) 0 0 true)

/-- R312, R327: a standing dirty line is written back, or held: where its page has no room, `nfull`
counts the record that is raised. -/
def State.writeBackLine (s : State) (part gpa : Nat) (l : LlcLine) : State :=
  match s.part? part with
  | none => s
  | some p => match p.range? gpa with
    | none => s
    | some r =>
      match s.writeBack p part gpa l.data l.poison with
      | some t => { t with mem := { t.mem with llc := Map.put t.mem.llc (lineKey part gpa) { l with dirty := false, held := false } } }
      | none =>
        match s.stage2 p r gpa with
        | .packed d _ =>
          let s1 := if s.pageFull part gpa then s else { s with mem := { s.mem with pool := bumpWord s.mem.pool (d + 808) (· + 1) } }
          (s1.heatCount (stackOf (s.stage2 p r gpa) (homeOf r gpa)) part gpa).holdLine part gpa 2 l
        | place => (s.heatCount (stackOf place (homeOf r gpa)) part gpa).holdLine part gpa (if place = .absent then 1 else 4) l

/-- A line that stands at its home slice. -/
def State.llc? (s : State) (part gpa : Nat) : Option LlcLine := Map.find s.mem.llc (lineKey part gpa)

/-- A line no longer stands at its home slice. -/
def State.dropLine (s : State) (part gpa : Nat) : State :=
  { s with mem := { s.mem with llc := Map.del s.mem.llc (lineKey part gpa) } }

/-- R312, R327: LINE_WRITEBACK: a home slice writes a line back; with `ok`, it gives the line up. A request to a page with a
cause-2 record waits (R328). Operands: the partition and the GPA. -/
def execLineWriteback (s : State) : Out :=
  let part := s.arg.nat 0
  let gpa := s.arg.nat 1 / 128 * 128
  .next (match s.llc? part gpa with
    | none => s
    | some l =>
      if l.held || (l.dirty && s.pageFull part gpa) then s
      else
        let s1 := if l.dirty then s.writeBackLine part gpa l else s
        match s1.llc? part gpa with
        | none => s1
        | some m => if s.arg.ok && !m.dirty then s1.dropLine part gpa else s1)

/-- R327: held lines of a record's page. -/
def State.heldLines (s : State) (f : FaultRec) : List (Nat × LlcLine) :=
  s.mem.llc.filter (fun e => e.2.held && keyPart e.1 == f.part && recPage f.cause (keyGpa e.1) == f.page)

/-- R394: a data-loss event of a partition. -/
def State.dataLoss (s : State) (part gpa : Nat) : State :=
  s.report { cls := 4, part := some part, die := s.home part gpa / 64, unit := 1, addr := s.hpaOf part gpa, gpa := gpa }

/-- R315: how a record ends. -/
inductive RecordEnd where
  | replay | decline
  /-- R342. -/
  | integrity
  deriving DecidableEq, Repr

/-- R315: the 4 KiB pages of a record. -/
def FaultRec.pages (f : FaultRec) : List Nat := if f.cause = 2 then (upTo 16).map (fun i => f.page * 16 + i) else [f.page]

/-- R140, R315, R339: what a hart's waiting instruction meets when it executes again, once every record it waits for has ended;
and a job's waiting chunk. -/
def State.answerHart (s : State) (f : FaultRec) (how : RecordEnd) (k : Nat) : State :=
  s.modHarts (fun j h => j == k && h.run.wait == some .replay && h.role.part == f.part) (fun _ h =>
    let g := match how with
      | .replay => h
      | .decline => { h with run := { h.run with declined := f.pages ++ h.run.declined } }
      | .integrity => { h with run := { h.run with failedPages := f.pages ++ h.run.failedPages } }
    if s.host.faults.any (fun o => o.harts.contains k) then g else g.unpark s.now)

def State.answerJob (s : State) (f : FaultRec) (how : RecordEnd) (n : Nat) : State :=
  let cl := n / 64
  let slot := n % 64
  match s.job? cl slot with
  | none => s
  | some j =>
    if j.state != .faultWait || j.part != f.part then s
    else (s.modJob cl slot (fun o => match how with
      | .replay => o
      | .decline => { o with declined := f.pages ++ o.declined }
      | .integrity => { o with failedPages := f.pages ++ o.failedPages })).resumeJob cl slot

/-- R315, R320: a held walk starts again from the root, or ends. -/
def State.answerWalk (s : State) (how : RecordEnd) (w : Nat × Nat) : State :=
  match (s.cluster w.1).tscq.find? (fun e => e.id == w.2) with
  | none => s
  | some e =>
    match how with
    | .replay => (s.popLatency).plan s.latency .tscWalk { nats := [w.1] }
    | .decline => s.walkDone w.1 e .fault
    | .integrity => s.walkDone w.1 e .integrity

/-- R111: a held child record that is discarded voids its child. -/
def State.dropChild (s : State) (f : Flight) : State :=
  match f.child with
  | none => s
  | some (t, n) => s.voidChild t n

/-- R174: commits that waited for held writes are tried again. -/
def State.kickCommits (s : State) : State := s.launches.foldl (fun t e => if e.2.pkt.ordered && !e.2.items.isEmpty then t.planCommit e.1 else t) s

/-- R315, R339: the held stores of a core to a record's page are performed, or discarded with their launches failed, or
discarded with cause 28 pending. -/
def State.answerStores (s : State) (f : FaultRec) (how : RecordEnd) (core : Nat) : State :=
  let mine := fun (w : Flight) => w.waitsAt && w.owner == f.part && recPage f.cause w.addr == f.page
  let fs := (s.core core).flight.filter mine
  let s1 := s.modCore core (fun c => { c with flight := c.flight.filter (fun w => !mine w) })
  let s2 := fs.foldl (fun t w =>
    match how with
    | .replay => t.goHeld w
    | .decline => (match w.launch with
        | none => t.dropChild w
        | some l => (t.dropChild w).plan 0 .launchFail { nats := [l] })
    | .integrity => (t.dropChild w).pushCause w.hart 28 w.gva) s1
  (fs.foldl (fun t w =>
    let u := (t.wakeRelease w.hart).trySave w.hart
    match w.launch with
    | none => u
    | some l => (u.checkComplete l).plan 0 .launchComplete { nats := [l] }) s2).kickCommits

/-- R315: a dispatcher reads again, or its launch ends with status 0x02. -/
def State.answerDispatcher (s : State) (how : RecordEnd) (w : Nat) : State :=
  if w < 2 ^ 32 then
    (match how with
    | .replay => ((s.plan 0 .launchComplete { nats := [w] }).kickDispatch).planCommit w
    | _ => match s.launch? w with
      | none => s
      | some L => if L.ended then s.wordLost w else s.endLaunch w 2)
  else
    let part := (w - 2 ^ 32) / 256
    let qn := (w - 2 ^ 32) % 256
    match how with
    | .replay => (s.plan 0 .packetCheck { nats := [part, qn] }).plan 0 .launchActivate { nats := [part, qn] }
    | _ => match s.queue? part qn with
      | none => s
      | some q => s.failPacket part qn q

/-- R315, R328: the held lines of a record's page are written, or discarded with a data-loss event. -/
def State.answerLines (s : State) (f : FaultRec) (how : RecordEnd) : State :=
  let ls := s.heldLines f
  match how with
  | .replay => ls.foldl (fun t e => t.writeBackLine f.part (keyGpa e.1) e.2) s
  | _ =>
    let s1 := ls.foldl (fun t e => t.dropLine f.part (keyGpa e.1)) s
    match ls with
    | [] => s1
    | e :: _ => s1.dataLoss f.part (keyGpa e.1)

/-- R315, R318, R342: a record ends, and what waited for it goes on. -/
def State.endRecord (s : State) (f : FaultRec) (how : RecordEnd) : State :=
  let s0 : State := { s with host := { s.host with faults := s.host.faults.filter (fun g => g.tag != f.tag) } }
  let s1 := s0.answerLines f how
  let s2 := f.harts.foldl (fun t k => t.answerHart f how k) s1
  let s3 := f.jobs.foldl (fun t n => t.answerJob f how n) s2
  let s4 := f.walks.foldl (fun t w => t.answerWalk how w) s3
  let s5 := ((f.stores.map (·.1)).eraseDups).foldl (fun t c => t.answerStores f how c) s4
  let s6 := f.launches.foldl (fun t w => t.answerDispatcher how w) s5
  s6.postDeferred

/-- R318: the host's answer to an outstanding record; any other is ignored. -/
def State.answerFault (s : State) (seq : Nat) (how : RecordEnd) : State :=
  match s.host.faults.find? (fun f => f.posted && f.seq == seq) with
  | none => s
  | some f => s.endRecord f how

/-- R321: HEAT_CONTROL_WRITE: a controller's `hk` and `hen`, with its counter at 0; or (`ok`) the package's `hn`, after which
the heat arrays are undefined (R322). Operands: the stack and the value. -/
def execHeatControlWrite (s : State) : Out :=
  let v := s.arg.nat 1
  .next (if s.arg.ok then
    ({ s with
      pkg := { s.pkg with hn := BitVec.ofNat 5 v }
      parts := Map.mapVal s.parts (fun _ p => { p with heatAt := [], heatFree := some s.fresh }) } : State).drawn
  else { s with ctrls := Map.put s.ctrls (s.arg.nat 0) { hk := BitVec.ofNat 4 v, hen := v.testBit 4, c := 0 } })

end Sys2Proof.Machine
end

