-- ==== Sys2Proof/Machine/Mailbox.lean ====
section
/-! DEFINITION. The mailbox (R395, R414, R415) and its commands on rings, queues, windows, stage 2, pages, exports, tables and
package registers (R314, R340 to R342, R396, R405, R408, R413, R415 to R418, R422 to R424). -/

namespace Sys2Proof.Machine

open Sys2Proof

/-- R415: the response of a command, with MSI-X vector 0 (R416). -/
def State.mboxAnswer (s : State) (status : Nat) (val : BitVec 64) : State :=
  ({ s with host := { s.host with mboxNum := s.arg.msg.hnum, mboxStatus := status, mboxVal := val, mboxDone := true } } : State).sendMsix 0

/-- What a command comes to: its status, its result, and the package after it. -/
structure Done where
  status : Nat
  val : BitVec 64 := 0
  st : State

/-- R395, R415, R420, R423: a command is executed. `early`: before `ready` too; `mgmt`: over the management channel too; `any`:
whatever its number (R396). -/
def State.command (s : State) (early mgmt any : Bool) (run : State → Done) : State :=
  let m := s.arg.msg
  if s.pkg.off || !s.arrives m then s
  else if m.mgmt then
    let r := if mgmt then run s else ⟨1, 0, s⟩
    { r.st with host := { r.st.host with mgmtReply := (r.status, r.val) } }
  else if !any && !s.numberOk m.hnum then s.mboxAnswer 8 0
  else
    let s1 := s.acceptNum m.hnum
    let r := if m.rsv ≠ 0 then ⟨1, 0, s1⟩ else if !s.host.ready && !early then ⟨3, 0, s1⟩ else run s1
    (r.st.mboxAnswer r.status r.val).doneNum m.hnum

/-- R415: the operands that the command's map lays out. -/
def State.opnd (s : State) : Nat := s.arg.data.toNat % 2 ^ 384

/-- R415: MAILBOX_UNKNOWN_CODE: a code that names no command. -/
def execMailboxUnknownCode (s : State) : Out := .next (s.command false false false (fun t => ⟨1, 0, t⟩))

/-- R415: the records kept until the error ring is registered. -/
def State.flushErrors (s : State) : State :=
  match s.ring? 1 with
  | none => s
  | some (base, k) =>
    s.host.errors.foldl (fun t r => (t.ringWrite base k (bits r.toNat 191 128) r).sendMsix 2) { s with host := { s.host with errors := [] } }

/-- R415: RING_SET: registers the fault ring or the error ring. -/
def execRingSet (s : State) : Out :=
  .next (s.command false false false (fun t =>
    let o := t.opnd
    let k := bits o 5 1
    let hpa := bits o 127 64
    if k < 6 ∨ 16 < k ∨ hpa % (64 * 2 ^ k) ≠ 0 then ⟨1, 0, t⟩
    else
      let u : State := { t with host := { t.host with rings := Map.put t.host.rings (bits o 0 0) (hpa, k) } }
      ⟨0, 0, if o.testBit 0 then u.flushErrors else u.postDeferred⟩))

/-- R413: a range of GPAs lies in a partition's window. -/
def Part.inWindow (p : Part) (gpa n : Nat) : Bool :=
  match p.winBase with
  | none => false
  | some b => decide (b ≤ gpa ∧ gpa + n ≤ b + 2 ^ 36)

/-- R417: a queue as its registration makes it. -/
def queueOf (o : Nat) : Queue :=
  { ring := bits o 127 64, n := bits o 20 16, prod := bits o 191 128, cons := bits o 255 192, prio := bits o 23 21, wt := bits o 31 24,
    sup := bits o 319 256, stvec := 0, satp := 0, sscratch := 0, supOk := true, consIdx := 0, launches := [], checked := false,
    credit := 0, level := 0, agingFrom := none }

/-- R417: a reserved bit, a field out of range or an address misaligned. -/
def badQreg (o : Nat) : Bool :=
  let q := queueOf o
  bits o 7 6 != 0 || bits o 63 32 != 0 || bits o 383 320 != 0 || decide (q.n < 4) || decide (16 < q.n) || q.wt == 0
  || q.ring % (64 * 2 ^ q.n) != 0 || q.prod % 8 != 0 || q.cons % 8 != 0 || q.sup % 32 != 0

/-- An index word written by the device, where its line can stand. -/
def State.writeIndex (s : State) (part gpa : Nat) : State :=
  match s.dispWriteGpa part gpa (bytesOfNat 0 8) with
  | .ok _ t => t
  | .wait _ _ => s
  | .fail _ => s

/-- R417: QREG: both index words are 0, and the queue is live. -/
def execQreg (s : State) : Out :=
  .next (s.command false false false (fun t =>
    let o := t.opnd
    let part := bits o 5 0
    let qn := bits o 15 8
    let q := queueOf o
    if badQreg o then ⟨1, 0, t⟩
    else match t.part? part with
    | none => ⟨4, 0, t⟩
    | some p =>
      if p.sealed_ && !(p.inWindow q.ring (64 * 2 ^ q.n) && p.inWindow q.prod 8 && p.inWindow q.cons 8) then ⟨1, 0, t⟩
      else if (t.queue? part qn).isSome then ⟨2, 0, t⟩
      else
        let u := (t.writeIndex part q.prod).writeIndex part q.cons
        ⟨0, 0, ({ u with queues := Map.put u.queues (queueKey part qn) q } : State).plan 0 .packetCheck { nats := [part, qn] }⟩))

/-- R418: a queue holds an active or parked launch. -/
def State.queueBusy (s : State) (q : Queue) : Bool :=
  q.launches.any (fun l => match s.launch? l with
    | none => false
    | some L => !L.ended)

/-- R418: QDROP; a producer word that cannot be read counts as work. -/
def execQdrop (s : State) : Out :=
  .next (s.command false false false (fun t =>
    let part := bits t.opnd 5 0
    let qn := bits t.opnd 15 8
    match t.queue? part qn with
    | none => ⟨4, 0, t⟩
    | some q =>
      match t.dispReadGpa part q.prod 8 with
      | .ok v u =>
        if v ≠ q.consIdx % 2 ^ 64 ∨ u.queueBusy q then ⟨3, 0, u⟩
        else ⟨0, 0, { u with queues := Map.del u.queues (queueKey part qn) }⟩
      | .wait _ _ => ⟨3, 0, t⟩
      | .fail _ => ⟨3, 0, t⟩))

/-- R413: WIN_SET. -/
def execWinSet (s : State) : Out :=
  .next (s.command false false false (fun t =>
    let part := bits t.opnd 5 0
    match t.part? part with
    | none => ⟨4, 0, t⟩
    | some p => ⟨0, 0, t.setPart part { p with winBase := some (bits t.opnd 79 64 * 2 ^ 36) }⟩))

/-- R318: FLT_ANS_REPLAY: the command FLT-ANS with action 1; with an action that is neither replay nor decline it does nothing. -/
def execFltAnsReplay (s : State) : Out :=
  let action := bits s.opnd 65 64
  .next (if action = 2 then s
  else s.command false false false (fun t => ⟨0, 0, if action = 1 then t.answerFault (bits t.opnd 63 0) .replay else t⟩))

/-- R318: FLT_ANS_DECLINE: the command FLT-ANS with action 2. -/
def execFltAnsDecline (s : State) : Out :=
  .next (if bits s.opnd 65 64 = 2 then s.command false false false (fun t => ⟨0, 0, t.answerFault (bits t.opnd 63 0) .decline⟩) else s)

/-- R314: the table that holds the entry of a level, where every non-leaf entry above it is valid. -/
def s2Table (hbm : Memory) (sl : Bool) (gpa : Nat) : Nat → Nat → Nat → Option Nat
  | 0, table, _ => some table
  | n + 1, table, level =>
    let e := Memory.num hbm (table + 8 * s2Index gpa level) 8
    if s2Bad e level false none sl || !e.testBit 0 || e.testBit 1 then none
    else s2Table hbm sl gpa n (bits e 51 12 * 4096) (level + 1)

/-- The standing lines of a partition in a range of GPAs. -/
def State.linesIn (s : State) (part base size : Nat) : Map LlcLine :=
  s.mem.llc.filter (fun e => keyPart e.1 == part && decide (base ≤ keyGpa e.1 ∧ keyGpa e.1 < base + size))

/-- R314: every line of a range is recalled: dirty ones are written back, held ones stay. -/
def State.recall (s : State) (part base size : Nat) : State :=
  let s1 := (s.linesIn part base size).foldl (fun t e =>
    if e.2.held then t
    else
      let u := if e.2.dirty then t.writeBackLine part (keyGpa e.1) e.2 else t
      match u.llc? part (keyGpa e.1) with
      | none => u
      | some m => if m.held then u else u.dropLine part (keyGpa e.1)) s
  { s1 with cores := Map.mapVal s1.cores (fun _ c => { c with
      hdc := c.hdc.filter (fun e => !(keyPart e.1 == part && decide (base ≤ keyGpa e.1 ∧ keyGpa e.1 < base + size))) }) }

/-- R314, R328: held lines of a range are written into the new placement. -/
def State.writeHeld (s : State) (part base size : Nat) : State :=
  ((s.linesIn part base size).filter (fun e => e.2.held)).foldl (fun t e => t.writeBackLine part (keyGpa e.1) e.2) s

/-- R314: S2_SET: a leaf of a range is replaced after the recall of the range's lines. -/
def execS2Set (s : State) : Out :=
  .next (s.command false false false (fun t =>
    let o := t.opnd
    let part := bits o 5 0
    let sz := bits o 7 6
    let gpa := bits o 127 64
    let leaf := bits o 191 128
    let size := match sz with
      | 0 => 2 ^ 12
      | 1 => 2 ^ 16
      | _ => 2 ^ 21
    if bits o 63 8 ≠ 0 ∨ bits o 383 192 ≠ 0 ∨ sz = 3 ∨ gpa % size ≠ 0 ∨ 2 ^ 52 ≤ gpa ∨ leaf.testBit 1 = false ∨ bits leaf 11 5 ≠ 0
        ∨ bits leaf 63 52 ≠ 0 then ⟨1, 0, t⟩
    else match t.part? part with
    | none => ⟨4, 0, t⟩
    | some p =>
      let level := if sz = 2 then 3 else 4
      match s2Table t.mem.hbm p.sealed_ gpa level p.s2root 0 with
      | none => ⟨1, 0, t⟩
      | some table =>
        let u := t.recall part gpa size
        let v := if sz = 1 then leaf ||| 16 else leaf
        let hbm := (upTo (if sz = 1 then 16 else 1)).foldl (fun m i =>
          Memory.store m (table + 8 * (s2Index gpa level + i)) (bytesOfNat v 8)) u.mem.hbm
        let w : State := { u with mem := { u.mem with hbm := hbm } }
        ⟨0, 0, if leaf.testBit 0 then w.writeHeld part gpa size else w⟩))

/-- R341: the key of a page's version. -/
def pageKey (part gpa : Nat) : Nat := part * 2 ^ 40 + gpa / 4096

/-- R312, R314: the leaf of a GPA is not resident: the walk ends at a leaf, or at an entry above it, whose `v` is 0. -/
def s2Away (hbm : Memory) (gpa : Nat) : Nat → Nat → Nat → Bool
  | 0, _, _ => false
  | fuel + 1, table, level =>
    let e := Memory.num hbm (table + 8 * s2Index gpa level) 8
    !e.testBit 0 || (!e.testBit 1 && level != 4 && s2Away hbm gpa fuel (bits e 51 12 * 4096) (level + 1))

/-- R340: the line MACs, the GPA and V of an export record: what its page MAC covers. -/
def exportCovered (gpa version : Nat) (macs : List (BitVec 48)) : List Byte :=
  (macs.map (fun m => bytesOfNat m.toNat 6)).flatten ++ bytesOfNat gpa 8 ++ bytesOfNat version 8

/-- R340: the export record of a page, from its 32 lines' ciphertext. -/
def exportRecord (k : SealKeys) (gpa version : Nat) (lines : List (BitVec 1024)) : List Byte :=
  let covered := exportCovered gpa version (lines.zipIdx.map (fun l => lineMac k.mac (gpa / 128 + l.2) l.1))
  (lines.map (fun l => bytesOfNat l.toNat 128)).flatten ++ covered ++ bytesOfNat (pageMac k.mac covered).toNat 8 ++ bytesOfNat 0 40

/-- The ciphertext lines of a page at an HPA. -/
def Mem.pageLines (m : Mem) (hpa : Nat) : List (BitVec 1024) := (upTo 32).map (fun i => Memory.line m.hbm (hpa + 128 * i))

/-- R338, R340: line i of a page at an HPA is a sealed one whose MAC holds. -/
def Mem.lineHolds (m : Mem) (k : SealKeys) (gpa hpa i : Nat) : Bool :=
  m.macAt (hbmLine hpa + i) == lineMac k.mac (gpa / 128 + i) (Memory.line m.hbm (hpa + 128 * i))

/-- R339, R344: what is reported of a page that cannot be exported: an ECC error of a line before a MAC that fails (log entry 135). -/
def State.exportFailed (s : State) (part gpa hpa : Nat) : State :=
  match (upTo 32).find? (fun i => s.mem.poisonAt.contains (hbmLine hpa + i)) with
  | some i => s.report { cls := 3, part := some part, die := hpa / 2 ^ 37, unit := 0, addr := hpa + 128 * i, gpa := gpa + 128 * i }
  | none => s.report { cls := 1, part := some part, die := hpa / 2 ^ 37, unit := 0, addr := hpa, gpa := gpa }

/-- R340, R341: PAGE_OUT. Operands: the partition, the page's GPA, its old HPA, and the buffer. -/
def execPageOut (s : State) : Out :=
  let part := s.arg.nat 0
  let gpa := s.arg.nat 1
  let hpa := s.arg.nat 2
  .next (s.command false false false (fun t =>
    match t.part? part with
    | none => ⟨4, 0, t⟩
    | some p => match p.keys with
      | none => ⟨1, 0, t⟩
      | some k =>
        if gpa % 4096 != 0 || hpa % 4096 != 0 || t.reservedHpa hpa then ⟨1, 0, t⟩
        else if !s2Away t.mem.hbm gpa 5 p.s2root 0 then ⟨3, 0, t⟩
        else if (upTo 32).any (fun i => t.mem.poisonAt.contains (hbmLine hpa + i)) then ⟨6, 0, t.exportFailed part gpa hpa⟩
        else if !(upTo 32).all (t.mem.lineHolds k gpa hpa) then ⟨6, 0, t.exportFailed part gpa hpa⟩
        else
          let key := pageKey part gpa
          let v := Map.findD t.mem.versions key 0 + 1
          if (Map.find t.mem.versions key).isNone && decide (2 ^ 24 ≤ t.mem.versions.length) then ⟨7, 0, t⟩
          else ⟨0, 0, { t with mem := { t.mem with
            versions := Map.put t.mem.versions key v
            host := Memory.store t.mem.host (t.arg.nat 3) (exportRecord k gpa v (t.mem.pageLines hpa)) } }⟩))

/-- R342: every record of a page ends in an integrity failure; the host and the tenant are told. -/
def State.failPage (s : State) (part gpa : Nat) : State :=
  let fs := s.host.faults.filter (fun f => f.part == part && f.pages.contains (gpa / 4096))
  (fs.foldl (fun t f => t.endRecord f .integrity) s).report { cls := 2, part := some part, die := s.home part gpa / 64, gpa := gpa }

/-- R340, R343: the export record at a place of host memory is one of a page: its GPA, its version, its page MAC and each line MAC. -/
def Mem.importable (m : Mem) (k : SealKeys) (gpa version buf : Nat) : Bool :=
  let covered := Memory.bytes m.host (buf + 4096) 208
  Memory.num m.host (buf + 4288) 8 == gpa && Memory.num m.host (buf + 4296) 8 == version
  && Memory.num m.host (buf + 4304) 8 == (pageMac k.mac covered).toNat
  && (upTo 32).all (fun i => Memory.num m.host (buf + 4096 + 6 * i) 6
      == (lineMac k.mac (gpa / 128 + i) (Memory.line m.host (buf + 128 * i))).toNat)

/-- R340: line i of an export record is written at its new place, with its MAC. -/
def Mem.importLine (m : Mem) (part buf hpa i : Nat) : Mem :=
  { m with
    hbm := Memory.setLine m.hbm (hpa + 128 * i) (Memory.line m.host (buf + 128 * i))
    sealedAt := Map.put m.sealedAt (hbmLine hpa + i) ⟨part, BitVec.ofNat 48 (Memory.num m.host (buf + 4096 + 6 * i) 6)⟩
    poisonAt := m.poisonAt.filter (· != hbmLine hpa + i) }

/-- R340, R342: PAGE_IN. Operands: the partition, the page's GPA, the buffer, and the new HPA. -/
def execPageIn (s : State) : Out :=
  let part := s.arg.nat 0
  let gpa := s.arg.nat 1
  let buf := s.arg.nat 2
  let hpa := s.arg.nat 3
  .next (s.command false false false (fun t =>
    match t.part? part with
    | none => ⟨4, 0, t⟩
    | some p => match p.keys with
      | none => ⟨1, 0, t⟩
      | some k =>
        if gpa % 4096 != 0 || hpa % 4096 != 0 || t.reservedHpa hpa then ⟨1, 0, t⟩
        else if t.mem.importable k gpa (Map.findD t.mem.versions (pageKey part gpa) 0) buf then
          ⟨0, 0, { t with mem := (upTo 32).foldl (fun m i => m.importLine part buf hpa i) t.mem }⟩
        else ⟨6, 0, t.failPage part gpa⟩))

/-- R422: EXPORT. -/
def execExportCmd (s : State) : Out :=
  .next (s.command false false false (fun t =>
    let o := t.opnd
    let part := bits o 5 0
    match t.part? part with
    | none => ⟨4, 0, t⟩
    | some p =>
      if p.sealed_ then ⟨1, 0, t⟩
      else if 64 ≤ p.exports.length then ⟨7, 0, t⟩
      else ⟨0, 0, t.setPart part { p with exports := p.exports ++ [⟨bits o 17 8, bits o 23 18, bits o 127 64, bits o 191 128, bits o 223 192⟩] }⟩))

/-- R391: a core in service, on a die in service. -/
def State.coreOn (s : State) (c : Nat) : Bool := (s.core c).inService && (s.die (c / 256)).st == 5

/-- R408, R419: the admitted dies. -/
def State.admitted (s : State) : BitVec 10 :=
  BitVec.ofNat 10 ((upTo 10).foldl (fun a d => if (s.die d).st = 5 then a + 2 ^ d else a) 0)

/-- R408: IMG_INFO. Operand: the buffer. -/
def execImgInfo (s : State) : Out :=
  .next (s.command true true false (fun t =>
    let v := packFields [(0, 64, t.pkg.emask.toNat), (64, 64, 0x8000000000000110), (128, 64, 0x100),
      (192, 16, ((upTo 2048).filter t.coreOn).length)]
    ⟨0, 0, { t with mem := { t.mem with host := Memory.store t.mem.host (t.arg.nat 0) (bytesOfNat v 32) } }⟩))

/-- R405: a partition has a resident hart, a saved context or a job in the queue. -/
def State.partBusy (s : State) (part : Nat) : Bool :=
  s.harts.any (fun e => e.2.role.part == part && decide (e.1 < 32768)) || s.launches.any (fun e => e.2.part == part && !e.2.ended && !e.2.saved.isEmpty)
  || s.clusters.any (fun c => decide (0 < c.2.liveOf part))

/-- R405: the valid entries of a core table from logical number `n` on; none where a reserved bit is set. -/
def coreEntries (n : Nat) : List Byte → Option (Map Nat)
  | a :: b :: bs =>
    let e := a.toNat + 256 * b.toNat
    if bits e 14 11 ≠ 0 then none
    else (coreEntries (n + 1) bs).map (fun m => if e.testBit 15 then (n, bits e 10 0) :: m else m)
  | _ => some []

/-- R405: the valid entries of a core table, by logical number; none where a reserved bit is set. -/
def coreTableOf (bs : List Byte) : Option (Map Nat) := coreEntries 0 bs

/-- R405: a table that a partition may not have. -/
def Part.badTable (p : Part) (m : Map Nat) : Bool :=
  m.any (fun e => !p.cores.getLsbD e.2) || m.any (fun e => m.any (fun f => f.1 != e.1 && f.2 == e.2))
  || (upTo 2048).any (fun c => p.cores.getLsbD c && !m.any (fun e => e.2 == c))
  || m.any (fun e => m.any (fun f => (f.1 / 8 == e.1 / 8 && f.2 / 8 != e.2 / 8) || (f.1 / 256 == e.1 / 256 && f.2 / 256 != e.2 / 256)))

/-- R405: MAP_SET. Operands: the partition and the address of the table in host memory. -/
def execMapSet (s : State) : Out :=
  let part := s.arg.nat 0
  .next (s.command false false false (fun t =>
    match t.part? part with
    | none => ⟨4, 0, t⟩
    | some p =>
      match coreTableOf (Memory.bytes t.mem.host (t.arg.nat 1) 4096) with
      | none => ⟨1, 0, t⟩
      | some m =>
        if p.badTable m then ⟨1, 0, t⟩
        else if t.partBusy part then ⟨3, 0, t⟩
        else ⟨0, 0, t.setPart part { p with coreTable := m }⟩))

/-- R396: the highest number up to which every accepted message has had its effect. -/
def State.hdone (s : State) (self : BitVec 64) : Nat :=
  match s.host.hbusy.filter (· != self) with
  | [] => s.host.hlast.toNat
  | b :: bs => bs.foldl (fun a x => min a x.toNat) b.toNat - 1

/-- R317, R396: RESYNC: a record held back is outstanding too, and none stands beyond 4,096. Operands: the buffer and `repost`. -/
def execResync (s : State) : Out :=
  .next (s.command false false true (fun t =>
    let out := t.host.faults.filter (·.posted)
    let v := packFields [(0, 64, t.host.hlast.toNat), (64, 64, t.hdone t.arg.msg.hnum), (128, 64, t.host.fnext), (192, 64, t.host.enext),
      (256, 16, min 4096 t.host.faults.length), (272, 16, t.pkg.boot.toNat)]
    let u : State := { t with mem := { t.mem with host := Memory.store t.mem.host (t.arg.nat 0) (bytesOfNat v 64) } }
    ⟨0, 0, match u.ring? 0 with
      | none => u
      | some (base, k) =>
        if (u.arg.nat 1).testBit 0 then
          out.foldl (fun w f => w.ringWrite base k f.seq (f.bits (match w.part? f.part with
            | none => false
            | some p => p.sealed_))) u
        else u⟩))

/-- R424: POWER_SET; clusters that are idle are judged by the new delay. -/
def execPowerSet (s : State) : Out :=
  .next (s.command false true false (fun t =>
    let o := t.opnd
    let plim := bits o 11 0
    let idle := bits o 47 16
    if plim < 1000 ∨ 3000 < plim ∨ bits o 15 12 ≠ 0 then ⟨1, 0, t⟩
    else
      let u : State := { t with pkg := { t.pkg with plim := plim, gidle := idle } }
      ⟨0, 0, u.clusters.foldl (fun w c => w.restCluster c.1) u⟩))

/-- R421, R423: DOM_SET: the package number and the domain size, over the management channel only, before step 6 of R420. A
size above the 512 packages of R22 is stored as any other: the spec gives it no status (log entry 88). -/
def execDomSet (s : State) : Out :=
  .next (s.command false true false (fun t =>
    if !t.arg.msg.mgmt then ⟨1, 0, t⟩
    else if 6 ≤ t.host.stage then ⟨9, 0, t⟩
    else ⟨0, 0, { t with pkg := { t.pkg with number := bits t.opnd 8 0, domain := bits t.opnd 18 9 } }⟩))

end Sys2Proof.Machine
end

