-- ==== Sys2Proof/Machine/Partition.lean ====
section
/-! DEFINITION. Partitions: the record (R329), its checks (R330), the commands (R331), sealed cores (R335, R336), and the
measurement log (R360). -/

namespace Sys2Proof.Machine

open Sys2Proof

/-- R311: a range-table entry. -/
def rangeOf (e : Nat) : Range :=
  { base := bits e 30 0, last := bits e 62 32, die := bits e 66 64, cls := bits e 68 67, pkg := bits e 77 69, v := e.testBit 31 }

/-- R329: byte d of a field of eight bytes. -/
def byteList (v : Nat) : List Nat := (upTo 8).map (fun d => bits v (8 * d + 7) (8 * d))

/-- R16: the KiB that a `lend` code stands for. -/
def lendKib (c : Nat) : Nat := match c with | 0 => 0 | 1 => 64 | 2 => 128 | _ => 256

/-- R329: a partition as its record describes it, over what the record does not hold. -/
def partOf (v : Nat) (old : Part) : Part :=
  { old with
    sealed_ := v.testBit 6, ltol := v.testBit 7, heat := v.testBit 8, prio := bits v 11 9
    slots := BitVec.ofNat 16 (bits v 31 16), banks := BitVec.ofNat 32 (bits v 63 32), jq := bits v 70 64, jw := bits v 75 72
    tq := bits v 80 76, lend := lendKib (bits v 82 81), mw := bits v 95 88, minsl := bits v 111 96, minhbm := bits v 127 112
    minbw := bits v 143 128, sways := bits v 147 144, s2root := bits v 255 192
    dsp := (byteList (bits v 319 256)).map (· * 2 ^ 20), llcl := byteList (bits v 383 320)
    evq := bits v 447 384, evn := bits v 451 448, cores := BitVec.ofNat 2048 (bits v 2559 512)
    rtab := (upTo 16).map (fun i => rangeOf (bits v (2687 + 128 * i) (2560 + 128 * i))) }

/-- R330: a malformed record. -/
def badRecord (v addr : Nat) : Bool :=
  let p := partOf v Part.blank
  let es := (upTo 16).map (fun i => bits v (2687 + 128 * i) (2560 + 128 * i))
  bits v 15 12 != 0 || v.testBit 71 || bits v 87 83 != 0 || bits v 191 148 != 0 || bits v 511 452 != 0 || bits v 8191 4608 != 0
  || es.any (fun e => e.testBit 63 || bits e 127 78 != 0) || addr % 64 != 0 || p.s2root % 4096 != 0 || p.evq % 4096 != 0
  || decide (2 ^ 52 ≤ p.s2root) || decide (2 ^ 52 ≤ p.evq) || p.jq == 0 || decide (64 < p.jq) || p.jw == 0 || decide (16 < p.tq)
  || p.mw == 0 || decide (8 < p.sways) || p.dsp.any (fun d => decide (32 * 2 ^ 20 < d)) || p.llcl.any (fun l => decide (128 < l))
  || p.slots == 0 || p.cores == 0 || (p.sealed_ == (p.sways == 0))
  || p.rtab.any (fun r => r.cls == 3 || (r.cls == 2 && p.sealed_))
  || p.rtab.zipIdx.any (fun a => p.rtab.zipIdx.any (fun b => a.2 != b.2 && a.1.v && b.1.v && decide (a.1.base ≤ b.1.last ∧ b.1.base ≤ a.1.last)))

/-- R330: partitions with a core in a cluster, and their sum of a quota. -/
def quotaIn (ps : List Part) (cl : Nat) (f : Part → Nat) : Nat :=
  ((ps.filter (fun p => (upTo 8).any (fun c => p.cores.getLsbD (cl * 8 + c)))).map f).sum

/-- R330: a record that conflicts with other partitions. -/
def Part.conflicts (p : Part) (others : List Part) : Bool :=
  let all := p :: others
  others.any (fun q => (p.cores &&& q.cores) != 0 &&
    (p.sealed_ || q.sealed_ || (p.slots &&& q.slots) != 0 || (p.banks &&& q.banks) != 0 || p.lend != q.lend))
  || (upTo 256).any (fun cl => decide (64 < quotaIn all cl (·.jq)) || decide (16 < quotaIn all cl (·.tq)))
  || (upTo 8).any (fun d => decide (32 * 2 ^ 20 < (all.map (fun q => q.dsp.getD d 0)).sum)
      || (p.sealed_ && decide (p.sways * 4 * 2 ^ 20 < p.dsp.getD d 0)))
  || decide (12 < ((all.filter (·.sealed_)).map (·.sways)).sum)

/-- R334, R391: capacity that remains: cores of a set, GiB of HBM and GB/s of its bandwidth, with retired units left out. -/
def State.staying (s : State) (u : HwUnit) : Bool := !s.pkg.retired.contains u

def State.coreStays (s : State) (c : Nat) : Bool :=
  s.staying (.core c) && s.staying (.cluster (c / 8)) && s.staying (.die (c / 256))

def State.stacksLeft (s : State) : Nat := ((upTo 16).filter (fun n => s.staying (.stack n) && s.staying (.die (n / 2)))).length

def State.hbmLeft (s : State) : Nat :=
  ((((upTo 16).filter (fun n => s.staying (.stack n) && s.staying (.die (n / 2)))).map (fun n =>
    160 - (s.pkg.retired.filter (fun u => match u with
      | .pseudoChannel m _ => m == n
      | _ => false)).length)).sum * 64) / 160

def Part.slotCeiling (p : Part) (s : State) : Nat :=
  popcount p.slots.toNat 16 * (p.coreList.filter s.coreStays).length

/-- R330: the guaranteed minima cannot be met. -/
def State.badMinima (s : State) (p : Part) (others : List Part) : Bool :=
  let all := p :: others
  decide (p.slotCeiling s < p.minsl) || decide (s.hbmLeft < (all.map (·.minhbm)).sum) || decide (40960 < (all.map (·.minbw)).sum)

/-- R393: the capacity table's entry of a partition. -/
def Part.capEntry (p : Part) (vac : Bool) : Nat :=
  packFields [(0, 16, p.inForce.1), (16, 16, p.inForce.2.1), (32, 16, p.inForce.2.2), (48, 1, b2n vac)]

/-- R360: an entry of a partition's log. -/
def State.logEntry (s : State) (part : Nat) (entry : List Byte) : State :=
  s.modPart part (fun p => { p with
    logHash := sha512Of (bytesOfNat p.logHash.toNat 64 ++ bytesOfNat (sha512Of entry).toNat 64), nlog := p.nlog + 1, tmeas := s.time })

/-- R360: the entries of a log, each with a first byte for its kind (log entry 138): an accepted record, the installation of keys at
creation or in a die, a binding, the measurement at gating. -/
def logRecord (v : Nat) : List Byte := bytesOfNat 0 1 ++ bytesOfNat v 1024
def logKeys (die nres : Nat) : List Byte := bytesOfNat 1 1 ++ bytesOfNat die 1 ++ bytesOfNat nres 8
def logBinding (part : Nat) (key : BitVec 512) : List Byte := bytesOfNat 2 1 ++ bytesOfNat part 1 ++ bytesOfNat key.toNat 64
def logGating (records : List Byte) : List Byte := bytesOfNat 3 1 ++ bytesOfNat (sha512Of records).toNat 64

/-- R338: the keys of a sealed partition, drawn at its creation. -/
def State.drawKeys (s : State) : SealKeys × State :=
  (⟨s.free 256, s.drawn.free 256, s.drawn.drawn.free 256, s.drawn.drawn.drawn.free 256⟩, s.drawn.drawn.drawn.drawn)

/-- R336: what a scrub leaves of a core. -/
def Core.scrubbed (c : Core) : Core :=
  { Core.reset with flight := c.flight, inbox := c.inbox, inboxSaved := c.inboxSaved, owner := c.owner, own := c.own, nsent := c.nsent,
                    nrcvd := c.nrcvd, inService := c.inService }

/-- R335, R336: a core's owner register is cleared, or set, with the scrub. -/
def State.disown (s : State) (c : Nat) : State := s.modCore c (fun k => ({ k with owner := 0, own := false } : Core).scrubbed)
def State.own (s : State) (part c : Nat) : State := s.modCore c (fun k => { k.scrubbed with owner := BitVec.ofNat 6 part, own := true })

/-- R331: what may change only while the partition is idle. -/
def Part.idleFields (p : Part) := (p.cores, p.slots, p.banks, p.lend, p.jq, p.tq, p.dsp, p.sways)

/-- R131, R336: a partition's die scratchpads are zero. -/
def State.clearDs (s : State) (part : Nat) : State :=
  { s with dies := Map.mapVal s.dies (fun _ d => { d with ds := d.ds.filter (fun b => b.1 / 2 ^ 25 != part) }) }

/-- R269: a partition's tiles hold +0, of the float kind. -/
def State.clearTiles (s : State) (part : Nat) : State :=
  { s with clusters := Map.mapVal s.clusters (fun _ c => { c with tiles := c.tiles.filter (fun t => t.1 / 16 != part) }) }

/-- R331, R335, R336, R338, R360: an accepted record takes effect. -/
def State.installPart (s : State) (part v : Nat) (old : Option Part) : State :=
  let fresh := old.isNone && (partOf v Part.blank).sealed_
  let s1 := if fresh then s.drawKeys.2 else s
  let base := match old with
    | none => { Part.blank with keys := if fresh then some s.drawKeys.1 else none }
    | some o => o
  let p0 := partOf v base
  let oldCores := match old with
    | none => 0
    | some o => o.cores
  let p := { p0 with
    inForce := (p0.minsl, p0.minhbm, p0.minbw)
    coreTable := if oldCores = p0.cores then p0.coreTable else [] }
  let ways := match old with
    | none => false
    | some o => p.sealed_ && (o.sways != p.sways || o.dsp != p.dsp)
  let tiles := match old with
    | none => true
    | some o => o.tq != p.tq || o.cores != p.cores
  let s2 := if ways then (s1.recall part 0 (2 ^ 52)).clearDs part else s1
  let s3 := if tiles then s2.clearTiles part else s2
  let s4 := s3.setPart part p
  let s5 : State := { s4 with host := { s4.host with capTable := Map.put s4.host.capTable part (p.capEntry false) } }
  let s6 := if p.sealed_ then
      (upTo 2048).foldl (fun t c =>
        if p.cores.getLsbD c && !oldCores.getLsbD c then t.own part c
        else if oldCores.getLsbD c && !p.cores.getLsbD c then t.disown c else t) s5
    else s5
  let s7 := s6.logEntry part (logRecord v)
  ((if fresh then s7.logEntry part (logKeys 255 0) else s7).kickActivate part).kickDispatch

/-- R329 to R331: PART_SET. Operand: the record's address in host memory. -/
def execPartSet (s : State) : Out :=
  .next (s.command false false false (fun t =>
    let addr := t.arg.nat 0
    let v := Memory.num t.mem.host addr 1024
    let part := bits v 5 0
    let p := partOf v Part.blank
    let others := (t.parts.filter (fun e => e.1 != part)).map (·.2)
    if badRecord v addr then ⟨1, 0, t⟩
    else if p.conflicts others then ⟨2, 0, t⟩
    else if t.badMinima p others then ⟨5, 0, t⟩
    else match t.part? part with
    | none => ⟨0, 0, t.installPart part v none⟩
    | some o =>
      if o.sealed_ != p.sealed_ then ⟨9, 0, t⟩
      else if o.idleFields != p.idleFields && t.partBusy part then ⟨3, 0, t⟩
      else ⟨0, 0, t.installPart part v (some o)⟩))

/-- R336, R338: nothing of a removed partition stays in caches, TLBs, queues or version entries. -/
def State.removePart (s : State) (part : Nat) (p : Part) : State :=
  let s1 : State := { s with queues := s.queues.filter (fun e => e.1 / 256 != part) }
  let s2 := (((s1.kickVacancy part).recall part 0 (2 ^ 52)).clearTiles part).clearDs part
  let s3 := s2.tlbRemove part none none
  let s4 : State := { s3 with
    clusters := Map.mapVal s3.clusters (fun _ c => { c with
      jobs := Map.mapVal c.jobs (fun _ j => if j.live && j.part == part then { j with state := .done, launch := none, hidx := 2 ^ 16, flags := 0 } else j)
      tscq := c.tscq.filter (fun e => e.part != part) })
    cores := Map.mapVal s3.cores (fun _ c => { c with
      l1 := c.l1.filter (fun e => keyPart e.1 != part), icache := c.icache.filter (fun e => keyPart e.1 != part) })
    mem := { s3.mem with
      llc := s3.mem.llc.filter (fun e => keyPart e.1 != part)
      versions := s3.mem.versions.filter (fun e => e.1 / 2 ^ 40 != part) }
    host := { s3.host with capTable := Map.del s3.host.capTable part }
    parts := Map.del s3.parts part }
  let s5 := if p.sealed_ then p.coreList.foldl (fun t c => t.disown c) s4 else s4
  (s5.clusters.foldl (fun t c => (t.reinstateAll c.1 64).kick c.1) s5).kickDispatch

/-- R331, R336: PART_DROP. Operand: the partition. -/
def execPartDrop (s : State) : Out :=
  let part := s.arg.nat 0
  .next (s.command false false false (fun t =>
    match t.part? part with
    | none => ⟨4, 0, t⟩
    | some p =>
      if t.queues.any (fun e => e.1 / 256 == part && t.queueBusy e.2) then ⟨3, 0, t⟩
      else ⟨0, 0, t.removePart part p⟩))

end Sys2Proof.Machine
end

