-- ==== Sys2Proof/Machine/Debug.lean ====
section
/-! DEFINITION. Debug commands (R376), the Amber halt tree (R377), and host writes to registers that have no row of their own
(R322, R335, R375, R413), with the reads of the host beside them (R375, R414). -/

namespace Sys2Proof.Machine

open Sys2Proof

/-- R376: a halted hart resumes; the instruction it stands at is not halted again by its comparators (log entry 17). -/
def Hart.resumed (h : Hart) (now : Nat) (step : Bool) : Hart :=
  { h with run := { h.run with halted := false, haltReq := false, amber := false, stepping := step, passCmp := true, busyUntil := now + 1 } }

/-- R376: DBG_HALT: a resident hart halts at its next boundary. Operand: the hart. -/
def execDbgHalt (s : State) : Out :=
  let k := s.arg.nat 0
  .next (s.command false true false (fun t =>
    match t.hart? k with
    | none => ⟨3, 0, t⟩
    | some h => ⟨0, 0, if h.run.halted then t else t.setHart k { h with run := { h.run with haltReq := true } }⟩))

/-- R376: DBG_RESUME. Operand: the hart. -/
def execDbgResume (s : State) : Out :=
  let k := s.arg.nat 0
  .next (s.command false true false (fun t =>
    match t.hart? k with
    | none => ⟨3, 0, t⟩
    | some h => if h.run.halted then ⟨0, 0, t.setHart k (h.resumed t.now false)⟩ else ⟨3, 0, t⟩))

/-- R376: DBG_STEP: one instruction or pair, after which the hart halts again. Operand: the hart. -/
def execDbgStep (s : State) : Out :=
  let k := s.arg.nat 0
  .next (s.command false true false (fun t =>
    match t.hart? k with
    | none => ⟨3, 0, t⟩
    | some h => if h.run.halted then ⟨0, 0, t.setHart k (h.resumed t.now true)⟩ else ⟨3, 0, t⟩))

/-- R376: a halted hart's state, in the layout of R371 with every register live. -/
def Hart.debugBytes (h : Hart) : List Byte := bytesOfNat (h.header h.resume Live.all) 1024 ++ h.bulk Live.all

/-- R376, R377: why a halted hart's state cannot be read or written; 0 where it can. -/
def State.debugRefusal (s : State) (k : Nat) : Nat :=
  match s.hart? k with
  | none => 3
  | some h => if s.sealedHart h then 9 else if h.run.halted then 0 else 3

/-- R376: DBG_RD. Operands: the hart, the offset in its record, and the number of bytes. -/
def execDbgRd (s : State) : Out :=
  let k := s.arg.nat 0
  .next (s.command false true false (fun t =>
    match t.debugRefusal k, t.hart? k with
    | 0, some h => ⟨0, 0, { t with host := { t.host with mboxBuf := (h.debugBytes.drop (t.arg.nat 1)).take (t.arg.nat 2) } }⟩
    | n, _ => ⟨n, 0, t⟩))

/-- R376: a halted hart with the state that a record's bytes hold; what the record does not hold is kept. -/
def Hart.debugWritten (h : Hart) (bs : List Byte) (now : Nat) : Hart :=
  let g := h.load (natOfBytes (bs.take 1024)) (h.extension [] 0 now) (bs.drop 1024) now
  let m := [bitSIE, bitSPIE, bitSPP, bitSUM, bitMXR].foldl (fun v i => setBit v i (g.csr.mstatus.getLsbD i)) h.csr.mstatus
  { g with
    priv := if h.priv == .M then .M else g.priv
    csr := { g.csr with mstatus := m, mcycleHeld := h.csr.mcycleHeld, mcycleFrom := h.csr.mcycleFrom, minstret := h.csr.minstret }
    dev := { g.dev with itembase := h.dev.itembase }
    run := { h.run with drain := g.run.drain, barw := g.run.barw }
    role := h.role }

/-- R376: DBG_WR. Operands: the hart, the offset in its record, and the number of bytes, which stand in `data`. -/
def execDbgWr (s : State) : Out :=
  let k := s.arg.nat 0
  .next (s.command false true false (fun t =>
    match t.debugRefusal k, t.hart? k with
    | 0, some h =>
      let n := min (t.arg.nat 2) 128
      let old := h.debugBytes
      let new := old.take (t.arg.nat 1) ++ bytesOfNat t.arg.data.toNat n ++ old.drop (t.arg.nat 1 + n)
      ⟨0, 0, t.setHart k (h.debugWritten (new.take 17408) t.now)⟩
    | n, _ => ⟨n, 0, t⟩))

/-- R377: GANG_STOP. Operand: the partition. -/
def execGangStop (s : State) : Out :=
  .next (s.command false true false (fun t =>
    match t.part? (t.arg.nat 0) with
    | none => ⟨4, 0, t⟩
    | some _ => ⟨0, 0, t.amberStop (t.arg.nat 0)⟩))

/-- R377: the paused jobs of a cluster go on. -/
def State.resumeJobs (s : State) (cl part : Nat) : State :=
  let js := (s.cluster cl).jobs.filter (fun e => e.2.part == part && e.2.state == .running && e.2.stopped)
  let s1 := js.foldl (fun t e => (t.modJob cl e.1 (fun j => { j with stopped := false })).planComplete cl e.1) s
  (((s1.pumpBte cl 0).kick cl).plan 0 .matrixStartGrant { nats := [cl / 32] })

/-- R377: every hart and job of a stopped partition goes on. -/
def State.gangGo (s : State) (part : Nat) (p : Part) : State :=
  let s1 := (s.setPart part { p with stopped := false }).modHarts (fun _ h => h.role.part == part && (p.stopped || h.run.amber)) (fun _ h =>
    if h.run.halted then h.resumed s.now false else { h with run := { h.run with amber := false } })
  s1.clusters.foldl (fun t c => t.resumeJobs c.1 part) s1

/-- R377: GANG_GO. Operand: the partition. -/
def execGangGo (s : State) : Out :=
  .next (s.command false true false (fun t =>
    match t.part? (t.arg.nat 0) with
    | none => ⟨4, 0, t⟩
    | some p => ⟨0, 0, t.gangGo (t.arg.nat 0) p⟩))

/-- R375: a core's debug block changed; discarded on a core of a sealed partition. -/
def State.writeDebug (s : State) (c : Nat) (f : Debug → Debug) : State :=
  s.modCore c (fun k => if k.own then k else { k with dbg := f k.dbg })

/-- R375: what the host reads of a core's debug block at an offset of 16 bytes: the comparators, the control word at 0x100 and the
stop record at 0x180; 0 on a core of a sealed partition. -/
def Core.debugRead (c : Core) (off : Nat) : BitVec 128 :=
  if c.own then 0
  else if off < 0x80 then c.dbg.pcCmp.getD (off / 16) 0
  else if off < 0xC0 then c.dbg.dataCmp.getD (off / 16 - 8) 0
  else if off = 0x100 then BitVec.ofNat 128 (b2n c.dbg.ebh)
  else if off = 0x180 then c.dbg.stop.extractLsb' 0 128
  else if off = 0x190 then c.dbg.stop.extractLsb' 128 128
  else 0

/-- R419: the device status word. -/
def State.statusWord (s : State) : Nat :=
  packFields [(0, 4, s.host.stage), (4, 1, b2n s.host.ready), (5, 10, s.admitted.toNat), (16, 16, s.pkg.boot.toNat)]

/-- R393, R414, R415, R419: what the host reads of BAR 0 at an offset of 8 bytes: the mailbox response, the device status, `fcons` and
the capacity table; 0 where the layout has a write-only register or none (log entry 140). -/
def State.bar0 (s : State) (off : Nat) : Nat :=
  if off = 0x40 then s.host.mboxNum.toNat
  else if off = 0x48 then s.host.mboxStatus
  else if off = 0x50 then s.host.mboxVal.toNat
  else if off = 0x78 then b2n s.host.mboxDone * 2 ^ 63
  else if off = 0x80 then s.statusWord
  else if off = 0x88 then s.host.fcons.toNat
  else if 0x2000 ≤ off ∧ off < 0x2200 then Map.findD s.host.capTable ((off - 0x2000) / 8) 0
  else 0

/-- R322, R335, R375, R413, R414: REGISTER_WRITE. Operands: the register's kind (0 PC comparator, 1 data comparator, 2 debug control
word, 3 heat entry, 4 a partition's heat array zeroed, 5 window base, 6 a read of a core's debug block at an offset, 7 a read of a heat
entry, 8 a read of BAR 0 at an offset), the core or partition or value or offset, the number within it; `data`. A write to any other
register, the owner registers among them, is discarded. -/
def execRegisterWrite (s : State) : Out :=
  let a := s.arg.nat 1
  let i := s.arg.nat 2
  let v := s.arg.data.setWidth 128
  .next (match s.arg.nat 0 with
    | 0 => s.writeDebug a (fun d => { d with pcCmp := d.pcCmp.set! i (v &&& 0x000CFFFFFFFFFFFFFFFFFFFFFFFFFFFF) })
    | 1 => s.writeDebug a (fun d => { d with dataCmp := d.dataCmp.set! i (v &&& 0x000FFFFFFFFFFFFFFFFFFFFFFFFFFFFB) })
    | 2 => s.writeDebug a (fun d => { d with ebh := v.getLsbD 0 })
    | 3 => s.modPart a (fun p => { p with heatAt := Map.put p.heatAt i (bits v.toNat 15 0, bits v.toNat 63 16) })
    | 4 => s.modPart a (fun p => { p with heatAt := [], heatFree := none })
    | 5 => { s with host := { s.host with hdm := a } }
    | 7 => (match s.part? a with
      | none => s
      | some p => { s with host := { s.host with reply := some (BitVec.ofNat 1024 ((p.heatOf i).1 + (p.heatOf i).2 * 2 ^ 16)) } })
    | 6 => { s with host := { s.host with reply := some (((s.core a).debugRead i).setWidth 1024) } }
    | 8 => { s with host := { s.host with reply := some (BitVec.ofNat 1024 (s.bar0 a)) } }
    | _ => s)

end Sys2Proof.Machine
end

