-- ==== Sys2Proof/Machine/HostMem.lean ====
section
/-! DEFINITION. Accesses from outside the package: the host's raw and partition windows (R413), back-invalidation by a pool device
(R157, R412), and requests of other packages (R422). -/

namespace Sys2Proof.Machine

open Sys2Proof

/-- What an access from outside reads; none: CXL poison, or an access fault at the requester. -/
def State.answerOutside (s : State) (v : Option (BitVec 1024)) : State := { s with host := { s.host with reply := v } }

/-- R413: a stage-2 table maps an HPA in its tree below an entry, with a resident leaf. -/
def s2Maps (hbm : Memory) (a : Nat) : Nat → Nat → Nat → Bool
  | 0, _, _ => false
  | fuel + 1, table, level =>
    (upTo (if level = 0 then 16 else 512)).any (fun i =>
      let e := Memory.num hbm (table + 8 * i) 8
      e.testBit 0 && (if e.testBit 1 then
          bits e 3 2 == 0 && (let size := if level = 3 then 2 ^ 21 else if e.testBit 4 then 2 ^ 16 else 2 ^ 12
            decide (bits e 51 12 * 4096 / size = a / size))
        else s2Maps hbm a fuel (bits e 51 12 * 4096) (level + 1)))

/-- R413: some partition has the page of an HPA resident. -/
def State.mapped (s : State) (a : Nat) : Bool := s.parts.any (fun p => s2Maps s.mem.hbm a 5 p.2.s2root 0)

/-- R386: a write within a line ends its poison where it covers all its 128 bytes. -/
def Mem.overwritten (m : Mem) (line n : Nat) : Mem := if n = 128 then { m with poisonAt := m.poisonAt.filter (· != line) } else m

/-- R337, R386, R413: a write at an HPA through the raw window: it cannot write the metadata of a sealed line there. -/
def State.rawWrite (s : State) (a : Nat) (bs : List Byte) : State :=
  { s with mem := ({ s.mem with hbm := Memory.store s.mem.hbm a bs } : Mem).overwritten (hbmLine a) bs.length }

/-- R413: a line's contents after a raw write that the host may not make: an undefined value, in memory and at its home slice. -/
def State.rawUndefined (s : State) (a : Nat) : State :=
  let v := s.free 1024
  let key := hbmLine a
  let mine := s.mem.llc.filter (fun e => s.hpaOf (keyPart e.1) (keyGpa e.1) / 128 == key)
  ({ s with mem := { s.mem with
    hbm := Memory.setLine s.mem.hbm (a / 128 * 128) v
    llc := mine.foldl (fun m e => Map.put m e.1 { e.2 with data := v }) s.mem.llc } } : State).drawn

/-- R413, R337, R386: HOST_RAW_ACCESS: an access within one line through the raw window, performed at the memory controller. The window
holds the HPAs of the 16 stacks but for the region reserved at bring-up (R341); beside it an access meets no memory. -/
def execHostRawAccess (s : State) : Out :=
  let x := s.arg.access
  let n := min x.size (128 - x.addr % 128)
  let wrong := s.mapped x.addr
  let sealed_ := (Map.find s.mem.sealedAt (hbmLine x.addr)).isSome
  .next (if decide (2 ^ 40 ≤ x.addr) || s.reservedHpa x.addr then
    (match x.write with
      | none => s.answerOutside none
      | some _ => s)
  else match x.write with
    | none =>
      if s.mem.poisonAt.contains (hbmLine x.addr) then s.answerOutside none
      else if wrong && !sealed_ then (s.answerOutside (some ((s.free (8 * n)).setWidth 1024))).drawn
      else s.answerOutside (some (BitVec.ofNat 1024 (Memory.num s.mem.hbm x.addr n)))
    | some v => if wrong && !sealed_ then s.rawUndefined x.addr else s.rawWrite x.addr (bytesOfNat v.toNat n))

/-- R413: what of a sealed partition a window reaches: the rings and index words of its registered queues. -/
def State.windowOpen (s : State) (part : Nat) (p : Part) (gpa n : Nat) : Bool :=
  !p.sealed_ || s.queues.any (fun e => e.1 / 256 == part &&
    (decide (e.2.ring ≤ gpa ∧ gpa + n ≤ e.2.ring + 64 * 2 ^ e.2.n) || decide (e.2.prod ≤ gpa ∧ gpa + n ≤ e.2.prod + 8)
      || decide (e.2.cons ≤ gpa ∧ gpa + n ≤ e.2.cons + 8)))

/-- An access from outside at a home slice, within one line: its answer, or `ev` again while the line's die accepts no requests
(R355). -/
def State.outsideAccess (s : State) (ev : Instr) (part gpa n : Nat) (write : Option (BitVec 1024)) : State :=
  let go := fun (t : State) => match write with
    | none => match t.readHome part gpa n with
      | .val b u => u.answerOutside (some (BitVec.ofNat 1024 (natOfBytes b)))
      | .no _ => t.answerOutside none
    | some v => t.writeHome part gpa (bytesOfNat v.toNat n) none
  match s.atHome part gpa with
  | .ready t => go t
  | .far _ => go s
  | .dieDown _ => s.plan 1 ev s.arg
  | .poisoned t => (match write with
      | none => t.answerOutside none
      | some v => t.writeHome part gpa (bytesOfNat v.toNat n) none)
  | .integrity t => (t.integrityError part gpa 7 0 0 0).answerOutside none
  | .absent _ t => t.answerOutside none
  | .outside => s.answerOutside none
  | .lost => s.answerOutside none

/-- R413: HOST_WINDOW_ACCESS: an access within one line through a partition's window, at scope S. Operand: the partition; the
access's address is its offset in the window. -/
def execHostWindowAccess (s : State) : Out :=
  let part := s.arg.nat 0
  let x := s.arg.access
  .next (match s.part? part with
    | none => s.answerOutside none
    | some p => match p.winBase with
      | none => s.answerOutside none
      | some b =>
        let gpa := b + x.addr % 2 ^ 36
        let n := min x.size (128 - gpa % 128)
        match p.range? gpa with
        | none => s.answerOutside none
        | some _ =>
          if s.windowOpen part p gpa n then s.outsideAccess .hostWindowAccess part gpa n x.write
          else match x.write with
          | none => s.answerOutside (some 0)
          | some _ => s)

/-- R157, R386, R412: POOL_BACK_INVALIDATE: the local home-slice copies of a pool line are written back and removed; with a value, the
agent that asked for the line then writes it. Operand: the access, by pool address. -/
def execPoolBackInvalidate (s : State) : Out :=
  let x := s.arg.access
  let at_ := fun (e : Nat × LlcLine) => match s.part? (keyPart e.1) with
    | none => false
    | some p => match p.range? (keyGpa e.1) with
      | none => false
      | some r => match s.stage2 p r (keyGpa e.1) with
        | .pool a => a / 128 == x.addr / 128
        | _ => false
  let s1 := (s.mem.llc.filter at_).foldl (fun t e =>
    let u := if e.2.dirty then t.writeBackLine (keyPart e.1) (keyGpa e.1) e.2 else t
    (u.dropLine (keyPart e.1) (keyGpa e.1)).dropHdc (keyPart e.1) (keyGpa e.1) none) s
  .next (match x.write with
    | none => s1
    | some v =>
      let n := min x.size (128 - x.addr % 128)
      { s1 with mem := ({ s1.mem with pool := Memory.store s1.mem.pool x.addr (bytesOfNat v.toNat n) } : Mem).overwritten (poolLine x.addr) n })

/-- R422: the export that covers a remote request: the target partition and the local GPA. -/
def State.exportFor (s : State) (pkg part gpa n : Nat) : Option (Nat × Nat) :=
  (s.parts.findSome? (fun p => (p.2.exports.find? (fun e => e.srcPkg == pkg && e.srcPart == part
    && decide (e.remote ≤ gpa ∧ gpa + n ≤ e.remote + e.size * 2 ^ 21))).map (fun e => (p.1, e.base + (gpa - e.remote)))))

/-- R311, R421, R422: REMOTE_REQUEST: a request of another package within one line is performed at the home slice where an export
covers it; a line that is not resident raises its record, and the request is tried again. Operands: the source package and
partition; the access, by the source's GPA. -/
def execRemoteRequest (s : State) : Out :=
  let x := s.arg.access
  .next (match s.exportFor (s.arg.nat 0) (s.arg.nat 1) x.addr x.size with
    | none => s.answerOutside none
    | some (part, gpa) =>
      let n := min x.size (128 - gpa % 128)
      match s.atHome part gpa with
      | .absent c t => (t.raiseRecord (blankRec part c gpa 0 0 0 0 x.write.isSome)).plan 1 .remoteRequest s.arg
      | _ => s.outsideAccess .remoteRequest part gpa n x.write)

end Sys2Proof.Machine
end

