-- ==== Sys2Proof/Machine/Power.lean ====
section
/-! DEFINITION. Cluster gating (R360, R425) and the package's power window (R425). -/

namespace Sys2Proof.Machine

open Sys2Proof

/-- R360: the save records of a partition's launches, in ascending address order. -/
def State.savedRecords (s : State) (part : Nat) : List Byte :=
  let addrs : Map Unit := ((s.launches.filter (fun e => e.2.part == part)).map (fun e => e.2.saved.map (·.addr))).flatten.foldl
    (fun m a => Map.put m a ()) []
  (addrs.map (fun a => s.gpaBytes part a.1 17408)).flatten

/-- R359: every cluster of a partition's core set is gated. -/
def State.gated (s : State) (p : Part) : Bool := p.coreList.all (fun c => !(s.cluster (c / 8)).powered)

/-- R425: CLUSTER_GATE: a cluster that has been idle for `gidle` ticks is gated; a partition all of whose clusters are gated is
measured (R360). Operand: the cluster. -/
def execClusterGate (s : State) : Out :=
  let cl := s.arg.nat 0
  let c := s.cluster cl
  .next (if !c.powered || s.pkg.gidle == 0 || c.waking || s.harts.any (fun e => decide (e.1 < 32768) && clusterOf e.1 == cl) then s
  else if 0 < c.liveAll ∨ (upTo 8).any (fun i => !(s.core (cl * 8 + i)).tcc.isEmpty) then
    (s.modCluster cl (fun k => { k with lastBusy := s.now })).plan (7 * s.pkg.gidle) .clusterGate { nats := [cl] }
  else if s.now < c.lastBusy + 7 * s.pkg.gidle then s
  else
    let s1 := s.modCluster cl (fun k => { k with powered := false })
    s1.parts.foldl (fun t p =>
      if (upTo 8).any (fun i => p.2.cores.getLsbD (cl * 8 + i)) && t.gated p.2 then t.logEntry p.1 (logGating (t.savedRecords p.1)) else t) s1)

/-- R425: CLUSTER_WAKE: a gated cluster has power again. Operand: the cluster. -/
def execClusterWake (s : State) : Out :=
  let cl := s.arg.nat 0
  .next (if (s.cluster cl).waking then
    ((s.modCluster cl (fun c => { c with powered := true, waking := false })).restCluster cl).kickDispatch
  else s)

/-- R425: POWER_WINDOW: the package's power over the window that ends. Operand: the power in W. -/
def execPowerWindow (s : State) : Out :=
  let over_ := decide (s.pkg.plim < s.arg.nat 0)
  let s1 : State := { s with pkg := { s.pkg with overLimit := over_ } }
  .next (if s.pkg.overLimit && !over_ then s1.kickDispatch else s1)

end Sys2Proof.Machine
end

