-- ==== Sys2Proof/Machine/Dies.lean ====
section
/-! DEFINITION. Dies: the state machine (R347), attestation by the Slate core (R348), status and reset (R350, R353 to R355), and
the reset and power of the package (R419, R420, R425). -/

namespace Sys2Proof.Machine

open Sys2Proof

/-- R11: the dies that a UCIe link joins; B-dies 0 and 1 are 8 and 9. -/
def linkEnds : List (Nat × Nat) :=
  [(0, 1), (1, 2), (2, 3), (4, 5), (5, 6), (6, 7), (0, 4), (1, 5), (2, 6), (3, 7), (8, 0), (8, 4), (9, 3), (9, 7)]

/-- R351: the key of a link direction in `State.links`. -/
def linkKey (d : LinkDir) : Nat := d.link * 2 + b2n d.outward

def State.link (s : State) (k : Nat) : LinkSt := Map.findD s.links k LinkSt.reset
def State.setLink (s : State) (k : Nat) (l : LinkSt) : State := { s with links := Map.put s.links k l }

/-- R11, R12: the dies of this package at a link's ends; from 14 on, Cobalt ports 0 to 63. -/
def linkDies (n : Nat) : List Nat :=
  match linkEnds[n]? with
  | some e => [e.1, e.2]
  | none => if n < 46 then [8] else [9]

/-- The directions of a die's links. -/
def dieLinks (d : Nat) : List Nat :=
  (((upTo 78).filter (fun n => (linkDies n).contains d)).map (fun n => [n * 2, n * 2 + 1])).flatten

/-- R351: a link direction starts over with a key of index 0 that the Slate core draws. -/
def State.keyLink (s : State) (k : Nat) : State :=
  (s.setLink k { LinkSt.reset with keys := [(0, s.free 256)], inService := (s.link k).inService }).drawn

/-- R347, R352: the links of a die start over, the UCIe links with new keys or none; a rollover in progress is abandoned. -/
def State.resetLinks (s : State) (d : Nat) (keyed : Bool) : State :=
  (dieLinks d).foldl (fun t k =>
    if keyed && decide (k < 28) then t.keyLink k
    else t.setLink k { LinkSt.reset with inService := (t.link k).inService }) s

/-- R350: a die changes its state. -/
def State.dieTo (s : State) (d st why : Nat) : State := s.modDie d (fun v => { v with st := st, why := why, tst := s.time })

/-- R354, R387: lines leave their home slices: dirty ones are written back where their partition's are kept, or lost; copies
that a hart data cache has modified are written back in any case. The lost lines. -/
def State.dropLines (s : State) (hit : Nat → Bool) (keep : Nat → Bool) : List Nat × State :=
  let lines := s.mem.llc.filter (fun e => hit e.1)
  let safe := fun (e : Nat × LlcLine) => keep (keyPart e.1) || s.cores.any (fun c => (Map.find c.2.hdc e.1) == some true)
  let s1 := lines.foldl (fun t e => if e.2.dirty && !e.2.held && safe e then t.writeBackLine (keyPart e.1) (keyGpa e.1) e.2 else t) s
  let lost := lines.filter (fun e => match Map.find s1.mem.llc e.1 with
    | none => false
    | some l => l.dirty)
  (lost.map (·.1), { s1 with mem := { s1.mem with llc := s1.mem.llc.filter (fun e => !hit e.1) } })

/-- R354, R355, R386: the die's lines: dirty ones are written back, or lost with a data-loss event for their partition. -/
def State.loseLines (s : State) (d : Nat) (keep : Bool) : State :=
  let r := s.dropLines (fun k => s.home (keyPart k) (keyGpa k) / 64 == d) (fun _ => keep)
  let s2 : State := { r.2 with
    cores := Map.mapVal r.2.cores (fun _ c => { c with hdc := c.hdc.filter (fun e => e.2 || s.home (keyPart e.1) (keyGpa e.1) / 64 != d) }) }
  ((r.1.map keyPart).eraseDups).foldl (fun t p => t.dataLoss p (((r.1.find? (fun k => keyPart k == p)).map keyGpa).getD 0)) s2

/-- R355: watches on the die's slices end with status 3. -/
def State.endWatches (s : State) (d : Nat) : State :=
  (((s.die d).slices.map (fun e => e.2.watches)).flatten).foldl (fun t w =>
    match t.hart? w.hart with
    | none => t
    | some h => match h.run.wait with
      | some (.waita tag _ _) => (t.popLatency).plan t.latency .waitaWake { nats := [w.hart, tag, 3] }
      | _ => t) s

/-- R354: launches with a hart or job on a die, the parked ones apart. -/
def State.launchesOn (s : State) (d : Nat) : List Nat :=
  let hs := (s.harts.filter (fun e => decide (e.1 < 32768) && dieOf e.1 == d)).filterMap (fun e => e.2.role.launch)
  let js := ((s.clusters.filter (fun c => c.1 / 32 == d)).map (fun c => (c.2.jobs.filter (fun j => j.2.live)).filterMap (fun j => j.2.launch))).flatten
  ((hs ++ js).eraseDups).filter (fun l => match s.launch? l with
    | none => false
    | some L => !L.ended && !L.parked)

/-- R354, steps 2 to 5: a die holds nothing any more. -/
def State.loseDie (s : State) (d : Nat) (keep : Bool) : State :=
  let onDie := fun (k : Nat) => decide (dieOf k = d)
  let s0 := (s.harts.filter (fun e => decide (e.1 < 32768) && onDie e.1)).foldl (fun t e => t.drainCore (coreOf e.1)) s
  let s1 := ((s0.loseLines d keep).endWatches d).modDie d (fun v => { v with accept := false, tlb := [], starts := [], ds := [], slices := [] })
  let s2 := (s.launchesOn d).foldl (fun t l => t.endLaunch l 2) s1
  { s2 with
    harts := s2.harts.filter (fun e => !onDie e.1)
    cores := Map.mapVal s2.cores (fun c v => if c / 256 = d then { v with
      l1 := [], icache := [], hdc := [], tlb := [], locks := [], lockq := [], tcc := [], bar := [] } else v)
    clusters := Map.mapVal s2.clusters (fun c v => if c / 32 = d then { Cluster.reset with powered := v.powered, lastBusy := v.lastBusy } else v) }

/-- R420: a step of the bring-up is complete; the next one, numbered by the step and the count of resets, takes its time (log
entry 154). -/
def State.stepDone (s : State) (n : Nat) : State :=
  let t : State := { s with host := { s.host with stage := n } }
  (t.popLatency).plan t.latency .packageReset { nats := [n + 1, t.pkg.boot.toNat] }

/-- R420, step 4: every die has been admitted or rejected. -/
def State.bringUp (s : State) : State :=
  if s.host.stage = 3 ∧ (upTo 10).all (fun d => (s.die d).st == 5 || (s.die d).st == 6) = true then s.stepDone 4 else s

/-- R341, R420, steps 5 to 7: a region of HBM is reserved (log entry 136), BAR 0 appears, and the package is ready. -/
def State.bringUpStep (s : State) (n : Nat) : State :=
  if n = 5 then (({ s with pkg := { s.pkg with reserved := some (s.free 12).toNat } } : State).drawn).stepDone 5
  else if n = 6 then s.stepDone 6
  else { s with host := { s.host with stage := 7, ready := true } }

/-- R408: a die's admission: the package errata mask is formed anew from the errata of the admitted dies (log entry 8). -/
def State.formErrata (s : State) : State :=
  { s with pkg := { s.pkg with
    emask := (upTo 10).foldl (fun a d => if (s.die d).st = 5 then a ||| Config.errata d else a) 0 } }

/-- R127, R354, R355: a die has been admitted or rejected: the vacate orders of its reset are lifted, and what waited for it is
performed. -/
def State.settleDie (s : State) (d : Nat) : State :=
  let s1 := ((s.die d).lifts.foldl State.liftOrder s).modDie d (fun v => { v with lifts := [] })
  let s2 := s1.modHarts (fun _ h => h.run.wait == some (.die d)) (fun _ h => h.unpark s.now)
  let mine := fun (f : Flight) => f.waitsAt && decide (s.home f.owner f.addr / 64 = d)
  let s3 := s2.cores.foldl (fun t c =>
    let fs := c.2.flight.filter mine
    fs.foldl State.goHeld
      (t.modCore c.1 (fun v => { v with flight := v.flight.filter (fun f => !mine f) }))) s2
  let s4 := s3.clusters.foldl (fun t c => (c.2.jobs.filter (fun j => j.2.state == .waiting)).foldl (fun u j => u.resumeJob c.1 j.1)
    (if (t.walkable c.1).isEmpty then t else t.plan 0 .tscWalk { nats := [c.1] })) s3
  let s5 := s4.queues.foldl (fun t q => (t.plan 0 .packetCheck { nats := [q.1 / 256, q.1 % 256] }).plan 0 .launchActivate { nats := [q.1 / 256, q.1 % 256] }) s4
  let s6 := s5.launches.foldl (fun t l => if l.2.ended && l.2.notifyDone then t else t.plan 0 .launchComplete { nats := [l.1] }) s5
  let s7 := s6.harts.foldl (fun t h => (t.wakeRelease h.1).trySave h.1) s6
  ((s7.kickCommits).kickDispatch).bringUp

/-- R347: a failed check rejects a die, which is fenced; its capacity is withdrawn (R391). -/
def State.rejectDie (s : State) (d why : Nat) : State :=
  let s1 := ((s.loseDie d false).resetLinks d false).dieTo d 6 why
  (s1.plan 0 .retirement { unit := .die d, ok := true }).settleDie d

/-- R354: a die is reset. -/
def State.resetDie (s : State) (d : Nat) (keep : Bool) : State :=
  (((s.loseDie d keep).resetLinks d false).dieTo d 1 0).modDie d (fun v => { v with nres := v.nres + 1, step := 1, got := 0, blocks := [] })

/-- R348: how many responses of a die a step awaits. -/
def stepResponses (step : Nat) : Nat := match step with | 1 => 3 | 2 => 2 | 5 => 2 | _ => 1

/-- R348: the next response of a die's handshake, to come within 200 ms. -/
def State.awaitDie (s : State) (d step got : Nat) : State :=
  let t := s.modDie d (fun v => { v with step := step, got := got })
  if step ≤ 6 then t.plan 140000000 .attestTimeout { nats := [d, (t.die d).epoch, step, got] } else t

/-- R347: DIE_RESET_END: a die's reset sequence ends. Operand: the die. -/
def execDieResetEnd (s : State) : Out :=
  let d := s.arg.nat 0
  .next (if (s.die d).st = 1 ∧ d < 10 ∧ d ≠ 8 ∧ 3 ≤ s.host.stage ∧ s.host.stage ≠ 15 ∧ s.pkg.off = false then
    ((s.dieTo d 2 0).modDie d (fun v => { v with epoch := v.epoch + 1 })).awaitDie d 1 0
  else s)

/-- R348: a response of a step of a die's handshake: it fails for a reason, or it is followed by the next, or ends the step. -/
def State.handshake (s : State) (step why : Nat) (good : Bool) (pass : State → Nat → State) : State :=
  let d := s.arg.nat 0
  let v := s.die d
  if v.step = step ∧ 2 ≤ v.st ∧ v.st ≤ 4 ∧ d ≠ 8 then
    (if !good then s.rejectDie d why
    else if v.got + 1 < stepResponses step then s.awaitDie d step (v.got + 1)
    else pass s d)
  else s

/-- R348, step 1: DIE_NEGOTIATE: VERSION, CAPABILITIES, ALGORITHMS; the spec names no reason for a failure here: an undefined value.
Operands: the die; `ok`: version 1.3 and the one algorithm set, as far as the response tells. -/
def execDieNegotiate (s : State) : Out :=
  .next (s.drawn.handshake 1 (s.free 8).toNat s.arg.ok (fun t d => t.awaitDie d 2 0))

/-- R346: the SHA-512 of a public key, as the manifest and the ROM hold it. -/
def publicKeyHash (key : BitVec 4096) : BitVec 512 := sha512Of (bytesOfNat key.toNat 512)

/-- R346: the chain that a die presents ends at the Luarwick root of the ROM; its key is the manifest's for its position. -/
def rootMatches (key : Nat) : Bool := publicKeyHash (BitVec.ofNat 4096 key) == publicKeyHash Config.rootKey
def manifestMatches (d key : Nat) : Bool := publicKeyHash (BitVec.ofNat 4096 key) == publicKeyHash (Config.identityKey d)

/-- R346, R348, step 2: DIE_CERTIFICATE_CHECK: DIGESTS, then the CERTIFICATE. Operands: the die, and of the chain its root's and its
own public key; `ok`: no error, and the signatures of the chain hold. -/
def execDieCertificateCheck (s : State) : Out :=
  let chain := s.arg.ok && ((s.die (s.arg.nat 0)).got == 0 || rootMatches (s.arg.nat 1))
  .next (s.handshake 2 (if chain then 2 else 1)
    (chain && ((s.die (s.arg.nat 0)).got == 0 || manifestMatches (s.arg.nat 0) (s.arg.nat 2))) (fun t d => t.awaitDie d 3 0))

/-- R348, step 3: DIE_CHALLENGE. Operands: the die; `ok`: the signature over the nonce holds. -/
def execDieChallenge (s : State) : Out := .next (s.handshake 3 3 s.arg.ok (fun t d => t.awaitDie d 4 0))

/-- R349: the reference values of a die's five blocks; the third is zero but on an N-die. -/
def referenceBlocks (d : Nat) : List Nat :=
  (upTo 5).map (fun i => if i = 2 ∧ 8 ≤ d then 0 else (Config.dieBlock d (i + 1)).toNat)

/-- R348, R349, step 4: DIE_MEASUREMENT_CHECK. Operands: the die and the five blocks that it reports; `ok`: their signature holds. -/
def execDieMeasurementCheck (s : State) : Out :=
  let blocks := (s.arg.nats.drop 1).take 5
  .next (s.handshake 4 4 (s.arg.ok && blocks == referenceBlocks (s.arg.nat 0)) (fun t d =>
    ((t.dieTo d 3 0).modDie d (fun v => { v with blocks := blocks })).awaitDie d 5 0))

/-- R348, step 5: DIE_KEY_EXCHANGE: KEY_EXCHANGE_RSP, then FINISH_RSP. Operands: the die; `ok`: signed, and the session open. -/
def execDieKeyExchange (s : State) : Out := .next (s.handshake 5 6 s.arg.ok (fun t d => t.awaitDie d 6 0))

/-- R338, R348, R354, R360, step 6: DIE_KEY_DELIVERY: link keys, and the keys of every sealed partition, are installed. Operands: the
die; `ok`: every end acknowledges. -/
def execDieKeyDelivery (s : State) : Out :=
  .next (s.handshake 6 7 s.arg.ok (fun t d =>
    let t1 := ((t.resetLinks d true).dieTo d 4 0).awaitDie d 7 0
    t1.parts.foldl (fun u p => if p.2.sealed_ then u.logEntry p.1 (logKeys d (u.die d).nres) else u) t1))

/-- R388: mesh cycles of a sweep's period, in arithmetic cycles. -/
def sweepPeriod : Nat := (2 ^ 24 * 7 + 19) / 20

/-- R348, R355, step 7: DIE_ADMIT: every link to an admitted neighbour carries the new key. Operands: the die; `ok`. -/
def execDieAdmit (s : State) : Out :=
  .next (s.handshake 7 7 s.arg.ok (fun t d =>
    let t1 := ((t.dieTo d 5 0).modDie d (fun v => { v with accept := decide (d < 8) })).formErrata
    let t2 := if d < 8 then (upTo 64).foldl (fun u i => u.plan sweepPeriod .cleanSweep { nats := [d * 64 + i, (u.die d).epoch] }) t1 else t1
    t2.settleDie d))

/-- R348: ATTEST_TIMEOUT: a response is missing for 200 ms. Operands: the die, its handshake, the step and the response. -/
def execAttestTimeout (s : State) : Out :=
  let d := s.arg.nat 0
  let v := s.die d
  .next (if v.epoch = s.arg.nat 1 ∧ v.step = s.arg.nat 2 ∧ v.got = s.arg.nat 3 ∧ 2 ≤ v.st ∧ v.st ≤ 4 ∧ v.step ≤ 6 then s.rejectDie d 5 else s)

/-- R350, R353: DIE_STATUS. Operand: the buffer. -/
def execDieStatus (s : State) : Out :=
  .next (s.command true true false (fun t =>
    let v := ((upTo 10).map (fun d =>
      let e := t.die d
      bytesOfNat (packFields [(0, 3, e.st), (8, 8, e.why), (16, 8, e.nres), (64, 64, e.tst)]) 16)).flatten
    ⟨0, 0, { t with mem := { t.mem with host := Memory.store t.mem.host (t.arg.nat 0) v } }⟩))

/-- R113, R354: the areas that an order of the device's own uses: what the partition's last order with a checkpoint area has left. -/
def State.ownAreas (s : State) (part : Nat) : List (Nat × Nat × Nat) × Nat :=
  match (s.orders.filter (fun o => o.2.part == part && orderCksize o.2.raw != 0)).getLast? with
  | none => ([], 0)
  | some (_, o) =>
    let pages := min ((o.ckUsed + 4095) / 4096) (orderCksize o.raw)
    ([(448, 64, orderCkarea o.raw + pages * 4096), (576, 32, orderCksize o.raw - pages), (512, 64, orderDlist o.raw + 32 * o.ndisc),
      (608, 16, orderDcap o.raw - o.ndisc)], o.annexUsed)

/-- R113, R354, R392: an order of the device's own on queues of a partition, with its deadline in ticks; its number. -/
def State.postOwn (s : State) (part T : Nat) (qs : Option (List Nat)) : Nat × State :=
  let areas := s.ownAreas part
  let mask := match qs with
    | none => []
    | some l => [(70, 1, 1), (128, 256, l.eraseDups.foldl (fun a q => a + 2 ^ q) 0)]
  let raw := BitVec.ofNat 1024 (packFields ([(0, 64, T), (64, 6, part), (1023, 1, 1)] ++ mask ++ areas.1))
  let oid := s.tag + 1
  let t := s.ownOrder raw
  (oid, { t with orders := Map.mapVal t.orders (fun i o => if i = oid then { o with annexUsed := areas.2 } else o) })

/-- R354, step 1: vacate orders for what runs on a die; their numbers. -/
def State.vacateDie (s : State) (d T : Nat) : State :=
  let ls := (s.launchesOn d).filterMap (fun l => (s.launch? l).map (fun L => (L.part, L.q)))
  (((ls.map (·.1)).eraseDups).foldl (fun t p =>
    let r := t.postOwn p T (some ((ls.filter (fun e => e.1 == p)).map (·.2)))
    r.2.modDie d (fun v => { v with lifts := v.lifts ++ [r.1] })) s)

/-- R353, R354: DIE_RESET. Operands: the die, `ckfirst`, T, and, for the reset itself once its orders are done or T has come, 1
and the die's count of resets. -/
def execDieReset (s : State) : Out :=
  let d := s.arg.nat 0
  let v := s.die d
  .next (if s.arg.nat 3 = 1 then
    (if (v.st = 5 ∨ v.st = 6) ∧ v.nres = s.arg.nat 4 then s.resetDie d true else s)
  else s.command false false false (fun t =>
    if 9 < d then ⟨1, 0, t⟩
    else if d = 8 ∨ (v.st ≠ 5 ∧ v.st ≠ 6) then ⟨3, 0, t⟩
    else if (t.arg.nat 1).testBit 0 then
      let u := t.vacateDie d (t.arg.nat 2)
      let at_ := if (u.die d).lifts.isEmpty then 0 else t.arg.nat 2 * 7 - t.now
      ⟨0, 0, u.plan at_ .dieReset { nats := [d, 0, 0, 1, v.nres] }⟩
    else ⟨0, 0, t.plan 0 .dieReset { nats := [d, 0, 0, 1, v.nres] }⟩))

/-- Timers of what a reset ends: the handshake of a die (R348), sweeps (R388) and rollovers (R352). -/
def resetTimers : List Instr := [.attestTimeout, .cleanSweep, .cleanSweepEnd, .rolloverAckTimeout]

/-- What outlives a package reset: memories outside the package, retired units, spares, and the count of resets; the
environment's inputs to come, by the cycles from now. -/
def State.afterReset (s : State) (boot : BitVec 16) : State :=
  let stays := fun (u : HwUnit) => match u with
    | .die _ => false
    | _ => true
  { State.reset with
    schedule := (s.schedule.filter (fun p => !resetTimers.contains p.ev)).map (fun p => { p with at_ := p.at_ - s.now })
    latencies := s.latencies
    fresh := s.fresh
    tag := s.tag
    nextLaunch := s.nextLaunch
    spdm := { Spdm.reset with nextSession := s.spdm.nextSession }
    mem := { Mem.reset with
      pool := s.mem.pool, host := s.mem.host, remote := s.mem.remote
      sealedAt := s.mem.sealedAt.filter (fun e => decide (2 ^ 45 ≤ e.1)), poisonAt := s.mem.poisonAt.filter (fun a => decide (2 ^ 45 ≤ a)) }
    cores := (s.cores.filter (fun c => s.pkg.gone.contains (.core c.1) || s.pkg.gone.contains (.cluster (c.1 / 8)))).map (fun c => (c.1, { Core.reset with inService := false }))
    links := (s.links.filter (fun l => !l.2.inService)).map (fun l => (l.1, { LinkSt.reset with inService := false }))
    pkg := { Pkg.reset with
      boot := boot, spares := s.pkg.spares, retired := s.pkg.retired.filter stays, gone := s.pkg.gone.filter stays, wear := s.pkg.wear } }

/-- R420, steps 1 to 3: the package is reset; the other dies' handshakes follow. `fw`: the Slate firmware's signature holds;
`b0`: B-die 0 is admitted. -/
def State.packageReset (s : State) (fw b0 : Bool) : State :=
  let t := s.afterReset (s.pkg.boot + 1)
  if fw && b0 then
    ((({ t with host := { t.host with stage := 3 } } : State).dieTo 8 5 0).modDie 8 (fun v => { v with blocks := referenceBlocks 8 })).formErrata
  else { t with host := { t.host with stage := 15 } }

/-- R420: PACKAGE_RESET. Operands: `ok` and `ok2`: steps 2 and 3 succeed; or, for one of the steps 5 to 7 of a reset's bring-up
that is then complete, its number and the reset's count. -/
def execPackageReset (s : State) : Out :=
  .next (match s.arg.nats with
  | [n, boot] => if s.pkg.off = false ∧ s.pkg.boot.toNat = boot ∧ s.host.stage + 1 = n ∧ 5 ≤ n ∧ n ≤ 7 then s.bringUpStep n else s
  | _ => if s.pkg.off then s else s.packageReset s.arg.ok s.arg.ok2)

/-- R425: THERMAL_RESET: at 110 degrees the Slate core resets the package. Operands as PACKAGE_RESET. -/
def execThermalReset (s : State) : Out := .next (if s.pkg.off then s else State.packageReset s s.arg.ok s.arg.ok2)

/-- R347: POWER_OFF: every die is off. -/
def execPowerOff (s : State) : Out :=
  let t := s.afterReset s.pkg.boot
  .next { t with pkg := { t.pkg with off := true }, dies := (upTo 10).map (fun d => (d, { Die.reset with st := 0 })) }

/-- R347, R420, step 1: POWER_ON: every die enters reset. -/
def execPowerOn (s : State) : Out :=
  .next (if s.pkg.off then
    { s with pkg := { s.pkg with off := false }, dies := [], host := { s.host with stage := 1 } }
  else s)

end Sys2Proof.Machine
end

