-- ==== Sys2Proof/Machine/Links.lean ====
section
/-! DEFINITION. Links: flits and their keys (R351, R421), key rollover (R352) and retraining (R389). -/

namespace Sys2Proof.Machine

open Sys2Proof

/-- R11: the link of a direction, and the die of this package that receives it. -/
def receiverOf (d : LinkDir) : Option Nat :=
  match linkEnds[d.link]? with
  | some e => some (if d.outward then e.2 else e.1)
  | none => if d.outward then none else (linkDies d.link).head?

/-- R352: flits carried under one key before a rollover, and flits for which both keys are accepted. -/
def rolloverFlits : Nat := 2 ^ 40
def bothKeys : Nat := 4096

/-- R352: a direction is between the first step of a rollover and its last. -/
def LinkSt.busy (l : LinkSt) : Bool := l.awaiting || l.rolling.isSome

/-- R347: kinds of flit, 0 data, 1 link-key and control, 2 training, that the mainband links of a die in a state carry. -/
def dieCarries (st kind : Nat) : Bool :=
  st == 5 || (st == 4 && kind == 1) || ((st == 2 || st == 3) && kind == 2)

/-- R347, R389: a link is up for a kind of flit: in service, not retraining, and at both ends a die that carries it. -/
def State.linkCarries (s : State) (d : LinkDir) (kind : Nat) : Bool :=
  (s.link (linkKey d)).inService && !(s.link (linkKey d)).retraining && (linkDies d.link).all (fun e => dieCarries (s.die e).st kind)

/-- R351, R352: the receiver accepts a flit of this index that authenticates. -/
def LinkSt.accepts (l : LinkSt) (kidx : Nat) (authentic : Bool) : Bool :=
  authentic && (Map.find l.keys kidx).isSome && !(decide (l.rolling.getD 0 ≥ bothKeys) && decide (kidx ≠ l.kidx))

/-- R351, R352: the count of an accepted flit; one of the old key is not carried under the new. -/
def LinkSt.received (l : LinkSt) (kidx : Nat) : LinkSt :=
  { l with
    flits := if kidx = l.kidx then l.flits + 1 else l.flits
    seqNo := (l.seqNo + 1) % 2 ^ 62
    asked := false
    rolling := l.rolling.map (fun n => if n = 0 ∧ kidx ≠ l.kidx then 0 else n + 1) }

/-- R351: FLIT_RECEIVE: a flit is accepted in order, or discarded and requested again; a training flit is neither. Operands: the link
direction, the flit's key index and kind (R347); `ok`: it authenticates under the key of that index. -/
def execFlitReceive (s : State) : Out :=
  let k := linkKey s.arg.link
  let l := s.link k
  let kidx := s.arg.nat 0
  .next (if s.linkCarries s.arg.link (s.arg.nat 1) = false ∨ s.arg.nat 1 = 2 then s
  else if l.accepts kidx s.arg.ok then
    let l1 := l.received kidx
    let s1 := s.setLink k l1
    let s2 := if l1.rolling = some bothKeys then s1.plan 0 .oldKeyErase { link := s.arg.link } else s1
    if rolloverFlits ≤ l1.flits ∧ l1.busy = false then s2.drawn.plan 0 .keyRolloverStart { link := s.arg.link, ok := s.freeBool } else s2
  else s.setLink k { l with asked := true })

/-- R352: no other link of either end die is rolling, and both ends are admitted. -/
def State.mayRoll (s : State) (d : LinkDir) : Bool :=
  (linkDies d.link).all (fun e => (s.die e).st == 5
    && (dieLinks e).all (fun k => k / 2 == d.link || !(s.link k).busy))

/-- R352, steps 1 to 4: KEY_ROLLOVER_START: the new key is sent, announced and, with `ok`, acknowledged: the sender switches to
it. Operands: the link direction; `ok`: the receiver acknowledges. -/
def execKeyRolloverStart (s : State) : Out :=
  let k := linkKey s.arg.link
  let l := s.link k
  let next := (l.kidx + 1) % 4
  .next (if l.inService = true ∧ l.retraining = false ∧ l.rolling = none ∧ rolloverFlits ≤ l.flits
      ∧ (l.awaiting = true ∨ s.mayRoll s.arg.link = true) then
    (if s.arg.ok then
      (s.setLink k { l with awaiting := false, keys := Map.put l.keys next (s.free 256), kidx := next, rolling := some 0, flits := 0 }).drawn
    else if l.awaiting then s
    else (s.setLink k { l with awaiting := true }).plan 700000 .rolloverAckTimeout { link := s.arg.link, nats := [l.kidx, l.failed] })
  else s)

/-- R352: links whose rollover is due try to start it. -/
def State.kickRollovers (s : State) : State :=
  s.links.foldl (fun t e =>
    if rolloverFlits ≤ e.2.flits ∧ e.2.busy = false then
      t.drawn.plan 0 .keyRolloverStart { link := ⟨e.1 / 2, e.1 % 2 == 1⟩, ok := t.freeBool }
    else t) s

/-- R352, R354: after three abandoned attempts on one link the Slate core resets the receiving die; the reset of B-die 0 is a
package reset (R353). -/
def State.resetReceiver (s : State) (d : LinkDir) : State :=
  match receiverOf d with
  | none => s
  | some e => if e = 8 then s.drawn.drawn.plan 0 .packageReset { ok := s.freeBool, ok2 := s.drawn.freeBool } else s.resetDie e true

/-- R352: ROLLOVER_ACK_TIMEOUT: an attempt is abandoned and the old key kept. Operands: the link direction, its key index and its
count of abandoned attempts when the attempt began. -/
def execRolloverAckTimeout (s : State) : Out :=
  let k := linkKey s.arg.link
  let l := s.link k
  .next (if l.awaiting = true ∧ l.kidx = s.arg.nat 0 ∧ l.failed = s.arg.nat 1 then
    let s1 := s.setLink k { l with awaiting := false, failed := l.failed + 1 }
    let both := (s1.link (2 * s.arg.link.link)).failed + (s1.link (2 * s.arg.link.link + 1)).failed
    if 3 ≤ both then s1.resetReceiver s.arg.link else s1.kickRollovers
  else s)

/-- R352, step 5: OLD_KEY_ERASE: the receiver holds the new key alone. Operand: the link direction. -/
def execOldKeyErase (s : State) : Out :=
  let k := linkKey s.arg.link
  let l := s.link k
  .next (if bothKeys ≤ l.rolling.getD 0 then (s.setLink k { l with keys := l.keys.filter (fun e => e.1 == l.kidx), rolling := none }).kickRollovers else s)

/-- R351, R421: COBALT_LINK_KEYING: a Cobalt link direction is keyed with a key agreed over SPDM. Operand: the link direction. -/
def execCobaltLinkKeying (s : State) : Out :=
  let k := linkKey s.arg.link
  .next (if 14 ≤ s.arg.link.link ∧ s.arg.link.link < 78 ∧ (linkDies s.arg.link.link).all (fun d => (s.die d).st == 5) = true then
    s.keyLink k
  else s)

/-- R389: LINK_RETRAINING_END: traffic on a link resumes. Operand: the link. -/
def execLinkRetrainingEnd (s : State) : Out :=
  let n := s.arg.link.link
  .next (((s.setLink (2 * n) { s.link (2 * n) with retraining := false }).setLink (2 * n + 1)
    { s.link (2 * n + 1) with retraining := false }).kickRollovers)

end Sys2Proof.Machine
end

