-- ==== Sys2Proof/Machine/Errors.lean ====
section
/-! DEFINITION. Errors and recovery: correctable and uncorrectable errors (R385, R386), tag errors and clean sweeps (R387, R388),
spares and the wear threshold (R389, R390), retirement and the minima (R391 to R393). -/

namespace Sys2Proof.Machine

open Sys2Proof

/-- Where a unit's spares and its corrected errors are counted. -/
def unitKey (u : HwUnit) : Nat :=
  match u with
  | .core c => c
  | .pseudoChannel m n => 2 ^ 16 + m * 256 + n
  | .link n => 2 ^ 20 + n
  | .column c => 2 ^ 21 + c
  | .die d => 2 ^ 22 + d
  | .stack n => 2 ^ 23 + n
  | .slice n => 2 ^ 24 + n
  | .cluster c => 2 ^ 25 + c
  | .tlb d => 2 ^ 26 + d

/-- R385, R389: the unit against which an error is counted: what has spares, else the slice, the cluster or the TLB itself. -/
def State.unitOf (s : State) (e : ErrorSite) : Option HwUnit :=
  match e with
  | .hartState h => if h < 32768 then some (.core (h / 16)) else none
  | .scratchBank c _ => some (.core c)
  | .laneL1 c _ => some (.core c)
  | .icacheLine c _ => some (.core c)
  | .tlbEntry c => some (.core c)
  | .hartCache c _ _ => some (.core c)
  | .hbmLine part line => match s.part? part with
    | none => none
    | some p => match p.range? (line * 128) with
      | none => none
      | some r => match s.stage2 p r (line * 128) with
        | .hbm a => some (.pseudoChannel (a / 2 ^ 36) (channelOf a))
        | _ => none
  | .flit n => some (.link n)
  | .matrixColumn cl _ => some (.column cl)
  | .llcData part line => some (.slice (s.home part (line * 128)))
  | .llcTag place _ => some (.slice place)
  | .tile cl _ _ => some (.cluster cl)
  | .barrierUnit cl _ => some (.cluster cl)
  | .jobEntry cl _ => some (.cluster cl)
  | .clusterTlb cl => some (.cluster cl)
  | .dieTlb d => some (.tlb d)
  | .die _ => none

/-- R390: the die of a unit, for a record. -/
def unitDie (u : HwUnit) : Nat :=
  match u with
  | .core c => c / 256
  | .pseudoChannel m _ => m / 2
  | .link n => (linkDies n).headD 0
  | .column c => c / 32
  | .die d => d
  | .stack n => n / 2
  | .slice n => n / 64
  | .cluster c => c / 32
  | .tlb d => d

/-- R394: the unit code of a unit. -/
def unitCode (u : HwUnit) : Nat :=
  match u with
  | .core _ => 3
  | .pseudoChannel _ _ => 0
  | .link _ => 6
  | .column _ => 6
  | .slice _ => 1
  | _ => 7

/-- R390: one hour, in cycles. -/
def wearPeriod : Nat := 360000000000 * 7

/-- R390: a spare is brought in within 100,000 ticks. -/
def State.planSpare (s : State) (u : HwUnit) : State :=
  (s.popLatency).plan (min s.latency 700000) .spareSubstitution { unit := u, ok := s.freeBool }

/-- R385, R390: a corrected error is counted against its unit; at the wear threshold a spare is brought in. -/
def State.countError (s : State) (e : ErrorSite) (word : Nat) : State :=
  match s.unitOf e with
  | none => s
  | some u =>
    if s.pkg.retired.contains u then s
    else
      let w := s.pkg.wear.filter (fun x => decide (s.now < x.2.2 + wearPeriod)) ++ [(unitKey u, word, s.now)]
      let mine := w.filter (fun x => x.1 == unitKey u)
      let s1 : State := { s with pkg := { s.pkg with wear := w } }
      if 32 ≤ (mine.filter (fun x => x.2.1 == word)).length ∨ 1024 ≤ mine.length then
        let s2 : State := { s1 with pkg := { s1.pkg with wear := w.filter (fun x => x.1 != unitKey u) } }
        ((s2.report { cls := 8, part := none, die := unitDie u, unit := unitCode u
                      pos := (match u with
                        | .core c => c
                        | _ => 0) }).planSpare u).drawn
      else s1

/-- R385: CORRECTABLE_ERROR: a word is repaired in place. Operands: the site; the check word. -/
def execCorrectableError (s : State) : Out := .next (s.countError s.arg.site (s.arg.nat 0))

/-- R385: an uncorrectable error's record (R394). -/
def State.errorAt (s : State) (part : Option Nat) (die unit gpa pos slot : Nat) (synd : Nat) (job : Nat := 0) : State :=
  s.report { cls := 3, part := part, die := die, unit := unit, gpa := gpa, pos := pos, slot := slot, synd := synd, job := job
             addr := (match part with
               | none => 0
               | some p => if unit ≤ 1 then s.hpaOf p gpa else 0) }

/-- Launches end with status 0x02. -/
def State.failLaunches (s : State) (ls : List Nat) : State := ls.eraseDups.foldl (fun t l => t.endLaunch l 2) s

/-- R385: launches of a partition with a core group on a core, or with a hart or job in a cluster. -/
def State.launchesAt (s : State) (part : Nat) (here : Nat → Bool) : List Nat :=
  (s.harts.filter (fun e => e.2.role.part == part && decide (e.1 < 32768) && here e.1)).filterMap (fun e => e.2.role.launch)

def State.launchesIn (s : State) (part cl : Nat) : List Nat :=
  s.launchesAt part (fun k => clusterOf k == cl)
    ++ ((s.cluster cl).jobs.filter (fun j => j.2.live && j.2.part == part)).filterMap (fun j => j.2.launch)

/-- R386: a line is poisoned at its home slice. -/
def State.poisonHome (s : State) (part gpa : Nat) : State :=
  let s1 := s.standLine part gpa
  match s1.llc? part gpa with
  | none => s1
  | some l => { s1 with mem := { s1.mem with llc := Map.put s1.mem.llc (lineKey part gpa) { l with poison := true } } }

/-- R386: a line is poisoned in memory. -/
def State.poisonMemory (s : State) (part gpa : Nat) : State :=
  match s.part? part with
  | none => s
  | some p => match p.range? gpa with
    | none => s
    | some r =>
      let key := match s.stage2 p r gpa with
        | .hbm a => some (hbmLine a)
        | .pool a => some (poolLine a)
        | .packed d l => some (packedKey d l)
        | _ => none
      match key with
      | none => s
      | some a => if s.mem.poisonAt.contains a then s else { s with mem := { s.mem with poisonAt := a :: s.mem.poisonAt } }

/-- The copies that an error drops, counted as correctable (R385). -/
def State.dropCopy (s : State) (core : Nat) (f : Core → Core) : State := (s.modCore core f).countError s.arg.site (s.arg.nat 0)

/-- R388: the partitions whose dirty line may have stood in a slice's shared ways. -/
def Slice.mask (sl : Slice) : List Nat := (upTo 64).filter (fun p => (sl.dirty ||| sl.sweep.getD 0).getLsbD p)

/-- R387: an uncorrectable tag error of a set of a slice; `way`: the owner, where the way is a sealed partition's. -/
def State.tagError (s : State) (place set_ : Nat) (way : Option Nat) : State :=
  let d := s.die (place / 64)
  if d.accept = false then s
  else
    let hit := match way with
      | some p => [p]
      | none => (d.slice (place % 64)).mask
    let ps := hit.filter (fun p => (s.part? p).isSome)
    let rec_ : ErrRec := { cls := 5, part := way.bind (fun _ => ps.head?), die := place / 64, unit := 2, pos := place }
    let s1 := s.report rec_
    let inSet := fun k => s.home (keyPart k) (keyGpa k) == place && lineSet k == set_ % 1024
    let s2 := (s1.dropLines inSet (fun p => !ps.contains p)).2
    let s3 := ps.foldl (fun t p => t.dataLoss p 0) s2
    let s4 := ps.foldl (fun t p =>
      match s.part? p with
      | none => t
      | some v => if v.ltol then t else t.failLaunches ((s.launches.filter (fun l => l.2.part == p && !l.2.ended)).map (·.1))) s3
    s4.plan 0 .cleanSweep { nats := [place, d.epoch, 1] }

/-- The owner of a sealed partition's way, as the operands of a tag error name it. -/
def sealedWay (a : EventArgs) : Option Nat := if a.ok then some (a.nat 2) else none

/-- R387: LLC_TAG_ERROR. Operands: the slice and the set; `ok`: the way is a sealed partition's, and its number. -/
def execLlcTagError (s : State) : Out := .next (s.tagError (s.arg.nat 0) (s.arg.nat 1) (sealedWay s.arg))

/-- R354: a fatal error of a die: it is reset and its dirty lines are lost; the reset of B-die 0 is a package reset (R353). -/
def State.fatalDie (s : State) (d : Nat) : State :=
  if (s.die d).st ≠ 5 then s
  else if d = 8 then s.drawn.drawn.plan 0 .packageReset { ok := s.freeBool, ok2 := s.drawn.freeBool }
  else s.resetDie d false

/-- R354, R385, R386: UNCORRECTABLE_ERROR. Operands: the site; the check word, or the entry of a TLB; the syndrome, or `ok` and the
owner of a sealed partition's way (R387). -/
def execUncorrectableError (s : State) : Out :=
  let synd := s.arg.nat 1
  .next (match s.arg.site with
    | .hartState k =>
      (match s.hart? k with
      | none => s
      | some h =>
        (s.errorAt (some h.role.part) (dieOf k) 3 0 (coreOf k) (slotOf k) synd).failLaunches h.role.launch.toList)
    | .scratchBank c bank =>
      (match s.parts.find? (fun p => p.2.cores.getLsbD c && p.2.banks.getLsbD bank) with
      | none => s.errorAt none (c / 256) 4 0 c 0 synd
      | some p => (s.errorAt (some p.1) (c / 256) 4 0 c 0 synd).failLaunches (s.launchesAt p.1 (fun k => coreOf k == c)))
    | .laneL1 c line => s.dropCopy c (fun k => { k with l1 := Map.del k.l1 line })
    | .icacheLine c line => s.dropCopy c (fun k => { k with icache := Map.del k.icache line })
    | .tlbEntry c => s.dropCopy c (fun k => { k with tlb := k.tlb.eraseIdx (s.arg.nat 0) })
    | .hartCache c part line =>
      (match Map.find (s.core c).hdc (lineKey part (line * 128)) with
      | some true =>
        ((s.modCore c (fun k => { k with hdc := Map.del k.hdc (lineKey part (line * 128)) })).poisonHome part (line * 128)).errorAt
          (some part) (c / 256) 3 (line * 128) c 0 synd
      | _ => s.dropCopy c (fun k => { k with hdc := Map.del k.hdc (lineKey part (line * 128)) }))
    | .llcData part line =>
      (match s.llc? part (line * 128) with
      | none => s
      | some l =>
        let t := (s.poisonHome part (line * 128)).errorAt (some part) (s.home part (line * 128) / 64) 1 (line * 128)
          (s.home part (line * 128)) 0 synd
        if l.dirty then t.dataLoss part (line * 128) else t)
    | .tile cl part acc =>
      (s.setTile cl part acc { s.tile cl part acc with poison := true }).errorAt (some part) (cl / 32) 5 0 0 0 synd
    | .barrierUnit cl part => (s.errorAt (some part) (cl / 32) 7 0 0 0 synd).failLaunches (s.launchesIn part cl)
    | .jobEntry cl slot =>
      (match s.job? cl slot with
      | none => s
      | some j => (s.errorAt (some j.part) (cl / 32) 7 0 0 0 synd (jobId j.seq slot).toNat).failLaunches (s.launchesIn j.part cl))
    | .hbmLine part line =>
      (s.poisonMemory part (line * 128)).errorAt (some part) (s.home part (line * 128) / 64) 0 (line * 128) 0 0 synd
    | .flit _ => s
    | .llcTag place set_ => s.tagError place set_ (sealedWay s.arg)
    | .clusterTlb cl => (s.modCluster cl (fun c => { c with tlb := c.tlb.eraseIdx (s.arg.nat 0) })).countError s.arg.site (s.arg.nat 0)
    | .dieTlb d => (s.modDie d (fun v => { v with tlb := v.tlb.eraseIdx (s.arg.nat 0) })).countError s.arg.site (s.arg.nat 0)
    | .die d => s.fatalDie d
    | .matrixColumn cl slot =>
      (match s.job? cl slot with
      | none => s
      | some j => if j.live && j.matrix then
          (((s.failJob cl slot 4 0).errorAt (some j.part) (cl / 32) 6 0 0 0 synd (jobId j.seq slot).toNat).planSpare (.column cl)).drawn
        else s))

/-- A slice changes. -/
def State.modSlice (s : State) (place : Nat) (f : Slice → Slice) : State :=
  s.modDie (place / 64) (fun d => { d with slices := Map.put d.slices (place % 64) (f (d.slice (place % 64))) })

/-- R388: lines of open partitions in a slice. -/
def State.sharedLines (s : State) (place : Nat) : List (Nat × LlcLine) :=
  s.mem.llc.filter (fun e => s.home (keyPart e.1) (keyGpa e.1) == place && (match s.part? (keyPart e.1) with
    | none => false
    | some p => !p.sealed_))

/-- R388: CLEAN_SWEEP: a slice copies its dirty-writer mask and writes back the dirty lines of its shared ways. Operands: the slice,
its die's handshake, and 1 for a sweep after a tag error, which is not the periodic one. -/
def execCleanSweep (s : State) : Out :=
  let place := s.arg.nat 0
  let d := s.die (place / 64)
  .next (if d.accept = true ∧ d.epoch = s.arg.nat 1 then
    let s1 := s.modSlice place (fun sl => { sl with sweep := some (sl.dirty ||| sl.sweep.getD 0), dirty := 0 })
    let s2 := (s1.sharedLines place).foldl (fun t e =>
      if e.2.dirty && !e.2.held && !t.pageFull (keyPart e.1) (keyGpa e.1) then t.writeBackLine (keyPart e.1) (keyGpa e.1) e.2 else t) s1
    let s3 := (s2.popLatency).plan s2.latency .cleanSweepEnd { nats := [place, d.epoch] }
    if s.arg.nat 2 = 1 then s3 else s3.plan sweepPeriod .cleanSweep { nats := [place, d.epoch] }
  else s)

/-- R388: CLEAN_SWEEP_END: the mask is what was dirtied while the sweep ran; a sweep does not end while a line is held (R327).
Operands: the slice and its die's handshake. -/
def execCleanSweepEnd (s : State) : Out :=
  let place := s.arg.nat 0
  let d := s.die (place / 64)
  .next (if d.accept = true ∧ d.epoch = s.arg.nat 1 ∧ (s.sharedLines place).all (fun e => !e.2.held) = true then
    s.modSlice place (fun sl => { sl with sweep := none })
  else s)

/-- R389: spares of a unit's kind: where they are counted, and how many there are. -/
def spareOf (u : HwUnit) : Option (Nat × Nat) :=
  match u with
  | .core c => some (c / 8, 1)
  | .pseudoChannel m _ => some (1000 + m, 8)
  | .column c => some (2000 + c, 2)
  | _ => none

/-- R389: a spare core takes a core's place: its harts are moved in 544 cycles, its caches are empty. -/
def State.moveCore (s : State) (c : Nat) : State :=
  let s1 := s.modHarts (fun k _ => coreOf k == c && decide (k < 32768)) (fun _ h =>
    { h with run := { h.run with resv := none, busyUntil := max h.run.busyUntil (s.now + 544) } })
  s1.modCore c (fun k => { k with l1 := [], icache := [], hdc := [], tlb := [] })

/-- R389: PSEUDO_CHANNEL_COPY_END: every line is served from the spare. Operands: the stack and the pseudo-channel. -/
def execPseudoChannelCopyEnd (s : State) : Out :=
  .next { s with pkg := { s.pkg with copying := s.pkg.copying.filter (fun c => c != (s.arg.nat 0, s.arg.nat 1)) } }

/-- R392: one partition's minimum and what its reduction rests on. -/
structure Share where
  part : Nat
  sealed_ : Bool
  prio : Nat
  mw : Nat
  m : Nat
  vacated : Bool
  deriving DecidableEq, Repr

/-- R392: sealed partitions vacated until their sum fits, lowest `prio` and then lowest number first. -/
def vacateSealed (a : Nat) : Nat → List Share → List Nat × List Share
  | 0, l => ([], l)
  | fuel + 1, l =>
    let sl := l.filter (·.sealed_)
    if (sl.map (·.m)).sum ≤ a then ([], l)
    else
      let left := sl.filter (fun e => !e.vacated)
      match left.find? (fun e => left.all (fun o => decide (e.prio < o.prio) || (e.prio == o.prio && decide (e.part ≤ o.part)))) with
      | none => ([], l)
      | some v =>
        let r := vacateSealed a fuel (l.map (fun e => if e.part = v.part then { e with m := 0, vacated := true } else e))
        (v.part :: r.1, r.2)

/-- R392: one round of the reduction of the open partitions' minima: what is still to be taken. -/
def shareRound (W d0 : Nat) : Nat → List Share → Nat × List Share
  | d, [] => (d, [])
  | d, e :: l =>
    let r := if e.sealed_ || e.m == 0 then 0 else min (min e.m ((d0 * e.mw + W - 1) / W)) d
    let rest := shareRound W d0 (d - r) l
    (rest.1, { e with m := e.m - r } :: rest.2)

/-- R392: open partitions give up d in proportion to `mw`. -/
def shareOpen : Nat → Nat → List Share → List Share
  | 0, _, l => l
  | fuel + 1, d, l =>
    let W := ((l.filter (fun e => !e.sealed_ && decide (0 < e.m))).map (·.mw)).sum
    if d = 0 ∨ W = 0 then l
    else
      let r := shareRound W d d l
      shareOpen fuel r.1 r.2

/-- R392: the minima of one resource of which `a` remains, and the partitions to be vacated. -/
def rebalance (a : Nat) (l : List Share) : List Nat × List Share :=
  let r := vacateSealed a 64 l
  let sumOf := fun (b : Bool) => ((r.2.filter (fun e => e.sealed_ == b)).map (·.m)).sum
  (r.1, shareOpen 65 (sumOf false - (a - sumOf true)) r.2)

/-- R393: a partition has been vacated under R392 since its last record. -/
def State.vacated (s : State) (part : Nat) : Bool := (Map.findD s.host.capTable part 0).testBit 48

/-- R392: the minima of one resource are recomputed. -/
def State.rebalanceOne (s : State) (a Tr : Nat) (get : Part → Nat) (ceiling : Part → Nat) (set_ : Part → Nat → Part) : State :=
  let shares := s.parts.map (fun e =>
    { part := e.1, sealed_ := e.2.sealed_, prio := e.2.prio, mw := e.2.mw, m := min (get e.2) (ceiling e.2), vacated := s.vacated e.1 : Share })
  let r := rebalance a shares
  let s1 := r.2.foldl (fun t e => t.modPart e.part (fun p => set_ p e.m)) s
  r.1.foldl (fun t v =>
    let u := (t.postOwn v Tr none).2
    let w := u.modPart v (fun p => { p with inForce := (0, 0, 0) })
    { w with host := { w.host with capTable := Map.put w.host.capTable v (2 ^ 48) } }) s1

/-- R334, R391: slots, HBM and bandwidth that remain. -/
def State.slotsLeft (s : State) : Nat := ((upTo 2048).filter s.coreStays).length * 16

def State.bandwidthLeft (s : State) : Nat :=
  ((upTo 16).map (fun n => if s.staying (.stack n) && s.staying (.die (n / 2)) then
    16 * (160 - (s.pkg.retired.filter (fun u => match u with
      | .pseudoChannel m _ => m == n
      | _ => false)).length) else 0)).sum

/-- R392: the three resources, each on its own. -/
def State.rebalanceAll (s : State) (Tr : Nat) : State :=
  let s1 := s.rebalanceOne s.slotsLeft Tr (·.inForce.1) (fun p => p.slotCeiling s) (fun p m => { p with inForce := (m, p.inForce.2) })
  let s2 := s1.rebalanceOne s.hbmLeft Tr (·.inForce.2.1) (fun _ => s.hbmLeft) (fun p m => { p with inForce := (p.inForce.1, m, p.inForce.2.2) })
  s2.rebalanceOne s.bandwidthLeft Tr (·.inForce.2.2) (fun _ => s.bandwidthLeft) (fun p m => { p with inForce := (p.inForce.1, p.inForce.2.1, m) })

/-- R393: a unit is one of a partition's: a core of its set or what serves one, or memory of a die that its ranges name. -/
def Part.owns (p : Part) (u : HwUnit) : Bool :=
  match u with
  | .core c => p.cores.getLsbD c
  | .column cl => p.coreList.any (fun c => c / 8 == cl)
  | .die d => p.coreList.any (fun c => c / 256 == d) || p.rtab.any (fun r => r.v && r.cls == 0 && r.die == d)
  | .stack n => p.rtab.any (fun r => r.v && r.cls == 0 && r.die == n / 2)
  | .pseudoChannel n _ => p.rtab.any (fun r => r.v && r.cls == 0 && r.die == n / 2)
  | .slice n => p.rtab.any (fun r => r.v && r.cls == 0 && r.die == n / 64)
  | .cluster cl => p.coreList.any (fun c => c / 8 == cl)
  | .tlb d => p.coreList.any (fun c => c / 256 == d)
  | .link _ => false

/-- R14, R393: the capacity event of a retirement, or of a spare core's use. -/
def State.capacityEvent (s : State) (u : HwUnit) (before : Map Part) : State :=
  let n := s.pkg.events + 1
  let s1 : State := { s with
    pkg := { s.pkg with events := n }
    host := { s.host with capTable := s.parts.map (fun e => (e.1, e.2.capEntry (s.vacated e.1))) } }
  let s2 := s1.report { cls := 7, part := none, die := unitDie u, unit := unitCode u, addr := n }
  let told := fun (p : Nat) => match Map.find before p, s.part? p with
    | some o, some v => o.inForce != v.inForce || v.owns u
    | _, _ => false
  s2.modHarts (fun k h => decide (k < 32768) && told h.role.part) (fun _ h => { h with run := { h.run with irq18 := some (BitVec.ofNat 64 n) } })

/-- R14, R389, R390: SPARE_SUBSTITUTION: a spare of the same kind is brought in, or the unit retires; a capacity event reports a spare
core. Operands: the unit; for a link, `ok`: a redundant lane remains. -/
def execSpareSubstitution (s : State) : Out :=
  let u := s.arg.unit
  let retire := fun (t : State) => t.plan 0 .retirement { unit := u }
  .next (if s.pkg.retired.contains u then s
  else match spareOf u with
  | none => match u with
    | .link n =>
      if s.arg.ok then
        (((s.setLink (2 * n) { s.link (2 * n) with retraining := true }).setLink (2 * n + 1)
          { s.link (2 * n + 1) with retraining := true }).popLatency).plan s.latency .linkRetrainingEnd { link := ⟨n, false⟩ }
      else retire s
    | .slice _ => retire s
    | .cluster _ => retire s
    | .tlb _ => retire s
    | _ => s
  | some (key, n) =>
    if n ≤ Map.findD s.pkg.spares key 0 then retire s
    else
      let s1 : State := { s with pkg := { s.pkg with spares := Map.put s.pkg.spares key (Map.findD s.pkg.spares key 0 + 1) } }
      match u with
      | .core c => (s1.moveCore c).capacityEvent u s.parts
      | .pseudoChannel m c =>
        (({ s1 with pkg := { s1.pkg with copying := s1.pkg.copying ++ [(m, c)] } } : State).popLatency).plan s1.latency
          .pseudoChannelCopyEnd { nats := [m, c] }
      | _ => s1)

/-- R11, R390: dies that a route over the links in service reaches from B-die 0, by steps: traffic passes through N-dies only, and
through no rejected one. -/
def State.reached (s : State) : Nat → List Nat
  | 0 => [8]
  | n + 1 =>
    let seen := s.reached n
    let up := linkEnds.zipIdx.filter (fun e => (s.link (2 * e.2)).inService && (s.link (2 * e.2 + 1)).inService)
    let passes := fun (d : Nat) => seen.contains d && (d == 8 || (decide (d < 8) && (s.die d).st != 6))
    let next := fun (e : (Nat × Nat) × Nat) => (if passes e.1.1 then [e.1.2] else []) ++ (if passes e.1.2 then [e.1.1] else [])
    (seen ++ (up.map next).flatten).eraseDups

/-- R391: a core leaves service: the launches of its harts fail with it. -/
def State.coreLeaves (s : State) (c : Nat) : State :=
  let there := fun (e : Nat × Hart) => coreOf e.1 == c && decide (e.1 < 32768)
  let s1 := (((s.harts.filter there).filterMap (fun e => e.2.role.launch)).eraseDups).foldl (fun t l => t.endLaunch l 2) s
  let s2 := s1.modCore c (fun k => { k with inService := false })
  { s2 with harts := s2.harts.filter (fun e => !there e) }

/-- R390, R391: a unit leaves service, whatever the state of the work on it; an N-die that no route reaches is rejected, for a
reason that the spec does not name (R350). -/
def State.leaveService (s : State) (u : HwUnit) : State :=
  let s1 : State := { s with pkg := { s.pkg with gone := u :: s.pkg.gone } }
  match u with
  | .core c => s1.coreLeaves c
  | .cluster cl => (upTo 8).foldl (fun t i => t.coreLeaves (cl * 8 + i)) s1
  | .link n =>
    let s2 := (s1.setLink (2 * n) { s1.link (2 * n) with inService := false }).setLink (2 * n + 1)
      { s1.link (2 * n + 1) with inService := false }
    ((upTo 8).filter (fun d => !(s2.reached 10).contains d && (s2.die d).st != 6 && (s2.die d).st != 0)).foldl (fun t d =>
      t.drawn.rejectDie d (t.free 8).toNat) s2
  | _ => s1

/-- R391 to R393: RETIREMENT: a unit's retirement is announced, and at T_r the unit leaves service. Operands: the unit; `ok`: it has
failed, so that T_r is now; 1 where T_r has come. -/
def execRetirement (s : State) : Out :=
  let u := s.arg.unit
  .next (if s.arg.nat 0 = 1 then (if s.pkg.retired.contains u ∧ s.pkg.gone.contains u = false then s.leaveService u else s)
  else if s.pkg.retired.contains u then s
  else
    let failed : Bool := s.arg.ok || (match u with
      | .die _ => true
      | _ => false)
    let dt := if failed then 0 else 1000000
    let s1 : State := { s with pkg := { s.pkg with retired := u :: s.pkg.retired } }
    let s2 := (s1.rebalanceAll (s.time + dt)).capacityEvent u s.parts
    let gone : Bool := match u with
      | .die d => (s.die d).st != 6
      | _ => false
    if gone then s else s2.plan (dt * 7) .retirement { unit := u, nats := [1] })

end Sys2Proof.Machine
end

