-- ==== Sys2Proof/Machine/Spdm.lean ====
section
/-! DEFINITION. The package as SPDM responder (R357 to R361). A response is its code and its fields; what signatures,
digests of chains and nonce answers hold is opaque (log entry 7). -/

namespace Sys2Proof.Machine

open Sys2Proof

/-- Response codes and error codes of SPDM 1.3 (PRESUMED, log entry 75). -/
def spdmError : Nat := 0x7F
def errInvalidRequest : Nat := 0x01
def errInvalidSession : Nat := 0x02
def errUnexpected : Nat := 0x04
def errDecrypt : Nat := 0x06
def errUnsupported : Nat := 0x07
def errSessionLimit : Nat := 0x0A

/-- R357: the connection of the port that a request came through, and a response over it. -/
def State.conn (s : State) : Conn := Map.findD s.spdm.conns s.arg.msg.port Conn.reset
def State.setConn (s : State) (c : Conn) : State := { s with spdm := { s.spdm with conns := Map.put s.spdm.conns s.arg.msg.port c } }
def State.respondSpdm (s : State) (code : Nat) (fields : List Nat) : State := s.setConn { s.conn with response := (code, fields) }

/-- R12, R357, R420: a request reaches the responder once the CXL links have trained; it is answered, or met with an ERROR where the
exchanges before it have not been made. -/
def State.spdm_ (s : State) (ready : Bool) (f : State → State) : Out :=
  .next (if !s.arrives s.arg.msg then s
  else if ready then f s else s.respondSpdm spdmError [errUnexpected])

/-- A signature or certificate over a response's fields. -/
def signedFields (code : Nat) (fields : List Nat) : List Nat := fields ++ [(Config.spdmField code fields).toNat]

/-- R357: GET_VERSION: version 1.3; what an earlier connection of the port came to is given up. -/
def execGetVersion (s : State) : Out :=
  s.spdm_ true (fun t =>
    (({ t with spdm := { t.spdm with sessions := t.spdm.sessions.filter (fun e => e.port != t.arg.msg.port) } } : State).setConn
      { t.conn with version := true, caps := false, algs := false }).respondSpdm 0x04 [0x13])

/-- R357: the responder's capabilities: certificates, challenges, signed measurements, encryption, authentication, mutual
authentication, key exchange (log entry 75). -/
def spdmCaps : Nat := 0x3D6

/-- R348: the one set of algorithms: RSASSA-4096, SHA-512, FFDHE4096, AES-256-GCM (log entry 75). -/
def spdmAlgs : List Nat := [0x20, 0x04, 0x04, 0x02]

/-- R357: GET_CAPABILITIES. -/
def execGetCapabilities (s : State) : Out :=
  s.spdm_ s.conn.version (fun t => (t.setConn { t.conn with caps := true }).respondSpdm 0x61 [spdmCaps])

/-- R348, R357: NEGOTIATE_ALGORITHMS. Operands: the sets that the requester offers, of signatures, hashes, key exchanges and ciphers. -/
def execNegotiateAlgorithms (s : State) : Out :=
  s.spdm_ s.conn.caps (fun t =>
    if spdmAlgs.zipIdx.all (fun a => t.arg.nat a.2 &&& a.1 == a.1) then (t.setConn { t.conn with algs := true }).respondSpdm 0x63 spdmAlgs
    else t.respondSpdm spdmError [errInvalidRequest])

/-- R346, R357: what the alias certificate says: the package reset that made its key, the SHA-512 of the Slate firmware, and the
serial of B-die 0, whose identity key certifies it. -/
def State.aliasFields (s : State) : List Nat :=
  [s.pkg.boot.toNat, (sha512Of Config.slateFirmware).toNat, (Config.serial 8).toNat]

/-- R346, R357: GET_DIGESTS: the digest of the alias key's chain. -/
def execGetDigests (s : State) : Out :=
  s.spdm_ s.conn.algs (fun t => t.respondSpdm 0x01 [(Config.spdmField 0x01 t.aliasFields).toNat])

/-- R346, R357: GET_CERTIFICATE: the alias key's chain, which carries the SHA-512 of the Slate firmware. -/
def execGetCertificate (s : State) : Out :=
  s.spdm_ s.conn.algs (fun t => t.respondSpdm 0x02 (signedFields 0x02 t.aliasFields))

/-- R357: CHALLENGE: the alias key's signature over the requester's nonce. Operand: the nonce. -/
def execChallenge (s : State) : Out :=
  s.spdm_ s.conn.algs (fun t => t.respondSpdm 0x03 (signedFields 0x03 [t.pkg.boot.toNat, t.arg.data.toNat]))

/-- R359: a partition has a hart or job on a die. -/
def State.residentOn (s : State) (part d : Nat) : Bool :=
  s.harts.any (fun e => decide (e.1 < 32768) && e.2.role.part == part && dieOf e.1 == d)
    || s.clusters.any (fun c => c.1 / 32 == d && c.2.jobs.any (fun j => j.2.live && j.2.part == part))

/-- R359: the evidence block of a partition. -/
def State.evidence (s : State) (part : Nat) (p : Part) : Nat :=
  let on_ := (upTo 8).filter (s.residentOn part)
  let res := if !on_.isEmpty then 0 else if p.coreList.any (fun c => (s.cluster (c / 8)).powered) then 1 else 2
  packFields [(0, 6, part), (6, 1, b2n p.sealed_), (7, 1, b2n (!p.sealed_ || p.heat)), (8, 2, res),
    (16, 8, on_.foldl (fun a d => a + 2 ^ d) 0), (64, 64, p.tmeas), (128, 64, p.nlog), (192, 512, p.logHash.toNat), (704, 512, p.bhash.toNat)]

/-- R358: the SHA-512 of the five blocks that a die has reported (R349). -/
def Die.digest (d : Die) : BitVec 512 := sha512Of ((d.blocks.map (fun b => bytesOfNat b 64)).flatten)

/-- R358: a measurement block of the package; none where there is no such block. -/
def State.measurement (s : State) (i : Nat) : Option (List Nat) :=
  if i = 1 then some [(sha512Of Config.slateFirmware).toNat]
  else if 2 ≤ i ∧ i ≤ 11 then some [(s.die (i - 2)).digest.toNat, (s.die (i - 2)).st, (s.die (i - 2)).nres % 256]
  else if 64 ≤ i ∧ i < 128 then (s.part? (i - 64)).map (fun p => [s.evidence (i - 64) p])
  else none

/-- R358, R360: GET_MEASUREMENTS: from values retained, with nothing dispatched, powered or read. Operands: a block's index, or 0xFF
for all of them; the nonce. -/
def execGetMeasurements (s : State) : Out :=
  s.spdm_ s.conn.algs (fun t =>
    let i := t.arg.nat 0
    if i = 255 then
      t.respondSpdm 0x60 (signedFields 0x60 (((upTo 128).filterMap (fun j => (t.measurement j).map (fun b => j :: b))).flatten ++ [t.arg.data.toNat]))
    else match t.measurement i with
    | none => t.respondSpdm spdmError [errInvalidRequest]
    | some b => t.respondSpdm 0x60 (signedFields 0x60 (i :: b ++ [t.arg.data.toNat])))

/-- R357: a session by its number. -/
def State.session? (s : State) (id : Nat) : Option Session := s.spdm.sessions.find? (fun e => e.id == id)

/-- R357: KEY_EXCHANGE: a session is opened, of at most 64. -/
def execKeyExchange (s : State) : Out :=
  s.spdm_ s.conn.algs (fun t =>
    if 64 ≤ t.spdm.sessions.length then t.respondSpdm spdmError [errSessionLimit]
    else
      let id := t.spdm.nextSession
      ({ t with spdm := { t.spdm with
        sessions := t.spdm.sessions ++ [{ id := id, port := t.arg.msg.port, finished := false, mutual_ := false, keyHash := 0 }], nextSession := id + 1 } } : State).respondSpdm
        0x64 (signedFields 0x64 [id]))

/-- R357: FINISH. Operands: the session; `ok`: its verification data hold; `ok2`: the requester authenticates, and the SHA-512 of
its public key (the data's low 512 bits). -/
def execFinish (s : State) : Out :=
  s.spdm_ s.conn.algs (fun t =>
    let id := t.arg.nat 0
    match t.session? id with
    | none => t.respondSpdm spdmError [errInvalidSession]
    | some e =>
      if e.finished then t.respondSpdm spdmError [errUnexpected]
      else if t.arg.ok = false then
        ({ t with spdm := { t.spdm with sessions := t.spdm.sessions.filter (fun x => x.id != id) } } : State).respondSpdm spdmError [errDecrypt]
      else
        ({ t with spdm := { t.spdm with sessions := t.spdm.sessions.map (fun x =>
            if x.id = id then { x with finished := true, mutual_ := t.arg.ok2, keyHash := (if t.arg.ok2 then t.arg.data.setWidth 512 else 0) } else x) } } : State).respondSpdm
          0x65 [id])

/-- R357: END_SESSION. Operand: the session. -/
def execEndSession (s : State) : Out :=
  s.spdm_ s.conn.algs (fun t =>
    let id := t.arg.nat 0
    match t.session? id with
    | none => t.respondSpdm spdmError [errInvalidSession]
    | some _ =>
      ({ t with spdm := { t.spdm with sessions := t.spdm.sessions.filter (fun x => x.id != id) } } : State).respondSpdm 0x6C [id])

/-- R361: the binding is accepted: a sealed partition, a session with mutual authentication, and no other requester bound. -/
def State.mayBind (s : State) (part id : Nat) : Option (Part × Session) :=
  match s.part? part, s.session? id with
  | some p, some e =>
    if p.sealed_ && e.finished && e.mutual_ && (p.bkey.isNone || p.bhash == e.keyHash) then some (p, e) else none
  | _, _ => none

/-- R360, R361: REPORT_BIND: a sealed partition's report key is bound. Operands: the partition and the session. -/
def execReportBind (s : State) : Out :=
  s.spdm_ s.conn.algs (fun t =>
    let part := t.arg.nat 0
    let id := t.arg.nat 1
    match t.mayBind part id with
    | none => t.drawn.respondSpdm spdmError [(t.free 8).toNat]
    | some (_, e) =>
      ((t.modPart part (fun p => { p with bkey := some (reportKey (Config.exportSecret id) part), bhash := e.keyHash })).logEntry part
        (logBinding part e.keyHash)).respondSpdm 0x7E [part])

/-- R357: SPDM_UNSUPPORTED_REQUEST: any other request receives ERROR UnsupportedRequest. -/
def execSpdmUnsupportedRequest (s : State) : Out :=
  .next (if !s.arrives s.arg.msg then s else s.respondSpdm spdmError [errUnsupported])

end Sys2Proof.Machine
end

