-- ==== Sys2Proof/Machine/Dispatch.lean ====
section
/-! DEFINITION. The one dispatch: every constructor of `Instr` to its meaning. -/

namespace Sys2Proof.Machine

open Sys2Proof

def exec (i : Instr) (s : State) : Host.Outcome State Fault Refusal :=
  match i with
  | .lui rd imm => Sys2Proof.Machine.execLui rd imm s
  | .auipc rd imm => Sys2Proof.Machine.execAuipc rd imm s
  | .jal rd off => Sys2Proof.Machine.execJal rd off s
  | .jalr rd rs1 imm => Sys2Proof.Machine.execJalr rd rs1 imm s
  | .beq rs1 rs2 off => Sys2Proof.Machine.execBeq rs1 rs2 off s
  | .bne rs1 rs2 off => Sys2Proof.Machine.execBne rs1 rs2 off s
  | .blt rs1 rs2 off => Sys2Proof.Machine.execBlt rs1 rs2 off s
  | .bge rs1 rs2 off => Sys2Proof.Machine.execBge rs1 rs2 off s
  | .bltu rs1 rs2 off => Sys2Proof.Machine.execBltu rs1 rs2 off s
  | .bgeu rs1 rs2 off => Sys2Proof.Machine.execBgeu rs1 rs2 off s
  | .lb rd rs1 imm => Sys2Proof.Machine.execLb rd rs1 imm s
  | .lh rd rs1 imm => Sys2Proof.Machine.execLh rd rs1 imm s
  | .lw rd rs1 imm => Sys2Proof.Machine.execLw rd rs1 imm s
  | .ld rd rs1 imm => Sys2Proof.Machine.execLd rd rs1 imm s
  | .lbu rd rs1 imm => Sys2Proof.Machine.execLbu rd rs1 imm s
  | .lhu rd rs1 imm => Sys2Proof.Machine.execLhu rd rs1 imm s
  | .lwu rd rs1 imm => Sys2Proof.Machine.execLwu rd rs1 imm s
  | .sb rs1 rs2 imm => Sys2Proof.Machine.execSb rs1 rs2 imm s
  | .sh rs1 rs2 imm => Sys2Proof.Machine.execSh rs1 rs2 imm s
  | .sw rs1 rs2 imm => Sys2Proof.Machine.execSw rs1 rs2 imm s
  | .sd rs1 rs2 imm => Sys2Proof.Machine.execSd rs1 rs2 imm s
  | .addi rd rs1 imm => Sys2Proof.Machine.execAddi rd rs1 imm s
  | .slti rd rs1 imm => Sys2Proof.Machine.execSlti rd rs1 imm s
  | .sltiu rd rs1 imm => Sys2Proof.Machine.execSltiu rd rs1 imm s
  | .xori rd rs1 imm => Sys2Proof.Machine.execXori rd rs1 imm s
  | .ori rd rs1 imm => Sys2Proof.Machine.execOri rd rs1 imm s
  | .andi rd rs1 imm => Sys2Proof.Machine.execAndi rd rs1 imm s
  | .slli rd rs1 amt => Sys2Proof.Machine.execSlli rd rs1 amt s
  | .srli rd rs1 amt => Sys2Proof.Machine.execSrli rd rs1 amt s
  | .srai rd rs1 amt => Sys2Proof.Machine.execSrai rd rs1 amt s
  | .addiw rd rs1 imm => Sys2Proof.Machine.execAddiw rd rs1 imm s
  | .slliw rd rs1 amt => Sys2Proof.Machine.execSlliw rd rs1 amt s
  | .srliw rd rs1 amt => Sys2Proof.Machine.execSrliw rd rs1 amt s
  | .sraiw rd rs1 amt => Sys2Proof.Machine.execSraiw rd rs1 amt s
  | .add rd rs1 rs2 => Sys2Proof.Machine.execAdd rd rs1 rs2 s
  | .sub rd rs1 rs2 => Sys2Proof.Machine.execSub rd rs1 rs2 s
  | .sll rd rs1 rs2 => Sys2Proof.Machine.execSll rd rs1 rs2 s
  | .slt rd rs1 rs2 => Sys2Proof.Machine.execSlt rd rs1 rs2 s
  | .sltu rd rs1 rs2 => Sys2Proof.Machine.execSltu rd rs1 rs2 s
  | .xor rd rs1 rs2 => Sys2Proof.Machine.execXor rd rs1 rs2 s
  | .srl rd rs1 rs2 => Sys2Proof.Machine.execSrl rd rs1 rs2 s
  | .sra rd rs1 rs2 => Sys2Proof.Machine.execSra rd rs1 rs2 s
  | .or rd rs1 rs2 => Sys2Proof.Machine.execOr rd rs1 rs2 s
  | .and rd rs1 rs2 => Sys2Proof.Machine.execAnd rd rs1 rs2 s
  | .mul rd rs1 rs2 => Sys2Proof.Machine.execMul rd rs1 rs2 s
  | .mulh rd rs1 rs2 => Sys2Proof.Machine.execMulh rd rs1 rs2 s
  | .mulhsu rd rs1 rs2 => Sys2Proof.Machine.execMulhsu rd rs1 rs2 s
  | .mulhu rd rs1 rs2 => Sys2Proof.Machine.execMulhu rd rs1 rs2 s
  | .div rd rs1 rs2 => Sys2Proof.Machine.execDiv rd rs1 rs2 s
  | .divu rd rs1 rs2 => Sys2Proof.Machine.execDivu rd rs1 rs2 s
  | .rem rd rs1 rs2 => Sys2Proof.Machine.execRem rd rs1 rs2 s
  | .remu rd rs1 rs2 => Sys2Proof.Machine.execRemu rd rs1 rs2 s
  | .addw rd rs1 rs2 => Sys2Proof.Machine.execAddw rd rs1 rs2 s
  | .subw rd rs1 rs2 => Sys2Proof.Machine.execSubw rd rs1 rs2 s
  | .sllw rd rs1 rs2 => Sys2Proof.Machine.execSllw rd rs1 rs2 s
  | .srlw rd rs1 rs2 => Sys2Proof.Machine.execSrlw rd rs1 rs2 s
  | .sraw rd rs1 rs2 => Sys2Proof.Machine.execSraw rd rs1 rs2 s
  | .mulw rd rs1 rs2 => Sys2Proof.Machine.execMulw rd rs1 rs2 s
  | .divw rd rs1 rs2 => Sys2Proof.Machine.execDivw rd rs1 rs2 s
  | .divuw rd rs1 rs2 => Sys2Proof.Machine.execDivuw rd rs1 rs2 s
  | .remw rd rs1 rs2 => Sys2Proof.Machine.execRemw rd rs1 rs2 s
  | .remuw rd rs1 rs2 => Sys2Proof.Machine.execRemuw rd rs1 rs2 s
  | .lr rd rs1 aq rl dbl => Sys2Proof.Machine.execLr rd rs1 aq rl dbl s
  | .sc rd rs1 rs2 aq rl dbl => Sys2Proof.Machine.execSc rd rs1 rs2 aq rl dbl s
  | .amoswap rd rs1 rs2 aq rl dbl => Sys2Proof.Machine.execAmoswap rd rs1 rs2 aq rl dbl s
  | .amoadd rd rs1 rs2 aq rl dbl => Sys2Proof.Machine.execAmoadd rd rs1 rs2 aq rl dbl s
  | .amoxor rd rs1 rs2 aq rl dbl => Sys2Proof.Machine.execAmoxor rd rs1 rs2 aq rl dbl s
  | .amoand rd rs1 rs2 aq rl dbl => Sys2Proof.Machine.execAmoand rd rs1 rs2 aq rl dbl s
  | .amoor rd rs1 rs2 aq rl dbl => Sys2Proof.Machine.execAmoor rd rs1 rs2 aq rl dbl s
  | .amomin rd rs1 rs2 aq rl dbl => Sys2Proof.Machine.execAmomin rd rs1 rs2 aq rl dbl s
  | .amomax rd rs1 rs2 aq rl dbl => Sys2Proof.Machine.execAmomax rd rs1 rs2 aq rl dbl s
  | .amominu rd rs1 rs2 aq rl dbl => Sys2Proof.Machine.execAmominu rd rs1 rs2 aq rl dbl s
  | .amomaxu rd rs1 rs2 aq rl dbl => Sys2Proof.Machine.execAmomaxu rd rs1 rs2 aq rl dbl s
  | .fence tso pred succ => Sys2Proof.Machine.execFence tso pred succ s
  | .sfenceVma rs1 rs2 => Sys2Proof.Machine.execSfenceVma rs1 rs2 s
  | .csrrw rd rs1 csr => Sys2Proof.Machine.execCsrrw rd rs1 csr s
  | .csrrs rd rs1 csr => Sys2Proof.Machine.execCsrrs rd rs1 csr s
  | .csrrc rd rs1 csr => Sys2Proof.Machine.execCsrrc rd rs1 csr s
  | .csrrwi rd uimm csr => Sys2Proof.Machine.execCsrrwi rd uimm csr s
  | .csrrsi rd uimm csr => Sys2Proof.Machine.execCsrrsi rd uimm csr s
  | .csrrci rd uimm csr => Sys2Proof.Machine.execCsrrci rd uimm csr s
  | .ladd f => Sys2Proof.Machine.execLadd f s
  | .laddImm f => Sys2Proof.Machine.execLaddImm f s
  | .laddS32 f => Sys2Proof.Machine.execLaddS32 f s
  | .lsub f => Sys2Proof.Machine.execLsub f s
  | .lsubImm f => Sys2Proof.Machine.execLsubImm f s
  | .lsubS32 f => Sys2Proof.Machine.execLsubS32 f s
  | .lmul f => Sys2Proof.Machine.execLmul f s
  | .lmulImm f => Sys2Proof.Machine.execLmulImm f s
  | .lmulS32 f => Sys2Proof.Machine.execLmulS32 f s
  | .lmulh f => Sys2Proof.Machine.execLmulh f s
  | .lmulhImm f => Sys2Proof.Machine.execLmulhImm f s
  | .lmulhS32 f => Sys2Proof.Machine.execLmulhS32 f s
  | .lmad f => Sys2Proof.Machine.execLmad f s
  | .lmadImm f => Sys2Proof.Machine.execLmadImm f s
  | .lmin f => Sys2Proof.Machine.execLmin f s
  | .lminImm f => Sys2Proof.Machine.execLminImm f s
  | .lminS32 f => Sys2Proof.Machine.execLminS32 f s
  | .lmax f => Sys2Proof.Machine.execLmax f s
  | .lmaxImm f => Sys2Proof.Machine.execLmaxImm f s
  | .lmaxS32 f => Sys2Proof.Machine.execLmaxS32 f s
  | .labs f => Sys2Proof.Machine.execLabs f s
  | .labsS32 f => Sys2Proof.Machine.execLabsS32 f s
  | .land f => Sys2Proof.Machine.execLand f s
  | .landImm f => Sys2Proof.Machine.execLandImm f s
  | .landS32 f => Sys2Proof.Machine.execLandS32 f s
  | .lor f => Sys2Proof.Machine.execLor f s
  | .lorImm f => Sys2Proof.Machine.execLorImm f s
  | .lorS32 f => Sys2Proof.Machine.execLorS32 f s
  | .lxor f => Sys2Proof.Machine.execLxor f s
  | .lxorImm f => Sys2Proof.Machine.execLxorImm f s
  | .lxorS32 f => Sys2Proof.Machine.execLxorS32 f s
  | .landn f => Sys2Proof.Machine.execLandn f s
  | .landnImm f => Sys2Proof.Machine.execLandnImm f s
  | .landnS32 f => Sys2Proof.Machine.execLandnS32 f s
  | .lshl f => Sys2Proof.Machine.execLshl f s
  | .lshlImm f => Sys2Proof.Machine.execLshlImm f s
  | .lshlS32 f => Sys2Proof.Machine.execLshlS32 f s
  | .lshr f => Sys2Proof.Machine.execLshr f s
  | .lshrImm f => Sys2Proof.Machine.execLshrImm f s
  | .lshrS32 f => Sys2Proof.Machine.execLshrS32 f s
  | .lsra f => Sys2Proof.Machine.execLsra f s
  | .lsraImm f => Sys2Proof.Machine.execLsraImm f s
  | .lsraS32 f => Sys2Proof.Machine.execLsraS32 f s
  | .lrot f => Sys2Proof.Machine.execLrot f s
  | .lrotImm f => Sys2Proof.Machine.execLrotImm f s
  | .lrotS32 f => Sys2Proof.Machine.execLrotS32 f s
  | .lclz f => Sys2Proof.Machine.execLclz f s
  | .lclzS32 f => Sys2Proof.Machine.execLclzS32 f s
  | .lpopc f => Sys2Proof.Machine.execLpopc f s
  | .lpopcS32 f => Sys2Proof.Machine.execLpopcS32 f s
  | .lbrev f => Sys2Proof.Machine.execLbrev f s
  | .lbrevS32 f => Sys2Proof.Machine.execLbrevS32 f s
  | .lbfx f pos len1 sx => Sys2Proof.Machine.execLbfx f pos len1 sx s
  | .lbfi f pos len1 => Sys2Proof.Machine.execLbfi f pos len1 s
  | .lsel f k neg => Sys2Proof.Machine.execLsel f k neg s
  | .lselImm f k neg => Sys2Proof.Machine.execLselImm f k neg s
  | .lcmp f cond => Sys2Proof.Machine.execLcmp f cond s
  | .lcmpImm f cond => Sys2Proof.Machine.execLcmpImm f cond s
  | .laddc f pci pco used => Sys2Proof.Machine.execLaddc f pci pco used s
  | .lfadd f => Sys2Proof.Machine.execLfadd f s
  | .lfaddImm f => Sys2Proof.Machine.execLfaddImm f s
  | .lfaddS32 f => Sys2Proof.Machine.execLfaddS32 f s
  | .lfsub f => Sys2Proof.Machine.execLfsub f s
  | .lfsubImm f => Sys2Proof.Machine.execLfsubImm f s
  | .lfsubS32 f => Sys2Proof.Machine.execLfsubS32 f s
  | .lfmul f => Sys2Proof.Machine.execLfmul f s
  | .lfmulImm f => Sys2Proof.Machine.execLfmulImm f s
  | .lfmulS32 f => Sys2Proof.Machine.execLfmulS32 f s
  | .lfma f => Sys2Proof.Machine.execLfma f s
  | .lfmaImm f => Sys2Proof.Machine.execLfmaImm f s
  | .lfmin f => Sys2Proof.Machine.execLfmin f s
  | .lfminImm f => Sys2Proof.Machine.execLfminImm f s
  | .lfminS32 f => Sys2Proof.Machine.execLfminS32 f s
  | .lfmax f => Sys2Proof.Machine.execLfmax f s
  | .lfmaxImm f => Sys2Proof.Machine.execLfmaxImm f s
  | .lfmaxS32 f => Sys2Proof.Machine.execLfmaxS32 f s
  | .lfsgn f kind => Sys2Proof.Machine.execLfsgn f kind s
  | .lfrcp f => Sys2Proof.Machine.execLfrcp f s
  | .lfrcpS32 f => Sys2Proof.Machine.execLfrcpS32 f s
  | .lfrsq f => Sys2Proof.Machine.execLfrsq f s
  | .lfrsqS32 f => Sys2Proof.Machine.execLfrsqS32 f s
  | .lfsqrt f => Sys2Proof.Machine.execLfsqrt f s
  | .lfsqrtS32 f => Sys2Proof.Machine.execLfsqrtS32 f s
  | .lfdiv f => Sys2Proof.Machine.execLfdiv f s
  | .lfdivImm f => Sys2Proof.Machine.execLfdivImm f s
  | .lfdivS32 f => Sys2Proof.Machine.execLfdivS32 f s
  | .lfexp2 f => Sys2Proof.Machine.execLfexp2 f s
  | .lfexp2S32 f => Sys2Proof.Machine.execLfexp2S32 f s
  | .lflog2 f => Sys2Proof.Machine.execLflog2 f s
  | .lflog2S32 f => Sys2Proof.Machine.execLflog2S32 f s
  | .lfcmp f cond => Sys2Proof.Machine.execLfcmp f cond s
  | .lfcmpImm f cond => Sys2Proof.Machine.execLfcmpImm f cond s
  | .lfclass f mask => Sys2Proof.Machine.execLfclass f mask s
  | .lcvt f dst src bs sel => Sys2Proof.Machine.execLcvt f dst src bs sel s
  | .lpack f dst => Sys2Proof.Machine.execLpack f dst s
  | .lunpk f src k => Sys2Proof.Machine.execLunpk f src k s
  | .lmov f => Sys2Proof.Machine.execLmov f s
  | .lmovi vd imm ty guard => Sys2Proof.Machine.execLmovi vd imm ty guard s
  | .lbcast f => Sys2Proof.Machine.execLbcast f s
  | .lextr xd va ty n => Sys2Proof.Machine.execLextr xd va ty n s
  | .lins vd xs ty n => Sys2Proof.Machine.execLins vd xs ty n s
  | .lshfl f kind c => Sys2Proof.Machine.execLshfl f kind c s
  | .lred f op => Sys2Proof.Machine.execLred f op s
  | .lscan f op excl => Sys2Proof.Machine.execLscan f op excl s
  | .lballot xd pa => Sys2Proof.Machine.execLballot xd pa s
  | .lgets vd guard src => Sys2Proof.Machine.execLgets vd guard src s
  | .ltrns vd va => Sys2Proof.Machine.execLtrns vd va s
  | .plog pd pa pb guard tt => Sys2Proof.Machine.execPlog pd pa pb guard tt s
  | .pmovPred pd pa guard => Sys2Proof.Machine.execPmovPred pd pa guard s
  | .pmovFromX pd xs guard => Sys2Proof.Machine.execPmovFromX pd xs guard s
  | .pmovToX xd pa => Sys2Proof.Machine.execPmovToX xd pa s
  | .emset xs => Sys2Proof.Machine.execEmset xs s
  | .emget xd => Sys2Proof.Machine.execEmget xd s
  | .emand xd pa neg => Sys2Proof.Machine.execEmand xd pa neg s
  | .lld m policy => Sys2Proof.Machine.execLld m policy s
  | .lldImm m imm => Sys2Proof.Machine.execLldImm m imm s
  | .lst m policy => Sys2Proof.Machine.execLst m policy s
  | .lstImm m imm => Sys2Proof.Machine.execLstImm m imm s
  | .lldt m policy => Sys2Proof.Machine.execLldt m policy s
  | .lldtImm m imm => Sys2Proof.Machine.execLldtImm m imm s
  | .lamo m op order scope vs => Sys2Proof.Machine.execLamo m op order scope vs s
  | .lpref m policy => Sys2Proof.Machine.execLpref m policy s
  | .lprefImm m imm => Sys2Proof.Machine.execLprefImm m imm s
  | .mma j src q fmt had norm => Sys2Proof.Machine.execMma j src q fmt had norm s
  | .mmas j src q fsa fsb had norm => Sys2Proof.Machine.execMmas j src q fsa fsb had norm s
  | .mhad j size norm => Sys2Proof.Machine.execMhad j size norm s
  | .mqnt j rm fs => Sys2Proof.Machine.execMqnt j rm fs s
  | .mcvt j rm sat => Sys2Proof.Machine.execMcvt j rm sat s
  | .mzero j kind => Sys2Proof.Machine.execMzero j kind s
  | .mst j rm n1 => Sys2Proof.Machine.execMst j rm n1 s
  | .mld j n1 kind => Sys2Proof.Machine.execMld j n1 kind s
  | .rfl xd => Sys2Proof.Machine.execRfl xd s
  | .spw pd xq vs => Sys2Proof.Machine.execSpw pd xq vs s
  | .enq xd xq xp => Sys2Proof.Machine.execEnq xd xq xp s
  | .pfence scope order => Sys2Proof.Machine.execPfence scope order s
  | .waita xd xa xt => Sys2Proof.Machine.execWaita xd xa xt s
  | .lkbank xb => Sys2Proof.Machine.execLkbank xb s
  | .ulkbank xb => Sys2Proof.Machine.execUlkbank xb s
  | .bcpy xd xa xn => Sys2Proof.Machine.execBcpy xd xa xn s
  | .bfil xd xa xn => Sys2Proof.Machine.execBfil xd xa xn s
  | .bgat xd xa xn => Sys2Proof.Machine.execBgat xd xa xn s
  | .bsct xd xa xn => Sys2Proof.Machine.execBsct xd xa xn s
  | .jpoll xd xj => Sys2Proof.Machine.execJpoll xd xj s
  | .jwait xd xj => Sys2Proof.Machine.execJwait xd xj s
  | .jyield xj xc => Sys2Proof.Machine.execJyield xj xc s
  | .px m => Sys2Proof.Machine.execPx m s
  | .tlbw xe xa => Sys2Proof.Machine.execTlbw xe xa s
  | .tlbinv xa xc => Sys2Proof.Machine.execTlbinv xa xc s
  | .tlbprobe xd xa => Sys2Proof.Machine.execTlbprobe xd xa s
  | .ctxs xr => Sys2Proof.Machine.execCtxs xr s
  | .ctxl xr => Sys2Proof.Machine.execCtxl xr s
  | .msgs xt xm => Sys2Proof.Machine.execMsgs xt xm s
  | .msgr xd xb => Sys2Proof.Machine.execMsgr xd xb s
  | .fenceI => Sys2Proof.Machine.execFenceI s
  | .ecall => Sys2Proof.Machine.execEcall s
  | .ebreak => Sys2Proof.Machine.execEbreak s
  | .sret => Sys2Proof.Machine.execSret s
  | .mret => Sys2Proof.Machine.execMret s
  | .wfi => Sys2Proof.Machine.execWfi s
  | .barC => Sys2Proof.Machine.execBarC s
  | .barK => Sys2Proof.Machine.execBarK s
  | .xit => Sys2Proof.Machine.execXit s
  | .xfence => Sys2Proof.Machine.execXfence s
  | .ofence => Sys2Proof.Machine.execOfence s
  | .retx => Sys2Proof.Machine.execRetx s
  | .fwVersion => Sys2Proof.Machine.execFwVersion s
  | .fwFeatureMask => Sys2Proof.Machine.execFwFeatureMask s
  | .fwPosition => Sys2Proof.Machine.execFwPosition s
  | .fwUnsupported => Sys2Proof.Machine.execFwUnsupported s
  | .takeAsyncCause => Sys2Proof.Machine.execTakeAsyncCause s
  | .takeInterrupt => Sys2Proof.Machine.execTakeInterrupt s
  | .missDataReturn => Sys2Proof.Machine.execMissDataReturn s
  | .releaseComplete => Sys2Proof.Machine.execReleaseComplete s
  | .rflClaimAnswer => Sys2Proof.Machine.execRflClaimAnswer s
  | .bankLockGrant => Sys2Proof.Machine.execBankLockGrant s
  | .bankLockBreak => Sys2Proof.Machine.execBankLockBreak s
  | .waitaWake => Sys2Proof.Machine.execWaitaWake s
  | .waitaTimeout => Sys2Proof.Machine.execWaitaTimeout s
  | .wfiWake => Sys2Proof.Machine.execWfiWake s
  | .sfenceVmaComplete => Sys2Proof.Machine.execSfenceVmaComplete s
  | .orderedStallEnd => Sys2Proof.Machine.execOrderedStallEnd s
  | .hangDetect => Sys2Proof.Machine.execHangDetect s
  | .barrierRelease => Sys2Proof.Machine.execBarrierRelease s
  | .packetCheck => Sys2Proof.Machine.execPacketCheck s
  | .launchActivate => Sys2Proof.Machine.execLaunchActivate s
  | .queueAging => Sys2Proof.Machine.execQueueAging s
  | .placeUnit => Sys2Proof.Machine.execPlaceUnit s
  | .placeGang => Sys2Proof.Machine.execPlaceGang s
  | .itemCommit => Sys2Proof.Machine.execItemCommit s
  | .launchComplete => Sys2Proof.Machine.execLaunchComplete s
  | .launchFail => Sys2Proof.Machine.execLaunchFail s
  | .jobStart => Sys2Proof.Machine.execJobStart s
  | .matrixStartGrant => Sys2Proof.Machine.execMatrixStartGrant s
  | .bteChunk => Sys2Proof.Machine.execBteChunk s
  | .jobComplete => Sys2Proof.Machine.execJobComplete s
  | .jobFail => Sys2Proof.Machine.execJobFail s
  | .tscWalk => Sys2Proof.Machine.execTscWalk s
  | .walkResultReturn => Sys2Proof.Machine.execWalkResultReturn s
  | .faultRecordDeferred => Sys2Proof.Machine.execFaultRecordDeferred s
  | .lineWriteback => Sys2Proof.Machine.execLineWriteback s
  | .correctableError => Sys2Proof.Machine.execCorrectableError s
  | .uncorrectableError => Sys2Proof.Machine.execUncorrectableError s
  | .llcTagError => Sys2Proof.Machine.execLlcTagError s
  | .cleanSweep => Sys2Proof.Machine.execCleanSweep s
  | .spareSubstitution => Sys2Proof.Machine.execSpareSubstitution s
  | .retirement => Sys2Proof.Machine.execRetirement s
  | .vacateOrder => Sys2Proof.Machine.execVacateOrder s
  | .vacateLift => Sys2Proof.Machine.execVacateLift s
  | .progressInterval => Sys2Proof.Machine.execProgressInterval s
  | .vacateCheck => Sys2Proof.Machine.execVacateCheck s
  | .vacateDeadlineFail => Sys2Proof.Machine.execVacateDeadlineFail s
  | .vacancyReached => Sys2Proof.Machine.execVacancyReached s
  | .safePointGraceExpiry => Sys2Proof.Machine.execSafePointGraceExpiry s
  | .hartSave => Sys2Proof.Machine.execHartSave s
  | .contextSpill => Sys2Proof.Machine.execContextSpill s
  | .sealedCoreSave => Sys2Proof.Machine.execSealedCoreSave s
  | .hartRestore => Sys2Proof.Machine.execHartRestore s
  | .powerOn => Sys2Proof.Machine.execPowerOn s
  | .powerOff => Sys2Proof.Machine.execPowerOff s
  | .packageReset => Sys2Proof.Machine.execPackageReset s
  | .dieResetEnd => Sys2Proof.Machine.execDieResetEnd s
  | .dieNegotiate => Sys2Proof.Machine.execDieNegotiate s
  | .dieCertificateCheck => Sys2Proof.Machine.execDieCertificateCheck s
  | .dieChallenge => Sys2Proof.Machine.execDieChallenge s
  | .dieMeasurementCheck => Sys2Proof.Machine.execDieMeasurementCheck s
  | .dieKeyExchange => Sys2Proof.Machine.execDieKeyExchange s
  | .dieKeyDelivery => Sys2Proof.Machine.execDieKeyDelivery s
  | .dieAdmit => Sys2Proof.Machine.execDieAdmit s
  | .attestTimeout => Sys2Proof.Machine.execAttestTimeout s
  | .flitReceive => Sys2Proof.Machine.execFlitReceive s
  | .keyRolloverStart => Sys2Proof.Machine.execKeyRolloverStart s
  | .rolloverAckTimeout => Sys2Proof.Machine.execRolloverAckTimeout s
  | .oldKeyErase => Sys2Proof.Machine.execOldKeyErase s
  | .hostRawAccess => Sys2Proof.Machine.execHostRawAccess s
  | .hostWindowAccess => Sys2Proof.Machine.execHostWindowAccess s
  | .poolBackInvalidate => Sys2Proof.Machine.execPoolBackInvalidate s
  | .remoteRequest => Sys2Proof.Machine.execRemoteRequest s
  | .mailboxUnknownCode => Sys2Proof.Machine.execMailboxUnknownCode s
  | .partSet => Sys2Proof.Machine.execPartSet s
  | .partDrop => Sys2Proof.Machine.execPartDrop s
  | .mapSet => Sys2Proof.Machine.execMapSet s
  | .imgInfo => Sys2Proof.Machine.execImgInfo s
  | .ringSet => Sys2Proof.Machine.execRingSet s
  | .qreg => Sys2Proof.Machine.execQreg s
  | .qdrop => Sys2Proof.Machine.execQdrop s
  | .winSet => Sys2Proof.Machine.execWinSet s
  | .fltAnsReplay => Sys2Proof.Machine.execFltAnsReplay s
  | .fltAnsDecline => Sys2Proof.Machine.execFltAnsDecline s
  | .s2Set => Sys2Proof.Machine.execS2Set s
  | .pageOut => Sys2Proof.Machine.execPageOut s
  | .pageIn => Sys2Proof.Machine.execPageIn s
  | .dieReset => Sys2Proof.Machine.execDieReset s
  | .dieStatus => Sys2Proof.Machine.execDieStatus s
  | .exportCmd => Sys2Proof.Machine.execExportCmd s
  | .dbgHalt => Sys2Proof.Machine.execDbgHalt s
  | .dbgResume => Sys2Proof.Machine.execDbgResume s
  | .dbgStep => Sys2Proof.Machine.execDbgStep s
  | .dbgRd => Sys2Proof.Machine.execDbgRd s
  | .dbgWr => Sys2Proof.Machine.execDbgWr s
  | .gangStop => Sys2Proof.Machine.execGangStop s
  | .gangGo => Sys2Proof.Machine.execGangGo s
  | .resync => Sys2Proof.Machine.execResync s
  | .powerSet => Sys2Proof.Machine.execPowerSet s
  | .domSet => Sys2Proof.Machine.execDomSet s
  | .fconsWrite => Sys2Proof.Machine.execFconsWrite s
  | .heatControlWrite => Sys2Proof.Machine.execHeatControlWrite s
  | .registerWrite => Sys2Proof.Machine.execRegisterWrite s
  | .getVersion => Sys2Proof.Machine.execGetVersion s
  | .getCapabilities => Sys2Proof.Machine.execGetCapabilities s
  | .negotiateAlgorithms => Sys2Proof.Machine.execNegotiateAlgorithms s
  | .getDigests => Sys2Proof.Machine.execGetDigests s
  | .getCertificate => Sys2Proof.Machine.execGetCertificate s
  | .challenge => Sys2Proof.Machine.execChallenge s
  | .getMeasurements => Sys2Proof.Machine.execGetMeasurements s
  | .keyExchange => Sys2Proof.Machine.execKeyExchange s
  | .finish => Sys2Proof.Machine.execFinish s
  | .endSession => Sys2Proof.Machine.execEndSession s
  | .reportBind => Sys2Proof.Machine.execReportBind s
  | .spdmUnsupportedRequest => Sys2Proof.Machine.execSpdmUnsupportedRequest s
  | .clusterGate => Sys2Proof.Machine.execClusterGate s
  | .clusterWake => Sys2Proof.Machine.execClusterWake s
  | .powerWindow => Sys2Proof.Machine.execPowerWindow s
  | .thermalReset => Sys2Proof.Machine.execThermalReset s
  | .illegalInstruction => Sys2Proof.Machine.execIllegalInstruction s
  | .instructionFetchFault => Sys2Proof.Machine.execInstructionFetchFault s
  | .writePerformed => Sys2Proof.Machine.execWritePerformed s
  | .cleanSweepEnd => Sys2Proof.Machine.execCleanSweepEnd s
  | .linkRetrainingEnd => Sys2Proof.Machine.execLinkRetrainingEnd s
  | .pseudoChannelCopyEnd => Sys2Proof.Machine.execPseudoChannelCopyEnd s
  | .cobaltLinkKeying => Sys2Proof.Machine.execCobaltLinkKeying s

end Sys2Proof.Machine
end

