-- ==== Sys2Proof/Machine/Step.lean ====
section
/-! DEFINITION. One step of the package. -/

namespace Sys2Proof.Machine

open Sys2Proof

/-- One step: the first event that is due; else the hart that issues; else time passes. -/
def step (s : State) : Host.Outcome State Fault Refusal :=
  match s.dueEvent with
  | some (i, t) => if Instr.isEvent i then exec i t else .fault .notAnEvent
  | none =>
    match s.nextAct with
    | .run i t => exec i t
    | .settled t => .next t

/-- The state in which the very next step fetches and executes the instruction whose bits are `w`: a partition, a die in
service, a line of code and a hart in U at its first byte (log entry 20). -/
def State.withFetchWord (s : State) (nbits w : Nat) : State := s.withCode (tableBytes nbits w)

end Sys2Proof.Machine
end

