-- ==== Sys2Proof/Safety.lean ====
section
/-! DEFINITION. What counts as a well-formed state and as a safe step, and the terms the statements use: what a step leaves
as it was, how an exception is entered, what one byte of memory holds. -/

namespace Sys2Proof.Machine

open Sys2Proof

/-- Every memory of the package is in its canonical form: addresses rising, no byte that an unlisted address reads as. -/
def State.memoriesOk (s : State) : Bool :=
  Memory.wf s.mem.hbm && Memory.wf s.mem.pool && Memory.wf s.mem.host && Memory.wf s.mem.remote
    && s.cores.all (fun c => Memory.wf c.2.spad) && s.dies.all (fun d => Memory.wf d.2.ds)
    && s.harts.all (fun h => Memory.wf h.2.lanes.slice)

/-- R73: the fields of a hart's CSRs that are read-only or hold some values only: the bits of `mstatus` outside its writable
fields, MPP never 0b10, the low bits of the vectors and of the saved pcs, `mie` and the counter enables, MODE of `satp`. -/
def Csr.legal (c : Csr) : Bool :=
  (c.mstatus &&& ~~~mstatusMask) == 0x0000000A00000000 && c.mstatus.extractLsb' 11 2 != 2
    && c.stvec &&& 3 == 0 && c.mtvec &&& 3 == 0 && c.sepc &&& 3 == 0 && c.mepc &&& 3 == 0
    && c.mie &&& ~~~irqMask == 0 && (c.mcountinhibit &&& 2) == 0
    && (satpMode c.satp == 0 || satpMode c.satp == 9 || satpMode c.satp == 10 || satpMode c.satp == 14)

/-- R69, R26, R73: a hart's x0 holds 0, its pc is a multiple of 4, its CSRs are legal and its lane registers are listed in
order, none that holds 0. -/
def Hart.wellFormed (h : Hart) : Bool :=
  h.x[0]'(by decide) == 0 && h.pc &&& 3 == 0 && h.csr.legal && h.dev.emuvec &&& 2 == 0
    && Map.sorted h.lanes.v && h.lanes.v.all (fun e => e.2 != 0)

/-- The state of a well-formed package: canonical maps of harts, cores and partitions, canonical memories. -/
def State.wellFormed (s : State) : Bool :=
  Map.sorted s.harts && Map.sorted s.cores && Map.sorted s.parts && s.memoriesOk && s.harts.all (fun h => h.2.wellFormed)

/-- The schedule of events to come holds events only: what `step` needs to go on. -/
def State.eventsOnly (s : State) : Bool := s.schedule.all (fun p => Instr.isEvent p.ev)

/-- A step that answers a next state. -/
def State.goesOn (s : State) : Prop := ∃ t, step s = .next t

/-- Nothing of the package changed but hart `k`, which became `h'`. -/
structure OnlyHart (s t : State) (k : Nat) (h' : Hart) : Prop where
  acting : t.hart? k = some h'
  others : ∀ j, j ≠ k → t.hart? j = s.hart? j
  rest : { t with harts := s.harts } = s

/-- R74, R92: what retiring at a pc leaves of a hart besides its registers and lanes. -/
structure RetiresTo (h h' : Hart) (pc : DWord) : Prop where
  pc : h'.pc = pc
  priv : h'.priv = h.priv
  tsc : h'.tsc = h.tsc
  role : h'.role = h.role
  counted : h'.csr = { h.csr with minstret :=
    if h.csr.mcountinhibit.getLsbD 2 then h.csr.minstret else h.csr.minstret + 1 }

/-- R31: the x registers after a write of `v` to `rd`: x0 discards it and reads 0. -/
def writesX (h h' : Hart) (rd : BitVec 5) (v : DWord) : Prop :=
  h'.getX 0 = 0 ∧ ∀ r, r ≠ 0 → h'.getX r = if r = rd then v else h.getX r

/-- A scalar instruction of the acting hart `h`: it goes to `pc` with `v` in `rd`, its lanes, its device CSRs and, but for
what ends with an instruction, its run state as before; `back` is the pc of the last branch or jump taken backwards. -/
structure ScalarStep (s t : State) (h h' : Hart) (rd : BitVec 5) (v pc : DWord) (back : Option DWord) : Prop where
  alone : OnlyHart s t s.cur h'
  retires : RetiresTo h h' pc
  x : writesX h h' rd v
  lanes : h'.lanes = h.lanes
  dev : h'.dev = h.dev
  run : h'.run = { h.settle.run with lastBack := back }

/-- R76, R68, R107: the run state of a hart that has entered a trap or an interrupt. -/
def enteredRun (h : Hart) (now : Nat) (w : Option Wait) : Run :=
  { h.settle.run with resv := none, wait := w, hangHeld := 0, hangFrom := now, lastBack := none }

/-- R76: what no trap entry changes: the registers, the lanes, the device CSRs, the hart's place. -/
structure KeptByTrap (h h' : Hart) : Prop where
  x : h'.x = h.x
  lanes : h'.lanes = h.lanes
  dev : h'.dev = h.dev
  tsc : h'.tsc = h.tsc
  role : h'.role = h.role

/-- R76, R362, R374: hart `h` has entered S as `h'`: `sepc`, `scause` and `stval` are written, SPIE takes SIE, SIE is 0, SPP
takes the level, the pc is the vector; every other CSR and status bit is as before. -/
structure EntersS (now : Nat) (h h' : Hart) (cause tval vec : DWord) : Prop where
  pc : h'.pc = vec
  priv : h'.priv = .S
  csr : h'.csr = { h.csr with sepc := h.pc, scause := cause, stval := tval, mstatus := h'.csr.mstatus }
  spp : h'.csr.mstatus.getLsbD 8 = (h.priv != .U)
  spie : h'.csr.mstatus.getLsbD 5 = h.csr.mstatus.getLsbD 1
  sie : h'.csr.mstatus.getLsbD 1 = false
  status : ∀ i, i ≠ 8 → i ≠ 5 → i ≠ 1 → h'.csr.mstatus.getLsbD i = h.csr.mstatus.getLsbD i
  kept : KeptByTrap h h'
  run : h'.run = enteredRun h now none

/-- R76, R362: hart `h` has entered M as `h'`: `mepc`, `mcause` and `mtval` are written, MPIE takes MIE, MIE is 0, MPP takes
the level; `w` is the wait for the firmware where the hart came from a lower level. -/
structure EntersM (now : Nat) (h h' : Hart) (cause tval : DWord) (w : Option Wait) : Prop where
  pc : h'.pc = h.csr.mtvec
  priv : h'.priv = .M
  csr : h'.csr = { h.csr with mepc := h.pc, mcause := cause, mtval := tval, mstatus := h'.csr.mstatus }
  mpp : h'.mpp = h.priv
  mpie : h'.csr.mstatus.getLsbD 7 = h.csr.mstatus.getLsbD 3
  mie : h'.csr.mstatus.getLsbD 3 = false
  status : ∀ i, i ≠ 12 → i ≠ 11 → i ≠ 7 → i ≠ 3 → h'.csr.mstatus.getLsbD i = h.csr.mstatus.getLsbD i
  kept : KeptByTrap h h'
  run : h'.run = enteredRun h now w

/-- R70: the level that takes cause or interrupt `n` of a hart, given the delegation register: the supervisor. -/
def toSupervisor (h : Hart) (deleg : DWord) (n : Nat) : Prop := h.priv ≠ .M ∧ deleg.getLsbD n = true

/-- R76, R362, R70: hart `k`, which was `h`, takes cause `c` with `tval` by itself: into S where it is delegated, into M from
M. -/
def TakesTrap (s t : State) (k : Nat) (h : Hart) (c : Nat) (tval : DWord) : Prop :=
  ∃ h', OnlyHart s t k h' ∧
    (toSupervisor h h.csr.medeleg c → EntersS s.now h h' (BitVec.ofNat 64 c) tval h.csr.stvec) ∧
    (h.priv = .M → EntersM s.now h h' (BitVec.ofNat 64 c) tval none)

/-- Nothing of the package changed but hart `k`, which became `h'`, and the events to come. -/
structure HartAndPlans (s t : State) (k : Nat) (h' : Hart) : Prop where
  acting : t.hart? k = some h'
  others : ∀ j, j ≠ k → t.hart? j = s.hart? j
  rest : { t with harts := s.harts, schedule := s.schedule, latencies := s.latencies } = s

/-- R6: the byte a partition's address holds at its home slice; 0 where its line does not stand there. -/
def State.byteAt (s : State) (part a : Nat) : Byte := lineByte (s.llcData part a) (a % 128)

/-- R6: the number that n bytes from an address stand for. -/
def State.numAt (s : State) (part a : Nat) : Nat → Nat
  | 0 => 0
  | n + 1 => (s.byteAt part a).toNat + 256 * s.numAt part (a + 1) n

/-- R60: a pattern of w bits as a two's-complement number. -/
def readSigned (w v : Nat) : Int := (BitVec.ofNat w v).toInt

/-- A partition's line stands at its home slice: a valid range of this package holds the address, its die accepts requests, and
the slice holds the line, not poisoned. -/
def State.standsAtHome (s : State) (part gpa : Nat) : Prop :=
  ∃ p r l, s.part? part = some p ∧ p.range? gpa = some r ∧ r.cls ≠ 2 ∧ (s.die (homeOf r gpa / 64)).accept = true ∧
    Map.find s.mem.llc (lineKey part gpa) = some l ∧ l.poison = false

/-- The acting hart's access of n bytes at `va` is plain: the hart waits for nothing and runs outside an ordered launch, no comparator watches the address,
the address is aligned, its page is translated without a miss to `gpa`, whose line stands at its home slice, the core has no
write on its way, and the memory answers at once. -/
structure PlainAccess (s : State) (h : Hart) (va : DWord) (k : AccKind) (n gpa : Nat) : Prop where
  awake : h.run.wait = none
  unordered : s.ordered h = false
  unwatched : ∀ acc, s.dataMatch h acc [(32, va)] n = none
  aligned : va.toNat % n = 0
  translated : s.translate h va k = .ok gpa s
  offset : gpa % 4096 = va.toNat % 4096
  inSpace : gpa < 2 ^ 52
  allowed : gpa / 4096 ∉ h.run.declined ∧ gpa / 4096 ∉ h.run.failedPages
  stands : s.standsAtHome h.role.part gpa
  quiet : (s.core (coreOf s.cur)).flight = []
  prompt : s.latency = 0

/-- R17, R6: of everything a partition's addresses hold at their home slices, only `bs` from `gpa` was written; the rest of memory
is as it was. -/
structure WritesBytes (s t : State) (part gpa : Nat) (bs : List Byte) : Prop where
  bytes : ∀ q a, a < 2 ^ 52 →
    t.byteAt q a = if q = part ∧ gpa ≤ a ∧ a < gpa + bs.length then bs.getD (a - gpa) 0 else s.byteAt q a
  rest : { t.mem with llc := s.mem.llc } = s.mem

/-- R15, R137: no core's scratchpad, instruction cache, TLB, locks, writes, messages or registers changed; the caches of data
may have. -/
def CachesOnly (s t : State) : Prop :=
  ∀ c, { t.core c with hdc := (s.core c).hdc, l1 := (s.core c).l1 } = s.core c

/-- R68: what a write to a line leaves of the other harts: a reservation of that line is lost. -/
def LosesReservation (part gpa : Nat) (g : Hart) : Hart :=
  if g.run.resv = some ⟨part, gpa / 128⟩ then { g with run := { g.run with resv := none } } else g

/-- R238: an exact result under a saturation code. -/
def clampTo (sat w : Nat) (e : Int) : Int :=
  if sat = 0 then e
  else if sat = 1 then max (-(2 ^ (w - 1))) (min (2 ^ (w - 1) - 1) e)
  else max 0 (min (2 ^ w - 1) e)

/-- R60, R230, R225: what a lane instruction does beyond its results: its length, the lane registers and predicates it
writes, the lanes in which it acts, the flags it raises in a lane, and the stochastic state it leaves in a lane. -/
structure LaneEffect where
  len : Nat
  vregs : List Nat
  pregs : List Nat
  acts : Nat → Bool
  raised : Nat → BitVec 6
  sr : Nat → Word

/-- R60, R230: a lane instruction of the acting hart: in lanes where it acts it changes the named registers, elsewhere
nothing; each lane's sticky flags and `lflags` collect what was raised; no x register changes. -/
structure LaneStep (s t : State) (h h' : Hart) (e : LaneEffect) : Prop where
  alone : OnlyHart s t s.cur h'
  retires : RetiresTo h h' (h.nextPc e.len)
  x : h'.x = h.x
  v : ∀ r l, l < 32 → (r ∉ e.vregs ∨ e.acts l = false) → h'.getV r l = h.getV r l
  p : ∀ q l, (q ∉ e.pregs ∨ e.acts l = false) → (h'.getP q).getLsbD l = (h.getP q).getLsbD l
  sticky : ∀ l (hl : l < 32), h'.lanes.sticky[l] = if e.acts l then h.lanes.sticky[l] ||| e.raised l else h.lanes.sticky[l]
  sr : ∀ l (hl : l < 32), h'.lanes.sr[l] = if e.acts l then e.sr l else h.lanes.sr[l]
  lanes : h'.lanes = { h.lanes with v := h'.lanes.v, p := h'.lanes.p, sticky := h'.lanes.sticky, sr := h'.lanes.sr }
  dev : h'.dev = { h.dev with lflags := allLanes.foldl (fun a l => if e.acts l then a ||| e.raised l else a) h.dev.lflags }
  run : h'.run = h.settle.run

/-- The effect of a lane instruction of `len` bytes under a guard that raises no flag and does not round. -/
def laneEffect (h : Hart) (len : Nat) (g : Guard) (vregs pregs : List Nat) : LaneEffect :=
  { len := len, vregs := vregs, pregs := pregs, acts := h.active g, raised := fun _ => 0, sr := h.srOf }

/-- R219, R221: the stochastic state before element k, where earlier elements' results have been rounded. -/
def srBefore (F : FloatFmt) (md : FModes) (v : Nat → FVal) (sr : Word) : Nat → Word
  | 0 => sr
  | k + 1 => (F.encode md (srBefore F md v sr k) (v k)).sr

/-- R150, R151: a hart but for the number of a `waita` wait that a wake message will end. -/
def Woken (g g' : Hart) : Prop :=
  g' = g ∨ ∃ t u xd a, g.run.wait = some (.waita t xd a) ∧ g' = { g with run := { g.run with wait := some (.waita u xd a) } }

/-- R68, R150: what writes to a partition's line leave of a hart that does not act. -/
def OtherHart (part gpa : Nat) (o o' : Option Hart) : Prop :=
  match o with
  | none => o' = none
  | some g => ∃ g', o' = some g' ∧ Woken (LosesReservation part gpa g) g'

/-- R104: a launch after a store of n bytes: the arguments of the child records that it meets are undefined. -/
def SpoiltBy (part gpa n : Nat) (l : Launch) : Launch :=
  if l.part = part then { l with children := l.children.map (fun c => if c.touches gpa n then { c with spoilt := true } else c) } else l

/-- R6, R68, R104, R107, R134, R137, R151: a store of the acting hart performed at a home slice: the bytes, what other harts lose,
the child records it meets, and what may move beside them: caches, watches and dirty marks of slices, the events to come. -/
structure StoreEffects (s t : State) (part gpa : Nat) (bs : List Byte) : Prop where
  bytes : WritesBytes s t part gpa bs
  others : ∀ j, j ≠ s.cur → OtherHart part gpa (s.hart? j) (t.hart? j)
  launches : ∀ l, t.launch? l = (s.launch? l).map (SpoiltBy part gpa bs.length)
  caches : CachesOnly s t
  dies : ∀ d, { t.die d with slices := (s.die d).slices } = s.die d
  rest : { t with harts := s.harts, cores := s.cores, dies := s.dies, mem := s.mem, launches := s.launches, schedule := s.schedule,
                  latencies := s.latencies, tag := s.tag } = s

/-- R129: the byte of a place: of the home slices, of a scratchpad, of a die scratchpad, of a lane's slice. -/
def State.placeByte (s : State) (h : Hart) (space : Nat) (q : Nat × Nat) : Byte :=
  match space with
  | 0 => s.byteAt q.1 q.2
  | 3 => Memory.read (s.die (q.1 / 64)).ds (dsAddr (q.1 % 64) q.2)
  | 4 => Memory.read h.lanes.slice (q.1 * 256 + q.2)
  | _ => Memory.read (s.core q.1).spad q.2

/-- R6: the number that n bytes from a place stand for. -/
def State.placeNum (s : State) (h : Hart) (space : Nat) (q : Nat × Nat) : Nat → Nat
  | 0 => 0
  | n + 1 => (s.placeByte h space q).toNat + 256 * s.placeNum h space (q.1, q.2 + 1) n

/-- R129, R130: spaces 1 and 2 name the same banks. -/
def samePlaces (a b : Nat) : Prop := a = b ∨ ((a = 1 ∨ a = 2) ∧ (b = 1 ∨ b = 2))

/-- R130, R140: the accesses `as` of the acting hart's lanes, of n bytes each, are plain: the hart waits for nothing, no lane faults, each is at its place
`at_`, no lock, comparator, fault record or write on its way is met, and the memory answers at once. -/
structure PlainLanes (s : State) (h : Hart) (space n : Nat) (k : AccKind) (as : List LaneAcc) (at_ : LaneAcc → Nat × Nat) :
    Prop where
  awake : h.run.wait = none
  unordered : s.ordered h = false
  unwatched : ∀ acc, s.dataMatch h acc (as.map (fun a => (a.1, a.2.2))) n = none
  aligned : ∀ a ∈ as, a.2.2.toNat % n = 0
  beyond : space ≠ 0 → ∀ a ∈ as, s.spotOf h space a.1 a.2.2.toNat n = .ok (at_ a)
  sized : space = 3 → ∀ a ∈ as, (at_ a).2 + n ≤ 2 ^ 25
  unlocked : (space = 1 ∨ space = 2) → ∀ a ∈ as, ∀ l, Map.find (s.core (at_ a).1).locks ((at_ a).2 / 16384) = some l →
    l.holder = s.cur
  translated : space = 0 → ∀ a ∈ as, (at_ a).1 = h.role.part ∧
    s.stage1 (coreOf s.cur) (h.ctx k) h.run.walks a.2.2 k = .gpa (at_ a).2 ∧ (at_ a).2 % 4096 = a.2.2.toNat % 4096 ∧
    (at_ a).2 < 2 ^ 52 ∧ ((h.ctx k).priv = .M ∨ s.fillL1 (coreOf s.cur) (h.ctx k) a.2.2 = s) ∧
    (at_ a).2 / 4096 ∉ h.run.declined ∧ (at_ a).2 / 4096 ∉ h.run.failedPages ∧ s.standsAtHome h.role.part (at_ a).2
  coherent : ∀ a ∈ as, ∀ l, Map.find (s.core (coreOf s.cur)).l1 (lineKey (at_ a).1 (at_ a).2) = some l →
    l.data = s.llcData (at_ a).1 (at_ a).2
  listed : Map.sorted (s.core (coreOf s.cur)).l1 = true
  unrecorded : s.leaveRecords s.cur = s
  quiet : (s.core (coreOf s.cur)).flight = []
  prompt : s.latency = 0
  unlent : h.run.lent = []

/-- R60, R144, R147: what a lane memory instruction leaves of a hart besides its lane registers and its slice. -/
structure LaneMemKept (h h' : Hart) (len : Nat) : Prop where
  retires : RetiresTo h h' (h.nextPc len)
  x : h'.x = h.x
  lanes : h'.lanes = { h.lanes with v := h'.lanes.v, slice := h'.lanes.slice }
  dev : h'.dev = { h.dev with tbm := h'.dev.tbm, tbmf := h'.dev.tbmf }

/-- R104: a launch of which stores may have made the arguments of child records undefined. -/
def MaySpoil (l l' : Launch) : Prop :=
  ∃ hit : Child → Bool, l' = { l with children := l.children.map (fun c => if hit c then { c with spoilt := true } else c) }

/-- What a lane memory instruction may change of the package besides the places it writes: caches, watches and dirty marks of
slices, arguments of child records in the places written, free values drawn, events to come. -/
structure LaneMemRest (s t : State) : Prop where
  cores : ∀ c, { t.core c with hdc := (s.core c).hdc, l1 := (s.core c).l1, spad := (s.core c).spad } = s.core c
  dies : ∀ d, { t.die d with slices := (s.die d).slices, ds := (s.die d).ds } = s.die d
  mem : { t.mem with llc := s.mem.llc } = s.mem
  launches : ∀ l, s.launch? l = none ∧ t.launch? l = none ∨ ∃ L L', s.launch? l = some L ∧ t.launch? l = some L' ∧ MaySpoil L L'
  rest : { t with harts := s.harts, cores := s.cores, dies := s.dies, mem := s.mem, launches := s.launches, schedule := s.schedule,
                  latencies := s.latencies, fresh := s.fresh, tag := s.tag } = s

/-- R147: whether an atomic of operation `op` writes, its old value being `old` and its destination register holding `e`. -/
def lamoWrites (op old e : Nat) : Bool := op != 9 || old == e

/-- R46, R147: the new value of an atomic of n bytes. -/
def lamoValue (op n old v : Nat) : Nat :=
  let signed := fun (a : Nat) => readSigned (8 * n) a
  if op = 1 then (old + v) % 2 ^ (8 * n)
  else if op = 2 then Nat.land old v
  else if op = 3 then Nat.lor old v
  else if op = 4 then Nat.xor old v
  else if op = 5 then (if signed old ≤ signed v then old else v)
  else if op = 6 then (if signed old ≤ signed v then v else old)
  else if op = 7 then min old v
  else if op = 8 then max old v
  else if op = 10 then fAddAtomic old v
  else v

/-- R141, R147: the value of a place after the atomics of some lanes on it, in their order. -/
def lamoChain (op n : Nat) (val dst : Nat → Nat) (old : Nat) (ls : List Nat) : Nat :=
  ls.foldl (fun v l => if lamoWrites op v (dst l) then lamoValue op n v (val l) else v) old

/-- R181, R189: the acting hart's job instruction is granted an entry at once: no other hart of its partition attempts in its
cluster, no restored hart waits, an entry is available. -/
structure MayIssueJob (s : State) (h : Hart) : Prop where
  listed : Map.sorted s.harts = true
  running : h.run.wait = none ∧ h.run.halted = false
  alone : ∀ k g, s.hart? k = some g → clusterOf k = clusterOf s.cur → g.role.part = h.role.part →
    g.run.stoppedJobs = [] ∧ (k ≠ s.cur → g.run.attempt = none)
  room : 0 < s.entriesFor (clusterOf s.cur) h.role.part
  entries : Map.sorted (s.cluster (clusterOf s.cur)).jobs = true ∧ ∀ e ∈ (s.cluster (clusterOf s.cur)).jobs, e.1 < 64

/-- R193: the other entries of a cluster hold what they held, but that running jobs of the block transfer engine may be queued
again. -/
def KeptJobs (s t : State) (cl slot : Nat) : Prop :=
  ∀ n, n ≠ slot → t.job? cl n = s.job? cl n ∨
    ∃ o, s.job? cl n = some o ∧ o.matrix = false ∧ o.state = .running ∧ t.job? cl n = some { o with state := .queued }

/-- R286: a hart but for the flags it now keeps of a job of its own that was in an entry. -/
def KeptFlags (s : State) (cl slot k : Nat) (o o' : Option Hart) : Prop :=
  ∃ late, o' = o.map (fun g => { g with run := { g.run with lateFlags := g.run.lateFlags ++ late } }) ∧
    (late = [] ∨ ∃ j, s.job? cl slot = some j ∧ j.live = false ∧ j.hart = k ∧ late = [(j.seq.toNat, j.flags)])

/-- R180, R181, R183, R195, R285, R286: job `j` of the acting hart has entered a free entry, queued; `xd` holds its ID and the
hart's sequence number is one more. -/
structure JobEntered (s t : State) (h h' : Hart) (xd : BitVec 5) (len slot : Nat) (j : Job) : Prop where
  inside : slot < 64
  free : ∀ o, s.job? (clusterOf s.cur) slot = some o → o.live = false
  entry : t.job? (clusterOf s.cur) slot = some { j with
    state := .queued, order := s.tag + 1, seq := h.run.seq, hart := s.cur, part := h.role.part, launch := h.role.launch,
    hidx := h.role.hidx, started := false, walks := [], declined := [], failedPages := [] }
  kept : KeptJobs s t (clusterOf s.cur) slot
  acting : t.hart? s.cur = some h'
  others : ∀ k, k ≠ s.cur → KeptFlags s (clusterOf s.cur) slot k (s.hart? k) (t.hart? k)
  retires : RetiresTo h h' (h.nextPc len)
  x : writesX h h' xd (BitVec.ofNat 64 (h.run.seq.toNat * 2 ^ 16 + slot))
  lanes : h'.lanes = h.lanes
  dev : h'.dev = h.dev
  seq : h'.run.seq = h.run.seq + 1
  mem : t.mem = s.mem

/-- R186: entry `slot` of a hart's cluster holds job `j`, and no other entry holds a job of the hart with that ID's sequence
number. -/
def State.holdsJob (s : State) (k : Nat) (h : Hart) (id : DWord) (slot : Nat) (j : Job) : Prop :=
  s.job? (clusterOf k) slot = some j ∧ id.toNat < 2 ^ 32 ∧ id.toNat / 64 % 1024 = 0 ∧
  ∀ e ∈ (s.cluster (clusterOf k)).jobs, (e.2.launch = h.role.launch ∧ e.2.hidx = h.role.hidx ∧ e.2.part = h.role.part ∧
    e.2.seq.toNat = id.toNat / 2 ^ 16) ↔ e = (slot, j)

/-- R191: places of job accesses, as places of bytes. -/
def JobSpot.at_ (p : JobSpot) (i : Nat) : Nat × Nat := (p.owner, p.addr + i)

/-- R12, R395, R415: a command of the host is taken up: the package has power and is ready, the command arrives, it has no reserved
bit set and the next number. -/
structure MayCommand (s : State) : Prop where
  powered : s.pkg.off = false
  arrives : s.arrives s.arg.msg = true
  mailbox : s.arg.msg.mgmt = false
  clean : s.arg.msg.rsv = 0
  ready : s.host.ready = true
  number : s.arg.msg.hnum = s.host.hlast + 1

/-- R395, R415, R416: `u`, what a command of the acting event has made of the package, with the command's number accepted and its
final response with a status. -/
def State.commandDone (s u : State) (status : Nat) : State :=
  { u with host := { u.host with
      hlast := s.arg.msg.hnum, hbusy := s.host.hbusy.filter (· != s.arg.msg.hnum)
      mboxNum := s.arg.msg.hnum, mboxStatus := status, mboxVal := 0, mboxDone := true, msix := u.host.msix ++ [0] } }

/-- R415: the response of a command has a status, and MSI-X vector 0 was sent last. -/
def State.responds (s t : State) (status : Nat) : Prop :=
  t.host.mboxNum = s.arg.msg.hnum ∧ t.host.mboxStatus = status ∧ t.host.mboxVal = 0 ∧ t.host.mboxDone = true ∧
  t.host.hlast = s.arg.msg.hnum ∧ t.host.msix.getLast? = some 0

/-- R414, R423: the acting command is taken up, from the mailbox or over the management channel. -/
def State.mayDebug (s : State) : Prop := (s.pkg.off = false ∧ s.arg.msg.mgmt = true ∧ s.arrives s.arg.msg = true) ∨ MayCommand s

/-- R415, R423: `u`, what a command has made of the package, with its answer in the mailbox or over the management channel. -/
def State.commandReply (s u : State) (status : Nat) : State :=
  if s.arg.msg.mgmt then { u with host := { u.host with mgmtReply := (status, 0) } } else s.commandDone u status

/-- R357: the package after the responder's answer over the acting request's connection, which became `c` with the sessions `l`:
a code and fields. -/
def State.spdmSays (s : State) (c : Conn) (l : List Session) (code : Nat) (fields : List Nat) : State :=
  { s with spdm := { s.spdm with conns := Map.put s.spdm.conns s.arg.msg.port { c with response := (code, fields) }, sessions := l } }

end Sys2Proof.Machine
end

