-- ==== Sys2Proof/Certificates/Slice0/Obligations.lean ====
section
/-! DEFINITION. The statements about the machine, one definition each; OBLIGATIONS.json lists them with their rules. Where a
docstring names log entries, the clauses they concern are the model's choice, no rule of the spec. Of every statement about an
event, the operands in `State.arg` are the model's form (log entry 2); of every statement about a step, so is the order of the
cores within a cycle, and the cycle in which a hart issues after an entry at its boundary (log entries 1 and 125). -/

open Sys2Proof Sys2Proof.Machine

/-- R26, R28 to R62: a well-formed instruction's words are read as that instruction, and the words that are read as an
instruction are those of its encoding: no bit of an encoding is dropped and no word has two meanings. -/
def Obligations.DecodeEncodeAgree : Prop :=
  (∀ (i : Instr) (w : Nat), i.wellFormed = true → encode i = some w →
    decode (BitVec.ofNat 32 w) (BitVec.ofNat 32 (w / 2 ^ 32)) = .ok i)
  ∧ (∀ (lo hi : Word) (i : Instr), decode lo hi = .ok i →
    i.wellFormed = true ∧ encode i = some (if lo.extractLsb' 2 3 = 7 then lo.toNat + 2 ^ 32 * hi.toNat else lo.toNat))

/-- R26 to R62, R253 to R267, R300: words written out from the encoding tables, one or more of each family, decode to what they stand for. -/
def Obligations.EncodedWordsDecode : Prop :=
  decode 0x00C58533 0 = .ok (.add 10 11 12) ∧ decode 0xFFF50513 0 = .ok (.addi 10 10 0xFFF)
  ∧ decode 0x0105B503 0 = .ok (.ld 10 11 16) ∧ decode 0x00C5A023 0 = .ok (.sw 11 12 0)
  ∧ decode 0x10500073 0 = .ok .wfi ∧ decode 0x30200073 0 = .ok .mret
  ∧ decode 0x180595F3 0 = .ok (.csrrw 11 11 0x180) ∧ decode 0x1005A52F 0 = .ok (.lr 10 11 false false false)
  ∧ decode 0x0000000F 0 = .ok (.fence false 0 0)
  ∧ decode 0 0 = .error .halfword ∧ decode 0x0000001F 0 = .error .length48 ∧ decode 0x0000707F 0 = .error .length80
  ∧ decode 0x00007003 0 = .error .noOperation
  ∧ decode 0x12A881BF 0x00007840 = .ok (.lldImm ⟨40, 10, 1, 0, 2, false, ⟨15, false⟩⟩ 0)
  ∧ decode 0x0004805B 0 = .ok (.px ⟨1, 1, false, false⟩)
  ∧ decode 0x0A023CBF 0x00037800 = .ok (.lcvt ⟨2, 40, .i32, ⟨15, false⟩⟩ 3 0 false 0)
  ∧ decode 0x300285BF 0x00007844 = .ok (.lstImm ⟨2, 0, 3, 1, 2, false, ⟨15, false⟩⟩ 0)
  ∧ decode 0x0400102B 0 = .ok .ofence
  ∧ decode 0x8185063F 0x10207808 = .ok (.mmas ⟨5, 6, 8, 2, 1, false⟩ false 0 0 1 0 false)
  ∧ decode 0x0202C62B 0 = .ok (.jwait 12 5) ∧ decode 0x0050808B 0 = .ok (.laddS32 ⟨1, 1, 5, .i32⟩)
  ∧ decode 0xFC0592E3 0 = .ok (.bne 11 0 0xFE2) ∧ decode 0x0400002B 0 = .ok .xit ∧ decode 0x0200002B 0 = .ok (.rfl 0)
  ∧ decode 0x628640BF 0x00037800 = .ok (.lpack ⟨6, 10, 6, .i32, ⟨15, false⟩⟩ 3)
  ∧ decode 0x00C3113F 0x00817800 = .ok (.lshfl ⟨3, 3, 0, .i32, ⟨15, false⟩⟩ 1 16)
  ∧ decode 0x0003213F 0x00047800 = .ok (.lgets 3 ⟨15, false⟩ 4)
  ∧ decode 0x00C1D83F 0x00007800 = .ok (.lcmpImm ⟨1, 3, 0, .i32, ⟨15, false⟩⟩ 0)
  ∧ decode 0x0047393F 0x00007800 = .ok (.emand 7 1 false)
  ∧ decode 0x0045153F 0x00007A00 = .ok (.lred ⟨5, 1, .f32, ⟨15, false⟩⟩ 0)
  ∧ decode 0x01C0313F 0x00007800 = .ok (.emset 7)
  ∧ decode 0x43FA0000 0 = .error .halfword ∧ decode 0x3E99999A 0 = .error .halfword

/-- R26, R27, R92: what a step does for the hart whose cycle it is, at an instruction boundary where nothing else is pending:
when the words at its pc are fetched and are those of an instruction that no comparator watches, the step is `exec` of that
instruction by that hart; a word that is no instruction is the event that takes cause 2 (R28). The second cycle of an f64
operation (R233) is that operation's `exec`, with no fetch. -/
def Obligations.StepRunsDecodedInstruction : Prop :=
  ∀ (s : State) (k : Nat) (h : Hart), s.dueEvent = none → s.alert = none → s.nextHart = some (k, h) → h.run.wait = none →
    let u := { s with cur := k, nextCore := turnOf k + 1 }
    (∀ i, h.run.second = some i → step s = exec i u) ∧
    (∀ (s1 : State) (lo hi : Word), h.run.second = none → h.run.entering = none → h.run.yielded = none → h.run.barw = false →
      h.causePending = false → h.haltPending = false → h.noticeReady = false → h.otherIrq = none → h.tsc = false →
      u.savable h = false → u.fetchPair h h.pc = .ok (lo, hi) s1 →
      (∀ c ∈ (s1.core (coreOf s1.cur)).dbg.pcCmp.toList, cmpEn c = false) →
      (∀ i, decode lo hi = .ok i → step s = exec i s1) ∧
      (∀ e, decode lo hi = .error e → step s = exec .illegalInstruction { s1 with arg := { nats := [k, lo.toNat] } }))

/-- R61, R31: the register-register and register-immediate operations of RV64I: the value in rd, the pc after the
instruction, and nothing else changed.
R61, R31: the W forms: the operation on the low words, its result sign-extended.
R61, R62: products and quotients over the integers; division by 0 and the overflow of the signed division as RISC-V
defines them. -/
def Obligations.ScalarIntegerResults : Prop :=
  (∀ (s : State) (h : Hart), s.hart? s.cur = some h → ∀ (rd rs1 rs2 : BitVec 5) (imm : BitVec 12) (n6 : BitVec 6),
    let a := h.getX rs1
    let b := h.getX rs2
    let i := imm.signExtend 64
    let gives := fun (j : Instr) (v : DWord) => ∃ t h', exec j s = .next t ∧ ScalarStep s t h h' rd v (h.nextPc 4) h.run.lastBack
    (gives (.add rd rs1 rs2) (a + b) ∧ gives (.sub rd rs1 rs2) (a - b) ∧ gives (.xor rd rs1 rs2) (a ^^^ b)
      ∧ gives (.or rd rs1 rs2) (a ||| b) ∧ gives (.and rd rs1 rs2) (a &&& b)
      ∧ gives (.sll rd rs1 rs2) (a <<< (b.toNat % 64)) ∧ gives (.srl rd rs1 rs2) (a >>> (b.toNat % 64))
      ∧ gives (.sra rd rs1 rs2) (a.sshiftRight (b.toNat % 64))
      ∧ gives (.slt rd rs1 rs2) (if a.toInt < b.toInt then 1 else 0) ∧ gives (.sltu rd rs1 rs2) (if a.toNat < b.toNat then 1 else 0))
    ∧ (gives (.addi rd rs1 imm) (a + i) ∧ gives (.xori rd rs1 imm) (a ^^^ i) ∧ gives (.ori rd rs1 imm) (a ||| i)
      ∧ gives (.andi rd rs1 imm) (a &&& i)
      ∧ gives (.slti rd rs1 imm) (if a.toInt < i.toInt then 1 else 0) ∧ gives (.sltiu rd rs1 imm) (if a.toNat < i.toNat then 1 else 0)
      ∧ gives (.slli rd rs1 n6) (a <<< n6.toNat) ∧ gives (.srli rd rs1 n6) (a >>> n6.toNat)
      ∧ gives (.srai rd rs1 n6) (a.sshiftRight n6.toNat)))
  ∧
  (∀ (s : State) (h : Hart), s.hart? s.cur = some h → ∀ (rd rs1 rs2 : BitVec 5) (imm : BitVec 12) (n5 : BitVec 5),
    let a : Word := (h.getX rs1).setWidth 32
    let b : Word := (h.getX rs2).setWidth 32
    let gives := fun (j : Instr) (v : Word) => ∃ t h', exec j s = .next t ∧ ScalarStep s t h h' rd (v.signExtend 64) (h.nextPc 4) h.run.lastBack
    gives (.addw rd rs1 rs2) (a + b) ∧ gives (.subw rd rs1 rs2) (a - b) ∧ gives (.mulw rd rs1 rs2) (a * b)
      ∧ gives (.sllw rd rs1 rs2) (a <<< (b.toNat % 32)) ∧ gives (.srlw rd rs1 rs2) (a >>> (b.toNat % 32))
      ∧ gives (.sraw rd rs1 rs2) (a.sshiftRight (b.toNat % 32))
      ∧ gives (.addiw rd rs1 imm) (a + imm.signExtend 32) ∧ gives (.slliw rd rs1 n5) (a <<< n5.toNat)
      ∧ gives (.srliw rd rs1 n5) (a >>> n5.toNat) ∧ gives (.sraiw rd rs1 n5) (a.sshiftRight n5.toNat))
  ∧
  (∀ (s : State) (h : Hart), s.hart? s.cur = some h → ∀ (rd rs1 rs2 : BitVec 5),
    let a := h.getX rs1
    let b := h.getX rs2
    let aw : Word := a.setWidth 32
    let bw : Word := b.setWidth 32
    let gives := fun (j : Instr) (v : DWord) => ∃ t h', exec j s = .next t ∧ ScalarStep s t h h' rd v (h.nextPc 4) h.run.lastBack
    let quot := fun (n : Nat) (x y : BitVec n) => if y = 0 then BitVec.ofInt n (-1) else BitVec.ofInt n (x.toInt.tdiv y.toInt)
    let rest := fun (n : Nat) (x y : BitVec n) => if y = 0 then x else BitVec.ofInt n (x.toInt.tmod y.toInt)
    let quotU := fun (n : Nat) (x y : BitVec n) => if y = 0 then BitVec.ofInt n (-1) else BitVec.ofNat n (x.toNat / y.toNat)
    let restU := fun (n : Nat) (x y : BitVec n) => if y = 0 then x else BitVec.ofNat n (x.toNat % y.toNat)
    gives (.mul rd rs1 rs2) (BitVec.ofInt 64 (a.toInt * b.toInt))
      ∧ gives (.mulh rd rs1 rs2) (BitVec.ofInt 64 (a.toInt * b.toInt / 2 ^ 64))
      ∧ gives (.mulhsu rd rs1 rs2) (BitVec.ofInt 64 (a.toInt * b.toNat / 2 ^ 64))
      ∧ gives (.mulhu rd rs1 rs2) (BitVec.ofNat 64 (a.toNat * b.toNat / 2 ^ 64))
      ∧ gives (.div rd rs1 rs2) (quot 64 a b) ∧ gives (.rem rd rs1 rs2) (rest 64 a b)
      ∧ gives (.divu rd rs1 rs2) (quotU 64 a b) ∧ gives (.remu rd rs1 rs2) (restU 64 a b)
      ∧ gives (.divw rd rs1 rs2) ((quot 32 aw bw).signExtend 64) ∧ gives (.remw rd rs1 rs2) ((rest 32 aw bw).signExtend 64)
      ∧ gives (.divuw rd rs1 rs2) ((quotU 32 aw bw).signExtend 64) ∧ gives (.remuw rd rs1 rs2) ((restU 32 aw bw).signExtend 64))

/-- R61, R27, R107: `lui`, `auipc`, the jumps and the branches; a taken branch or a jump goes to its target, a backward one
is noted; a target with bit [1] set raises cause 0 and writes nothing. -/
def Obligations.ScalarControlFlow : Prop :=
  ∀ (s : State) (h : Hart), s.hart? s.cur = some h → ∀ (rd rs1 rs2 : BitVec 5) (u o20 : BitVec 20) (imm o12 : BitVec 12),
    let a := h.getX rs1
    let b := h.getX rs2
    let seq := h.nextPc 4
    let goes := fun (j : Instr) (r : BitVec 5) (v pc : DWord) (back : Option DWord) =>
      ∃ t h', exec j s = .next t ∧ ScalarStep s t h h' r v pc back
    let jump := fun (j : Instr) (r : BitVec 5) (target : DWord) =>
      if target.getLsbD 1 then exec j s = .next (s.raise 0 target)
      else goes j r seq target (if target.toNat ≤ h.pc.toNat then some h.pc else h.run.lastBack)
    let branch := fun (j : Instr) (c : Prop) => (c → jump j 0 (h.pc + (o12 ++ 0#1).signExtend 64)) ∧ (¬ c → goes j 0 0 seq h.run.lastBack)
    goes (.lui rd u) rd ((u ++ 0#12).signExtend 64) seq h.run.lastBack
      ∧ goes (.auipc rd u) rd (h.pc + (u ++ 0#12).signExtend 64) seq h.run.lastBack
      ∧ jump (.jal rd o20) rd (h.pc + (o20 ++ 0#1).signExtend 64)
      ∧ jump (.jalr rd rs1 imm) rd ((a + imm.signExtend 64) &&& ~~~1)
      ∧ branch (.beq rs1 rs2 o12) (a = b) ∧ branch (.bne rs1 rs2 o12) (a ≠ b)
      ∧ branch (.blt rs1 rs2 o12) (a.toInt < b.toInt) ∧ branch (.bge rs1 rs2 o12) (b.toInt ≤ a.toInt)
      ∧ branch (.bltu rs1 rs2 o12) (a.toNat < b.toNat) ∧ branch (.bgeu rs1 rs2 o12) (b.toNat ≤ a.toNat)

/-- R77, R69, R70: `ecall` raises cause 8, 9 or 11 by the privilege with `tval` 0 and `ebreak` cause 3 with its pc, unless the
core's debug block halts instead (R376); each entry is into S where the cause is delegated, into M otherwise.
R70, R71: an `ecall` of S that is not delegated enters M, saving the pc, with cause 9; the firmware's answer to the call of
function a7 is the event to come, and the hart waits for it. -/
def Obligations.EnvironmentCalls : Prop :=
  (∀ (s : State) (h : Hart), s.hart? s.cur = some h →
    (∀ c, (h.priv = .U ∧ c = 8) ∨ (h.priv = .S ∧ c = 9) →
      (h.csr.medeleg.getLsbD c = true → ∃ t, exec .ecall s = .next t ∧ TakesTrap s t s.cur h c 0) ∧
      (h.csr.medeleg.getLsbD c = false → ∃ t h', exec .ecall s = .next t ∧ HartAndPlans s t s.cur h' ∧
        EntersM s.now h h' (BitVec.ofNat 64 c) 0 (some .firmware)))
    ∧ (h.priv = .M → ∃ t, exec .ecall s = .next t ∧ TakesTrap s t s.cur h 11 0)
    ∧ ((s.core (coreOf s.cur)).dbg.ebh = false → toSupervisor h h.csr.medeleg 3 ∨ h.priv = .M →
      ∃ t, exec .ebreak s = .next t ∧ TakesTrap s t s.cur h 3 h.pc)
    ∧ ((s.core (coreOf s.cur)).dbg.ebh = false → h.csr.medeleg.getLsbD 3 = false → h.priv ≠ .M →
      ∃ t h', exec .ebreak s = .next t ∧ HartAndPlans s t s.cur h' ∧ EntersM s.now h h' 3 h.pc (some .firmware))
    ∧ ((s.core (coreOf s.cur)).dbg.ebh = true → ∃ t h', exec .ebreak s = .next t ∧ OnlyHart s t s.cur h' ∧
      h' = { h with run := { h.run with halted := true, haltReq := false, stepping := false, pair := none } }))
  ∧
  (∀ (s : State) (h : Hart), s.hart? s.cur = some h → h.priv = .S → h.csr.medeleg.getLsbD 9 = false →
    let answer := fun (ev : Instr) => ∃ t h', exec .ecall s = .next t ∧ HartAndPlans s t s.cur h' ∧
      EntersM s.now h h' 9 0 (some .firmware) ∧ t.latencies = s.latencies.tail ∧
      t.schedule = insertPlanned ⟨s.now + s.latency, ev, { nats := [s.cur] }⟩ s.schedule
    (h.getX 17 = 0 → answer .fwVersion) ∧ (h.getX 17 = 1 → answer .fwFeatureMask) ∧ (h.getX 17 = 2 → answer .fwPosition)
      ∧ (h.getX 17 ≠ 0 → h.getX 17 ≠ 1 → h.getX 17 ≠ 2 → answer .fwUnsupported))

/-- R79, R73, R74: `sret` takes SIE from SPIE, sets SPIE and goes to SPP's level at `sepc`, SPP U after it; `mret` likewise with
the M fields; both clear MPRV on a return below M, count as retired, and change no other register, status bit or lane.
R71: the firmware's answer to a call of a hart that waits for it: a0 and a1, every other register preserved, the hart back
in S at the instruction after the `ecall`, with MIE as it was saved. a1 of an unsupported function keeps its value (log entry
8). -/
def Obligations.ReturnsFromTraps : Prop :=
  (∀ (s : State) (h : Hart), s.hart? s.cur = some h →
    let returns := fun (i : Instr) (pc : DWord) (lvl : Priv) (ie pie : Nat) (kept : Nat → Prop) (clear : Nat → Prop) =>
      ∃ t h', exec i s = .next t ∧ OnlyHart s t s.cur h' ∧ h'.pc = pc ∧ h'.priv = lvl ∧ KeptByTrap h h' ∧
        h'.csr = { h.csr with mstatus := h'.csr.mstatus, minstret :=
          if h.csr.mcountinhibit.getLsbD 2 then h.csr.minstret else h.csr.minstret + 1 } ∧
        h'.csr.mstatus.getLsbD ie = h.csr.mstatus.getLsbD pie ∧ h'.csr.mstatus.getLsbD pie = true ∧
        (∀ b, clear b → h'.csr.mstatus.getLsbD b = false) ∧
        (∀ b, b ≠ ie → b ≠ pie → kept b → h'.csr.mstatus.getLsbD b = h.csr.mstatus.getLsbD b) ∧
        h'.run = { h.settle.run with hangHeld := 0, hangFrom := s.now, lastBack := none }
    (h.priv = .M ∨ (h.priv = .S ∧ h.csr.mstatus.getLsbD 22 = false) →
      returns .sret h.csr.sepc (if h.csr.mstatus.getLsbD 8 then .S else .U) 1 5 (fun b => b ≠ 8 ∧ b ≠ 17) (fun b => b = 8 ∨ b = 17))
    ∧ (h.priv = .M → h.csr.mstatus.extractLsb' 11 2 = 3 →
      returns .mret h.csr.mepc .M 3 7 (fun b => b ≠ 11 ∧ b ≠ 12) (fun b => b = 11 ∨ b = 12))
    ∧ (h.priv = .M → h.csr.mstatus.extractLsb' 11 2 = 1 →
      returns .mret h.csr.mepc .S 3 7 (fun b => b ≠ 11 ∧ b ≠ 12 ∧ b ≠ 17) (fun b => b = 11 ∨ b = 12 ∨ b = 17))
    ∧ (h.priv = .M → h.csr.mstatus.extractLsb' 11 2 = 0 →
      returns .mret h.csr.mepc .U 3 7 (fun b => b ≠ 11 ∧ b ≠ 12 ∧ b ≠ 17) (fun b => b = 11 ∨ b = 12 ∨ b = 17)))
  ∧
  (∀ (s : State) (k : Nat) (h : Hart) (p : Part), s.arg.nats = [k] → s.hart? k = some h → h.run.wait = some .firmware →
    h.csr.mcause = 9 → h.mpp = .S → s.part? h.role.part = some p →
    let answers := fun (ev : Instr) (a0 a1 : DWord) => ∃ t h', exec ev s = .next t ∧ t.hart? k = some h' ∧
      h'.priv = .S ∧ h'.pc = h.csr.mepc + 4 ∧ h'.getX 10 = a0 ∧ h'.getX 11 = a1 ∧
      (∀ r, r ≠ 10 → r ≠ 11 → h'.getX r = h.getX r) ∧ h'.run.wait = none ∧ h'.lanes = h.lanes ∧ h'.dev = h.dev ∧
      h'.csr.mstatus.getLsbD 3 = h.csr.mstatus.getLsbD 7 ∧ (∀ j, j ≠ k → t.hart? j = s.hart? j) ∧
      { t with harts := s.harts } = s
    answers .fwVersion 0 (Config.fwVersion.setWidth 64) ∧ answers .fwFeatureMask 0 (p.pfmask.setWidth 64)
      ∧ answers .fwPosition 0 (BitVec.ofNat 64 k) ∧ answers .fwUnsupported (BitVec.ofInt 64 (-2)) (h.getX 11))

/-- R75, R78, R79, R80: who may not execute a privileged instruction takes cause 2, delegated to the supervisor, with the
instruction's first word as `tval`: `sret`, `wfi` and `sfence.vma` in U, or in S under TSR, TW and TVM; `mret` below M. -/
def Obligations.PrivilegedInstructionsTrap : Prop :=
  ∀ (s : State) (h : Hart) (rs1 rs2 : BitVec 5), s.hart? s.cur = some h → h.run.pair = none → h.csr.medeleg.getLsbD 2 = true →
    let traps := fun (i : Instr) (w : DWord) => ∃ t h', exec i s = .next t ∧ OnlyHart s t s.cur h' ∧
      EntersS s.now h h' 2 w h.csr.stvec
    let held := fun (b : Nat) => h.priv = .U ∨ (h.priv = .S ∧ h.csr.mstatus.getLsbD b = true)
    (held 22 → traps .sret 0x10200073) ∧ (held 21 → traps .wfi 0x10500073)
      ∧ (held 20 → traps (.sfenceVma rs1 rs2) (0x12000073 + (rs2.setWidth 64 <<< 20) + (rs1.setWidth 64 <<< 15)))
      ∧ (h.priv = .U ∨ h.priv = .S → traps .mret 0x30200073)

/-- R34 to R36, R72 to R74: what a CSR read gives, where the hart may make it: the value goes to rd and nothing else changes.
`csrrs`, `csrrc` and their immediate forms with a zero source only read.
R35: a CSR write where the hart may make it: rd takes the old value, the CSR takes the written one (`csrSet`), and the
instruction retires. Written values: rs1 or the immediate, or the old value with those bits set or cleared. The feature mask
and `minstret` are left to `CounterAndMaskWrites`.
R36, R74: a write of `pfmask` in M changes the partition's feature mask and nothing of the hart; a write of `minstret`
leaves the value written, the writing instruction not counted on top of it.
R35, R72, R74: a CSR that the hart may not access, in U or S with cause 2 delegated: cause 2, nothing read or written. A
CSR is out of reach below its privilege, written where it is read-only, and unread where a counter enable is clear. -/
def Obligations.CsrAccesses : Prop :=
  (∀ (s : State) (h : Hart) (rd : BitVec 5) (a : BitVec 12), s.hart? s.cur = some h → h.csrAllowed a.toNat false = true →
    let v := s.csrValue h a.toNat
    let reads := fun (i : Instr) => ∃ t h', exec i s = .next t ∧ ScalarStep s t h h' rd v (h.nextPc 4) h.run.lastBack
    reads (.csrrs rd 0 a) ∧ reads (.csrrc rd 0 a) ∧ reads (.csrrsi rd 0 a) ∧ reads (.csrrci rd 0 a))
  ∧
  (∀ (s : State) (h : Hart) (rd rs1 u : BitVec 5) (a : BitVec 12), s.hart? s.cur = some h → h.csrAllowed a.toNat true = true →
    a ≠ 0x7C0 → a ≠ 0xB02 →
    let old := s.csrValue h a.toNat
    let x := h.getX rs1
    let m : DWord := u.setWidth 64
    let writes := fun (i : Instr) (v : DWord) => ∃ t h', exec i s = .next t ∧ OnlyHart s t s.cur h' ∧
      RetiresTo (h.csrSet a.toNat v s.now) h' (h.nextPc 4) ∧ writesX h h' rd old ∧
      h'.lanes = (h.csrSet a.toNat v s.now).lanes ∧ h'.dev = (h.csrSet a.toNat v s.now).dev ∧
      h'.run = (h.csrSet a.toNat v s.now).settle.run
    writes (.csrrw rd rs1 a) x ∧ writes (.csrrwi rd u a) m
      ∧ (rs1 ≠ 0 → writes (.csrrs rd rs1 a) (old ||| x) ∧ writes (.csrrc rd rs1 a) (old &&& ~~~x))
      ∧ (u ≠ 0 → writes (.csrrsi rd u a) (old ||| m) ∧ writes (.csrrci rd u a) (old &&& ~~~m)))
  ∧
  (∀ (s : State) (h : Hart) (p : Part) (rd rs1 : BitVec 5), s.hart? s.cur = some h → h.priv = .M → s.part? h.role.part = some p →
    (∃ t h', exec (.csrrw rd rs1 0x7C0) s = .next t ∧ t.hart? s.cur = some h' ∧ RetiresTo h h' (h.nextPc 4) ∧
      writesX h h' rd (p.pfmask.setWidth 64) ∧ t.part? h.role.part = some { p with pfmask := (h.getX rs1).setWidth 8 } ∧
      (∀ q, q ≠ h.role.part → t.part? q = s.part? q) ∧ { t with harts := s.harts, parts := s.parts } = s)
    ∧ (∃ t h', exec (.csrrw rd rs1 0xB02) s = .next t ∧ OnlyHart s t s.cur h' ∧ h'.csr = { h.csr with minstret := h.getX rs1 } ∧
      writesX h h' rd h.csr.minstret ∧ h'.pc = h.nextPc 4))
  ∧
  (∀ (s : State) (h : Hart) (rd rs1 u : BitVec 5) (a : BitVec 12), s.hart? s.cur = some h → h.priv ≠ .M →
    h.csr.medeleg.getLsbD 2 = true →
    let traps := fun (i : Instr) => ∃ t h', exec i s = .next t ∧ OnlyHart s t s.cur h' ∧
      EntersS s.now h h' 2 (h.firstWord i) h.csr.stvec
    (h.csrAllowed a.toNat true = false → traps (.csrrw rd rs1 a) ∧ traps (.csrrwi rd u a))
    ∧ (h.csrAllowed a.toNat true = false → rs1 ≠ 0 → traps (.csrrs rd rs1 a) ∧ traps (.csrrc rd rs1 a))
    ∧ (h.csrAllowed a.toNat true = false → u ≠ 0 → traps (.csrrsi rd u a) ∧ traps (.csrrci rd u a))
    ∧ (h.csrAllowed a.toNat false = false → traps (.csrrs rd 0 a) ∧ traps (.csrrc rd 0 a))
    ∧ (h.priv = .U → (a.toNat / 256 % 4 ≠ 0) → h.csrAllowed a.toNat false = false)
    ∧ (a.toNat / 1024 = 3 → h.csrAllowed a.toNat true = false)
    ∧ (h.priv = .S → h.csr.mcounteren = 0 → h.csrAllowed 0xC00 false = false ∧ h.csrAllowed 0xC01 false = false
        ∧ h.csrAllowed 0xC02 false = false))

/-- R34 to R36, R72 to R75: the value that each CSR reads as, in terms of the hart.
R36, R73, R75: what a written CSR holds: its writable fields take the value and the others stay; no other register of the
hart changes. -/
def Obligations.CsrFields : Prop :=
  (∀ (s : State) (h : Hart),
    let reads := fun (a : Nat) (v : DWord) => s.csrValue h a = v
    (reads 0x800 (h.lanes.em.setWidth 64) ∧ reads 0x801 (h.dev.lflags.setWidth 64) ∧ reads 0x802 (h.dev.bflags.setWidth 64)
      ∧ reads 0x803 (h.dev.lrm.setWidth 64) ∧ reads 0x804 (h.dev.lseed.setWidth 64) ∧ reads 0xCC7 (BitVec.ofNat 64 (s.cur % 16))
      ∧ reads 0xCC6 (if h.dev.tbmf then 1 else 0) ∧ reads 0xCCC (h.dev.itembase.setWidth 64))
    ∧ (reads 0x5C0 (h.dev.hangthr.setWidth 64) ∧ reads 0x5C1 h.dev.emuvec ∧ reads 0x5C2 (h.dev.lfmask.setWidth 64)
      ∧ reads 0x5C3 h.dev.lftab ∧ reads 0x5C4 (h.dev.lkto.setWidth 64))
    ∧ (reads 0xF11 0 ∧ reads 0xF12 0x8000000000000110 ∧ reads 0xF13 0x100 ∧ reads 0xF14 (BitVec.ofNat 64 s.cur)
      ∧ reads 0x300 h.csr.mstatus ∧ reads 0x301 0x8000000000941101 ∧ reads 0x302 h.csr.medeleg ∧ reads 0x303 h.csr.mideleg
      ∧ reads 0x304 h.csr.mie ∧ reads 0x305 h.csr.mtvec ∧ reads 0x340 h.csr.mscratch ∧ reads 0x341 h.csr.mepc
      ∧ reads 0x342 h.csr.mcause ∧ reads 0x343 h.csr.mtval ∧ reads 0xB02 h.csr.minstret)
    ∧ (reads 0x104 (h.csr.mie &&& h.csr.mideleg) ∧ reads 0x105 h.csr.stvec ∧ reads 0x140 h.csr.sscratch
      ∧ reads 0x141 h.csr.sepc ∧ reads 0x142 h.csr.scause ∧ reads 0x143 h.csr.stval ∧ reads 0x180 h.csr.satp
      ∧ reads 0xC01 (BitVec.ofNat 64 (s.now / 7)) ∧ reads 0xC02 h.csr.minstret)
    ∧ (∀ b, (s.csrValue h 0x100).getLsbD b
      = (decide (b = 1 ∨ b = 5 ∨ b = 8 ∨ b = 18 ∨ b = 19 ∨ b = 32 ∨ b = 33) && h.csr.mstatus.getLsbD b))
    ∧ (∀ b, (s.csrValue h 0x344).getLsbD b = ((decide (b = 16) && h.run.irq16.isSome) || (decide (b = 17) && h.run.irq17.isSome)
      || (decide (b = 18) && h.run.irq18.isSome) || (decide (b = 19) && (!h.run.iq19.isEmpty || h.run.iq19Ovf))))
    ∧ s.csrValue h 0xC00 = (if h.csr.mcountinhibit.getLsbD 0 then h.csr.mcycleHeld
        else h.csr.mcycleHeld + BitVec.ofNat 64 (s.now - h.csr.mcycleFrom)))
  ∧
  (∀ (h : Hart) (v : DWord) (now : Nat),
    let csr := fun (a : Nat) (c : Csr) => h.csrSet a v now = { h with csr := c }
    let dev := fun (a : Nat) (d : Dev) => h.csrSet a v now = { h with dev := d }
    (h.csrSet 0x800 v now = { h with lanes := { h.lanes with em := v.setWidth 32 &&& h.lanes.occ } }
      ∧ dev 0x801 { h.dev with lflags := v.setWidth 6 } ∧ dev 0x803 { h.dev with lrm := v.setWidth 3 }
      ∧ dev 0x804 { h.dev with lseed := v.setWidth 32 } ∧ dev 0x5C2 { h.dev with lfmask := v.setWidth 32 }
      ∧ dev 0x5C3 { h.dev with lftab := v / 64 * 64 } ∧ dev 0x5C4 { h.dev with lkto := v.setWidth 32 })
    ∧ (csr 0x105 { h.csr with stvec := v / 4 * 4 } ∧ csr 0x305 { h.csr with mtvec := v / 4 * 4 }
      ∧ csr 0x140 { h.csr with sscratch := v } ∧ csr 0x340 { h.csr with mscratch := v }
      ∧ csr 0x141 { h.csr with sepc := v / 4 * 4 } ∧ csr 0x341 { h.csr with mepc := v / 4 * 4 }
      ∧ csr 0x142 { h.csr with scause := v } ∧ csr 0x342 { h.csr with mcause := v }
      ∧ csr 0x143 { h.csr with stval := v } ∧ csr 0x343 { h.csr with mtval := v }
      ∧ csr 0x106 { h.csr with scounteren := v.setWidth 3 } ∧ csr 0x306 { h.csr with mcounteren := v.setWidth 3 }
      ∧ csr 0x304 { h.csr with mie := v &&& 0xF0000 }
      ∧ csr 0x180 { h.csr with satp :=
          if v / 2 ^ 60 = 0 ∨ v / 2 ^ 60 = 9 ∨ v / 2 ^ 60 = 10 ∨ v / 2 ^ 60 = 14 then v else h.csr.satp })
    ∧ (∀ b, ((h.csrSet 0x300 v now).csr.mstatus).getLsbD b =
        if b = 1 ∨ b = 3 ∨ b = 5 ∨ b = 7 ∨ b = 8 ∨ b = 17 ∨ b = 18 ∨ b = 19 ∨ b = 20 ∨ b = 21 ∨ b = 22
          ∨ ((b = 11 ∨ b = 12) ∧ v.extractLsb' 11 2 ≠ 2) then v.getLsbD b else h.csr.mstatus.getLsbD b)
    ∧ (∀ b, ((h.csrSet 0x100 v now).csr.mstatus).getLsbD b =
        if b = 1 ∨ b = 5 ∨ b = 8 ∨ b = 18 ∨ b = 19 then v.getLsbD b else h.csr.mstatus.getLsbD b))

/-- R65, R66, R6, R60: a plain scalar load: rd takes the bytes at the address, sign- or zero-extended; no byte of memory
changes, nor any other register.
R65, R66, R6, R68, R107, R134: a plain scalar store: the low bytes of rs2 stand at the address and no other byte of memory
changed; reservations of the line are lost; the touched-bank mask has the line's slice group; no x register changes. -/
def Obligations.ScalarLoadsAndStores : Prop :=
  (∀ (s : State) (h : Hart) (rd rs1 : BitVec 5) (imm : BitVec 12) (gpa : Nat), s.hart? s.cur = some h →
    let va := h.getX rs1 + imm.signExtend 64
    let loads := fun (i : Instr) (n : Nat) (signed : Bool) => PlainAccess s h va .load n gpa →
      let num := s.numAt h.role.part gpa n
      ∃ t h', exec i s = .next t ∧ t.hart? s.cur = some h' ∧ RetiresTo h h' (h.nextPc 4) ∧
        writesX h h' rd (if signed then BitVec.ofInt 64 (readSigned (8 * n) num) else BitVec.ofNat 64 num) ∧
        h'.lanes = h.lanes ∧ h'.dev = h.dev ∧ h'.run = h.settle.run ∧ (∀ j, j ≠ s.cur → t.hart? j = s.hart? j) ∧
        CachesOnly s t ∧ { t with harts := s.harts, cores := s.cores, latencies := s.latencies } = s
    loads (.lb rd rs1 imm) 1 true ∧ loads (.lh rd rs1 imm) 2 true ∧ loads (.lw rd rs1 imm) 4 true ∧ loads (.ld rd rs1 imm) 8 true
      ∧ loads (.lbu rd rs1 imm) 1 false ∧ loads (.lhu rd rs1 imm) 2 false ∧ loads (.lwu rd rs1 imm) 4 false)
  ∧
  (∀ (s : State) (h : Hart) (rs1 rs2 : BitVec 5) (imm : BitVec 12) (gpa : Nat), s.hart? s.cur = some h →
    let va := h.getX rs1 + imm.signExtend 64
    let part := h.role.part
    let stores := fun (i : Instr) (n : Nat) => PlainAccess s h va .store n gpa →
      ∃ t h', exec i s = .next t ∧ t.hart? s.cur = some h' ∧ RetiresTo h h' (h.nextPc 4) ∧ h'.x = h.x ∧ h'.lanes = h.lanes ∧
        h'.dev = { h.dev with tbm := h.dev.tbm ||| (1 <<< groupOf (s.home part gpa)), tbmf := h'.dev.tbmf } ∧
        h'.run = { (LosesReservation part gpa h).settle.run with hangHeld := 0, hangFrom := s.now, lastBack := none } ∧
        StoreEffects s t part gpa ((List.range n).map (fun j => BitVec.ofNat 8 ((h.getX rs2).toNat / 256 ^ j)))
    stores (.sb rs1 rs2 imm) 1 ∧ stores (.sh rs1 rs2 imm) 2 ∧ stores (.sw rs1 rs2 imm) 4 ∧ stores (.sd rs1 rs2 imm) 8)

/-- R67, R68: `lr` and `sc` with a plain access and, for rl, nothing to wait for: `lr` reads the line and reserves it; `sc`
stores and writes 0 if the reservation of that line survives, else writes 1 and stores nothing; the reservation is gone after
it.
R67, R149, R107: an AMO with a plain access and, for rl, nothing to wait for: rd takes the old value, sign-extended, memory
the operation's result of the old value and rs2, in one step; reservations of the line are lost. -/
def Obligations.AtomicAccesses : Prop :=
  (∀ (s : State) (h : Hart) (rd rs1 rs2 : BitVec 5) (aq rl dbl : Bool) (gpa : Nat), s.hart? s.cur = some h →
    (rl = true → h.dev.tbm = 0) →
    let va := h.getX rs1
    let part := h.role.part
    let n := if dbl then 8 else 4
    let num := s.numAt part gpa n
    let rest := fun (t : State) (h' : Hart) => t.hart? s.cur = some h' ∧ RetiresTo h h' (h.nextPc 4) ∧ h'.lanes = h.lanes ∧
      CachesOnly s t
    (PlainAccess s h va .load n gpa → ∃ t h', exec (.lr rd rs1 aq rl dbl) s = .next t ∧ rest t h' ∧
      writesX h h' rd (BitVec.ofInt 64 (readSigned (8 * n) num)) ∧ h'.run = { h.settle.run with resv := some ⟨part, gpa / 128⟩ } ∧
      h'.dev = h.dev ∧ t.mem = s.mem ∧ (∀ j, j ≠ s.cur → t.hart? j = s.hart? j))
    ∧ (PlainAccess s h va .store n gpa → h.run.resv = some ⟨part, gpa / 128⟩ →
      ∃ t h', exec (.sc rd rs1 rs2 aq rl dbl) s = .next t ∧ rest t h' ∧ writesX h h' rd 0 ∧ h'.run.resv = none ∧
        h'.dev = { h.dev with tbm := h.dev.tbm ||| (1 <<< groupOf (s.home part gpa)), tbmf := h'.dev.tbmf } ∧
        StoreEffects s t part gpa ((List.range n).map (fun j => BitVec.ofNat 8 ((h.getX rs2).toNat / 256 ^ j))))
    ∧ (PlainAccess s h va .store n gpa → h.run.resv ≠ some ⟨part, gpa / 128⟩ →
      ∃ t h', exec (.sc rd rs1 rs2 aq rl dbl) s = .next t ∧ rest t h' ∧ writesX h h' rd 1 ∧
        h'.run = { h.settle.run with resv := none } ∧ h'.dev = h.dev ∧ t.mem = s.mem ∧
        (∀ j, j ≠ s.cur → t.hart? j = s.hart? j)))
  ∧
  (∀ (s : State) (h : Hart) (rd rs1 rs2 : BitVec 5) (aq rl dbl : Bool) (gpa : Nat), s.hart? s.cur = some h →
    (rl = true → h.dev.tbm = 0) →
    let part := h.role.part
    let n := if dbl then 8 else 4
    let num := s.numAt part gpa n
    let a : BitVec (8 * n) := BitVec.ofNat (8 * n) num
    let b : BitVec (8 * n) := (h.getX rs2).setWidth (8 * n)
    let amo := fun (i : Instr) (new : BitVec (8 * n)) => PlainAccess s h (h.getX rs1) .store n gpa →
      ∃ t h', exec i s = .next t ∧ t.hart? s.cur = some h' ∧ RetiresTo h h' (h.nextPc 4) ∧ h'.lanes = h.lanes ∧
        writesX h h' rd (BitVec.ofInt 64 a.toInt) ∧
        h'.dev = { h.dev with tbm := h.dev.tbm ||| (1 <<< groupOf (s.home part gpa)), tbmf := h'.dev.tbmf } ∧
        h'.run = { (LosesReservation part gpa h).settle.run with hangHeld := 0, hangFrom := s.now, lastBack := none } ∧
        StoreEffects s t part gpa ((List.range n).map (fun j => BitVec.ofNat 8 (new.toNat / 256 ^ j)))
    amo (.amoswap rd rs1 rs2 aq rl dbl) b ∧ amo (.amoadd rd rs1 rs2 aq rl dbl) (a + b) ∧ amo (.amoxor rd rs1 rs2 aq rl dbl) (a ^^^ b)
      ∧ amo (.amoand rd rs1 rs2 aq rl dbl) (a &&& b) ∧ amo (.amoor rd rs1 rs2 aq rl dbl) (a ||| b)
      ∧ amo (.amomin rd rs1 rs2 aq rl dbl) (if a.toInt ≤ b.toInt then a else b)
      ∧ amo (.amomax rd rs1 rs2 aq rl dbl) (if b.toInt ≤ a.toInt then a else b)
      ∧ amo (.amominu rd rs1 rs2 aq rl dbl) (if a.toNat ≤ b.toNat then a else b)
      ∧ amo (.amomaxu rd rs1 rs2 aq rl dbl) (if b.toNat ≤ a.toNat then a else b))

/-- R66, R362: a misaligned scalar access outside an ordered launch, not watched by a comparator: cause 4 for a load or `lr`,
cause 6 for a store, `sc` or AMO, with the address as `tval`, before any translation; nothing is read or written, and no
reservation is lost.
R65, R305, R362: an aligned load or store in U under Sv48 or Sv57 whose address is not canonical raises a page fault, cause
13 or 15, with the address. -/
def Obligations.ScalarAddressTraps : Prop :=
  (∀ (s : State) (h : Hart) (rd rs1 rs2 : BitVec 5) (imm : BitVec 12) (aq rl dbl : Bool), s.hart? s.cur = some h →
    s.ordered h = false → (∀ acc a n, s.dataMatch h acc a n = none) →
    (toSupervisor h h.csr.medeleg 4 ∧ toSupervisor h h.csr.medeleg 6) ∨ h.priv = .M →
    let va := h.getX rs1 + imm.signExtend 64
    let x := h.getX rs1
    let traps := fun (i : Instr) (n c : Nat) (a : DWord) => a.toNat % n ≠ 0 → ∃ t, TakesTrap s t s.cur h c a ∧
      exec i s = .next (t.modCur (fun g => { g with run := { g.run with resv := h.run.resv } }))
    (traps (.lh rd rs1 imm) 2 4 va ∧ traps (.lhu rd rs1 imm) 2 4 va ∧ traps (.lw rd rs1 imm) 4 4 va
      ∧ traps (.lwu rd rs1 imm) 4 4 va ∧ traps (.ld rd rs1 imm) 8 4 va)
    ∧ (traps (.sh rs1 rs2 imm) 2 6 va ∧ traps (.sw rs1 rs2 imm) 4 6 va ∧ traps (.sd rs1 rs2 imm) 8 6 va)
    ∧ traps (.lr rd rs1 aq rl dbl) (if dbl then 8 else 4) 4 x
    ∧ (∀ i ∈ [Instr.sc rd rs1 rs2 aq rl dbl, .amoswap rd rs1 rs2 aq rl dbl, .amoadd rd rs1 rs2 aq rl dbl,
        .amoxor rd rs1 rs2 aq rl dbl, .amoand rd rs1 rs2 aq rl dbl, .amoor rd rs1 rs2 aq rl dbl, .amomin rd rs1 rs2 aq rl dbl,
        .amomax rd rs1 rs2 aq rl dbl, .amominu rd rs1 rs2 aq rl dbl, .amomaxu rd rs1 rs2 aq rl dbl],
        traps i (if dbl then 8 else 4) 6 x))
  ∧
  (∀ (s : State) (h : Hart) (rd rs1 rs2 : BitVec 5) (imm : BitVec 12), s.hart? s.cur = some h → s.ordered h = false →
    (∀ acc a n, s.dataMatch h acc a n = none) → h.priv = .U → h.csr.medeleg.getLsbD 13 = true → h.csr.medeleg.getLsbD 15 = true →
    let va := h.getX rs1 + imm.signExtend 64
    (satpMode h.csr.satp = 9 ∧ va ≠ ((va.setWidth 48 : BitVec 48).signExtend 64))
      ∨ (satpMode h.csr.satp = 10 ∧ va ≠ ((va.setWidth 57 : BitVec 57).signExtend 64)) →
    let traps := fun (i : Instr) (c : Nat) => ∃ t, exec i s = .next t ∧ TakesTrap s t s.cur h c va
    traps (.lb rd rs1 imm) 13 ∧ traps (.sb rs1 rs2 imm) 15 ∧ (va.toNat % 8 = 0 → traps (.ld rd rs1 imm) 13 ∧ traps (.sd rs1 rs2 imm) 15))

/-- R64, R168, R199 to R201, R136: a fence with nothing to wait for (no write on its way, no slice group marked, no far write)
completes at once: one that acquires at C or wider empties the core's lane L1, `fence.i` the core's instruction cache; nothing
else changes. `fence` is `pfence.s.ar` whatever its fields. `xfence` and `ofence` outside an ordered launch.
R80, R309: `sfence.vma` with nothing to wait for removes from every TLB of the package the entries of the hart's partition
that match its operands, keeps every other entry, and retires. -/
def Obligations.Fences : Prop :=
  (∀ (s : State) (h : Hart) (tso : Bool) (pred succ : BitVec 4) (scope : BitVec 3) (order : BitVec 2), s.hart? s.cur = some h →
    (s.core (coreOf s.cur)).flight = [] → h.dev.tbm = 0 → h.dev.tbmf = false → s.ordered h = false →
    let here := s.core (coreOf s.cur)
    let done := fun (i : Instr) (c' : Core) => ∃ t h', exec i s = .next t ∧ t.hart? s.cur = some h' ∧
      RetiresTo h h' (h.nextPc 4) ∧ h'.x = h.x ∧ h'.lanes = h.lanes ∧ h'.dev = h.dev ∧ h'.run = h.settle.run ∧
      (∀ j, j ≠ s.cur → t.hart? j = s.hart? j) ∧ t.core (coreOf s.cur) = c' ∧
      (∀ c, c ≠ coreOf s.cur → t.core c = s.core c) ∧ { t with harts := s.harts, cores := s.cores } = s
    done (.fence tso pred succ) { here with l1 := [] } ∧ done .fenceI { here with icache := [] } ∧ done .xfence here ∧ done .ofence here
      ∧ done (.pfence scope order) (if order.getLsbD 0 = true ∧ scope ≠ 0 then { here with l1 := [] } else here))
  ∧
  (∀ (s : State) (h : Hart) (rs1 rs2 : BitVec 5), s.hart? s.cur = some h →
    (h.priv = .M ∨ (h.priv = .S ∧ h.csr.mstatus.getLsbD 20 = false)) → (s.core (coreOf s.cur)).flight = [] → h.dev.tbm = 0 →
    s.latency = 0 → s.walksOf h.role.part = false →
    let gone := fun (e : Leaf) => e.part = h.role.part ∧
      (rs1 = 0 ∨ vpnOf (h.getX rs1) / 2 ^ (pageBits e.size - 12) = e.vpn / 2 ^ (pageBits e.size - 12)) ∧
      (rs2 = 0 ∨ (e.g = false ∧ e.asid = (h.getX rs2).toNat % 2 ^ 16))
    let cut := fun (l l' : List Leaf) => ∀ e, e ∈ l' ↔ e ∈ l ∧ ¬ gone e
    ∃ t h', exec (.sfenceVma rs1 rs2) s = .next t ∧ t.hart? s.cur = some h' ∧ RetiresTo h h' (h.nextPc 4) ∧ h'.x = h.x ∧
      h'.lanes = h.lanes ∧ (∀ c, cut (s.core c).tlb (t.core c).tlb ∧ { t.core c with tlb := (s.core c).tlb } = s.core c) ∧
      (∀ c, cut (s.cluster c).tlb (t.cluster c).tlb) ∧ (∀ d, cut (s.die d).tlb (t.die d).tlb) ∧
      (∀ j, j ≠ s.cur → t.hart? j = s.hart? j) ∧ t.mem = s.mem)

/-- R60, R238, R239, R41, R48: the lane integer operations in their long, immediate and short forms: in each active lane every
element takes the exact result under the saturation code (only `ladd`, `lsub`, `lmul`, `lmad`, `labs` and `lshl` honour it),
SAT is raised where the clamp changed it, and nothing else changes. The registers were not lent to a job. -/
def Obligations.LaneIntegerResults : Prop :=
  ∀ (s : State) (h : Hart), s.hart? s.cur = some h → h.run.lent = [] → Map.sorted h.lanes.v = true →
  ∀ (f : Lane3) (g : Lane3I) (e : Lane3S) (f2 : Lane2) (e2 : Lane2S) (f4 : Lane4) (g4 : Lane4I),
    let I := fun (t : Ty) (p : Nat) => if t = .n32 then (p : Int) else readSigned (Ty.width t) p
    let gives := fun (i : Instr) (len : Nat) (t : Ty) (gd : Guard) (vd : Nat) (a b c : Nat → Nat) (honours : Bool)
        (r : Ty → Nat → Nat → Nat → Int) =>
      let exact := fun (l k : Nat) => r t (elemOf t (a l) k) (elemOf t (b l) k) (elemOf t (c l) k)
      let clamped := fun (l k : Nat) => clampTo (if honours then h.satCode else 0) (Ty.width t) (exact l k)
      ∃ u h', exec i s = .next u ∧
        LaneStep s u h h' { laneEffect h len gd (destRegs t vd) [] with
          raised := fun l => if (List.range (Ty.count t)).any (fun k => clamped l k != exact l k) then 32 else 0 } ∧
        ∀ l, l < 32 → h.active gd l = true → ∀ k, k < Ty.count t →
          elemOf t (h'.laneVal t vd l) k = (clamped l k % 2 ^ Ty.width t).toNat
    let reg := fun (t : Ty) (r : Nat) (l : Nat) => h.laneVal t r l
    let none := fun (_ : Nat) => 0
    let op3 := fun (hon : Bool) (r : Ty → Nat → Nat → Nat → Int) (long : Lane3 → Instr) (imm : Lane3I → Instr) (short : Lane3S → Instr) =>
      gives (long f) 8 f.ty f.guard f.vd.toNat (reg f.ty f.va.toNat) (reg f.ty f.vb.toNat) none hon r
      ∧ gives (imm g) 8 g.ty g.guard g.vd.toNat (reg g.ty g.va.toNat) (fun _ => immVal g.ty g.imm) none hon r
      ∧ gives (short e) 4 e.ty ⟨15, false⟩ e.vd.toNat (reg e.ty e.va.toNat) (reg e.ty e.vb.toNat) none hon r
    let op2 := fun (hon : Bool) (r : Ty → Nat → Int) (long : Lane2 → Instr) (short : Lane2S → Instr) =>
      gives (long f2) 8 f2.ty f2.guard f2.vd.toNat (reg f2.ty f2.va.toNat) none none hon (fun t a _ _ => r t a)
      ∧ gives (short e2) 4 e2.ty ⟨15, false⟩ e2.vd.toNat (reg e2.ty e2.va.toNat) none none hon (fun t a _ _ => r t a)
    let B := fun (t : Ty) (p : Nat) => BitVec.ofNat (Ty.width t) p
    let U := fun (t : Ty) (x : BitVec (Ty.width t)) => (x.toNat : Int)
    (op3 true (fun t a b _ => I t a + I t b) .ladd .laddImm .laddS32 ∧ op3 true (fun t a b _ => I t a - I t b) .lsub .lsubImm .lsubS32
      ∧ op3 true (fun t a b _ => I t a * I t b) .lmul .lmulImm .lmulS32
      ∧ op3 false (fun t a b _ => I t a * I t b / 2 ^ Ty.width t) .lmulh .lmulhImm .lmulhS32
      ∧ op3 false (fun t a b _ => min (I t a) (I t b)) .lmin .lminImm .lminS32
      ∧ op3 false (fun t a b _ => max (I t a) (I t b)) .lmax .lmaxImm .lmaxS32)
    ∧ (op3 false (fun t a b _ => U t (B t a &&& B t b)) .land .landImm .landS32
      ∧ op3 false (fun t a b _ => U t (B t a ||| B t b)) .lor .lorImm .lorS32
      ∧ op3 false (fun t a b _ => U t (B t a ^^^ B t b)) .lxor .lxorImm .lxorS32
      ∧ op3 false (fun t a b _ => U t (B t a &&& ~~~B t b)) .landn .landnImm .landnS32
      ∧ op3 true (fun t a b _ => I t a * 2 ^ (b % Ty.width t)) .lshl .lshlImm .lshlS32
      ∧ op3 false (fun t a b _ => U t (B t a >>> (b % Ty.width t))) .lshr .lshrImm .lshrS32
      ∧ op3 false (fun t a b _ => (B t a).toInt / 2 ^ (b % Ty.width t)) .lsra .lsraImm .lsraS32
      ∧ op3 false (fun t a b _ => U t ((B t a).rotateLeft (b % Ty.width t))) .lrot .lrotImm .lrotS32)
    ∧ (op2 true (fun t a => |I t a|) .labs .labsS32
      ∧ op2 false (fun t a => if a = 0 then (Ty.width t : Int) else (Ty.width t - 1 - Nat.log2 a : Int)) .lclz .lclzS32
      ∧ op2 false (fun t a => (((List.range (Ty.width t)).filter a.testBit).length : Int)) .lpopc .lpopcS32
      ∧ op2 false (fun t a => U t (B t a).reverse) .lbrev .lbrevS32)
    ∧ gives (.lmad f4) 8 f4.ty f4.guard f4.vd.toNat (reg f4.ty f4.va.toNat) (reg f4.ty f4.vb.toNat) (reg f4.ty f4.vc.toNat) true
        (fun t a b c => I t a * I t b + I t c)
    ∧ gives (.lmadImm g4) 8 g4.ty g4.guard g4.vd.toNat (reg g4.ty g4.va.toNat) (fun _ => immVal g4.ty g4.imm)
        (reg g4.ty g4.vc.toNat) true (fun t a b c => I t a * I t b + I t c)

/-- R240, R241, R243: `lbfx`, `lbfi`, `lsel` (f64 not masked by the partition) and `laddc`, bit by bit, and nothing else
changed.
R242, R264, R265: comparisons of integers and the predicate operations: in each active lane the predicate takes the outcome;
no lane register changes. -/
def Obligations.LaneSelectionsAndPredicates : Prop :=
  (∀ (s : State) (h : Hart), s.hart? s.cur = some h → h.run.lent = [] → Map.sorted h.lanes.v = true →
  ∀ (f : Lane3) (g : Lane3I) (f2 : Lane2) (pos len1 : BitVec 5) (sx : Bool) (k pci pco : BitVec 4) (neg used : Bool),
    let takes := fun (i : Instr) (gd : Guard) (regs ps : List Nat) (post : Hart → Nat → Prop) =>
      ∃ t h', exec i s = .next t ∧ LaneStep s t h h' (laneEffect h 8 gd regs ps) ∧
        ∀ l, l < 32 → h.active gd l = true → post h' l
    let sel := fun (l : Nat) => (h.getP k.toNat).getLsbD l != neg
    takes (.lbfx f2 pos len1 sx) f2.guard [f2.vd.toNat] [] (fun h' l => ∀ j, j < 32 →
      (h'.getV f2.vd.toNat l).getLsbD j = if j ≤ len1.toNat then (h.getV f2.va.toNat l).getLsbD (pos.toNat + j)
        else sx && (h.getV f2.va.toNat l).getLsbD (pos.toNat + len1.toNat))
    ∧ takes (.lbfi f pos len1) f.guard [f.vd.toNat] [] (fun h' l => ∀ j, j < 32 →
      (h'.getV f.vd.toNat l).getLsbD j = if pos.toNat ≤ j ∧ j ≤ pos.toNat + len1.toNat then (h.getV f.vb.toNat l).getLsbD (j - pos.toNat)
        else (h.getV f.va.toNat l).getLsbD j)
    ∧ (f.ty = .f64 → s.pfmask h 4 = false →
        takes (.lsel f k neg) f.guard [f.vd.toNat, f.vd.toNat + 1] [] (fun h' l =>
          h'.getPair f.vd.toNat l = h.getPair (if sel l then f.va.toNat else f.vb.toNat) l))
    ∧ (f.ty ≠ .f64 → takes (.lsel f k neg) f.guard [f.vd.toNat] [] (fun h' l =>
          h'.getV f.vd.toNat l = h.getV (if sel l then f.va.toNat else f.vb.toNat) l))
    ∧ (g.ty ≠ .f64 ∨ s.pfmask h 4 = false → takes (.lselImm g k neg) g.guard (destRegs g.ty g.vd.toNat) [] (fun h' l =>
          h'.laneVal g.ty g.vd.toNat l = if sel l then h.laneVal g.ty g.va.toNat l else immVal g.ty g.imm))
    ∧ (pco.toNat < 12 → takes (.laddc f pci pco used) f.guard [f.vd.toNat] [pco.toNat] (fun h' l =>
        let sum := (h.getV f.va.toNat l).toNat + (h.getV f.vb.toNat l).toNat
          + (if used && (h.getP pci.toNat).getLsbD l then 1 else 0)
        (h'.getV f.vd.toNat l).toNat = sum % 2 ^ 32 ∧ (h'.getP pco.toNat).getLsbD l = decide (2 ^ 32 ≤ sum))))
  ∧
  (∀ (s : State) (h : Hart), s.hart? s.cur = some h →
  ∀ (f : Lane3) (g : Lane3I) (gd : Guard) (pd pa pb xs : BitVec 6) (tt : BitVec 4),
    let writes := fun (i : Instr) (gd : Guard) (pd : Nat) (v : Nat → Prop) => pd < 12 →
      ∃ t h', exec i s = .next t ∧ LaneStep s t h h' (laneEffect h 8 gd [] [pd]) ∧
        ∀ l, l < 32 → h.active gd l = true → ((h'.getP pd).getLsbD l = true ↔ v l)
    let I := fun (t : Ty) (p : Nat) => if t = .n32 then (p : Int) else readSigned (Ty.width t) p
    let a := fun (l : Nat) => I f.ty (h.getV f.va.toNat l).toNat
    let b := fun (l : Nat) => I f.ty (h.getV f.vb.toNat l).toNat
    let c := fun (l : Nat) => I g.ty (h.getV g.va.toNat l).toNat
    let d := I g.ty (immVal g.ty g.imm)
    (f.ty = .i32 ∨ f.ty = .n32 →
      writes (.lcmp f 0) f.guard f.vd.toNat (fun l => a l = b l) ∧ writes (.lcmp f 1) f.guard f.vd.toNat (fun l => a l ≠ b l)
      ∧ writes (.lcmp f 2) f.guard f.vd.toNat (fun l => a l < b l) ∧ writes (.lcmp f 3) f.guard f.vd.toNat (fun l => a l ≤ b l)
      ∧ writes (.lcmp f 4) f.guard f.vd.toNat (fun l => a l > b l) ∧ writes (.lcmp f 5) f.guard f.vd.toNat (fun l => a l ≥ b l))
    ∧ (g.ty = .i32 ∨ g.ty = .n32 →
      writes (.lcmpImm g 0) g.guard g.vd.toNat (fun l => c l = d) ∧ writes (.lcmpImm g 1) g.guard g.vd.toNat (fun l => c l ≠ d)
      ∧ writes (.lcmpImm g 2) g.guard g.vd.toNat (fun l => c l < d) ∧ writes (.lcmpImm g 3) g.guard g.vd.toNat (fun l => c l ≤ d)
      ∧ writes (.lcmpImm g 4) g.guard g.vd.toNat (fun l => c l > d) ∧ writes (.lcmpImm g 5) g.guard g.vd.toNat (fun l => c l ≥ d))
    ∧ writes (.plog pd pa pb gd tt) gd pd.toNat (fun l =>
        tt.getLsbD (2 * (if (h.getP pa.toNat).getLsbD l then 1 else 0) + (if (h.getP pb.toNat).getLsbD l then 1 else 0)) = true)
    ∧ writes (.pmovPred pd pa gd) gd pd.toNat (fun l => (h.getP pa.toNat).getLsbD l = true)
    ∧ writes (.pmovFromX pd xs gd) gd pd.toNat (fun l => (h.getX (xs.setWidth 5)).getLsbD l = true))

/-- R257, R261, R265 to R267, R95: what the lane instructions write to an x register, and the exec mask: `emset` keeps only the
bits of occupied lanes, `emand` only narrows. -/
def Obligations.LaneMasksAndScalars : Prop :=
  ∀ (s : State) (h : Hart), s.hart? s.cur = some h → ∀ (xd va pa xs : BitVec 6) (n : BitVec 5) (neg : Bool) (ty : Ty),
    let seq := h.nextPc 8
    let d : BitVec 5 := xd.setWidth 5
    let scalar := fun (i : Instr) (v : DWord) => ∃ t h', exec i s = .next t ∧ ScalarStep s t h h' d v seq h.run.lastBack
    let mask := fun (i : Instr) (em : BitVec 32) (h0 : Hart → Prop) => ∃ t h', exec i s = .next t ∧ OnlyHart s t s.cur h' ∧
      RetiresTo h h' seq ∧ h'.lanes = { h.lanes with em := em } ∧ h'.dev = h.dev ∧ h'.run = h.settle.run ∧ h0 h'
    let p := h.getP pa.toNat
    scalar (.lballot xd pa) ((h.lanes.em &&& p).setWidth 64) ∧ scalar (.pmovToX xd pa) (p.setWidth 64)
      ∧ scalar (.emget xd) (h.lanes.em.setWidth 64)
      ∧ scalar (.lextr xd va .i32 n) ((h.getV va.toNat n.toNat).signExtend 64)
      ∧ (ty ≠ .i32 → ty ≠ .f64 → scalar (.lextr xd va ty n) ((h.getV va.toNat n.toNat).setWidth 64))
      ∧ (s.pfmask h 4 = false → scalar (.lextr xd va .f64 n) (h.getPair va.toNat n.toNat))
      ∧ mask (.emset xs) ((h.getX (xs.setWidth 5)).setWidth 32 &&& h.lanes.occ) (fun h' => h'.x = h.x)
      ∧ mask (.emand xd pa neg) (h.lanes.em &&& (if neg then ~~~p else p))
          (fun h' => writesX h h' d (h.lanes.em.setWidth 64))

/-- R255, R256, R257, R258, R262, R263: the moves complete: each active lane of vd takes the value named, read before the instruction;
`lins` writes one lane and `ltrns` all, whatever the exec mask holds. They do for every type but an f64 that the partition masks, and
`ltrns` where the partition does not mask it. -/
def Obligations.LaneMoves : Prop :=
  ∀ (s : State) (h : Hart), s.hart? s.cur = some h → h.run.lent = [] → Map.sorted h.lanes.v = true →
  ∀ (f : Lane2) (f3 : Lane3) (vd va xs : BitVec 6) (imm : BitVec 16) (ty : Ty) (gd : Guard) (n c : BitVec 5),
    let may := fun (t : Ty) => t = .f64 → s.pfmask h 4 = false
    let moves := fun (i : Instr) (t : Ty) (gd : Guard) (vd : Nat) (v : Nat → Nat) => may t →
      ∃ u h', exec i s = .next u ∧ LaneStep s u h h' (laneEffect h 8 gd (destRegs t vd) []) ∧
        ∀ l, l < 32 → h.active gd l = true → h'.laneVal t vd l = v l
    let from_ := fun (src : Nat → Nat) (l : Nat) => h.laneVal f3.ty f3.va.toNat (src l)
    let sh := fun (kind : BitVec 3) (src : Nat → Nat) => moves (.lshfl f3 kind c) f3.ty f3.guard f3.vd.toNat (from_ src)
    let src := fun (k : BitVec 3) (v : Nat → Nat) => moves (.lgets vd gd k) .i32 gd vd.toNat v
    (moves (.lmov f) f.ty f.guard f.vd.toNat (h.laneVal f.ty f.va.toNat) ∧ moves (.lmovi vd imm ty gd) ty gd vd.toNat (fun _ => immVal ty imm)
      ∧ moves (.lbcast f) f.ty f.guard f.vd.toNat (fun _ =>
          (h.getX (f.va.setWidth 5)).toNat % (if f.ty = .f64 then 2 ^ 64 else 2 ^ 32)))
    ∧ (sh 0 (fun l => (h.getV f3.vb.toNat l).toNat % 32) ∧ sh 1 (fun l => l ^^^ c.toNat)
      ∧ sh 2 (fun l => if c.toNat ≤ l then l - c.toNat else l) ∧ sh 3 (fun l => if l + c.toNat ≤ 31 then l + c.toNat else l)
      ∧ sh 4 (fun l => (l + c.toNat) % 32))
    ∧ (src 0 (fun l => l) ∧ src 1 (fun l => (h.lanes.item.getD l 0).toNat % 2 ^ 32)
      ∧ src 2 (fun l => (h.lanes.item.getD l 0).toNat / 2 ^ 32) ∧ src 3 (fun l => (h.lanes.gen.getD l 0).toNat)
      ∧ src 4 (fun l => if h.lanes.fresh.getLsbD l then 1 else 0) ∧ src 5 (fun l => (h.lanes.cohort.getD l 0).toNat))
    ∧ (may ty → ∃ u h', exec (.lins vd xs ty n) s = .next u ∧
        LaneStep s u h h' { laneEffect h 8 gd (destRegs ty vd.toNat) [] with acts := fun l => decide (l = n.toNat) } ∧
        h'.laneVal ty vd.toNat n.toNat = (h.getX (xs.setWidth 5)).toNat % (if ty = .f64 then 2 ^ 64 else 2 ^ 32))
    ∧ (s.pfmask h 7 = false → (vd = 0 ∨ vd = 32) → (va = 0 ∨ va = 32) → ∃ u h', exec (.ltrns vd va) s = .next u ∧
        LaneStep s u h h' { laneEffect h 8 gd ((List.range 32).map (fun j => vd.toNat + j)) [] with acts := fun _ => true } ∧
        ∀ l j, l < 32 → j < 32 → h'.getV (vd.toNat + j) l = h.getV (va.toNat + l) j)

/-- R263: `ltrns` transposes a 32 by 32 block of registers in all 32 lanes, whatever the exec mask holds; with vd = va in place, else
with the source block unchanged. Its operands are v0 and v32 and nothing else, a guard or a variant among them. (Its completion where
the partition does not mask it.) -/
def Obligations.BlockTransposed : Prop :=
  ∀ (s : State) (h : Hart) (vd va : BitVec 6), s.hart? s.cur = some h → h.run.lent = [] → Map.sorted h.lanes.v = true →
    s.pfmask h 7 = false →
    ((Instr.ltrns vd va).wellFormed = true ↔ (vd = 0 ∨ vd = 32) ∧ (va = 0 ∨ va = 32)) ∧
    ((Instr.ltrns vd va).wellFormed = true → ∃ u h', exec (.ltrns vd va) s = .next u ∧ OnlyHart s u s.cur h' ∧
      RetiresTo h h' (h.nextPc 8) ∧ h'.x = h.x ∧ h'.dev = h.dev ∧ h'.run = h.settle.run ∧
      h'.lanes = { h.lanes with v := h'.lanes.v } ∧
      (∀ l j, l < 32 → j < 32 → h'.getV (vd.toNat + j) l = h.getV (va.toNat + l) j) ∧
      (∀ r l, l < 32 → ¬(vd.toNat ≤ r ∧ r < vd.toNat + 32) → h'.getV r l = h.getV r l))

/-- R244, R245, R232, R219 to R225, R41, R48: the arithmetic float operations in every form: each active lane's elements, lowest
first, take the exact result rounded once under the modes in force; the flags of its elements are raised in the lane; under SR its
state steps once for each real result; an f64 operation commits at the second of its two issue cycles, the first leaving nothing
but that (R233). The mode is one of R51; f64 is not masked by the partition, nor is SR.
Model's choices it rests on: log entry 133. -/
def Obligations.LaneFloatArithmetic : Prop :=
  ∀ (s : State) (h : Hart) (rm : Rm), s.hart? s.cur = some h → h.run.lent = [] → Map.sorted h.lanes.v = true →
    h.rounding = some rm → (rm = .sr → s.pfmask h 5 = false) →
  ∀ (f : Lane3) (g : Lane3I) (e : Lane3S) (f2 : Lane2) (e2 : Lane2S) (f4 : Lane4) (g4 : Lane4I),
    let md : FModes := ⟨rm, h.satCode, h.fsi, h.fso⟩
    let gives := fun (i : Instr) (len : Nat) (t : Ty) (gd : Guard) (vd : Nat) (a b c : Nat → Nat)
        (r : FVal → FVal → FVal → FVal × FlagSet) =>
      let F := floatFmt (fmtOfTy t)
      let val := fun (x k : Nat) => F.value h.fsi (elemOf t x k)
      let exact := fun (l k : Nat) => r (val (a l) k) (val (b l) k) (val (c l) k)
      let sr := fun (l k : Nat) => srBefore F md (fun j => (exact l j).1) (h.srOf l) k
      let out := fun (l k : Nat) => F.encode md (sr l k) (exact l k).1
      (t = .f64 → s.pfmask h 4 = false ∧ h.run.second = none →
        exec i s = .next (s.setCur { h with run := { h.run with second := some i } })) ∧
      ((t = .f64 → s.pfmask h 4 = false ∧ h.run.second ≠ none) → ∃ u h', exec i s = .next u ∧
        LaneStep s u h h' { laneEffect h len gd (destRegs t vd) [] with
          raised := fun l => (List.range (Ty.count t)).foldl (fun m k => m ||| (exact l k).2.bits ||| (out l k).flags.bits) 0,
          sr := fun l => sr l (Ty.count t) } ∧
        ∀ l, l < 32 → h.active gd l = true → ∀ k, k < Ty.count t →
          elemOf t (h'.laneVal t vd l) k = (out l k).pat % 2 ^ Ty.width t)
    let reg := fun (t : Ty) (r : Nat) (l : Nat) => h.laneVal t r l
    let none := fun (_ : Nat) => 0
    let op3 := fun (r : FVal → FVal → FVal → FVal × FlagSet) (long : Lane3 → Instr) (imm : Lane3I → Instr) (short : Lane3S → Instr) =>
      gives (long f) 8 f.ty f.guard f.vd.toNat (reg f.ty f.va.toNat) (reg f.ty f.vb.toNat) none r
      ∧ gives (imm g) 8 g.ty g.guard g.vd.toNat (reg g.ty g.va.toNat) (fun _ => immVal g.ty g.imm) none r
      ∧ gives (short e) 4 e.ty ⟨15, false⟩ e.vd.toNat (reg e.ty e.va.toNat) (reg e.ty e.vb.toNat) none r
    let op2 := fun (r : FVal → FVal × FlagSet) (long : Lane2 → Instr) (short : Lane2S → Instr) =>
      gives (long f2) 8 f2.ty f2.guard f2.vd.toNat (reg f2.ty f2.va.toNat) none none (fun a _ _ => r a)
      ∧ gives (short e2) 4 e2.ty ⟨15, false⟩ e2.vd.toNat (reg e2.ty e2.va.toNat) none none (fun a _ _ => r a)
    (op3 (fun a b _ => a.add rm b) .lfadd .lfaddImm .lfaddS32 ∧ op3 (fun a b _ => a.add rm b.neg) .lfsub .lfsubImm .lfsubS32
      ∧ op3 (fun a b _ => a.mul b) .lfmul .lfmulImm .lfmulS32 ∧ op3 (fun a b _ => a.div b) .lfdiv .lfdivImm .lfdivS32)
    ∧ (op2 (fun a => a.rcp) .lfrcp .lfrcpS32 ∧ op2 (fun a => a.rsqrt) .lfrsq .lfrsqS32 ∧ op2 (fun a => a.sqrt) .lfsqrt .lfsqrtS32
      ∧ op2 (fun a => a.exp2) .lfexp2 .lfexp2S32 ∧ op2 (fun a => a.log2) .lflog2 .lflog2S32)
    ∧ gives (.lfma f4) 8 f4.ty f4.guard f4.vd.toNat (reg f4.ty f4.va.toNat) (reg f4.ty f4.vb.toNat) (reg f4.ty f4.vc.toNat) (FVal.fma rm)
    ∧ gives (.lfmaImm g4) 8 g4.ty g4.guard g4.vd.toNat (reg g4.ty g4.va.toNat) (fun _ => immVal g4.ty g4.imm)
        (reg g4.ty g4.vc.toNat) (FVal.fma rm)

/-- R244, R245, R225: the special operands of the float operations: which give a NaN with NV, which an infinity with DZ, and the
results the table of R245 names.
R219: the whole number of units that each rounding mode gives of an exact value of `m` units of 2^-d: the nearest, ties to the
even or away from zero, truncated, or directed by the sign; under SR the truncation of the value and a 24-bit fraction.
Model's choices it rests on: log entry 133. -/
def Obligations.FloatValuesAndRounding : Prop :=
  (∀ (rm : Rm) (n m sig : Bool) (b c : FVal) (x : XReal),
    let nv := fun (r : FVal × FlagSet) => r.1.isNan = true ∧ r.2 = flagNV
    let dz := fun (r : FVal × FlagSet) (neg : Bool) => r = (.inf neg, flagDZ)
    let zero := fun (neg : Bool) => FVal.num (XReal.zero neg)
    let one := FVal.num ⟨false, 1, 0, false⟩
    (n ≠ m → nv (FVal.add rm (.inf n) (.inf m))) ∧ FVal.add rm (.inf n) (.inf n) = (.inf n, noFlags)
    ∧ nv (FVal.mul (zero n) (.inf m)) ∧ nv (FVal.mul (.inf n) (zero m)) ∧ (FVal.fma rm (zero n) (.inf m) c).1.isNan = true
    ∧ (FVal.fma rm (zero n) (.inf m) c).2.nv = true
    ∧ (x.isZero = false → dz (FVal.div (.num x) (zero n)) (x.neg != n)) ∧ nv (FVal.div (zero n) (zero m)) ∧ nv (FVal.div (.inf n) (.inf m))
    ∧ ((FVal.add rm (.nan n sig) b).1.isNan = true ∧ (FVal.mul b (.nan n sig)).1.isNan = true)
    ∧ (sig = true → (FVal.add rm b (.nan n sig)).2 = flagNV)
    ∧ (FVal.rcp (.inf n) = (zero n, noFlags) ∧ dz (FVal.rcp (zero n)) n)
    ∧ (nv (FVal.rsqrt (.inf true)) ∧ FVal.rsqrt (.inf false) = (zero false, noFlags) ∧ dz (FVal.rsqrt (zero n)) n)
    ∧ (nv (FVal.sqrt (.inf true)) ∧ FVal.sqrt (.inf false) = (.inf false, noFlags) ∧ FVal.sqrt (zero n) = (zero n, noFlags))
    ∧ (x.neg = true → x.isZero = false → nv (FVal.sqrt (.num x)) ∧ nv (FVal.rsqrt (.num x)) ∧ nv (FVal.log2 (.num x)))
    ∧ (FVal.exp2 (.inf true) = (zero false, noFlags) ∧ FVal.exp2 (.inf false) = (.inf false, noFlags) ∧ FVal.exp2 (zero n) = (one, noFlags))
    ∧ (nv (FVal.log2 (.inf true)) ∧ FVal.log2 (.inf false) = (.inf false, noFlags) ∧ dz (FVal.log2 (zero n)) true))
  ∧
  (∀ (neg : Bool) (m d : Nat) (sr : Word),
    let x : XReal := ⟨neg, m, -(d : Int), false⟩
    let k := fun (rm : Rm) => (roundUnits rm sr x 0).1
    let D := 2 ^ d
    (∀ rm, (roundUnits rm sr x 0).2 = decide (m % D ≠ 0))
    ∧ (∀ rm, m % D = 0 → k rm = m / D) ∧ (∀ rm, k rm = m / D ∨ k rm = m / D + 1)
    ∧ (2 * (m % D) < D → k .rne = m / D ∧ k .rna = m / D) ∧ (D < 2 * (m % D) → k .rne = m / D + 1 ∧ k .rna = m / D + 1)
    ∧ (2 * (m % D) = D → k .rne % 2 = 0 ∧ k .rna = m / D + 1)
    ∧ k .rtz = m / D ∧ (neg = true → k .rup = m / D) ∧ (neg = false → k .rdn = m / D)
    ∧ (m % D ≠ 0 → (neg = false → k .rup = m / D + 1) ∧ (neg = true → k .rdn = m / D + 1))
    ∧ k .sr = (m * 2 ^ 24 + sr.toNat / 2 ^ 8 * D) / (D * 2 ^ 24))

/-- R246 to R249: `lfmin` and `lfmax` (a NaN yields to the other operand, two give the canonical NaN, −0 below +0, NV for a
signalling NaN only), `lfsgn`, `lfcmp` and `lfclass` complete with their results, on every type but an f64 that the partition
masks. -/
def Obligations.LaneFloatSelections : Prop :=
  ∀ (s : State) (h : Hart), s.hart? s.cur = some h → h.run.lent = [] → Map.sorted h.lanes.v = true →
  ∀ (f : Lane3) (g : Lane3I) (e : Lane3S) (f2 : Lane2) (cond : BitVec 3) (kind : BitVec 2) (mask : BitVec 10),
    let may := fun (t : Ty) => t = .f64 → s.pfmask h 4 = false
    let picks := fun (i : Instr) (len : Nat) (t : Ty) (gd : Guard) (vd : Nat) (a b : Nat → Nat) (max : Bool) => may t →
      let F := floatFmt (fmtOfTy t)
      let v := fun (p : Nat) => F.value h.fsi p
      let zeroed := fun (p : Nat) => match v p with
        | .num x => if x.isZero then (if x.neg then F.signBit else 0) else p
        | _ => p
      let one := fun (p q : Nat) => if (v p).isNan && (v q).isNan then F.canonical
        else if (v p).isNan then zeroed q else if (v q).isNan then zeroed p
        else if (if max then (v p).less (v q) else (v q).less (v p)) then zeroed q else zeroed p
      let nv := fun (l : Nat) => (List.range (Ty.count t)).any (fun k => (v (elemOf t (a l) k)).isSig || (v (elemOf t (b l) k)).isSig)
      ∃ u h', exec i s = .next u ∧
        LaneStep s u h h' { laneEffect h len gd (destRegs t vd) [] with raised := fun l => if nv l then 16 else 0 } ∧
        ∀ l, l < 32 → h.active gd l = true → ∀ k, k < Ty.count t →
          elemOf t (h'.laneVal t vd l) k = one (elemOf t (a l) k) (elemOf t (b l) k) % 2 ^ Ty.width t
    let reg := fun (t : Ty) (r : Nat) (l : Nat) => h.laneVal t r l
    let cmp := fun (i : Instr) (t : Ty) (gd : Guard) (pd : Nat) (a b : Nat → Nat) => may t → pd < 12 →
      let v := fun (p : Nat) => (floatFmt (fmtOfTy t)).value h.fsi p
      ∃ u h', exec i s = .next u ∧
        LaneStep s u h h' { laneEffect h 8 gd [] [pd] with
          raised := fun l => if (FVal.compare cond.toNat (v (a l)) (v (b l))).2 then 16 else 0 } ∧
        ∀ l, l < 32 → h.active gd l = true → (h'.getP pd).getLsbD l = (FVal.compare cond.toNat (v (a l)) (v (b l))).1
    (picks (.lfmin f) 8 f.ty f.guard f.vd.toNat (reg f.ty f.va.toNat) (reg f.ty f.vb.toNat) false
      ∧ picks (.lfmax f) 8 f.ty f.guard f.vd.toNat (reg f.ty f.va.toNat) (reg f.ty f.vb.toNat) true
      ∧ picks (.lfminImm g) 8 g.ty g.guard g.vd.toNat (reg g.ty g.va.toNat) (fun _ => immVal g.ty g.imm) false
      ∧ picks (.lfmaxImm g) 8 g.ty g.guard g.vd.toNat (reg g.ty g.va.toNat) (fun _ => immVal g.ty g.imm) true
      ∧ picks (.lfminS32 e) 4 e.ty ⟨15, false⟩ e.vd.toNat (reg e.ty e.va.toNat) (reg e.ty e.vb.toNat) false
      ∧ picks (.lfmaxS32 e) 4 e.ty ⟨15, false⟩ e.vd.toNat (reg e.ty e.va.toNat) (reg e.ty e.vb.toNat) true)
    ∧ (may f.ty → ∃ u h', exec (.lfsgn f kind) s = .next u ∧ LaneStep s u h h' (laneEffect h 8 f.guard (destRegs f.ty f.vd.toNat) []) ∧
        ∀ l, l < 32 → h.active f.guard l = true → ∀ k, k < Ty.count f.ty →
          let w := Ty.width f.ty
          let a := elemOf f.ty (h.laneVal f.ty f.va.toNat l) k
          let b := elemOf f.ty (h.laneVal f.ty f.vb.toNat l) k
          let r := elemOf f.ty (h'.laneVal f.ty f.vd.toNat l) k
          r % 2 ^ (w - 1) = a % 2 ^ (w - 1) ∧
          (r.testBit (w - 1) = if kind = 0 then b.testBit (w - 1) else if kind = 1 then !b.testBit (w - 1)
            else (a.testBit (w - 1) != b.testBit (w - 1))))
    ∧ cmp (.lfcmp f cond) f.ty f.guard f.vd.toNat (reg f.ty f.va.toNat) (reg f.ty f.vb.toNat)
    ∧ cmp (.lfcmpImm g cond) g.ty g.guard g.vd.toNat (reg g.ty g.va.toNat) (fun _ => immVal g.ty g.imm)
    ∧ (may f2.ty → f2.vd.toNat < 12 → ∃ u h', exec (.lfclass f2 mask) s = .next u ∧
        LaneStep s u h h' (laneEffect h 8 f2.guard [] [f2.vd.toNat]) ∧
        ∀ l, l < 32 → h.active f2.guard l = true → ((h'.getP f2.vd.toNat).getLsbD l =
          mask.getLsbD ((floatFmt (fmtOfTy f2.ty)).classOf h.fsi (h.laneVal f2.ty f2.va.toNat l))))
    ∧ (∀ a b : FVal, a.isNan = true ∨ b.isNan = true →
        ((FVal.compare cond.toNat a b).1 = true ↔ cond = 1 ∨ cond = 6) ∧
        ((FVal.compare cond.toNat a b).2 = true ↔ 2 ≤ cond.toNat ∧ cond.toNat ≤ 5 ∨ a.isSig = true ∨ b.isSig = true))

/-- R250 to R254, R224: the conversions: `lcvt`, `lpack` and `lunpk` write what the conversion of R224 gives of each active lane's
element, raise its flags and step its stochastic state, under a mode of R51; the lane's other elements, lanes and registers are
unchanged.
R224, R219: a conversion to an integer of w bits: the rounded value where it is in range, with NX where rounding changed it; the
nearer end of the range and NV beyond it, the largest value and NV for a NaN. -/
def Obligations.LaneConversions : Prop :=
  (∀ (s : State) (h : Hart) (rm : Rm), s.hart? s.cur = some h → h.run.lent = [] → Map.sorted h.lanes.v = true →
    h.rounding = some rm → s.pfmask h 4 = false → s.pfmask h 5 = false →
  ∀ (f : Lane2) (f3 : Lane3) (dst src : BitVec 4) (bs : Bool) (sel : BitVec 2) (k : BitVec 3),
    let md := fun (r : Rm) => (⟨r, h.satCode, h.fsi, h.fso⟩ : FModes)
    let gives := fun (i : Instr) (t : Ty) (gd : Guard) (vd : Nat) (out : Nat → Nat × FlagSet × Word) =>
      ∃ u h', exec i s = .next u ∧
        LaneStep s u h h' { laneEffect h 8 gd (destRegs t vd) [] with
          raised := fun l => (out l).2.1.bits, sr := fun l => (out l).2.2 } ∧
        ∀ l, l < 32 → h.active gd l = true → h'.laneVal t vd l = (out l).1 % (if t = .f64 then 2 ^ 64 else 2 ^ 32)
    let wide := fun (c : BitVec 4) => if c = 11 then Ty.f64 else Ty.i32
    let rounds := fun (d s : Nat) => d ≠ 8 ∧ ¬((d = 9 ∨ d = 10) ∧ (s = 9 ∨ s = 10))
    let lane := fun (r : Rm) (l : Nat) => cvtLane (md r) dst.toNat src.toNat bs sel.toNat (h.srOf l)
      (h.laneVal (wide src) f.va.toNat l) (h.getV (f.va.toNat + 1) l).toNat (h.getV f.vd.toNat l).toNat
    let pack := fun (r : Rm) (l : Nat) => packLane (md r) dst.toNat (h.srOf l) (h.getV f3.va.toNat l).toNat (h.getV f3.vb.toNat l).toNat
    (rounds dst.toNat src.toNat → gives (.lcvt f dst src bs sel) (wide dst) f.guard f.vd.toNat (lane rm))
      ∧ (¬ rounds dst.toNat src.toNat → gives (.lcvt f dst src bs sel) (wide dst) f.guard f.vd.toNat (lane .rne))
      ∧ (dst ≠ 8 ∧ dst ≠ 9 ∧ dst ≠ 10 → gives (.lpack f3 dst) .i32 f3.guard f3.vd.toNat (pack rm))
      ∧ (dst = 8 ∨ dst = 9 ∨ dst = 10 → gives (.lpack f3 dst) .i32 f3.guard f3.vd.toNat (pack .rne))
      ∧ gives (.lunpk f src k) .i32 f.guard f.vd.toNat (fun l =>
          let r := unpackLane h.fsi src.toNat k.toNat (h.getV f.va.toNat l).toNat
          (r.1, r.2, h.srOf l)))
  ∧
  (∀ (w : Nat) (rm : Rm) (sr : Word) (x : XReal) (n sig : Bool), 2 ≤ w → rm ≠ .sr →
    let r : Int := if x.neg then -((roundUnits rm sr x 0).1 : Int) else ((roundUnits rm sr x 0).1 : Int)
    let out := toIntFmt w rm sr (.num x)
    let is := fun (o : FOut) (v : Int) (fl : FlagSet) => readSigned w o.pat = v ∧ o.flags = fl ∧ o.sr = sr
    (-(2 ^ (w - 1)) ≤ r → r < 2 ^ (w - 1) → is out r (if (roundUnits rm sr x 0).2 then flagNX else noFlags))
      ∧ (r < -(2 ^ (w - 1)) → is out (-(2 ^ (w - 1))) flagNV) ∧ (2 ^ (w - 1) ≤ r → is out (2 ^ (w - 1) - 1) flagNV)
      ∧ is (toIntFmt w rm sr (.nan n sig)) (2 ^ (w - 1) - 1) flagNV
      ∧ is (toIntFmt w rm sr (.inf n)) (if n then -(2 ^ (w - 1)) else 2 ^ (w - 1) - 1) flagNV)

/-- R259, R260, R227: the collectives complete: each active lane takes its value of the fixed tree over the lanes' positions, the
flags of all nodes are raised in every active lane, and under SR the state of the lowest active lane alone steps.
R259, R227: what the tree of an integer reduction of 32-bit elements comes to: with lanes inactive as the identity, the sum modulo
2^32, the bitwise and, or and exclusive or, and the least and largest of the active lanes' values. -/
def Obligations.LaneCollectives : Prop :=
  (∀ (s : State) (h : Hart) (rm : Rm), s.hart? s.cur = some h → h.run.lent = [] → Map.sorted h.lanes.v = true →
    h.rounding = some rm → s.pfmask h 4 = false → s.pfmask h 5 = false →
  ∀ (f : Lane2) (op : BitVec 3) (excl : Bool),
    let lanes := allLanes.filter (h.active f.guard)
    let rm' := if Ty.isFloat f.ty && op == 0 then rm else .rne
    let gives := fun (i : Instr) (pre : Option Bool) =>
      let r := collectiveValues h op.toNat f.ty rm' lanes f.va.toNat pre
      ∃ u h', exec i s = .next u ∧
        LaneStep s u h h' { laneEffect h 8 f.guard (destRegs f.ty f.vd.toNat) [] with
          raised := fun _ => r.2.flags.bits, sr := fun l => if l = lanes.headD 0 then r.2.sr else h.srOf l } ∧
        ∀ e ∈ r.1, h'.laneVal f.ty f.vd.toNat e.1 = e.2 % (if f.ty = .f64 then 2 ^ 64 else 2 ^ 32)
    gives (.lred f op) none ∧ gives (.lscan f op excl) (some excl))
  ∧
  (∀ (h : Hart) (rm : Rm) (lanes : List Nat) (va : Nat) (l v : Nat), lanes.Pairwise (· < ·) → (∀ j ∈ lanes, j < 32) →
    let vals := lanes.map (fun j => h.getV va j)
    let got := fun (op : Nat) (t : Ty) => (l, v) ∈ (collectiveValues h op t rm lanes va none).1
    (got 0 .i32 → v = (vals.foldl (· + ·) 0).toNat) ∧ (got 3 .i32 → v = (vals.foldl (· &&& ·) (~~~0)).toNat)
      ∧ (got 4 .i32 → v = (vals.foldl (· ||| ·) 0).toNat) ∧ (got 5 .i32 → v = (vals.foldl (· ^^^ ·) 0).toNat)
      ∧ (got 1 .n32 → (∃ j ∈ lanes, v = (h.getV va j).toNat) ∧ ∀ j ∈ lanes, v ≤ (h.getV va j).toNat)
      ∧ (got 2 .n32 → (∃ j ∈ lanes, v = (h.getV va j).toNat) ∧ ∀ j ∈ lanes, (h.getV va j).toNat ≤ v)
      ∧ (got 1 .i32 → (∃ j ∈ lanes, v = (h.getV va j).toNat) ∧ ∀ j ∈ lanes, (BitVec.ofNat 32 v).toInt ≤ (h.getV va j).toInt)
      ∧ (got 2 .i32 → (∃ j ∈ lanes, v = (h.getV va j).toNat) ∧ ∀ j ∈ lanes, (h.getV va j).toInt ≤ (BitVec.ofNat 32 v).toInt))

/-- R235, R37, R374: an instruction of a type or kind that the partition masks takes cause 2 at its own pc, at the emulation
handler where `emuvec` is enabled: f64 arithmetic, selection and moves under bit 4, SR rounding under bit 5, `ltrns` under bit
7. Nothing else is written.
R54: an instruction that rounds while `lrm` holds no mode raises cause 2 and writes nothing. -/
def Obligations.MaskedInstructionsTrap : Prop :=
  (∀ (s : State) (h : Hart) (f : Lane3) (f2 : Lane2) (vd va : BitVec 6), s.hart? s.cur = some h → h.priv ≠ .M →
    h.csr.medeleg.getLsbD 2 = true →
    let traps := fun (i : Instr) => ∃ t h', exec i s = .next t ∧ OnlyHart s t s.cur h' ∧ EntersS s.now h h' 2 (h.firstWord i)
      (if h.dev.emuvec.getLsbD 0 then h.dev.emuvec &&& ~~~3 else h.csr.stvec)
    (s.pfmask h 4 = true → f.ty = .f64 → traps (.lfadd f) ∧ traps (.lfmin f) ∧ traps (.lsel f 0 false) ∧ traps (.lfcmp f 0))
      ∧ (s.pfmask h 4 = true → f2.ty = .f64 → traps (.lmov f2) ∧ traps (.lfsqrt f2) ∧ traps (.lred f2 0))
      ∧ (s.pfmask h 5 = true → f.ty ≠ .f64 → h.rounding = some .sr → traps (.lfadd f) ∧ traps (.lfmul f))
      ∧ (s.pfmask h 7 = true → traps (.ltrns vd va)))
  ∧
  (∀ (s : State) (h : Hart) (f : Lane3) (f2 : Lane2), s.hart? s.cur = some h → h.priv ≠ .M → h.csr.medeleg.getLsbD 2 = true →
    s.pfmask h 4 = false → h.run.pair = none → 6 ≤ h.dev.lrm.toNat →
    let traps := fun (i : Instr) => ∃ t h', exec i s = .next t ∧ OnlyHart s t s.cur h' ∧
      EntersS s.now h h' 2 (h.firstWord i) h.csr.stvec
    traps (.lfadd f) ∧ traps (.lfmul f) ∧ traps (.lfdiv f) ∧ traps (.lfsqrt f2) ∧ (f2.ty = .f32 → traps (.lred f2 0)))

/-- R52, R53, R234: a PX and the prefixable word after it are one instruction: the state is that of the second under the PX's modes,
its pc past both, one instruction retired; a word that may not follow a PX raises cause 24 with that word, at the PX's pc. The
words are fetched without a miss and no comparator watches them. -/
def Obligations.PrefixPairs : Prop :=
  ∀ (s : State) (h : Hart) (m : PxModes) (f : Lane3) (lo hi : Word), s.hart? s.cur = some h →
    s.fetchPair h (h.pc + 4) = .ok (lo, hi) s → (∀ lanes pcs, s.pcMatch h lanes pcs = none) → h.priv ≠ .M →
    h.csr.medeleg.getLsbD 24 = true → h.run.lent = [] → Map.sorted h.lanes.v = true →
    let under := s.setCur { h with run := { h.run with pair := some m } }
    (∀ i ∈ [Instr.ladd f, .lsub f, .lmul f, .land f, .lshl f, .lfadd f, .lfmul f, .lfdiv f], prefixable lo = true →
      decode lo hi = .ok i → m.rm = 0 → f.ty ≠ .f64 →
      ∃ t h', exec (.px m) s = .next t ∧ exec i under = .next t ∧ OnlyHart s t s.cur h' ∧ h'.pc = h.pc + 12 ∧ h'.run.pair = none ∧
        h'.csr.minstret = (if h.csr.mcountinhibit.getLsbD 2 then h.csr.minstret else h.csr.minstret + 1))
    ∧ (prefixable lo = false → ∃ t, exec (.px m) s = .next t ∧ TakesTrap s t s.cur h 24 (lo.setWidth 64))

/-- R28, R362: a word that is no instruction, issued by a hart at its boundary: cause 2 with the word's 32 bits as `tval`,
taken by the supervisor where it is delegated.
R27, R304, R362: a fetch that fails raises its cause (12, or 1 for an access fault) with the address as `tval`; the hart
that takes it executes nothing.
R363, R365: at its boundary a hart takes the oldest of its pending asynchronous causes, with its `stval`; a drained queue that
had overflowed gives one cause 27 with all ones. A single step still to be made stays so (R376). -/
def Obligations.BoundaryTraps : Prop :=
  (∀ (s : State) (k w : Nat) (h : Hart), s.arg.nats = [k, w] → s.hart? k = some h → h.run.wait = none → h.run.halted = false →
    h.run.entering = none → h.run.second = none → h.run.busyUntil ≤ s.now → w < 2 ^ 32 → (toSupervisor h h.csr.medeleg 2 ∨ h.priv = .M) →
    ∃ t, exec .illegalInstruction s = .next t ∧ TakesTrap s t k h 2 (BitVec.ofNat 64 w))
  ∧
  (∀ (s : State) (k c v : Nat) (h : Hart), s.arg.nats = [k, c, v] → s.hart? k = some h → h.run.wait = none →
    h.run.halted = false → h.run.entering = none → h.run.second = none → h.run.busyUntil ≤ s.now → (toSupervisor h h.csr.medeleg c ∨ h.priv = .M) →
    ∃ t, exec .instructionFetchFault s = .next t ∧ TakesTrap s t k h c (BitVec.ofNat 64 v))
  ∧
  (∀ (s : State) (k c : Nat) (v : DWord) (rest : List (Nat × DWord)) (h : Hart), s.arg.nats = [k] → s.hart? k = some h →
    h.run.wait = none → h.run.halted = false → h.run.entering = none → h.run.second = none → h.run.busyUntil ≤ s.now →
    let takes := fun (u : Run) (c : Nat) (v : DWord) => ∃ t g,
      TakesTrap s t k { h with run := { u with stepping := false } } c v ∧ t.hart? k = some g ∧
      exec .takeAsyncCause s = .next (t.setHart k { g with run := { g.run with stepping := h.run.stepping } })
    (h.run.aq = (c, v) :: rest → (toSupervisor h h.csr.medeleg c ∨ h.priv = .M) →
      takes { h.run with aq := rest } c v) ∧
    (h.run.aq = [] → h.run.aqOvf = true → (toSupervisor h h.csr.medeleg 27 ∨ h.priv = .M) →
      takes { h.run with aqOvf := false } 27 0xFFFFFFFFFFFFFFFF))

/-- R364, R365, R70, R76: at its boundary, no asynchronous cause pending, a hart takes the first interrupt that is pending,
enabled and not held off, in the order 17, 18, 16, 19: the cause has bit 63 set, the interrupt is no longer pending (of
completions, the oldest; of an overflowed empty queue, its mark), the delegated level is entered. A single step still to be made stays so (R376).
R78: `wfi` where it may execute: with an enabled interrupt pending the hart goes on at the next instruction; otherwise it
leaves rotation there until one is.
R78, R107: a hart in `wfi` for which an enabled interrupt is pending returns to rotation; a hart whose hang counter exceeds
its threshold after a branch or jump taken backwards has interrupt 16 pending with that pc, and its counter is 0. -/
def Obligations.Interrupts : Prop :=
  (∀ (s : State) (k n : Nat) (v : DWord) (h h0 : Hart), s.arg.nats = [k] → s.hart? k = some h → h.run.wait = none →
    h.run.halted = false → h.run.entering = none → h.run.second = none → h.run.busyUntil ≤ s.now → h.run.aq = [] →
    h.run.aqOvf = false → h.run.spawn = none →
    let ready := fun (m : Nat) => h.mip.getLsbD m = true ∧ h.csr.mie.getLsbD m = true ∧
      (if h.csr.mideleg.getLsbD m then h.priv = .U ∨ (h.priv = .S ∧ h.csr.mstatus.getLsbD 1 = true)
       else h.priv ≠ .M ∨ h.csr.mstatus.getLsbD 3 = true)
    ready n →
    ((n = 17 ∧ h.run.irq17 = some v ∧ h0 = { h with run := { h.run with irq17 := none, busyUntil := s.now + 1, stepping := false } })
      ∨ (n = 18 ∧ ¬ ready 17 ∧ h.run.irq18 = some v ∧ h0 = { h with run := { h.run with irq18 := none, busyUntil := s.now + 1, stepping := false } })
      ∨ (n = 16 ∧ ¬ ready 17 ∧ ¬ ready 18 ∧ h.run.irq16 = some v ∧ h0 = { h with run := { h.run with irq16 := none, busyUntil := s.now + 1, stepping := false } })
      ∨ (n = 19 ∧ ¬ ready 17 ∧ ¬ ready 18 ∧ ¬ ready 16 ∧
          ((∃ rest, h.run.iq19 = v :: rest ∧ h0 = { h with run := { h.run with iq19 := rest, busyUntil := s.now + 1, stepping := false } })
          ∨ (h.run.iq19 = [] ∧ v = 0xFFFFFFFFFFFFFFFF ∧ h0 = { h with run := { h.run with iq19Ovf := false, busyUntil := s.now + 1, stepping := false } })))) →
    ∃ t h', exec .takeInterrupt s = .next (t.setHart k { h' with run := { h'.run with stepping := h.run.stepping } }) ∧
      OnlyHart s t k h' ∧
      (toSupervisor h h.csr.mideleg n → EntersS s.now h0 h' (BitVec.ofNat 64 (2 ^ 63 + n)) v h.csr.stvec) ∧
      (¬ toSupervisor h h.csr.mideleg n →
        EntersM s.now h0 h' (BitVec.ofNat 64 (2 ^ 63 + n)) v (if h.priv = .M then none else some .firmware)))
  ∧
  (∀ (s : State) (h : Hart), s.hart? s.cur = some h →
    (h.priv = .M ∨ (h.priv = .S ∧ h.csr.mstatus.getLsbD 21 = false)) →
    ∃ t h', exec .wfi s = .next t ∧ OnlyHart s t s.cur h' ∧ RetiresTo h h' (h.nextPc 4) ∧ h'.x = h.x ∧ h'.lanes = h.lanes ∧
      h'.dev = h.dev ∧
      (h.mip &&& h.csr.mie ≠ 0 → h'.run = h.settle.run) ∧
      (h.mip &&& h.csr.mie = 0 → h'.run = { h.settle.run with wait := some .wfi, hangHeld := h.hangNow s.now, hangFrom := s.now }))
  ∧
  (∀ (s : State) (k : Nat) (h : Hart), s.arg.nats = [k] → s.hart? k = some h →
    (h.run.wait = some .wfi → h.mip &&& h.csr.mie ≠ 0 →
      ∃ t, exec .wfiWake s = .next t ∧ OnlyHart s t k { h with run := { h.run with
        wait := none, busyUntil := s.now + 1, hangHeld := h.hangNow s.now, hangFrom := s.now } }) ∧
    (∀ pc, h.dev.hangthr ≠ 0 → h.run.lastBack = some pc → h.dev.hangthr.toNat < h.hangNow s.now →
      ∃ t, exec .hangDetect s = .next t ∧ OnlyHart s t k { h with run := { h.run with
        irq16 := some pc, hangHeld := 0, hangFrom := s.now, lastBack := none } }))

/-- R93, R94, R109: when the data of an access, or the dispatcher's answer to a claim, comes back, the waiting instruction has its
effect as if it were issued then, with no latency left.
R80, R309, R176, R150: an `sfence.vma` whose walks have returned, and an ordered-item stall, end; a parked `waita` ends with
the status of its wake message, or 1 at its timeout, its watch is removed, the core's lane L1 is invalidated and it retires.
R168, R169, R93: the echoes of a release of a hart that waits in a fence come back, none of its stores held: its fence is
done, its mask is cleared, its far bit by scopes X and S, and it issues again from the next cycle.
Model's choices it rests on: log entry 1. -/
def Obligations.WaitsEnd : Prop :=
  (∀ (s : State) (k tag : Nat) (h : Hart) (i : Instr), s.arg.nats = [k, tag] → s.hart? k = some h →
    let u : State := { s with cur := k, latencies := [], harts := Map.put s.harts k { h with run := { h.run with
      wait := none, busyUntil := s.now + 1, hangHeld := h.hangNow s.now, hangFrom := s.now } } }
    let returns := fun (ev : Instr) => ∃ t, exec i u = .next t ∧
      exec ev s = .next { t with cur := s.cur, latencies := s.latencies }
    (h.run.wait = some (.data tag i) → ((∃ rd rs1 imm, i = .lb rd rs1 imm ∨ i = .lh rd rs1 imm ∨ i = .lw rd rs1 imm ∨
        i = .ld rd rs1 imm ∨ i = .lbu rd rs1 imm ∨ i = .lhu rd rs1 imm ∨ i = .lwu rd rs1 imm) ∨
        (∃ m p, i = .lld m p ∨ i = .lst m p ∨ i = .lldt m p) ∨ (∃ m imm, i = .lldImm m imm ∨ i = .lldtImm m imm) ∨
        (∃ m op o sc vs, i = .lamo m op o sc vs)) → returns .missDataReturn) ∧
    (∀ xd, h.run.wait = some (.claim tag i) → i = .rfl xd → returns .rflClaimAnswer))
  ∧
  (∀ (s : State) (k tag : Nat) (h : Hart), s.hart? k = some h →
    let back : Hart := { h with run := { h.run with
      wait := none, busyUntil := s.now + 1, hangHeld := h.hangNow s.now, hangFrom := s.now } }
    (s.arg.nats = [k, tag] → h.run.wait = some (.sfence tag) → s.walksBefore h.role.part tag = false →
      ∃ t, exec .sfenceVmaComplete s = .next t ∧ t.hart? k = some back ∧ (∀ j, j ≠ k → t.hart? j = s.hart? j) ∧
        (∀ f, f ∈ (t.cluster (clusterOf k)).sfences ↔ f ∈ (s.cluster (clusterOf k)).sfences ∧ f.1 ≠ tag) ∧
        (∀ c, c ≠ clusterOf k → t.cluster c = s.cluster c) ∧ { t with harts := s.harts, clusters := s.clusters } = s) ∧
    (s.arg.nats = [k] → h.run.wait = some .ordered → ∃ t, exec .orderedStallEnd s = .next t ∧ OnlyHart s t k back) ∧
    (∀ xd at_ status, h.run.wait = some (.waita tag xd at_) →
      let ends := fun (ev : Instr) (v : Nat) => ∃ t h', exec ev s = .next t ∧ t.hart? k = some h' ∧
        RetiresTo h h' (h.nextPc 4) ∧ writesX h h' xd (BitVec.ofNat 64 v) ∧ h'.lanes = h.lanes ∧ h'.dev = h.dev ∧
        h'.run.wait = none ∧ h'.run.resv = h.run.resv ∧ (t.core (coreOf k)).l1 = [] ∧ CachesOnly s t ∧
        (∀ d n w, w ∈ ((t.die d).slice n).watches ↔ w ∈ ((s.die d).slice n).watches ∧ w.hart ≠ k) ∧
        (∀ j, j ≠ k → t.hart? j = s.hart? j) ∧ { t with harts := s.harts, cores := s.cores, dies := s.dies } = s
      h.getX 0 = 0 → (s.arg.nats = [k, tag, status] → ends .waitaWake status) ∧ (s.arg.nats = [k, tag] → ends .waitaTimeout 1)))
  ∧
  (∀ (s : State) (k tag : Nat) (h : Hart) (scope : BitVec 3) (order : BitVec 2), s.arg.nats = [k, tag] → s.hart? k = some h →
    h.run.wait = some (.release tag (.pfence scope order)) → s.echoHeld k = false → (s.core (coreOf k)).flight = [] →
    order.getLsbD 1 = true → 2 ≤ scope.toNat → scope.toNat ≤ 6 →
    ∃ t h', exec .releaseComplete s = .next t ∧ t.hart? k = some h' ∧ h'.run.wait = none ∧ h'.run.busyUntil = s.now + 1 ∧
      h'.pc = h.nextPc 4 ∧ h'.x = h.x ∧ h'.lanes = h.lanes ∧
      h'.dev = { h.dev with tbm := 0, tbmf := h.dev.tbmf && decide (scope.toNat < 5) } ∧
      (∀ j, j ≠ k → t.hart? j = s.hart? j) ∧ { t with harts := s.harts, cores := s.cores } = s)

/-- R152, R153: a free bank that nobody waits for is locked for the hart that asks: the lane L1 of its core is invalidated and the
lock is broken `lkto` cycles later, at least 1,024; the holder's release frees it; a released bank goes to the longest
waiting request; a broken lock leaves cause 30 pending on its holder.
Model's choices it rests on: log entry 45. -/
def Obligations.BankLocks : Prop :=

  ∀ (s : State) (h : Hart) (xb : BitVec 5) (p : Part), s.hart? s.cur = some h → s.part? h.role.part = some p →
    s.ordered h = false →
    let b := (h.getX xb).toNat
    let c := coreOf s.cur
    b ≤ 31 → b * 16384 < 524288 - p.lend * 1024 → p.banks.getLsbD b = true → Map.sorted (s.core c).locks = true →
    let granted := fun (t : State) (k : Nat) (g : Hart) => ∃ n, Map.find (t.core c).locks b = some ⟨k, n⟩ ∧
      (∀ a, a ≠ b → Map.find (t.core c).locks a = Map.find (s.core c).locks a) ∧ (t.core c).l1 = [] ∧
      ⟨s.now + max g.dev.lkto.toNat 1024, .bankLockBreak, { nats := [c, b, n] }⟩ ∈ t.schedule
    let frees := fun (t : State) => Map.find (t.core c).locks b = none ∧
      (∀ a, a ≠ b → Map.find (t.core c).locks a = Map.find (s.core c).locks a) ∧
      { t.core c with locks := (s.core c).locks } = s.core c
    let alone := fun (t : State) (k : Nat) => (∀ j, j ≠ k → t.hart? j = s.hart? j) ∧ (∀ d, d ≠ c → t.core d = s.core d) ∧
      { t with harts := s.harts, cores := s.cores, schedule := s.schedule, tag := s.tag } = s
    let retires := fun (t : State) => ∃ h', t.hart? s.cur = some h' ∧ RetiresTo h h' (h.nextPc 4) ∧ h'.x = h.x ∧
      h'.lanes = h.lanes ∧ h'.dev = h.dev ∧ h'.run = h.settle.run
    (Map.find (s.core c).locks b = none → (∀ e ∈ (s.core c).lockq, e.1 ≠ b) → s.locksHeld s.cur < 4 →
      ∃ t, exec (.lkbank xb) s = .next t ∧ retires t ∧ granted t s.cur h ∧ alone t s.cur) ∧
    (∀ l, Map.find (s.core c).locks b = some l → l.holder = s.cur →
      (∃ t, exec (.lkbank xb) s = .next t ∧ retires t ∧ alone t s.cur ∧ t.core c = s.core c) ∧
      ∃ t, exec (.ulkbank xb) s = .next t ∧ retires t ∧ frees t ∧ alone t s.cur) ∧
    (∀ l, Map.find (s.core c).locks b = some l → l.holder ≠ s.cur → s.locksHeld s.cur < 4 →
      ∃ t, exec (.lkbank xb) s = .next t ∧ t.hart? s.cur = some (h.park (.lock b none) s.now) ∧
        (t.core c).lockq = (s.core c).lockq ++ [(b, s.cur)] ∧ alone t s.cur) ∧
    (∀ k g, s.arg.nats = [c, b] → Map.find (s.core c).locks b = none →
      (s.core c).lockq.find? (fun e => e.1 == b) = some (b, k) → k < 65536 → s.hart? k = some g →
      g.run.wait = some (.lock b none) →
      ∃ t g', exec .bankLockGrant s = .next t ∧ t.hart? k = some g' ∧ RetiresTo g g' (g.nextPc 4) ∧ g'.run.wait = none ∧
        g'.x = g.x ∧ g'.lanes = g.lanes ∧ g'.dev = g.dev ∧ granted t k g ∧
        (t.core c).lockq = (s.core c).lockq.erase (b, k) ∧ alone t k) ∧
    (∀ l g, Map.find (s.core c).locks b = some l → s.arg.nats = [c, b, l.tag] → s.hart? l.holder = some g → g.run.wait = none →
      g.run.aq.length < 4 →
      ∃ t, exec .bankLockBreak s = .next t ∧ frees t ∧ alone t l.holder ∧
        t.hart? l.holder = some { g with run := { g.run with aq := g.run.aq ++ [(30, BitVec.ofNat 64 b)] } })

/-- R101, R102, R108: `bar` in a group of a gang launch counts the hart's arrival, collects its flags and leaves it waiting, its pc
at the `bar`; when every hart of the group has arrived, all go on behind it with the flags collected, the phase advances and
nobody has arrived. -/
def Obligations.Barriers : Prop :=

  ∀ (s : State) (whole : Bool),
    let lists := fun (t : State) (k : Nat) => if whole then (t.cluster (clusterOf k)).bar else (t.core (coreOf k)).bar
    let same := fun (b : Barrier) (l u m : Nat) => b.launch = l ∧ b.unit = u ∧ b.member = (if whole then 0 else m)
    let rest := fun (t : State) (k : Nat) =>
      (∀ c, { t.core c with bar := (s.core c).bar, hdc := (s.core c).hdc, l1 := (s.core c).l1 } = s.core c) ∧
      (∀ c, { t.cluster c with bar := (s.cluster c).bar } = s.cluster c) ∧
      (∀ j, whole = false → coreOf j ≠ coreOf k → lists t j = lists s j) ∧
      { t with harts := s.harts, cores := s.cores, clusters := s.clusters, schedule := s.schedule, latencies := s.latencies } = s
    (∀ h L l b, s.hart? s.cur = some h → h.role.launch = some l → s.launch? l = some L → L.pkt.gang = true →
      L.pkt.ordered = false → h.run.barw = false → b ∈ lists s s.cur → same b l h.role.unit h.role.member →
      (whole = true → h.dev.tbm = 0 ∧ (s.core (coreOf s.cur)).flight = []) →
      ∃ t, exec (if whole then .barK else .barC) s = .next t ∧
        t.hart? s.cur = some { h with run := { h.run with
          wait := some (.barrier whole), barw := true, hangHeld := h.hangNow s.now, hangFrom := s.now } } ∧
        (∀ j, j ≠ s.cur → t.hart? j = s.hart? j) ∧
        (∀ b', b' ∈ lists t s.cur ↔ ∃ o ∈ lists s s.cur, (¬ same o l h.role.unit h.role.member ∧ b' = o) ∨
          (same o l h.role.unit h.role.member ∧ b' = { o with arrived := o.arrived ++ [s.cur], flags := o.flags ||| h.dev.lflags })) ∧
        rest t s.cur) ∧
    (∀ l u m b p ps, s.arg.nats = [l, u, m] → s.arg.ok = whole → Map.sorted s.harts = true →
      s.groupHarts l u (if whole then none else some m) = p :: ps →
      (lists s p).find? (fun o => o.is l u (if whole then 0 else m)) = some b →
      (∀ k ∈ p :: ps, k ∈ b.arrived ∧ ∃ h, s.hart? k = some h ∧ h.run.wait = some (.barrier whole)) →
      ∃ t, exec .barrierRelease s = .next t ∧
        (∀ k ∈ p :: ps, ∀ h, s.hart? k = some h → ∃ h', t.hart? k = some h' ∧ RetiresTo h h' (h.nextPc 4) ∧ h'.x = h.x ∧
          h'.lanes = h.lanes ∧ h'.dev = { h.dev with bflags := b.flags } ∧ h'.run.wait = none ∧ h'.run.barw = false) ∧
        (∀ j, j ∉ p :: ps → t.hart? j = s.hart? j) ∧
        (lists t p).find? (fun o => o.is l u (if whole then 0 else m)) = some { b with arrived := [], phase := b.phase + 1, flags := 0 } ∧
        rest t p)

/-- R166, R6, R68, R104, R107, R151, R174: a write of a hart on its way to a line at home is performed there: its bytes, the
reservations and watches of its line, the child records it meets, the hart's hang counter; the oldest item of an ordered launch, exited, commits: the byte it holds for a scratchpad
is stored, it counts as exited, and its timestamp moves the frontier. -/
def Obligations.WritesArrive : Prop :=

  (∀ (s : State) (c : Nat) (f : Flight), s.arg.nats = [c, s.home f.owner f.addr] → (s.core c).flight = [f] → f.space = 0 →
    f.held = false → f.child = none → coreOf f.hart = c → f.addr < 2 ^ 52 → f.addr % 128 + f.bytes.length ≤ 128 → s.standsAtHome f.owner f.addr →
    ∃ t, exec .writePerformed s = .next t ∧ (t.core c).flight = [] ∧ WritesBytes s t f.owner f.addr f.bytes ∧
      (∀ j, ∃ o, OtherHart f.owner f.addr (s.hart? j) o ∧ t.hart? j = if j = f.hart then o.map (fun g => g.hangClear s.now) else o) ∧
      (∀ l, t.launch? l = (s.launch? l).map (SpoiltBy f.owner f.addr f.bytes.length)) ∧
      (∀ d, { t.core d with hdc := (s.core d).hdc, l1 := (s.core d).l1, flight := (s.core d).flight } = s.core d) ∧
      (∀ d, { t.die d with slices := (s.die d).slices } = s.die d) ∧
      { t with harts := s.harts, cores := s.cores, dies := s.dies, mem := s.mem, launches := s.launches, schedule := s.schedule,
               latencies := s.latencies, tag := s.tag } = s)
  ∧ (∀ (s : State) (l : Nat) (L : Launch) (i : OrdItem) (rest : List OrdItem) (c a : Nat) (b : Byte), s.arg.nats = [l] →
    s.launch? l = some L → L.items = i :: rest → i.exited = true → L.pkt.open_ = false → i.buf = [(1, c, a, b)] → i.children = [] →
    (∀ o ∈ rest, lineName 1 c a ∉ o.reads) → Memory.wf (s.core c).spad = true →
    ∃ t, exec .itemCommit s = .next t ∧
      t.launch? l = some { L with items := rest, exited := L.exited + 1, flags := L.flags ||| i.flags, frontier := i.ts + 1 } ∧
      (∀ m, m ≠ l → t.launch? m = s.launch? m) ∧
      (∀ d x, Memory.read (t.core d).spad x = if d = c ∧ x = a then b else Memory.read (s.core d).spad x) ∧
      (∀ d, { t.core d with spad := (s.core d).spad } = s.core d) ∧
      (∀ j, t.hart? j = (s.hart? j).map (fun g => if j = i.hart then g.hangClear s.now else g)) ∧
      { t with harts := s.harts, cores := s.cores, launches := s.launches, schedule := s.schedule, latencies := s.latencies } = s)

/-- R144, R146, R45, R129, R136: plain lane loads in every space: each active lane of vd takes the bytes at its address, extended
as the form says, the pair for a doubleword; `lldt` gives register vd + j of an active lane word j of its row. Nothing else of
the hart and no memory changes. -/
def Obligations.LaneLoads : Prop :=

  ∀ (s : State) (h : Hart) (m : LaneMem) (at_ : LaneAcc → Nat × Nat), s.hart? s.cur = some h → Map.sorted h.lanes.v = true →
    m.space.toNat ≤ 4 →
    let n := 2 ^ m.size.toNat
    let done := fun (i : Instr) (v : Nat → Nat → Word) => ∃ t h', exec i s = .next t ∧ t.hart? s.cur = some h' ∧
      (∀ j, j ≠ s.cur → t.hart? j = s.hart? j) ∧ LaneMemKept h h' 8 ∧ h'.lanes.slice = h.lanes.slice ∧ h'.dev = h.dev ∧
      h'.run.resv = h.run.resv ∧ LaneMemRest s t ∧ t.mem = s.mem ∧ t.dies = s.dies ∧ (∀ c, (t.core c).spad = (s.core c).spad) ∧
      ∀ r l, l < 32 → h'.getV r l = v r l
    (∀ (i : Instr) (imm : BitVec 16), ((∃ pol, i = .lld m pol ∧ imm = 0) ∨ i = .lldImm m imm) → ¬ (m.size = 3 ∧ s.pfmask h 4 = true) →
      let addr := fun (l : Nat) => h.getX (xOf m.xb) + (h.getV m.vo.toNat l).signExtend 64 + imm.signExtend 64
      let acc := fun (l : Nat) => ((l, addr l, addr l) : LaneAcc)
      PlainLanes s h m.space.toNat n .load ((h.activeLanes m.guard).map acc) at_ →
      let val := fun (l : Nat) =>
        let p := s.placeNum h m.space.toNat (at_ (acc l)) n
        if m.sx then (BitVec.ofInt 32 (readSigned (8 * n) p)).toNat else p
      done i (fun r l => if h.active m.guard l = true ∧ r = m.vd.toNat then BitVec.ofNat 32 (val l)
        else if h.active m.guard l = true ∧ m.size = 3 ∧ r = m.vd.toNat + 1 then BitVec.ofNat 32 (val l / 2 ^ 32) else h.getV r l))
    ∧ (∀ (i : Instr) (imm : BitVec 16), ((∃ pol, i = .lldt m pol ∧ imm = 0) ∨ i = .lldtImm m imm) → s.pfmask h 7 = false →
      let row := fun (l : Nat) => h.getX (xOf m.xb) + imm.signExtend 64 + BitVec.ofNat 64 l * h.getX (xOf m.vo)
      let acc := fun (l j : Nat) => ((l, row l, row l + BitVec.ofNat 64 (4 * j)) : LaneAcc)
      PlainLanes s h m.space.toNat 4 .load ((h.activeLanes unguarded).map (fun l => (List.range 32).map (acc l))).flatten at_ →
      done i (fun r l => if h.active unguarded l = true ∧ m.vd.toNat ≤ r ∧ r < m.vd.toNat + 32 then
        BitVec.ofNat 32 (s.placeNum h m.space.toNat (at_ (acc l (r - m.vd.toNat))) 4) else h.getV r l))

/-- R145, R45, R129, R141: a plain lane store in every space: each byte an active lane addresses takes the byte of the highest such
lane, and every other byte of every space is as before; no register changes, other harts lose at most a reservation or a watch. -/
def Obligations.LaneStores : Prop :=

  ∀ (s : State) (h : Hart) (m : LaneMem) (at_ : LaneAcc → Nat × Nat) (i : Instr) (imm : BitVec 16), s.hart? s.cur = some h →
    s.memoriesOk = true → m.space.toNat ≤ 4 → ((∃ pol, i = .lst m pol ∧ imm = 0) ∨ i = .lstImm m imm) →
    ¬ (m.size = 3 ∧ s.pfmask h 4 = true) →
    let n := 2 ^ m.size.toNat
    let addr := fun (l : Nat) => h.getX (xOf m.xb) + (h.getV m.vo.toNat l).signExtend 64 + imm.signExtend 64
    let acc := fun (l : Nat) => ((l, addr l, addr l) : LaneAcc)
    let covers := fun (l : Nat) (q : Nat × Nat) => h.active m.guard l = true ∧ (at_ (acc l)).1 = q.1 ∧ (at_ (acc l)).2 ≤ q.2 ∧
      q.2 < (at_ (acc l)).2 + n
    let val := fun (l : Nat) => if m.size = 3 then (h.getPair m.vd.toNat l).toNat else (h.getV m.vd.toNat l).toNat
    PlainLanes s h m.space.toNat n .store ((h.activeLanes m.guard).map acc) at_ →
    ∃ t h', exec i s = .next t ∧ t.hart? s.cur = some h' ∧ LaneMemKept h h' 8 ∧ h'.lanes.v = h.lanes.v ∧
      (∀ j, j ≠ s.cur → (s.hart? j = none ∧ t.hart? j = none) ∨ ∃ g g' r, s.hart? j = some g ∧ t.hart? j = some g' ∧
        (r = none ∨ r = g.run.resv) ∧ Woken { g with run := { g.run with resv := r } } g') ∧
      LaneMemRest s t ∧
      ∀ sp q, sp ≤ 4 → q.2 < (if sp = 0 then 2 ^ 52 else if sp = 3 then 2 ^ 25 else if sp = 4 then 256 else 2 ^ 19) →
        (∀ l, l < 32 → samePlaces sp m.space.toNat → covers l q → (∀ l', l < l' → l' < 32 → ¬ covers l' q) →
          t.placeByte h' sp q = BitVec.ofNat 8 (val l / 256 ^ (q.2 - (at_ (acc l)).2))) ∧
        ((∀ l, l < 32 → ¬ (samePlaces sp m.space.toNat ∧ covers l q)) → t.placeByte h' sp q = s.placeByte h sp q)

/-- R147, R46, R141, R143: plain lane atomics in every space: in ascending order each active lane reads its place, applies the
operation and writes the new value (a compare-and-swap only where the old value is that of vd), and vd takes the old value;
every other byte is as before.
R148: `lpref` outside space 0 does nothing; in space 0 it may bring lines that stand at home into the lane L1, and no register
and no memory changes. -/
def Obligations.LaneAtomics : Prop :=
  (∀ (s : State) (h : Hart) (m : LaneMem) (at_ : LaneAcc → Nat × Nat) (op : BitVec 4) (order scope : BitVec 3) (vs : BitVec 6),
    s.hart? s.cur = some h → s.memoriesOk = true → Map.sorted h.lanes.v = true → m.space.toNat ≤ 4 → 2 ≤ m.size.toNat →
    (m.size = 3 → op ≠ 10) → s.pfmask h 3 = false → ¬ (m.size = 3 ∧ s.pfmask h 4 = true) →
    ((order = 2 ∨ order = 3 ∨ order = 4) → h.dev.tbm = 0 ∧ (h.dev.tbmf = false ∨ scope.toNat < 5)) →
    let n := 2 ^ m.size.toNat
    let addr := fun (l : Nat) => h.getX (xOf m.xb) + (h.getV m.vo.toNat l).signExtend 64
    let acc := fun (l : Nat) => ((l, addr l, addr l) : LaneAcc)
    let reg := fun (r l : Nat) => if m.size = 3 then (h.getPair r l).toNat else (h.getV r l).toNat
    let value := fun (l k : Nat) => lamoChain op.toNat n (reg vs.toNat) (reg m.vd.toNat)
      (s.placeNum h m.space.toNat (at_ (acc l)) n) ((List.range k).filter (fun k => h.active m.guard k && at_ (acc k) == at_ (acc l)))
    PlainLanes s h m.space.toNat n .store ((h.activeLanes m.guard).map acc) at_ →
    ∃ t h', exec (.lamo m op order scope vs) s = .next t ∧ t.hart? s.cur = some h' ∧ LaneMemKept h h' 8 ∧
      (∀ j, j ≠ s.cur → (s.hart? j = none ∧ t.hart? j = none) ∨ ∃ g g' r, s.hart? j = some g ∧ t.hart? j = some g' ∧
        (r = none ∨ r = g.run.resv) ∧ Woken { g with run := { g.run with resv := r } } g') ∧
      LaneMemRest s t ∧
      (∀ l, l < 32 → h.active m.guard l = true → t.placeNum h' m.space.toNat (at_ (acc l)) n = value l 32) ∧
      (∀ r l, l < 32 → h'.getV r l = if h.active m.guard l = true ∧ r = m.vd.toNat then BitVec.ofNat 32 (value l l)
        else if h.active m.guard l = true ∧ m.size = 3 ∧ r = m.vd.toNat + 1 then BitVec.ofNat 32 (value l l / 2 ^ 32) else h.getV r l) ∧
      ∀ sp q, sp ≤ 4 → q.2 < (if sp = 0 then 2 ^ 52 else if sp = 3 then 2 ^ 25 else if sp = 4 then 256 else 2 ^ 19) →
        (∀ l, l < 32 → h.active m.guard l = true → samePlaces sp m.space.toNat → (at_ (acc l)).1 = q.1 → (at_ (acc l)).2 ≤ q.2 →
          (at_ (acc l)).2 + n ≤ q.2) →
        t.placeByte h' sp q = s.placeByte h sp q)
  ∧
  (∀ (s : State) (h : Hart) (m : LaneMem) (i : Instr) (imm : BitVec 16), s.hart? s.cur = some h →
    ((∃ pol, i = .lpref m pol ∧ imm = 0) ∨ i = .lprefImm m imm) →
    (m.space ≠ 0 → ∃ t h', exec i s = .next t ∧ OnlyHart s t s.cur h' ∧ RetiresTo h h' (h.nextPc 8) ∧ h'.x = h.x ∧
      h'.lanes = h.lanes ∧ h'.dev = h.dev ∧ h'.run = h.settle.run) ∧
    (∀ at_, m.space = 0 → h.run.walks = [] →
      let first := fun (l : Nat) => (h.getX (xOf m.xb) + (h.getV m.vo.toNat l).signExtend 64 + imm.signExtend 64) &&& ~~~127
      let acc := fun (l j : Nat) => ((l, first l + BitVec.ofNat 64 (128 * j), first l + BitVec.ofNat 64 (128 * j)) : LaneAcc)
      PlainLanes s h 0 1 .load ((h.activeLanes m.guard).map (fun l => (List.range (2 ^ m.size.toNat)).map (acc l))).flatten at_ →
      ∃ t h', exec i s = .next t ∧ t.hart? s.cur = some h' ∧ (∀ j, j ≠ s.cur → t.hart? j = s.hart? j) ∧
        RetiresTo h h' (h.nextPc 8) ∧ h'.x = h.x ∧ h'.lanes = h.lanes ∧ h'.dev = h.dev ∧ h'.run = h.settle.run ∧
        CachesOnly s t ∧ { t with harts := s.harts, cores := s.cores, fresh := s.fresh } = s))

/-- R140, R131, R366, R76: a lane access with a misaligned address, or one outside its space or in a bank the partition does not
have, takes cause 25: `lfmask` names the faulting lanes, `stval` is the address of the lowest, and nothing is accessed. Without
a lane fault table no records are stored. -/
def Obligations.LaneAddressFaults : Prop :=

  ∀ (s : State) (h : Hart) (m : LaneMem), s.hart? s.cur = some h → s.ordered h = false → h.dev.lftab = 0 →
    (toSupervisor h h.csr.medeleg 25 ∨ h.priv = .M) →
    let faults := fun (i : Instr) (n : Nat) (as : List LaneAcc) =>
      let bad := fun (a : LaneAcc) => a ∈ as ∧ (a.2.2.toNat % n ≠ 0 ∨
        (m.space ≠ 0 ∧ ∃ k, s.spotOf h m.space.toNat a.1 a.2.2.toNat n = .error k ∧ k ≠ 0))
      ∀ (M : Word) (a0 : LaneAcc), (∀ acc, s.dataMatch h acc (as.map (fun a => (a.1, a.2.2))) n = none) →
        (∀ l, l < 32 → (M.getLsbD l = true ↔ ∃ a, bad a ∧ a.1 = l)) → bad a0 → (∀ a, bad a → a0.1 ≤ a.1) →
        ∃ t, exec i s = .next t ∧ TakesTrap s t s.cur { h with dev := { h.dev with lfmask := M } } 25 a0.2.1
    let each := fun (imm : BitVec 16) => (h.activeLanes m.guard).map (fun l =>
      let a := h.getX (xOf m.xb) + (h.getV m.vo.toNat l).signExtend 64 + imm.signExtend 64
      ((l, a, a) : LaneAcc))
    let rows := fun (imm : BitVec 16) => ((h.activeLanes unguarded).map (fun l =>
      let row := h.getX (xOf m.xb) + imm.signExtend 64 + BitVec.ofNat 64 l * h.getX (xOf m.vo)
      (List.range 32).map (fun j => ((l, row, row + BitVec.ofNat 64 (4 * j)) : LaneAcc)))).flatten
    let n := 2 ^ m.size.toNat
    (¬ (m.size = 3 ∧ s.pfmask h 4 = true) →
      (∀ pol imm, faults (.lld m pol) n (each 0) ∧ faults (.lldImm m imm) n (each imm) ∧ faults (.lst m pol) n (each 0) ∧
        faults (.lstImm m imm) n (each imm)) ∧
      (s.pfmask h 3 = false → ∀ op order scope vs, faults (.lamo m op order scope vs) n (each 0))) ∧
    (s.pfmask h 7 = false → ∀ pol imm, faults (.lldt m pol) 4 (rows 0) ∧ faults (.lldtImm m imm) 4 (rows imm))

/-- R109, R91, R96, R95: `rfl` of a hart whose lanes are all occupied writes 0 and leaves no lane fresh; of a hart with one vacant
lane, in a plain launch with an unclaimed index and no wait for the dispatcher, it claims the next index for that lane: the
mask, the item, the next generation, a new cohort, the fresh bit, the predicates, the flags, the seed of rounding.
R110, R98: `xit` ends the items of the lanes of the exec mask: the launch counts them as exited and collects their sticky flags,
the lanes become vacant and leave the mask; nothing else of the hart changes. In a plain launch.
R111, R104: `spw` from a hart outside an ordered launch: where no open launch has room, it appends nothing and clears the
predicate of every eligible lane; one eligible lane appends one child: the record with timestamp 0 and the lane's payload
stands in the ring, the child is claimable, and the lane keeps its predicate. -/
def Obligations.ItemsAndChildren : Prop :=
  (∀ (s : State) (h : Hart) (xd : BitVec 5) (l : Nat) (L : Launch), s.hart? s.cur = some h → h.getX 0 = 0 →
    h.role.launch = some l → s.launch? l = some L → h.run.drain = false →
    let done := fun (t : State) (h' : Hart) (v : DWord) => t.hart? s.cur = some h' ∧ (∀ j, j ≠ s.cur → t.hart? j = s.hart? j) ∧
      RetiresTo h h' (h.nextPc 4) ∧ writesX h h' xd v ∧ h'.dev = h.dev ∧ h'.run.resv = h.run.resv ∧
      h'.run.cohortCtr = h.run.cohortCtr + 1 ∧ (∀ m, m ≠ l → t.launch? m = s.launch? m) ∧
      { t with harts := s.harts, launches := s.launches, schedule := s.schedule, latencies := s.latencies } = s
    (h.lanes.occ = 0xFFFFFFFF →
      ∃ t h', exec (.rfl xd) s = .next t ∧ done t h' 0 ∧ h'.lanes = { h.lanes with fresh := 0 } ∧ t.launch? l = some L) ∧
    (∀ n, n < 32 → h.lanes.occ = ~~~((1 : Word) <<< n) → s.latency = 0 → L.ended = false → L.pkt.determ = false →
      L.pkt.open_ = false → L.pkt.ordered = false → L.items = [] → L.next < L.pkt.count → L.next < 2 ^ 48 →
      let z := h.dev.lseed.toNat ^^^ (L.next % 2 ^ 32) ^^^ (L.next / 2 ^ 32 * 2 ^ 16)
      let lanes := h.lanes
      ∃ t h', exec (.rfl xd) s = .next t ∧ done t h' ((1 : DWord) <<< n) ∧
        h'.lanes = { lanes with
          item := lanes.item.set! n (BitVec.ofNat 48 L.next), gen := lanes.gen.set! n (lanes.gen.getD n 0 + 1),
          cohort := lanes.cohort.set! n (h.run.cohortCtr + 1), fresh := (1 : Word) <<< n, ts := h'.lanes.ts,
          p := lanes.p.map (fun q => q &&& ~~~((1 : Word) <<< n)), sticky := lanes.sticky.set! n 0,
          sr := lanes.sr.set! n (if z = 0 then 1 else BitVec.ofNat 32 z), occ := 0xFFFFFFFF, em := lanes.em ||| ((1 : Word) <<< n) } ∧
        t.launch? l = some { L with next := L.next + 1, high := max L.high (L.next + 1) }))
  ∧
  (∀ (s : State) (h : Hart) (l : Nat) (L : Launch), s.hart? s.cur = some h → h.role.launch = some l → s.launch? l = some L →
    L.pkt.ordered = false → L.pkt.open_ = false → h.lanes.em ≠ 0 →
    ∃ t h', exec .xit s = .next t ∧ t.hart? s.cur = some h' ∧ (∀ j, j ≠ s.cur → t.hart? j = s.hart? j) ∧
      RetiresTo h h' (h.nextPc 4) ∧ h'.x = h.x ∧ h'.dev = h.dev ∧
      h'.lanes = { h.lanes with em := 0, occ := h.lanes.occ &&& ~~~h.lanes.em } ∧
      t.launch? l = some { L with
        exited := L.exited + ((List.range 32).filter h.lanes.em.getLsbD).length
        flags := (List.range 32).foldl (fun f i => if h.lanes.em.getLsbD i then f ||| h.lanes.sticky.getD i 0 else f) L.flags } ∧
      (∀ m, m ≠ l → t.launch? m = s.launch? m) ∧ { t with harts := s.harts, launches := s.launches } = s)
  ∧
  (∀ (s : State) (h : Hart) (pd : BitVec 4) (xq vs : BitVec 5), s.hart? s.cur = some h → s.ordered h = false →
    s.pfmask h 2 = false → h.dev.tbm = 0 → (s.core (coreOf s.cur)).flight = [] → h.run.spawn = none → pd.toNat < 12 → s.latency = 0 →
    let eligible := fun (l : Nat) => h.lanes.em.getLsbD l && (h.getP pd.toNat).getLsbD l
    let kept := fun (h' : Hart) => RetiresTo h h' (h.nextPc 4) ∧ h'.x = h.x ∧ h'.dev = h.dev ∧
      (∀ q l, q ≠ pd.toNat → (h'.getP q).getLsbD l = (h.getP q).getLsbD l) ∧ h'.lanes = { h.lanes with p := h'.lanes.p }
    ((∀ t, s.spawnTarget h.role.part (h.getX xq).toNat = some t → t.2.room = 0) →
      ∃ t h', exec (.spw pd xq vs) s = .next t ∧ t.hart? s.cur = some h' ∧ (∀ j, j ≠ s.cur → t.hart? j = s.hart? j) ∧ kept h' ∧
        (∀ l, l < 32 → (h'.getP pd.toNat).getLsbD l = ((h.getP pd.toNat).getLsbD l && !eligible l)) ∧
        (∀ m, t.launch? m = s.launch? m) ∧ { t with harts := s.harts, launches := s.launches } = s) ∧
    (∀ l n T, s.spawnTarget h.role.part (h.getX xq).toNat = some (n, T) → s.launch? n = some T → T.pkt.ordered = false →
      l < 32 → (∀ j, j < 32 → (eligible j = true ↔ j = l)) → 0 < T.room → s.launchSatp T = 0 →
      (∀ c ∈ T.children, c.index < T.appended) →
      let a := (T.ringSlot T.appended).toNat
      a < 2 ^ 52 → a % 16 = 0 → s.standsAtHome T.part a →
      ∃ t h', exec (.spw pd xq vs) s = .next t ∧ t.hart? s.cur = some h' ∧ kept h' ∧ h'.lanes = h.lanes ∧
        (∀ j, j ≠ s.cur → OtherHart T.part a (s.hart? j) (t.hart? j)) ∧
        WritesBytes s t T.part a (bytesOfNat ((h.getV vs.toNat l).toNat * 2 ^ 64) 16) ∧
        t.launch? n = some { T with appended := T.appended + 1, children := T.children ++ [
          { index := T.appended, ts := 0, claimable := true, claimed := false, loose := true, written := true, at_ := some a }] } ∧
        (∀ m, m ≠ n → t.launch? m = s.launch? m)))

/-- R112: `enq` from a hart outside an ordered launch: a misaligned packet address takes cause 4; without the queue it answers 2; on a
full ring 1; else the packet stands in the queue's next slot with its ready bit set, the producer index is one more, and it answers 0.
R150, R151, R168: a plain `waita`: where the doubleword differs from x[xd] it writes 2 with an acquire at P; where it is equal
the hart is parked with a watch on the line, and with a timeout where x[xt] is not 0. -/
def Obligations.QueueAndWatchInstructions : Prop :=
  (∀ (s : State) (h : Hart) (xd xq xp : BitVec 5), s.hart? s.cur = some h → Map.sorted s.harts = true → s.ordered h = false →
    s.pfmask h 2 = false → h.getX 0 = 0 →
    let a := h.getX xp
    let part := h.role.part
    let answers := fun (t : State) (v : DWord) => ∃ h', t.hart? s.cur = some h' ∧ RetiresTo h h' (h.nextPc 4) ∧
      writesX h h' xd v ∧ h'.lanes = h.lanes ∧ h'.dev = h.dev
    (a.toNat % 64 ≠ 0 → (toSupervisor h h.csr.medeleg 4 ∨ h.priv = .M) →
      ∃ t, exec (.enq xd xq xp) s = .next t ∧ TakesTrap s t s.cur h 4 a) ∧
    (a.toNat % 64 = 0 → ((h.getX xq).toNat > 255 ∨ s.queue? part (h.getX xq).toNat = none) →
      ∃ t, exec (.enq xd xq xp) s = .next t ∧ answers t 2 ∧ { t with harts := s.harts } = s) ∧
    (∀ q gpa, a.toNat % 64 = 0 → (h.getX xq).toNat ≤ 255 → s.queue? part (h.getX xq).toNat = some q → h.dev.tbm = 0 →
      (s.core (coreOf s.cur)).flight = [] → s.latency = 0 → s.translate h a .load = .ok gpa s → gpa < 2 ^ 52 → gpa % 64 = 0 →
      s.standsAtHome part gpa → s.standsAtHome part q.prod → q.prod < 2 ^ 52 → q.prod % 8 = 0 →
      let p := s.numAt part q.prod 8
      let slot := q.ring + 64 * (p % 2 ^ q.n)
      s.standsAtHome part slot → slot < 2 ^ 52 → slot % 64 = 0 → q.prod / 64 ≠ slot / 64 → q.consIdx ≤ p → p < 2 ^ 64 - 1 →
      (∀ g, g = gpa ∨ g = q.prod ∨ g = slot → g / 4096 ∉ h.run.declined ∧ g / 4096 ∉ h.run.failedPages) →
      (p = q.consIdx + 2 ^ q.n → ∃ t, exec (.enq xd xq xp) s = .next t ∧ answers t 1 ∧ t.mem = s.mem) ∧
      (p < q.consIdx + 2 ^ q.n → ∃ t, exec (.enq xd xq xp) s = .next t ∧ answers t 0 ∧
        { t.mem with llc := s.mem.llc } = s.mem ∧
        ∀ r b, b < 2 ^ 52 → t.byteAt r b =
          if r = part ∧ slot ≤ b ∧ b < slot + 64 then
            (if b = slot + 63 then s.byteAt part (gpa + 63) ||| 0x80 else s.byteAt part (gpa + (b - slot)))
          else if r = part ∧ q.prod ≤ b ∧ b < q.prod + 8 then BitVec.ofNat 8 ((p + 1) / 256 ^ (b - q.prod))
          else s.byteAt r b)))
  ∧
  (∀ (s : State) (h : Hart) (xd xa xt : BitVec 5) (gpa : Nat), s.hart? s.cur = some h → h.getX 0 = 0 → s.pfmask h 6 = false →
    PlainAccess s h (h.getX xa) .load 8 gpa →
    let part := h.role.part
    let place := s.home part gpa
    let w : Watch := ⟨s.cur, ⟨part, gpa / 128⟩⟩
    (s.numAt part gpa 8 ≠ (h.getX xd).toNat → ∃ t h', exec (.waita xd xa xt) s = .next t ∧ t.hart? s.cur = some h' ∧
      RetiresTo h h' (h.nextPc 4) ∧ writesX h h' xd 2 ∧ h'.lanes = h.lanes ∧ h'.dev = h.dev ∧ CachesOnly s t ∧
      (t.core (coreOf s.cur)).l1 = [] ∧ (∀ j, j ≠ s.cur → t.hart? j = s.hart? j) ∧ { t with harts := s.harts, cores := s.cores } = s) ∧
    (s.numAt part gpa 8 = (h.getX xd).toNat → ((s.die (place / 64)).slice (place % 64)).watches.length < 256 →
      ∃ t, exec (.waita xd xa xt) s = .next t ∧
        t.hart? s.cur = some (h.park (.waita (s.tag + 1) xd ⟨part, gpa / 128⟩) s.now) ∧ (∀ j, j ≠ s.cur → t.hart? j = s.hart? j) ∧
        ((t.die (place / 64)).slice (place % 64)).watches = ((s.die (place / 64)).slice (place % 64)).watches ++ [w] ∧
        (h.getX xt ≠ 0 → ⟨s.now + (h.getX xt).toNat, .waitaTimeout, { nats := [s.cur, s.tag + 1] }⟩ ∈ t.schedule) ∧
        (∀ d, { t.die d with slices := (s.die d).slices } = s.die d) ∧ CachesOnly s t ∧
        { t with harts := s.harts, cores := s.cores, dies := s.dies, schedule := s.schedule, tag := s.tag } = s))

/-- R190, R192, R194, R195: a BTE instruction whose descriptor is aligned, stands at home and passes the checks enters a job of
its kind, with the descriptor's 64 bytes, the count and the hart's context, and writes the job's ID; a misaligned descriptor
takes cause 4, a malformed one cause 26, both with the descriptor's address.
R283, R285, R274, R275, R276: a matrix instruction whose checks pass enters a job with its variant, its descriptors or the
lane form's registers, and the hart's context; the lane form's registers are lent to it. One whose checks fail takes cause 26
with the reason and operand. -/
def Obligations.JobsIssued : Prop :=
  (∀ (s : State) (h : Hart) (xd xa xn : BitVec 5) (i : Instr) (op : Nat), s.hart? s.cur = some h → s.pfmask h 1 = false →
    s.ordered h = false → h.getX 0 = 0 →
    ((i = .bcpy xd xa xn ∧ op = 0) ∨ (i = .bfil xd xa xn ∧ op = 1) ∨ (i = .bgat xd xa xn ∧ op = 2) ∨ (i = .bsct xd xa xn ∧ op = 3)) →
    ((h.getX xa).toNat % 64 ≠ 0 → (toSupervisor h h.csr.medeleg 4 ∨ h.priv = .M) →
      ∃ t, exec i s = .next t ∧ TakesTrap s t s.cur h 4 (h.getX xa)) ∧
    (∀ gpa, PlainAccess s h (h.getX xa) .load 64 gpa →
      let d := BitVec.ofNat 512 (s.numAt h.role.part gpa 64)
      let j : Job := { h.newJob false op with hart := s.cur, desc := d, arg := h.getX xn, scope := d.extractLsb' 448 3, notify := d.getLsbD 451 }
      (s.badBte j op d (h.getX xn).toNat = true → toSupervisor h h.csr.medeleg 26 →
        ∃ t h', exec i s = .next t ∧ t.hart? s.cur = some h' ∧ EntersS s.now h h' 26 (h.getX xa) h.csr.stvec ∧ t.clusters = s.clusters) ∧
      (s.badBte j op d (h.getX xn).toNat = false → MayIssueJob s h →
        ∃ t h' slot, exec i s = .next t ∧ JobEntered s t h h' xd 4 slot j ∧ h'.run.lent = h.run.lent)))
  ∧
  (∀ (s : State) (h : Hart) (m : MatJob) (i : Instr) (op var : Nat) (lane : Bool), s.hart? s.cur = some h → s.pfmask h 0 = false →
    s.ordered h = false → h.getX 0 = 0 → (xOf m.xd).toNat = m.xd.toNat →
    ((∃ src q fmt had norm, i = .mma m src q fmt had norm ∧ op = 0 ∧ lane = src ∧
        var = b2n src + q.toNat * 2 + fmt.toNat * 8 + had.toNat * 128 + b2n norm * 512)
      ∨ (∃ src q fsa fsb had norm, i = .mmas m src q fsa fsb had norm ∧ op = 1 ∧ lane = src ∧
        var = b2n src + q.toNat * 2 + fsa.toNat * 8 + fsb.toNat * 32 + had.toNat * 128 + b2n norm * 512)
      ∨ (∃ size norm, i = .mhad m size norm ∧ op = 2 ∧ lane = false ∧ var = size.toNat + b2n norm * 4)
      ∨ (∃ rm fs, i = .mqnt m rm fs ∧ op = 3 ∧ lane = false ∧ var = rm.toNat + fs.toNat * 8)
      ∨ (∃ rm sat, i = .mcvt m rm sat ∧ op = 4 ∧ lane = false ∧ var = rm.toNat + sat.toNat * 8)
      ∨ (∃ kind, i = .mzero m kind ∧ op = 5 ∧ lane = false ∧ var = b2n kind)
      ∨ (∃ rm n1, i = .mst m rm n1 ∧ op = 6 ∧ lane = false ∧ var = rm.toNat + n1.toNat * 8)
      ∨ (∃ n1 kind, i = .mld m n1 kind ∧ op = 7 ∧ lane = false ∧ var = n1.toNat + b2n kind * 16)) →
    let pair := fun (r : BitVec 6) => (h.getX (xOf (r + 1))).toNat * 2 ^ 64 + (h.getX (xOf r)).toNat
    let j : Job := { h.newJob true op with
      hart := s.cur, scope := m.scope, notify := m.notify, lane := if lane then some (h.lanes.em.toNat, m.a.toNat) else none
      arg := BitVec.ofNat 64 (var + m.scope.toNat * 2 ^ 12 + b2n m.notify * 2 ^ 15 + m.acc.toNat * 2 ^ 16 + (if lane then m.a.toNat else 0) * 2 ^ 20)
      desc := BitVec.ofNat 512 (if lane then 0 else pair m.a), descB := BitVec.ofNat 128 (pair m.b) }
    let n := if lane then j.b.E * fmtWidth (j.fmtA s) / 32 else 0
    (∀ v, s.checkJob h j = some v → (toSupervisor h h.csr.medeleg 26 ∨ h.priv = .M) →
      ∃ t, exec i s = .next t ∧ TakesTrap s t s.cur h 26 (BitVec.ofNat 64 v)) ∧
    (s.checkJob h j = none → MayIssueJob s h → (∀ e ∈ (s.cluster (clusterOf s.cur)).jobs, e.2.hart = s.cur → e.2.seq ≠ h.run.seq) →
      ∃ t h' slot regs, exec i s = .next t ∧ JobEntered s t h h' (xOf m.xd) 8 slot { j with regs := regs } ∧
        (lane = true → ∀ r l, l < 32 → m.a.toNat ≤ r → r < m.a.toNat + n → Map.sorted h.lanes.v = true →
          Map.findD regs (r * 32 + l) 0 = h.getV r l) ∧
        h'.run.lent = h.run.lent ++ (if lane then [(m.a.toNat, n, BitVec.ofNat 64 (h.run.seq.toNat * 2 ^ 16 + slot))] else [])))

/-- R184, R186, R196, R197, R198, R276, R286: `jpoll` and `jwait` write the status of the job their ID names and `jyield` goes to
its continuation: 4 for a malformed ID, 2 where the hart has no such job, 1 (bit 8 for the matrix engine) for one that is done,
whose scope is acquired, whose flags join `lflags`, as do those kept of a job whose entry was granted again, and whose lent
registers come back; while the job lives `jpoll` writes 0 and
the others park. A misaligned continuation takes cause 0. -/
def Obligations.JobStatusReads : Prop :=

  ∀ (s : State) (h : Hart) (xd xj xc : BitVec 5), s.hart? s.cur = some h → h.getX 0 = 0 →
    let id := h.getX xj
    let c := h.getX xc
    let cl := clusterOf s.cur
    let late := fun (f : BitVec 6) =>
      (h.run.lateFlags.filter (fun e => e.1 == id.toNat / 2 ^ 16 % 2 ^ 16)).foldl (fun a e => a ||| e.2) f
    let reads := fun (v : DWord) (P : State → Hart → Prop) =>
      (∃ t h', exec (.jpoll xd xj) s = .next t ∧ t.hart? s.cur = some h' ∧ RetiresTo h h' (h.nextPc 4) ∧ writesX h h' xd v ∧ P t h') ∧
      (∃ t h', exec (.jwait xd xj) s = .next t ∧ t.hart? s.cur = some h' ∧ RetiresTo h h' (h.nextPc 4) ∧ writesX h h' xd v ∧ P t h') ∧
      (c.toNat % 4 = 0 → ∃ t h', exec (.jyield xj xc) s = .next t ∧ t.hart? s.cur = some h' ∧ RetiresTo h h' c ∧ h'.x = h.x ∧ P t h')
    let still := fun (t : State) (h' : Hart) => h'.lanes = h.lanes ∧ { t with harts := s.harts, cores := s.cores } = s ∧
      CachesOnly s t ∧ (∀ k, k ≠ s.cur → t.hart? k = s.hart? k)
    (c.toNat % 4 ≠ 0 → (toSupervisor h h.csr.medeleg 0 ∨ h.priv = .M) →
      ∃ t, exec (.jyield xj xc) s = .next t ∧ TakesTrap s t s.cur h 0 c) ∧
    ((2 ^ 32 ≤ id.toNat ∨ id.toNat / 64 % 1024 ≠ 0) →
      reads 4 (fun t h' => still t h' ∧ h'.dev = h.dev)) ∧
    (id.toNat < 2 ^ 32 → id.toNat / 64 % 1024 = 0 → (∀ e ∈ (s.cluster cl).jobs, ¬ (e.2.launch = h.role.launch ∧
        e.2.hidx = h.role.hidx ∧ e.2.part = h.role.part ∧ e.2.seq.toNat = id.toNat / 2 ^ 16)) →
      (∀ d ∈ h.run.doneJobs, d.1 ≠ id.toNat / 2 ^ 16) → reads 2 (fun t h' => still t h' ∧
        h'.dev = { h.dev with lflags := late h.dev.lflags } ∧ (t.core (coreOf s.cur)).l1 = [])) ∧
    (∀ slot j, s.holdsJob s.cur h id slot j → j.live = true →
      (∃ t h', exec (.jpoll xd xj) s = .next t ∧ OnlyHart s t s.cur h' ∧ RetiresTo h h' (h.nextPc 4) ∧ writesX h h' xd 0) ∧
      (∃ t, exec (.jwait xd xj) s = .next t ∧ OnlyHart s t s.cur (h.park (.jwait xd id) s.now)) ∧
      (c.toNat % 4 = 0 → ∃ t, exec (.jyield xj xc) s = .next t ∧ OnlyHart s t s.cur (h.park (.jyield id c) s.now))) ∧
    (∀ slot j, s.holdsJob s.cur h id slot j → j.state = .done →
      reads (if j.matrix then 0x101 else 1) (fun t h' => h'.lanes = h.lanes ∧
        h'.dev = { h.dev with lflags := late (h.dev.lflags ||| j.flags) } ∧
        (∀ e, e ∈ h'.run.lent ↔ e ∈ h.run.lent ∧ e.2.2.toNat / 2 ^ 16 % 2 ^ 16 ≠ id.toNat / 2 ^ 16) ∧
        t.job? cl slot = some { j with flags := 0 } ∧ (1 ≤ j.scope.toNat → (t.core (coreOf s.cur)).l1 = []) ∧
        CachesOnly s t ∧ (∀ k, k ≠ s.cur → t.hart? k = s.hart? k) ∧
        { t with harts := s.harts, cores := s.cores, clusters := s.clusters } = s))

/-- R182, R185, R187, R193, R282, R363, R364: the one queued job of an engine starts; the arbiter of a die starts a matrix job that
waits for it, at most four in 8 cycles; a BTE job that has moved everything is done, and its hart is told: the interrupt where
it asked for one, the status where it waits; a job that fails, holding no
bytes back, leaves cause 27, or 28 for an integrity failure, pending. -/
def Obligations.JobsRun : Prop :=

  ∀ (s : State) (cl slot : Nat) (j : Job), s.job? cl slot = some j → Map.sorted (s.cluster cl).jobs = true → j.part < 64 →
    let ended := fun (t : State) (o : Job) => t.job? cl slot = some o ∧ KeptJobs s t cl slot ∧ t.mem = s.mem
    let entry := fun (t : State) (o : Job) => t.job? cl slot = some o ∧ (∀ n, n ≠ slot → t.job? cl n = s.job? cl n) ∧ t.mem = s.mem
    (s.arg.nats = [cl] → s.arg.ok = j.matrix → j.state = .queued → s.partStopped j.part = false →
      (∀ g ∈ s.harts, g.2.run.stoppedJobs = []) → (∀ n o, n ≠ slot → s.job? cl n = some o → o.matrix = j.matrix → o.state = .done ∨ o.state = .failed) →
      ∃ t, exec .jobStart s = .next t ∧ entry t { j with state := .running } ∧ t.harts = s.harts ∧
        (j.matrix = true → ∃ p ∈ t.schedule, p.ev = .matrixStartGrant ∧ p.args.nats = [cl / 32]) ∧
        (j.matrix = false → j.moved = true → ∃ p ∈ t.schedule, p.ev = .jobComplete ∧ p.args.nats = [cl, slot, j.order]) ∧
        (j.matrix = false → j.moved = false → (s.cluster cl).pump = false → ∃ p ∈ t.schedule, p.ev = .bteChunk ∧ p.args.nats = [cl])) ∧
    (∀ d, s.arg.nats = [d] → s.awaitingStart d = [(cl, slot, j)] →
      ((s.die d).starts.filter (fun c => decide (s.now < c + 8))).length < 4 →
      ∃ t, exec .matrixStartGrant s = .next t ∧ entry t { j with started := true } ∧ t.harts = s.harts ∧
        (t.die d).starts = (s.die d).starts.filter (fun c => decide (s.now < c + 8)) ++ [s.now] ∧
        ∃ p ∈ t.schedule, p.ev = .jobComplete ∧ p.args.nats = [cl, slot, j.order]) ∧
    (∀ h, s.hart? j.hart = some h → h.role.launch = j.launch → h.role.hidx = j.hidx → h.role.part = j.part →
      clusterOf j.hart = cl → (∀ g ∈ s.harts, g.2.run.stoppedJobs = []) →
      (s.arg.nats = [cl, slot, j.order] → j.matrix = false → j.state = .running → j.moved = true → s.partStopped j.part = false →
        let over_ := { j with state := .done, kind := 0, gva := 0, order := s.tag + 1, walks := [] }
        let told := if j.notify then (if h.run.iq19.length < 4 then { h.run with iq19 := h.run.iq19 ++ [jobId j.seq slot] }
          else { h.run with iq19Ovf := true }) else h.run
        ∃ t, exec .jobComplete s = .next t ∧
          (h.run.wait = none → ended t over_ ∧ t.hart? j.hart = some { h with run := told }) ∧
          (∀ xd, h.run.wait = some (.jwait xd (jobId j.seq slot)) → s.holdsJob j.hart h (jobId j.seq slot) slot j → h.getX 0 = 0 →
            ∃ h', t.hart? j.hart = some h' ∧ RetiresTo h h' (h.nextPc 4) ∧ writesX h h' xd 1 ∧ h'.run.wait = none)) ∧
      (∀ kind va, s.arg.nats = [cl, slot, j.order, kind, va] → j.live = true → h.run.wait = none → h.run.aq.length < 4 →
        j.notify = false → j.late = [] →
        ∃ t, exec .jobFail s = .next t ∧
          ended t { j with state := .failed, kind := kind, gva := BitVec.ofNat 64 va, order := s.tag + 1, walks := [] } ∧
          t.hart? j.hart = some { h with run := { h.run with aq := h.run.aq ++ [(if kind = 3 then 28 else 27, jobId j.seq slot)] } }))

/-- R190, R191, R193, R165, R170: a chunk of a copy or fill of the block transfer engine, of the length that its row, the 4 KiB
boundaries and a bound of the environment leave: each destination byte takes the byte of the source at the same position in the
row, or of the element of the fill, but for bytes of elements that other rows write too, which are held; nothing else of any
space changes, and the job's position moves on to the next chunk or row.
R269, R271, R275, R277, R285, R292, R294: a matrix job in its turn has its effect when it completes and is then done: `mzero` leaves
its tile zero with the kind asked for; an integer `mma` adds to each element the exact sum of the products of its rows over
its K-steps, modulo 2^32; other tiles are as before. -/
def Obligations.EngineResults : Prop :=
  (∀ (s : State) (cl slot limit : Nat) (j : Job) (h : Hart) (sp : Nat → JobSpot) (dp : JobSpot),
    (s.arg.nats = [cl, limit] ∨ (s.arg.nats = [cl] ∧ limit = 0)) → s.job? cl slot = some j →
    Map.sorted (s.cluster cl).jobs = true → s.memoriesOk = true → j.matrix = false → j.state = .running →
    s.partStopped j.part = false → j.part < 64 → slot < 64 → (j.op = 0 ∨ j.op = 1) →
    (∀ n o, n ≠ slot → s.job? cl n = some o → o.matrix = false → o.state ≠ .running) →
    let d := bteDesc j.desc
    let n := j.arg.toNat
    let row := bteRow j.op d n j.pos 0
    let src := row.1 + BitVec.ofNat 64 j.posByte
    let dst := row.2 + BitVec.ofNat 64 j.posByte
    let left := (bteShape d n).2 - j.posByte
    let c := chunkLen (j.op == 1) src dst left limit
    let had := j.carry.length
    let pieces := if j.op = 1 then [] else pagePieces (src + BitVec.ofNat 64 had) (c + readAhead src c left - had)
    let ready := fun (u : State) =>
      (∀ i p, pieces[i]? = some p → u.jobSpot cl slot j d.ssp p.1 p.2 false = .ok (sp i) u) ∧
      u.jobSpot cl slot j d.dsp dst c true = .ok dp u ∧
      (∀ i, i < c → meets (u.bteSources j) { dp with addr := dp.addr + i } (dst + BitVec.ofNat 64 i) = false)
    (∀ u : State, { u with clusters := s.clusters } = s → ready u) →
    let there := fun (p : JobSpot) (m : Nat) => p.space ≤ 3 ∧
      (p.space = 0 → p.addr + m ≤ 2 ^ 52 ∧ ∀ i, i < m → s.standsAtHome p.owner (p.addr + i)) ∧ (p.space = 3 → p.addr + m ≤ 2 ^ 25)
    there dp c → (∀ i p, pieces[i]? = some p → there (sp i) p.2) → 0 < c → j.posByte + c ≤ (bteShape d n).2 → j.pos < (bteShape d n).1 →
    let got := j.carry ++ (pieces.zipIdx.map (fun e => (List.range e.1.2).map (fun i => s.placeByte h (sp e.2).space ((sp e.2).at_ i)))).flatten
    let byte := fun (i : Nat) => if j.op = 1 then BitVec.ofNat 8 (j.desc.toNat / 2 ^ (8 * ((j.posByte + i) % 2 ^ d.esz))) else got.getD i 0
    let waits := fun (i : Nat) => j.shares (dst + BitVec.ofNat 64 i)
    ∃ t, exec .bteChunk s = .next t ∧
      (∀ i, i < c → waits i = false → t.placeByte h dp.space (dp.at_ i) = byte i) ∧
      (∀ k q, k ≤ 3 → q.2 < (if k = 0 then 2 ^ 52 else if k = 3 then 2 ^ 25 else 2 ^ 19) →
        (∀ i, i < c → waits i = false → ¬ (samePlaces k dp.space ∧ q = dp.at_ i)) → t.placeByte h k q = s.placeByte h k q) ∧
      ∃ o, t.job? cl slot = some o ∧
        (o.pos, o.posByte) = (if j.posByte + c = (bteShape d n).2 then (j.pos + 1, 0) else (j.pos, j.posByte + c)) ∧
        o.late = j.late ++ ((List.range c).filter waits).map (fun i => (dst + BitVec.ofNat 64 i, byte i)))
  ∧
  (∀ (s : State) (cl slot : Nat) (j : Job), s.arg.nats = [cl, slot, j.order] → s.job? cl slot = some j → j.matrix = true →
    j.state = .running → j.started = true → s.partStopped j.part = false → j.launch = none → j.notify = false →
    s.hart? j.hart = none → (∀ g ∈ s.harts, g.2.run.stoppedJobs = []) → j.pos = 0 →
    let same := fun (t : State) => (∀ p a, a < 16 → (p, a) ≠ (j.part, j.acc) → t.tile cl p a = s.tile cl p a) ∧ t.mem = s.mem ∧
      t.harts = s.harts
    (j.op = 5 → ∃ t o, exec .jobComplete s = .next t ∧ t.job? cl slot = some o ∧ o.state = .done ∧ same t ∧
      (t.tile cl j.part j.acc).int = j.arg.getLsbD 0 ∧ (t.tile cl j.part j.acc).poison = false ∧
      ∀ m n, (t.tile cl j.part j.acc).get m n = 0) ∧
    (∀ (A B : Nat → Operand), j.op = 0 → j.undef = false → (s.tile cl j.part j.acc).int = true → (s.tile cl j.part j.acc).poison = false →
      j.lane = none → j.var 8 7 = 0 → stepLen 0 j.a.fmt j.b.fmt = 8 → j.a.rows ≤ 128 → j.b.rows ≤ 128 →
      (∀ (u : State) (k : Job), { u with clusters := s.clusters, fresh := s.fresh } = s →
        { k with pos := 0, flags := j.flags, walks := j.walks, declined := j.declined, failedPages := j.failedPages } = j →
        k.pos < j.b.E / 8 → u.readOperands cl slot k = .ok (A k.pos, B k.pos) u) →
      (s.tile cl j.part j.acc).free = none → Map.sorted (s.tile cl j.part j.acc).t = true →
      ∃ t o, exec .jobComplete s = .next t ∧ t.job? cl slot = some o ∧ o.state = .done ∧ same t ∧
        ∀ m n, m < 128 → n < 128 → (t.tile cl j.part j.acc).get m n =
          if m < j.a.rows ∧ n < j.b.rows then
            (s.tile cl j.part j.acc).get m n + BitVec.ofInt 32 (((List.range (j.b.E / 8)).map (fun q =>
              (List.zipWith (· * ·) ((A q).ints.getD m []) ((B q).ints.getD n [])).sum)).sum)
          else (s.tile cl j.part j.acc).get m n))

/-- R379, R380, R381, R306: on a translation service core at M, `tlbw` enters the leaf its operands name into the cluster's and the
die's TLB unless an invalidation cancels it, and `tlbinv` removes exactly the matching entries of a partition from every TLB;
`tlbprobe` reports the entry that covers an address, or 0.
R384, R79, R26: `retx` returns as `sret` does, but behind the instruction at `sepc`, whose length its first word gives; behind the
pair where that word is a prefix. The length of a word of 80 bits or more is a free value.
Model's choices it rests on: log entry 54. -/
def Obligations.TranslationInstructions : Prop :=
  (∀ (s : State) (h : Hart) (x1 x2 : BitVec 5), s.hart? s.cur = some h →
    let a := h.getX x1
    let b := h.getX x2
    let f := fun (v : DWord) (lo n : Nat) => v.toNat / 2 ^ lo % 2 ^ n
    let retires := fun (t : State) => ∃ h', t.hart? s.cur = some h' ∧ RetiresTo h h' (h.nextPc 4) ∧ h'.x = h.x ∧ h'.lanes = h.lanes ∧
      h'.dev = h.dev ∧ (∀ j, j ≠ s.cur → t.hart? j = s.hart? j) ∧ t.mem = s.mem
    (h.tsc = true → h.priv = .M → f a 54 10 = 0 → f b 61 3 = 0 →
      let e : Leaf := {
        part := f a 48 6, asid := f b 45 16, vpn := f b 0 45, size := f a 40 2, gpaPage := f a 0 40, r := a.getLsbD 42
        w := a.getLsbD 43, x := a.getLsbD 44, u := a.getLsbD 45, g := a.getLsbD 46, d := a.getLsbD 47 }
      let k := 2 ^ (pageBits e.size - 12)
      e.gpaPage % k = 0 → e.vpn % k = 0 →
      let added := fun (l l' : List Leaf) => ∃ rest, l' = e :: rest ∧ ∀ o ∈ rest, o ∈ l
      ∃ t, exec (.tlbw x1 x2) s = .next t ∧ retires t ∧ (s.cancelled e = true → t.clusters = s.clusters ∧ t.dies = s.dies) ∧
        (s.cancelled e = false → added (s.cluster (clusterOf s.cur)).tlb (t.cluster (clusterOf s.cur)).tlb ∧
          added (s.die (clusterOf s.cur / 32)).tlb (t.die (clusterOf s.cur / 32)).tlb)) ∧
    (h.tsc = true → h.priv = .M → b.toNat < 2 ^ 24 →
      let gone := fun (e : Leaf) => e.part = f b 0 6 ∧
        (b.getLsbD 22 = true ∨ vpnOf a / 2 ^ (pageBits e.size - 12) = e.vpn / 2 ^ (pageBits e.size - 12)) ∧
        (b.getLsbD 23 = true ∨ (e.g = false ∧ e.asid = f b 6 16))
      let cut := fun (l l' : List Leaf) => ∀ e, e ∈ l' ↔ e ∈ l ∧ ¬ gone e
      ∃ t, exec (.tlbinv x1 x2) s = .next t ∧ retires t ∧ (∀ c, cut (s.core c).tlb (t.core c).tlb) ∧
        (∀ c, cut (s.cluster c).tlb (t.cluster c).tlb) ∧ (∀ d, cut (s.die d).tlb (t.die d).tlb)) ∧
    (h.priv ≠ .U → s.latency = 0 → h.getX 0 = 0 →
      let n := fun (v : Bool) => if v then 1 else 0
      let found := s.tlbFind (coreOf s.cur) h.role.part (f h.csr.satp 44 16) b
      (∀ e lvl, found = some (e, lvl) → e.size < 4 → e.gpa b / 4096 < 2 ^ 40 →
        ∃ t h', exec (.tlbprobe x1 x2) s = .next t ∧ t.hart? s.cur = some h' ∧ RetiresTo h h' (h.nextPc 4) ∧
          writesX h h' x1 (BitVec.ofNat 64 (1 + lvl * 2 + e.size * 8 + n e.r * 32 + n e.w * 64 + n e.x * 128 + n e.u * 256 + n e.g * 512
            + n e.d * 1024 + e.gpa b / 4096 * 4096)) ∧ { t with harts := s.harts, latencies := s.latencies } = s) ∧
      (found = none → ∃ t h', exec (.tlbprobe x1 x2) s = .next t ∧ t.hart? s.cur = some h' ∧ RetiresTo h h' (h.nextPc 4) ∧
        writesX h h' x1 0 ∧ { t with harts := s.harts, latencies := s.latencies } = s)))
  ∧
  (∀ (s : State) (h : Hart) (w : Word), s.hart? s.cur = some h →
    (h.priv = .M ∨ (h.priv = .S ∧ h.csr.mstatus.getLsbD 22 = false)) → s.fetchWord h h.csr.sepc = .ok w s →
    let skips := fun (u : State) (len : DWord) => ∃ t h', exec .retx s = .next t ∧ OnlyHart u t s.cur h' ∧ h'.pc = h.csr.sepc + len ∧
      h'.priv = (if h.csr.mstatus.getLsbD 8 then .S else .U) ∧ KeptByTrap h h' ∧
      h'.csr = { h.csr with mstatus := h'.csr.mstatus, minstret :=
        if h.csr.mcountinhibit.getLsbD 2 then h.csr.minstret else h.csr.minstret + 1 } ∧
      h'.csr.mstatus.getLsbD 1 = h.csr.mstatus.getLsbD 5 ∧ h'.csr.mstatus.getLsbD 5 = true ∧ h'.csr.mstatus.getLsbD 8 = false ∧
      h'.csr.mstatus.getLsbD 17 = false ∧
      ∀ b, b ≠ 1 → b ≠ 5 → b ≠ 8 → b ≠ 17 → h'.csr.mstatus.getLsbD b = h.csr.mstatus.getLsbD b
    let prefix_ := w.toNat % 128 = 0x5B ∧ w.toNat / 2 ^ 12 % 8 = 0
    let long := fun (v : Word) => v.toNat % 128 = 127
    let len := fun (v : Word) => if v.toNat % 4 ≠ 3 then (2 : DWord) else if v.toNat % 32 ≠ 31 then 4 else if v.toNat % 64 = 31 then 6 else 8
    (¬ prefix_ → ¬ long w → skips s (len w)) ∧ (long w → skips s.drawn (s.free 64)) ∧
    (∀ w2, prefix_ → s.fetchWord h (h.csr.sepc + 4) = .ok w2 s →
      (¬ long w2 → skips s (4 + len w2)) ∧ (long w2 → skips s.drawn (4 + s.free 64))))

/-- R382, R383, R371: `ctxs` stores the record of the interrupted context and its extension at the address, line by line where they
stand at home, and nothing else; `ctxl` loads the hart from such a record: its pc, level, registers, predicates, lane
registers, slices and supervisor registers. M only.
Model's choices it rests on: log entries 56, 57, 58. -/
def Obligations.ContextSavedAndLoaded : Prop :=

  ∀ (s : State) (h : Hart) (xr : BitVec 5), s.hart? s.cur = some h → Map.sorted s.harts = true → h.priv = .M → h.tsc = false →
    let a := (h.getX xr).toNat
    let part := h.role.part
    let N := fun (off n : Nat) => s.numAt part (a + off) n
    a % 64 = 0 → a + 17536 ≤ 2 ^ 52 → (s.core (coreOf s.cur)).flight = [] →
    (∀ i, i < 17536 → s.standsAtHome part (a + i) ∧ (a + i) / 4096 ∉ h.run.declined ∧ (a + i) / 4096 ∉ h.run.failedPages) →
    (s.jobsLive s.cur h = false → h.dev.tbm = 0 → h.dev.tbmf = false →
      ∃ t h', exec (.ctxs xr) s = .next t ∧ t.hart? s.cur = some h' ∧ RetiresTo h h' (h.nextPc 4) ∧ h'.x = h.x ∧ h'.lanes = h.lanes ∧
        WritesBytes s t part a (bytesOfNat (h.header h.interrupted Live.all) 1024 ++ h.bulk Live.all ++
          bytesOfNat (h.extension (s.locksOf s.cur) 0 s.now) 128)) ∧
    ((s.byteAt part a).getLsbD 0 = true → s.locksHeld s.cur = 0 → (∀ i, i < 4 → (s.byteAt part (a + 17430 + i)).getLsbD 7 = false) →
      ∃ t h', exec (.ctxl xr) s = .next t ∧ t.hart? s.cur = some h' ∧ (∀ j, j ≠ s.cur → t.hart? j = s.hart? j) ∧ t.mem = s.mem ∧
        h'.pc = BitVec.ofNat 64 (N 0 8 / 4 * 4) ∧ h'.priv = (if (s.byteAt part (a + 1016)).getLsbD 6 then .S else .U) ∧
        (∀ r : BitVec 5, r ≠ 0 → h'.getX r = BitVec.ofNat 64 (N (8 * r.toNat) 8)) ∧ h'.getX 0 = 0 ∧
        (∀ k, k < 12 → h'.getP k = BitVec.ofNat 32 (N (256 + 4 * k) 4)) ∧
        (∀ n l, n < 64 → l < 32 → h'.getV n l = BitVec.ofNat 32 (N (1024 + 128 * n + 4 * l) 4)) ∧
        (∀ l o, l < 32 → o < 256 → Memory.read h'.lanes.slice (l * 256 + o) = s.byteAt part (a + 9216 + l * 256 + o)) ∧
        let sat := BitVec.ofNat 64 (N 968 8)
        h'.csr.sepc = BitVec.ofNat 64 (N 944 8 / 4 * 4) ∧ h'.csr.stval = BitVec.ofNat 64 (N 952 8) ∧ h'.csr.sscratch = BitVec.ofNat 64 (N 960 8) ∧
        h'.csr.satp = (if satpMode sat ∈ [0, 9, 10, 14] then sat else h.csr.satp) ∧
        h'.csr.stvec = BitVec.ofNat 64 (N 976 8 / 4 * 4) ∧ h'.dev.lftab = BitVec.ofNat 64 (N 984 8 / 64 * 64) ∧
        h'.dev.emuvec = BitVec.ofNat 64 (N 992 8) &&& ~~~2 ∧ h'.csr.minstret = BitVec.ofNat 64 (N 17416 8) ∧ h'.role.part = part ∧
        h'.run.wait = none ∧ h'.run.resv = none)

/-- R378: `msgs` puts 64 bytes at the end of the target core's inbox, with the sender's place, and counts them; `msgr` takes the
oldest message for its slot out, stores it, acquires at P and writes the sender's place with bit 0 set, or 0 where there is
none.
Model's choices it rests on: log entry 55. -/
def Obligations.Messages : Prop :=

  ∀ (s : State) (h : Hart) (x1 x2 : BitVec 5) (gpa : Nat), s.hart? s.cur = some h → Map.sorted s.harts = true → h.priv ≠ .U →
    h.getX 0 = 0 → h.dev.tbm = 0 → s.ordered h = false →
    let me := coreOf s.cur
    let part := h.role.part
    (∀ core, s.msgTarget part (h.getX x1) = some core → PlainAccess s h (h.getX x2) .load 64 gpa → (s.core core).inbox.length < 32 →
      (s.core core).inboxSaved = false →
      let m : InboxEntry := ⟨(h.getX x1).toNat / 2 ^ 11 % 16, me, slotOf s.cur, BitVec.ofNat 512 (s.numAt part gpa 64)⟩
      ∃ t h', exec (.msgs x1 x2) s = .next t ∧ t.hart? s.cur = some h' ∧ RetiresTo h h' (h.nextPc 4) ∧ h'.x = h.x ∧
        h'.lanes = h.lanes ∧ h'.dev = h.dev ∧ (∀ j, j ≠ s.cur → t.hart? j = s.hart? j) ∧ t.mem = s.mem ∧
        ∀ c, { t.core c with hdc := (s.core c).hdc } = { s.core c with
          inbox := (s.core c).inbox ++ (if c = core then [m] else [])
          nrcvd := (s.core c).nrcvd + (if c = core then 1 else 0), nsent := (s.core c).nsent + (if c = me then 1 else 0) }) ∧
    ((∀ e ∈ (s.core me).inbox, e.slot ≠ slotOf s.cur) → (h.getX x2).toNat % 64 = 0 →
      ∃ t h', exec (.msgr x1 x2) s = .next t ∧ OnlyHart s t s.cur h' ∧ RetiresTo h h' (h.nextPc 4) ∧ writesX h h' x1 0) ∧
    (∀ pre e post, (s.core me).inbox = pre ++ e :: post → (∀ o ∈ pre, o.slot ≠ slotOf s.cur) → e.slot = slotOf s.cur →
      PlainAccess s h (h.getX x2) .store 64 gpa →
      ∃ t h', exec (.msgr x1 x2) s = .next t ∧ t.hart? s.cur = some h' ∧ RetiresTo h h' (h.nextPc 4) ∧ h'.lanes = h.lanes ∧
        writesX h h' x1 (BitVec.ofNat 64 (1 + e.fromPos * 2 ^ 8 + e.fromSlot * 2 ^ 24)) ∧
        (t.core me).inbox = pre ++ post ∧ (t.core me).l1 = [] ∧ WritesBytes s t part gpa (bytesOfNat e.data.toNat 64))

/-- R303, R305, R306, R307, R308: a queued walk under Sv48 whose three pointers and accessed leaf stand at home gives the leaf for
its page; the translation service core enters a finished walk's leaf into the cluster's and the die's TLB and keeps the
result; its return frees the entry and lets the hart that asked issue again with it.
R316, R317, R415, R312, R327, R337: the oldest fault record held back is posted where the ring and the limit permit: the next
sequence number, its 64 bytes in the ring, message 1; a dirty line of an open partition is written back to the HBM line its
stage-2 leaf names and is then clean, and given up where that is asked. -/
def Obligations.TranslationAndRecordEvents : Prop :=
  ((∀ (s : State) (e : TscEntry), satpMode e.satp = 9 → e.vpn < 2 ^ 36 →
    let at_ := fun (table lvl : Nat) => table * 4096 + 8 * (e.vpn / 2 ^ (9 * lvl) % 512)
    let pte := fun (table lvl : Nat) => s.numAt e.part (at_ table lvl) 8
    let ppn := fun (p : Nat) => p / 2 ^ 10 % 2 ^ 44
    let pointer := fun (p : Nat) => p % 16 = 1 ∧ p / 2 ^ 4 % 2 = 0 ∧ p / 2 ^ 6 % 4 = 0 ∧ p / 2 ^ 54 = 0
    let leaf := fun (p : Nat) => p % 2 = 1 ∧ p.testBit 1 = true ∧ p.testBit 6 = true ∧ p / 2 ^ 54 = 0 ∧
      (e.store = true → p.testBit 2 = true → p.testBit 7 = true)
    let t3 := satpPpn e.satp
    let t2 := ppn (pte t3 3)
    let t1 := ppn (pte t2 2)
    let t0 := ppn (pte t1 1)
    let p := pte t0 0
    (s.standsAtHome e.part (at_ t3 3) ∧ s.standsAtHome e.part (at_ t2 2) ∧ s.standsAtHome e.part (at_ t1 1) ∧
      s.standsAtHome e.part (at_ t0 0)) →
    pointer (pte t3 3) → pointer (pte t2 2) → pointer (pte t1 1) → leaf p →
    ∃ t, CachesOnly s t ∧ { t with cores := s.cores } = s ∧ s.walk e = .res (.leaf {
      part := e.part, asid := satpAsid e.satp, vpn := e.vpn, size := 0, gpaPage := ppn p, r := true
      w := p.testBit 2, x := p.testBit 3, u := p.testBit 4, g := p.testBit 5, d := p.testBit 7 }) t)
  ∧ (∀ (s : State) (cl : Nat) (e : TscEntry) (f : Leaf), s.arg.nats = [cl] → (s.cluster cl).tscq = [e] → e.result = none → e.part < 64 →
    (∀ o ∈ s.host.faults, (cl, e.id) ∉ o.walks) → (∀ u : State, { u with clusters := s.clusters } = s → u.walk e = .res (.leaf f) u) →
    s.cancelled f = false →
    let added := fun (l l' : List Leaf) => ∃ rest, l' = f :: rest ∧ ∀ o ∈ rest, o ∈ l
    ∃ t, exec .tscWalk s = .next t ∧ added (s.cluster cl).tlb (t.cluster cl).tlb ∧ added (s.die (cl / 32)).tlb (t.die (cl / 32)).tlb ∧
      (t.cluster cl).tscq = [{ e with result := some (.leaf f) }] ∧ t.harts = s.harts ∧ t.mem = s.mem ∧
      ∃ p ∈ t.schedule, p.ev = .walkResultReturn ∧ p.args.nats = [cl, e.id])
  ∧ (∀ (s : State) (cl k : Nat) (e : TscEntry) (r : WalkResult) (h : Hart), s.arg.nats = [cl, e.id] → (s.cluster cl).tscq = [e] →
    e.result = some r → e.requesters = [k] → k < 65536 → s.hart? k = some h → h.run.wait = some .walk → h.role.part = e.part →
    h.csr.satp = e.satp → (s.cluster cl).tscWait = [] → (∀ g ∈ s.harts, g.2.run.wait ≠ some .queueFull) →
    ∃ t, exec .walkResultReturn s = .next t ∧ (t.cluster cl).tscq = [] ∧
      t.hart? k = some { h with run := { h.run with
        wait := none, busyUntil := s.now + 1, hangHeld := h.hangNow s.now, hangFrom := s.now, walks := (e.vpn, r) :: h.run.walks } } ∧
      (∀ j, j ≠ k → t.hart? j = s.hart? j) ∧ t.mem = s.mem))
  ∧
  ((∀ (s : State) (f : FaultRec) (pre post : List FaultRec) (base k : Nat), s.host.faults = pre ++ f :: post →
    (∀ g ∈ pre, g.posted = true) → f.posted = false → (∀ g ∈ pre ++ post, g.tag ≠ f.tag) → s.ring? 0 = some (base, k) →
    s.host.fnext - s.host.fcons.toNat < 2 ^ k → s.postedRecs < 4096 →
    (∀ p, s.part? f.part = some p → p.sealed_ = false) → Memory.wf s.mem.host = true →
    let g := { f with seq := s.host.fnext, posted := true }
    let v := g.seq + g.part * 2 ^ 64 + g.cause * 2 ^ 72 + g.eng * 2 ^ 76 + (if g.wr then 1 else 0) * 2 ^ 80 + g.reng * 2 ^ 81 +
      g.pos * 2 ^ 96 + g.slot * 2 ^ 107 + (if g.eng = 5 ∨ g.eng = 6 then 0 else g.gva.toNat) * 2 ^ 128 + g.gpa * 2 ^ 192
    ∃ t, exec .faultRecordDeferred s = .next t ∧ t.host.faults = pre ++ g :: post ∧ t.host.fnext = s.host.fnext + 1 ∧
      t.host.msix = s.host.msix ++ [1] ∧
      (∀ a, Memory.read t.mem.host a = if base + 64 * (s.host.fnext % 2 ^ k) ≤ a ∧ a < base + 64 * (s.host.fnext % 2 ^ k) + 64 then
        BitVec.ofNat 8 (v % 2 ^ 512 / 256 ^ (a - (base + 64 * (s.host.fnext % 2 ^ k)))) else Memory.read s.mem.host a) ∧
      t.harts = s.harts)
  ∧ (∀ (s : State) (part gpa a : Nat) (p : Part) (r : Range) (l : LlcLine), s.arg.nats = [part, gpa] → s.part? part = some p →
    p.sealed_ = false → gpa % 128 = 0 → p.range? gpa = some r → Map.find s.mem.llc (lineKey part gpa) = some l → l.dirty = true →
    l.held = false → l.poison = false → s.pageFull part gpa = false → s.stage2 p r gpa = .hbm a → Memory.wf s.mem.hbm = true →
    Map.sorted s.mem.llc = true →
    ∃ t, exec .lineWriteback s = .next t ∧
      (∀ b, Memory.read t.mem.hbm b = if b / 128 = a / 128 then lineByte l.data (b % 128) else Memory.read s.mem.hbm b) ∧
      Map.find t.mem.llc (lineKey part gpa) = (if s.arg.ok then none else some { l with dirty := false }) ∧
      (∀ key, key ≠ lineKey part gpa → Map.find t.mem.llc key = Map.find s.mem.llc key) ∧ t.harts = s.harts))

/-- R81, R82, R83, R84, R85, R86: the packet whose ready bit is set at a queue's consumer index, its reads all at home, passes its
checks and waits to activate; one that fails them is consumed, its ready bit cleared and the index written, and its launch
ends with status 1.
R87, R82, R86, R96: a checked plain packet without dependences or formats, at the head of a queue whose launches are over,
becomes an active launch of the queue with nothing claimed or exited and with the side table that its header names, and is
consumed.
R88, R89, R91, R69, R101: the dispatchers place a unit of one hart of the launch they serve, a plain launch, and a gang of one: the
hart is resident at the chosen slot with the packet's entry and argument, the queue's supervisor registers as they stand, U,
and its lanes filled in ascending order with the next items; the launch has claimed them; a gang has its barriers.
Model's choices it rests on: log entry 77. -/
def Obligations.LaunchesBegin : Prop :=
  (∀ (s : State) (part qn : Nat) (q : Queue), s.arg.nats = [part, qn] → s.queue? part qn = some q → q.checked = false →
    let slot := q.ring + 64 * (q.consIdx % 2 ^ q.n)
    let v := s.numAt part slot 64
    let q1 := q.withSup (s.numAt part q.sup 32)
    let p := packetOf v
    s.standsAtHome part slot → s.standsAtHome part q.sup → s.standsAtHome part q.cons → slot % 64 = 0 → q.sup % 32 = 0 → q.cons % 8 = 0 →
    slot < 2 ^ 52 → q.cons < 2 ^ 52 → slot / 64 ≠ q.cons / 64 → v.testBit 511 = true → p.drain = false →
    (p.bad q1.supOk 0 = false → ∃ t, exec .packetCheck s = .next t ∧ t.queue? part qn = some { q1 with checked := true } ∧
      (∃ e ∈ t.schedule, e.at_ = s.now ∧ e.ev = .launchActivate ∧ e.args.nats = [part, qn]) ∧
      CachesOnly s t ∧ { t with queues := s.queues, schedule := s.schedule, cores := s.cores } = s) ∧
    (p.bad q1.supOk 0 = true → p.cmpl = 0 → p.notify = false → Map.sorted s.harts = true →
      (∀ e ∈ s.harts, e.2.role.launch ≠ some s.nextLaunch) →
      (∀ c ∈ s.cores, ∀ f ∈ c.2.flight, f.launch ≠ some s.nextLaunch) →
      ∃ t L, exec .packetCheck s = .next t ∧ t.launch? s.nextLaunch = some L ∧ L.ended = true ∧ L.status = 1 ∧ L.exited = 0 ∧
        (∃ r, t.queue? part qn = some r ∧ r.consIdx = q.consIdx + 1 ∧ r.checked = false) ∧
        (∀ r b, b < 2 ^ 52 → t.byteAt r b =
          if r = part ∧ q.cons ≤ b ∧ b < q.cons + 8 then BitVec.ofNat 8 ((q.consIdx + 1) / 256 ^ (b - q.cons))
          else if r = part ∧ b = slot + 63 then s.byteAt part b &&& 0x7F else s.byteAt r b)))
  ∧
  (∀ (s : State) (part qn : Nat) (q : Queue) (pt : Part), s.arg.nats = [part, qn] → s.queue? part qn = some q → s.part? part = some pt →
    q.checked = true → s.governing part qn = none → q.launches = [] →
    let slot := q.ring + 64 * (q.consIdx % 2 ^ q.n)
    let v := s.numAt part slot 64
    let p := packetOf v
    s.standsAtHome part slot → s.standsAtHome part q.sup → s.standsAtHome part q.cons → slot % 64 = 0 → q.sup % 32 = 0 → q.cons % 8 = 0 →
    v.testBit 511 = true → p.open_ = false → p.gang = false → p.ndep = 0 → p.fmtblk = 0 → 0 < p.count →
    let side := p.sidetab.toNat
    let word := fun (i : Nat) => BitVec.ofNat 64 (s.numAt part (side + 8 * i) 8)
    satpMode (BitVec.ofNat 64 (s.numAt part (q.sup + 8) 8)) = 0 → side % 32 = 0 → side < 2 ^ 52 → s.standsAtHome part side →
    ∃ t L, exec .launchActivate s = .next t ∧ t.launch? s.nextLaunch = some L ∧ L.pkt = p ∧ L.part = part ∧ L.q = qn ∧
      L.activated = true ∧ L.ended = false ∧ L.next = 0 ∧ L.exited = 0 ∧ L.flags = 0 ∧ L.safetab = word 0 ∧ L.livetab = word 1 ∧ L.drainpc = word 2 ∧ L.fmt = Vector.replicate 4 0 ∧
      (∀ l, l ≠ s.nextLaunch → t.launch? l = s.launch? l) ∧ t.nextLaunch = s.nextLaunch + 1 ∧
      (∃ r, t.queue? part qn = some r ∧ r.consIdx = q.consIdx + 1 ∧ r.checked = false ∧ r.launches = [s.nextLaunch]) ∧
      (∃ e ∈ t.schedule, e.at_ = s.now + interval ∧ e.ev = .progressInterval ∧ e.args.nats = [s.nextLaunch]))
  ∧
  (∀ (s : State) (hd : Head) (core slot : Nat) (q : Queue) (p : Part), s.ageQueues = s →
    s.launch? hd.launch = some hd.l → hd.l.ended = false → hd.l.saved = [] → hd.l.pkt.determ = false → hd.l.pkt.open_ = false →
    hd.l.pkt.ordered = false → hd.l.items = [] → hd.l.requeued = [] → hd.l.pkt.hpc = 0 → hd.l.pkt.cpk = 0 → hd.part = hd.l.part →
    hd.q = hd.l.q → s.queue? hd.l.part hd.l.q = some q → s.part? hd.l.part = some p → q.sup % 32 = 0 →
    s.standsAtHome hd.l.part q.sup → hd.l.pkt.count < 2 ^ 48 → slot < 16 → core < 2048 →
    let L := hd.l
    let k := core * 16 + slot
    let sup := fun (i : Nat) => BitVec.ofNat 64 (s.numAt L.part (q.sup + 8 * i) 8)
    let n := min 32 (L.pkt.count - L.next)
    let placed := fun (t : State) => ∃ g, t.hart? k = some g ∧ (∀ j, j ≠ k → t.hart? j = s.hart? j) ∧ g.pc = L.pkt.entry ∧
      g.priv = .U ∧ g.tsc = false ∧ (∀ r, g.getX r = if r = 10 then L.pkt.args else 0) ∧
      g.csr.stvec = sup 0 &&& ~~~3 ∧ g.csr.satp = (if satpMode (sup 1) ∈ [0, 9, 10, 14] then sup 1 else 0) ∧ g.csr.sscratch = sup 2 ∧ g.dev.fs = L.fmt ∧ g.role.launch = some hd.launch ∧
      g.role.part = L.part ∧ g.lanes.v = [] ∧ g.lanes.em = g.lanes.occ ∧
      (∀ i, i < 32 → g.lanes.occ.getLsbD i = decide (i < n) ∧ g.lanes.gen.getD i 1 = 0 ∧ g.lanes.cohort.getD i 1 = 0 ∧
        g.lanes.item.getD i 0 = if i < n then BitVec.ofNat 48 (L.next + i) else 0xFFFFFFFFFFFF) ∧
      t.launch? hd.launch = some { L with next := L.next + n, high := if n = 0 then L.high else max L.high (L.next + n), unitsPlaced := L.unitsPlaced + 1 } ∧
      t.mem = s.mem
    (s.arg.nats = [] → s.served = ([hd], false) → L.pkt.gang = false → L.next < L.pkt.count → s.unitFor hd = some [⟨core, [slot]⟩] →
      ∃ t, exec .placeUnit s = .next t ∧ placed t) ∧
    (s.arg.nats = [hd.launch] → s.arg.places = [] → s.served.1.find? (fun h => h.launch == hd.launch) = some hd → L.pkt.gang = true →
      L.pkt.hlim = 1 → s.gangFit hd.launch L true = some [[⟨core, [slot]⟩]] →
      ∃ t, exec .placeGang s = .next t ∧ placed t ∧ ⟨hd.launch, L.unitsPlaced, 0, [], 0, 0⟩ ∈ (t.core core).bar ∧
        ⟨hd.launch, L.unitsPlaced, 0, [], 0, 0⟩ ∈ (t.cluster (core / 8)).bar))

/-- R85, R99, R70, R88, R116: a launch whose work is done writes its completion word (the items that exited, status 0, the flags,
done) and ends; a failing launch ends with status 2 and its harts retire; a queue that has waited long enough rises one level;
at an interval's end a launch's rate is the mean of the old rate and the items exited in it. -/
def Obligations.LaunchesEnd : Prop :=

  (∀ (s : State) (l : Nat) (L : Launch), s.arg.nats = [l] → s.launch? l = some L → L.ended = false → L.notifyDone = false →
    L.pkt.open_ = false → L.pkt.notify = false → s.launchDone l L = true → (∀ c ∈ s.cores, c.2.flight = []) → s.launchSatp L = 0 →
    let a := L.pkt.cmpl.toNat
    0 < a → a < 2 ^ 52 → a % 8 = 0 → s.standsAtHome L.part a →
    let word := L.exited % 2 ^ 48 + L.flags.toNat * 2 ^ 56 + 2 ^ 63
    ∃ t M, exec .launchComplete s = .next t ∧ t.launch? l = some M ∧ M.ended = true ∧ M.status = 0 ∧ M.notifyDone = true ∧
      WritesBytes s t L.part a (bytesOfNat word 8))
  ∧ (∀ (s : State) (l : Nat) (L : Launch), s.arg.nats = [l] → s.arg.ok = false → s.launch? l = some L → L.ended = false →
    L.notifyDone = false → L.pkt.cmpl = 0 → L.pkt.notify = false → Map.sorted s.harts = true → (∀ c ∈ s.cores, c.2.flight = []) →
    (∀ g ∈ s.harts, g.2.run.stoppedJobs = []) →
    ∃ t M, exec .launchFail s = .next t ∧ t.launch? l = some M ∧ M.ended = true ∧ M.status = 2 ∧ M.exited = L.exited ∧
      (∀ k g, s.hart? k = some g → t.hart? k = if g.role.launch = some l then none else some g))
  ∧ (∀ (s : State) (part qn c : Nat) (q : Queue), s.arg.nats = [part, qn] → s.queue? part qn = some q → q.agingFrom = some c →
    q.level < 7 → c + 2 ^ 20 * (q.level + 1) ≤ s.now → (s.headOf q).isSome = true →
    ∃ t, exec .queueAging s = .next t ∧ t.queue? part qn = some { q with level := q.level + 1 } ∧
      { t with queues := s.queues, schedule := s.schedule, latencies := s.latencies } = s)
  ∧ (∀ (s : State) (l : Nat) (L : Launch), s.arg.nats = [l] → s.launch? l = some L → L.ended = false → L.activated = true →
    ∃ t, exec .progressInterval s = .next t ∧
      t.launch? l = some { L with rate := (L.rate + (L.exited - L.lastExited)) / 2, lastExited := L.exited } ∧
      { t with launches := s.launches, schedule := s.schedule } = s)

/-- R113, R114, R118, R121, R127, R395, R416: an order out of number is answered with status 6 and has no effect; a malformed one
with 3; one whose queues have no active launch and no standing order is accepted with 1, not yet final, and stands under
completion until its queues are found vacant, when the final response carries 4, or 5 after failures, and the counts; an
order with deadline 0 lifts what stands on its queues.
R117, R122, R123, R124, R125, R367: at an interval's end a queue that would outlive its order's deadline is switched to a
checkpoint: the launch stops, its harts are given notice and asked to reach a safe point; a queue without a fallback that
still runs near the deadline has its launch failed with status 2, which the order counts; a hart's grace ends 8,192 cycles
after the request.
Model's choices it rests on: log entry 81. -/
def Obligations.VacateOrders : Prop :=
  (∀ (s : State) (raw : BitVec 1024) (hnum : BitVec 64), s.arg.data = raw → s.arg.msg.hnum = hnum → Memory.wf s.mem.host = true →
    raw.getLsbD 1023 = true → s.arrives s.arg.msg = true →
    let part := orderPart raw
    let answered := fun (t : State) (at_ v : Nat) => Memory.num t.mem.host at_ 64 = v ∧ t.host.msix = s.host.msix ++ [3] ∧
      (∀ a, (a < at_ ∨ at_ + 64 ≤ a) → Memory.read t.mem.host a = Memory.read s.mem.host a) ∧ { t.mem with host := s.mem.host } = s.mem
    let answer := fun (status : Nat) (final : Bool) => status + orderTag raw * 2 ^ 16 + s.time % 2 ^ 64 * 2 ^ 160 + (if final then 2 ^ 511 else 0)
    (hnum ≠ s.host.hlast + 1 → ∃ t, exec .vacateOrder s = .next t ∧ answered t (orderResp raw) (answer 6 true) ∧
      t.host.hlast = s.host.hlast ∧ t.orders = s.orders ∧ t.harts = s.harts ∧ t.launches = s.launches) ∧
    (hnum = s.host.hlast + 1 → s.badOrder raw = true → ∃ t, exec .vacateOrder s = .next t ∧
      answered t (orderResp raw) (answer 3 true) ∧ t.host.hlast = hnum ∧ t.orders = s.orders ∧ t.harts = s.harts ∧ t.launches = s.launches) ∧
    (hnum = s.host.hlast + 1 → s.badOrder raw = false → orderDline raw ≠ 0 → Map.sorted s.orders = true →
      (∀ q ∈ s.namedQueues part raw, s.activeOf part q = [] ∧ s.governing part q = none) →
      ∃ t o, exec .vacateOrder s = .next t ∧ answered t (orderResp raw) (answer 1 false) ∧ t.host.hlast = hnum ∧
        Map.find t.orders (s.tag + 1) = some o ∧ o.raw = raw ∧ o.part = part ∧ o.dline = orderDline raw ∧ o.t0 = s.time ∧ o.done = false ∧
        (∀ c ∈ o.choices, c.2.1 = 1) ∧ o.choices.map (·.1) = s.namedQueues part raw ∧
        ∃ e ∈ t.schedule, e.ev = .vacancyReached ∧ e.args.nats = [s.tag + 1]) ∧
    (hnum = s.host.hlast + 1 → s.badOrder raw = false → orderDline raw = 0 → ∃ t, exec .vacateLift s = .next t ∧
      answered t (orderResp raw) (answer 1 true) ∧ t.host.hlast = hnum ∧
      (∀ k o, Map.find s.orders k = some o → Map.find t.orders k = some (if o.part = part then
        { o with choices := o.choices.filter (fun c => !(s.namedQueues part raw).contains c.1) } else o))) ∧
    (∀ oid o, s.arg.nats = [oid] → Map.find s.orders oid = some o → o.done = false → o.own = false → o.nfail < 2 ^ 16 → o.t0 < 2 ^ 64 →
      s.time < 2 ^ 64 → o.ckUsed < 2 ^ 64 → o.choices.length < 2 ^ 16 → (∀ c ∈ o.choices, s.activeOf o.part c.1 = []) →
      let n := fun (c : Nat) => (o.choices.filter (fun e => e.2.1 == c)).length
      ∃ t, exec .vacancyReached s = .next t ∧ Map.find t.orders oid = some { o with done := true } ∧
        answered t (orderResp o.raw) ((if o.nfail = 0 then 4 else 5) + orderTag o.raw * 2 ^ 16 + n 1 * 2 ^ 96 + n 2 * 2 ^ 112 + n 3 * 2 ^ 128
          + o.nfail * 2 ^ 144 + o.t0 * 2 ^ 160 + s.time * 2 ^ 224 + o.ckUsed * 2 ^ 288 + 2 ^ 511)))
  ∧
  ((∀ (s : State) (oid q l fb k : Nat) (o : Order) (L : Launch) (h : Hart), s.arg.nats = [oid] → Map.find s.orders oid = some o →
    o.done = false → s.running oid o = [q] → s.fallback o q = some (2, fb) → o.dline * 7 < s.now + interval + fb →
    s.activeOf o.part q = [(l, L)] → s.launch? l = some L → s.hartsOf l = [(k, h)] → s.hart? k = some h → h.run.preempt = none →
    Map.sorted s.harts = true →
    ∃ t, exec .vacateCheck s = .next t ∧ t.launch? l = some { L with stopping := true } ∧
      t.hart? k = some { h with run := { h.run with
        preempt := some s.now, graceOver := false, irq17 := some (BitVec.ofNat 64 (q + 2 * 2 ^ 8 + o.dline % 2 ^ 48 * 2 ^ 16)) } } ∧
      (∃ o', Map.find t.orders oid = some o' ∧ ∀ c, c ∈ o'.choices ↔ ∃ d ∈ o.choices, c = if d.1 = q then (q, 2, oid) else d) ∧
      (∃ e ∈ t.schedule, e.at_ = s.now + 8192 ∧ e.ev = .safePointGraceExpiry ∧ e.args.nats = [k, s.now]) ∧
      ∃ e ∈ t.schedule, e.at_ = s.now + interval ∧ e.ev = .vacateCheck ∧ e.args.nats = [oid])
  ∧ (∀ (s : State) (oid q l : Nat) (o : Order) (L : Launch), s.arg.nats = [oid] → Map.find s.orders oid = some o → o.done = false →
    o.dline * 7 - quiesce ≤ s.now → o.choices = [(q, 1, oid)] → (s.governing o.part q).map (·.1) = some oid →
    s.choiceOf o.part q = some 1 → s.fallback o q = none → s.activeOf o.part q = [(l, L)] → s.launch? l = some L → L.q = q → L.pkt.cmpl = 0 →
    ∃ t M p, exec .vacateDeadlineFail s = .next t ∧ t.launch? l = some M ∧ M.ended = true ∧ M.status = 2 ∧
      Map.find t.orders oid = some p ∧ p.nfail = o.nfail + 1)
  ∧ (∀ (s : State) (k c : Nat) (h : Hart), s.arg.nats = [k, c] → s.hart? k = some h → h.run.preempt = some c → c + 8192 ≤ s.now →
    ∃ t, exec .safePointGraceExpiry s = .next t ∧ OnlyHart s t k { h with run := { h.run with graceOver := true } }))

/-- R103, R367, R368, R369, R370, R372: a pre-empted hart of an open or sealed partition that stands where it is saved, with no locks,
jobs or stores to give up, enters the thread-context cache of its core with the masks of its registers; when its record is
written it leaves its slot and its launch keeps the record, and the launch whose last hart it was is parked; a memory error
leaves it stopped in its slot, with an error record of class 6.
R127, R368, R371: the saved unit of one hart of a launch that is served is restored in the slot chosen: the hart has the pc, the
level, the registers, the lanes and the supervisor registers of its record, issues again 272 cycles later, and the launch
holds the record no longer.
Model's choices it rests on: log entries 71, 72, 73. -/
def Obligations.HartsSavedAndRestored : Prop :=
  ((∀ (s : State) (k l : Nat) (h : Hart) (L : Launch) (p : Part) (m : Live), Map.sorted s.harts = true → s.hart? k = some h →
    h.role.launch = some l → s.launch? l = some L → L.pkt.gang = false → L.items = [] → s.part? h.role.part = some p →
    h.run.preempt ≠ none → s.locksOf k = [] → (s.core (coreOf k)).flight = [] → (s.core (coreOf k)).tcc.length < 4 →
    (∀ e ∈ (s.cluster (clusterOf k)).jobs, ¬ (e.2.launch = h.role.launch ∧ e.2.hidx = h.role.hidx ∧ e.2.part = h.role.part)) →
    (∀ j g, s.hart? j = some g → j ≠ k → coreOf j = coreOf k → g.run.preempt = none ∧ ∀ x v q, g.run.wait ≠ some (.swap 1 x v q)) →
    (∀ e ∈ s.harts, e.2.run.stoppedJobs = []) →
    let saved := fun (t : State) (m : Live) => ∃ h', t.hart? k = some h' ∧ h'.run.wait = some (.swap 2 m.x m.v m.p) ∧
      h'.run.resv = none ∧ h'.run.irq17 = none ∧ h'.pc = h.pc ∧ h'.priv = h.priv ∧ h'.x = h.x ∧ h'.lanes = h.lanes ∧ h'.csr = h.csr ∧
      (∀ j, j ≠ k → t.hart? j = s.hart? j) ∧ (t.core (coreOf k)).tcc = (s.core (coreOf k)).tcc ++ [k] ∧
      (∃ e ∈ t.schedule, s.now + 272 ≤ e.at_ ∧ e.ev = .contextSpill ∧ e.args.nats = [coreOf k, k]) ∧ t.mem = s.mem
    (s.arg.nats = [k] → p.sealed_ = false → h.run.wait = none → h.run.halted = false → h.run.entering = none → h.run.second = none →
      h.run.spawn = none → h.run.busyUntil ≤ s.now →
      s.saveMasks h = .ok (some m) s → ∃ t, exec .hartSave s = .next t ∧ saved t m) ∧
    (s.arg.nats = [coreOf k] → p.sealed_ = true → (∀ j, j ≠ k → coreOf j = coreOf k → s.hart? j = none) → h.run.wait = some (.swap 0 m.x m.v m.p) →
      ∃ t, exec .sealedCoreSave s = .next t ∧ saved t m ∧ (t.core (coreOf k)).inboxSaved = true))
  ∧ (∀ (s : State) (k l o x v q : Nat) (h : Hart) (L : Launch) (p : Part), s.arg.nats = [coreOf k, k] → s.hart? k = some h →
    h.run.wait = some (.swap 2 x v q) → h.role.launch = some l → s.launch? l = some L → s.part? h.role.part = some p →
    s.waitsDie L.part = false → s.spillOrder L = some o →
    (∀ u sv M, s.spillHart o l k h L p ⟨x, v, q⟩ = some (u, sv) → Map.sorted u.harts = true → u.launch? l = some M →
      ∃ t M', exec .contextSpill s = .next t ∧ t.hart? k = none ∧ t.launch? l = some M' ∧ M'.saved = M.saved ++ [sv] ∧
        ((∀ e ∈ u.harts, e.1 ≠ k → e.2.role.launch ≠ some l) → M.stopping = true → M'.parked = true)) ∧
    (s.spillHart o l k h L p ⟨x, v, q⟩ = none → p.evq = 0 → s.part? L.part = some p → p.sealed_ = false → s.ring? 1 = none →
      (∀ j g, s.hart? j = some g → coreOf j = coreOf k → ∀ x v q, g.run.wait ≠ some (.swap 1 x v q)) → Map.sorted s.harts = true →
      ∃ t, exec .contextSpill s = .next t ∧ t.hart? k = some { h with run := { h.run with saveFailed := true } } ∧
        t.host.enext = s.host.enext + 1 ∧
        ∃ r, t.host.errors.getLast? = some r ∧ r.toNat % 2 ^ 8 = 6 ∧ r.toNat / 2 ^ 128 % 2 ^ 64 = s.host.enext % 2 ^ 64)))
  ∧
  (∀ (s : State) (hd : Head) (core slot : Nat) (q : Queue) (p : Part) (sv : SavedHart), s.arg.nats = [hd.launch] → s.arg.places = [] →
    s.served.1.find? (fun h => h.launch == hd.launch) = some hd → s.launch? hd.launch = some hd.l → hd.l.saved = [sv] →
    hd.l.sections = [] → hd.l.barriers = [] → hd.l.items = [] → hd.part = hd.l.part → hd.q = hd.l.q → s.queue? hd.part hd.q = some q →
    s.part? hd.part = some p → s.waitsDie hd.part = false → (s.fits hd.launch hd.l true).head? = some [⟨core, [slot]⟩] →
    sv.liveX = 2 ^ 32 - 1 → sv.liveV = 2 ^ 64 - 1 → sv.liveP = 2 ^ 12 - 1 → sv.inbox = [] → (∀ g ∈ s.harts, g.2.run.stoppedJobs = []) →
    (s.core core).bar = [] → (s.cluster (core / 8)).bar = [] →
    let part := hd.l.part
    let a := sv.addr
    let N := fun (off n : Nat) => s.numAt part (a + off) n
    (∀ i, i < 17408 → s.standsAtHome part (a + i)) → (∀ i, i < 128 → s.standsAtHome part (sv.annex + i)) →
    (s.byteAt part a).getLsbD 0 = true → (∀ i, i < 4 → (s.byteAt part (sv.annex + 22 + i)).getLsbD 7 = false) →
    ∃ t h', exec .hartRestore s = .next t ∧ t.hart? (core * 16 + slot) = some h' ∧
      (∀ j, j ≠ core * 16 + slot → t.hart? j = s.hart? j) ∧
      (∃ M, t.launch? hd.launch = some M ∧ M.saved = [] ∧ M.next = hd.l.next ∧ M.exited = hd.l.exited) ∧
      h'.pc = BitVec.ofNat 64 (N 0 8 / 4 * 4) ∧ h'.priv = (if (s.byteAt part (a + 1016)).getLsbD 6 then .S else .U) ∧
      (∀ r : BitVec 5, r ≠ 0 → h'.getX r = BitVec.ofNat 64 (N (8 * r.toNat) 8)) ∧ h'.getX 0 = 0 ∧
      (∀ k, k < 12 → h'.getP k = BitVec.ofNat 32 (N (256 + 4 * k) 4)) ∧
      (∀ n l, n < 64 → l < 32 → h'.getV n l = BitVec.ofNat 32 (N (1024 + 128 * n + 4 * l) 4)) ∧
      h'.csr.sepc = BitVec.ofNat 64 (N 944 8 / 4 * 4) ∧ h'.csr.stvec = BitVec.ofNat 64 (N 976 8 / 4 * 4) ∧
      h'.csr.satp = (if satpMode (BitVec.ofNat 64 (N 968 8)) ∈ [0, 9, 10, 14] then BitVec.ofNat 64 (N 968 8)
        else if satpMode q.satp ∈ [0, 9, 10, 14] then q.satp else 0) ∧
      h'.csr.minstret = BitVec.ofNat 64 (s.numAt part (sv.annex + 8) 8) ∧ h'.role.launch = some hd.launch ∧ h'.role.part = part ∧
      h'.run.wait = none ∧ h'.run.busyUntil = s.now + 272 ∧ t.mem = s.mem)

/-- R395, R414, R415, R420, R423: a command whose number is not the next one answers status 8 and has no other effect (RESYNC is
taken up whatever its number); one with a reserved bit set answers 1; one before the package is ready answers 3, but for IMG-INFO
and DIE-STATUS; a code that names no command answers 1; over the management channel every other command than those of the
channel is refused.
R329, R330, R331, R335, R336, R338, R360, R393, R405: PART-SET answers 1, 2, 5, 9 or 3 to a record that is malformed, conflicts with
other partitions, asks minima that cannot be met, changes the kind of a partition, or changes a busy one; an accepted record makes
the partition, with its minima in force and an entry in its log, and the cores of a sealed one are scrubbed and owned by it;
PART-DROP leaves nothing of a partition without work; MAP-SET installs a core table that the partition may have.
Model's choices it rests on: log entries 92, 94, 96. -/
def Obligations.MailboxMessages : Prop :=
  (∀ (s : State) (i : Instr), i ∈ ([.partSet, .partDrop, .mapSet, .imgInfo, .ringSet, .qreg, .qdrop, .winSet, .fltAnsReplay,
      .fltAnsDecline, .s2Set, .pageOut, .pageIn, .dieReset, .dieStatus, .exportCmd, .dbgHalt, .dbgResume, .dbgStep, .dbgRd, .dbgWr,
      .gangStop, .gangGo, .resync, .powerSet, .domSet, .mailboxUnknownCode] : List Instr) →
    (i = .fltAnsReplay → bits s.opnd 65 64 ≠ 2) → (i = .fltAnsDecline → bits s.opnd 65 64 = 2) → (i = .dieReset → s.arg.nat 3 ≠ 1) →
    s.pkg.off = false → s.arrives s.arg.msg = true →
    (s.arg.msg.mgmt = false → i ≠ .resync → s.arg.msg.hnum ≠ s.host.hlast + 1 → exec i s = .next { s with host := { s.host with
      mboxNum := s.arg.msg.hnum, mboxStatus := 8, mboxVal := 0, mboxDone := true, msix := s.host.msix ++ [0] } }) ∧
    (s.arg.msg.mgmt = false → (i = .resync ∨ s.arg.msg.hnum = s.host.hlast + 1) → s.arg.msg.rsv ≠ 0 →
      exec i s = .next (s.commandDone s 1)) ∧
    (s.arg.msg.mgmt = false → (i = .resync ∨ s.arg.msg.hnum = s.host.hlast + 1) → s.arg.msg.rsv = 0 → s.host.ready = false →
      i ≠ .imgInfo → i ≠ .dieStatus → exec i s = .next (s.commandDone s 3)) ∧
    (MayCommand s → i = .mailboxUnknownCode → exec i s = .next (s.commandDone s 1)) ∧
    (s.arg.msg.mgmt = true → i ∉ ([.imgInfo, .dieStatus, .powerSet, .domSet, .dbgHalt, .dbgResume, .dbgStep, .dbgRd, .dbgWr, .gangStop,
      .gangGo] : List Instr) → exec i s = .next { s with host := { s.host with mgmtReply := (1, 0) } }))
  ∧
  ((∀ (s : State) (addr n : Nat), MayCommand s → s.arg.nats = [addr] →
    let v := Memory.num s.mem.host addr 1024
    let p := partOf v Part.blank
    let others := (s.parts.filter (fun e => e.1 != n)).map (·.2)
    bits v 5 0 = n →
    (badRecord v addr = true → exec .partSet s = .next (s.commandDone s 1)) ∧
    (badRecord v addr = false → p.conflicts others = true → exec .partSet s = .next (s.commandDone s 2)) ∧
    (badRecord v addr = false → p.conflicts others = false → s.badMinima p others = true → exec .partSet s = .next (s.commandDone s 5)) ∧
    (∀ o, badRecord v addr = false → p.conflicts others = false → s.badMinima p others = false → s.part? n = some o →
      (o.sealed_ ≠ v.testBit 6 → exec .partSet s = .next (s.commandDone s 9)) ∧
      (o.sealed_ = v.testBit 6 → o.cores ≠ p.cores → s.partBusy n = true → exec .partSet s = .next (s.commandDone s 3))) ∧
    (badRecord v addr = false → p.conflicts others = false → s.badMinima p others = false → s.part? n = none →
      ∃ t m, exec .partSet s = .next t ∧ s.responds t 0 ∧ t.part? n = some m ∧ (∀ q, q ≠ n → t.part? q = s.part? q) ∧
        m.sealed_ = v.testBit 6 ∧ m.slots.toNat = bits v 31 16 ∧ m.banks.toNat = bits v 63 32 ∧ m.jq = bits v 70 64 ∧
        m.tq = bits v 80 76 ∧ m.sways = bits v 147 144 ∧ m.s2root = bits v 255 192 ∧ m.evq = bits v 447 384 ∧
        m.cores.toNat = bits v 2559 512 ∧ m.inForce = (bits v 111 96, bits v 127 112, bits v 143 128) ∧
        m.nlog = (if m.sealed_ then 2 else 1) ∧ m.tmeas = s.time ∧ m.coreTable = [] ∧
        Map.find t.host.capTable n = some (bits v 111 96 + bits v 127 112 * 2 ^ 16 + bits v 143 128 * 2 ^ 32) ∧
        (∀ c, c < 2048 → (if m.sealed_ = true ∧ m.cores.getLsbD c = true
          then (t.core c).own = true ∧ (t.core c).owner.toNat = n ∧ (t.core c).spad = [] ∧ (t.core c).tlb = [] ∧ (t.core c).l1 = []
          else t.core c = s.core c)) ∧ t.mem = s.mem ∧ t.harts = s.harts))
  ∧ (∀ (s : State) (n : Nat), MayCommand s → s.arg.nats = [n] →
    (s.part? n = none → exec .partDrop s = .next (s.commandDone s 4)) ∧
    (∀ p, s.part? n = some p →
      ((∃ e ∈ s.queues, e.1 / 256 = n ∧ s.queueBusy e.2 = true) → exec .partDrop s = .next (s.commandDone s 3)) ∧
      ((∀ e ∈ s.queues, e.1 / 256 = n → s.queueBusy e.2 = false) → Map.sorted s.parts = true → Map.sorted s.host.capTable = true →
        ∃ t, exec .partDrop s = .next t ∧ s.responds t 0 ∧ t.part? n = none ∧ (∀ q, q ≠ n → t.part? q = s.part? q) ∧
          (∀ qn, qn < 256 → t.queue? n qn = none) ∧ (∀ key, keyPart key = n → Map.find t.mem.llc key = none) ∧
          Map.find t.host.capTable n = none ∧
          ∀ c, c < 2048 → p.cores.getLsbD c = true → p.sealed_ = true → (t.core c).own = false ∧ (t.core c).spad = [])))
  ∧ (∀ (s : State) (n addr : Nat), MayCommand s → s.arg.nats = [n, addr] →
    let m := coreTableOf (Memory.bytes s.mem.host addr 4096)
    (s.part? n = none → exec .mapSet s = .next (s.commandDone s 4)) ∧
    (∀ p, s.part? n = some p →
      (m = none → exec .mapSet s = .next (s.commandDone s 1)) ∧
      (∀ c, m = some c → p.badTable c = true → exec .mapSet s = .next (s.commandDone s 1)) ∧
      (∀ c, m = some c → p.badTable c = false → s.partBusy n = true → exec .mapSet s = .next (s.commandDone s 3)) ∧
      (∀ c, m = some c → p.badTable c = false → s.partBusy n = false →
        exec .mapSet s = .next (s.commandDone { s with parts := Map.put s.parts n { p with coreTable := c } } 0)))))

/-- R413, R415, R417, R418: RING-SET registers a ring whose size and alignment are legal, and the error records kept until then are
written to it; QREG registers a queue with both index words 0, or answers 1 (malformed), 4 (no such partition) or 2 (registered);
QDROP removes an idle queue, or answers 4 or 3; WIN-SET sets a partition's window.
R315, R317, R318, R321, R322, R342, R413, R375, R415: an answer that names no posted record has no effect; a replay ends the record and
lets the waiting hart execute again; a decline also makes the page's access fault at it; `fcons` lets records held back be
posted; the heat controls and the registers without a row of their own take what is written, but for the debug block of an owned
core, whose writes are discarded; a read of the debug block, the heat array or BAR 0 answers what they hold.
Model's choices it rests on: log entries 88, 89, 140. -/
def Obligations.RingsQueuesAndFaultAnswers : Prop :=
  ((∀ (s : State) (w k hpa : Nat), MayCommand s → s.opnd % 2 = w → bits s.opnd 5 1 = k → bits s.opnd 127 64 = hpa →
    let u : State := { s with host := { s.host with rings := Map.put s.host.rings w (hpa, k) } }
    ((k < 6 ∨ 16 < k ∨ hpa % (64 * 2 ^ k) ≠ 0) → exec .ringSet s = .next (s.commandDone s 1)) ∧
    (6 ≤ k → k ≤ 16 → hpa % (64 * 2 ^ k) = 0 →
      (w = 0 → exec .ringSet s = .next (s.commandDone (u.plan 0 .faultRecordDeferred {}) 0)) ∧
      (w = 1 → s.host.errors = [] → exec .ringSet s = .next (s.commandDone u 0)) ∧
      (∀ r, w = 1 → s.host.errors = [r] → Memory.wf s.mem.host = true → ∃ t, exec .ringSet s = .next t ∧ s.responds t 0 ∧
        t.host.errors = [] ∧ t.host.msix = s.host.msix ++ [2, 0] ∧
        Memory.num t.mem.host (hpa + 64 * (bits r.toNat 191 128 % 2 ^ k)) 64 = r.toNat)))
  ∧ (∀ (s : State) (n qn : Nat), MayCommand s → bits s.opnd 5 0 = n → bits s.opnd 15 8 = qn →
    let o := s.opnd
    let q := queueOf o
    (badQreg o = true → exec .qreg s = .next (s.commandDone s 1)) ∧
    (badQreg o = false → s.part? n = none → exec .qreg s = .next (s.commandDone s 4)) ∧
    (∀ p, badQreg o = false → s.part? n = some p → p.sealed_ = false →
      (∀ e, s.queue? n qn = some e → exec .qreg s = .next (s.commandDone s 2)) ∧
      (s.queue? n qn = none → s.standsAtHome n q.prod → s.standsAtHome n q.cons → q.prod < 2 ^ 52 → q.cons < 2 ^ 52 →
        ∃ t e, exec .qreg s = .next t ∧ s.responds t 0 ∧ t.queue? n qn = some e ∧ e.ring = bits o 127 64 ∧ e.n = bits o 20 16 ∧
          e.prod = bits o 191 128 ∧ e.cons = bits o 255 192 ∧ e.prio = bits o 23 21 ∧ e.wt = bits o 31 24 ∧ e.sup = bits o 319 256 ∧
          e.consIdx = 0 ∧ e.launches = [] ∧ e.checked = false ∧ t.numAt n q.prod 8 = 0 ∧ t.numAt n q.cons 8 = 0 ∧
          (∀ a, a < 2 ^ 52 → (a < q.prod ∨ q.prod + 8 ≤ a) → (a < q.cons ∨ q.cons + 8 ≤ a) → t.byteAt n a = s.byteAt n a) ∧
          ∃ v ∈ t.schedule, v.ev = .packetCheck ∧ v.args.nats = [n, qn])))
  ∧ (∀ (s : State) (n qn : Nat), MayCommand s → bits s.opnd 5 0 = n → bits s.opnd 15 8 = qn →
    (s.queue? n qn = none → exec .qdrop s = .next (s.commandDone s 4)) ∧
    (∀ q, s.queue? n qn = some q → s.standsAtHome n q.prod → q.prod < 2 ^ 52 → q.prod % 8 = 0 →
      let read := fun (t : State) => CachesOnly s t ∧ { t with cores := s.cores } = s
      ((s.numAt n q.prod 8 ≠ q.consIdx % 2 ^ 64 ∨ s.queueBusy q = true) →
        ∃ t, read t ∧ exec .qdrop s = .next (s.commandDone t 3)) ∧
      (s.numAt n q.prod 8 = q.consIdx % 2 ^ 64 → s.queueBusy q = false →
        ∃ t, read t ∧ exec .qdrop s = .next (s.commandDone { t with queues := Map.del s.queues (n * 256 + qn) } 0))))
  ∧ ∀ (s : State) (n : Nat), MayCommand s → bits s.opnd 5 0 = n →
    (s.part? n = none → exec .winSet s = .next (s.commandDone s 4)) ∧
    (∀ p, s.part? n = some p → exec .winSet s = .next (s.commandDone { s with
      parts := Map.put s.parts n { p with winBase := some (bits s.opnd 79 64 * 2 ^ 36) } } 0)))
  ∧
  ((∀ (s : State), MayCommand s → (∀ f ∈ s.host.faults, f.posted = true → f.seq ≠ bits s.opnd 63 0) →
    (bits s.opnd 65 64 = 1 → exec .fltAnsReplay s = .next (s.commandDone s 0)) ∧
    (bits s.opnd 65 64 = 2 → exec .fltAnsDecline s = .next (s.commandDone s 0)))
  ∧ (∀ (s : State) (f : FaultRec) (k : Nat) (h : Hart), MayCommand s → s.host.faults = [f] → f.posted = true → f.seq = bits s.opnd 63 0 →
    f.harts = [k] → f.jobs = [] → f.walks = [] → f.stores = [] → f.launches = [] → s.heldLines f = [] → s.hart? k = some h →
    h.run.wait = some .replay → h.role.part = f.part →
    let ended := fun (t : State) (pages : List Nat) => s.responds t 0 ∧ t.host.faults = [] ∧ t.mem = s.mem ∧
      (∀ j, j ≠ k → t.hart? j = s.hart? j) ∧ ∃ g, t.hart? k = some g ∧ g.run.wait = none ∧ g.run.busyUntil = s.now + 1 ∧
        g.run.declined = pages ++ h.run.declined ∧ g.pc = h.pc ∧ g.x = h.x ∧ g.csr = h.csr ∧ g.lanes = h.lanes
    (bits s.opnd 65 64 = 1 → ∃ t, exec .fltAnsReplay s = .next t ∧ ended t []) ∧
    (bits s.opnd 65 64 = 2 → ∃ t, exec .fltAnsDecline s = .next t ∧
      ended t (if f.cause = 2 then (List.range 16).map (fun i => f.page * 16 + i) else [f.page])))
  ∧ (∀ (s : State) (v : Nat), s.arg.nats = [v] → exec .fconsWrite s =
    .next (({ s with host := { s.host with fcons := BitVec.ofNat 64 v } } : State).plan 0 .faultRecordDeferred {}))
  ∧ (∀ (s : State) (n v : Nat), s.arg.nats = [n, v] →
    (s.arg.ok = false → exec .heatControlWrite s =
      .next { s with ctrls := Map.put s.ctrls n { hk := BitVec.ofNat 4 v, hen := v.testBit 4, c := 0 } }) ∧
    (s.arg.ok = true → ∃ t, exec .heatControlWrite s = .next t ∧ t.pkg = { s.pkg with hn := BitVec.ofNat 5 v } ∧
      { t with pkg := s.pkg, parts := s.parts, fresh := s.fresh } = s))
  ∧ ∀ (s : State) (kind a i : Nat), s.arg.nats = [kind, a, i] →
    let v := s.arg.data.setWidth 128
    let dbg := fun (f : Debug → Debug) => exec .registerWrite s = .next { s with cores := Map.put s.cores a { s.core a with dbg := f (s.core a).dbg } }
    (kind ≤ 2 → (s.core a).own = true → ∃ t, exec .registerWrite s = .next t ∧ (∀ c, t.core c = s.core c) ∧ { t with cores := s.cores } = s) ∧
    ((s.core a).own = false →
      (kind = 0 → i < 8 → dbg (fun d => { d with pcCmp := d.pcCmp.set! i (v &&& 0x000CFFFFFFFFFFFFFFFFFFFFFFFFFFFF) })) ∧
      (kind = 1 → i < 4 → dbg (fun d => { d with dataCmp := d.dataCmp.set! i (v &&& 0x000FFFFFFFFFFFFFFFFFFFFFFFFFFFFB) })) ∧
      (kind = 2 → dbg (fun d => { d with ebh := v.getLsbD 0 }))) ∧
    (∀ p, s.part? a = some p →
      (kind = 3 → exec .registerWrite s = .next { s with parts := Map.put s.parts a { p with
        heatAt := Map.put p.heatAt i (bits v.toNat 15 0, bits v.toNat 63 16) } }) ∧
      (kind = 4 → exec .registerWrite s = .next { s with parts := Map.put s.parts a { p with heatAt := [], heatFree := none } })) ∧
    (kind = 5 → exec .registerWrite s = .next { s with host := { s.host with hdm := a } }) ∧
    (kind = 6 → exec .registerWrite s = .next { s with host := { s.host with reply := some (((s.core a).debugRead i).setWidth 1024) } }) ∧
    (kind = 7 → ∀ p, s.part? a = some p → exec .registerWrite s = .next { s with host := { s.host with
      reply := some (BitVec.ofNat 1024 ((p.heatOf i).1 + (p.heatOf i).2 * 2 ^ 16)) } }) ∧
    (kind = 8 → exec .registerWrite s = .next { s with host := { s.host with reply := some (BitVec.ofNat 1024 (s.bar0 a)) } }) ∧
    (8 < kind → exec .registerWrite s = .next s))

/-- R314, R337, R338, R340, R341, R342, R422: S2-SET refuses what is malformed, a partition that is not there, and a range without a
table; else it recalls the range's lines to their old place and writes the leaf; PAGE-OUT exports a page whose lines hold under
the next version, with its MACs; PAGE-IN takes back a record of that version whose MACs hold, and answers anything else with 6 and
an error record; EXPORT adds an entry to the table of an open partition.
R350, R353, R354, R391, R396, R408, R415, R419, R421, R423, R424: IMG-INFO and DIE-STATUS write what the rules lay out, before the package
is ready too; RESYNC takes any number and writes the sequence numbers, posting the outstanding records again where asked;
POWER-SET takes a legal limit; DOM-SET is taken over the management channel before bring-up step 6 alone; DIE-RESET is refused
for what can have no reset, and planned, after the vacate orders of what runs on the die where asked.
Model's choices it rests on: log entries 90, 91, 100, 104, 134, 135, 136. -/
def Obligations.PagesAndPackageCommands : Prop :=
  ((∀ (s : State) (part sz gpa leaf : Nat), MayCommand s → Memory.wf s.mem.hbm = true → bits s.opnd 5 0 = part → bits s.opnd 7 6 = sz →
    bits s.opnd 127 64 = gpa → bits s.opnd 191 128 = leaf →
    let size := if sz = 0 then 4096 else if sz = 1 then 65536 else 2097152
    let bad := bits s.opnd 63 8 ≠ 0 ∨ bits s.opnd 383 192 ≠ 0 ∨ sz = 3 ∨ gpa % size ≠ 0 ∨ 2 ^ 52 ≤ gpa ∨ leaf.testBit 1 = false ∨
      bits leaf 11 5 ≠ 0 ∨ bits leaf 63 52 ≠ 0
    (bad → exec .s2Set s = .next (s.commandDone s 1)) ∧
    (¬ bad → s.part? part = none → exec .s2Set s = .next (s.commandDone s 4)) ∧
    (∀ p, ¬ bad → s.part? part = some p →
      let level := if sz = 2 then 3 else 4
      (s2Table s.mem.hbm p.sealed_ gpa level p.s2root 0 = none → exec .s2Set s = .next (s.commandDone s 1)) ∧
      (∀ table, s2Table s.mem.hbm p.sealed_ gpa level p.s2root 0 = some table →
        let n := if sz = 1 then 16 else 1
        let v := if sz = 1 then Nat.lor leaf 16 else leaf
        let e := table + 8 * (if sz = 2 then bits gpa 29 21 else bits gpa 20 12)
        (s.linesIn part gpa size = [] → ∃ t, exec .s2Set s = .next t ∧ s.responds t 0 ∧ t.harts = s.harts ∧
          { t.mem with hbm := s.mem.hbm } = s.mem ∧
          ∀ b, Memory.read t.mem.hbm b = if e ≤ b ∧ b < e + 8 * n then BitVec.ofNat 8 (v / 256 ^ ((b - e) % 8)) else Memory.read s.mem.hbm b) ∧
        (∀ x a r l, p.sealed_ = false → Map.sorted s.mem.llc = true → x % 128 = 0 → s.linesIn part gpa size = [(lineKey part x, l)] →
          l.dirty = true → l.held = false → l.poison = false → p.range? x = some r → s.stage2 p r x = .hbm a → x < 2 ^ 52 →
          (∀ i, i < 8 * n → (e + i) / 128 ≠ a / 128) → ∃ t, exec .s2Set s = .next t ∧ s.responds t 0 ∧
            Map.find t.mem.llc (lineKey part x) = none ∧ (∀ b, b / 128 = a / 128 → Memory.read t.mem.hbm b = lineByte l.data (b % 128)) ∧
            ∀ b, e ≤ b → b < e + 8 * n → Memory.read t.mem.hbm b = BitVec.ofNat 8 (v / 256 ^ ((b - e) % 8))))))
  ∧ (∀ (s : State) (part gpa hpa buf : Nat), MayCommand s → s.arg.nats = [part, gpa, hpa, buf] → Memory.wf s.mem.host = true →
    (s.part? part = none → exec .pageOut s = .next (s.commandDone s 4)) ∧
    (∀ p, s.part? part = some p →
      (p.keys = none → exec .pageOut s = .next (s.commandDone s 1)) ∧
      (∀ k, p.keys = some k →
        ((gpa % 4096 ≠ 0 ∨ hpa % 4096 ≠ 0 ∨ s.reservedHpa hpa = true) → exec .pageOut s = .next (s.commandDone s 1)) ∧
        (gpa % 4096 = 0 → hpa % 4096 = 0 → s.reservedHpa hpa = false →
          (s2Away s.mem.hbm gpa 5 p.s2root 0 = false → exec .pageOut s = .next (s.commandDone s 3)) ∧
          (s2Away s.mem.hbm gpa 5 p.s2root 0 = true →
            let line := fun (i : Nat) => Memory.line s.mem.hbm (hpa + 128 * i)
            let fails := (∃ i, i < 32 ∧ hbmLine hpa + i ∈ s.mem.poisonAt) ∨
              ∃ i, i < 32 ∧ s.mem.macAt (hbmLine hpa + i) ≠ lineMac k.mac (gpa / 128 + i) (line i)
            let key := part * 2 ^ 40 + gpa / 4096
            let v := Map.findD s.mem.versions key 0 + 1
            (fails → ∃ t, exec .pageOut s = .next t ∧ s.responds t 6 ∧ t.host.enext = s.host.enext + 1 ∧
              t.mem.versions = s.mem.versions) ∧
            (¬ fails → Map.find s.mem.versions key = none → 2 ^ 24 ≤ s.mem.versions.length →
              exec .pageOut s = .next (s.commandDone s 7)) ∧
            (¬ fails → (Map.find s.mem.versions key ≠ none ∨ s.mem.versions.length < 2 ^ 24) → gpa < 2 ^ 52 → v < 2 ^ 64 →
              ∃ t, exec .pageOut s = .next t ∧ s.responds t 0 ∧ Map.find t.mem.versions key = some v ∧
                (∀ i, i < 32 → Memory.num t.mem.host (buf + 128 * i) 128 = (line i).toNat ∧
                  Memory.num t.mem.host (buf + 4096 + 6 * i) 6 = (lineMac k.mac (gpa / 128 + i) (line i)).toNat) ∧
                Memory.num t.mem.host (buf + 4288) 8 = gpa ∧ Memory.num t.mem.host (buf + 4296) 8 = v ∧
                Memory.num t.mem.host (buf + 4304) 8 = (pageMac k.mac (Memory.bytes t.mem.host (buf + 4096) 208)).toNat ∧
                Memory.num t.mem.host (buf + 4312) 40 = 0 ∧
                (∀ b, (b < buf ∨ buf + 4352 ≤ b) → Memory.read t.mem.host b = Memory.read s.mem.host b) ∧
                { t.mem with versions := s.mem.versions, host := s.mem.host } = s.mem ∧ t.harts = s.harts))))))
  ∧ (∀ (s : State) (part gpa buf hpa : Nat) (p : Part) (k : SealKeys), MayCommand s → s.arg.nats = [part, gpa, buf, hpa] →
    s.part? part = some p → p.keys = some k → gpa % 4096 = 0 → hpa % 4096 = 0 → s.reservedHpa hpa = false → Memory.wf s.mem.hbm = true →
    Map.sorted s.mem.sealedAt = true →
    let mac := fun (i : Nat) => Memory.num s.mem.host (buf + 4096 + 6 * i) 6
    let line := fun (i : Nat) => Memory.line s.mem.host (buf + 128 * i)
    let exported := Memory.num s.mem.host (buf + 4288) 8 = gpa ∧
      Memory.num s.mem.host (buf + 4296) 8 = Map.findD s.mem.versions (part * 2 ^ 40 + gpa / 4096) 0 ∧
      Memory.num s.mem.host (buf + 4304) 8 = (pageMac k.mac (Memory.bytes s.mem.host (buf + 4096) 208)).toNat ∧
      ∀ i, i < 32 → mac i = (lineMac k.mac (gpa / 128 + i) (line i)).toNat
    (exported → ∃ t, exec .pageIn s = .next t ∧ s.responds t 0 ∧ (∀ i, i < 32 → Memory.line t.mem.hbm (hpa + 128 * i) = line i ∧
      Map.find t.mem.sealedAt (hbmLine hpa + i) = some ⟨part, BitVec.ofNat 48 (mac i)⟩ ∧ hbmLine hpa + i ∉ t.mem.poisonAt) ∧
      { t.mem with hbm := s.mem.hbm, sealedAt := s.mem.sealedAt, poisonAt := s.mem.poisonAt } = s.mem ∧ t.harts = s.harts) ∧
    (¬ exported → (∀ f ∈ s.host.faults, f.part = part → gpa / 4096 ∉ f.pages) →
      ∃ t, exec .pageIn s = .next t ∧ s.responds t 6 ∧ t.host.enext = s.host.enext + 1 ∧ t.mem.hbm = s.mem.hbm ∧
        t.mem.sealedAt = s.mem.sealedAt ∧ t.mem.versions = s.mem.versions))
  ∧ ∀ (s : State) (part : Nat), MayCommand s → bits s.opnd 5 0 = part →
    (s.part? part = none → exec .exportCmd s = .next (s.commandDone s 4)) ∧
    (∀ p, s.part? part = some p →
      (p.sealed_ = true → exec .exportCmd s = .next (s.commandDone s 1)) ∧
      (p.sealed_ = false → 64 ≤ p.exports.length → exec .exportCmd s = .next (s.commandDone s 7)) ∧
      (p.sealed_ = false → p.exports.length < 64 → exec .exportCmd s = .next (s.commandDone { s with
        parts := Map.put s.parts part { p with exports := p.exports ++
          [⟨bits s.opnd 17 8, bits s.opnd 23 18, bits s.opnd 127 64, bits s.opnd 191 128, bits s.opnd 223 192⟩] } } 0))))
  ∧
  ((∀ (s : State) (buf : Nat), s.pkg.off = false → s.arrives s.arg.msg = true → s.arg.msg.mgmt = false → s.arg.msg.rsv = 0 → s.arg.msg.hnum = s.host.hlast + 1 →
    s.arg.nats = [buf] → Memory.wf s.mem.host = true →
    let wrote := fun (t : State) (n : Nat) => s.responds t 0 ∧ { t.mem with host := s.mem.host } = s.mem ∧ t.harts = s.harts ∧
      ∀ b, (b < buf ∨ buf + n ≤ b) → Memory.read t.mem.host b = Memory.read s.mem.host b
    (∃ t, exec .imgInfo s = .next t ∧ wrote t 32 ∧ Memory.num t.mem.host buf 8 = s.pkg.emask.toNat ∧ Memory.num t.mem.host (buf + 8) 8 = 0x8000000000000110 ∧
      Memory.num t.mem.host (buf + 16) 8 = 0x100 ∧ Memory.num t.mem.host (buf + 24) 8 = ((List.range 2048).filter (fun c =>
        (s.core c).inService && (s.die (c / 256)).st == 5)).length) ∧
    (∃ t, exec .dieStatus s = .next t ∧ wrote t 160 ∧ ∀ d, d < 10 → Memory.num t.mem.host (buf + 16 * d) 16 =
      (s.die d).st % 8 + (s.die d).why % 256 * 2 ^ 8 + (s.die d).nres % 256 * 2 ^ 16 + (s.die d).tst % 2 ^ 64 * 2 ^ 64))
  ∧ (∀ (s : State) (buf rep : Nat), s.pkg.off = false → s.arrives s.arg.msg = true → s.arg.msg.mgmt = false → s.arg.msg.rsv = 0 → s.host.ready = true →
    s.arg.nats = [buf, rep] → Memory.wf s.mem.host = true → s.host.hbusy = [] →
    let outs := s.host.faults
    let v := s.arg.msg.hnum.toNat + s.arg.msg.hnum.toNat * 2 ^ 64 + s.host.fnext % 2 ^ 64 * 2 ^ 128 + s.host.enext % 2 ^ 64 * 2 ^ 192 +
      min 4096 outs.length * 2 ^ 256 + s.pkg.boot.toNat * 2 ^ 272
    (rep % 2 = 0 → ∃ t, exec .resync s = .next t ∧ s.responds t 0 ∧ Memory.num t.mem.host buf 64 = v ∧ t.host.faults = s.host.faults ∧
      ∀ b, (b < buf ∨ buf + 64 ≤ b) → Memory.read t.mem.host b = Memory.read s.mem.host b) ∧
    (∀ base k f p, rep % 2 = 1 → s.ring? 0 = some (base, k) → outs = [f] → f.posted = true → s.part? f.part = some p →
      (base + 64 * 2 ^ k ≤ buf ∨ buf + 64 ≤ base) → ∃ t, exec .resync s = .next t ∧ s.responds t 0 ∧ Memory.num t.mem.host buf 64 = v ∧
        Memory.num t.mem.host (base + 64 * (f.seq % 2 ^ k)) 64 = (f.bits p.sealed_).toNat))
  ∧ (∀ (s : State) (plim idle : Nat), MayCommand s → bits s.opnd 11 0 = plim → bits s.opnd 47 16 = idle →
    ((plim < 1000 ∨ 3000 < plim ∨ bits s.opnd 15 12 ≠ 0) → exec .powerSet s = .next (s.commandDone s 1)) ∧
    (1000 ≤ plim → plim ≤ 3000 → bits s.opnd 15 12 = 0 → ∃ t, exec .powerSet s = .next t ∧ s.responds t 0 ∧
      t.pkg = { s.pkg with plim := plim, gidle := idle } ∧ t.harts = s.harts ∧ t.mem = s.mem ∧ t.parts = s.parts))
  ∧ (∀ (s : State), (MayCommand s → exec .domSet s = .next (s.commandDone s 1)) ∧
    (s.pkg.off = false → s.arrives s.arg.msg = true → s.arg.msg.mgmt = true →
      (6 ≤ s.host.stage → exec .domSet s = .next { s with host := { s.host with mgmtReply := (9, 0) } }) ∧
      (s.host.stage < 6 → exec .domSet s = .next { s with
        pkg := { s.pkg with number := bits s.opnd 8 0, domain := bits s.opnd 18 9 }
        host := { s.host with mgmtReply := (0, 0) } })))
  ∧ ∀ (s : State) (d ck T : Nat), MayCommand s → s.arg.nats = [d, ck, T] →
    (9 < d → exec .dieReset s = .next (s.commandDone s 1)) ∧
    ((d = 8 ∨ d ≤ 9 ∧ (s.die d).st ≠ 5 ∧ (s.die d).st ≠ 6) → exec .dieReset s = .next (s.commandDone s 3)) ∧
    (d ≤ 9 → d ≠ 8 → ((s.die d).st = 5 ∨ (s.die d).st = 6) →
      (ck % 2 = 0 → exec .dieReset s = .next (s.commandDone (s.plan 0 .dieReset { nats := [d, 0, 0, 1, (s.die d).nres] }) 0)) ∧
      (∀ l L, ck % 2 = 1 → s.launchesOn d = [l] → s.launch? l = some L → L.part < 64 → T < 2 ^ 64 → s.now ≤ T * 7 →
        (∃ t o, exec .dieReset s = .next t ∧ s.responds t 0 ∧ Map.find t.orders (s.tag + 1) = some o ∧ o.own = true ∧ o.part = L.part ∧
          o.dline = T ∧ (t.die d).lifts = (s.die d).lifts ++ [s.tag + 1] ∧
          ∃ e ∈ t.schedule, e.at_ = T * 7 ∧ e.ev = .dieReset ∧ e.args.nats = [d, 0, 0, 1, (s.die d).nres]))))

/-- R371, R376, R377, R423: DBG-HALT asks a resident hart to halt, DBG-RESUME and DBG-STEP let a halted one go on, DBG-RD and DBG-WR read
and write a halted hart's record, unless its partition is sealed (9); any other hart answers 3; GANG-STOP stops a partition, its
cores' stop records written, and GANG-GO lets its harts and jobs go on.
Model's choices it rests on: log entries 95, 96, 97. -/
def Obligations.DebugCommands : Prop :=
  (∀ (s : State) (k : Nat), s.mayDebug → s.arg.nats = [k] →
    (s.hart? k = none → ∀ i ∈ ([.dbgHalt, .dbgResume, .dbgStep] : List Instr), exec i s = .next (s.commandReply s 3)) ∧
    (∀ h, s.hart? k = some h →
      (h.run.halted = true → exec .dbgHalt s = .next (s.commandReply s 0)) ∧
      (h.run.halted = false → exec .dbgHalt s = .next (s.commandReply { s with
        harts := Map.put s.harts k { h with run := { h.run with haltReq := true } } } 0)) ∧
      (h.run.halted = false → ∀ i ∈ ([.dbgResume, .dbgStep] : List Instr), exec i s = .next (s.commandReply s 3)) ∧
      (h.run.halted = true → ∀ i ∈ ([.dbgResume, .dbgStep] : List Instr), exec i s = .next (s.commandReply { s with
        harts := Map.put s.harts k { h with run := { h.run with
          halted := false, haltReq := false, amber := false, stepping := (i == .dbgStep), passCmp := true, busyUntil := s.now + 1 } } } 0))))
  ∧ (∀ (s : State) (k off n : Nat), s.mayDebug → s.arg.nats = [k, off, n] →
    (s.hart? k = none → ∀ i ∈ ([.dbgRd, .dbgWr] : List Instr), exec i s = .next (s.commandReply s 3)) ∧
    (∀ h, s.hart? k = some h → ∀ i ∈ ([.dbgRd, .dbgWr] : List Instr),
      (s.sealedHart h = true → exec i s = .next (s.commandReply s 9)) ∧
      (s.sealedHart h = false → h.run.halted = false → exec i s = .next (s.commandReply s 3))) ∧
    (∀ h, s.hart? k = some h → s.sealedHart h = false → h.run.halted = true →
      (∀ r : BitVec 5, r ≠ 0 → off = 8 * r.toNat → n = 8 →
        exec .dbgRd s = .next (s.commandReply { s with host := { s.host with mboxBuf := bytesOfNat (h.getX r).toNat 8 } } 0)) ∧
      (∀ v l, v < 64 → l < 32 → off = 1024 + 128 * v + 4 * l → n = 4 →
        exec .dbgRd s = .next (s.commandReply { s with host := { s.host with mboxBuf := bytesOfNat (h.getV v l).toNat 4 } } 0)) ∧
      (∀ r : BitVec 5, r ≠ 0 → off = 8 * r.toNat → n = 8 → ∃ g, exec .dbgWr s = .next (s.commandReply { s with harts := Map.put s.harts k g } 0) ∧
        g.getX r = s.arg.data.setWidth 64 ∧ (∀ q, q ≠ r → q ≠ 0 → g.getX q = h.getX q) ∧
        (∀ v l, v < 64 → l < 32 → g.getV v l = h.getV v l) ∧ (∀ q, q < 12 → g.getP q = h.getP q) ∧
        g.csr.sepc = h.csr.sepc ∧ g.csr.stvec = h.csr.stvec ∧ g.csr.satp = h.csr.satp ∧ g.csr.minstret = h.csr.minstret ∧
        g.role = h.role ∧ g.run.halted = true)))
  ∧ ∀ (s : State) (n : Nat), s.mayDebug → s.arg.nats = [n] →
    (s.part? n = none → ∀ i ∈ ([.gangStop, .gangGo] : List Instr), exec i s = .next (s.commandReply s 4)) ∧
    (∀ p, s.part? n = some p →
      (∃ t, exec .gangStop s = .next t ∧ t.part? n = some { p with stopped := true } ∧ (∀ q, q ≠ n → t.part? q = s.part? q) ∧
        (∀ k, t.hart? k = (s.hart? k).map (fun h => if h.role.part = n ∧ h.run.halted = false then
          { h with run := { h.run with amber := true } } else h)) ∧
        (∀ c, c < 2048 → t.core c = if p.cores.getLsbD c = true then
          { s.core c with dbg := { (s.core c).dbg with stop := 0#64 ++ (s.core c).nrcvd ++ (s.core c).nsent ++ BitVec.ofNat 64 s.now } }
          else s.core c) ∧ t.mem = s.mem) ∧
      (∃ t, exec .gangGo s = .next t ∧ t.part? n = some { p with stopped := false } ∧ (∀ q, q ≠ n → t.part? q = s.part? q) ∧
        (∀ k, t.hart? k = (s.hart? k).map (fun h => if h.role.part = n ∧ h.run.amber = true then
          { h with run := { h.run with halted := false, amber := false, passCmp := true, busyUntil := s.now + 1 } } else h)) ∧
        (∀ cl slot j, cl ∈ s.clusters.map (·.1) → Map.sorted (s.cluster cl).jobs = true → s.job? cl slot = some j → j.part = n →
          j.state = .running → ∃ g, t.job? cl slot = some g ∧ g.stopped = false) ∧ t.mem = s.mem))

/-- R157, R311, R337, R355, R412, R413, R421, R422: what the host and other packages reach: the raw window, at the memory controller, where a
poisoned line answers poison and a write of a whole line ends it (R386), but for the region reserved at bring-up, where a page in a stage-2 table answers an undefined value confined to the line; a partition's window, at the line's home slice,
closed on a sealed partition but for rings and index words; a back-invalidation, which writes a pool line's copy back and
removes it; a request of another package, where an export covers it, else an access fault there.
Model's choices it rests on: log entries 98, 99, 136. -/
def Obligations.OutsideAccesses : Prop :=
  (∀ (s : State) (x : HostAccess), s.arg.access = x →
    let n := min x.size (128 - x.addr % 128)
    let sealed_ := (Map.find s.mem.sealedAt (x.addr / 128)).isSome
    let inside := x.addr < 2 ^ 40 ∧ s.reservedHpa x.addr = false
    (¬ inside → (x.write = none → exec .hostRawAccess s = .next { s with host := { s.host with reply := none } }) ∧
      (x.write ≠ none → exec .hostRawAccess s = .next s)) ∧
    (inside → (s.mapped x.addr = false ∨ sealed_ = true) →
      (x.write = none → exec .hostRawAccess s = .next { s with host := { s.host with
        reply := if s.mem.poisonAt.contains (x.addr / 128) then none else some (BitVec.ofNat 1024 (Memory.num s.mem.hbm x.addr n)) } }) ∧
      (∀ v, x.write = some v → Memory.wf s.mem.hbm = true → ∃ t, exec .hostRawAccess s = .next t ∧
        (∀ b, Memory.read t.mem.hbm b = if x.addr ≤ b ∧ b < x.addr + n then BitVec.ofNat 8 (v.toNat / 256 ^ (b - x.addr)) else Memory.read s.mem.hbm b) ∧
        (∀ l, l ∈ t.mem.poisonAt ↔ l ∈ s.mem.poisonAt ∧ ¬ (n = 128 ∧ l = x.addr / 128)) ∧
        { t.mem with hbm := s.mem.hbm, poisonAt := s.mem.poisonAt } = s.mem ∧ { t with mem := s.mem } = s)) ∧
    (inside → s.mapped x.addr = true → sealed_ = false → ∃ t, exec .hostRawAccess s = .next t ∧
      (x.write = none → t.mem = s.mem ∧ if s.mem.poisonAt.contains (x.addr / 128) then t.host.reply = none
        else ∃ v, t.host.reply = some v ∧ v.toNat < 2 ^ (8 * n)) ∧
      (Memory.wf s.mem.hbm = true → ∀ b, b / 128 ≠ x.addr / 128 → Memory.read t.mem.hbm b = Memory.read s.mem.hbm b) ∧
      (∀ key, s.hpaOf (keyPart key) (keyGpa key) / 128 ≠ x.addr / 128 → Map.find t.mem.llc key = Map.find s.mem.llc key) ∧
      { t with mem := s.mem, host := s.host, fresh := s.fresh } = s))
  ∧ (∀ (s : State) (part : Nat) (x : HostAccess), s.arg.nats = [part] → s.arg.access = x →
    let fails := exec .hostWindowAccess s = .next { s with host := { s.host with reply := none } }
    (s.part? part = none → fails) ∧
    (∀ p, s.part? part = some p → (p.winBase = none → fails) ∧
      (∀ b, p.winBase = some b →
        let gpa := b + x.addr % 2 ^ 36
        let n := min x.size (128 - gpa % 128)
        (p.range? gpa = none → fails) ∧
        (∀ r c u, p.range? gpa = some r → s.windowOpen part p gpa n = true → s.atHome part gpa = .absent c u →
          exec .hostWindowAccess s = .next { u with host := { u.host with reply := none } }) ∧
        (∀ r, p.range? gpa = some r → s.windowOpen part p gpa n = false →
          (x.write = none → exec .hostWindowAccess s = .next { s with host := { s.host with reply := some 0 } }) ∧
          (x.write ≠ none → exec .hostWindowAccess s = .next s)) ∧
        (s.standsAtHome part gpa → gpa < 2 ^ 52 → s.windowOpen part p gpa n = true →
          (x.write = none → ∃ t, CachesOnly s t ∧ { t with cores := s.cores } = s ∧ exec .hostWindowAccess s =
            .next { t with host := { t.host with reply := some (BitVec.ofNat 1024 (s.numAt part gpa n)) } }) ∧
          (∀ v, x.write = some v → ∃ t, exec .hostWindowAccess s = .next t ∧ WritesBytes s t part gpa (bytesOfNat v.toNat n) ∧
            ∀ k, OtherHart part gpa (s.hart? k) (t.hart? k))))))
  ∧ (∀ (s : State) (x : HostAccess) (part g a : Nat) (p : Part) (r : Range) (l : LlcLine), s.arg.access = x → s.part? part = some p →
    p.sealed_ = false → g < 2 ^ 52 → p.range? g = some r → s.stage2 p r g = .pool a → a / 128 = x.addr / 128 → g % 128 = 0 →
    Map.sorted s.mem.llc = true → Memory.wf s.mem.pool = true → Map.find s.mem.llc (lineKey part g) = some l → l.poison = false →
    (∀ e ∈ s.mem.llc, e.1 ≠ lineKey part g → ∀ q o b, s.part? (keyPart e.1) = some q → q.range? (keyGpa e.1) = some o →
      s.stage2 q o (keyGpa e.1) = .pool b → b / 128 ≠ x.addr / 128) →
    ∃ t, exec .poolBackInvalidate s = .next t ∧ Map.find t.mem.llc (lineKey part g) = none ∧
      (∀ key, key ≠ lineKey part g → Map.find t.mem.llc key = Map.find s.mem.llc key) ∧
      ∀ b, Memory.read t.mem.pool b =
        let under := if l.dirty = true ∧ b / 128 = x.addr / 128 then lineByte l.data (b % 128) else Memory.read s.mem.pool b
        match x.write with
        | none => under
        | some v => if x.addr ≤ b ∧ b < x.addr + min x.size (128 - x.addr % 128) then BitVec.ofNat 8 (v.toNat / 256 ^ (b - x.addr)) else under)
  ∧ ∀ (s : State) (pkg from_ : Nat) (x : HostAccess), s.arg.nats = [pkg, from_] → s.arg.access = x →
    (s.exportFor pkg from_ x.addr x.size = none → exec .remoteRequest s = .next { s with host := { s.host with reply := none } }) ∧
    (∀ part gpa, s.exportFor pkg from_ x.addr x.size = some (part, gpa) →
      let n := min x.size (128 - gpa % 128)
      (s.standsAtHome part gpa → gpa < 2 ^ 52 →
        (x.write = none → ∃ t, CachesOnly s t ∧ { t with cores := s.cores } = s ∧ exec .remoteRequest s =
          .next { t with host := { t.host with reply := some (BitVec.ofNat 1024 (s.numAt part gpa n)) } }) ∧
        (∀ v, x.write = some v → ∃ t, exec .remoteRequest s = .next t ∧ WritesBytes s t part gpa (bytesOfNat v.toNat n) ∧
          ∀ k, OtherHart part gpa (s.hart? k) (t.hart? k))) ∧
      (∀ c u, s.atHome part gpa = .absent c u → ∃ t, exec .remoteRequest s = .next t ∧
        (∃ f ∈ t.host.faults, f.part = part ∧ f.cause = c ∧ f.page = (if c = 2 then gpa / 2 ^ 16 else gpa / 4096)) ∧
        ∃ e ∈ t.schedule, e.at_ = s.now + 1 ∧ e.ev = .remoteRequest ∧ e.args = s.arg))

/-- R12, R346, R349, R357, R358, R359, R360, R361: the package as SPDM responder, over each port's connection: the version, capabilities and
algorithms in their order, digests and certificates of the alias key, challenges, measurement blocks from values retained with
nothing else changed, sessions of at most 64 opened, finished and ended, a sealed partition's report key bound to a session with
mutual authentication; any other request receives ERROR UnsupportedRequest; a request that does not reach the responder is not
answered (the codes are the model's choice: log entry 75).
Model's choices it rests on: log entries 75, 123, 124, 137, 138. -/
def Obligations.SpdmResponses : Prop :=
  ∀ (s : State),
    let sp := s.spdm
    let c := s.conn
    let answers := fun (i : Instr) (d : Conn) (l : List Session) (code : Nat) (fields : List Nat) => exec i s = .next (s.spdmSays d l code fields)
    let out := fun (i : Instr) (code : Nat) (fields : List Nat) => answers i c sp.sessions code fields
    let later : List Instr := [.getDigests, .getCertificate, .challenge, .getMeasurements, .keyExchange, .finish, .endSession, .reportBind]
    (s.arrives s.arg.msg = false →
      ∀ i ∈ ([.getVersion, .getCapabilities, .negotiateAlgorithms, .spdmUnsupportedRequest] ++ later : List Instr), exec i s = .next s) ∧
    (s.arrives s.arg.msg = true →
      answers .getVersion { c with version := true, caps := false, algs := false }
        (sp.sessions.filter (fun e => e.port != s.arg.msg.port)) 0x04 [0x13] ∧
      out .spdmUnsupportedRequest 0x7F [7] ∧
      (c.version = true → answers .getCapabilities { c with caps := true } sp.sessions 0x61 [0x3D6]) ∧
      (c.version = false → out .getCapabilities 0x7F [4]) ∧
      (∀ a b e g, s.arg.nats = [a, b, e, g] → c.caps = true →
        ((a.testBit 5 && b.testBit 2 && e.testBit 2 && g.testBit 1) = true →
          answers .negotiateAlgorithms { c with algs := true } sp.sessions 0x63 [0x20, 0x04, 0x04, 0x02]) ∧
        ((a.testBit 5 && b.testBit 2 && e.testBit 2 && g.testBit 1) = false → out .negotiateAlgorithms 0x7F [1])) ∧
      (c.caps = false → out .negotiateAlgorithms 0x7F [4]) ∧
      (c.algs = false → ∀ i ∈ later, out i 0x7F [4]) ∧
      (c.algs = true →
        (∃ g, out .getDigests 0x01 [g]) ∧
        (∃ g, out .getCertificate 0x02 [s.pkg.boot.toNat, (sha512Of Config.slateFirmware).toNat, (Config.serial 8).toNat, g]) ∧
        (∃ g, out .challenge 0x03 [s.pkg.boot.toNat, s.arg.data.toNat, g]) ∧
        (∀ i, s.arg.nats = [i] →
          (i ≠ 255 → (i = 0 ∨ (12 ≤ i ∧ i < 64) ∨ 128 ≤ i) → out .getMeasurements 0x7F [1]) ∧
          (i = 255 → ∃ fields, out .getMeasurements 0x60 fields) ∧
          (i = 1 → ∃ g, out .getMeasurements 0x60 [i, (sha512Of Config.slateFirmware).toNat, s.arg.data.toNat, g]) ∧
          (2 ≤ i → i ≤ 11 → ∃ g, out .getMeasurements 0x60 [i,
            (sha512Of (((s.die (i - 2)).blocks.map (fun b => bytesOfNat b 64)).flatten)).toNat, (s.die (i - 2)).st,
            (s.die (i - 2)).nres % 256, s.arg.data.toNat, g]) ∧
          (64 ≤ i → i < 128 → s.part? (i - 64) = none → out .getMeasurements 0x7F [1]) ∧
          (∀ p, 64 ≤ i → i < 128 → s.part? (i - 64) = some p → ∃ e g, out .getMeasurements 0x60 [i, e, s.arg.data.toNat, g] ∧
            e % 64 = i - 64 ∧ e.testBit 6 = p.sealed_ ∧ e.testBit 7 = (!p.sealed_ || p.heat) ∧
            (∀ d, d < 8 → e.testBit (16 + d) = s.residentOn (i - 64) d) ∧
            (e / 2 ^ 8 % 4 = if (List.range 8).any (s.residentOn (i - 64)) = true then 0
              else if (List.range 2048).any (fun k => p.cores.getLsbD k && (s.cluster (k / 8)).powered) = true then 1 else 2) ∧
            e / 2 ^ 64 % 2 ^ 64 = p.tmeas % 2 ^ 64 ∧ e / 2 ^ 128 % 2 ^ 64 = p.nlog % 2 ^ 64 ∧ e / 2 ^ 192 % 2 ^ 512 = p.logHash.toNat ∧
            e / 2 ^ 704 % 2 ^ 512 = p.bhash.toNat)) ∧
        (64 ≤ sp.sessions.length → out .keyExchange 0x7F [10]) ∧
        (sp.sessions.length < 64 → ∃ g, exec .keyExchange s =
          .next (({ s with spdm := { sp with nextSession := sp.nextSession + 1 } } : State).spdmSays c (sp.sessions ++
            [{ id := sp.nextSession, port := s.arg.msg.port, finished := false, mutual_ := false, keyHash := 0 }]) 0x64 [sp.nextSession, g])) ∧
        (∀ id, s.arg.nats = [id] → (∀ e ∈ sp.sessions, e.id ≠ id) → out .finish 0x7F [2] ∧ out .endSession 0x7F [2]) ∧
        (∀ e, s.arg.nats = [e.id] → s.session? e.id = some e →
          let others := sp.sessions.filter (fun x => x.id != e.id)
          answers .endSession c others 0x6C [e.id] ∧
          (e.finished = true → out .finish 0x7F [4]) ∧
          (e.finished = false → s.arg.ok = false → answers .finish c others 0x7F [6]) ∧
          (e.finished = false → s.arg.ok = true → ∃ l, answers .finish c l 0x65 [e.id] ∧
            ∀ x, x ∈ l ↔ ∃ y ∈ sp.sessions, x = if y.id = e.id then
              { y with finished := true, mutual_ := s.arg.ok2, keyHash := if s.arg.ok2 then s.arg.data.setWidth 512 else 0 } else y)) ∧
        (∀ part id p e, s.arg.nats = [part, id] → s.part? part = some p → s.session? id = some e →
          (p.sealed_ = true → e.finished = true → e.mutual_ = true → (p.bkey = none ∨ p.bhash = e.keyHash) →
            ∃ t q, exec .reportBind s = .next t ∧ t.spdm = (s.spdmSays c sp.sessions 0x7E [part]).spdm ∧ t.part? part = some q ∧
              q.bkey = some (reportKey (Config.exportSecret id) part) ∧ q.bhash = e.keyHash ∧ q.nlog = p.nlog + 1 ∧ q.tmeas = s.time ∧
              { t with spdm := s.spdm, parts := s.parts } = s) ∧
          ((p.sealed_ = false ∨ e.finished = false ∨ e.mutual_ = false ∨ (p.bkey ≠ none ∧ p.bhash ≠ e.keyHash)) →
            ∃ t v, exec .reportBind s = .next t ∧ t.spdm = (s.spdmSays c sp.sessions 0x7F [v]).spdm ∧ t.parts = s.parts))))

/-- R385, R386, R389, R390, R394: a corrected error is counted against its unit for an hour; the 32nd of one word, or the 1,024th of the
unit, is recorded and a spare brought in within 100,000 ticks; an uncorrectable error drops a clean copy, poisons a line or a
tile, fails the job or the launch that the lost state belongs to, and is recorded.
R387, R388, R394: a tag error drops the lines of its set, records a data-loss event for every partition whose dirty line may have
stood there, fails the launches of those that are not tolerant, and starts a sweep; a sweep copies the mask of dirty writers
and writes back the dirty lines of the shared ways; at its end the mask is what was dirtied since.
R389, R390, R391, R392, R393: a spare core takes a core's place in 544 cycles, its caches empty, and a capacity event tells of
it; a link with a redundant lane retrains;
without a spare the unit retires: the retirement is announced with a capacity event and interrupt 18 on the harts of the
partitions it concerns, the open minima fit what remains, and at T_r the unit leaves service.
Model's choices it rests on: log entries 65, 114, 115, 116, 117, 119, 122. -/
def Obligations.ErrorsHandled : Prop :=
  ((∀ (s : State) (c bank word : Nat), s.arg.site = .scratchBank c bank → s.arg.nats = [word] → .core c ∉ s.pkg.retired →
    let w := s.pkg.wear.filter (fun x => decide (s.now < x.2.2 + 360000000000 * 7)) ++ [(c, word, s.now)]
    let worn := 32 ≤ (w.filter (fun x => x.1 == c && x.2.1 == word)).length ∨ 1024 ≤ (w.filter (fun x => x.1 == c)).length
    (¬ worn → exec .correctableError s = .next { s with pkg := { s.pkg with wear := w } }) ∧
    (worn → ∃ t, exec .correctableError s = .next t ∧ t.pkg = { s.pkg with wear := w.filter (fun x => x.1 != c) } ∧
      t.host.enext = s.host.enext + 1 ∧ t.harts = s.harts ∧ t.cores = s.cores ∧
      ∃ e ∈ t.schedule, e.at_ ≤ s.now + 700000 ∧ e.ev = .spareSubstitution ∧ e.args.unit = .core c))
  ∧ (∀ (s : State) (c line : Nat), s.arg.site = .laneL1 c line → Map.sorted (s.core c).l1 = true →
    ∃ t, exec .uncorrectableError s = .next t ∧ Map.find (t.core c).l1 line = none ∧
      (∀ n, n ≠ line → Map.find (t.core c).l1 n = Map.find (s.core c).l1 n) ∧ t.harts = s.harts ∧ t.launches = s.launches ∧
      t.mem.llc = s.mem.llc)
  ∧ (∀ (s : State) (part line : Nat) (p : Part) (l : LlcLine), s.arg.site = .llcData part line → s.part? part = some p → p.evq = 0 →
    s.llc? part (line * 128) = some l → ∃ t, exec .uncorrectableError s = .next t ∧
      t.llc? part (line * 128) = some { l with poison := true } ∧
      (∀ key, key ≠ lineKey part (line * 128) → Map.find t.mem.llc key = Map.find s.mem.llc key) ∧
      t.host.enext = s.host.enext + (if l.dirty then 2 else 1) ∧ t.harts = s.harts)
  ∧ (∀ (s : State) (k l : Nat) (h : Hart) (L : Launch) (p : Part), s.arg.site = .hartState k → Map.sorted s.harts = true →
    s.hart? k = some h → h.role.launch = some l → s.launch? l = some L → L.ended = false → L.notifyDone = false → L.pkt.cmpl = 0 →
    L.pkt.notify = false → (∀ c ∈ s.cores, c.2.flight = []) → (∀ g ∈ s.harts, g.2.run.stoppedJobs = []) → s.part? h.role.part = some p → p.evq = 0 → ∃ t M, exec .uncorrectableError s = .next t ∧ t.launch? l = some M ∧ M.ended = true ∧
      M.status = 2 ∧ (∀ j g, s.hart? j = some g → t.hart? j = if g.role.launch = some l then none else some g) ∧
      t.host.enext = s.host.enext + 1)
  ∧ (∀ (s : State) (cl part acc : Nat) (p : Part), s.arg.site = .tile cl part acc → s.part? part = some p → p.evq = 0 →
    ∃ t, exec .uncorrectableError s = .next t ∧ t.tile cl part acc = { s.tile cl part acc with poison := true } ∧
      t.host.enext = s.host.enext + 1 ∧ t.mem.llc = s.mem.llc ∧ t.harts = s.harts)
  ∧ (∀ (s : State) (part line a : Nat) (p : Part) (r : Range), s.arg.site = .hbmLine part line → s.part? part = some p → p.evq = 0 →
    p.range? (line * 128) = some r → s.stage2 p r (line * 128) = .hbm a → ∃ t, exec .uncorrectableError s = .next t ∧
      a / 128 ∈ t.mem.poisonAt ∧ t.mem.hbm = s.mem.hbm ∧ t.host.enext = s.host.enext + 1 ∧ t.harts = s.harts)
  ∧ ∀ (s : State) (cl slot : Nat) (j : Job) (p : Part), s.arg.site = .matrixColumn cl slot → s.job? cl slot = some j → j.live = true →
    j.matrix = true → s.part? j.part = some p → p.evq = 0 → ∃ t, exec .uncorrectableError s = .next t ∧
      t.host.enext = s.host.enext + 1 ∧ (∃ e ∈ t.schedule, e.at_ = s.now ∧ e.ev = .jobFail ∧ e.args.nats = [cl, slot, j.order, 4, 0]) ∧
      ∃ e ∈ t.schedule, e.at_ ≤ s.now + 700000 ∧ e.ev = .spareSubstitution ∧ e.args.unit = .column cl)
  ∧
  ((∀ (s : State) (place set_ : Nat), s.arg.nats = [place, set_] → s.arg.ok = false →
    let d := s.die (place / 64)
    let sl := d.slice (place % 64)
    let hit := (List.range 64).filter (fun p => (sl.dirty ||| sl.sweep.getD 0).getLsbD p && (s.part? p).isSome)
    d.accept = true → (∀ p ∈ s.parts, p.2.evq = 0) →
    ((∀ p v, p ∈ hit → s.part? p = some v → v.ltol = true) → ∃ t, exec .llcTagError s = .next t ∧
      (∀ key, s.home (keyPart key) (keyGpa key) = place → lineSet key = set_ % 1024 → Map.find t.mem.llc key = none) ∧
      t.host.enext = s.host.enext + 1 + hit.length ∧ t.launches = s.launches ∧
      ∃ e ∈ t.schedule, e.at_ = s.now ∧ e.ev = .cleanSweep ∧ e.args.nats = [place, d.epoch, 1]) ∧
    (∀ p v l L, p ∈ hit → s.part? p = some v → v.ltol = false → s.launch? l = some L → L.part = p → L.ended = false → L.pkt.cmpl = 0 →
      ∃ t M, exec .llcTagError s = .next t ∧ t.launch? l = some M ∧ M.ended = true ∧ M.status = 2))
  ∧ (∀ (s : State) (place epoch after : Nat), s.arg.nats = [place, epoch, after] →
    let d := s.die (place / 64)
    let sl := d.slice (place % 64)
    ((d.accept = false ∨ d.epoch ≠ epoch) → exec .cleanSweep s = .next s) ∧
    (d.accept = true → d.epoch = epoch → ∃ t, exec .cleanSweep s = .next t ∧
      (t.die (place / 64)).slice (place % 64) = { sl with sweep := some (sl.dirty ||| sl.sweep.getD 0), dirty := 0 } ∧
      (∃ e ∈ t.schedule, e.ev = .cleanSweepEnd ∧ e.args.nats = [place, epoch]) ∧
      (after ≠ 1 → ∃ e ∈ t.schedule, e.at_ = s.now + sweepPeriod ∧ e.ev = .cleanSweep ∧ e.args.nats = [place, epoch]) ∧
      ((∀ e ∈ s.sharedLines place, e.2.dirty = false) → t.mem = s.mem) ∧
      (∀ part g l p r a, (s.sharedLines place).filter (fun e => e.2.dirty) = [(lineKey part g, l)] → Map.sorted s.mem.llc = true →
        s.part? part = some p → p.sealed_ = false → g % 128 = 0 → g < 2 ^ 52 → p.range? g = some r → s.stage2 p r g = .hbm a →
        l.held = false → l.poison = false → s.pageFull part g = false → Memory.wf s.mem.hbm = true →
        Map.find t.mem.llc (lineKey part g) = some { l with dirty := false } ∧
        ∀ b, Memory.read t.mem.hbm b = if b / 128 = a / 128 then lineByte l.data (b % 128) else Memory.read s.mem.hbm b)))
  ∧ ∀ (s : State) (place epoch : Nat), s.arg.nats = [place, epoch] →
    let d := s.die (place / 64)
    ((d.accept = false ∨ d.epoch ≠ epoch ∨ (∃ e ∈ s.sharedLines place, e.2.held = true)) → exec .cleanSweepEnd s = .next s) ∧
    (d.accept = true → d.epoch = epoch → (∀ e ∈ s.sharedLines place, e.2.held = false) → ∃ t, exec .cleanSweepEnd s = .next t ∧
      (t.die (place / 64)).slice (place % 64) = { d.slice (place % 64) with sweep := none } ∧ { t with dies := s.dies } = s))
  ∧
  ((∀ (s : State) (c : Nat), s.arg.unit = .core c → .core c ∉ s.pkg.retired →
    (1 ≤ Map.findD s.pkg.spares (c / 8) 0 → exec .spareSubstitution s = .next (s.plan 0 .retirement { unit := .core c })) ∧
    (Map.findD s.pkg.spares (c / 8) 0 = 0 → ∃ t, exec .spareSubstitution s = .next t ∧
      t.pkg = { s.pkg with spares := Map.put s.pkg.spares (c / 8) 1, events := s.pkg.events + 1 } ∧ t.host.enext = s.host.enext + 1 ∧ t.core c = { s.core c with l1 := [], icache := [], hdc := [], tlb := [] } ∧
      (∀ d, d ≠ c → t.core d = s.core d) ∧
      (∀ k, t.hart? k = (s.hart? k).map (fun h =>
        let g := if coreOf k = c ∧ k < 32768 then
          { h with run := { h.run with resv := none, busyUntil := max h.run.busyUntil (s.now + 544) } } else h
        if k < 32768 ∧ (s.part? h.role.part).any (fun p => p.cores.getLsbD c) = true then
          { g with run := { g.run with irq18 := some (BitVec.ofNat 64 (s.pkg.events + 1)) } } else g)) ∧
      { t.mem with host := s.mem.host } = s.mem))
  ∧ (∀ (s : State) (n : Nat), s.arg.unit = .link n → .link n ∉ s.pkg.retired →
    (s.arg.ok = false → exec .spareSubstitution s = .next (s.plan 0 .retirement { unit := .link n })) ∧
    (s.arg.ok = true → ∃ t, exec .spareSubstitution s = .next t ∧
      (∀ k, t.link k = if k / 2 = n then { s.link k with retraining := true } else s.link k) ∧
      ∃ e ∈ t.schedule, e.ev = .linkRetrainingEnd ∧ e.args.link.link = n))
  ∧ (∀ (s : State), exec .pseudoChannelCopyEnd s = .next { s with
    pkg := { s.pkg with copying := s.pkg.copying.filter (fun c => c != (s.arg.nat 0, s.arg.nat 1)) } })
  ∧ (∀ (s : State), ∃ t, exec .linkRetrainingEnd s = .next t ∧
    (∀ k, t.link k = if k / 2 = s.arg.link.link then { s.link k with retraining := false } else s.link k) ∧
    { t with links := s.links, schedule := s.schedule, fresh := s.fresh } = s)
  ∧ (∀ (s : State) (c : Nat), s.arg.unit = .core c → s.arg.nats = [] → s.arg.ok = false → .core c ∉ s.pkg.retired →
    ∃ t, exec .retirement s = .next t ∧ t.pkg.retired = .core c :: s.pkg.retired ∧ t.pkg.events = s.pkg.events + 1 ∧
      (∃ e ∈ t.schedule, e.at_ = s.now + 7000000 ∧ e.ev = .retirement ∧ e.args.unit = .core c ∧ e.args.nats = [1]) ∧
      (∀ k h v w, k < 32768 → t.hart? k = some h → s.part? h.role.part = some w → t.part? h.role.part = some v → v.cores.getLsbD c = true →
        h.run.irq18 = some (BitVec.ofNat 64 (s.pkg.events + 1))) ∧
      (∀ n p, s.parts = [(n, p)] → p.sealed_ = false → 0 < p.mw → ∃ m, t.part? n = some m ∧
        m.inForce.2.1 = min p.inForce.2.1 ({ s with pkg := { s.pkg with retired := .core c :: s.pkg.retired } } : State).hbmLeft))
  ∧ ∀ (s : State) (c l : Nat) (L : Launch), s.arg.unit = .core c → s.arg.nats = [1] → .core c ∈ s.pkg.retired → .core c ∉ s.pkg.gone →
    (∃ k h, s.hart? k = some h ∧ coreOf k = c ∧ k < 32768 ∧ h.role.launch = some l) → s.launch? l = some L → L.ended = false → L.pkt.cmpl = 0 →
    ∃ t M, exec .retirement s = .next t ∧ (t.core c).inService = false ∧ (∀ k, coreOf k = c → k < 32768 → t.hart? k = none) ∧
      .core c ∈ t.pkg.gone ∧ t.launch? l = some M ∧ M.ended = true ∧ M.status = 2)

/-- R347, R360, R391, R415, R419, R420, R424, R425: power off leaves every die off, power on in reset; a package reset keeps the
memories outside the package and the boot counter, counts it up, and leaves no partition, queue, launch or hart; it ends with
B-die 0 admitted and the other dies in reset, or fails; steps 5 to 7 of its bring-up follow in order, the last makes the package
ready; an idle cluster is gated and its wholly gated partitions are measured; a
waking cluster has power; a window above the limit holds dispatch back.
R338, R346, R347, R348, R349, R350, R353, R354, R355, R388: a die whose reset ends is challenged; each response of its handshake that
passes leads to the next, within 200 ms each, from state 2 to 3, 4 and 5: its chain ends at the root of the ROM and its key is the
manifest's, its five measurement blocks are the reference values; the last step admits it, its slices sweep, and the errata mask is
that of the admitted dies (R408); a step that fails
rejects it with the step's reason, and nothing of it is reached any more; a missing response rejects it with reason 5; a reset
returns an admitted or rejected die to state 1 and counts it.
R351, R352, R353, R421: a flit that the dies of its link carry and that authenticates under a key its receiver holds is counted,
any other that they carry is requested again; 2^40
flits start a rollover where neither end has another one in progress; the acknowledged key is the sender's, both are held for
4,096 flits, then the old one is erased; a rollover unacknowledged for 100,000 ticks is abandoned, and the third on one link
resets the receiving die; a Cobalt link between admitted dies starts with a key of its own.
Model's choices it rests on: log entries 103, 105, 106, 110, 111, 136, 137. -/
def Obligations.PowerDiesAndLinks : Prop :=
  ((∀ (s : State), (∃ t, exec .powerOff s = .next t ∧ t.pkg.off = true ∧ (∀ d, d < 10 → (t.die d).st = 0) ∧ t.harts = [] ∧ t.parts = [] ∧
      t.mem.hbm = [] ∧ t.mem.llc = [] ∧ t.mem.pool = s.mem.pool ∧ t.mem.host = s.mem.host) ∧
    (s.pkg.off = true → ∃ t, exec .powerOn s = .next t ∧ t.pkg.off = false ∧ (∀ d, (t.die d).st = 1) ∧ t.host.stage = 1) ∧
    (s.pkg.off = false → exec .powerOn s = .next s))
  ∧ (∀ (s : State) (i : Instr), i ∈ ([.packageReset, .thermalReset] : List Instr) →
    (s.pkg.off = true → exec i s = .next s) ∧
    (s.pkg.off = false → (i = .packageReset → s.arg.nats = []) → ∃ t, exec i s = .next t ∧ t.pkg.boot = s.pkg.boot + 1 ∧ t.now = 0 ∧ t.harts = [] ∧ t.parts = [] ∧ t.queues = [] ∧
      t.launches = [] ∧ t.orders = [] ∧ t.host.hlast = 0 ∧ t.host.ready = false ∧ t.host.fcons = 0 ∧ t.host.rings = [] ∧ t.pkg.hn = 10 ∧
      t.pkg.plim = 3000 ∧ t.pkg.gidle = 100000 ∧ t.mem.hbm = [] ∧ t.mem.llc = [] ∧ t.mem.pool = s.mem.pool ∧ t.mem.host = s.mem.host ∧
      t.mem.remote = s.mem.remote ∧ t.pkg.spares = s.pkg.spares ∧ (∀ c, .core c ∈ t.pkg.retired ↔ .core c ∈ s.pkg.retired) ∧
      (∀ d, d < 10 → d ≠ 8 → (t.die d).st = 1 ∧ (t.die d).accept = false) ∧
      (if s.arg.ok = true ∧ s.arg.ok2 = true then t.host.stage = 3 ∧ (t.die 8).st = 5 ∧ t.pkg.emask = Config.errata 8
        else t.host.stage = 15 ∧ t.pkg.emask = 0)))
  ∧ (∀ (s : State) (n boot : Nat), s.arg.nats = [n, boot] →
    let due := s.pkg.off = false ∧ s.pkg.boot.toNat = boot ∧ s.host.stage + 1 = n ∧ 5 ≤ n ∧ n ≤ 7
    (due → ∃ t, exec .packageReset s = .next t ∧ t.host = { s.host with stage := n, ready := s.host.ready || n == 7 } ∧
      (n = 5 → ∃ r, t.pkg.reserved = some r ∧ r < 4096) ∧ (n < 7 → ∃ e ∈ t.schedule, e.ev = .packageReset ∧ e.args.nats = [n + 1, boot]) ∧
      t.mem = s.mem ∧ t.parts = s.parts ∧ t.dies = s.dies ∧ t.harts = s.harts) ∧
    (¬ due → exec .packageReset s = .next s))
  ∧ (∀ (s : State) (cl : Nat), s.arg.nats = [cl] → (s.cluster cl).powered = true →
    ((∃ k h, s.hart? k = some h ∧ k < 32768 ∧ clusterOf k = cl) → exec .clusterGate s = .next s) ∧
    (s.pkg.gidle ≠ 0 → (s.cluster cl).waking = false → (∀ e ∈ s.harts, e.1 < 32768 → clusterOf e.1 ≠ cl) → (s.cluster cl).liveAll = 0 →
      (∀ i, i < 8 → (s.core (cl * 8 + i)).tcc = []) → (s.cluster cl).lastBusy + 7 * s.pkg.gidle ≤ s.now → Map.sorted s.parts = true →
      ∃ t, exec .clusterGate s = .next t ∧ t.cluster cl = { s.cluster cl with powered := false } ∧
        (∀ c, c ≠ cl → t.cluster c = s.cluster c) ∧ t.harts = s.harts ∧ t.mem = s.mem ∧
        ∀ n p, s.part? n = some p → (∃ i, i < 8 ∧ p.cores.getLsbD (cl * 8 + i) = true) →
          ∃ q, t.part? n = some q ∧ if (List.range 2048).all (fun c => !p.cores.getLsbD c || c / 8 == cl || !(s.cluster (c / 8)).powered) = true
            then q.nlog = p.nlog + 1 ∧ q.tmeas = s.time else q = p))
  ∧ (∀ (s : State) (cl : Nat), s.arg.nats = [cl] → (s.cluster cl).waking = true → ∃ t, exec .clusterWake s = .next t ∧
    (t.cluster cl).powered = true ∧ (t.cluster cl).waking = false ∧ t.harts = s.harts ∧ t.parts = s.parts ∧ t.mem = s.mem ∧
    ∃ e ∈ t.schedule, e.ev = .placeUnit)
  ∧ ∀ (s : State) (w : Nat), s.arg.nats = [w] → ∃ t, exec .powerWindow s = .next t ∧
    t.pkg = { s.pkg with overLimit := decide (s.pkg.plim < w) } ∧ { t with pkg := s.pkg, schedule := s.schedule, latencies := s.latencies } = s ∧
    (s.pkg.overLimit = true → w ≤ s.pkg.plim → ∃ e ∈ t.schedule, e.ev = .placeUnit))
  ∧
  ((∀ (s : State) (d : Nat), s.arg.nats = [d] → (s.die d).st = 1 → d < 10 → d ≠ 8 → 3 ≤ s.host.stage → s.host.stage ≠ 15 → s.pkg.off = false →
    ∃ t, exec .dieResetEnd s = .next t ∧
      t.die d = { s.die d with st := 2, why := 0, tst := s.time, epoch := (s.die d).epoch + 1, step := 1, got := 0 } ∧
      (∀ e, e ≠ d → t.die e = s.die e) ∧ (∃ e ∈ t.schedule, e.at_ = s.now + 140000000 ∧ e.ev = .attestTimeout ∧
        e.args.nats = [d, (s.die d).epoch + 1, 1, 0]) ∧ { t with dies := s.dies, schedule := s.schedule } = s)
  ∧ (∀ (s : State) (d k : Nat) (rest : List Nat) (i : Instr), s.arg.nats = d :: rest → d ≠ 8 → d < 10 → (s.die d).step = k →
    2 ≤ (s.die d).st → (s.die d).st ≤ 4 → (i, k) ∈ ([(.dieNegotiate, 1), (.dieCertificateCheck, 2), (.dieChallenge, 3),
      (.dieMeasurementCheck, 4), (.dieKeyExchange, 5), (.dieKeyDelivery, 6), (.dieAdmit, 7)] : List (Instr × Nat)) →
    let v := s.die d
    let awaited := if k = 1 then 3 else if k = 2 ∨ k = 5 then 2 else 1
    let good := s.arg.ok = true ∧ (k = 2 → v.got ≠ 0 → rootMatches (s.arg.nat 1) = true ∧ manifestMatches d (s.arg.nat 2) = true) ∧
      (k = 4 → rest.take 5 = referenceBlocks d)
    let waits := fun (t : State) (step got : Nat) =>
      ∃ e ∈ t.schedule, e.at_ = s.now + 140000000 ∧ e.ev = .attestTimeout ∧ e.args.nats = [d, v.epoch, step, got]
    let only := fun (t : State) => (∀ e, e ≠ d → t.die e = s.die e) ∧ { t with dies := s.dies, schedule := s.schedule, fresh := s.fresh } = s
    (good → v.got + 1 < awaited →
      ∃ t, exec i s = .next t ∧ t.die d = { v with got := v.got + 1 } ∧ waits t k (v.got + 1) ∧ only t) ∧
    (good → awaited ≤ v.got + 1 →
      (k ∈ [1, 2, 3, 5] → ∃ t, exec i s = .next t ∧ t.die d = { v with step := k + 1, got := 0 } ∧ waits t (k + 1) 0 ∧ only t) ∧
      (k = 4 → ∃ t, exec i s = .next t ∧ t.die d = { v with st := 3, why := 0, tst := s.time, step := 5, got := 0, blocks := rest.take 5 } ∧
        waits t 5 0 ∧ only t) ∧
      (k = 6 → Map.sorted s.parts = true → ∃ t, exec i s = .next t ∧ (t.die d).st = 4 ∧ (t.die d).step = 7 ∧
        (∀ n, n < 14 → d ∈ linkDies n → ∀ b, b < 2 → (t.link (2 * n + b)).flits = 0 ∧ ∃ key, (t.link (2 * n + b)).keys = [(0, key)]) ∧
        (∀ q p, s.part? q = some p → ∃ m, t.part? q = some m ∧ m.nlog = p.nlog + (if p.sealed_ then 1 else 0)) ∧ t.harts = s.harts ∧
        t.mem = s.mem) ∧
      (k = 7 → ∃ t, exec i s = .next t ∧ (t.die d).st = 5 ∧ (t.die d).why = 0 ∧ (t.die d).tst = s.time ∧
        (t.die d).accept = decide (d < 8) ∧ (d < 8 → ∀ j, j < 64 → ∃ e ∈ t.schedule, e.at_ = s.now + sweepPeriod ∧ e.ev = .cleanSweep ∧
          e.args.nats = [d * 64 + j, v.epoch]) ∧
        (s.host.stage = 3 → (∀ e, e < 10 → e ≠ d → (s.die e).st = 5 ∨ (s.die e).st = 6) → t.host.stage = 4 ∧
          ∃ e ∈ t.schedule, e.ev = .packageReset ∧ e.args.nats = [5, s.pkg.boot.toNat]) ∧
        ∀ b, b < 64 → t.pkg.emask.getLsbD b = ((List.range 10).any (fun e => (e == d || (s.die e).st == 5) && (Config.errata e).getLsbD b)))) ∧
    (¬ good → ∃ t, exec i s = .next t ∧ (t.die d).st = 6 ∧ (t.die d).accept = false ∧ (∀ j, dieOf j = d → t.hart? j = none) ∧
      (k ≠ 1 → (t.die d).why =
        if k = 2 then (if s.arg.ok = true ∧ rootMatches (s.arg.nat 1) = true then 2 else 1) else if k ≤ 4 then k else if k = 5 then 6 else 7) ∧
      ∃ e ∈ t.schedule, e.at_ = s.now ∧ e.ev = .retirement ∧ e.args.unit = .die d ∧ e.args.ok = true))
  ∧ (∀ (s : State) (d e k g : Nat), s.arg.nats = [d, e, k, g] →
    ((s.die d).epoch = e → (s.die d).step = k → (s.die d).got = g → 2 ≤ (s.die d).st → (s.die d).st ≤ 4 → k ≤ 6 →
      ∃ t, exec .attestTimeout s = .next t ∧ (t.die d).st = 6 ∧ (t.die d).why = 5) ∧
    (((s.die d).epoch ≠ e ∨ (s.die d).step ≠ k ∨ (s.die d).got ≠ g) → exec .attestTimeout s = .next s))
  ∧ ∀ (s : State) (d n : Nat), s.arg.nats = [d, 0, 0, 1, n] →
    (((s.die d).st = 5 ∨ (s.die d).st = 6) → (s.die d).nres = n → ∃ t, exec .dieReset s = .next t ∧ (t.die d).st = 1 ∧
      (t.die d).nres = n + 1 ∧ (t.die d).accept = false ∧ (t.die d).ds = [] ∧ (∀ j, dieOf j = d → t.hart? j = none) ∧
      ∀ c, c / 256 = d → (t.core c).l1 = [] ∧ (t.core c).hdc = [] ∧ (t.core c).tlb = [] ∧ (t.core c).locks = []) ∧
    ((s.die d).nres ≠ n → exec .dieReset s = .next s))
  ∧
  ((∀ (s : State) (kidx kind : Nat), s.arg.nats = [kidx, kind] →
    let k := 2 * s.arg.link.link + (if s.arg.link.outward then 1 else 0)
    let l := s.link k
    let count := if kidx = l.kidx then l.flits + 1 else l.flits
    let carried := l.inService = true ∧ l.retraining = false ∧ ∀ e ∈ linkDies s.arg.link.link,
      (s.die e).st = 5 ∨ (s.die e).st = 4 ∧ kind = 1 ∨ ((s.die e).st = 2 ∨ (s.die e).st = 3) ∧ kind = 2
    let takes := s.arg.ok = true ∧ Map.find l.keys kidx ≠ none ∧ ¬ (4096 ≤ l.rolling.getD 0 ∧ kidx ≠ l.kidx)
    ((¬ carried ∨ kind = 2) → exec .flitReceive s = .next s) ∧
    (carried → kind ≠ 2 → ¬ takes → exec .flitReceive s = .next { s with links := Map.put s.links k { l with asked := true } }) ∧
    (carried → kind ≠ 2 → takes → ∃ t, exec .flitReceive s = .next t ∧
      t.link k = { l with flits := count, seqNo := (l.seqNo + 1) % 2 ^ 62, asked := false
                          rolling := l.rolling.map (fun n => if n = 0 ∧ kidx ≠ l.kidx then 0 else n + 1) } ∧
      (∀ j, j ≠ k → t.link j = s.link j) ∧ { t with links := s.links, schedule := s.schedule, fresh := s.fresh } = s ∧
      ((t.link k).rolling = some 4096 → ∃ e ∈ t.schedule, e.ev = .oldKeyErase ∧ e.args.link = s.arg.link) ∧
      (2 ^ 40 ≤ count → l.awaiting = false → l.rolling = none → ∃ e ∈ t.schedule, e.ev = .keyRolloverStart ∧ e.args.link = s.arg.link)))
  ∧ (∀ (s : State),
    let k := 2 * s.arg.link.link + (if s.arg.link.outward then 1 else 0)
    let l := s.link k
    l.inService = true → l.retraining = false → l.rolling = none → 2 ^ 40 ≤ l.flits → (l.awaiting = true ∨ s.mayRoll s.arg.link = true) →
    (s.arg.ok = true → ∃ t key, exec .keyRolloverStart s = .next t ∧ t.link k = { l with
      awaiting := false, keys := Map.put l.keys ((l.kidx + 1) % 4) key, kidx := (l.kidx + 1) % 4, rolling := some 0, flits := 0 } ∧
      (∀ j, j ≠ k → t.link j = s.link j) ∧ { t with links := s.links, fresh := s.fresh } = s) ∧
    (s.arg.ok = false → l.awaiting = false → exec .keyRolloverStart s =
      .next (({ s with links := Map.put s.links k { l with awaiting := true } } : State).plan 700000 .rolloverAckTimeout
        { link := s.arg.link, nats := [l.kidx, l.failed] })))
  ∧ (∀ (s : State) (kidx failed : Nat), s.arg.nats = [kidx, failed] →
    let n := s.arg.link.link
    let k := 2 * n + (if s.arg.link.outward then 1 else 0)
    let l := s.link k
    l.awaiting = true → l.kidx = kidx → l.failed = failed → ∃ t, exec .rolloverAckTimeout s = .next t ∧
      let both := (s.link (2 * n)).failed + (s.link (2 * n + 1)).failed + 1
      (both < 3 → t.link k = { l with awaiting := false, failed := failed + 1 } ∧ (∀ j, j ≠ k → t.link j = s.link j) ∧
        { t with links := s.links, schedule := s.schedule, fresh := s.fresh } = s) ∧
      (∀ e, 3 ≤ both → receiverOf s.arg.link = some e → e ≠ 8 → (t.die e).st = 1 ∧ (t.die e).nres = (s.die e).nres + 1) ∧
      (3 ≤ both → receiverOf s.arg.link = some 8 → ∃ v ∈ t.schedule, v.at_ = s.now ∧ v.ev = .packageReset))
  ∧ (∀ (s : State),
    let k := 2 * s.arg.link.link + (if s.arg.link.outward then 1 else 0)
    let l := s.link k
    (4096 ≤ l.rolling.getD 0 → ∃ t, exec .oldKeyErase s = .next t ∧ t.link k = { l with keys := l.keys.filter (fun e => e.1 == l.kidx), rolling := none } ∧
      (∀ j, j ≠ k → t.link j = s.link j) ∧ { t with links := s.links, schedule := s.schedule, fresh := s.fresh } = s) ∧
    (l.rolling.getD 0 < 4096 → exec .oldKeyErase s = .next s))
  ∧ ∀ (s : State),
    let n := s.arg.link.link
    let k := 2 * n + (if s.arg.link.outward then 1 else 0)
    (14 ≤ n → n < 78 → (s.die (if n < 46 then 8 else 9)).st = 5 → ∃ t key, exec .cobaltLinkKeying s = .next t ∧
      t.link k = { LinkSt.reset with keys := [(0, key)], inService := (s.link k).inService } ∧ (∀ j, j ≠ k → t.link j = s.link j) ∧
      { t with links := s.links, fresh := s.fresh } = s) ∧
    ((n < 14 ∨ 78 ≤ n) → exec .cobaltLinkKeying s = .next s))

/-- R36, R69, R91, R321, R347, R377, R391, R395, R420, R424: the package right after reset: nothing is dispatched, no partition, no message
accepted, every die in reset, the registers at their reset values, and those a hart is dispatched with; the state is well formed
and nothing but events is to come.
Model's choices it rests on: log entry 4. -/
def Obligations.ResetState : Prop :=
  State.reset.harts = [] ∧ State.reset.parts = [] ∧ State.reset.queues = [] ∧ State.reset.launches = [] ∧ State.reset.orders = [] ∧
  State.reset.now = 0 ∧ State.reset.host.hlast = 0 ∧ State.reset.host.ready = false ∧ State.reset.host.fcons = 0 ∧
  State.reset.pkg.plim = 3000 ∧ State.reset.pkg.gidle = 100000 ∧ State.reset.pkg.hn = 10 ∧ State.reset.pkg.number = 0 ∧
  (∀ d, (State.reset.die d).st = 1 ∧ (State.reset.die d).why = 0) ∧ (∀ a, Memory.read State.reset.mem.hbm a = 0) ∧
  Hart.reset.csr.mstatus = 0x0000000A00000000 ∧ Hart.reset.csr.medeleg = 0x00000000FF00B15D ∧ Hart.reset.csr.mideleg = 0x00000000000F0000 ∧
  Hart.reset.dev.hangthr = 0x00100000 ∧ Hart.reset.dev.lkto = 0x00010000 ∧ Hart.reset.dev.lfmask = 0 ∧ Hart.reset.dev.emuvec = 0 ∧
  Hart.reset.priv = .U ∧ (∀ r, Hart.reset.getX r = 0) ∧ (∀ r l, Hart.reset.getV r l = 0) ∧ (∀ k, Hart.reset.getP k = 0) ∧
  Hart.reset.wellFormed = true ∧ State.reset.wellFormed = true ∧ State.reset.eventsOnly = true

/-- R26, R31, R69, R73, R75: no integer, control-flow, CSR or environment instruction makes a well-formed state ill-formed: x0 reads 0,
every pc and saved pc stays a multiple of 4, `mstatus` holds no reserved bit and no reserved MPP, `satp` no reserved MODE, and the
memories keep their form, whatever traps are taken. -/
def Obligations.KeepsWellFormed : Prop :=
  let keeps := fun (i : Instr) => ∀ s t : State, s.wellFormed = true → exec i s = .next t → t.wellFormed = true
  (∀ (rd rs1 rs2 : BitVec 5), keeps (.add rd rs1 rs2) ∧ keeps (.sub rd rs1 rs2) ∧ keeps (.sll rd rs1 rs2) ∧ keeps (.slt rd rs1 rs2) ∧
    keeps (.sltu rd rs1 rs2) ∧ keeps (.xor rd rs1 rs2) ∧ keeps (.srl rd rs1 rs2) ∧ keeps (.sra rd rs1 rs2) ∧ keeps (.or rd rs1 rs2) ∧
    keeps (.and rd rs1 rs2) ∧ keeps (.mul rd rs1 rs2) ∧ keeps (.mulh rd rs1 rs2) ∧ keeps (.mulhsu rd rs1 rs2) ∧ keeps (.mulhu rd rs1 rs2) ∧
    keeps (.div rd rs1 rs2) ∧ keeps (.divu rd rs1 rs2) ∧ keeps (.rem rd rs1 rs2) ∧ keeps (.remu rd rs1 rs2) ∧ keeps (.addw rd rs1 rs2) ∧
    keeps (.subw rd rs1 rs2) ∧ keeps (.sllw rd rs1 rs2) ∧ keeps (.srlw rd rs1 rs2) ∧ keeps (.sraw rd rs1 rs2) ∧ keeps (.mulw rd rs1 rs2) ∧
    keeps (.divw rd rs1 rs2) ∧ keeps (.divuw rd rs1 rs2) ∧ keeps (.remw rd rs1 rs2) ∧ keeps (.remuw rd rs1 rs2))
  ∧ (∀ (rd rs1 : BitVec 5) (imm : BitVec 12), keeps (.addi rd rs1 imm) ∧ keeps (.slti rd rs1 imm) ∧ keeps (.sltiu rd rs1 imm) ∧
    keeps (.xori rd rs1 imm) ∧ keeps (.ori rd rs1 imm) ∧ keeps (.andi rd rs1 imm) ∧ keeps (.addiw rd rs1 imm) ∧ keeps (.jalr rd rs1 imm) ∧
    keeps (.beq rd rs1 imm) ∧ keeps (.bne rd rs1 imm) ∧ keeps (.blt rd rs1 imm) ∧ keeps (.bge rd rs1 imm) ∧ keeps (.bltu rd rs1 imm) ∧
    keeps (.bgeu rd rs1 imm) ∧ keeps (.csrrw rd rs1 imm) ∧ keeps (.csrrs rd rs1 imm) ∧ keeps (.csrrc rd rs1 imm) ∧
    keeps (.csrrwi rd rs1 imm) ∧ keeps (.csrrsi rd rs1 imm) ∧ keeps (.csrrci rd rs1 imm))
  ∧ (∀ (rd rs1 : BitVec 5) (amt : BitVec 6), keeps (.slli rd rs1 amt) ∧ keeps (.srli rd rs1 amt) ∧ keeps (.srai rd rs1 amt))
  ∧ (∀ (rd rs1 amt : BitVec 5), keeps (.slliw rd rs1 amt) ∧ keeps (.srliw rd rs1 amt) ∧ keeps (.sraiw rd rs1 amt))
  ∧ (∀ (rd : BitVec 5) (imm : BitVec 20), keeps (.lui rd imm) ∧ keeps (.auipc rd imm) ∧ keeps (.jal rd imm))
  ∧ keeps .ecall ∧ keeps .ebreak ∧ keeps .sret ∧ keeps .mret ∧ keeps .wfi
end

