-- ==== Sys2Proof/Laws/Map.lean ====
section
/-! SUPPORT. The laws of maps and memories: a read after a write, and the canonical form that every operation keeps. -/

namespace Sys2Proof.Machine

open Sys2Proof

theorem Map.find_put_same {α : Type} (m : Map α) (n : Nat) (a : α) : Map.find (Map.put m n a) n = some a := by
  induction m with
  | nil => simp [Map.put, Map.find]
  | cons e m ih =>
    obtain ⟨k, v⟩ := e
    unfold Map.put
    split
    · simp [Map.find]
    · split
      · simp [Map.find]
      · simp_all [Map.find]

theorem Map.find_put_other {α : Type} (m : Map α) (n j : Nat) (a : α) (h : j ≠ n) :
    Map.find (Map.put m n a) j = Map.find m j := by
  induction m with
  | nil => simp [Map.put, Map.find, h]
  | cons e m ih =>
    obtain ⟨k, v⟩ := e
    unfold Map.put
    split
    · simp only [Map.find, if_neg h]
      split
      · split
        · omega
        · split
          · rfl
          · omega
      · rfl
    · split
      · next hk => subst hk; simp [Map.find, h]
      · simp only [Map.find, ih]

theorem Map.find_put {α : Type} (m : Map α) (n j : Nat) (a : α) :
    Map.find (Map.put m n a) j = if j = n then some a else Map.find m j := by
  split
  · next h => subst h; exact Map.find_put_same m j a
  · next h => exact Map.find_put_other m n j a h

theorem Map.findD_put {α : Type} (m : Map α) (n j : Nat) (a d : α) :
    Map.findD (Map.put m n a) j d = if j = n then a else Map.findD m j d := by
  unfold Map.findD
  rw [Map.find_put]
  split <;> rfl

theorem Map.sorted_tail {α : Type} (e : Nat × α) (m : Map α) (h : Map.sorted (e :: m) = true) : Map.sorted m = true := by
  cases m with
  | nil => rfl
  | cons b m => simp [Map.sorted] at h; exact h.2

/-- Below the first key of a sorted map, nothing is listed. -/
theorem Map.find_below {α : Type} (e : Nat × α) (m : Map α) (n : Nat) (h : n < e.1) : Map.find (e :: m) n = none := by
  obtain ⟨k, v⟩ := e
  simp only [Map.find]
  split
  · simp at h; omega
  · simp

theorem Map.find_tail_of_sorted {α : Type} (e : Nat × α) (m : Map α) (n : Nat) (hs : Map.sorted (e :: m) = true) (h : n ≤ e.1) :
    Map.find m n = none := by
  cases m with
  | nil => rfl
  | cons b m =>
    simp [Map.sorted] at hs
    exact Map.find_below b m n (by omega)

theorem Map.find_del_same {α : Type} (m : Map α) (n : Nat) (hs : Map.sorted m = true) : Map.find (Map.del m n) n = none := by
  induction m with
  | nil => rfl
  | cons e m ih =>
    obtain ⟨k, v⟩ := e
    unfold Map.del
    split
    · next h => exact Map.find_tail_of_sorted (k, v) m n hs (by simp [h])
    · split
      · next h2 => exact Map.find_below _ m n h2
      · next h1 h2 =>
        simp only [Map.find, if_neg h1, if_neg h2]
        exact ih (Map.sorted_tail _ _ hs)

theorem Map.find_del_other {α : Type} (m : Map α) (n j : Nat) (hs : Map.sorted m = true) (h : j ≠ n) :
    Map.find (Map.del m n) j = Map.find m j := by
  induction m with
  | nil => rfl
  | cons e m ih =>
    obtain ⟨k, v⟩ := e
    unfold Map.del
    split
    · next hk =>
      subst hk
      simp only [Map.find, if_neg h]
      split
      · next hl => exact Map.find_tail_of_sorted (n, v) m j hs (by simp; omega)
      · rfl
    · split
      · rfl
      · simp only [Map.find, ih (Map.sorted_tail _ _ hs)]

theorem Map.find_del {α : Type} (m : Map α) (n j : Nat) (hs : Map.sorted m = true) :
    Map.find (Map.del m n) j = if j = n then none else Map.find m j := by
  split
  · next h => subst h; exact Map.find_del_same m j hs
  · next h => exact Map.find_del_other m n j hs h

/-- What a put puts first: the new key, or the first key that was there. -/
theorem Map.put_head {α : Type} (m : Map α) (n : Nat) (a : α) :
    ∃ e t, Map.put m n a = e :: t ∧ (e.1 = n ∨ ∃ f u, m = f :: u ∧ e.1 = f.1) := by
  cases m with
  | nil => exact ⟨(n, a), [], rfl, .inl rfl⟩
  | cons e m =>
    obtain ⟨k, v⟩ := e
    unfold Map.put
    split
    · exact ⟨_, _, rfl, .inl rfl⟩
    · split
      · exact ⟨_, _, rfl, .inl rfl⟩
      · exact ⟨_, _, rfl, .inr ⟨_, _, rfl, rfl⟩⟩

theorem Map.sorted_cons {α : Type} (e : Nat × α) (m : Map α) :
    Map.sorted (e :: m) = true ↔ (∀ f u, m = f :: u → e.1 < f.1) ∧ Map.sorted m = true := by
  cases m with
  | nil => simp [Map.sorted]
  | cons b m =>
    simp only [Map.sorted, Bool.and_eq_true, decide_eq_true_eq]
    constructor
    · rintro ⟨h1, h2⟩
      exact ⟨fun f u hfu => by cases hfu; exact h1, h2⟩
    · rintro ⟨h1, h2⟩
      exact ⟨h1 b m rfl, h2⟩

theorem Map.sorted_put {α : Type} (m : Map α) (n : Nat) (a : α) (hs : Map.sorted m = true) : Map.sorted (Map.put m n a) = true := by
  induction m with
  | nil => rfl
  | cons e m ih =>
    obtain ⟨k, v⟩ := e
    unfold Map.put
    split
    · next h => exact (Map.sorted_cons _ _).2 ⟨fun f u hfu => by cases hfu; exact h, hs⟩
    · split
      · next h1 h =>
        subst h
        have := (Map.sorted_cons _ _).1 hs
        exact (Map.sorted_cons _ _).2 this
      · next h1 h2 =>
        have h3 := (Map.sorted_cons _ _).1 hs
        refine (Map.sorted_cons _ _).2 ⟨fun f u hfu => ?_, ih h3.2⟩
        obtain ⟨g, t, hg, hk⟩ := Map.put_head m n a
        rw [hg] at hfu
        cases hfu
        rcases hk with hk | ⟨f', u', hm, hk⟩
        · simp only [hk]; omega
        · rw [hk]; exact h3.1 f' u' hm

theorem Map.del_head {α : Type} (m : Map α) (n : Nat) (hs : Map.sorted m = true) (e : Nat × α) (t : Map α)
    (h : Map.del m n = e :: t) : ∃ f u, m = f :: u ∧ f.1 ≤ e.1 := by
  cases m with
  | nil => simp [Map.del] at h
  | cons f m =>
    refine ⟨f, m, rfl, ?_⟩
    obtain ⟨k, v⟩ := f
    unfold Map.del at h
    split at h
    · exact Nat.le_of_lt (((Map.sorted_cons _ _).1 hs).1 e t h)
    · split at h
      · cases h; exact Nat.le_refl _
      · cases h; exact Nat.le_refl _

theorem Map.sorted_del {α : Type} (m : Map α) (n : Nat) (hs : Map.sorted m = true) : Map.sorted (Map.del m n) = true := by
  induction m with
  | nil => rfl
  | cons e m ih =>
    obtain ⟨k, v⟩ := e
    have h3 := (Map.sorted_cons _ _).1 hs
    unfold Map.del
    split
    · exact h3.2
    · split
      · exact hs
      · refine (Map.sorted_cons _ _).2 ⟨fun f u hfu => ?_, ih h3.2⟩
        obtain ⟨g, t, hm, hk⟩ := Map.del_head m n h3.2 f u hfu
        exact Nat.lt_of_lt_of_le (h3.1 g t hm) hk

theorem Map.sorted_mapVal {α : Type} (m : Map α) (f : Nat → α → α) : Map.sorted (Map.mapVal m f) = Map.sorted m := by
  induction m with
  | nil => rfl
  | cons e m ih =>
    cases m with
    | nil => rfl
    | cons b m =>
      simp only [Map.mapVal, List.map_cons, Map.sorted] at ih ⊢
      rw [ih]

theorem Map.find_mapVal {α : Type} (m : Map α) (f : Nat → α → α) (n : Nat) :
    Map.find (Map.mapVal m f) n = (Map.find m n).map (f n) := by
  induction m with
  | nil => rfl
  | cons e m ih =>
    obtain ⟨k, v⟩ := e
    simp only [Map.mapVal, List.map_cons, Map.find] at ih ⊢
    split
    · next h => subst h; rfl
    · split
      · rfl
      · exact ih

theorem Map.mem_put {α : Type} (m : Map α) (n : Nat) (a : α) (e : Nat × α) (h : e ∈ Map.put m n a) : e = (n, a) ∨ e ∈ m := by
  induction m with
  | nil => simpa [Map.put] using h
  | cons b m ih =>
    obtain ⟨k, v⟩ := b
    unfold Map.put at h
    split at h
    · simpa using h
    · split at h
      · rcases List.mem_cons.1 h with h | h
        · exact .inl h
        · exact .inr (List.mem_cons_of_mem _ h)
      · rcases List.mem_cons.1 h with h | h
        · exact .inr (h ▸ List.mem_cons_self)
        · rcases ih h with h | h
          · exact .inl h
          · exact .inr (List.mem_cons_of_mem _ h)

theorem Map.mem_del {α : Type} (m : Map α) (n : Nat) (e : Nat × α) (h : e ∈ Map.del m n) : e ∈ m := by
  induction m with
  | nil => simp [Map.del] at h
  | cons b m ih =>
    obtain ⟨k, v⟩ := b
    unfold Map.del at h
    split at h
    · exact List.mem_cons_of_mem _ h
    · split at h
      · exact h
      · rcases List.mem_cons.1 h with h | h
        · exact h ▸ List.mem_cons_self
        · exact List.mem_cons_of_mem _ (ih h)

theorem Memory.read_write (m : Memory) (a j : Nat) (b : Byte) (hm : Memory.wf m = true) :
    Memory.read (Memory.write m a b) j = if j = a then b else Memory.read m j := by
  have hs : Map.sorted m = true := by simp [Memory.wf] at hm; exact hm.1
  unfold Memory.read Memory.write
  split
  · next hb =>
    unfold Map.findD
    rw [Map.find_del m a j hs]
    split
    · simp [hb]
    · rfl
  · rw [Map.findD_put]

theorem Memory.wf_write (m : Memory) (a : Nat) (b : Byte) (hm : Memory.wf m = true) : Memory.wf (Memory.write m a b) = true := by
  simp only [Memory.wf, Bool.and_eq_true, List.all_eq_true] at hm ⊢
  unfold Memory.write
  split
  · exact ⟨Map.sorted_del m a hm.1, fun e he => hm.2 e (Map.mem_del m a e he)⟩
  · next hb =>
    refine ⟨Map.sorted_put m a b hm.1, fun e he => ?_⟩
    rcases Map.mem_put m a b e he with h | h
    · subst h; simp [hb]
    · exact hm.2 e h

theorem Memory.wf_store (bs : List Byte) (m : Memory) (a : Nat) (hm : Memory.wf m = true) : Memory.wf (Memory.store m a bs) = true := by
  induction bs generalizing m a with
  | nil => exact hm
  | cons b bs ih => exact ih _ _ (Memory.wf_write m a b hm)

theorem Memory.wf_setLine (m : Memory) (a : Nat) (d : BitVec 1024) (hm : Memory.wf m = true) : Memory.wf (Memory.setLine m a d) = true :=
  Memory.wf_store _ m a hm

/-- A store of bytes changes exactly the bytes it names. -/
theorem Memory.read_store (bs : List Byte) (m : Memory) (a j : Nat) (hm : Memory.wf m = true) :
    Memory.read (Memory.store m a bs) j = if a ≤ j ∧ j < a + bs.length then bs.getD (j - a) 0 else Memory.read m j := by
  induction bs generalizing m a with
  | nil => simp only [Memory.store, List.length_nil]; rw [if_neg (by omega)]
  | cons b bs ih =>
    simp only [Memory.store, ih _ (a + 1) (Memory.wf_write m a b hm), Memory.read_write m a j b hm, List.length_cons]
    by_cases h1 : j = a
    · subst h1; simp
    · by_cases h2 : a + 1 ≤ j ∧ j < a + 1 + bs.length
      · have h3 : j - a = (j - (a + 1)) + 1 := by omega
        rw [if_pos h2, if_pos (by omega), h3, List.getD_cons_succ]
      · rw [if_neg h2, if_neg h1, if_neg (by omega)]

theorem Memory.bytes_length (m : Memory) (a n : Nat) : (Memory.bytes m a n).length = n := by
  induction n generalizing a with
  | zero => rfl
  | succ n ih => simp [Memory.bytes, ih]

theorem bytesOfNat_length (v n : Nat) : (bytesOfNat v n).length = n := by
  induction n generalizing v with
  | zero => rfl
  | succ n ih => simp [bytesOfNat, ih]

theorem natOfBytes_bytesOfNat (v n : Nat) : natOfBytes (bytesOfNat v n) = v % 256 ^ n := by
  induction n generalizing v with
  | zero => simp [bytesOfNat, natOfBytes, Nat.mod_one]
  | succ n ih =>
    simp only [bytesOfNat, natOfBytes, ih, BitVec.toNat_ofNat]
    have h : (256 : Nat) ^ (n + 1) = 256 * 256 ^ n := by rw [Nat.pow_succ, Nat.mul_comm]
    rw [h, Nat.mod_mul]

/-- A number stored and read back keeps its low bytes. -/
theorem Memory.num_store (m : Memory) (a v n : Nat) (hm : Memory.wf m = true) :
    Memory.num (Memory.store m a (bytesOfNat v n)) a n = v % 256 ^ n := by
  have key : ∀ (bs : List Byte) (k : Memory) (a : Nat), Memory.wf k = true → Memory.bytes (Memory.store k a bs) a bs.length = bs := by
    intro bs
    induction bs with
    | nil => intros; rfl
    | cons b bs ih =>
      intro k a hk
      simp only [Memory.store, List.length_cons, Memory.bytes]
      rw [ih _ (a + 1) (Memory.wf_write k a b hk)]
      congr 1
      rw [Memory.read_store bs _ (a + 1) a (Memory.wf_write k a b hk), if_neg (by omega), Memory.read_write k a a b hk, if_pos rfl]
  have h := key (bytesOfNat v n) m a hm
  rw [bytesOfNat_length] at h
  rw [Memory.num, h, natOfBytes_bytesOfNat]

end Sys2Proof.Machine
end

