-- ==== Sys2Proof/Laws/State.lean ====
section
/-! SUPPORT. One lemma per field per update of the state and of a hart, each true by unfolding once. -/

namespace Sys2Proof.Machine

open Sys2Proof

@[simp] theorem State.setHart_now (s : State) (k : Nat) (h : Hart) : (s.setHart k h).now = s.now := rfl
@[simp] theorem State.setHart_harts (s : State) (k : Nat) (h : Hart) : (s.setHart k h).harts = Map.put s.harts k h := rfl
@[simp] theorem State.setHart_cores (s : State) (k : Nat) (h : Hart) : (s.setHart k h).cores = s.cores := rfl
@[simp] theorem State.setHart_clusters (s : State) (k : Nat) (h : Hart) : (s.setHart k h).clusters = s.clusters := rfl
@[simp] theorem State.setHart_dies (s : State) (k : Nat) (h : Hart) : (s.setHart k h).dies = s.dies := rfl
@[simp] theorem State.setHart_mem (s : State) (k : Nat) (h : Hart) : (s.setHart k h).mem = s.mem := rfl
@[simp] theorem State.setHart_ctrls (s : State) (k : Nat) (h : Hart) : (s.setHart k h).ctrls = s.ctrls := rfl
@[simp] theorem State.setHart_parts (s : State) (k : Nat) (h : Hart) : (s.setHart k h).parts = s.parts := rfl
@[simp] theorem State.setHart_queues (s : State) (k : Nat) (h : Hart) : (s.setHart k h).queues = s.queues := rfl
@[simp] theorem State.setHart_launches (s : State) (k : Nat) (h : Hart) : (s.setHart k h).launches = s.launches := rfl
@[simp] theorem State.setHart_nextLaunch (s : State) (k : Nat) (h : Hart) : (s.setHart k h).nextLaunch = s.nextLaunch := rfl
@[simp] theorem State.setHart_orders (s : State) (k : Nat) (h : Hart) : (s.setHart k h).orders = s.orders := rfl
@[simp] theorem State.setHart_links (s : State) (k : Nat) (h : Hart) : (s.setHart k h).links = s.links := rfl
@[simp] theorem State.setHart_host (s : State) (k : Nat) (h : Hart) : (s.setHart k h).host = s.host := rfl
@[simp] theorem State.setHart_pkg (s : State) (k : Nat) (h : Hart) : (s.setHart k h).pkg = s.pkg := rfl
@[simp] theorem State.setHart_spdm (s : State) (k : Nat) (h : Hart) : (s.setHart k h).spdm = s.spdm := rfl
@[simp] theorem State.setHart_cur (s : State) (k : Nat) (h : Hart) : (s.setHart k h).cur = s.cur := rfl
@[simp] theorem State.setHart_nextCore (s : State) (k : Nat) (h : Hart) : (s.setHart k h).nextCore = s.nextCore := rfl
@[simp] theorem State.setHart_schedule (s : State) (k : Nat) (h : Hart) : (s.setHart k h).schedule = s.schedule := rfl
@[simp] theorem State.setHart_latencies (s : State) (k : Nat) (h : Hart) : (s.setHart k h).latencies = s.latencies := rfl
@[simp] theorem State.setHart_fresh (s : State) (k : Nat) (h : Hart) : (s.setHart k h).fresh = s.fresh := rfl
@[simp] theorem State.setHart_tag (s : State) (k : Nat) (h : Hart) : (s.setHart k h).tag = s.tag := rfl
@[simp] theorem State.setHart_arg (s : State) (k : Nat) (h : Hart) : (s.setHart k h).arg = s.arg := rfl

@[simp] theorem State.setCur_now (s : State) (h : Hart) : (s.setCur h).now = s.now := rfl
@[simp] theorem State.setCur_harts (s : State) (h : Hart) : (s.setCur h).harts = Map.put s.harts s.cur h := rfl
@[simp] theorem State.setCur_cores (s : State) (h : Hart) : (s.setCur h).cores = s.cores := rfl
@[simp] theorem State.setCur_clusters (s : State) (h : Hart) : (s.setCur h).clusters = s.clusters := rfl
@[simp] theorem State.setCur_dies (s : State) (h : Hart) : (s.setCur h).dies = s.dies := rfl
@[simp] theorem State.setCur_mem (s : State) (h : Hart) : (s.setCur h).mem = s.mem := rfl
@[simp] theorem State.setCur_ctrls (s : State) (h : Hart) : (s.setCur h).ctrls = s.ctrls := rfl
@[simp] theorem State.setCur_parts (s : State) (h : Hart) : (s.setCur h).parts = s.parts := rfl
@[simp] theorem State.setCur_queues (s : State) (h : Hart) : (s.setCur h).queues = s.queues := rfl
@[simp] theorem State.setCur_launches (s : State) (h : Hart) : (s.setCur h).launches = s.launches := rfl
@[simp] theorem State.setCur_nextLaunch (s : State) (h : Hart) : (s.setCur h).nextLaunch = s.nextLaunch := rfl
@[simp] theorem State.setCur_orders (s : State) (h : Hart) : (s.setCur h).orders = s.orders := rfl
@[simp] theorem State.setCur_links (s : State) (h : Hart) : (s.setCur h).links = s.links := rfl
@[simp] theorem State.setCur_host (s : State) (h : Hart) : (s.setCur h).host = s.host := rfl
@[simp] theorem State.setCur_pkg (s : State) (h : Hart) : (s.setCur h).pkg = s.pkg := rfl
@[simp] theorem State.setCur_spdm (s : State) (h : Hart) : (s.setCur h).spdm = s.spdm := rfl
@[simp] theorem State.setCur_cur (s : State) (h : Hart) : (s.setCur h).cur = s.cur := rfl
@[simp] theorem State.setCur_nextCore (s : State) (h : Hart) : (s.setCur h).nextCore = s.nextCore := rfl
@[simp] theorem State.setCur_schedule (s : State) (h : Hart) : (s.setCur h).schedule = s.schedule := rfl
@[simp] theorem State.setCur_latencies (s : State) (h : Hart) : (s.setCur h).latencies = s.latencies := rfl
@[simp] theorem State.setCur_fresh (s : State) (h : Hart) : (s.setCur h).fresh = s.fresh := rfl
@[simp] theorem State.setCur_tag (s : State) (h : Hart) : (s.setCur h).tag = s.tag := rfl
@[simp] theorem State.setCur_arg (s : State) (h : Hart) : (s.setCur h).arg = s.arg := rfl

@[simp] theorem State.delHart_now (s : State) (k : Nat) : (s.delHart k).now = s.now := rfl
@[simp] theorem State.delHart_harts (s : State) (k : Nat) : (s.delHart k).harts = Map.del s.harts k := rfl
@[simp] theorem State.delHart_cores (s : State) (k : Nat) : (s.delHart k).cores = s.cores := rfl
@[simp] theorem State.delHart_clusters (s : State) (k : Nat) : (s.delHart k).clusters = s.clusters := rfl
@[simp] theorem State.delHart_dies (s : State) (k : Nat) : (s.delHart k).dies = s.dies := rfl
@[simp] theorem State.delHart_mem (s : State) (k : Nat) : (s.delHart k).mem = s.mem := rfl
@[simp] theorem State.delHart_ctrls (s : State) (k : Nat) : (s.delHart k).ctrls = s.ctrls := rfl
@[simp] theorem State.delHart_parts (s : State) (k : Nat) : (s.delHart k).parts = s.parts := rfl
@[simp] theorem State.delHart_queues (s : State) (k : Nat) : (s.delHart k).queues = s.queues := rfl
@[simp] theorem State.delHart_launches (s : State) (k : Nat) : (s.delHart k).launches = s.launches := rfl
@[simp] theorem State.delHart_nextLaunch (s : State) (k : Nat) : (s.delHart k).nextLaunch = s.nextLaunch := rfl
@[simp] theorem State.delHart_orders (s : State) (k : Nat) : (s.delHart k).orders = s.orders := rfl
@[simp] theorem State.delHart_links (s : State) (k : Nat) : (s.delHart k).links = s.links := rfl
@[simp] theorem State.delHart_host (s : State) (k : Nat) : (s.delHart k).host = s.host := rfl
@[simp] theorem State.delHart_pkg (s : State) (k : Nat) : (s.delHart k).pkg = s.pkg := rfl
@[simp] theorem State.delHart_spdm (s : State) (k : Nat) : (s.delHart k).spdm = s.spdm := rfl
@[simp] theorem State.delHart_cur (s : State) (k : Nat) : (s.delHart k).cur = s.cur := rfl
@[simp] theorem State.delHart_nextCore (s : State) (k : Nat) : (s.delHart k).nextCore = s.nextCore := rfl
@[simp] theorem State.delHart_schedule (s : State) (k : Nat) : (s.delHart k).schedule = s.schedule := rfl
@[simp] theorem State.delHart_latencies (s : State) (k : Nat) : (s.delHart k).latencies = s.latencies := rfl
@[simp] theorem State.delHart_fresh (s : State) (k : Nat) : (s.delHart k).fresh = s.fresh := rfl
@[simp] theorem State.delHart_tag (s : State) (k : Nat) : (s.delHart k).tag = s.tag := rfl
@[simp] theorem State.delHart_arg (s : State) (k : Nat) : (s.delHart k).arg = s.arg := rfl

@[simp] theorem State.setCore_now (s : State) (k : Nat) (v : Core) : (s.setCore k v).now = s.now := rfl
@[simp] theorem State.setCore_harts (s : State) (k : Nat) (v : Core) : (s.setCore k v).harts = s.harts := rfl
@[simp] theorem State.setCore_cores (s : State) (k : Nat) (v : Core) : (s.setCore k v).cores = Map.put s.cores k v := rfl
@[simp] theorem State.setCore_clusters (s : State) (k : Nat) (v : Core) : (s.setCore k v).clusters = s.clusters := rfl
@[simp] theorem State.setCore_dies (s : State) (k : Nat) (v : Core) : (s.setCore k v).dies = s.dies := rfl
@[simp] theorem State.setCore_mem (s : State) (k : Nat) (v : Core) : (s.setCore k v).mem = s.mem := rfl
@[simp] theorem State.setCore_ctrls (s : State) (k : Nat) (v : Core) : (s.setCore k v).ctrls = s.ctrls := rfl
@[simp] theorem State.setCore_parts (s : State) (k : Nat) (v : Core) : (s.setCore k v).parts = s.parts := rfl
@[simp] theorem State.setCore_queues (s : State) (k : Nat) (v : Core) : (s.setCore k v).queues = s.queues := rfl
@[simp] theorem State.setCore_launches (s : State) (k : Nat) (v : Core) : (s.setCore k v).launches = s.launches := rfl
@[simp] theorem State.setCore_nextLaunch (s : State) (k : Nat) (v : Core) : (s.setCore k v).nextLaunch = s.nextLaunch := rfl
@[simp] theorem State.setCore_orders (s : State) (k : Nat) (v : Core) : (s.setCore k v).orders = s.orders := rfl
@[simp] theorem State.setCore_links (s : State) (k : Nat) (v : Core) : (s.setCore k v).links = s.links := rfl
@[simp] theorem State.setCore_host (s : State) (k : Nat) (v : Core) : (s.setCore k v).host = s.host := rfl
@[simp] theorem State.setCore_pkg (s : State) (k : Nat) (v : Core) : (s.setCore k v).pkg = s.pkg := rfl
@[simp] theorem State.setCore_spdm (s : State) (k : Nat) (v : Core) : (s.setCore k v).spdm = s.spdm := rfl
@[simp] theorem State.setCore_cur (s : State) (k : Nat) (v : Core) : (s.setCore k v).cur = s.cur := rfl
@[simp] theorem State.setCore_nextCore (s : State) (k : Nat) (v : Core) : (s.setCore k v).nextCore = s.nextCore := rfl
@[simp] theorem State.setCore_schedule (s : State) (k : Nat) (v : Core) : (s.setCore k v).schedule = s.schedule := rfl
@[simp] theorem State.setCore_latencies (s : State) (k : Nat) (v : Core) : (s.setCore k v).latencies = s.latencies := rfl
@[simp] theorem State.setCore_fresh (s : State) (k : Nat) (v : Core) : (s.setCore k v).fresh = s.fresh := rfl
@[simp] theorem State.setCore_tag (s : State) (k : Nat) (v : Core) : (s.setCore k v).tag = s.tag := rfl
@[simp] theorem State.setCore_arg (s : State) (k : Nat) (v : Core) : (s.setCore k v).arg = s.arg := rfl

@[simp] theorem State.modCore_now (s : State) (k : Nat) (f : Core → Core) : (s.modCore k f).now = s.now := rfl
@[simp] theorem State.modCore_harts (s : State) (k : Nat) (f : Core → Core) : (s.modCore k f).harts = s.harts := rfl
@[simp] theorem State.modCore_cores (s : State) (k : Nat) (f : Core → Core) : (s.modCore k f).cores = Map.put s.cores k (f (s.core k)) := rfl
@[simp] theorem State.modCore_clusters (s : State) (k : Nat) (f : Core → Core) : (s.modCore k f).clusters = s.clusters := rfl
@[simp] theorem State.modCore_dies (s : State) (k : Nat) (f : Core → Core) : (s.modCore k f).dies = s.dies := rfl
@[simp] theorem State.modCore_mem (s : State) (k : Nat) (f : Core → Core) : (s.modCore k f).mem = s.mem := rfl
@[simp] theorem State.modCore_ctrls (s : State) (k : Nat) (f : Core → Core) : (s.modCore k f).ctrls = s.ctrls := rfl
@[simp] theorem State.modCore_parts (s : State) (k : Nat) (f : Core → Core) : (s.modCore k f).parts = s.parts := rfl
@[simp] theorem State.modCore_queues (s : State) (k : Nat) (f : Core → Core) : (s.modCore k f).queues = s.queues := rfl
@[simp] theorem State.modCore_launches (s : State) (k : Nat) (f : Core → Core) : (s.modCore k f).launches = s.launches := rfl
@[simp] theorem State.modCore_nextLaunch (s : State) (k : Nat) (f : Core → Core) : (s.modCore k f).nextLaunch = s.nextLaunch := rfl
@[simp] theorem State.modCore_orders (s : State) (k : Nat) (f : Core → Core) : (s.modCore k f).orders = s.orders := rfl
@[simp] theorem State.modCore_links (s : State) (k : Nat) (f : Core → Core) : (s.modCore k f).links = s.links := rfl
@[simp] theorem State.modCore_host (s : State) (k : Nat) (f : Core → Core) : (s.modCore k f).host = s.host := rfl
@[simp] theorem State.modCore_pkg (s : State) (k : Nat) (f : Core → Core) : (s.modCore k f).pkg = s.pkg := rfl
@[simp] theorem State.modCore_spdm (s : State) (k : Nat) (f : Core → Core) : (s.modCore k f).spdm = s.spdm := rfl
@[simp] theorem State.modCore_cur (s : State) (k : Nat) (f : Core → Core) : (s.modCore k f).cur = s.cur := rfl
@[simp] theorem State.modCore_nextCore (s : State) (k : Nat) (f : Core → Core) : (s.modCore k f).nextCore = s.nextCore := rfl
@[simp] theorem State.modCore_schedule (s : State) (k : Nat) (f : Core → Core) : (s.modCore k f).schedule = s.schedule := rfl
@[simp] theorem State.modCore_latencies (s : State) (k : Nat) (f : Core → Core) : (s.modCore k f).latencies = s.latencies := rfl
@[simp] theorem State.modCore_fresh (s : State) (k : Nat) (f : Core → Core) : (s.modCore k f).fresh = s.fresh := rfl
@[simp] theorem State.modCore_tag (s : State) (k : Nat) (f : Core → Core) : (s.modCore k f).tag = s.tag := rfl
@[simp] theorem State.modCore_arg (s : State) (k : Nat) (f : Core → Core) : (s.modCore k f).arg = s.arg := rfl

@[simp] theorem State.setCluster_now (s : State) (k : Nat) (v : Cluster) : (s.setCluster k v).now = s.now := rfl
@[simp] theorem State.setCluster_harts (s : State) (k : Nat) (v : Cluster) : (s.setCluster k v).harts = s.harts := rfl
@[simp] theorem State.setCluster_cores (s : State) (k : Nat) (v : Cluster) : (s.setCluster k v).cores = s.cores := rfl
@[simp] theorem State.setCluster_clusters (s : State) (k : Nat) (v : Cluster) : (s.setCluster k v).clusters = Map.put s.clusters k v := rfl
@[simp] theorem State.setCluster_dies (s : State) (k : Nat) (v : Cluster) : (s.setCluster k v).dies = s.dies := rfl
@[simp] theorem State.setCluster_mem (s : State) (k : Nat) (v : Cluster) : (s.setCluster k v).mem = s.mem := rfl
@[simp] theorem State.setCluster_ctrls (s : State) (k : Nat) (v : Cluster) : (s.setCluster k v).ctrls = s.ctrls := rfl
@[simp] theorem State.setCluster_parts (s : State) (k : Nat) (v : Cluster) : (s.setCluster k v).parts = s.parts := rfl
@[simp] theorem State.setCluster_queues (s : State) (k : Nat) (v : Cluster) : (s.setCluster k v).queues = s.queues := rfl
@[simp] theorem State.setCluster_launches (s : State) (k : Nat) (v : Cluster) : (s.setCluster k v).launches = s.launches := rfl
@[simp] theorem State.setCluster_nextLaunch (s : State) (k : Nat) (v : Cluster) : (s.setCluster k v).nextLaunch = s.nextLaunch := rfl
@[simp] theorem State.setCluster_orders (s : State) (k : Nat) (v : Cluster) : (s.setCluster k v).orders = s.orders := rfl
@[simp] theorem State.setCluster_links (s : State) (k : Nat) (v : Cluster) : (s.setCluster k v).links = s.links := rfl
@[simp] theorem State.setCluster_host (s : State) (k : Nat) (v : Cluster) : (s.setCluster k v).host = s.host := rfl
@[simp] theorem State.setCluster_pkg (s : State) (k : Nat) (v : Cluster) : (s.setCluster k v).pkg = s.pkg := rfl
@[simp] theorem State.setCluster_spdm (s : State) (k : Nat) (v : Cluster) : (s.setCluster k v).spdm = s.spdm := rfl
@[simp] theorem State.setCluster_cur (s : State) (k : Nat) (v : Cluster) : (s.setCluster k v).cur = s.cur := rfl
@[simp] theorem State.setCluster_nextCore (s : State) (k : Nat) (v : Cluster) : (s.setCluster k v).nextCore = s.nextCore := rfl
@[simp] theorem State.setCluster_schedule (s : State) (k : Nat) (v : Cluster) : (s.setCluster k v).schedule = s.schedule := rfl
@[simp] theorem State.setCluster_latencies (s : State) (k : Nat) (v : Cluster) : (s.setCluster k v).latencies = s.latencies := rfl
@[simp] theorem State.setCluster_fresh (s : State) (k : Nat) (v : Cluster) : (s.setCluster k v).fresh = s.fresh := rfl
@[simp] theorem State.setCluster_tag (s : State) (k : Nat) (v : Cluster) : (s.setCluster k v).tag = s.tag := rfl
@[simp] theorem State.setCluster_arg (s : State) (k : Nat) (v : Cluster) : (s.setCluster k v).arg = s.arg := rfl

@[simp] theorem State.modCluster_now (s : State) (k : Nat) (f : Cluster → Cluster) : (s.modCluster k f).now = s.now := rfl
@[simp] theorem State.modCluster_harts (s : State) (k : Nat) (f : Cluster → Cluster) : (s.modCluster k f).harts = s.harts := rfl
@[simp] theorem State.modCluster_cores (s : State) (k : Nat) (f : Cluster → Cluster) : (s.modCluster k f).cores = s.cores := rfl
@[simp] theorem State.modCluster_clusters (s : State) (k : Nat) (f : Cluster → Cluster) : (s.modCluster k f).clusters = Map.put s.clusters k (f (s.cluster k)) := rfl
@[simp] theorem State.modCluster_dies (s : State) (k : Nat) (f : Cluster → Cluster) : (s.modCluster k f).dies = s.dies := rfl
@[simp] theorem State.modCluster_mem (s : State) (k : Nat) (f : Cluster → Cluster) : (s.modCluster k f).mem = s.mem := rfl
@[simp] theorem State.modCluster_ctrls (s : State) (k : Nat) (f : Cluster → Cluster) : (s.modCluster k f).ctrls = s.ctrls := rfl
@[simp] theorem State.modCluster_parts (s : State) (k : Nat) (f : Cluster → Cluster) : (s.modCluster k f).parts = s.parts := rfl
@[simp] theorem State.modCluster_queues (s : State) (k : Nat) (f : Cluster → Cluster) : (s.modCluster k f).queues = s.queues := rfl
@[simp] theorem State.modCluster_launches (s : State) (k : Nat) (f : Cluster → Cluster) : (s.modCluster k f).launches = s.launches := rfl
@[simp] theorem State.modCluster_nextLaunch (s : State) (k : Nat) (f : Cluster → Cluster) : (s.modCluster k f).nextLaunch = s.nextLaunch := rfl
@[simp] theorem State.modCluster_orders (s : State) (k : Nat) (f : Cluster → Cluster) : (s.modCluster k f).orders = s.orders := rfl
@[simp] theorem State.modCluster_links (s : State) (k : Nat) (f : Cluster → Cluster) : (s.modCluster k f).links = s.links := rfl
@[simp] theorem State.modCluster_host (s : State) (k : Nat) (f : Cluster → Cluster) : (s.modCluster k f).host = s.host := rfl
@[simp] theorem State.modCluster_pkg (s : State) (k : Nat) (f : Cluster → Cluster) : (s.modCluster k f).pkg = s.pkg := rfl
@[simp] theorem State.modCluster_spdm (s : State) (k : Nat) (f : Cluster → Cluster) : (s.modCluster k f).spdm = s.spdm := rfl
@[simp] theorem State.modCluster_cur (s : State) (k : Nat) (f : Cluster → Cluster) : (s.modCluster k f).cur = s.cur := rfl
@[simp] theorem State.modCluster_nextCore (s : State) (k : Nat) (f : Cluster → Cluster) : (s.modCluster k f).nextCore = s.nextCore := rfl
@[simp] theorem State.modCluster_schedule (s : State) (k : Nat) (f : Cluster → Cluster) : (s.modCluster k f).schedule = s.schedule := rfl
@[simp] theorem State.modCluster_latencies (s : State) (k : Nat) (f : Cluster → Cluster) : (s.modCluster k f).latencies = s.latencies := rfl
@[simp] theorem State.modCluster_fresh (s : State) (k : Nat) (f : Cluster → Cluster) : (s.modCluster k f).fresh = s.fresh := rfl
@[simp] theorem State.modCluster_tag (s : State) (k : Nat) (f : Cluster → Cluster) : (s.modCluster k f).tag = s.tag := rfl
@[simp] theorem State.modCluster_arg (s : State) (k : Nat) (f : Cluster → Cluster) : (s.modCluster k f).arg = s.arg := rfl

@[simp] theorem State.setDie_now (s : State) (k : Nat) (v : Die) : (s.setDie k v).now = s.now := rfl
@[simp] theorem State.setDie_harts (s : State) (k : Nat) (v : Die) : (s.setDie k v).harts = s.harts := rfl
@[simp] theorem State.setDie_cores (s : State) (k : Nat) (v : Die) : (s.setDie k v).cores = s.cores := rfl
@[simp] theorem State.setDie_clusters (s : State) (k : Nat) (v : Die) : (s.setDie k v).clusters = s.clusters := rfl
@[simp] theorem State.setDie_dies (s : State) (k : Nat) (v : Die) : (s.setDie k v).dies = Map.put s.dies k v := rfl
@[simp] theorem State.setDie_mem (s : State) (k : Nat) (v : Die) : (s.setDie k v).mem = s.mem := rfl
@[simp] theorem State.setDie_ctrls (s : State) (k : Nat) (v : Die) : (s.setDie k v).ctrls = s.ctrls := rfl
@[simp] theorem State.setDie_parts (s : State) (k : Nat) (v : Die) : (s.setDie k v).parts = s.parts := rfl
@[simp] theorem State.setDie_queues (s : State) (k : Nat) (v : Die) : (s.setDie k v).queues = s.queues := rfl
@[simp] theorem State.setDie_launches (s : State) (k : Nat) (v : Die) : (s.setDie k v).launches = s.launches := rfl
@[simp] theorem State.setDie_nextLaunch (s : State) (k : Nat) (v : Die) : (s.setDie k v).nextLaunch = s.nextLaunch := rfl
@[simp] theorem State.setDie_orders (s : State) (k : Nat) (v : Die) : (s.setDie k v).orders = s.orders := rfl
@[simp] theorem State.setDie_links (s : State) (k : Nat) (v : Die) : (s.setDie k v).links = s.links := rfl
@[simp] theorem State.setDie_host (s : State) (k : Nat) (v : Die) : (s.setDie k v).host = s.host := rfl
@[simp] theorem State.setDie_pkg (s : State) (k : Nat) (v : Die) : (s.setDie k v).pkg = s.pkg := rfl
@[simp] theorem State.setDie_spdm (s : State) (k : Nat) (v : Die) : (s.setDie k v).spdm = s.spdm := rfl
@[simp] theorem State.setDie_cur (s : State) (k : Nat) (v : Die) : (s.setDie k v).cur = s.cur := rfl
@[simp] theorem State.setDie_nextCore (s : State) (k : Nat) (v : Die) : (s.setDie k v).nextCore = s.nextCore := rfl
@[simp] theorem State.setDie_schedule (s : State) (k : Nat) (v : Die) : (s.setDie k v).schedule = s.schedule := rfl
@[simp] theorem State.setDie_latencies (s : State) (k : Nat) (v : Die) : (s.setDie k v).latencies = s.latencies := rfl
@[simp] theorem State.setDie_fresh (s : State) (k : Nat) (v : Die) : (s.setDie k v).fresh = s.fresh := rfl
@[simp] theorem State.setDie_tag (s : State) (k : Nat) (v : Die) : (s.setDie k v).tag = s.tag := rfl
@[simp] theorem State.setDie_arg (s : State) (k : Nat) (v : Die) : (s.setDie k v).arg = s.arg := rfl

@[simp] theorem State.modDie_now (s : State) (k : Nat) (f : Die → Die) : (s.modDie k f).now = s.now := rfl
@[simp] theorem State.modDie_harts (s : State) (k : Nat) (f : Die → Die) : (s.modDie k f).harts = s.harts := rfl
@[simp] theorem State.modDie_cores (s : State) (k : Nat) (f : Die → Die) : (s.modDie k f).cores = s.cores := rfl
@[simp] theorem State.modDie_clusters (s : State) (k : Nat) (f : Die → Die) : (s.modDie k f).clusters = s.clusters := rfl
@[simp] theorem State.modDie_dies (s : State) (k : Nat) (f : Die → Die) : (s.modDie k f).dies = Map.put s.dies k (f (s.die k)) := rfl
@[simp] theorem State.modDie_mem (s : State) (k : Nat) (f : Die → Die) : (s.modDie k f).mem = s.mem := rfl
@[simp] theorem State.modDie_ctrls (s : State) (k : Nat) (f : Die → Die) : (s.modDie k f).ctrls = s.ctrls := rfl
@[simp] theorem State.modDie_parts (s : State) (k : Nat) (f : Die → Die) : (s.modDie k f).parts = s.parts := rfl
@[simp] theorem State.modDie_queues (s : State) (k : Nat) (f : Die → Die) : (s.modDie k f).queues = s.queues := rfl
@[simp] theorem State.modDie_launches (s : State) (k : Nat) (f : Die → Die) : (s.modDie k f).launches = s.launches := rfl
@[simp] theorem State.modDie_nextLaunch (s : State) (k : Nat) (f : Die → Die) : (s.modDie k f).nextLaunch = s.nextLaunch := rfl
@[simp] theorem State.modDie_orders (s : State) (k : Nat) (f : Die → Die) : (s.modDie k f).orders = s.orders := rfl
@[simp] theorem State.modDie_links (s : State) (k : Nat) (f : Die → Die) : (s.modDie k f).links = s.links := rfl
@[simp] theorem State.modDie_host (s : State) (k : Nat) (f : Die → Die) : (s.modDie k f).host = s.host := rfl
@[simp] theorem State.modDie_pkg (s : State) (k : Nat) (f : Die → Die) : (s.modDie k f).pkg = s.pkg := rfl
@[simp] theorem State.modDie_spdm (s : State) (k : Nat) (f : Die → Die) : (s.modDie k f).spdm = s.spdm := rfl
@[simp] theorem State.modDie_cur (s : State) (k : Nat) (f : Die → Die) : (s.modDie k f).cur = s.cur := rfl
@[simp] theorem State.modDie_nextCore (s : State) (k : Nat) (f : Die → Die) : (s.modDie k f).nextCore = s.nextCore := rfl
@[simp] theorem State.modDie_schedule (s : State) (k : Nat) (f : Die → Die) : (s.modDie k f).schedule = s.schedule := rfl
@[simp] theorem State.modDie_latencies (s : State) (k : Nat) (f : Die → Die) : (s.modDie k f).latencies = s.latencies := rfl
@[simp] theorem State.modDie_fresh (s : State) (k : Nat) (f : Die → Die) : (s.modDie k f).fresh = s.fresh := rfl
@[simp] theorem State.modDie_tag (s : State) (k : Nat) (f : Die → Die) : (s.modDie k f).tag = s.tag := rfl
@[simp] theorem State.modDie_arg (s : State) (k : Nat) (f : Die → Die) : (s.modDie k f).arg = s.arg := rfl

@[simp] theorem State.setPart_now (s : State) (k : Nat) (v : Part) : (s.setPart k v).now = s.now := rfl
@[simp] theorem State.setPart_harts (s : State) (k : Nat) (v : Part) : (s.setPart k v).harts = s.harts := rfl
@[simp] theorem State.setPart_cores (s : State) (k : Nat) (v : Part) : (s.setPart k v).cores = s.cores := rfl
@[simp] theorem State.setPart_clusters (s : State) (k : Nat) (v : Part) : (s.setPart k v).clusters = s.clusters := rfl
@[simp] theorem State.setPart_dies (s : State) (k : Nat) (v : Part) : (s.setPart k v).dies = s.dies := rfl
@[simp] theorem State.setPart_mem (s : State) (k : Nat) (v : Part) : (s.setPart k v).mem = s.mem := rfl
@[simp] theorem State.setPart_ctrls (s : State) (k : Nat) (v : Part) : (s.setPart k v).ctrls = s.ctrls := rfl
@[simp] theorem State.setPart_parts (s : State) (k : Nat) (v : Part) : (s.setPart k v).parts = Map.put s.parts k v := rfl
@[simp] theorem State.setPart_queues (s : State) (k : Nat) (v : Part) : (s.setPart k v).queues = s.queues := rfl
@[simp] theorem State.setPart_launches (s : State) (k : Nat) (v : Part) : (s.setPart k v).launches = s.launches := rfl
@[simp] theorem State.setPart_nextLaunch (s : State) (k : Nat) (v : Part) : (s.setPart k v).nextLaunch = s.nextLaunch := rfl
@[simp] theorem State.setPart_orders (s : State) (k : Nat) (v : Part) : (s.setPart k v).orders = s.orders := rfl
@[simp] theorem State.setPart_links (s : State) (k : Nat) (v : Part) : (s.setPart k v).links = s.links := rfl
@[simp] theorem State.setPart_host (s : State) (k : Nat) (v : Part) : (s.setPart k v).host = s.host := rfl
@[simp] theorem State.setPart_pkg (s : State) (k : Nat) (v : Part) : (s.setPart k v).pkg = s.pkg := rfl
@[simp] theorem State.setPart_spdm (s : State) (k : Nat) (v : Part) : (s.setPart k v).spdm = s.spdm := rfl
@[simp] theorem State.setPart_cur (s : State) (k : Nat) (v : Part) : (s.setPart k v).cur = s.cur := rfl
@[simp] theorem State.setPart_nextCore (s : State) (k : Nat) (v : Part) : (s.setPart k v).nextCore = s.nextCore := rfl
@[simp] theorem State.setPart_schedule (s : State) (k : Nat) (v : Part) : (s.setPart k v).schedule = s.schedule := rfl
@[simp] theorem State.setPart_latencies (s : State) (k : Nat) (v : Part) : (s.setPart k v).latencies = s.latencies := rfl
@[simp] theorem State.setPart_fresh (s : State) (k : Nat) (v : Part) : (s.setPart k v).fresh = s.fresh := rfl
@[simp] theorem State.setPart_tag (s : State) (k : Nat) (v : Part) : (s.setPart k v).tag = s.tag := rfl
@[simp] theorem State.setPart_arg (s : State) (k : Nat) (v : Part) : (s.setPart k v).arg = s.arg := rfl

@[simp] theorem State.setLaunch_now (s : State) (k : Nat) (v : Launch) : (s.setLaunch k v).now = s.now := rfl
@[simp] theorem State.setLaunch_harts (s : State) (k : Nat) (v : Launch) : (s.setLaunch k v).harts = s.harts := rfl
@[simp] theorem State.setLaunch_cores (s : State) (k : Nat) (v : Launch) : (s.setLaunch k v).cores = s.cores := rfl
@[simp] theorem State.setLaunch_clusters (s : State) (k : Nat) (v : Launch) : (s.setLaunch k v).clusters = s.clusters := rfl
@[simp] theorem State.setLaunch_dies (s : State) (k : Nat) (v : Launch) : (s.setLaunch k v).dies = s.dies := rfl
@[simp] theorem State.setLaunch_mem (s : State) (k : Nat) (v : Launch) : (s.setLaunch k v).mem = s.mem := rfl
@[simp] theorem State.setLaunch_ctrls (s : State) (k : Nat) (v : Launch) : (s.setLaunch k v).ctrls = s.ctrls := rfl
@[simp] theorem State.setLaunch_parts (s : State) (k : Nat) (v : Launch) : (s.setLaunch k v).parts = s.parts := rfl
@[simp] theorem State.setLaunch_queues (s : State) (k : Nat) (v : Launch) : (s.setLaunch k v).queues = s.queues := rfl
@[simp] theorem State.setLaunch_launches (s : State) (k : Nat) (v : Launch) : (s.setLaunch k v).launches = Map.put s.launches k v := rfl
@[simp] theorem State.setLaunch_nextLaunch (s : State) (k : Nat) (v : Launch) : (s.setLaunch k v).nextLaunch = s.nextLaunch := rfl
@[simp] theorem State.setLaunch_orders (s : State) (k : Nat) (v : Launch) : (s.setLaunch k v).orders = s.orders := rfl
@[simp] theorem State.setLaunch_links (s : State) (k : Nat) (v : Launch) : (s.setLaunch k v).links = s.links := rfl
@[simp] theorem State.setLaunch_host (s : State) (k : Nat) (v : Launch) : (s.setLaunch k v).host = s.host := rfl
@[simp] theorem State.setLaunch_pkg (s : State) (k : Nat) (v : Launch) : (s.setLaunch k v).pkg = s.pkg := rfl
@[simp] theorem State.setLaunch_spdm (s : State) (k : Nat) (v : Launch) : (s.setLaunch k v).spdm = s.spdm := rfl
@[simp] theorem State.setLaunch_cur (s : State) (k : Nat) (v : Launch) : (s.setLaunch k v).cur = s.cur := rfl
@[simp] theorem State.setLaunch_nextCore (s : State) (k : Nat) (v : Launch) : (s.setLaunch k v).nextCore = s.nextCore := rfl
@[simp] theorem State.setLaunch_schedule (s : State) (k : Nat) (v : Launch) : (s.setLaunch k v).schedule = s.schedule := rfl
@[simp] theorem State.setLaunch_latencies (s : State) (k : Nat) (v : Launch) : (s.setLaunch k v).latencies = s.latencies := rfl
@[simp] theorem State.setLaunch_fresh (s : State) (k : Nat) (v : Launch) : (s.setLaunch k v).fresh = s.fresh := rfl
@[simp] theorem State.setLaunch_tag (s : State) (k : Nat) (v : Launch) : (s.setLaunch k v).tag = s.tag := rfl
@[simp] theorem State.setLaunch_arg (s : State) (k : Nat) (v : Launch) : (s.setLaunch k v).arg = s.arg := rfl

@[simp] theorem State.modHarts_now (s : State) (p : Nat → Hart → Bool) (f : Nat → Hart → Hart) : (s.modHarts p f).now = s.now := rfl
@[simp] theorem State.modHarts_harts (s : State) (p : Nat → Hart → Bool) (f : Nat → Hart → Hart) : (s.modHarts p f).harts = Map.mapVal s.harts (fun k h => if p k h then f k h else h) := rfl
@[simp] theorem State.modHarts_cores (s : State) (p : Nat → Hart → Bool) (f : Nat → Hart → Hart) : (s.modHarts p f).cores = s.cores := rfl
@[simp] theorem State.modHarts_clusters (s : State) (p : Nat → Hart → Bool) (f : Nat → Hart → Hart) : (s.modHarts p f).clusters = s.clusters := rfl
@[simp] theorem State.modHarts_dies (s : State) (p : Nat → Hart → Bool) (f : Nat → Hart → Hart) : (s.modHarts p f).dies = s.dies := rfl
@[simp] theorem State.modHarts_mem (s : State) (p : Nat → Hart → Bool) (f : Nat → Hart → Hart) : (s.modHarts p f).mem = s.mem := rfl
@[simp] theorem State.modHarts_ctrls (s : State) (p : Nat → Hart → Bool) (f : Nat → Hart → Hart) : (s.modHarts p f).ctrls = s.ctrls := rfl
@[simp] theorem State.modHarts_parts (s : State) (p : Nat → Hart → Bool) (f : Nat → Hart → Hart) : (s.modHarts p f).parts = s.parts := rfl
@[simp] theorem State.modHarts_queues (s : State) (p : Nat → Hart → Bool) (f : Nat → Hart → Hart) : (s.modHarts p f).queues = s.queues := rfl
@[simp] theorem State.modHarts_launches (s : State) (p : Nat → Hart → Bool) (f : Nat → Hart → Hart) : (s.modHarts p f).launches = s.launches := rfl
@[simp] theorem State.modHarts_nextLaunch (s : State) (p : Nat → Hart → Bool) (f : Nat → Hart → Hart) : (s.modHarts p f).nextLaunch = s.nextLaunch := rfl
@[simp] theorem State.modHarts_orders (s : State) (p : Nat → Hart → Bool) (f : Nat → Hart → Hart) : (s.modHarts p f).orders = s.orders := rfl
@[simp] theorem State.modHarts_links (s : State) (p : Nat → Hart → Bool) (f : Nat → Hart → Hart) : (s.modHarts p f).links = s.links := rfl
@[simp] theorem State.modHarts_host (s : State) (p : Nat → Hart → Bool) (f : Nat → Hart → Hart) : (s.modHarts p f).host = s.host := rfl
@[simp] theorem State.modHarts_pkg (s : State) (p : Nat → Hart → Bool) (f : Nat → Hart → Hart) : (s.modHarts p f).pkg = s.pkg := rfl
@[simp] theorem State.modHarts_spdm (s : State) (p : Nat → Hart → Bool) (f : Nat → Hart → Hart) : (s.modHarts p f).spdm = s.spdm := rfl
@[simp] theorem State.modHarts_cur (s : State) (p : Nat → Hart → Bool) (f : Nat → Hart → Hart) : (s.modHarts p f).cur = s.cur := rfl
@[simp] theorem State.modHarts_nextCore (s : State) (p : Nat → Hart → Bool) (f : Nat → Hart → Hart) : (s.modHarts p f).nextCore = s.nextCore := rfl
@[simp] theorem State.modHarts_schedule (s : State) (p : Nat → Hart → Bool) (f : Nat → Hart → Hart) : (s.modHarts p f).schedule = s.schedule := rfl
@[simp] theorem State.modHarts_latencies (s : State) (p : Nat → Hart → Bool) (f : Nat → Hart → Hart) : (s.modHarts p f).latencies = s.latencies := rfl
@[simp] theorem State.modHarts_fresh (s : State) (p : Nat → Hart → Bool) (f : Nat → Hart → Hart) : (s.modHarts p f).fresh = s.fresh := rfl
@[simp] theorem State.modHarts_tag (s : State) (p : Nat → Hart → Bool) (f : Nat → Hart → Hart) : (s.modHarts p f).tag = s.tag := rfl
@[simp] theorem State.modHarts_arg (s : State) (p : Nat → Hart → Bool) (f : Nat → Hart → Hart) : (s.modHarts p f).arg = s.arg := rfl

@[simp] theorem State.plan_now (s : State) (d : Nat) (e : Instr) (a : EventArgs) : (s.plan d e a).now = s.now := rfl
@[simp] theorem State.plan_harts (s : State) (d : Nat) (e : Instr) (a : EventArgs) : (s.plan d e a).harts = s.harts := rfl
@[simp] theorem State.plan_cores (s : State) (d : Nat) (e : Instr) (a : EventArgs) : (s.plan d e a).cores = s.cores := rfl
@[simp] theorem State.plan_clusters (s : State) (d : Nat) (e : Instr) (a : EventArgs) : (s.plan d e a).clusters = s.clusters := rfl
@[simp] theorem State.plan_dies (s : State) (d : Nat) (e : Instr) (a : EventArgs) : (s.plan d e a).dies = s.dies := rfl
@[simp] theorem State.plan_mem (s : State) (d : Nat) (e : Instr) (a : EventArgs) : (s.plan d e a).mem = s.mem := rfl
@[simp] theorem State.plan_ctrls (s : State) (d : Nat) (e : Instr) (a : EventArgs) : (s.plan d e a).ctrls = s.ctrls := rfl
@[simp] theorem State.plan_parts (s : State) (d : Nat) (e : Instr) (a : EventArgs) : (s.plan d e a).parts = s.parts := rfl
@[simp] theorem State.plan_queues (s : State) (d : Nat) (e : Instr) (a : EventArgs) : (s.plan d e a).queues = s.queues := rfl
@[simp] theorem State.plan_launches (s : State) (d : Nat) (e : Instr) (a : EventArgs) : (s.plan d e a).launches = s.launches := rfl
@[simp] theorem State.plan_nextLaunch (s : State) (d : Nat) (e : Instr) (a : EventArgs) : (s.plan d e a).nextLaunch = s.nextLaunch := rfl
@[simp] theorem State.plan_orders (s : State) (d : Nat) (e : Instr) (a : EventArgs) : (s.plan d e a).orders = s.orders := rfl
@[simp] theorem State.plan_links (s : State) (d : Nat) (e : Instr) (a : EventArgs) : (s.plan d e a).links = s.links := rfl
@[simp] theorem State.plan_host (s : State) (d : Nat) (e : Instr) (a : EventArgs) : (s.plan d e a).host = s.host := rfl
@[simp] theorem State.plan_pkg (s : State) (d : Nat) (e : Instr) (a : EventArgs) : (s.plan d e a).pkg = s.pkg := rfl
@[simp] theorem State.plan_spdm (s : State) (d : Nat) (e : Instr) (a : EventArgs) : (s.plan d e a).spdm = s.spdm := rfl
@[simp] theorem State.plan_cur (s : State) (d : Nat) (e : Instr) (a : EventArgs) : (s.plan d e a).cur = s.cur := rfl
@[simp] theorem State.plan_nextCore (s : State) (d : Nat) (e : Instr) (a : EventArgs) : (s.plan d e a).nextCore = s.nextCore := rfl
@[simp] theorem State.plan_schedule (s : State) (d : Nat) (e : Instr) (a : EventArgs) : (s.plan d e a).schedule = insertPlanned ⟨s.now + d, e, a⟩ s.schedule := rfl
@[simp] theorem State.plan_latencies (s : State) (d : Nat) (e : Instr) (a : EventArgs) : (s.plan d e a).latencies = s.latencies := rfl
@[simp] theorem State.plan_fresh (s : State) (d : Nat) (e : Instr) (a : EventArgs) : (s.plan d e a).fresh = s.fresh := rfl
@[simp] theorem State.plan_tag (s : State) (d : Nat) (e : Instr) (a : EventArgs) : (s.plan d e a).tag = s.tag := rfl
@[simp] theorem State.plan_arg (s : State) (d : Nat) (e : Instr) (a : EventArgs) : (s.plan d e a).arg = s.arg := rfl

@[simp] theorem State.popLatency_now (s : State) : (s.popLatency).now = s.now := rfl
@[simp] theorem State.popLatency_harts (s : State) : (s.popLatency).harts = s.harts := rfl
@[simp] theorem State.popLatency_cores (s : State) : (s.popLatency).cores = s.cores := rfl
@[simp] theorem State.popLatency_clusters (s : State) : (s.popLatency).clusters = s.clusters := rfl
@[simp] theorem State.popLatency_dies (s : State) : (s.popLatency).dies = s.dies := rfl
@[simp] theorem State.popLatency_mem (s : State) : (s.popLatency).mem = s.mem := rfl
@[simp] theorem State.popLatency_ctrls (s : State) : (s.popLatency).ctrls = s.ctrls := rfl
@[simp] theorem State.popLatency_parts (s : State) : (s.popLatency).parts = s.parts := rfl
@[simp] theorem State.popLatency_queues (s : State) : (s.popLatency).queues = s.queues := rfl
@[simp] theorem State.popLatency_launches (s : State) : (s.popLatency).launches = s.launches := rfl
@[simp] theorem State.popLatency_nextLaunch (s : State) : (s.popLatency).nextLaunch = s.nextLaunch := rfl
@[simp] theorem State.popLatency_orders (s : State) : (s.popLatency).orders = s.orders := rfl
@[simp] theorem State.popLatency_links (s : State) : (s.popLatency).links = s.links := rfl
@[simp] theorem State.popLatency_host (s : State) : (s.popLatency).host = s.host := rfl
@[simp] theorem State.popLatency_pkg (s : State) : (s.popLatency).pkg = s.pkg := rfl
@[simp] theorem State.popLatency_spdm (s : State) : (s.popLatency).spdm = s.spdm := rfl
@[simp] theorem State.popLatency_cur (s : State) : (s.popLatency).cur = s.cur := rfl
@[simp] theorem State.popLatency_nextCore (s : State) : (s.popLatency).nextCore = s.nextCore := rfl
@[simp] theorem State.popLatency_schedule (s : State) : (s.popLatency).schedule = s.schedule := rfl
@[simp] theorem State.popLatency_latencies (s : State) : (s.popLatency).latencies = s.latencies.tail := rfl
@[simp] theorem State.popLatency_fresh (s : State) : (s.popLatency).fresh = s.fresh := rfl
@[simp] theorem State.popLatency_tag (s : State) : (s.popLatency).tag = s.tag := rfl
@[simp] theorem State.popLatency_arg (s : State) : (s.popLatency).arg = s.arg := rfl

@[simp] theorem State.nextTag_now (s : State) : (s.nextTag).now = s.now := rfl
@[simp] theorem State.nextTag_harts (s : State) : (s.nextTag).harts = s.harts := rfl
@[simp] theorem State.nextTag_cores (s : State) : (s.nextTag).cores = s.cores := rfl
@[simp] theorem State.nextTag_clusters (s : State) : (s.nextTag).clusters = s.clusters := rfl
@[simp] theorem State.nextTag_dies (s : State) : (s.nextTag).dies = s.dies := rfl
@[simp] theorem State.nextTag_mem (s : State) : (s.nextTag).mem = s.mem := rfl
@[simp] theorem State.nextTag_ctrls (s : State) : (s.nextTag).ctrls = s.ctrls := rfl
@[simp] theorem State.nextTag_parts (s : State) : (s.nextTag).parts = s.parts := rfl
@[simp] theorem State.nextTag_queues (s : State) : (s.nextTag).queues = s.queues := rfl
@[simp] theorem State.nextTag_launches (s : State) : (s.nextTag).launches = s.launches := rfl
@[simp] theorem State.nextTag_nextLaunch (s : State) : (s.nextTag).nextLaunch = s.nextLaunch := rfl
@[simp] theorem State.nextTag_orders (s : State) : (s.nextTag).orders = s.orders := rfl
@[simp] theorem State.nextTag_links (s : State) : (s.nextTag).links = s.links := rfl
@[simp] theorem State.nextTag_host (s : State) : (s.nextTag).host = s.host := rfl
@[simp] theorem State.nextTag_pkg (s : State) : (s.nextTag).pkg = s.pkg := rfl
@[simp] theorem State.nextTag_spdm (s : State) : (s.nextTag).spdm = s.spdm := rfl
@[simp] theorem State.nextTag_cur (s : State) : (s.nextTag).cur = s.cur := rfl
@[simp] theorem State.nextTag_nextCore (s : State) : (s.nextTag).nextCore = s.nextCore := rfl
@[simp] theorem State.nextTag_schedule (s : State) : (s.nextTag).schedule = s.schedule := rfl
@[simp] theorem State.nextTag_latencies (s : State) : (s.nextTag).latencies = s.latencies := rfl
@[simp] theorem State.nextTag_fresh (s : State) : (s.nextTag).fresh = s.fresh := rfl
@[simp] theorem State.nextTag_tag (s : State) : (s.nextTag).tag = s.tag + 1 := rfl
@[simp] theorem State.nextTag_arg (s : State) : (s.nextTag).arg = s.arg := rfl

@[simp] theorem State.drawn_now (s : State) : (s.drawn).now = s.now := rfl
@[simp] theorem State.drawn_harts (s : State) : (s.drawn).harts = s.harts := rfl
@[simp] theorem State.drawn_cores (s : State) : (s.drawn).cores = s.cores := rfl
@[simp] theorem State.drawn_clusters (s : State) : (s.drawn).clusters = s.clusters := rfl
@[simp] theorem State.drawn_dies (s : State) : (s.drawn).dies = s.dies := rfl
@[simp] theorem State.drawn_mem (s : State) : (s.drawn).mem = s.mem := rfl
@[simp] theorem State.drawn_ctrls (s : State) : (s.drawn).ctrls = s.ctrls := rfl
@[simp] theorem State.drawn_parts (s : State) : (s.drawn).parts = s.parts := rfl
@[simp] theorem State.drawn_queues (s : State) : (s.drawn).queues = s.queues := rfl
@[simp] theorem State.drawn_launches (s : State) : (s.drawn).launches = s.launches := rfl
@[simp] theorem State.drawn_nextLaunch (s : State) : (s.drawn).nextLaunch = s.nextLaunch := rfl
@[simp] theorem State.drawn_orders (s : State) : (s.drawn).orders = s.orders := rfl
@[simp] theorem State.drawn_links (s : State) : (s.drawn).links = s.links := rfl
@[simp] theorem State.drawn_host (s : State) : (s.drawn).host = s.host := rfl
@[simp] theorem State.drawn_pkg (s : State) : (s.drawn).pkg = s.pkg := rfl
@[simp] theorem State.drawn_spdm (s : State) : (s.drawn).spdm = s.spdm := rfl
@[simp] theorem State.drawn_cur (s : State) : (s.drawn).cur = s.cur := rfl
@[simp] theorem State.drawn_nextCore (s : State) : (s.drawn).nextCore = s.nextCore := rfl
@[simp] theorem State.drawn_schedule (s : State) : (s.drawn).schedule = s.schedule := rfl
@[simp] theorem State.drawn_latencies (s : State) : (s.drawn).latencies = s.latencies := rfl
@[simp] theorem State.drawn_fresh (s : State) : (s.drawn).fresh = s.fresh + 1 := rfl
@[simp] theorem State.drawn_tag (s : State) : (s.drawn).tag = s.tag := rfl
@[simp] theorem State.drawn_arg (s : State) : (s.drawn).arg = s.arg := rfl

@[simp] theorem State.modCur_now (s : State) (f : Hart → Hart) : (s.modCur f).now = s.now := by unfold State.modCur; split <;> rfl
@[simp] theorem State.modCur_cores (s : State) (f : Hart → Hart) : (s.modCur f).cores = s.cores := by unfold State.modCur; split <;> rfl
@[simp] theorem State.modCur_clusters (s : State) (f : Hart → Hart) : (s.modCur f).clusters = s.clusters := by unfold State.modCur; split <;> rfl
@[simp] theorem State.modCur_dies (s : State) (f : Hart → Hart) : (s.modCur f).dies = s.dies := by unfold State.modCur; split <;> rfl
@[simp] theorem State.modCur_mem (s : State) (f : Hart → Hart) : (s.modCur f).mem = s.mem := by unfold State.modCur; split <;> rfl
@[simp] theorem State.modCur_ctrls (s : State) (f : Hart → Hart) : (s.modCur f).ctrls = s.ctrls := by unfold State.modCur; split <;> rfl
@[simp] theorem State.modCur_parts (s : State) (f : Hart → Hart) : (s.modCur f).parts = s.parts := by unfold State.modCur; split <;> rfl
@[simp] theorem State.modCur_queues (s : State) (f : Hart → Hart) : (s.modCur f).queues = s.queues := by unfold State.modCur; split <;> rfl
@[simp] theorem State.modCur_launches (s : State) (f : Hart → Hart) : (s.modCur f).launches = s.launches := by unfold State.modCur; split <;> rfl
@[simp] theorem State.modCur_nextLaunch (s : State) (f : Hart → Hart) : (s.modCur f).nextLaunch = s.nextLaunch := by unfold State.modCur; split <;> rfl
@[simp] theorem State.modCur_orders (s : State) (f : Hart → Hart) : (s.modCur f).orders = s.orders := by unfold State.modCur; split <;> rfl
@[simp] theorem State.modCur_links (s : State) (f : Hart → Hart) : (s.modCur f).links = s.links := by unfold State.modCur; split <;> rfl
@[simp] theorem State.modCur_host (s : State) (f : Hart → Hart) : (s.modCur f).host = s.host := by unfold State.modCur; split <;> rfl
@[simp] theorem State.modCur_pkg (s : State) (f : Hart → Hart) : (s.modCur f).pkg = s.pkg := by unfold State.modCur; split <;> rfl
@[simp] theorem State.modCur_spdm (s : State) (f : Hart → Hart) : (s.modCur f).spdm = s.spdm := by unfold State.modCur; split <;> rfl
@[simp] theorem State.modCur_cur (s : State) (f : Hart → Hart) : (s.modCur f).cur = s.cur := by unfold State.modCur; split <;> rfl
@[simp] theorem State.modCur_nextCore (s : State) (f : Hart → Hart) : (s.modCur f).nextCore = s.nextCore := by unfold State.modCur; split <;> rfl
@[simp] theorem State.modCur_schedule (s : State) (f : Hart → Hart) : (s.modCur f).schedule = s.schedule := by unfold State.modCur; split <;> rfl
@[simp] theorem State.modCur_latencies (s : State) (f : Hart → Hart) : (s.modCur f).latencies = s.latencies := by unfold State.modCur; split <;> rfl
@[simp] theorem State.modCur_fresh (s : State) (f : Hart → Hart) : (s.modCur f).fresh = s.fresh := by unfold State.modCur; split <;> rfl
@[simp] theorem State.modCur_tag (s : State) (f : Hart → Hart) : (s.modCur f).tag = s.tag := by unfold State.modCur; split <;> rfl
@[simp] theorem State.modCur_arg (s : State) (f : Hart → Hart) : (s.modCur f).arg = s.arg := by unfold State.modCur; split <;> rfl

@[simp] theorem State.modPart_now (s : State) (k : Nat) (f : Part → Part) : (s.modPart k f).now = s.now := by unfold State.modPart; split <;> rfl
@[simp] theorem State.modPart_harts (s : State) (k : Nat) (f : Part → Part) : (s.modPart k f).harts = s.harts := by unfold State.modPart; split <;> rfl
@[simp] theorem State.modPart_cores (s : State) (k : Nat) (f : Part → Part) : (s.modPart k f).cores = s.cores := by unfold State.modPart; split <;> rfl
@[simp] theorem State.modPart_clusters (s : State) (k : Nat) (f : Part → Part) : (s.modPart k f).clusters = s.clusters := by unfold State.modPart; split <;> rfl
@[simp] theorem State.modPart_dies (s : State) (k : Nat) (f : Part → Part) : (s.modPart k f).dies = s.dies := by unfold State.modPart; split <;> rfl
@[simp] theorem State.modPart_mem (s : State) (k : Nat) (f : Part → Part) : (s.modPart k f).mem = s.mem := by unfold State.modPart; split <;> rfl
@[simp] theorem State.modPart_ctrls (s : State) (k : Nat) (f : Part → Part) : (s.modPart k f).ctrls = s.ctrls := by unfold State.modPart; split <;> rfl
@[simp] theorem State.modPart_queues (s : State) (k : Nat) (f : Part → Part) : (s.modPart k f).queues = s.queues := by unfold State.modPart; split <;> rfl
@[simp] theorem State.modPart_launches (s : State) (k : Nat) (f : Part → Part) : (s.modPart k f).launches = s.launches := by unfold State.modPart; split <;> rfl
@[simp] theorem State.modPart_nextLaunch (s : State) (k : Nat) (f : Part → Part) : (s.modPart k f).nextLaunch = s.nextLaunch := by unfold State.modPart; split <;> rfl
@[simp] theorem State.modPart_orders (s : State) (k : Nat) (f : Part → Part) : (s.modPart k f).orders = s.orders := by unfold State.modPart; split <;> rfl
@[simp] theorem State.modPart_links (s : State) (k : Nat) (f : Part → Part) : (s.modPart k f).links = s.links := by unfold State.modPart; split <;> rfl
@[simp] theorem State.modPart_host (s : State) (k : Nat) (f : Part → Part) : (s.modPart k f).host = s.host := by unfold State.modPart; split <;> rfl
@[simp] theorem State.modPart_pkg (s : State) (k : Nat) (f : Part → Part) : (s.modPart k f).pkg = s.pkg := by unfold State.modPart; split <;> rfl
@[simp] theorem State.modPart_spdm (s : State) (k : Nat) (f : Part → Part) : (s.modPart k f).spdm = s.spdm := by unfold State.modPart; split <;> rfl
@[simp] theorem State.modPart_cur (s : State) (k : Nat) (f : Part → Part) : (s.modPart k f).cur = s.cur := by unfold State.modPart; split <;> rfl
@[simp] theorem State.modPart_nextCore (s : State) (k : Nat) (f : Part → Part) : (s.modPart k f).nextCore = s.nextCore := by unfold State.modPart; split <;> rfl
@[simp] theorem State.modPart_schedule (s : State) (k : Nat) (f : Part → Part) : (s.modPart k f).schedule = s.schedule := by unfold State.modPart; split <;> rfl
@[simp] theorem State.modPart_latencies (s : State) (k : Nat) (f : Part → Part) : (s.modPart k f).latencies = s.latencies := by unfold State.modPart; split <;> rfl
@[simp] theorem State.modPart_fresh (s : State) (k : Nat) (f : Part → Part) : (s.modPart k f).fresh = s.fresh := by unfold State.modPart; split <;> rfl
@[simp] theorem State.modPart_tag (s : State) (k : Nat) (f : Part → Part) : (s.modPart k f).tag = s.tag := by unfold State.modPart; split <;> rfl
@[simp] theorem State.modPart_arg (s : State) (k : Nat) (f : Part → Part) : (s.modPart k f).arg = s.arg := by unfold State.modPart; split <;> rfl

@[simp] theorem State.modLaunch_now (s : State) (k : Nat) (f : Launch → Launch) : (s.modLaunch k f).now = s.now := by unfold State.modLaunch; split <;> rfl
@[simp] theorem State.modLaunch_harts (s : State) (k : Nat) (f : Launch → Launch) : (s.modLaunch k f).harts = s.harts := by unfold State.modLaunch; split <;> rfl
@[simp] theorem State.modLaunch_cores (s : State) (k : Nat) (f : Launch → Launch) : (s.modLaunch k f).cores = s.cores := by unfold State.modLaunch; split <;> rfl
@[simp] theorem State.modLaunch_clusters (s : State) (k : Nat) (f : Launch → Launch) : (s.modLaunch k f).clusters = s.clusters := by unfold State.modLaunch; split <;> rfl
@[simp] theorem State.modLaunch_dies (s : State) (k : Nat) (f : Launch → Launch) : (s.modLaunch k f).dies = s.dies := by unfold State.modLaunch; split <;> rfl
@[simp] theorem State.modLaunch_mem (s : State) (k : Nat) (f : Launch → Launch) : (s.modLaunch k f).mem = s.mem := by unfold State.modLaunch; split <;> rfl
@[simp] theorem State.modLaunch_ctrls (s : State) (k : Nat) (f : Launch → Launch) : (s.modLaunch k f).ctrls = s.ctrls := by unfold State.modLaunch; split <;> rfl
@[simp] theorem State.modLaunch_parts (s : State) (k : Nat) (f : Launch → Launch) : (s.modLaunch k f).parts = s.parts := by unfold State.modLaunch; split <;> rfl
@[simp] theorem State.modLaunch_queues (s : State) (k : Nat) (f : Launch → Launch) : (s.modLaunch k f).queues = s.queues := by unfold State.modLaunch; split <;> rfl
@[simp] theorem State.modLaunch_nextLaunch (s : State) (k : Nat) (f : Launch → Launch) : (s.modLaunch k f).nextLaunch = s.nextLaunch := by unfold State.modLaunch; split <;> rfl
@[simp] theorem State.modLaunch_orders (s : State) (k : Nat) (f : Launch → Launch) : (s.modLaunch k f).orders = s.orders := by unfold State.modLaunch; split <;> rfl
@[simp] theorem State.modLaunch_links (s : State) (k : Nat) (f : Launch → Launch) : (s.modLaunch k f).links = s.links := by unfold State.modLaunch; split <;> rfl
@[simp] theorem State.modLaunch_host (s : State) (k : Nat) (f : Launch → Launch) : (s.modLaunch k f).host = s.host := by unfold State.modLaunch; split <;> rfl
@[simp] theorem State.modLaunch_pkg (s : State) (k : Nat) (f : Launch → Launch) : (s.modLaunch k f).pkg = s.pkg := by unfold State.modLaunch; split <;> rfl
@[simp] theorem State.modLaunch_spdm (s : State) (k : Nat) (f : Launch → Launch) : (s.modLaunch k f).spdm = s.spdm := by unfold State.modLaunch; split <;> rfl
@[simp] theorem State.modLaunch_cur (s : State) (k : Nat) (f : Launch → Launch) : (s.modLaunch k f).cur = s.cur := by unfold State.modLaunch; split <;> rfl
@[simp] theorem State.modLaunch_nextCore (s : State) (k : Nat) (f : Launch → Launch) : (s.modLaunch k f).nextCore = s.nextCore := by unfold State.modLaunch; split <;> rfl
@[simp] theorem State.modLaunch_schedule (s : State) (k : Nat) (f : Launch → Launch) : (s.modLaunch k f).schedule = s.schedule := by unfold State.modLaunch; split <;> rfl
@[simp] theorem State.modLaunch_latencies (s : State) (k : Nat) (f : Launch → Launch) : (s.modLaunch k f).latencies = s.latencies := by unfold State.modLaunch; split <;> rfl
@[simp] theorem State.modLaunch_fresh (s : State) (k : Nat) (f : Launch → Launch) : (s.modLaunch k f).fresh = s.fresh := by unfold State.modLaunch; split <;> rfl
@[simp] theorem State.modLaunch_tag (s : State) (k : Nat) (f : Launch → Launch) : (s.modLaunch k f).tag = s.tag := by unfold State.modLaunch; split <;> rfl
@[simp] theorem State.modLaunch_arg (s : State) (k : Nat) (f : Launch → Launch) : (s.modLaunch k f).arg = s.arg := by unfold State.modLaunch; split <;> rfl

@[simp] theorem Hart.setV_x (h : Hart) (r l : Nat) (w : Word) : (h.setV r l w).x = h.x := rfl
@[simp] theorem Hart.setV_pc (h : Hart) (r l : Nat) (w : Word) : (h.setV r l w).pc = h.pc := rfl
@[simp] theorem Hart.setV_priv (h : Hart) (r l : Nat) (w : Word) : (h.setV r l w).priv = h.priv := rfl
@[simp] theorem Hart.setV_tsc (h : Hart) (r l : Nat) (w : Word) : (h.setV r l w).tsc = h.tsc := rfl
@[simp] theorem Hart.setV_csr (h : Hart) (r l : Nat) (w : Word) : (h.setV r l w).csr = h.csr := rfl
@[simp] theorem Hart.setV_dev (h : Hart) (r l : Nat) (w : Word) : (h.setV r l w).dev = h.dev := rfl
@[simp] theorem Hart.setV_run (h : Hart) (r l : Nat) (w : Word) : (h.setV r l w).run = h.run := rfl
@[simp] theorem Hart.setV_role (h : Hart) (r l : Nat) (w : Word) : (h.setV r l w).role = h.role := rfl

@[simp] theorem Hart.setP_x (h : Hart) (p : Nat) (m : Word) : (h.setP p m).x = h.x := rfl
@[simp] theorem Hart.setP_pc (h : Hart) (p : Nat) (m : Word) : (h.setP p m).pc = h.pc := rfl
@[simp] theorem Hart.setP_priv (h : Hart) (p : Nat) (m : Word) : (h.setP p m).priv = h.priv := rfl
@[simp] theorem Hart.setP_tsc (h : Hart) (p : Nat) (m : Word) : (h.setP p m).tsc = h.tsc := rfl
@[simp] theorem Hart.setP_csr (h : Hart) (p : Nat) (m : Word) : (h.setP p m).csr = h.csr := rfl
@[simp] theorem Hart.setP_dev (h : Hart) (p : Nat) (m : Word) : (h.setP p m).dev = h.dev := rfl
@[simp] theorem Hart.setP_run (h : Hart) (p : Nat) (m : Word) : (h.setP p m).run = h.run := rfl
@[simp] theorem Hart.setP_role (h : Hart) (p : Nat) (m : Word) : (h.setP p m).role = h.role := rfl

@[simp] theorem Hart.setStatus_x (h : Hart) (i : Nat) (b : Bool) : (h.setStatus i b).x = h.x := rfl
@[simp] theorem Hart.setStatus_pc (h : Hart) (i : Nat) (b : Bool) : (h.setStatus i b).pc = h.pc := rfl
@[simp] theorem Hart.setStatus_priv (h : Hart) (i : Nat) (b : Bool) : (h.setStatus i b).priv = h.priv := rfl
@[simp] theorem Hart.setStatus_tsc (h : Hart) (i : Nat) (b : Bool) : (h.setStatus i b).tsc = h.tsc := rfl
@[simp] theorem Hart.setStatus_lanes (h : Hart) (i : Nat) (b : Bool) : (h.setStatus i b).lanes = h.lanes := rfl
@[simp] theorem Hart.setStatus_dev (h : Hart) (i : Nat) (b : Bool) : (h.setStatus i b).dev = h.dev := rfl
@[simp] theorem Hart.setStatus_run (h : Hart) (i : Nat) (b : Bool) : (h.setStatus i b).run = h.run := rfl
@[simp] theorem Hart.setStatus_role (h : Hart) (i : Nat) (b : Bool) : (h.setStatus i b).role = h.role := rfl

@[simp] theorem Hart.setMpp_x (h : Hart) (p : Priv) : (h.setMpp p).x = h.x := rfl
@[simp] theorem Hart.setMpp_pc (h : Hart) (p : Priv) : (h.setMpp p).pc = h.pc := rfl
@[simp] theorem Hart.setMpp_priv (h : Hart) (p : Priv) : (h.setMpp p).priv = h.priv := rfl
@[simp] theorem Hart.setMpp_tsc (h : Hart) (p : Priv) : (h.setMpp p).tsc = h.tsc := rfl
@[simp] theorem Hart.setMpp_lanes (h : Hart) (p : Priv) : (h.setMpp p).lanes = h.lanes := rfl
@[simp] theorem Hart.setMpp_dev (h : Hart) (p : Priv) : (h.setMpp p).dev = h.dev := rfl
@[simp] theorem Hart.setMpp_run (h : Hart) (p : Priv) : (h.setMpp p).run = h.run := rfl
@[simp] theorem Hart.setMpp_role (h : Hart) (p : Priv) : (h.setMpp p).role = h.role := rfl

@[simp] theorem Hart.raiseFlags_x (h : Hart) (l : Nat) (f : FlagSet) : (h.raiseFlags l f).x = h.x := rfl
@[simp] theorem Hart.raiseFlags_pc (h : Hart) (l : Nat) (f : FlagSet) : (h.raiseFlags l f).pc = h.pc := rfl
@[simp] theorem Hart.raiseFlags_priv (h : Hart) (l : Nat) (f : FlagSet) : (h.raiseFlags l f).priv = h.priv := rfl
@[simp] theorem Hart.raiseFlags_tsc (h : Hart) (l : Nat) (f : FlagSet) : (h.raiseFlags l f).tsc = h.tsc := rfl
@[simp] theorem Hart.raiseFlags_csr (h : Hart) (l : Nat) (f : FlagSet) : (h.raiseFlags l f).csr = h.csr := rfl
@[simp] theorem Hart.raiseFlags_run (h : Hart) (l : Nat) (f : FlagSet) : (h.raiseFlags l f).run = h.run := rfl
@[simp] theorem Hart.raiseFlags_role (h : Hart) (l : Nat) (f : FlagSet) : (h.raiseFlags l f).role = h.role := rfl

@[simp] theorem Hart.setSr_x (h : Hart) (l : Nat) (w : Word) : (h.setSr l w).x = h.x := rfl
@[simp] theorem Hart.setSr_pc (h : Hart) (l : Nat) (w : Word) : (h.setSr l w).pc = h.pc := rfl
@[simp] theorem Hart.setSr_priv (h : Hart) (l : Nat) (w : Word) : (h.setSr l w).priv = h.priv := rfl
@[simp] theorem Hart.setSr_tsc (h : Hart) (l : Nat) (w : Word) : (h.setSr l w).tsc = h.tsc := rfl
@[simp] theorem Hart.setSr_csr (h : Hart) (l : Nat) (w : Word) : (h.setSr l w).csr = h.csr := rfl
@[simp] theorem Hart.setSr_dev (h : Hart) (l : Nat) (w : Word) : (h.setSr l w).dev = h.dev := rfl
@[simp] theorem Hart.setSr_run (h : Hart) (l : Nat) (w : Word) : (h.setSr l w).run = h.run := rfl
@[simp] theorem Hart.setSr_role (h : Hart) (l : Nat) (w : Word) : (h.setSr l w).role = h.role := rfl

@[simp] theorem Hart.settle_x (h : Hart) : (h.settle).x = h.x := rfl
@[simp] theorem Hart.settle_pc (h : Hart) : (h.settle).pc = h.pc := rfl
@[simp] theorem Hart.settle_priv (h : Hart) : (h.settle).priv = h.priv := rfl
@[simp] theorem Hart.settle_tsc (h : Hart) : (h.settle).tsc = h.tsc := rfl
@[simp] theorem Hart.settle_lanes (h : Hart) : (h.settle).lanes = h.lanes := rfl
@[simp] theorem Hart.settle_csr (h : Hart) : (h.settle).csr = h.csr := rfl
@[simp] theorem Hart.settle_dev (h : Hart) : (h.settle).dev = h.dev := rfl
@[simp] theorem Hart.settle_role (h : Hart) : (h.settle).role = h.role := rfl

@[simp] theorem Hart.hangClear_x (h : Hart) (n : Nat) : (h.hangClear n).x = h.x := rfl
@[simp] theorem Hart.hangClear_pc (h : Hart) (n : Nat) : (h.hangClear n).pc = h.pc := rfl
@[simp] theorem Hart.hangClear_priv (h : Hart) (n : Nat) : (h.hangClear n).priv = h.priv := rfl
@[simp] theorem Hart.hangClear_tsc (h : Hart) (n : Nat) : (h.hangClear n).tsc = h.tsc := rfl
@[simp] theorem Hart.hangClear_lanes (h : Hart) (n : Nat) : (h.hangClear n).lanes = h.lanes := rfl
@[simp] theorem Hart.hangClear_csr (h : Hart) (n : Nat) : (h.hangClear n).csr = h.csr := rfl
@[simp] theorem Hart.hangClear_dev (h : Hart) (n : Nat) : (h.hangClear n).dev = h.dev := rfl
@[simp] theorem Hart.hangClear_role (h : Hart) (n : Nat) : (h.hangClear n).role = h.role := rfl

@[simp] theorem Hart.park_x (h : Hart) (w : Wait) (n : Nat) : (h.park w n).x = h.x := rfl
@[simp] theorem Hart.park_pc (h : Hart) (w : Wait) (n : Nat) : (h.park w n).pc = h.pc := rfl
@[simp] theorem Hart.park_priv (h : Hart) (w : Wait) (n : Nat) : (h.park w n).priv = h.priv := rfl
@[simp] theorem Hart.park_tsc (h : Hart) (w : Wait) (n : Nat) : (h.park w n).tsc = h.tsc := rfl
@[simp] theorem Hart.park_lanes (h : Hart) (w : Wait) (n : Nat) : (h.park w n).lanes = h.lanes := rfl
@[simp] theorem Hart.park_csr (h : Hart) (w : Wait) (n : Nat) : (h.park w n).csr = h.csr := rfl
@[simp] theorem Hart.park_dev (h : Hart) (w : Wait) (n : Nat) : (h.park w n).dev = h.dev := rfl
@[simp] theorem Hart.park_role (h : Hart) (w : Wait) (n : Nat) : (h.park w n).role = h.role := rfl

@[simp] theorem Hart.unpark_x (h : Hart) (n : Nat) : (h.unpark n).x = h.x := rfl
@[simp] theorem Hart.unpark_pc (h : Hart) (n : Nat) : (h.unpark n).pc = h.pc := rfl
@[simp] theorem Hart.unpark_priv (h : Hart) (n : Nat) : (h.unpark n).priv = h.priv := rfl
@[simp] theorem Hart.unpark_tsc (h : Hart) (n : Nat) : (h.unpark n).tsc = h.tsc := rfl
@[simp] theorem Hart.unpark_lanes (h : Hart) (n : Nat) : (h.unpark n).lanes = h.lanes := rfl
@[simp] theorem Hart.unpark_csr (h : Hart) (n : Nat) : (h.unpark n).csr = h.csr := rfl
@[simp] theorem Hart.unpark_dev (h : Hart) (n : Nat) : (h.unpark n).dev = h.dev := rfl
@[simp] theorem Hart.unpark_role (h : Hart) (n : Nat) : (h.unpark n).role = h.role := rfl

@[simp] theorem Hart.touch_x (h : Hart) (p : Nat) (f : Bool) : (h.touch p f).x = h.x := rfl
@[simp] theorem Hart.touch_pc (h : Hart) (p : Nat) (f : Bool) : (h.touch p f).pc = h.pc := rfl
@[simp] theorem Hart.touch_priv (h : Hart) (p : Nat) (f : Bool) : (h.touch p f).priv = h.priv := rfl
@[simp] theorem Hart.touch_tsc (h : Hart) (p : Nat) (f : Bool) : (h.touch p f).tsc = h.tsc := rfl
@[simp] theorem Hart.touch_lanes (h : Hart) (p : Nat) (f : Bool) : (h.touch p f).lanes = h.lanes := rfl
@[simp] theorem Hart.touch_csr (h : Hart) (p : Nat) (f : Bool) : (h.touch p f).csr = h.csr := rfl
@[simp] theorem Hart.touch_run (h : Hart) (p : Nat) (f : Bool) : (h.touch p f).run = h.run := rfl
@[simp] theorem Hart.touch_role (h : Hart) (p : Nat) (f : Bool) : (h.touch p f).role = h.role := rfl

@[simp] theorem Hart.setX_pc (h : Hart) (r : BitVec 5) (v : DWord) : (h.setX r v).pc = h.pc := by unfold Hart.setX; split <;> rfl
@[simp] theorem Hart.setX_priv (h : Hart) (r : BitVec 5) (v : DWord) : (h.setX r v).priv = h.priv := by unfold Hart.setX; split <;> rfl
@[simp] theorem Hart.setX_tsc (h : Hart) (r : BitVec 5) (v : DWord) : (h.setX r v).tsc = h.tsc := by unfold Hart.setX; split <;> rfl
@[simp] theorem Hart.setX_lanes (h : Hart) (r : BitVec 5) (v : DWord) : (h.setX r v).lanes = h.lanes := by unfold Hart.setX; split <;> rfl
@[simp] theorem Hart.setX_csr (h : Hart) (r : BitVec 5) (v : DWord) : (h.setX r v).csr = h.csr := by unfold Hart.setX; split <;> rfl
@[simp] theorem Hart.setX_dev (h : Hart) (r : BitVec 5) (v : DWord) : (h.setX r v).dev = h.dev := by unfold Hart.setX; split <;> rfl
@[simp] theorem Hart.setX_run (h : Hart) (r : BitVec 5) (v : DWord) : (h.setX r v).run = h.run := by unfold Hart.setX; split <;> rfl
@[simp] theorem Hart.setX_role (h : Hart) (r : BitVec 5) (v : DWord) : (h.setX r v).role = h.role := by unfold Hart.setX; split <;> rfl
@[simp] theorem Hart.countRetired_x (h : Hart) : h.countRetired.x = h.x := by unfold Hart.countRetired; split <;> rfl
@[simp] theorem Hart.countRetired_pc (h : Hart) : h.countRetired.pc = h.pc := by unfold Hart.countRetired; split <;> rfl
@[simp] theorem Hart.countRetired_priv (h : Hart) : h.countRetired.priv = h.priv := by unfold Hart.countRetired; split <;> rfl
@[simp] theorem Hart.countRetired_tsc (h : Hart) : h.countRetired.tsc = h.tsc := by unfold Hart.countRetired; split <;> rfl
@[simp] theorem Hart.countRetired_lanes (h : Hart) : h.countRetired.lanes = h.lanes := by unfold Hart.countRetired; split <;> rfl
@[simp] theorem Hart.countRetired_dev (h : Hart) : h.countRetired.dev = h.dev := by unfold Hart.countRetired; split <;> rfl
@[simp] theorem Hart.countRetired_run (h : Hart) : h.countRetired.run = h.run := by unfold Hart.countRetired; split <;> rfl
@[simp] theorem Hart.countRetired_role (h : Hart) : h.countRetired.role = h.role := by unfold Hart.countRetired; split <;> rfl
@[simp] theorem Hart.retire_x (h : Hart) (n : Nat) : (h.retire n).x = h.x := by simp [Hart.retire]
@[simp] theorem Hart.retireTo_x (h : Hart) (a : DWord) : (h.retireTo a).x = h.x := by simp [Hart.retireTo]
@[simp] theorem Hart.retire_priv (h : Hart) (n : Nat) : (h.retire n).priv = h.priv := by simp [Hart.retire]
@[simp] theorem Hart.retireTo_priv (h : Hart) (a : DWord) : (h.retireTo a).priv = h.priv := by simp [Hart.retireTo]
@[simp] theorem Hart.retire_tsc (h : Hart) (n : Nat) : (h.retire n).tsc = h.tsc := by simp [Hart.retire]
@[simp] theorem Hart.retireTo_tsc (h : Hart) (a : DWord) : (h.retireTo a).tsc = h.tsc := by simp [Hart.retireTo]
@[simp] theorem Hart.retire_lanes (h : Hart) (n : Nat) : (h.retire n).lanes = h.lanes := by simp [Hart.retire]
@[simp] theorem Hart.retireTo_lanes (h : Hart) (a : DWord) : (h.retireTo a).lanes = h.lanes := by simp [Hart.retireTo]
@[simp] theorem Hart.retire_dev (h : Hart) (n : Nat) : (h.retire n).dev = h.dev := by simp [Hart.retire]
@[simp] theorem Hart.retireTo_dev (h : Hart) (a : DWord) : (h.retireTo a).dev = h.dev := by simp [Hart.retireTo]
@[simp] theorem Hart.retire_role (h : Hart) (n : Nat) : (h.retire n).role = h.role := by simp [Hart.retire]
@[simp] theorem Hart.retireTo_role (h : Hart) (a : DWord) : (h.retireTo a).role = h.role := by simp [Hart.retireTo]
@[simp] theorem Hart.retire_pc (h : Hart) (n : Nat) : (h.retire n).pc = h.nextPc n := by simp [Hart.retire]
@[simp] theorem Hart.retireTo_pc (h : Hart) (a : DWord) : (h.retireTo a).pc = a := by simp [Hart.retireTo]

theorem State.hart?_setHart (s : State) (k j : Nat) (h : Hart) :
    (s.setHart k h).hart? j = if j = k then some h else s.hart? j := Map.find_put s.harts k j h

@[simp] theorem State.hart?_setHart_same (s : State) (k : Nat) (h : Hart) : (s.setHart k h).hart? k = some h :=
  Map.find_put_same s.harts k h

@[simp] theorem State.hart?_setCur (s : State) (h : Hart) : (s.setCur h).hart? s.cur = some h :=
  Map.find_put_same s.harts s.cur h

theorem State.hart?_setCur_other (s : State) (h : Hart) (k : Nat) (hk : k ≠ s.cur) : (s.setCur h).hart? k = s.hart? k :=
  Map.find_put_other s.harts s.cur k h hk

theorem State.modCur_of (s : State) (h : Hart) (f : Hart → Hart) (hh : s.hart? s.cur = some h) : s.modCur f = s.setCur (f h) := by
  simp [State.modCur, hh]

theorem onHart_of (s : State) (h : Hart) (f : Hart → State) (hh : s.hart? s.cur = some h) : onHart s f = .next (f h) := by
  simp [onHart, hh]

theorem State.core_setCore (s : State) (c d : Nat) (v : Core) : (s.setCore c v).core d = if d = c then v else s.core d :=
  Map.findD_put s.cores c d v Core.reset

theorem State.cluster_setCluster (s : State) (c d : Nat) (v : Cluster) :
    (s.setCluster c v).cluster d = if d = c then v else s.cluster d := Map.findD_put s.clusters c d v Cluster.reset

theorem State.die_setDie (s : State) (c d : Nat) (v : Die) : (s.setDie c v).die d = if d = c then v else s.die d :=
  Map.findD_put s.dies c d v Die.reset

theorem State.part?_setPart (s : State) (p q : Nat) (v : Part) :
    (s.setPart p v).part? q = if q = p then some v else s.part? q := Map.find_put s.parts p q v

theorem State.launch?_setLaunch (s : State) (l m : Nat) (v : Launch) :
    (s.setLaunch l v).launch? m = if m = l then some v else s.launch? m := Map.find_put s.launches l m v

/-- R9, R31: what a write of an x register leaves in each register. -/
theorem Hart.getX_setX (h : Hart) (r q : BitVec 5) (v : DWord) :
    (h.setX r v).getX q = if q = r ∧ r ≠ 0 then v else h.getX q := by
  unfold Hart.setX
  by_cases hr : r = 0
  · rw [if_pos hr, if_neg (by simp [hr])]
  · rw [if_neg hr]
    unfold Hart.getX
    by_cases hqr : q = r
    · subst hqr; rw [if_neg hr, if_pos ⟨rfl, hr⟩]; simp
    · have hn : ¬ r.toNat = q.toNat := fun e => hqr (BitVec.eq_of_toNat_eq e.symm)
      have h2 : ¬ (q = r ∧ r ≠ 0) := fun e => hqr e.1
      rw [if_neg h2]
      simp [hn]

theorem Hart.getX_of_x (h g : Hart) (r : BitVec 5) (hx : g.x = h.x) : g.getX r = h.getX r := by
  unfold Hart.getX; rw [hx]

end Sys2Proof.Machine
end

