-- ==== Sys2Proof/Laws/Ops.lean ====
section
/-! SUPPORT. What each shared operation does, said once: registers, the hart that acts, retiring, taking an exception, the
scalar and lane shapes, accesses and events to come. -/

namespace Sys2Proof.Machine

open Sys2Proof

/-! ## Registers -/

theorem Hart.getX_zero (h : Hart) : h.getX 0 = 0 := if_pos rfl

theorem Hart.setX_zero (h : Hart) (v : DWord) : h.setX 0 v = h := if_pos rfl

theorem Hart.writesX_setX (h k : Hart) (rd : BitVec 5) (v : DWord) (hk : k.x = (h.setX rd v).x) : writesX h k rd v := by
  have e : ∀ r, k.getX r = (h.setX rd v).getX r := fun r => by unfold Hart.getX; simp [hk]
  refine ⟨Hart.getX_zero k, fun r hr => ?_⟩
  rw [e, Hart.getX_setX]
  by_cases h2 : r = rd
  · rw [if_pos ⟨h2, h2 ▸ hr⟩, if_pos h2]
  · rw [if_neg (fun c => h2 c.1), if_neg h2]

theorem Hart.setX_frame (h : Hart) (r : BitVec 5) (v : DWord) : { h.setX r v with x := h.x } = h := by
  unfold Hart.setX; split <;> rfl

/-- A lane register of one lane after a write, where the lane registers are listed in order. -/
theorem Hart.getV_setV (h : Hart) (r l q m : Nat) (w : Word) (hs : Map.sorted h.lanes.v = true) (hl : l < 32) (hm : m < 32) :
    (h.setV r l w).getV q m = if q = r ∧ m = l then w else h.getV q m := by
  have key : (q * 32 + m = r * 32 + l) ↔ (q = r ∧ m = l) := by omega
  simp only [Hart.getV, Hart.setV, Map.findD]
  by_cases hw : w = 0
  · subst hw; rw [if_pos rfl, Map.find_del _ _ _ hs]
    by_cases e : q * 32 + m = r * 32 + l
    · simp [key.mp e]
    · rw [if_neg e, if_neg (fun c => e (key.mpr c))]
  · rw [if_neg hw, Map.find_put]
    by_cases e : q * 32 + m = r * 32 + l
    · simp [key.mp e]
    · rw [if_neg e, if_neg (fun c => e (key.mpr c))]

theorem Hart.sorted_setV (h : Hart) (r l : Nat) (w : Word) (hs : Map.sorted h.lanes.v = true) :
    Map.sorted (h.setV r l w).lanes.v = true := by
  simp only [Hart.setV]; split
  · exact Map.sorted_del _ _ hs
  · exact Map.sorted_put _ _ _ hs

theorem Hart.getP_setP (h : Hart) (p q : Nat) (m : Word) (hp : p < 12) :
    (h.setP p m).getP q = if q = p then m else h.getP q := by
  simp only [Hart.getP, Hart.setP]
  by_cases h2 : q = p
  · subst h2; simp [Vector.getD, Vector.set!, hp]
  · simp only [Vector.getD, Vector.set!, if_neg h2]
    simp [Ne.symm h2]

/-! ## The hart that acts -/

theorem State.hart?_modHarts (s : State) (p : Nat → Hart → Bool) (f : Nat → Hart → Hart) (k : Nat) :
    (s.modHarts p f).hart? k = (s.hart? k).map (fun h => if p k h then f k h else h) := by
  simp only [State.hart?, State.modHarts, Map.find_mapVal]

theorem onHart_refused {s : State} (hc : s.hart? s.cur = none) (f : Hart → State) : onHart s f = .refused .noHart := by
  simp [onHart, hc]

/-- A replaced acting hart changes nothing else. -/
theorem State.setCur_only (s : State) (h : Hart) : OnlyHart s (s.setCur h) s.cur h where
  acting := s.hart?_setCur h
  others := fun j hj => s.hart?_setCur_other h j hj
  rest := rfl

@[simp] theorem State.setCur_setCur (s : State) (h k : Hart) : (s.setCur h).setCur k = s.setCur k := by
  have put2 : ∀ (m : Map Hart) n a b, Map.put (Map.put m n a) n b = Map.put m n b := by
    intro m n a b
    induction m with
    | nil => simp [Map.put]
    | cons e m ih =>
      obtain ⟨j, v⟩ := e
      by_cases h1 : n < j
      · simp [Map.put, h1]
      · by_cases h2 : n = j
        · simp [Map.put, h2]
        · simp [Map.put, h1, h2, ih]
  simp [State.setCur, State.setHart, put2]

/-! ## Retiring -/

theorem Hart.retireTo_retires (h : Hart) (pc : DWord) : RetiresTo h (h.retireTo pc) pc := by
  constructor <;> (simp only [Hart.retireTo, Hart.countRetired, Hart.settle]; split <;> simp_all)

/-- R92, R74: retiring keeps the registers, the lanes and the device CSRs, and ends what ends with an instruction. -/
theorem Hart.retireTo_keeps (h : Hart) (pc : DWord) :
    (h.retireTo pc).x = h.x ∧ (h.retireTo pc).lanes = h.lanes ∧ (h.retireTo pc).dev = h.dev
      ∧ (h.retireTo pc).run = h.settle.run := by
  simp only [Hart.retireTo, Hart.countRetired, Hart.settle]; split <;> simp

theorem Hart.retire_eq (h : Hart) (len : Nat) : h.retire len = h.retireTo (h.nextPc len) := rfl

theorem RetiresTo.of_same {h k h' : Hart} {pc : DWord} (r : RetiresTo k h' pc) (hp : k.priv = h.priv) (ht : k.tsc = h.tsc)
    (hr : k.role = h.role) (hc : k.csr = h.csr) : RetiresTo h h' pc where
  pc := r.pc
  priv := r.priv.trans hp
  tsc := r.tsc.trans ht
  role := r.role.trans hr
  counted := by rw [r.counted, hc]

/-- R61, R92: a scalar result: the register, the pc and the retired instruction, nothing else. -/
theorem State.scalar_step (s : State) (h : Hart) (rd : BitVec 5) (v : DWord) (len : Nat) :
    ScalarStep s (s.retire (h.setX rd v) len) h ((h.setX rd v).retire len) rd v (h.nextPc len) h.run.lastBack := by
  have hs : (h.setX rd v).priv = h.priv ∧ (h.setX rd v).tsc = h.tsc ∧ (h.setX rd v).role = h.role ∧
      (h.setX rd v).csr = h.csr ∧ (h.setX rd v).pc = h.pc ∧ (h.setX rd v).run = h.run ∧ (h.setX rd v).lanes = h.lanes ∧
      (h.setX rd v).dev = h.dev := by unfold Hart.setX; split <;> simp
  obtain ⟨a1, a2, a3, a4, a5, a6, a7, a8⟩ := hs
  have hn : (h.setX rd v).nextPc len = h.nextPc len := by simp only [Hart.nextPc, a5, a6]
  have k := Hart.retireTo_keeps (h.setX rd v) (h.nextPc len)
  rw [Hart.retire_eq, hn]
  refine ⟨?_, (Hart.retireTo_retires _ _).of_same a1 a2 a3 a4, Hart.writesX_setX _ _ _ _ k.1, k.2.1.trans a7, k.2.2.1.trans a8, ?_⟩
  · have := s.setCur_only ((h.setX rd v).retireTo (h.nextPc len))
    simpa [State.retire, Hart.retire_eq, hn] using this
  · rw [k.2.2.2]; simp only [Hart.settle, a6]

/-- R61: a register-register operation. -/
theorem aluRR_step {s : State} {h : Hart} (hc : s.hart? s.cur = some h) (f : DWord → DWord → DWord) (rd rs1 rs2 : BitVec 5) :
    ∃ t h', aluRR f rd rs1 rs2 s = .next t ∧
      ScalarStep s t h h' rd (f (h.getX rs1) (h.getX rs2)) (h.nextPc 4) h.run.lastBack :=
  ⟨_, _, onHart_of s h _ hc, s.scalar_step h rd _ 4⟩

/-- R61: a register-immediate operation. -/
theorem aluRI_step {s : State} {h : Hart} (hc : s.hart? s.cur = some h) (f : DWord → DWord → DWord) (rd rs1 : BitVec 5)
    (imm : BitVec 12) :
    ∃ t h', aluRI f rd rs1 imm s = .next t ∧
      ScalarStep s t h h' rd (f (h.getX rs1) (imm.signExtend 64)) (h.nextPc 4) h.run.lastBack :=
  ⟨_, _, onHart_of s h _ hc, s.scalar_step h rd _ 4⟩

/-- R61: a shift by a constant. -/
theorem aluShift_step {s : State} {h : Hart} (hc : s.hart? s.cur = some h) (f : DWord → Nat → DWord) (rd rs1 : BitVec 5)
    (amt : Nat) :
    ∃ t h', aluShift f rd rs1 amt s = .next t ∧
      ScalarStep s t h h' rd (f (h.getX rs1) amt) (h.nextPc 4) h.run.lastBack :=
  ⟨_, _, onHart_of s h _ hc, s.scalar_step h rd _ 4⟩

/-! ## Taking an exception -/

/-- R73: one bit replaced, the others as they were. -/
theorem getLsbD_setBit (v : DWord) (i j : Nat) (b : Bool) (hi : i < 64) :
    (setBit v i b).getLsbD j = if j = i then b else v.getLsbD j := by
  have one : ((1 : DWord) <<< i).getLsbD j = decide (j = i) := by
    rw [BitVec.getLsbD_shiftLeft, show ((1 : DWord)) = 1#64 from rfl, BitVec.getLsbD_one]
    by_cases h : j = i
    · simp [h, hi]
    · rcases Nat.lt_or_gt_of_ne h with h2 | h2
      · simp [h, h2]
      · simp [h, show j - i ≠ 0 by omega]
  unfold setBit
  cases b
  · rw [if_neg Bool.false_ne_true, BitVec.getLsbD_and, BitVec.getLsbD_not, one]
    by_cases h : j = i
    · simp [h]
    · by_cases h64 : j < 64
      · rw [if_neg h]; simp only [h64, h, decide_true, decide_false, Bool.not_false, Bool.and_true]
      · rw [if_neg h, BitVec.getLsbD_of_ge _ _ (by omega)]; rfl
  · rw [if_pos rfl, BitVec.getLsbD_or, one]
    by_cases h : j = i
    · simp [h]
    · simp [h]

theorem priv_ofCode_code (p : Priv) : Priv.ofCode p.code = p := by cases p <;> rfl

theorem Hart.mpp_setMpp (h : Hart) (p : Priv) : (h.setMpp p).mpp = p := by
  have e : ((setBit (setBit h.csr.mstatus 11 (p.code.getLsbD 0)) 12 (p.code.getLsbD 1)).extractLsb' 11 2) = p.code := by
    apply BitVec.eq_of_getLsbD_eq; intro i hi
    rw [BitVec.getLsbD_extractLsb']
    interval_cases i
    · rw [getLsbD_setBit _ _ _ _ (by decide), if_neg (by decide), getLsbD_setBit _ _ _ _ (by decide), if_pos rfl]; rfl
    · rw [getLsbD_setBit _ _ _ _ (by decide), if_pos rfl]; rfl
  simp only [Hart.mpp, Hart.setMpp, e, priv_ofCode_code]

/-- R76, R362, R374: what an entry into S leaves. -/
theorem Hart.enterS_enters (h : Hart) (cause tval vec : DWord) (now : Nat) :
    EntersS now h (h.enterS cause tval vec now) cause tval vec where
  pc := rfl
  priv := rfl
  csr := rfl
  spp := (getLsbD_setBit _ 8 8 _ (by decide)).trans (if_pos rfl)
  spie := by
    refine (getLsbD_setBit _ 8 5 _ (by decide)).trans ?_
    refine (getLsbD_setBit _ 1 5 _ (by decide)).trans ?_
    exact (getLsbD_setBit _ 5 5 _ (by decide)).trans rfl
  sie := by
    refine (getLsbD_setBit _ 8 1 _ (by decide)).trans ?_
    exact (getLsbD_setBit _ 1 1 _ (by decide)).trans rfl
  status := fun i h8 h5 h1 => by
    refine (getLsbD_setBit _ 8 i _ (by decide)).trans ?_
    rw [if_neg h8]
    refine (getLsbD_setBit _ 1 i _ (by decide)).trans ?_
    rw [if_neg h1]
    refine (getLsbD_setBit _ 5 i _ (by decide)).trans ?_
    rw [if_neg h5]
  kept := ⟨rfl, rfl, rfl, rfl, rfl⟩
  run := rfl

/-- R76, R362: what an entry into M leaves, before the firmware acts. -/
theorem Hart.enterM_enters (h : Hart) (cause tval : DWord) (now : Nat) :
    EntersM now h (h.enterM cause tval h.csr.mtvec now) cause tval none where
  pc := rfl
  priv := rfl
  csr := rfl
  mpp := Hart.mpp_setMpp _ _
  mpie := by
    refine (getLsbD_setBit _ 12 7 _ (by decide)).trans ?_
    refine (getLsbD_setBit _ 11 7 _ (by decide)).trans ?_
    refine (getLsbD_setBit _ 3 7 _ (by decide)).trans ?_
    exact (getLsbD_setBit _ 7 7 _ (by decide)).trans rfl
  mie := by
    refine (getLsbD_setBit _ 12 3 _ (by decide)).trans ?_
    refine (getLsbD_setBit _ 11 3 _ (by decide)).trans ?_
    exact (getLsbD_setBit _ 3 3 _ (by decide)).trans rfl
  status := fun i h12 h11 h7 h3 => by
    refine (getLsbD_setBit _ 12 i _ (by decide)).trans ?_
    rw [if_neg h12]
    refine (getLsbD_setBit _ 11 i _ (by decide)).trans ?_
    rw [if_neg h11]
    refine (getLsbD_setBit _ 3 i _ (by decide)).trans ?_
    rw [if_neg h3]
    refine (getLsbD_setBit _ 7 i _ (by decide)).trans ?_
    rw [if_neg h7]
  kept := ⟨rfl, rfl, rfl, rfl, rfl⟩
  run := rfl

theorem delegated_iff (h : Hart) (deleg : DWord) (n : Nat) : h.delegated deleg n = true ↔ toSupervisor h deleg n := by
  simp [Hart.delegated, toSupervisor]

/-- R76, R362: a cause taken by the acting hart itself, in S or in M. -/
theorem State.raise_takes {s : State} {h : Hart} (hc : s.hart? s.cur = some h) (c : Nat) (tval : DWord)
    (hd : toSupervisor h h.csr.medeleg c ∨ h.priv = .M) : TakesTrap s (s.raise c tval) s.cur h c tval := by
  by_cases d : h.delegated h.csr.medeleg c = true
  · refine ⟨_, by
      simp only [State.raise, State.raiseWith, hc, d, if_true]
      exact s.setCur_only _, fun _ => Hart.enterS_enters _ _ _ _ _, fun hm => ?_⟩
    exact absurd hm ((delegated_iff _ _ _).mp d).1
  · have hm : h.priv = .M := hd.resolve_left (fun t => d ((delegated_iff _ _ _).mpr t))
    refine ⟨h.enterM (BitVec.ofNat 64 c) tval h.csr.mtvec s.now, ?_, fun t => absurd ((delegated_iff _ _ _).mpr t) d,
      fun _ => Hart.enterM_enters _ _ _ _⟩
    simp only [State.raise, State.raiseWith, hc, if_neg d, hm, if_true]
    exact s.setCur_only _

/-! ## Accesses -/

theorem Acc.done_ok {α : Type} (a : α) (s : State) (f : α → State → State) : (Acc.ok a s).done f = f a s := rfl

theorem Acc.done_trap {α : Type} (c : Nat) (v : DWord) (p : Bool) (s : State) (f : α → State → State) :
    (Acc.trap c v p s : Acc α).done f = s.raiseWith c v p := rfl

theorem Acc.done_park {α : Type} (w : Wait) (s : State) (f : α → State → State) :
    (Acc.park w s : Acc α).done f = s.modCur (fun h => h.park w s.now) := rfl

theorem Acc.bind_ok {α β : Type} (a : α) (s : State) (f : α → State → Acc β) : (Acc.ok a s).bind f = f a s := rfl

/-- An access that goes on gave a value before it went on. -/
theorem Acc.bind_eq_ok {α β : Type} {r : Acc α} {f : α → State → Acc β} {b : β} {t : State} (e : r.bind f = .ok b t) :
    ∃ a s, r = .ok a s ∧ f a s = .ok b t := by
  cases r with
  | ok a s => exact ⟨a, s, rfl, e⟩
  | trap c v p s => cases e
  | park w s => cases e

/-! ## Events to come -/

/-- An event joins those to come; none is lost and none other appears. -/
theorem mem_insertPlanned (p q : Planned) (l : List Planned) : q ∈ insertPlanned p l ↔ q = p ∨ q ∈ l := by
  induction l with
  | nil => simp [insertPlanned]
  | cons r l ih =>
    simp only [insertPlanned]
    split
    · simp
    · simp only [List.mem_cons, ih]; tauto

/-- Planning changes the events to come and nothing else. -/
theorem State.plan_frame (s : State) (dt : Nat) (ev : Instr) (args : EventArgs) :
    { s.plan dt ev args with schedule := s.schedule } = s := rfl

/-! ## Lanes -/

/-- The values of a register after each of some lanes wrote it. -/
theorem Hart.getV_lanes (f : Nat → Word) (r : Nat) (ls : List Nat) (h : Hart) (hs : Map.sorted h.lanes.v = true)
    (hl : ∀ l ∈ ls, l < 32) (q m : Nat) (hm : m < 32) :
    (ls.foldl (fun k l => k.setV r l (f l)) h).getV q m = if q = r ∧ m ∈ ls then f m else h.getV q m := by
  induction ls generalizing h with
  | nil => simp
  | cons l ls ih =>
    rw [List.foldl_cons, ih _ (h.sorted_setV r l (f l) hs) (fun x hx => hl x (List.mem_cons_of_mem _ hx)),
      h.getV_setV r l q m (f l) hs (hl l (List.mem_cons_self ..)) hm]
    by_cases a : q = r <;> by_cases b : m ∈ ls <;> by_cases c : m = l <;> simp_all

theorem mem_activeLanes (h : Hart) (g : Guard) (l : Nat) : l ∈ h.activeLanes g ↔ l < 32 ∧ h.active g l = true := by
  simp [Hart.activeLanes, allLanes, upTo, List.mem_filter]

/-- R315: a line that stands at its home slice needs no fill. -/
theorem atHome_stands {s : State} {part gpa : Nat} (h : s.standsAtHome part gpa) : s.atHome part gpa = .ready s := by
  obtain ⟨p, r, l, hp, hr, hc, ha, hl, hq⟩ := h
  simp [State.atHome, hp, hr, hc, ha, hl, hq]

/-- R306: a read of a line that stands at its home slice. -/
theorem readHome_stands {s : State} {part gpa : Nat} (n : Nat) (h : s.standsAtHome part gpa) :
    s.readHome part gpa n = .val (lineBytes (s.llcData part gpa) (gpa % 128) n) (s.cleanHdc part gpa none) := by
  simp [State.readHome, atHome_stands h]

/-- R306: a table entry that stands at its home slice. -/
theorem readTable_stands {s : State} {part gpa : Nat} (n : Nat) (f : Nat → State → WalkOut) (h : s.standsAtHome part gpa) :
    s.readTable part gpa n f = f (natOfBytes (lineBytes (s.llcData part gpa) (gpa % 128) n)) (s.cleanHdc part gpa none) := by
  simp [State.readTable, readHome_stands n h]

end Sys2Proof.Machine
end

