-- ==== Sys2Proof/Laws/PerInstr.lean ====
section
/-! SUPPORT. For every instruction: the fields of its encoding name that instruction and no other (family F of
LAWS.json), one lemma for each constructor, after the bit-field laws they rest on. -/

namespace Sys2Proof.Laws

theorem ty_ofCode_code (t : Ty) : Ty.ofCode t.code = t := by cases t <;> rfl

theorem extract_low {n m : Nat} (x : BitVec n) (y : BitVec m) (s k : Nat) (h : s + k ≤ m) :
    (x ++ y).extractLsb' s k = y.extractLsb' s k := by
  apply BitVec.eq_of_getLsbD_eq; intro i hi
  simp only [BitVec.getLsbD_append, BitVec.getLsbD_extractLsb']
  rw [if_pos (by omega)]

theorem extract_high {n m : Nat} (x : BitVec n) (y : BitVec m) (s k : Nat) (h : m ≤ s) :
    (x ++ y).extractLsb' s k = x.extractLsb' (s - m) k := by
  apply BitVec.eq_of_getLsbD_eq; intro i hi
  simp only [BitVec.getLsbD_append, BitVec.getLsbD_extractLsb']
  rw [if_neg (by omega)]; congr 2; omega

theorem bit_low {n m : Nat} (x : BitVec n) (y : BitVec m) (i : Nat) (h : i < m) : (x ++ y).getLsbD i = y.getLsbD i := by
  rw [BitVec.getLsbD_append, if_pos h]

theorem bit_high {n m : Nat} (x : BitVec n) (y : BitVec m) (i : Nat) (h : m ≤ i) :
    (x ++ y).getLsbD i = x.getLsbD (i - m) := by
  rw [BitVec.getLsbD_append, if_neg (by omega)]

theorem ofBool_bit (b : Bool) : (BitVec.ofBool b).getLsbD 0 = b := by cases b <;> rfl

theorem join {n : Nat} (x : BitVec n) (s k l : Nat) :
    x.extractLsb' (s + k) l ++ x.extractLsb' s k = x.extractLsb' s (l + k) := by
  apply BitVec.eq_of_getLsbD_eq; intro i hi
  simp only [BitVec.getLsbD_append, BitVec.getLsbD_extractLsb']
  by_cases h : i < k
  · simp [h, hi]
  · rw [if_neg h, show s + k + (i - k) = s + i by omega]; simp [hi, show i - k < l by omega]

theorem extract_all {n : Nat} (x : BitVec n) : x.extractLsb' 0 n = x := by simp

theorem join_i (x : BitVec 12) : x.extractLsb' 5 7 ++ x.extractLsb' 0 5 = x := (join x 0 5 7).trans (extract_all x)

theorem join_u (x : BitVec 20) :
    x.extractLsb' 13 7 ++ x.extractLsb' 8 5 ++ x.extractLsb' 3 5 ++ x.extractLsb' 0 3 = x := by
  rw [join x 8 5 7, join x 3 5 12, join x 0 3 17, extract_all]

/-- The parts of the offset of `jal`, as its word carries them, come together again (R27). -/
theorem join_j (x : BitVec 20) :
    (x.extractLsb' 19 1 ++ x.extractLsb' 4 6).extractLsb' 6 1 ++ x.extractLsb' 14 5 ++ x.extractLsb' 11 3
      ++ (x.extractLsb' 0 4 ++ x.extractLsb' 10 1).extractLsb' 0 1
      ++ (x.extractLsb' 19 1 ++ x.extractLsb' 4 6).extractLsb' 0 6
      ++ (x.extractLsb' 0 4 ++ x.extractLsb' 10 1).extractLsb' 1 4 = x := by
  rw [extract_high _ _ 6 1 (by decide), extract_low _ _ 0 1 (by decide), extract_low _ _ 0 6 (by decide),
    extract_high _ _ 1 4 (by decide), extract_all, extract_all]
  simp only [Nat.sub_self, extract_all]
  rw [join x 14 5 1, join x 11 3 6, join x 10 1 9, join x 4 6 10, join x 0 4 16, extract_all]

/-- The parts of the offset of a branch come together again (R27). -/
theorem join_b (x : BitVec 12) :
    (x.extractLsb' 11 1 ++ x.extractLsb' 4 6).extractLsb' 6 1
      ++ (x.extractLsb' 0 4 ++ x.extractLsb' 10 1).extractLsb' 0 1
      ++ (x.extractLsb' 11 1 ++ x.extractLsb' 4 6).extractLsb' 0 6
      ++ (x.extractLsb' 0 4 ++ x.extractLsb' 10 1).extractLsb' 1 4 = x := by
  rw [extract_high _ _ 6 1 (by decide), extract_low _ _ 0 1 (by decide), extract_low _ _ 0 6 (by decide),
    extract_high _ _ 1 4 (by decide), extract_all, extract_all]
  simp only [Nat.sub_self, extract_all]
  rw [join x 10 1 1, join x 4 6 2, join x 0 4 8, extract_all]

theorem shift_fields (v : BitVec 6) (x : BitVec 6) :
    (v ++ x.extractLsb' 5 1).extractLsb' 1 6 = v
      ∧ (v ++ x.extractLsb' 5 1).extractLsb' 0 1 ++ x.extractLsb' 0 5 = x :=
  ⟨(extract_high _ _ 1 6 (by decide)).trans (extract_all _),
    by rw [extract_low _ _ 0 1 (by decide), extract_all, join x 0 5 1, extract_all]⟩

theorem amo_fields (v : BitVec 5) (a r : Bool) :
    (v ++ BitVec.ofBool a ++ BitVec.ofBool r).extractLsb' 2 5 = v
      ∧ (v ++ BitVec.ofBool a ++ BitVec.ofBool r).getLsbD 1 = a
      ∧ (v ++ BitVec.ofBool a ++ BitVec.ofBool r).getLsbD 0 = r :=
  ⟨(extract_high _ _ 2 5 (by decide)).trans ((extract_high _ _ 1 5 (by decide)).trans (extract_all _)),
    (bit_high _ _ 1 (by decide)).trans ((bit_low _ _ 0 (by decide)).trans (ofBool_bit a)),
    (bit_low _ _ 0 (by decide)).trans (ofBool_bit r)⟩

theorem amoWidth_eq (d : Bool) : (amoWidth d == 3) = d := by cases d <;> rfl

namespace F

set_option Elab.async false

/-- The operation that the fields of the instruction's encoding name is the instruction. -/
def Statement (i : Instr) : Prop := ∀ c, i.fields = some c → c.candidate = some i

theorem lui (rd : BitVec 5) (imm : BitVec 20) : Statement (.lui rd imm) := by
  rintro _ ⟨⟩; change some (Instr.lui rd ((imm.extractLsb' 13 7) ++ (imm.extractLsb' 8 5) ++ (imm.extractLsb' 3 5) ++ (imm.extractLsb' 0 3))) = _; rw [join_u]

theorem auipc (rd : BitVec 5) (imm : BitVec 20) : Statement (.auipc rd imm) := by
  rintro _ ⟨⟩; change some (Instr.auipc rd ((imm.extractLsb' 13 7) ++ (imm.extractLsb' 8 5) ++ (imm.extractLsb' 3 5) ++ (imm.extractLsb' 0 3))) = _; rw [join_u]

theorem jal (rd : BitVec 5) (off : BitVec 20) : Statement (.jal rd off) := by
  rintro _ ⟨⟩; change some (Instr.jal rd ((off.extractLsb' 19 1 ++ off.extractLsb' 4 6).extractLsb' 6 1 ++ (off.extractLsb' 14 5) ++ (off.extractLsb' 11 3) ++ (off.extractLsb' 0 4 ++ off.extractLsb' 10 1).extractLsb' 0 1 ++ (off.extractLsb' 19 1 ++ off.extractLsb' 4 6).extractLsb' 0 6 ++ (off.extractLsb' 0 4 ++ off.extractLsb' 10 1).extractLsb' 1 4)) = _; rw [join_j]

theorem jalr (rd rs1 : BitVec 5) (imm : BitVec 12) : Statement (.jalr rd rs1 imm) := by
  rintro _ ⟨⟩; change some (Instr.jalr rd rs1 ((imm.extractLsb' 5 7) ++ (imm.extractLsb' 0 5))) = _; rw [join_i]

theorem beq (rs1 rs2 : BitVec 5) (off : BitVec 12) : Statement (.beq rs1 rs2 off) := by
  rintro _ ⟨⟩; change some (Instr.beq rs1 rs2 ((off.extractLsb' 11 1 ++ off.extractLsb' 4 6).extractLsb' 6 1 ++ (off.extractLsb' 0 4 ++ off.extractLsb' 10 1).extractLsb' 0 1 ++ (off.extractLsb' 11 1 ++ off.extractLsb' 4 6).extractLsb' 0 6 ++ (off.extractLsb' 0 4 ++ off.extractLsb' 10 1).extractLsb' 1 4)) = _; rw [join_b]

theorem bne (rs1 rs2 : BitVec 5) (off : BitVec 12) : Statement (.bne rs1 rs2 off) := by
  rintro _ ⟨⟩; change some (Instr.bne rs1 rs2 ((off.extractLsb' 11 1 ++ off.extractLsb' 4 6).extractLsb' 6 1 ++ (off.extractLsb' 0 4 ++ off.extractLsb' 10 1).extractLsb' 0 1 ++ (off.extractLsb' 11 1 ++ off.extractLsb' 4 6).extractLsb' 0 6 ++ (off.extractLsb' 0 4 ++ off.extractLsb' 10 1).extractLsb' 1 4)) = _; rw [join_b]

theorem blt (rs1 rs2 : BitVec 5) (off : BitVec 12) : Statement (.blt rs1 rs2 off) := by
  rintro _ ⟨⟩; change some (Instr.blt rs1 rs2 ((off.extractLsb' 11 1 ++ off.extractLsb' 4 6).extractLsb' 6 1 ++ (off.extractLsb' 0 4 ++ off.extractLsb' 10 1).extractLsb' 0 1 ++ (off.extractLsb' 11 1 ++ off.extractLsb' 4 6).extractLsb' 0 6 ++ (off.extractLsb' 0 4 ++ off.extractLsb' 10 1).extractLsb' 1 4)) = _; rw [join_b]

theorem bge (rs1 rs2 : BitVec 5) (off : BitVec 12) : Statement (.bge rs1 rs2 off) := by
  rintro _ ⟨⟩; change some (Instr.bge rs1 rs2 ((off.extractLsb' 11 1 ++ off.extractLsb' 4 6).extractLsb' 6 1 ++ (off.extractLsb' 0 4 ++ off.extractLsb' 10 1).extractLsb' 0 1 ++ (off.extractLsb' 11 1 ++ off.extractLsb' 4 6).extractLsb' 0 6 ++ (off.extractLsb' 0 4 ++ off.extractLsb' 10 1).extractLsb' 1 4)) = _; rw [join_b]

theorem bltu (rs1 rs2 : BitVec 5) (off : BitVec 12) : Statement (.bltu rs1 rs2 off) := by
  rintro _ ⟨⟩; change some (Instr.bltu rs1 rs2 ((off.extractLsb' 11 1 ++ off.extractLsb' 4 6).extractLsb' 6 1 ++ (off.extractLsb' 0 4 ++ off.extractLsb' 10 1).extractLsb' 0 1 ++ (off.extractLsb' 11 1 ++ off.extractLsb' 4 6).extractLsb' 0 6 ++ (off.extractLsb' 0 4 ++ off.extractLsb' 10 1).extractLsb' 1 4)) = _; rw [join_b]

theorem bgeu (rs1 rs2 : BitVec 5) (off : BitVec 12) : Statement (.bgeu rs1 rs2 off) := by
  rintro _ ⟨⟩; change some (Instr.bgeu rs1 rs2 ((off.extractLsb' 11 1 ++ off.extractLsb' 4 6).extractLsb' 6 1 ++ (off.extractLsb' 0 4 ++ off.extractLsb' 10 1).extractLsb' 0 1 ++ (off.extractLsb' 11 1 ++ off.extractLsb' 4 6).extractLsb' 0 6 ++ (off.extractLsb' 0 4 ++ off.extractLsb' 10 1).extractLsb' 1 4)) = _; rw [join_b]

theorem lb (rd rs1 : BitVec 5) (imm : BitVec 12) : Statement (.lb rd rs1 imm) := by
  rintro _ ⟨⟩; change some (Instr.lb rd rs1 ((imm.extractLsb' 5 7) ++ (imm.extractLsb' 0 5))) = _; rw [join_i]

theorem lh (rd rs1 : BitVec 5) (imm : BitVec 12) : Statement (.lh rd rs1 imm) := by
  rintro _ ⟨⟩; change some (Instr.lh rd rs1 ((imm.extractLsb' 5 7) ++ (imm.extractLsb' 0 5))) = _; rw [join_i]

theorem lw (rd rs1 : BitVec 5) (imm : BitVec 12) : Statement (.lw rd rs1 imm) := by
  rintro _ ⟨⟩; change some (Instr.lw rd rs1 ((imm.extractLsb' 5 7) ++ (imm.extractLsb' 0 5))) = _; rw [join_i]

theorem ld (rd rs1 : BitVec 5) (imm : BitVec 12) : Statement (.ld rd rs1 imm) := by
  rintro _ ⟨⟩; change some (Instr.ld rd rs1 ((imm.extractLsb' 5 7) ++ (imm.extractLsb' 0 5))) = _; rw [join_i]

theorem lbu (rd rs1 : BitVec 5) (imm : BitVec 12) : Statement (.lbu rd rs1 imm) := by
  rintro _ ⟨⟩; change some (Instr.lbu rd rs1 ((imm.extractLsb' 5 7) ++ (imm.extractLsb' 0 5))) = _; rw [join_i]

theorem lhu (rd rs1 : BitVec 5) (imm : BitVec 12) : Statement (.lhu rd rs1 imm) := by
  rintro _ ⟨⟩; change some (Instr.lhu rd rs1 ((imm.extractLsb' 5 7) ++ (imm.extractLsb' 0 5))) = _; rw [join_i]

theorem lwu (rd rs1 : BitVec 5) (imm : BitVec 12) : Statement (.lwu rd rs1 imm) := by
  rintro _ ⟨⟩; change some (Instr.lwu rd rs1 ((imm.extractLsb' 5 7) ++ (imm.extractLsb' 0 5))) = _; rw [join_i]

theorem sb (rs1 rs2 : BitVec 5) (imm : BitVec 12) : Statement (.sb rs1 rs2 imm) := by
  rintro _ ⟨⟩; change some (Instr.sb rs1 rs2 ((imm.extractLsb' 5 7) ++ (imm.extractLsb' 0 5))) = _; rw [join_i]

theorem sh (rs1 rs2 : BitVec 5) (imm : BitVec 12) : Statement (.sh rs1 rs2 imm) := by
  rintro _ ⟨⟩; change some (Instr.sh rs1 rs2 ((imm.extractLsb' 5 7) ++ (imm.extractLsb' 0 5))) = _; rw [join_i]

theorem sw (rs1 rs2 : BitVec 5) (imm : BitVec 12) : Statement (.sw rs1 rs2 imm) := by
  rintro _ ⟨⟩; change some (Instr.sw rs1 rs2 ((imm.extractLsb' 5 7) ++ (imm.extractLsb' 0 5))) = _; rw [join_i]

theorem sd (rs1 rs2 : BitVec 5) (imm : BitVec 12) : Statement (.sd rs1 rs2 imm) := by
  rintro _ ⟨⟩; change some (Instr.sd rs1 rs2 ((imm.extractLsb' 5 7) ++ (imm.extractLsb' 0 5))) = _; rw [join_i]

theorem addi (rd rs1 : BitVec 5) (imm : BitVec 12) : Statement (.addi rd rs1 imm) := by
  rintro _ ⟨⟩; change some (Instr.addi rd rs1 ((imm.extractLsb' 5 7) ++ (imm.extractLsb' 0 5))) = _; rw [join_i]

theorem slti (rd rs1 : BitVec 5) (imm : BitVec 12) : Statement (.slti rd rs1 imm) := by
  rintro _ ⟨⟩; change some (Instr.slti rd rs1 ((imm.extractLsb' 5 7) ++ (imm.extractLsb' 0 5))) = _; rw [join_i]

theorem sltiu (rd rs1 : BitVec 5) (imm : BitVec 12) : Statement (.sltiu rd rs1 imm) := by
  rintro _ ⟨⟩; change some (Instr.sltiu rd rs1 ((imm.extractLsb' 5 7) ++ (imm.extractLsb' 0 5))) = _; rw [join_i]

theorem xori (rd rs1 : BitVec 5) (imm : BitVec 12) : Statement (.xori rd rs1 imm) := by
  rintro _ ⟨⟩; change some (Instr.xori rd rs1 ((imm.extractLsb' 5 7) ++ (imm.extractLsb' 0 5))) = _; rw [join_i]

theorem ori (rd rs1 : BitVec 5) (imm : BitVec 12) : Statement (.ori rd rs1 imm) := by
  rintro _ ⟨⟩; change some (Instr.ori rd rs1 ((imm.extractLsb' 5 7) ++ (imm.extractLsb' 0 5))) = _; rw [join_i]

theorem andi (rd rs1 : BitVec 5) (imm : BitVec 12) : Statement (.andi rd rs1 imm) := by
  rintro _ ⟨⟩; change some (Instr.andi rd rs1 ((imm.extractLsb' 5 7) ++ (imm.extractLsb' 0 5))) = _; rw [join_i]

theorem slli (rd rs1 : BitVec 5) (amt : BitVec 6) : Statement (.slli rd rs1 amt) := (shift_fields 0#6 amt).elim fun e0 e1 => by
  rintro _ ⟨⟩; simp only [Code.candidate, W32.candidate, opImmOf, BitVec.reduceToNat, e0, e1]

theorem srli (rd rs1 : BitVec 5) (amt : BitVec 6) : Statement (.srli rd rs1 amt) := (shift_fields 0#6 amt).elim fun e0 e1 => by
  rintro _ ⟨⟩; simp only [Code.candidate, W32.candidate, opImmOf, BitVec.reduceToNat, e0, e1]

theorem srai (rd rs1 : BitVec 5) (amt : BitVec 6) : Statement (.srai rd rs1 amt) := (shift_fields 16#6 amt).elim fun e0 e1 => by
  rintro _ ⟨⟩; simp only [Code.candidate, W32.candidate, opImmOf, BitVec.reduceToNat, e0, e1]

theorem addiw (rd rs1 : BitVec 5) (imm : BitVec 12) : Statement (.addiw rd rs1 imm) := by
  rintro _ ⟨⟩; change some (Instr.addiw rd rs1 ((imm.extractLsb' 5 7) ++ (imm.extractLsb' 0 5))) = _; rw [join_i]

theorem slliw (rd rs1 amt : BitVec 5) : Statement (.slliw rd rs1 amt) := by
  rintro _ ⟨⟩; rfl

theorem srliw (rd rs1 amt : BitVec 5) : Statement (.srliw rd rs1 amt) := by
  rintro _ ⟨⟩; rfl

theorem sraiw (rd rs1 amt : BitVec 5) : Statement (.sraiw rd rs1 amt) := by
  rintro _ ⟨⟩; rfl

theorem add (rd rs1 rs2 : BitVec 5) : Statement (.add rd rs1 rs2) := by
  rintro _ ⟨⟩; rfl

theorem sub (rd rs1 rs2 : BitVec 5) : Statement (.sub rd rs1 rs2) := by
  rintro _ ⟨⟩; rfl

theorem sll (rd rs1 rs2 : BitVec 5) : Statement (.sll rd rs1 rs2) := by
  rintro _ ⟨⟩; rfl

theorem slt (rd rs1 rs2 : BitVec 5) : Statement (.slt rd rs1 rs2) := by
  rintro _ ⟨⟩; rfl

theorem sltu (rd rs1 rs2 : BitVec 5) : Statement (.sltu rd rs1 rs2) := by
  rintro _ ⟨⟩; rfl

theorem xor (rd rs1 rs2 : BitVec 5) : Statement (.xor rd rs1 rs2) := by
  rintro _ ⟨⟩; rfl

theorem srl (rd rs1 rs2 : BitVec 5) : Statement (.srl rd rs1 rs2) := by
  rintro _ ⟨⟩; rfl

theorem sra (rd rs1 rs2 : BitVec 5) : Statement (.sra rd rs1 rs2) := by
  rintro _ ⟨⟩; rfl

theorem or (rd rs1 rs2 : BitVec 5) : Statement (.or rd rs1 rs2) := by
  rintro _ ⟨⟩; rfl

theorem and (rd rs1 rs2 : BitVec 5) : Statement (.and rd rs1 rs2) := by
  rintro _ ⟨⟩; rfl

theorem mul (rd rs1 rs2 : BitVec 5) : Statement (.mul rd rs1 rs2) := by
  rintro _ ⟨⟩; rfl

theorem mulh (rd rs1 rs2 : BitVec 5) : Statement (.mulh rd rs1 rs2) := by
  rintro _ ⟨⟩; rfl

theorem mulhsu (rd rs1 rs2 : BitVec 5) : Statement (.mulhsu rd rs1 rs2) := by
  rintro _ ⟨⟩; rfl

theorem mulhu (rd rs1 rs2 : BitVec 5) : Statement (.mulhu rd rs1 rs2) := by
  rintro _ ⟨⟩; rfl

theorem div (rd rs1 rs2 : BitVec 5) : Statement (.div rd rs1 rs2) := by
  rintro _ ⟨⟩; rfl

theorem divu (rd rs1 rs2 : BitVec 5) : Statement (.divu rd rs1 rs2) := by
  rintro _ ⟨⟩; rfl

theorem rem (rd rs1 rs2 : BitVec 5) : Statement (.rem rd rs1 rs2) := by
  rintro _ ⟨⟩; rfl

theorem remu (rd rs1 rs2 : BitVec 5) : Statement (.remu rd rs1 rs2) := by
  rintro _ ⟨⟩; rfl

theorem addw (rd rs1 rs2 : BitVec 5) : Statement (.addw rd rs1 rs2) := by
  rintro _ ⟨⟩; rfl

theorem subw (rd rs1 rs2 : BitVec 5) : Statement (.subw rd rs1 rs2) := by
  rintro _ ⟨⟩; rfl

theorem sllw (rd rs1 rs2 : BitVec 5) : Statement (.sllw rd rs1 rs2) := by
  rintro _ ⟨⟩; rfl

theorem srlw (rd rs1 rs2 : BitVec 5) : Statement (.srlw rd rs1 rs2) := by
  rintro _ ⟨⟩; rfl

theorem sraw (rd rs1 rs2 : BitVec 5) : Statement (.sraw rd rs1 rs2) := by
  rintro _ ⟨⟩; rfl

theorem mulw (rd rs1 rs2 : BitVec 5) : Statement (.mulw rd rs1 rs2) := by
  rintro _ ⟨⟩; rfl

theorem divw (rd rs1 rs2 : BitVec 5) : Statement (.divw rd rs1 rs2) := by
  rintro _ ⟨⟩; rfl

theorem divuw (rd rs1 rs2 : BitVec 5) : Statement (.divuw rd rs1 rs2) := by
  rintro _ ⟨⟩; rfl

theorem remw (rd rs1 rs2 : BitVec 5) : Statement (.remw rd rs1 rs2) := by
  rintro _ ⟨⟩; rfl

theorem remuw (rd rs1 rs2 : BitVec 5) : Statement (.remuw rd rs1 rs2) := by
  rintro _ ⟨⟩; rfl

theorem lr (rd rs1 : BitVec 5) (aq rl dbl : Bool) : Statement (.lr rd rs1 aq rl dbl) := (amo_fields 2#5 aq rl).elim fun e0 e => by
  rintro _ ⟨⟩; simp only [Code.candidate, W32.candidate, amoOf, BitVec.reduceToNat, e0, e.1, e.2, amoWidth_eq]

theorem sc (rd rs1 rs2 : BitVec 5) (aq rl dbl : Bool) : Statement (.sc rd rs1 rs2 aq rl dbl) := (amo_fields 3#5 aq rl).elim fun e0 e => by
  rintro _ ⟨⟩; simp only [Code.candidate, W32.candidate, amoOf, BitVec.reduceToNat, e0, e.1, e.2, amoWidth_eq]

theorem amoswap (rd rs1 rs2 : BitVec 5) (aq rl dbl : Bool) : Statement (.amoswap rd rs1 rs2 aq rl dbl) := (amo_fields 1#5 aq rl).elim fun e0 e => by
  rintro _ ⟨⟩; simp only [Code.candidate, W32.candidate, amoOf, BitVec.reduceToNat, e0, e.1, e.2, amoWidth_eq]

theorem amoadd (rd rs1 rs2 : BitVec 5) (aq rl dbl : Bool) : Statement (.amoadd rd rs1 rs2 aq rl dbl) := (amo_fields 0#5 aq rl).elim fun e0 e => by
  rintro _ ⟨⟩; simp only [Code.candidate, W32.candidate, amoOf, BitVec.reduceToNat, e0, e.1, e.2, amoWidth_eq]

theorem amoxor (rd rs1 rs2 : BitVec 5) (aq rl dbl : Bool) : Statement (.amoxor rd rs1 rs2 aq rl dbl) := (amo_fields 4#5 aq rl).elim fun e0 e => by
  rintro _ ⟨⟩; simp only [Code.candidate, W32.candidate, amoOf, BitVec.reduceToNat, e0, e.1, e.2, amoWidth_eq]

theorem amoand (rd rs1 rs2 : BitVec 5) (aq rl dbl : Bool) : Statement (.amoand rd rs1 rs2 aq rl dbl) := (amo_fields 12#5 aq rl).elim fun e0 e => by
  rintro _ ⟨⟩; simp only [Code.candidate, W32.candidate, amoOf, BitVec.reduceToNat, e0, e.1, e.2, amoWidth_eq]

theorem amoor (rd rs1 rs2 : BitVec 5) (aq rl dbl : Bool) : Statement (.amoor rd rs1 rs2 aq rl dbl) := (amo_fields 8#5 aq rl).elim fun e0 e => by
  rintro _ ⟨⟩; simp only [Code.candidate, W32.candidate, amoOf, BitVec.reduceToNat, e0, e.1, e.2, amoWidth_eq]

theorem amomin (rd rs1 rs2 : BitVec 5) (aq rl dbl : Bool) : Statement (.amomin rd rs1 rs2 aq rl dbl) := (amo_fields 16#5 aq rl).elim fun e0 e => by
  rintro _ ⟨⟩; simp only [Code.candidate, W32.candidate, amoOf, BitVec.reduceToNat, e0, e.1, e.2, amoWidth_eq]

theorem amomax (rd rs1 rs2 : BitVec 5) (aq rl dbl : Bool) : Statement (.amomax rd rs1 rs2 aq rl dbl) := (amo_fields 20#5 aq rl).elim fun e0 e => by
  rintro _ ⟨⟩; simp only [Code.candidate, W32.candidate, amoOf, BitVec.reduceToNat, e0, e.1, e.2, amoWidth_eq]

theorem amominu (rd rs1 rs2 : BitVec 5) (aq rl dbl : Bool) : Statement (.amominu rd rs1 rs2 aq rl dbl) := (amo_fields 24#5 aq rl).elim fun e0 e => by
  rintro _ ⟨⟩; simp only [Code.candidate, W32.candidate, amoOf, BitVec.reduceToNat, e0, e.1, e.2, amoWidth_eq]

theorem amomaxu (rd rs1 rs2 : BitVec 5) (aq rl dbl : Bool) : Statement (.amomaxu rd rs1 rs2 aq rl dbl) := (amo_fields 28#5 aq rl).elim fun e0 e => by
  rintro _ ⟨⟩; simp only [Code.candidate, W32.candidate, amoOf, BitVec.reduceToNat, e0, e.1, e.2, amoWidth_eq]

theorem fence (tso : Bool) (pred succ : BitVec 4) : Statement (.fence tso pred succ) := by
  have e0 : (BitVec.ofBool tso ++ 0#3 ++ pred.extractLsb' 1 3).getLsbD 6 = tso := ((bit_high _ _ 6 (by decide)).trans ((bit_high _ _ 3 (by decide)).trans (ofBool_bit _)))
  have e1 : (BitVec.ofBool tso ++ 0#3 ++ pred.extractLsb' 1 3).extractLsb' 0 3 = pred.extractLsb' 1 3 := ((extract_low _ _ 0 3 (by decide)).trans (extract_all _))
  have e2 : (pred.extractLsb' 0 1 ++ succ).extractLsb' 4 1 = pred.extractLsb' 0 1 := ((extract_high _ _ 4 1 (by decide)).trans (extract_all _))
  have e3 : (pred.extractLsb' 0 1 ++ succ).extractLsb' 0 4 = succ := ((extract_low _ _ 0 4 (by decide)).trans (extract_all _))
  rintro _ ⟨⟩; change some (Instr.fence ((BitVec.ofBool tso ++ 0#3 ++ pred.extractLsb' 1 3).getLsbD 6) ((BitVec.ofBool tso ++ 0#3 ++ pred.extractLsb' 1 3).extractLsb' 0 3 ++ (pred.extractLsb' 0 1 ++ succ).extractLsb' 4 1) ((pred.extractLsb' 0 1 ++ succ).extractLsb' 0 4)) = _; rw [e0, e1, e2, e3, join pred 0 1 3, extract_all]

theorem sfenceVma (rs1 rs2 : BitVec 5) : Statement (.sfenceVma rs1 rs2) := by
  rintro _ ⟨⟩; rfl

theorem csrrw (rd rs1 : BitVec 5) (csr : BitVec 12) : Statement (.csrrw rd rs1 csr) := by
  rintro _ ⟨⟩; change some (Instr.csrrw rd rs1 ((csr.extractLsb' 5 7) ++ (csr.extractLsb' 0 5))) = _; rw [join_i]

theorem csrrs (rd rs1 : BitVec 5) (csr : BitVec 12) : Statement (.csrrs rd rs1 csr) := by
  rintro _ ⟨⟩; change some (Instr.csrrs rd rs1 ((csr.extractLsb' 5 7) ++ (csr.extractLsb' 0 5))) = _; rw [join_i]

theorem csrrc (rd rs1 : BitVec 5) (csr : BitVec 12) : Statement (.csrrc rd rs1 csr) := by
  rintro _ ⟨⟩; change some (Instr.csrrc rd rs1 ((csr.extractLsb' 5 7) ++ (csr.extractLsb' 0 5))) = _; rw [join_i]

theorem csrrwi (rd uimm : BitVec 5) (csr : BitVec 12) : Statement (.csrrwi rd uimm csr) := by
  rintro _ ⟨⟩; change some (Instr.csrrwi rd uimm ((csr.extractLsb' 5 7) ++ (csr.extractLsb' 0 5))) = _; rw [join_i]

theorem csrrsi (rd uimm : BitVec 5) (csr : BitVec 12) : Statement (.csrrsi rd uimm csr) := by
  rintro _ ⟨⟩; change some (Instr.csrrsi rd uimm ((csr.extractLsb' 5 7) ++ (csr.extractLsb' 0 5))) = _; rw [join_i]

theorem csrrci (rd uimm : BitVec 5) (csr : BitVec 12) : Statement (.csrrci rd uimm csr) := by
  rintro _ ⟨⟩; change some (Instr.csrrci rd uimm ((csr.extractLsb' 5 7) ++ (csr.extractLsb' 0 5))) = _; rw [join_i]

theorem ladd (f : Lane3) : Statement (.ladd f) := by
  rintro _ ⟨⟩; change some (Instr.ladd ⟨f.vd, f.va, f.vb, (Ty.ofCode f.ty.code), ⟨f.guard.pred, f.guard.sense⟩⟩) = _; rw [ty_ofCode_code]

theorem laddImm (f : Lane3I) : Statement (.laddImm f) := by
  rintro _ ⟨⟩; change some (Instr.laddImm ⟨f.vd, f.va, f.imm, (Ty.ofCode f.ty.code), ⟨f.guard.pred, f.guard.sense⟩⟩) = _; rw [ty_ofCode_code]

theorem laddS32 (f : Lane3S) : Statement (.laddS32 f) := by
  rintro _ ⟨⟩; change some (Instr.laddS32 ⟨f.vd, f.va, f.vb, Ty.ofCode f.ty.code⟩) = _; rw [ty_ofCode_code]

theorem lsub (f : Lane3) : Statement (.lsub f) := by
  rintro _ ⟨⟩; change some (Instr.lsub ⟨f.vd, f.va, f.vb, (Ty.ofCode f.ty.code), ⟨f.guard.pred, f.guard.sense⟩⟩) = _; rw [ty_ofCode_code]

theorem lsubImm (f : Lane3I) : Statement (.lsubImm f) := by
  rintro _ ⟨⟩; change some (Instr.lsubImm ⟨f.vd, f.va, f.imm, (Ty.ofCode f.ty.code), ⟨f.guard.pred, f.guard.sense⟩⟩) = _; rw [ty_ofCode_code]

theorem lsubS32 (f : Lane3S) : Statement (.lsubS32 f) := by
  rintro _ ⟨⟩; change some (Instr.lsubS32 ⟨f.vd, f.va, f.vb, Ty.ofCode f.ty.code⟩) = _; rw [ty_ofCode_code]

theorem lmul (f : Lane3) : Statement (.lmul f) := by
  rintro _ ⟨⟩; change some (Instr.lmul ⟨f.vd, f.va, f.vb, (Ty.ofCode f.ty.code), ⟨f.guard.pred, f.guard.sense⟩⟩) = _; rw [ty_ofCode_code]

theorem lmulImm (f : Lane3I) : Statement (.lmulImm f) := by
  rintro _ ⟨⟩; change some (Instr.lmulImm ⟨f.vd, f.va, f.imm, (Ty.ofCode f.ty.code), ⟨f.guard.pred, f.guard.sense⟩⟩) = _; rw [ty_ofCode_code]

theorem lmulS32 (f : Lane3S) : Statement (.lmulS32 f) := by
  rintro _ ⟨⟩; change some (Instr.lmulS32 ⟨f.vd, f.va, f.vb, Ty.ofCode f.ty.code⟩) = _; rw [ty_ofCode_code]

theorem lmulh (f : Lane3) : Statement (.lmulh f) := by
  rintro _ ⟨⟩; change some (Instr.lmulh ⟨f.vd, f.va, f.vb, (Ty.ofCode f.ty.code), ⟨f.guard.pred, f.guard.sense⟩⟩) = _; rw [ty_ofCode_code]

theorem lmulhImm (f : Lane3I) : Statement (.lmulhImm f) := by
  rintro _ ⟨⟩; change some (Instr.lmulhImm ⟨f.vd, f.va, f.imm, (Ty.ofCode f.ty.code), ⟨f.guard.pred, f.guard.sense⟩⟩) = _; rw [ty_ofCode_code]

theorem lmulhS32 (f : Lane3S) : Statement (.lmulhS32 f) := by
  rintro _ ⟨⟩; change some (Instr.lmulhS32 ⟨f.vd, f.va, f.vb, Ty.ofCode f.ty.code⟩) = _; rw [ty_ofCode_code]

theorem lmad (f : Lane4) : Statement (.lmad f) := by
  rintro _ ⟨⟩; change some (Instr.lmad ⟨f.vd, f.va, f.vb, f.vc, (Ty.ofCode f.ty.code), ⟨f.guard.pred, f.guard.sense⟩⟩) = _; rw [ty_ofCode_code]

theorem lmadImm (f : Lane4I) : Statement (.lmadImm f) := by
  rintro _ ⟨⟩; change some (Instr.lmadImm ⟨f.vd, f.va, f.imm, f.vc, (Ty.ofCode f.ty.code), ⟨f.guard.pred, f.guard.sense⟩⟩) = _; rw [ty_ofCode_code]

theorem lmin (f : Lane3) : Statement (.lmin f) := by
  rintro _ ⟨⟩; change some (Instr.lmin ⟨f.vd, f.va, f.vb, (Ty.ofCode f.ty.code), ⟨f.guard.pred, f.guard.sense⟩⟩) = _; rw [ty_ofCode_code]

theorem lminImm (f : Lane3I) : Statement (.lminImm f) := by
  rintro _ ⟨⟩; change some (Instr.lminImm ⟨f.vd, f.va, f.imm, (Ty.ofCode f.ty.code), ⟨f.guard.pred, f.guard.sense⟩⟩) = _; rw [ty_ofCode_code]

theorem lminS32 (f : Lane3S) : Statement (.lminS32 f) := by
  rintro _ ⟨⟩; change some (Instr.lminS32 ⟨f.vd, f.va, f.vb, Ty.ofCode f.ty.code⟩) = _; rw [ty_ofCode_code]

theorem lmax (f : Lane3) : Statement (.lmax f) := by
  rintro _ ⟨⟩; change some (Instr.lmax ⟨f.vd, f.va, f.vb, (Ty.ofCode f.ty.code), ⟨f.guard.pred, f.guard.sense⟩⟩) = _; rw [ty_ofCode_code]

theorem lmaxImm (f : Lane3I) : Statement (.lmaxImm f) := by
  rintro _ ⟨⟩; change some (Instr.lmaxImm ⟨f.vd, f.va, f.imm, (Ty.ofCode f.ty.code), ⟨f.guard.pred, f.guard.sense⟩⟩) = _; rw [ty_ofCode_code]

theorem lmaxS32 (f : Lane3S) : Statement (.lmaxS32 f) := by
  rintro _ ⟨⟩; change some (Instr.lmaxS32 ⟨f.vd, f.va, f.vb, Ty.ofCode f.ty.code⟩) = _; rw [ty_ofCode_code]

theorem labs (f : Lane2) : Statement (.labs f) := by
  rintro _ ⟨⟩; change some (Instr.labs ⟨f.vd, f.va, (Ty.ofCode f.ty.code), ⟨f.guard.pred, f.guard.sense⟩⟩) = _; rw [ty_ofCode_code]

theorem labsS32 (f : Lane2S) : Statement (.labsS32 f) := by
  rintro _ ⟨⟩; change some (Instr.labsS32 ⟨f.vd, f.va, Ty.ofCode f.ty.code⟩) = _; rw [ty_ofCode_code]

theorem land (f : Lane3) : Statement (.land f) := by
  rintro _ ⟨⟩; change some (Instr.land ⟨f.vd, f.va, f.vb, (Ty.ofCode f.ty.code), ⟨f.guard.pred, f.guard.sense⟩⟩) = _; rw [ty_ofCode_code]

theorem landImm (f : Lane3I) : Statement (.landImm f) := by
  rintro _ ⟨⟩; change some (Instr.landImm ⟨f.vd, f.va, f.imm, (Ty.ofCode f.ty.code), ⟨f.guard.pred, f.guard.sense⟩⟩) = _; rw [ty_ofCode_code]

theorem landS32 (f : Lane3S) : Statement (.landS32 f) := by
  rintro _ ⟨⟩; change some (Instr.landS32 ⟨f.vd, f.va, f.vb, Ty.ofCode f.ty.code⟩) = _; rw [ty_ofCode_code]

theorem lor (f : Lane3) : Statement (.lor f) := by
  rintro _ ⟨⟩; change some (Instr.lor ⟨f.vd, f.va, f.vb, (Ty.ofCode f.ty.code), ⟨f.guard.pred, f.guard.sense⟩⟩) = _; rw [ty_ofCode_code]

theorem lorImm (f : Lane3I) : Statement (.lorImm f) := by
  rintro _ ⟨⟩; change some (Instr.lorImm ⟨f.vd, f.va, f.imm, (Ty.ofCode f.ty.code), ⟨f.guard.pred, f.guard.sense⟩⟩) = _; rw [ty_ofCode_code]

theorem lorS32 (f : Lane3S) : Statement (.lorS32 f) := by
  rintro _ ⟨⟩; change some (Instr.lorS32 ⟨f.vd, f.va, f.vb, Ty.ofCode f.ty.code⟩) = _; rw [ty_ofCode_code]

theorem lxor (f : Lane3) : Statement (.lxor f) := by
  rintro _ ⟨⟩; change some (Instr.lxor ⟨f.vd, f.va, f.vb, (Ty.ofCode f.ty.code), ⟨f.guard.pred, f.guard.sense⟩⟩) = _; rw [ty_ofCode_code]

theorem lxorImm (f : Lane3I) : Statement (.lxorImm f) := by
  rintro _ ⟨⟩; change some (Instr.lxorImm ⟨f.vd, f.va, f.imm, (Ty.ofCode f.ty.code), ⟨f.guard.pred, f.guard.sense⟩⟩) = _; rw [ty_ofCode_code]

theorem lxorS32 (f : Lane3S) : Statement (.lxorS32 f) := by
  rintro _ ⟨⟩; change some (Instr.lxorS32 ⟨f.vd, f.va, f.vb, Ty.ofCode f.ty.code⟩) = _; rw [ty_ofCode_code]

theorem landn (f : Lane3) : Statement (.landn f) := by
  rintro _ ⟨⟩; change some (Instr.landn ⟨f.vd, f.va, f.vb, (Ty.ofCode f.ty.code), ⟨f.guard.pred, f.guard.sense⟩⟩) = _; rw [ty_ofCode_code]

theorem landnImm (f : Lane3I) : Statement (.landnImm f) := by
  rintro _ ⟨⟩; change some (Instr.landnImm ⟨f.vd, f.va, f.imm, (Ty.ofCode f.ty.code), ⟨f.guard.pred, f.guard.sense⟩⟩) = _; rw [ty_ofCode_code]

theorem landnS32 (f : Lane3S) : Statement (.landnS32 f) := by
  rintro _ ⟨⟩; change some (Instr.landnS32 ⟨f.vd, f.va, f.vb, Ty.ofCode f.ty.code⟩) = _; rw [ty_ofCode_code]

theorem lshl (f : Lane3) : Statement (.lshl f) := by
  rintro _ ⟨⟩; change some (Instr.lshl ⟨f.vd, f.va, f.vb, (Ty.ofCode f.ty.code), ⟨f.guard.pred, f.guard.sense⟩⟩) = _; rw [ty_ofCode_code]

theorem lshlImm (f : Lane3I) : Statement (.lshlImm f) := by
  rintro _ ⟨⟩; change some (Instr.lshlImm ⟨f.vd, f.va, f.imm, (Ty.ofCode f.ty.code), ⟨f.guard.pred, f.guard.sense⟩⟩) = _; rw [ty_ofCode_code]

theorem lshlS32 (f : Lane3S) : Statement (.lshlS32 f) := by
  rintro _ ⟨⟩; change some (Instr.lshlS32 ⟨f.vd, f.va, f.vb, Ty.ofCode f.ty.code⟩) = _; rw [ty_ofCode_code]

theorem lshr (f : Lane3) : Statement (.lshr f) := by
  rintro _ ⟨⟩; change some (Instr.lshr ⟨f.vd, f.va, f.vb, (Ty.ofCode f.ty.code), ⟨f.guard.pred, f.guard.sense⟩⟩) = _; rw [ty_ofCode_code]

theorem lshrImm (f : Lane3I) : Statement (.lshrImm f) := by
  rintro _ ⟨⟩; change some (Instr.lshrImm ⟨f.vd, f.va, f.imm, (Ty.ofCode f.ty.code), ⟨f.guard.pred, f.guard.sense⟩⟩) = _; rw [ty_ofCode_code]

theorem lshrS32 (f : Lane3S) : Statement (.lshrS32 f) := by
  rintro _ ⟨⟩; change some (Instr.lshrS32 ⟨f.vd, f.va, f.vb, Ty.ofCode f.ty.code⟩) = _; rw [ty_ofCode_code]

theorem lsra (f : Lane3) : Statement (.lsra f) := by
  rintro _ ⟨⟩; change some (Instr.lsra ⟨f.vd, f.va, f.vb, (Ty.ofCode f.ty.code), ⟨f.guard.pred, f.guard.sense⟩⟩) = _; rw [ty_ofCode_code]

theorem lsraImm (f : Lane3I) : Statement (.lsraImm f) := by
  rintro _ ⟨⟩; change some (Instr.lsraImm ⟨f.vd, f.va, f.imm, (Ty.ofCode f.ty.code), ⟨f.guard.pred, f.guard.sense⟩⟩) = _; rw [ty_ofCode_code]

theorem lsraS32 (f : Lane3S) : Statement (.lsraS32 f) := by
  rintro _ ⟨⟩; change some (Instr.lsraS32 ⟨f.vd, f.va, f.vb, Ty.ofCode f.ty.code⟩) = _; rw [ty_ofCode_code]

theorem lrot (f : Lane3) : Statement (.lrot f) := by
  rintro _ ⟨⟩; change some (Instr.lrot ⟨f.vd, f.va, f.vb, (Ty.ofCode f.ty.code), ⟨f.guard.pred, f.guard.sense⟩⟩) = _; rw [ty_ofCode_code]

theorem lrotImm (f : Lane3I) : Statement (.lrotImm f) := by
  rintro _ ⟨⟩; change some (Instr.lrotImm ⟨f.vd, f.va, f.imm, (Ty.ofCode f.ty.code), ⟨f.guard.pred, f.guard.sense⟩⟩) = _; rw [ty_ofCode_code]

theorem lrotS32 (f : Lane3S) : Statement (.lrotS32 f) := by
  rintro _ ⟨⟩; change some (Instr.lrotS32 ⟨f.vd, f.va, f.vb, Ty.ofCode f.ty.code⟩) = _; rw [ty_ofCode_code]

theorem lclz (f : Lane2) : Statement (.lclz f) := by
  rintro _ ⟨⟩; change some (Instr.lclz ⟨f.vd, f.va, (Ty.ofCode f.ty.code), ⟨f.guard.pred, f.guard.sense⟩⟩) = _; rw [ty_ofCode_code]

theorem lclzS32 (f : Lane2S) : Statement (.lclzS32 f) := by
  rintro _ ⟨⟩; change some (Instr.lclzS32 ⟨f.vd, f.va, Ty.ofCode f.ty.code⟩) = _; rw [ty_ofCode_code]

theorem lpopc (f : Lane2) : Statement (.lpopc f) := by
  rintro _ ⟨⟩; change some (Instr.lpopc ⟨f.vd, f.va, (Ty.ofCode f.ty.code), ⟨f.guard.pred, f.guard.sense⟩⟩) = _; rw [ty_ofCode_code]

theorem lpopcS32 (f : Lane2S) : Statement (.lpopcS32 f) := by
  rintro _ ⟨⟩; change some (Instr.lpopcS32 ⟨f.vd, f.va, Ty.ofCode f.ty.code⟩) = _; rw [ty_ofCode_code]

theorem lbrev (f : Lane2) : Statement (.lbrev f) := by
  rintro _ ⟨⟩; change some (Instr.lbrev ⟨f.vd, f.va, (Ty.ofCode f.ty.code), ⟨f.guard.pred, f.guard.sense⟩⟩) = _; rw [ty_ofCode_code]

theorem lbrevS32 (f : Lane2S) : Statement (.lbrevS32 f) := by
  rintro _ ⟨⟩; change some (Instr.lbrevS32 ⟨f.vd, f.va, Ty.ofCode f.ty.code⟩) = _; rw [ty_ofCode_code]

theorem lbfx (f : Lane2) (pos len1 : BitVec 5) (sx : Bool) : Statement (.lbfx f pos len1 sx) := by
  have e0 : (0#5 ++ BitVec.ofBool sx ++ len1 ++ pos).extractLsb' 0 5 = pos := ((extract_low _ _ 0 5 (by decide)).trans (extract_all _))
  have e1 : (0#5 ++ BitVec.ofBool sx ++ len1 ++ pos).extractLsb' 5 5 = len1 := ((extract_high _ _ 5 5 (by decide)).trans ((extract_low _ _ 0 5 (by decide)).trans (extract_all _)))
  have e2 : (0#5 ++ BitVec.ofBool sx ++ len1 ++ pos).getLsbD 10 = sx := ((bit_high _ _ 10 (by decide)).trans ((bit_high _ _ 5 (by decide)).trans ((bit_low _ _ 0 (by decide)).trans (ofBool_bit _))))
  rintro _ ⟨⟩; change some (Instr.lbfx ⟨f.vd, f.va, (Ty.ofCode f.ty.code), ⟨f.guard.pred, f.guard.sense⟩⟩ ((0#5 ++ BitVec.ofBool sx ++ len1 ++ pos).extractLsb' 0 5) ((0#5 ++ BitVec.ofBool sx ++ len1 ++ pos).extractLsb' 5 5) ((0#5 ++ BitVec.ofBool sx ++ len1 ++ pos).getLsbD 10)) = _; rw [ty_ofCode_code, e0, e1, e2]

theorem lbfi (f : Lane3) (pos len1 : BitVec 5) : Statement (.lbfi f pos len1) := by
  have e0 : (0#6 ++ len1 ++ pos).extractLsb' 0 5 = pos := ((extract_low _ _ 0 5 (by decide)).trans (extract_all _))
  have e1 : (0#6 ++ len1 ++ pos).extractLsb' 5 5 = len1 := ((extract_high _ _ 5 5 (by decide)).trans ((extract_low _ _ 0 5 (by decide)).trans (extract_all _)))
  rintro _ ⟨⟩; change some (Instr.lbfi ⟨f.vd, f.va, f.vb, (Ty.ofCode f.ty.code), ⟨f.guard.pred, f.guard.sense⟩⟩ ((0#6 ++ len1 ++ pos).extractLsb' 0 5) ((0#6 ++ len1 ++ pos).extractLsb' 5 5)) = _; rw [ty_ofCode_code, e0, e1]

theorem lsel (f : Lane3) (k : BitVec 4) (neg : Bool) : Statement (.lsel f k neg) := by
  have e0 : (0#11 ++ BitVec.ofBool neg ++ k).extractLsb' 0 4 = k := ((extract_low _ _ 0 4 (by decide)).trans (extract_all _))
  have e1 : (0#11 ++ BitVec.ofBool neg ++ k).getLsbD 4 = neg := ((bit_high _ _ 4 (by decide)).trans ((bit_low _ _ 0 (by decide)).trans (ofBool_bit _)))
  rintro _ ⟨⟩; change some (Instr.lsel ⟨f.vd, f.va, f.vb, (Ty.ofCode f.ty.code), ⟨f.guard.pred, f.guard.sense⟩⟩ ((0#11 ++ BitVec.ofBool neg ++ k).extractLsb' 0 4) ((0#11 ++ BitVec.ofBool neg ++ k).getLsbD 4)) = _; rw [ty_ofCode_code, e0, e1]

theorem lselImm (f : Lane3I) (k : BitVec 4) (neg : Bool) : Statement (.lselImm f k neg) := by
  have e0 : (0#1 ++ BitVec.ofBool neg ++ k).extractLsb' 0 4 = k := ((extract_low _ _ 0 4 (by decide)).trans (extract_all _))
  have e1 : (0#1 ++ BitVec.ofBool neg ++ k).getLsbD 4 = neg := ((bit_high _ _ 4 (by decide)).trans ((bit_low _ _ 0 (by decide)).trans (ofBool_bit _)))
  rintro _ ⟨⟩; change some (Instr.lselImm ⟨f.vd, f.va, f.imm, (Ty.ofCode f.ty.code), ⟨f.guard.pred, f.guard.sense⟩⟩ ((0#1 ++ BitVec.ofBool neg ++ k).extractLsb' 0 4) ((0#1 ++ BitVec.ofBool neg ++ k).getLsbD 4)) = _; rw [ty_ofCode_code, e0, e1]

theorem lcmp (f : Lane3) (cond : BitVec 3) : Statement (.lcmp f cond) := by
  have e0 : (0#13 ++ cond).extractLsb' 0 3 = cond := ((extract_low _ _ 0 3 (by decide)).trans (extract_all _))
  rintro _ ⟨⟩; change some (Instr.lcmp ⟨f.vd, f.va, f.vb, (Ty.ofCode f.ty.code), ⟨f.guard.pred, f.guard.sense⟩⟩ ((0#13 ++ cond).extractLsb' 0 3)) = _; rw [ty_ofCode_code, e0]

theorem lcmpImm (f : Lane3I) (cond : BitVec 3) : Statement (.lcmpImm f cond) := by
  have e0 : (0#3 ++ cond).extractLsb' 0 3 = cond := ((extract_low _ _ 0 3 (by decide)).trans (extract_all _))
  rintro _ ⟨⟩; change some (Instr.lcmpImm ⟨f.vd, f.va, f.imm, (Ty.ofCode f.ty.code), ⟨f.guard.pred, f.guard.sense⟩⟩ ((0#3 ++ cond).extractLsb' 0 3)) = _; rw [ty_ofCode_code, e0]

theorem laddc (f : Lane3) (pci pco : BitVec 4) (used : Bool) : Statement (.laddc f pci pco used) := by
  have e0 : (0#7 ++ BitVec.ofBool used ++ pco ++ pci).extractLsb' 0 4 = pci := ((extract_low _ _ 0 4 (by decide)).trans (extract_all _))
  have e1 : (0#7 ++ BitVec.ofBool used ++ pco ++ pci).extractLsb' 4 4 = pco := ((extract_high _ _ 4 4 (by decide)).trans ((extract_low _ _ 0 4 (by decide)).trans (extract_all _)))
  have e2 : (0#7 ++ BitVec.ofBool used ++ pco ++ pci).getLsbD 8 = used := ((bit_high _ _ 8 (by decide)).trans ((bit_high _ _ 4 (by decide)).trans ((bit_low _ _ 0 (by decide)).trans (ofBool_bit _))))
  rintro _ ⟨⟩; change some (Instr.laddc ⟨f.vd, f.va, f.vb, (Ty.ofCode f.ty.code), ⟨f.guard.pred, f.guard.sense⟩⟩ ((0#7 ++ BitVec.ofBool used ++ pco ++ pci).extractLsb' 0 4) ((0#7 ++ BitVec.ofBool used ++ pco ++ pci).extractLsb' 4 4) ((0#7 ++ BitVec.ofBool used ++ pco ++ pci).getLsbD 8)) = _; rw [ty_ofCode_code, e0, e1, e2]

theorem lfadd (f : Lane3) : Statement (.lfadd f) := by
  rintro _ ⟨⟩; change some (Instr.lfadd ⟨f.vd, f.va, f.vb, (Ty.ofCode f.ty.code), ⟨f.guard.pred, f.guard.sense⟩⟩) = _; rw [ty_ofCode_code]

theorem lfaddImm (f : Lane3I) : Statement (.lfaddImm f) := by
  rintro _ ⟨⟩; change some (Instr.lfaddImm ⟨f.vd, f.va, f.imm, (Ty.ofCode f.ty.code), ⟨f.guard.pred, f.guard.sense⟩⟩) = _; rw [ty_ofCode_code]

theorem lfaddS32 (f : Lane3S) : Statement (.lfaddS32 f) := by
  rintro _ ⟨⟩; change some (Instr.lfaddS32 ⟨f.vd, f.va, f.vb, Ty.ofCode f.ty.code⟩) = _; rw [ty_ofCode_code]

theorem lfsub (f : Lane3) : Statement (.lfsub f) := by
  rintro _ ⟨⟩; change some (Instr.lfsub ⟨f.vd, f.va, f.vb, (Ty.ofCode f.ty.code), ⟨f.guard.pred, f.guard.sense⟩⟩) = _; rw [ty_ofCode_code]

theorem lfsubImm (f : Lane3I) : Statement (.lfsubImm f) := by
  rintro _ ⟨⟩; change some (Instr.lfsubImm ⟨f.vd, f.va, f.imm, (Ty.ofCode f.ty.code), ⟨f.guard.pred, f.guard.sense⟩⟩) = _; rw [ty_ofCode_code]

theorem lfsubS32 (f : Lane3S) : Statement (.lfsubS32 f) := by
  rintro _ ⟨⟩; change some (Instr.lfsubS32 ⟨f.vd, f.va, f.vb, Ty.ofCode f.ty.code⟩) = _; rw [ty_ofCode_code]

theorem lfmul (f : Lane3) : Statement (.lfmul f) := by
  rintro _ ⟨⟩; change some (Instr.lfmul ⟨f.vd, f.va, f.vb, (Ty.ofCode f.ty.code), ⟨f.guard.pred, f.guard.sense⟩⟩) = _; rw [ty_ofCode_code]

theorem lfmulImm (f : Lane3I) : Statement (.lfmulImm f) := by
  rintro _ ⟨⟩; change some (Instr.lfmulImm ⟨f.vd, f.va, f.imm, (Ty.ofCode f.ty.code), ⟨f.guard.pred, f.guard.sense⟩⟩) = _; rw [ty_ofCode_code]

theorem lfmulS32 (f : Lane3S) : Statement (.lfmulS32 f) := by
  rintro _ ⟨⟩; change some (Instr.lfmulS32 ⟨f.vd, f.va, f.vb, Ty.ofCode f.ty.code⟩) = _; rw [ty_ofCode_code]

theorem lfma (f : Lane4) : Statement (.lfma f) := by
  rintro _ ⟨⟩; change some (Instr.lfma ⟨f.vd, f.va, f.vb, f.vc, (Ty.ofCode f.ty.code), ⟨f.guard.pred, f.guard.sense⟩⟩) = _; rw [ty_ofCode_code]

theorem lfmaImm (f : Lane4I) : Statement (.lfmaImm f) := by
  rintro _ ⟨⟩; change some (Instr.lfmaImm ⟨f.vd, f.va, f.imm, f.vc, (Ty.ofCode f.ty.code), ⟨f.guard.pred, f.guard.sense⟩⟩) = _; rw [ty_ofCode_code]

theorem lfmin (f : Lane3) : Statement (.lfmin f) := by
  rintro _ ⟨⟩; change some (Instr.lfmin ⟨f.vd, f.va, f.vb, (Ty.ofCode f.ty.code), ⟨f.guard.pred, f.guard.sense⟩⟩) = _; rw [ty_ofCode_code]

theorem lfminImm (f : Lane3I) : Statement (.lfminImm f) := by
  rintro _ ⟨⟩; change some (Instr.lfminImm ⟨f.vd, f.va, f.imm, (Ty.ofCode f.ty.code), ⟨f.guard.pred, f.guard.sense⟩⟩) = _; rw [ty_ofCode_code]

theorem lfminS32 (f : Lane3S) : Statement (.lfminS32 f) := by
  rintro _ ⟨⟩; change some (Instr.lfminS32 ⟨f.vd, f.va, f.vb, Ty.ofCode f.ty.code⟩) = _; rw [ty_ofCode_code]

theorem lfmax (f : Lane3) : Statement (.lfmax f) := by
  rintro _ ⟨⟩; change some (Instr.lfmax ⟨f.vd, f.va, f.vb, (Ty.ofCode f.ty.code), ⟨f.guard.pred, f.guard.sense⟩⟩) = _; rw [ty_ofCode_code]

theorem lfmaxImm (f : Lane3I) : Statement (.lfmaxImm f) := by
  rintro _ ⟨⟩; change some (Instr.lfmaxImm ⟨f.vd, f.va, f.imm, (Ty.ofCode f.ty.code), ⟨f.guard.pred, f.guard.sense⟩⟩) = _; rw [ty_ofCode_code]

theorem lfmaxS32 (f : Lane3S) : Statement (.lfmaxS32 f) := by
  rintro _ ⟨⟩; change some (Instr.lfmaxS32 ⟨f.vd, f.va, f.vb, Ty.ofCode f.ty.code⟩) = _; rw [ty_ofCode_code]

theorem lfsgn (f : Lane3) (kind : BitVec 2) : Statement (.lfsgn f kind) := by
  have e0 : (0#14 ++ kind).extractLsb' 0 2 = kind := ((extract_low _ _ 0 2 (by decide)).trans (extract_all _))
  rintro _ ⟨⟩; change some (Instr.lfsgn ⟨f.vd, f.va, f.vb, (Ty.ofCode f.ty.code), ⟨f.guard.pred, f.guard.sense⟩⟩ ((0#14 ++ kind).extractLsb' 0 2)) = _; rw [ty_ofCode_code, e0]

theorem lfrcp (f : Lane2) : Statement (.lfrcp f) := by
  rintro _ ⟨⟩; change some (Instr.lfrcp ⟨f.vd, f.va, (Ty.ofCode f.ty.code), ⟨f.guard.pred, f.guard.sense⟩⟩) = _; rw [ty_ofCode_code]

theorem lfrcpS32 (f : Lane2S) : Statement (.lfrcpS32 f) := by
  rintro _ ⟨⟩; change some (Instr.lfrcpS32 ⟨f.vd, f.va, Ty.ofCode f.ty.code⟩) = _; rw [ty_ofCode_code]

theorem lfrsq (f : Lane2) : Statement (.lfrsq f) := by
  rintro _ ⟨⟩; change some (Instr.lfrsq ⟨f.vd, f.va, (Ty.ofCode f.ty.code), ⟨f.guard.pred, f.guard.sense⟩⟩) = _; rw [ty_ofCode_code]

theorem lfrsqS32 (f : Lane2S) : Statement (.lfrsqS32 f) := by
  rintro _ ⟨⟩; change some (Instr.lfrsqS32 ⟨f.vd, f.va, Ty.ofCode f.ty.code⟩) = _; rw [ty_ofCode_code]

theorem lfsqrt (f : Lane2) : Statement (.lfsqrt f) := by
  rintro _ ⟨⟩; change some (Instr.lfsqrt ⟨f.vd, f.va, (Ty.ofCode f.ty.code), ⟨f.guard.pred, f.guard.sense⟩⟩) = _; rw [ty_ofCode_code]

theorem lfsqrtS32 (f : Lane2S) : Statement (.lfsqrtS32 f) := by
  rintro _ ⟨⟩; change some (Instr.lfsqrtS32 ⟨f.vd, f.va, Ty.ofCode f.ty.code⟩) = _; rw [ty_ofCode_code]

theorem lfdiv (f : Lane3) : Statement (.lfdiv f) := by
  rintro _ ⟨⟩; change some (Instr.lfdiv ⟨f.vd, f.va, f.vb, (Ty.ofCode f.ty.code), ⟨f.guard.pred, f.guard.sense⟩⟩) = _; rw [ty_ofCode_code]

theorem lfdivImm (f : Lane3I) : Statement (.lfdivImm f) := by
  rintro _ ⟨⟩; change some (Instr.lfdivImm ⟨f.vd, f.va, f.imm, (Ty.ofCode f.ty.code), ⟨f.guard.pred, f.guard.sense⟩⟩) = _; rw [ty_ofCode_code]

theorem lfdivS32 (f : Lane3S) : Statement (.lfdivS32 f) := by
  rintro _ ⟨⟩; change some (Instr.lfdivS32 ⟨f.vd, f.va, f.vb, Ty.ofCode f.ty.code⟩) = _; rw [ty_ofCode_code]

theorem lfexp2 (f : Lane2) : Statement (.lfexp2 f) := by
  rintro _ ⟨⟩; change some (Instr.lfexp2 ⟨f.vd, f.va, (Ty.ofCode f.ty.code), ⟨f.guard.pred, f.guard.sense⟩⟩) = _; rw [ty_ofCode_code]

theorem lfexp2S32 (f : Lane2S) : Statement (.lfexp2S32 f) := by
  rintro _ ⟨⟩; change some (Instr.lfexp2S32 ⟨f.vd, f.va, Ty.ofCode f.ty.code⟩) = _; rw [ty_ofCode_code]

theorem lflog2 (f : Lane2) : Statement (.lflog2 f) := by
  rintro _ ⟨⟩; change some (Instr.lflog2 ⟨f.vd, f.va, (Ty.ofCode f.ty.code), ⟨f.guard.pred, f.guard.sense⟩⟩) = _; rw [ty_ofCode_code]

theorem lflog2S32 (f : Lane2S) : Statement (.lflog2S32 f) := by
  rintro _ ⟨⟩; change some (Instr.lflog2S32 ⟨f.vd, f.va, Ty.ofCode f.ty.code⟩) = _; rw [ty_ofCode_code]

theorem lfcmp (f : Lane3) (cond : BitVec 3) : Statement (.lfcmp f cond) := by
  have e0 : (0#13 ++ cond).extractLsb' 0 3 = cond := ((extract_low _ _ 0 3 (by decide)).trans (extract_all _))
  rintro _ ⟨⟩; change some (Instr.lfcmp ⟨f.vd, f.va, f.vb, (Ty.ofCode f.ty.code), ⟨f.guard.pred, f.guard.sense⟩⟩ ((0#13 ++ cond).extractLsb' 0 3)) = _; rw [ty_ofCode_code, e0]

theorem lfcmpImm (f : Lane3I) (cond : BitVec 3) : Statement (.lfcmpImm f cond) := by
  have e0 : (0#3 ++ cond).extractLsb' 0 3 = cond := ((extract_low _ _ 0 3 (by decide)).trans (extract_all _))
  rintro _ ⟨⟩; change some (Instr.lfcmpImm ⟨f.vd, f.va, f.imm, (Ty.ofCode f.ty.code), ⟨f.guard.pred, f.guard.sense⟩⟩ ((0#3 ++ cond).extractLsb' 0 3)) = _; rw [ty_ofCode_code, e0]

theorem lfclass (f : Lane2) (mask : BitVec 10) : Statement (.lfclass f mask) := by
  have e0 : (0#6 ++ mask).extractLsb' 0 10 = mask := ((extract_low _ _ 0 10 (by decide)).trans (extract_all _))
  rintro _ ⟨⟩; change some (Instr.lfclass ⟨f.vd, f.va, (Ty.ofCode f.ty.code), ⟨f.guard.pred, f.guard.sense⟩⟩ ((0#6 ++ mask).extractLsb' 0 10)) = _; rw [ty_ofCode_code, e0]

theorem lcvt (f : Lane2) (dst src : BitVec 4) (bs : Bool) (sel : BitVec 2) : Statement (.lcvt f dst src bs sel) := by
  have e0 : (0#5 ++ sel ++ BitVec.ofBool bs ++ src ++ dst).extractLsb' 0 4 = dst := ((extract_low _ _ 0 4 (by decide)).trans (extract_all _))
  have e1 : (0#5 ++ sel ++ BitVec.ofBool bs ++ src ++ dst).extractLsb' 4 4 = src := ((extract_high _ _ 4 4 (by decide)).trans ((extract_low _ _ 0 4 (by decide)).trans (extract_all _)))
  have e2 : (0#5 ++ sel ++ BitVec.ofBool bs ++ src ++ dst).getLsbD 8 = bs := ((bit_high _ _ 8 (by decide)).trans ((bit_high _ _ 4 (by decide)).trans ((bit_low _ _ 0 (by decide)).trans (ofBool_bit _))))
  have e3 : (0#5 ++ sel ++ BitVec.ofBool bs ++ src ++ dst).extractLsb' 9 2 = sel := ((extract_high _ _ 9 2 (by decide)).trans ((extract_high _ _ 5 2 (by decide)).trans ((extract_high _ _ 1 2 (by decide)).trans ((extract_low _ _ 0 2 (by decide)).trans (extract_all _)))))
  rintro _ ⟨⟩; change some (Instr.lcvt ⟨f.vd, f.va, (Ty.ofCode f.ty.code), ⟨f.guard.pred, f.guard.sense⟩⟩ ((0#5 ++ sel ++ BitVec.ofBool bs ++ src ++ dst).extractLsb' 0 4) ((0#5 ++ sel ++ BitVec.ofBool bs ++ src ++ dst).extractLsb' 4 4) ((0#5 ++ sel ++ BitVec.ofBool bs ++ src ++ dst).getLsbD 8) ((0#5 ++ sel ++ BitVec.ofBool bs ++ src ++ dst).extractLsb' 9 2)) = _; rw [ty_ofCode_code, e0, e1, e2, e3]

theorem lpack (f : Lane3) (dst : BitVec 4) : Statement (.lpack f dst) := by
  have e0 : (0#12 ++ dst).extractLsb' 0 4 = dst := ((extract_low _ _ 0 4 (by decide)).trans (extract_all _))
  rintro _ ⟨⟩; change some (Instr.lpack ⟨f.vd, f.va, f.vb, (Ty.ofCode f.ty.code), ⟨f.guard.pred, f.guard.sense⟩⟩ ((0#12 ++ dst).extractLsb' 0 4)) = _; rw [ty_ofCode_code, e0]

theorem lunpk (f : Lane2) (src : BitVec 4) (k : BitVec 3) : Statement (.lunpk f src k) := by
  have e0 : (0#9 ++ k ++ src).extractLsb' 0 4 = src := ((extract_low _ _ 0 4 (by decide)).trans (extract_all _))
  have e1 : (0#9 ++ k ++ src).extractLsb' 4 3 = k := ((extract_high _ _ 4 3 (by decide)).trans ((extract_low _ _ 0 3 (by decide)).trans (extract_all _)))
  rintro _ ⟨⟩; change some (Instr.lunpk ⟨f.vd, f.va, (Ty.ofCode f.ty.code), ⟨f.guard.pred, f.guard.sense⟩⟩ ((0#9 ++ k ++ src).extractLsb' 0 4) ((0#9 ++ k ++ src).extractLsb' 4 3)) = _; rw [ty_ofCode_code, e0, e1]

theorem lmov (f : Lane2) : Statement (.lmov f) := by
  rintro _ ⟨⟩; change some (Instr.lmov ⟨f.vd, f.va, (Ty.ofCode f.ty.code), ⟨f.guard.pred, f.guard.sense⟩⟩) = _; rw [ty_ofCode_code]

theorem lmovi (vd : BitVec 6) (imm : BitVec 16) (ty : Ty) (guard : Guard) : Statement (.lmovi vd imm ty guard) := by
  rintro _ ⟨⟩; change some (Instr.lmovi vd imm (Ty.ofCode ty.code) ⟨guard.pred, guard.sense⟩) = _; rw [ty_ofCode_code]

theorem lbcast (f : Lane2) : Statement (.lbcast f) := by
  rintro _ ⟨⟩; change some (Instr.lbcast ⟨f.vd, f.va, (Ty.ofCode f.ty.code), ⟨f.guard.pred, f.guard.sense⟩⟩) = _; rw [ty_ofCode_code]

theorem lextr (xd va : BitVec 6) (ty : Ty) (n : BitVec 5) : Statement (.lextr xd va ty n) := by
  have e0 : (0#11 ++ n).extractLsb' 0 5 = n := ((extract_low _ _ 0 5 (by decide)).trans (extract_all _))
  rintro _ ⟨⟩; change some (Instr.lextr xd va (Ty.ofCode ty.code) ((0#11 ++ n).extractLsb' 0 5)) = _; rw [ty_ofCode_code, e0]

theorem lins (vd xs : BitVec 6) (ty : Ty) (n : BitVec 5) : Statement (.lins vd xs ty n) := by
  have e0 : (0#11 ++ n).extractLsb' 0 5 = n := ((extract_low _ _ 0 5 (by decide)).trans (extract_all _))
  rintro _ ⟨⟩; change some (Instr.lins vd xs (Ty.ofCode ty.code) ((0#11 ++ n).extractLsb' 0 5)) = _; rw [ty_ofCode_code, e0]

theorem lshfl (f : Lane3) (kind : BitVec 3) (c : BitVec 5) : Statement (.lshfl f kind c) := by
  have e0 : (0#8 ++ c ++ kind).extractLsb' 0 3 = kind := ((extract_low _ _ 0 3 (by decide)).trans (extract_all _))
  have e1 : (0#8 ++ c ++ kind).extractLsb' 3 5 = c := ((extract_high _ _ 3 5 (by decide)).trans ((extract_low _ _ 0 5 (by decide)).trans (extract_all _)))
  rintro _ ⟨⟩; change some (Instr.lshfl ⟨f.vd, f.va, f.vb, (Ty.ofCode f.ty.code), ⟨f.guard.pred, f.guard.sense⟩⟩ ((0#8 ++ c ++ kind).extractLsb' 0 3) ((0#8 ++ c ++ kind).extractLsb' 3 5)) = _; rw [ty_ofCode_code, e0, e1]

theorem lred (f : Lane2) (op : BitVec 3) : Statement (.lred f op) := by
  have e0 : (0#13 ++ op).extractLsb' 0 3 = op := ((extract_low _ _ 0 3 (by decide)).trans (extract_all _))
  rintro _ ⟨⟩; change some (Instr.lred ⟨f.vd, f.va, (Ty.ofCode f.ty.code), ⟨f.guard.pred, f.guard.sense⟩⟩ ((0#13 ++ op).extractLsb' 0 3)) = _; rw [ty_ofCode_code, e0]

theorem lscan (f : Lane2) (op : BitVec 3) (excl : Bool) : Statement (.lscan f op excl) := by
  have e0 : (0#12 ++ BitVec.ofBool excl ++ op).extractLsb' 0 3 = op := ((extract_low _ _ 0 3 (by decide)).trans (extract_all _))
  have e1 : (0#12 ++ BitVec.ofBool excl ++ op).getLsbD 3 = excl := ((bit_high _ _ 3 (by decide)).trans ((bit_low _ _ 0 (by decide)).trans (ofBool_bit _)))
  rintro _ ⟨⟩; change some (Instr.lscan ⟨f.vd, f.va, (Ty.ofCode f.ty.code), ⟨f.guard.pred, f.guard.sense⟩⟩ ((0#12 ++ BitVec.ofBool excl ++ op).extractLsb' 0 3) ((0#12 ++ BitVec.ofBool excl ++ op).getLsbD 3)) = _; rw [ty_ofCode_code, e0, e1]

theorem lballot (xd pa : BitVec 6) : Statement (.lballot xd pa) := by
  rintro _ ⟨⟩; rfl

theorem lgets (vd : BitVec 6) (guard : Guard) (src : BitVec 3) : Statement (.lgets vd guard src) := by
  have e0 : (0#13 ++ src).extractLsb' 0 3 = src := ((extract_low _ _ 0 3 (by decide)).trans (extract_all _))
  rintro _ ⟨⟩; change some (Instr.lgets vd ⟨guard.pred, guard.sense⟩ ((0#13 ++ src).extractLsb' 0 3)) = _; rw [e0]

theorem ltrns (vd va : BitVec 6) : Statement (.ltrns vd va) := by
  rintro _ ⟨⟩; rfl

theorem plog (pd pa pb : BitVec 6) (guard : Guard) (tt : BitVec 4) : Statement (.plog pd pa pb guard tt) := by
  have e0 : (0#12 ++ tt).extractLsb' 0 4 = tt := ((extract_low _ _ 0 4 (by decide)).trans (extract_all _))
  rintro _ ⟨⟩; change some (Instr.plog pd pa pb ⟨guard.pred, guard.sense⟩ ((0#12 ++ tt).extractLsb' 0 4)) = _; rw [e0]

theorem pmovPred (pd pa : BitVec 6) (guard : Guard) : Statement (.pmovPred pd pa guard) := by
  rintro _ ⟨⟩; rfl

theorem pmovFromX (pd xs : BitVec 6) (guard : Guard) : Statement (.pmovFromX pd xs guard) := by
  rintro _ ⟨⟩; rfl

theorem pmovToX (xd pa : BitVec 6) : Statement (.pmovToX xd pa) := by
  rintro _ ⟨⟩; rfl

theorem emset (xs : BitVec 6) : Statement (.emset xs) := by
  rintro _ ⟨⟩; rfl

theorem emget (xd : BitVec 6) : Statement (.emget xd) := by
  rintro _ ⟨⟩; rfl

theorem emand (xd pa : BitVec 6) (neg : Bool) : Statement (.emand xd pa neg) := by
  have e0 : (0#15 ++ BitVec.ofBool neg).getLsbD 0 = neg := ((bit_low _ _ 0 (by decide)).trans (ofBool_bit _))
  rintro _ ⟨⟩; change some (Instr.emand xd pa ((0#15 ++ BitVec.ofBool neg).getLsbD 0)) = _; rw [e0]

theorem lld (m : LaneMem) (policy : BitVec 2) : Statement (.lld m policy) := by
  have e0 : (BitVec.ofBool m.sx ++ m.size ++ m.space).extractLsb' 0 3 = m.space := ((extract_low _ _ 0 3 (by decide)).trans (extract_all _))
  have e1 : (BitVec.ofBool m.sx ++ m.size ++ m.space).extractLsb' 3 2 = m.size := ((extract_high _ _ 3 2 (by decide)).trans ((extract_low _ _ 0 2 (by decide)).trans (extract_all _)))
  have e2 : (BitVec.ofBool m.sx ++ m.size ++ m.space).getLsbD 5 = m.sx := ((bit_high _ _ 5 (by decide)).trans ((bit_high _ _ 2 (by decide)).trans (ofBool_bit _)))
  have e3 : (0#14 ++ policy).extractLsb' 0 2 = policy := ((extract_low _ _ 0 2 (by decide)).trans (extract_all _))
  rintro _ ⟨⟩; change some (Instr.lld ⟨m.vd, m.xb, m.vo, (BitVec.ofBool m.sx ++ m.size ++ m.space).extractLsb' 0 3, (BitVec.ofBool m.sx ++ m.size ++ m.space).extractLsb' 3 2, (BitVec.ofBool m.sx ++ m.size ++ m.space).getLsbD 5, ⟨m.guard.pred, m.guard.sense⟩⟩ ((0#14 ++ policy).extractLsb' 0 2)) = _; rw [e0, e1, e2, e3]

theorem lldImm (m : LaneMem) (imm : BitVec 16) : Statement (.lldImm m imm) := by
  have e0 : (BitVec.ofBool m.sx ++ m.size ++ m.space).extractLsb' 0 3 = m.space := ((extract_low _ _ 0 3 (by decide)).trans (extract_all _))
  have e1 : (BitVec.ofBool m.sx ++ m.size ++ m.space).extractLsb' 3 2 = m.size := ((extract_high _ _ 3 2 (by decide)).trans ((extract_low _ _ 0 2 (by decide)).trans (extract_all _)))
  have e2 : (BitVec.ofBool m.sx ++ m.size ++ m.space).getLsbD 5 = m.sx := ((bit_high _ _ 5 (by decide)).trans ((bit_high _ _ 2 (by decide)).trans (ofBool_bit _)))
  rintro _ ⟨⟩; change some (Instr.lldImm ⟨m.vd, m.xb, m.vo, (BitVec.ofBool m.sx ++ m.size ++ m.space).extractLsb' 0 3, (BitVec.ofBool m.sx ++ m.size ++ m.space).extractLsb' 3 2, (BitVec.ofBool m.sx ++ m.size ++ m.space).getLsbD 5, ⟨m.guard.pred, m.guard.sense⟩⟩ imm) = _; rw [e0, e1, e2]

theorem lst (m : LaneMem) (policy : BitVec 2) : Statement (.lst m policy) := by
  have e0 : (BitVec.ofBool m.sx ++ m.size ++ m.space).extractLsb' 0 3 = m.space := ((extract_low _ _ 0 3 (by decide)).trans (extract_all _))
  have e1 : (BitVec.ofBool m.sx ++ m.size ++ m.space).extractLsb' 3 2 = m.size := ((extract_high _ _ 3 2 (by decide)).trans ((extract_low _ _ 0 2 (by decide)).trans (extract_all _)))
  have e2 : (BitVec.ofBool m.sx ++ m.size ++ m.space).getLsbD 5 = m.sx := ((bit_high _ _ 5 (by decide)).trans ((bit_high _ _ 2 (by decide)).trans (ofBool_bit _)))
  have e3 : (0#14 ++ policy).extractLsb' 0 2 = policy := ((extract_low _ _ 0 2 (by decide)).trans (extract_all _))
  rintro _ ⟨⟩; change some (Instr.lst ⟨m.vd, m.xb, m.vo, (BitVec.ofBool m.sx ++ m.size ++ m.space).extractLsb' 0 3, (BitVec.ofBool m.sx ++ m.size ++ m.space).extractLsb' 3 2, (BitVec.ofBool m.sx ++ m.size ++ m.space).getLsbD 5, ⟨m.guard.pred, m.guard.sense⟩⟩ ((0#14 ++ policy).extractLsb' 0 2)) = _; rw [e0, e1, e2, e3]

theorem lstImm (m : LaneMem) (imm : BitVec 16) : Statement (.lstImm m imm) := by
  have e0 : (BitVec.ofBool m.sx ++ m.size ++ m.space).extractLsb' 0 3 = m.space := ((extract_low _ _ 0 3 (by decide)).trans (extract_all _))
  have e1 : (BitVec.ofBool m.sx ++ m.size ++ m.space).extractLsb' 3 2 = m.size := ((extract_high _ _ 3 2 (by decide)).trans ((extract_low _ _ 0 2 (by decide)).trans (extract_all _)))
  have e2 : (BitVec.ofBool m.sx ++ m.size ++ m.space).getLsbD 5 = m.sx := ((bit_high _ _ 5 (by decide)).trans ((bit_high _ _ 2 (by decide)).trans (ofBool_bit _)))
  rintro _ ⟨⟩; change some (Instr.lstImm ⟨m.vd, m.xb, m.vo, (BitVec.ofBool m.sx ++ m.size ++ m.space).extractLsb' 0 3, (BitVec.ofBool m.sx ++ m.size ++ m.space).extractLsb' 3 2, (BitVec.ofBool m.sx ++ m.size ++ m.space).getLsbD 5, ⟨m.guard.pred, m.guard.sense⟩⟩ imm) = _; rw [e0, e1, e2]

theorem lldt (m : LaneMem) (policy : BitVec 2) : Statement (.lldt m policy) := by
  have e0 : (BitVec.ofBool m.sx ++ m.size ++ m.space).extractLsb' 0 3 = m.space := ((extract_low _ _ 0 3 (by decide)).trans (extract_all _))
  have e1 : (BitVec.ofBool m.sx ++ m.size ++ m.space).extractLsb' 3 2 = m.size := ((extract_high _ _ 3 2 (by decide)).trans ((extract_low _ _ 0 2 (by decide)).trans (extract_all _)))
  have e2 : (BitVec.ofBool m.sx ++ m.size ++ m.space).getLsbD 5 = m.sx := ((bit_high _ _ 5 (by decide)).trans ((bit_high _ _ 2 (by decide)).trans (ofBool_bit _)))
  have e3 : (0#14 ++ policy).extractLsb' 0 2 = policy := ((extract_low _ _ 0 2 (by decide)).trans (extract_all _))
  rintro _ ⟨⟩; change some (Instr.lldt ⟨m.vd, m.xb, m.vo, (BitVec.ofBool m.sx ++ m.size ++ m.space).extractLsb' 0 3, (BitVec.ofBool m.sx ++ m.size ++ m.space).extractLsb' 3 2, (BitVec.ofBool m.sx ++ m.size ++ m.space).getLsbD 5, ⟨m.guard.pred, m.guard.sense⟩⟩ ((0#14 ++ policy).extractLsb' 0 2)) = _; rw [e0, e1, e2, e3]

theorem lldtImm (m : LaneMem) (imm : BitVec 16) : Statement (.lldtImm m imm) := by
  have e0 : (BitVec.ofBool m.sx ++ m.size ++ m.space).extractLsb' 0 3 = m.space := ((extract_low _ _ 0 3 (by decide)).trans (extract_all _))
  have e1 : (BitVec.ofBool m.sx ++ m.size ++ m.space).extractLsb' 3 2 = m.size := ((extract_high _ _ 3 2 (by decide)).trans ((extract_low _ _ 0 2 (by decide)).trans (extract_all _)))
  have e2 : (BitVec.ofBool m.sx ++ m.size ++ m.space).getLsbD 5 = m.sx := ((bit_high _ _ 5 (by decide)).trans ((bit_high _ _ 2 (by decide)).trans (ofBool_bit _)))
  rintro _ ⟨⟩; change some (Instr.lldtImm ⟨m.vd, m.xb, m.vo, (BitVec.ofBool m.sx ++ m.size ++ m.space).extractLsb' 0 3, (BitVec.ofBool m.sx ++ m.size ++ m.space).extractLsb' 3 2, (BitVec.ofBool m.sx ++ m.size ++ m.space).getLsbD 5, ⟨m.guard.pred, m.guard.sense⟩⟩ imm) = _; rw [e0, e1, e2]

theorem lamo (m : LaneMem) (op : BitVec 4) (order scope : BitVec 3) (vs : BitVec 6) : Statement (.lamo m op order scope vs) := by
  have e0 : (BitVec.ofBool m.sx ++ m.size ++ m.space).extractLsb' 0 3 = m.space := ((extract_low _ _ 0 3 (by decide)).trans (extract_all _))
  have e1 : (BitVec.ofBool m.sx ++ m.size ++ m.space).extractLsb' 3 2 = m.size := ((extract_high _ _ 3 2 (by decide)).trans ((extract_low _ _ 0 2 (by decide)).trans (extract_all _)))
  have e2 : (BitVec.ofBool m.sx ++ m.size ++ m.space).getLsbD 5 = m.sx := ((bit_high _ _ 5 (by decide)).trans ((bit_high _ _ 2 (by decide)).trans (ofBool_bit _)))
  have e3 : (vs ++ scope ++ order ++ op).extractLsb' 0 4 = op := ((extract_low _ _ 0 4 (by decide)).trans (extract_all _))
  have e4 : (vs ++ scope ++ order ++ op).extractLsb' 4 3 = order := ((extract_high _ _ 4 3 (by decide)).trans ((extract_low _ _ 0 3 (by decide)).trans (extract_all _)))
  have e5 : (vs ++ scope ++ order ++ op).extractLsb' 7 3 = scope := ((extract_high _ _ 7 3 (by decide)).trans ((extract_high _ _ 3 3 (by decide)).trans ((extract_low _ _ 0 3 (by decide)).trans (extract_all _))))
  have e6 : (vs ++ scope ++ order ++ op).extractLsb' 10 6 = vs := ((extract_high _ _ 10 6 (by decide)).trans ((extract_high _ _ 6 6 (by decide)).trans ((extract_high _ _ 3 6 (by decide)).trans (extract_all _))))
  rintro _ ⟨⟩; change some (Instr.lamo ⟨m.vd, m.xb, m.vo, (BitVec.ofBool m.sx ++ m.size ++ m.space).extractLsb' 0 3, (BitVec.ofBool m.sx ++ m.size ++ m.space).extractLsb' 3 2, (BitVec.ofBool m.sx ++ m.size ++ m.space).getLsbD 5, ⟨m.guard.pred, m.guard.sense⟩⟩ ((vs ++ scope ++ order ++ op).extractLsb' 0 4) ((vs ++ scope ++ order ++ op).extractLsb' 4 3) ((vs ++ scope ++ order ++ op).extractLsb' 7 3) ((vs ++ scope ++ order ++ op).extractLsb' 10 6)) = _; rw [e0, e1, e2, e3, e4, e5, e6]

theorem lpref (m : LaneMem) (policy : BitVec 2) : Statement (.lpref m policy) := by
  have e0 : (BitVec.ofBool m.sx ++ m.size ++ m.space).extractLsb' 0 3 = m.space := ((extract_low _ _ 0 3 (by decide)).trans (extract_all _))
  have e1 : (BitVec.ofBool m.sx ++ m.size ++ m.space).extractLsb' 3 2 = m.size := ((extract_high _ _ 3 2 (by decide)).trans ((extract_low _ _ 0 2 (by decide)).trans (extract_all _)))
  have e2 : (BitVec.ofBool m.sx ++ m.size ++ m.space).getLsbD 5 = m.sx := ((bit_high _ _ 5 (by decide)).trans ((bit_high _ _ 2 (by decide)).trans (ofBool_bit _)))
  have e3 : (0#14 ++ policy).extractLsb' 0 2 = policy := ((extract_low _ _ 0 2 (by decide)).trans (extract_all _))
  rintro _ ⟨⟩; change some (Instr.lpref ⟨m.vd, m.xb, m.vo, (BitVec.ofBool m.sx ++ m.size ++ m.space).extractLsb' 0 3, (BitVec.ofBool m.sx ++ m.size ++ m.space).extractLsb' 3 2, (BitVec.ofBool m.sx ++ m.size ++ m.space).getLsbD 5, ⟨m.guard.pred, m.guard.sense⟩⟩ ((0#14 ++ policy).extractLsb' 0 2)) = _; rw [e0, e1, e2, e3]

theorem lprefImm (m : LaneMem) (imm : BitVec 16) : Statement (.lprefImm m imm) := by
  have e0 : (BitVec.ofBool m.sx ++ m.size ++ m.space).extractLsb' 0 3 = m.space := ((extract_low _ _ 0 3 (by decide)).trans (extract_all _))
  have e1 : (BitVec.ofBool m.sx ++ m.size ++ m.space).extractLsb' 3 2 = m.size := ((extract_high _ _ 3 2 (by decide)).trans ((extract_low _ _ 0 2 (by decide)).trans (extract_all _)))
  have e2 : (BitVec.ofBool m.sx ++ m.size ++ m.space).getLsbD 5 = m.sx := ((bit_high _ _ 5 (by decide)).trans ((bit_high _ _ 2 (by decide)).trans (ofBool_bit _)))
  rintro _ ⟨⟩; change some (Instr.lprefImm ⟨m.vd, m.xb, m.vo, (BitVec.ofBool m.sx ++ m.size ++ m.space).extractLsb' 0 3, (BitVec.ofBool m.sx ++ m.size ++ m.space).extractLsb' 3 2, (BitVec.ofBool m.sx ++ m.size ++ m.space).getLsbD 5, ⟨m.guard.pred, m.guard.sense⟩⟩ imm) = _; rw [e0, e1, e2]

theorem mma (j : MatJob) (src : Bool) (q : BitVec 2) (fmt : BitVec 4) (had : BitVec 2) (norm : Bool) : Statement (.mma j src q fmt had norm) := by
  have e0 : (0#2 ++ j.acc).extractLsb' 0 4 = j.acc := ((extract_low _ _ 0 4 (by decide)).trans (extract_all _))
  have e1 : (BitVec.ofBool j.notify ++ j.scope ++ 0#2 ++ BitVec.ofBool norm ++ had ++ fmt ++ q ++ BitVec.ofBool src).extractLsb' 12 3 = j.scope := ((extract_high _ _ 12 3 (by decide)).trans ((extract_high _ _ 11 3 (by decide)).trans ((extract_high _ _ 9 3 (by decide)).trans ((extract_high _ _ 5 3 (by decide)).trans ((extract_high _ _ 3 3 (by decide)).trans ((extract_high _ _ 2 3 (by decide)).trans ((extract_low _ _ 0 3 (by decide)).trans (extract_all _))))))))
  have e2 : (BitVec.ofBool j.notify ++ j.scope ++ 0#2 ++ BitVec.ofBool norm ++ had ++ fmt ++ q ++ BitVec.ofBool src).getLsbD 15 = j.notify := ((bit_high _ _ 15 (by decide)).trans ((bit_high _ _ 14 (by decide)).trans ((bit_high _ _ 12 (by decide)).trans ((bit_high _ _ 8 (by decide)).trans ((bit_high _ _ 6 (by decide)).trans ((bit_high _ _ 5 (by decide)).trans ((bit_high _ _ 3 (by decide)).trans (ofBool_bit _))))))))
  have e3 : (BitVec.ofBool j.notify ++ j.scope ++ 0#2 ++ BitVec.ofBool norm ++ had ++ fmt ++ q ++ BitVec.ofBool src).getLsbD 0 = src := ((bit_low _ _ 0 (by decide)).trans (ofBool_bit _))
  have e4 : (BitVec.ofBool j.notify ++ j.scope ++ 0#2 ++ BitVec.ofBool norm ++ had ++ fmt ++ q ++ BitVec.ofBool src).extractLsb' 1 2 = q := ((extract_high _ _ 1 2 (by decide)).trans ((extract_low _ _ 0 2 (by decide)).trans (extract_all _)))
  have e5 : (BitVec.ofBool j.notify ++ j.scope ++ 0#2 ++ BitVec.ofBool norm ++ had ++ fmt ++ q ++ BitVec.ofBool src).extractLsb' 3 4 = fmt := ((extract_high _ _ 3 4 (by decide)).trans ((extract_high _ _ 2 4 (by decide)).trans ((extract_low _ _ 0 4 (by decide)).trans (extract_all _))))
  have e6 : (BitVec.ofBool j.notify ++ j.scope ++ 0#2 ++ BitVec.ofBool norm ++ had ++ fmt ++ q ++ BitVec.ofBool src).extractLsb' 7 2 = had := ((extract_high _ _ 7 2 (by decide)).trans ((extract_high _ _ 6 2 (by decide)).trans ((extract_high _ _ 4 2 (by decide)).trans ((extract_low _ _ 0 2 (by decide)).trans (extract_all _)))))
  have e7 : (BitVec.ofBool j.notify ++ j.scope ++ 0#2 ++ BitVec.ofBool norm ++ had ++ fmt ++ q ++ BitVec.ofBool src).getLsbD 9 = norm := ((bit_high _ _ 9 (by decide)).trans ((bit_high _ _ 8 (by decide)).trans ((bit_high _ _ 6 (by decide)).trans ((bit_high _ _ 2 (by decide)).trans ((bit_low _ _ 0 (by decide)).trans (ofBool_bit _))))))
  rintro _ ⟨⟩; change some (Instr.mma ⟨j.xd, j.a, j.b, (0#2 ++ j.acc).extractLsb' 0 4, (BitVec.ofBool j.notify ++ j.scope ++ 0#2 ++ BitVec.ofBool norm ++ had ++ fmt ++ q ++ BitVec.ofBool src).extractLsb' 12 3, (BitVec.ofBool j.notify ++ j.scope ++ 0#2 ++ BitVec.ofBool norm ++ had ++ fmt ++ q ++ BitVec.ofBool src).getLsbD 15⟩ ((BitVec.ofBool j.notify ++ j.scope ++ 0#2 ++ BitVec.ofBool norm ++ had ++ fmt ++ q ++ BitVec.ofBool src).getLsbD 0) ((BitVec.ofBool j.notify ++ j.scope ++ 0#2 ++ BitVec.ofBool norm ++ had ++ fmt ++ q ++ BitVec.ofBool src).extractLsb' 1 2) ((BitVec.ofBool j.notify ++ j.scope ++ 0#2 ++ BitVec.ofBool norm ++ had ++ fmt ++ q ++ BitVec.ofBool src).extractLsb' 3 4) ((BitVec.ofBool j.notify ++ j.scope ++ 0#2 ++ BitVec.ofBool norm ++ had ++ fmt ++ q ++ BitVec.ofBool src).extractLsb' 7 2) ((BitVec.ofBool j.notify ++ j.scope ++ 0#2 ++ BitVec.ofBool norm ++ had ++ fmt ++ q ++ BitVec.ofBool src).getLsbD 9)) = _; rw [e0, e1, e2, e3, e4, e5, e6, e7]

theorem mmas (j : MatJob) (src : Bool) (q fsa fsb had : BitVec 2) (norm : Bool) : Statement (.mmas j src q fsa fsb had norm) := by
  have e0 : (0#2 ++ j.acc).extractLsb' 0 4 = j.acc := ((extract_low _ _ 0 4 (by decide)).trans (extract_all _))
  have e1 : (BitVec.ofBool j.notify ++ j.scope ++ 0#2 ++ BitVec.ofBool norm ++ had ++ fsb ++ fsa ++ q ++ BitVec.ofBool src).extractLsb' 12 3 = j.scope := ((extract_high _ _ 12 3 (by decide)).trans ((extract_high _ _ 11 3 (by decide)).trans ((extract_high _ _ 9 3 (by decide)).trans ((extract_high _ _ 7 3 (by decide)).trans ((extract_high _ _ 5 3 (by decide)).trans ((extract_high _ _ 3 3 (by decide)).trans ((extract_high _ _ 2 3 (by decide)).trans ((extract_low _ _ 0 3 (by decide)).trans (extract_all _)))))))))
  have e2 : (BitVec.ofBool j.notify ++ j.scope ++ 0#2 ++ BitVec.ofBool norm ++ had ++ fsb ++ fsa ++ q ++ BitVec.ofBool src).getLsbD 15 = j.notify := ((bit_high _ _ 15 (by decide)).trans ((bit_high _ _ 14 (by decide)).trans ((bit_high _ _ 12 (by decide)).trans ((bit_high _ _ 10 (by decide)).trans ((bit_high _ _ 8 (by decide)).trans ((bit_high _ _ 6 (by decide)).trans ((bit_high _ _ 5 (by decide)).trans ((bit_high _ _ 3 (by decide)).trans (ofBool_bit _)))))))))
  have e3 : (BitVec.ofBool j.notify ++ j.scope ++ 0#2 ++ BitVec.ofBool norm ++ had ++ fsb ++ fsa ++ q ++ BitVec.ofBool src).getLsbD 0 = src := ((bit_low _ _ 0 (by decide)).trans (ofBool_bit _))
  have e4 : (BitVec.ofBool j.notify ++ j.scope ++ 0#2 ++ BitVec.ofBool norm ++ had ++ fsb ++ fsa ++ q ++ BitVec.ofBool src).extractLsb' 1 2 = q := ((extract_high _ _ 1 2 (by decide)).trans ((extract_low _ _ 0 2 (by decide)).trans (extract_all _)))
  have e5 : (BitVec.ofBool j.notify ++ j.scope ++ 0#2 ++ BitVec.ofBool norm ++ had ++ fsb ++ fsa ++ q ++ BitVec.ofBool src).extractLsb' 3 2 = fsa := ((extract_high _ _ 3 2 (by decide)).trans ((extract_high _ _ 2 2 (by decide)).trans ((extract_low _ _ 0 2 (by decide)).trans (extract_all _))))
  have e6 : (BitVec.ofBool j.notify ++ j.scope ++ 0#2 ++ BitVec.ofBool norm ++ had ++ fsb ++ fsa ++ q ++ BitVec.ofBool src).extractLsb' 5 2 = fsb := ((extract_high _ _ 5 2 (by decide)).trans ((extract_high _ _ 4 2 (by decide)).trans ((extract_high _ _ 2 2 (by decide)).trans ((extract_low _ _ 0 2 (by decide)).trans (extract_all _)))))
  have e7 : (BitVec.ofBool j.notify ++ j.scope ++ 0#2 ++ BitVec.ofBool norm ++ had ++ fsb ++ fsa ++ q ++ BitVec.ofBool src).extractLsb' 7 2 = had := ((extract_high _ _ 7 2 (by decide)).trans ((extract_high _ _ 6 2 (by decide)).trans ((extract_high _ _ 4 2 (by decide)).trans ((extract_high _ _ 2 2 (by decide)).trans ((extract_low _ _ 0 2 (by decide)).trans (extract_all _))))))
  have e8 : (BitVec.ofBool j.notify ++ j.scope ++ 0#2 ++ BitVec.ofBool norm ++ had ++ fsb ++ fsa ++ q ++ BitVec.ofBool src).getLsbD 9 = norm := ((bit_high _ _ 9 (by decide)).trans ((bit_high _ _ 8 (by decide)).trans ((bit_high _ _ 6 (by decide)).trans ((bit_high _ _ 4 (by decide)).trans ((bit_high _ _ 2 (by decide)).trans ((bit_low _ _ 0 (by decide)).trans (ofBool_bit _)))))))
  rintro _ ⟨⟩; change some (Instr.mmas ⟨j.xd, j.a, j.b, (0#2 ++ j.acc).extractLsb' 0 4, (BitVec.ofBool j.notify ++ j.scope ++ 0#2 ++ BitVec.ofBool norm ++ had ++ fsb ++ fsa ++ q ++ BitVec.ofBool src).extractLsb' 12 3, (BitVec.ofBool j.notify ++ j.scope ++ 0#2 ++ BitVec.ofBool norm ++ had ++ fsb ++ fsa ++ q ++ BitVec.ofBool src).getLsbD 15⟩ ((BitVec.ofBool j.notify ++ j.scope ++ 0#2 ++ BitVec.ofBool norm ++ had ++ fsb ++ fsa ++ q ++ BitVec.ofBool src).getLsbD 0) ((BitVec.ofBool j.notify ++ j.scope ++ 0#2 ++ BitVec.ofBool norm ++ had ++ fsb ++ fsa ++ q ++ BitVec.ofBool src).extractLsb' 1 2) ((BitVec.ofBool j.notify ++ j.scope ++ 0#2 ++ BitVec.ofBool norm ++ had ++ fsb ++ fsa ++ q ++ BitVec.ofBool src).extractLsb' 3 2) ((BitVec.ofBool j.notify ++ j.scope ++ 0#2 ++ BitVec.ofBool norm ++ had ++ fsb ++ fsa ++ q ++ BitVec.ofBool src).extractLsb' 5 2) ((BitVec.ofBool j.notify ++ j.scope ++ 0#2 ++ BitVec.ofBool norm ++ had ++ fsb ++ fsa ++ q ++ BitVec.ofBool src).extractLsb' 7 2) ((BitVec.ofBool j.notify ++ j.scope ++ 0#2 ++ BitVec.ofBool norm ++ had ++ fsb ++ fsa ++ q ++ BitVec.ofBool src).getLsbD 9)) = _; rw [e0, e1, e2, e3, e4, e5, e6, e7, e8]

theorem mhad (j : MatJob) (size : BitVec 2) (norm : Bool) : Statement (.mhad j size norm) := by
  have e0 : (0#2 ++ j.acc).extractLsb' 0 4 = j.acc := ((extract_low _ _ 0 4 (by decide)).trans (extract_all _))
  have e1 : (BitVec.ofBool j.notify ++ j.scope ++ 0#9 ++ BitVec.ofBool norm ++ size).extractLsb' 12 3 = j.scope := ((extract_high _ _ 12 3 (by decide)).trans ((extract_high _ _ 10 3 (by decide)).trans ((extract_high _ _ 9 3 (by decide)).trans ((extract_low _ _ 0 3 (by decide)).trans (extract_all _)))))
  have e2 : (BitVec.ofBool j.notify ++ j.scope ++ 0#9 ++ BitVec.ofBool norm ++ size).getLsbD 15 = j.notify := ((bit_high _ _ 15 (by decide)).trans ((bit_high _ _ 13 (by decide)).trans ((bit_high _ _ 12 (by decide)).trans ((bit_high _ _ 3 (by decide)).trans (ofBool_bit _)))))
  have e3 : (BitVec.ofBool j.notify ++ j.scope ++ 0#9 ++ BitVec.ofBool norm ++ size).extractLsb' 0 2 = size := ((extract_low _ _ 0 2 (by decide)).trans (extract_all _))
  have e4 : (BitVec.ofBool j.notify ++ j.scope ++ 0#9 ++ BitVec.ofBool norm ++ size).getLsbD 2 = norm := ((bit_high _ _ 2 (by decide)).trans ((bit_low _ _ 0 (by decide)).trans (ofBool_bit _)))
  rintro _ ⟨⟩; change some (Instr.mhad ⟨j.xd, j.a, j.b, (0#2 ++ j.acc).extractLsb' 0 4, (BitVec.ofBool j.notify ++ j.scope ++ 0#9 ++ BitVec.ofBool norm ++ size).extractLsb' 12 3, (BitVec.ofBool j.notify ++ j.scope ++ 0#9 ++ BitVec.ofBool norm ++ size).getLsbD 15⟩ ((BitVec.ofBool j.notify ++ j.scope ++ 0#9 ++ BitVec.ofBool norm ++ size).extractLsb' 0 2) ((BitVec.ofBool j.notify ++ j.scope ++ 0#9 ++ BitVec.ofBool norm ++ size).getLsbD 2)) = _; rw [e0, e1, e2, e3, e4]

theorem mqnt (j : MatJob) (rm : BitVec 3) (fs : BitVec 2) : Statement (.mqnt j rm fs) := by
  have e0 : (0#2 ++ j.acc).extractLsb' 0 4 = j.acc := ((extract_low _ _ 0 4 (by decide)).trans (extract_all _))
  have e1 : (BitVec.ofBool j.notify ++ j.scope ++ 0#7 ++ fs ++ rm).extractLsb' 12 3 = j.scope := ((extract_high _ _ 12 3 (by decide)).trans ((extract_high _ _ 9 3 (by decide)).trans ((extract_high _ _ 7 3 (by decide)).trans ((extract_low _ _ 0 3 (by decide)).trans (extract_all _)))))
  have e2 : (BitVec.ofBool j.notify ++ j.scope ++ 0#7 ++ fs ++ rm).getLsbD 15 = j.notify := ((bit_high _ _ 15 (by decide)).trans ((bit_high _ _ 12 (by decide)).trans ((bit_high _ _ 10 (by decide)).trans ((bit_high _ _ 3 (by decide)).trans (ofBool_bit _)))))
  have e3 : (BitVec.ofBool j.notify ++ j.scope ++ 0#7 ++ fs ++ rm).extractLsb' 0 3 = rm := ((extract_low _ _ 0 3 (by decide)).trans (extract_all _))
  have e4 : (BitVec.ofBool j.notify ++ j.scope ++ 0#7 ++ fs ++ rm).extractLsb' 3 2 = fs := ((extract_high _ _ 3 2 (by decide)).trans ((extract_low _ _ 0 2 (by decide)).trans (extract_all _)))
  rintro _ ⟨⟩; change some (Instr.mqnt ⟨j.xd, j.a, j.b, (0#2 ++ j.acc).extractLsb' 0 4, (BitVec.ofBool j.notify ++ j.scope ++ 0#7 ++ fs ++ rm).extractLsb' 12 3, (BitVec.ofBool j.notify ++ j.scope ++ 0#7 ++ fs ++ rm).getLsbD 15⟩ ((BitVec.ofBool j.notify ++ j.scope ++ 0#7 ++ fs ++ rm).extractLsb' 0 3) ((BitVec.ofBool j.notify ++ j.scope ++ 0#7 ++ fs ++ rm).extractLsb' 3 2)) = _; rw [e0, e1, e2, e3, e4]

theorem mcvt (j : MatJob) (rm : BitVec 3) (sat : BitVec 2) : Statement (.mcvt j rm sat) := by
  have e0 : (0#2 ++ j.acc).extractLsb' 0 4 = j.acc := ((extract_low _ _ 0 4 (by decide)).trans (extract_all _))
  have e1 : (BitVec.ofBool j.notify ++ j.scope ++ 0#7 ++ sat ++ rm).extractLsb' 12 3 = j.scope := ((extract_high _ _ 12 3 (by decide)).trans ((extract_high _ _ 9 3 (by decide)).trans ((extract_high _ _ 7 3 (by decide)).trans ((extract_low _ _ 0 3 (by decide)).trans (extract_all _)))))
  have e2 : (BitVec.ofBool j.notify ++ j.scope ++ 0#7 ++ sat ++ rm).getLsbD 15 = j.notify := ((bit_high _ _ 15 (by decide)).trans ((bit_high _ _ 12 (by decide)).trans ((bit_high _ _ 10 (by decide)).trans ((bit_high _ _ 3 (by decide)).trans (ofBool_bit _)))))
  have e3 : (BitVec.ofBool j.notify ++ j.scope ++ 0#7 ++ sat ++ rm).extractLsb' 0 3 = rm := ((extract_low _ _ 0 3 (by decide)).trans (extract_all _))
  have e4 : (BitVec.ofBool j.notify ++ j.scope ++ 0#7 ++ sat ++ rm).extractLsb' 3 2 = sat := ((extract_high _ _ 3 2 (by decide)).trans ((extract_low _ _ 0 2 (by decide)).trans (extract_all _)))
  rintro _ ⟨⟩; change some (Instr.mcvt ⟨j.xd, j.a, j.b, (0#2 ++ j.acc).extractLsb' 0 4, (BitVec.ofBool j.notify ++ j.scope ++ 0#7 ++ sat ++ rm).extractLsb' 12 3, (BitVec.ofBool j.notify ++ j.scope ++ 0#7 ++ sat ++ rm).getLsbD 15⟩ ((BitVec.ofBool j.notify ++ j.scope ++ 0#7 ++ sat ++ rm).extractLsb' 0 3) ((BitVec.ofBool j.notify ++ j.scope ++ 0#7 ++ sat ++ rm).extractLsb' 3 2)) = _; rw [e0, e1, e2, e3, e4]

theorem mzero (j : MatJob) (kind : Bool) : Statement (.mzero j kind) := by
  have e0 : (0#2 ++ j.acc).extractLsb' 0 4 = j.acc := ((extract_low _ _ 0 4 (by decide)).trans (extract_all _))
  have e1 : (BitVec.ofBool j.notify ++ j.scope ++ 0#11 ++ BitVec.ofBool kind).extractLsb' 12 3 = j.scope := ((extract_high _ _ 12 3 (by decide)).trans ((extract_high _ _ 11 3 (by decide)).trans ((extract_low _ _ 0 3 (by decide)).trans (extract_all _))))
  have e2 : (BitVec.ofBool j.notify ++ j.scope ++ 0#11 ++ BitVec.ofBool kind).getLsbD 15 = j.notify := ((bit_high _ _ 15 (by decide)).trans ((bit_high _ _ 14 (by decide)).trans ((bit_high _ _ 3 (by decide)).trans (ofBool_bit _))))
  have e3 : (BitVec.ofBool j.notify ++ j.scope ++ 0#11 ++ BitVec.ofBool kind).getLsbD 0 = kind := ((bit_low _ _ 0 (by decide)).trans (ofBool_bit _))
  rintro _ ⟨⟩; change some (Instr.mzero ⟨j.xd, j.a, j.b, (0#2 ++ j.acc).extractLsb' 0 4, (BitVec.ofBool j.notify ++ j.scope ++ 0#11 ++ BitVec.ofBool kind).extractLsb' 12 3, (BitVec.ofBool j.notify ++ j.scope ++ 0#11 ++ BitVec.ofBool kind).getLsbD 15⟩ ((BitVec.ofBool j.notify ++ j.scope ++ 0#11 ++ BitVec.ofBool kind).getLsbD 0)) = _; rw [e0, e1, e2, e3]

theorem mst (j : MatJob) (rm : BitVec 3) (n1 : BitVec 4) : Statement (.mst j rm n1) := by
  have e0 : (0#2 ++ j.acc).extractLsb' 0 4 = j.acc := ((extract_low _ _ 0 4 (by decide)).trans (extract_all _))
  have e1 : (BitVec.ofBool j.notify ++ j.scope ++ 0#5 ++ n1 ++ rm).extractLsb' 12 3 = j.scope := ((extract_high _ _ 12 3 (by decide)).trans ((extract_high _ _ 9 3 (by decide)).trans ((extract_high _ _ 5 3 (by decide)).trans ((extract_low _ _ 0 3 (by decide)).trans (extract_all _)))))
  have e2 : (BitVec.ofBool j.notify ++ j.scope ++ 0#5 ++ n1 ++ rm).getLsbD 15 = j.notify := ((bit_high _ _ 15 (by decide)).trans ((bit_high _ _ 12 (by decide)).trans ((bit_high _ _ 8 (by decide)).trans ((bit_high _ _ 3 (by decide)).trans (ofBool_bit _)))))
  have e3 : (BitVec.ofBool j.notify ++ j.scope ++ 0#5 ++ n1 ++ rm).extractLsb' 0 3 = rm := ((extract_low _ _ 0 3 (by decide)).trans (extract_all _))
  have e4 : (BitVec.ofBool j.notify ++ j.scope ++ 0#5 ++ n1 ++ rm).extractLsb' 3 4 = n1 := ((extract_high _ _ 3 4 (by decide)).trans ((extract_low _ _ 0 4 (by decide)).trans (extract_all _)))
  rintro _ ⟨⟩; change some (Instr.mst ⟨j.xd, j.a, j.b, (0#2 ++ j.acc).extractLsb' 0 4, (BitVec.ofBool j.notify ++ j.scope ++ 0#5 ++ n1 ++ rm).extractLsb' 12 3, (BitVec.ofBool j.notify ++ j.scope ++ 0#5 ++ n1 ++ rm).getLsbD 15⟩ ((BitVec.ofBool j.notify ++ j.scope ++ 0#5 ++ n1 ++ rm).extractLsb' 0 3) ((BitVec.ofBool j.notify ++ j.scope ++ 0#5 ++ n1 ++ rm).extractLsb' 3 4)) = _; rw [e0, e1, e2, e3, e4]

theorem mld (j : MatJob) (n1 : BitVec 4) (kind : Bool) : Statement (.mld j n1 kind) := by
  have e0 : (0#2 ++ j.acc).extractLsb' 0 4 = j.acc := ((extract_low _ _ 0 4 (by decide)).trans (extract_all _))
  have e1 : (BitVec.ofBool j.notify ++ j.scope ++ 0#7 ++ BitVec.ofBool kind ++ n1).extractLsb' 12 3 = j.scope := ((extract_high _ _ 12 3 (by decide)).trans ((extract_high _ _ 8 3 (by decide)).trans ((extract_high _ _ 7 3 (by decide)).trans ((extract_low _ _ 0 3 (by decide)).trans (extract_all _)))))
  have e2 : (BitVec.ofBool j.notify ++ j.scope ++ 0#7 ++ BitVec.ofBool kind ++ n1).getLsbD 15 = j.notify := ((bit_high _ _ 15 (by decide)).trans ((bit_high _ _ 11 (by decide)).trans ((bit_high _ _ 10 (by decide)).trans ((bit_high _ _ 3 (by decide)).trans (ofBool_bit _)))))
  have e3 : (BitVec.ofBool j.notify ++ j.scope ++ 0#7 ++ BitVec.ofBool kind ++ n1).extractLsb' 0 4 = n1 := ((extract_low _ _ 0 4 (by decide)).trans (extract_all _))
  have e4 : (BitVec.ofBool j.notify ++ j.scope ++ 0#7 ++ BitVec.ofBool kind ++ n1).getLsbD 4 = kind := ((bit_high _ _ 4 (by decide)).trans ((bit_low _ _ 0 (by decide)).trans (ofBool_bit _)))
  rintro _ ⟨⟩; change some (Instr.mld ⟨j.xd, j.a, j.b, (0#2 ++ j.acc).extractLsb' 0 4, (BitVec.ofBool j.notify ++ j.scope ++ 0#7 ++ BitVec.ofBool kind ++ n1).extractLsb' 12 3, (BitVec.ofBool j.notify ++ j.scope ++ 0#7 ++ BitVec.ofBool kind ++ n1).getLsbD 15⟩ ((BitVec.ofBool j.notify ++ j.scope ++ 0#7 ++ BitVec.ofBool kind ++ n1).extractLsb' 0 4) ((BitVec.ofBool j.notify ++ j.scope ++ 0#7 ++ BitVec.ofBool kind ++ n1).getLsbD 4)) = _; rw [e0, e1, e2, e3, e4]

theorem rfl (xd : BitVec 5) : Statement (.rfl xd) := by
  rintro _ ⟨⟩; rfl

theorem spw (pd : BitVec 4) (xq vs : BitVec 5) : Statement (.spw pd xq vs) := by
  have e0 : (0#1 ++ pd).extractLsb' 0 4 = pd := ((extract_low _ _ 0 4 (by decide)).trans (extract_all _))
  rintro _ ⟨⟩; change some (Instr.spw ((0#1 ++ pd).extractLsb' 0 4) xq vs) = _; rw [e0]

theorem enq (xd xq xp : BitVec 5) : Statement (.enq xd xq xp) := by
  rintro _ ⟨⟩; rfl

theorem pfence (scope : BitVec 3) (order : BitVec 2) : Statement (.pfence scope order) := by
  have e0 : (order ++ scope).extractLsb' 0 3 = scope := ((extract_low _ _ 0 3 (by decide)).trans (extract_all _))
  have e1 : (order ++ scope).extractLsb' 3 2 = order := ((extract_high _ _ 3 2 (by decide)).trans (extract_all _))
  rintro _ ⟨⟩; change some (Instr.pfence ((order ++ scope).extractLsb' 0 3) ((order ++ scope).extractLsb' 3 2)) = _; rw [e0, e1]

theorem waita (xd xa xt : BitVec 5) : Statement (.waita xd xa xt) := by
  rintro _ ⟨⟩; rfl

theorem lkbank (xb : BitVec 5) : Statement (.lkbank xb) := by
  rintro _ ⟨⟩; rfl

theorem ulkbank (xb : BitVec 5) : Statement (.ulkbank xb) := by
  rintro _ ⟨⟩; rfl

theorem bcpy (xd xa xn : BitVec 5) : Statement (.bcpy xd xa xn) := by
  rintro _ ⟨⟩; rfl

theorem bfil (xd xa xn : BitVec 5) : Statement (.bfil xd xa xn) := by
  rintro _ ⟨⟩; rfl

theorem bgat (xd xa xn : BitVec 5) : Statement (.bgat xd xa xn) := by
  rintro _ ⟨⟩; rfl

theorem bsct (xd xa xn : BitVec 5) : Statement (.bsct xd xa xn) := by
  rintro _ ⟨⟩; rfl

theorem jpoll (xd xj : BitVec 5) : Statement (.jpoll xd xj) := by
  rintro _ ⟨⟩; rfl

theorem jwait (xd xj : BitVec 5) : Statement (.jwait xd xj) := by
  rintro _ ⟨⟩; rfl

theorem jyield (xj xc : BitVec 5) : Statement (.jyield xj xc) := by
  rintro _ ⟨⟩; rfl

theorem px (m : PxModes) : Statement (.px m) := by
  have e0 : (m.sat ++ m.rm).extractLsb' 0 3 = m.rm := ((extract_low _ _ 0 3 (by decide)).trans (extract_all _))
  have e1 : (m.sat ++ m.rm).extractLsb' 3 2 = m.sat := ((extract_high _ _ 3 2 (by decide)).trans (extract_all _))
  have e2 : (0#3 ++ BitVec.ofBool m.fso ++ BitVec.ofBool m.fsi).getLsbD 0 = m.fsi := ((bit_low _ _ 0 (by decide)).trans (ofBool_bit _))
  have e3 : (0#3 ++ BitVec.ofBool m.fso ++ BitVec.ofBool m.fsi).getLsbD 1 = m.fso := ((bit_high _ _ 1 (by decide)).trans ((bit_low _ _ 0 (by decide)).trans (ofBool_bit _)))
  rintro _ ⟨⟩; change some (Instr.px ⟨(m.sat ++ m.rm).extractLsb' 0 3, (m.sat ++ m.rm).extractLsb' 3 2, (0#3 ++ BitVec.ofBool m.fso ++ BitVec.ofBool m.fsi).getLsbD 0, (0#3 ++ BitVec.ofBool m.fso ++ BitVec.ofBool m.fsi).getLsbD 1⟩) = _; rw [e0, e1, e2, e3]

theorem tlbw (xe xa : BitVec 5) : Statement (.tlbw xe xa) := by
  rintro _ ⟨⟩; rfl

theorem tlbinv (xa xc : BitVec 5) : Statement (.tlbinv xa xc) := by
  rintro _ ⟨⟩; rfl

theorem tlbprobe (xd xa : BitVec 5) : Statement (.tlbprobe xd xa) := by
  rintro _ ⟨⟩; rfl

theorem ctxs (xr : BitVec 5) : Statement (.ctxs xr) := by
  rintro _ ⟨⟩; rfl

theorem ctxl (xr : BitVec 5) : Statement (.ctxl xr) := by
  rintro _ ⟨⟩; rfl

theorem msgs (xt xm : BitVec 5) : Statement (.msgs xt xm) := by
  rintro _ ⟨⟩; rfl

theorem msgr (xd xb : BitVec 5) : Statement (.msgr xd xb) := by
  rintro _ ⟨⟩; rfl

theorem fenceI : Statement .fenceI := by
  rintro _ ⟨⟩; rfl

theorem ecall : Statement .ecall := by
  rintro _ ⟨⟩; rfl

theorem ebreak : Statement .ebreak := by
  rintro _ ⟨⟩; rfl

theorem sret : Statement .sret := by
  rintro _ ⟨⟩; rfl

theorem mret : Statement .mret := by
  rintro _ ⟨⟩; rfl

theorem wfi : Statement .wfi := by
  rintro _ ⟨⟩; rfl

theorem barC : Statement .barC := by
  rintro _ ⟨⟩; rfl

theorem barK : Statement .barK := by
  rintro _ ⟨⟩; rfl

theorem xit : Statement .xit := by
  rintro _ ⟨⟩; rfl

theorem xfence : Statement .xfence := by
  rintro _ ⟨⟩; rfl

theorem ofence : Statement .ofence := by
  rintro _ ⟨⟩; rfl

theorem retx : Statement .retx := by
  rintro _ ⟨⟩; rfl

theorem fwVersion : Statement .fwVersion := fun _ h => nomatch h

theorem fwFeatureMask : Statement .fwFeatureMask := fun _ h => nomatch h

theorem fwPosition : Statement .fwPosition := fun _ h => nomatch h

theorem fwUnsupported : Statement .fwUnsupported := fun _ h => nomatch h

theorem takeAsyncCause : Statement .takeAsyncCause := fun _ h => nomatch h

theorem takeInterrupt : Statement .takeInterrupt := fun _ h => nomatch h

theorem missDataReturn : Statement .missDataReturn := fun _ h => nomatch h

theorem releaseComplete : Statement .releaseComplete := fun _ h => nomatch h

theorem rflClaimAnswer : Statement .rflClaimAnswer := fun _ h => nomatch h

theorem bankLockGrant : Statement .bankLockGrant := fun _ h => nomatch h

theorem bankLockBreak : Statement .bankLockBreak := fun _ h => nomatch h

theorem waitaWake : Statement .waitaWake := fun _ h => nomatch h

theorem waitaTimeout : Statement .waitaTimeout := fun _ h => nomatch h

theorem wfiWake : Statement .wfiWake := fun _ h => nomatch h

theorem sfenceVmaComplete : Statement .sfenceVmaComplete := fun _ h => nomatch h

theorem orderedStallEnd : Statement .orderedStallEnd := fun _ h => nomatch h

theorem hangDetect : Statement .hangDetect := fun _ h => nomatch h

theorem barrierRelease : Statement .barrierRelease := fun _ h => nomatch h

theorem packetCheck : Statement .packetCheck := fun _ h => nomatch h

theorem launchActivate : Statement .launchActivate := fun _ h => nomatch h

theorem queueAging : Statement .queueAging := fun _ h => nomatch h

theorem placeUnit : Statement .placeUnit := fun _ h => nomatch h

theorem placeGang : Statement .placeGang := fun _ h => nomatch h

theorem itemCommit : Statement .itemCommit := fun _ h => nomatch h

theorem launchComplete : Statement .launchComplete := fun _ h => nomatch h

theorem launchFail : Statement .launchFail := fun _ h => nomatch h

theorem jobStart : Statement .jobStart := fun _ h => nomatch h

theorem matrixStartGrant : Statement .matrixStartGrant := fun _ h => nomatch h

theorem bteChunk : Statement .bteChunk := fun _ h => nomatch h

theorem jobComplete : Statement .jobComplete := fun _ h => nomatch h

theorem jobFail : Statement .jobFail := fun _ h => nomatch h

theorem tscWalk : Statement .tscWalk := fun _ h => nomatch h

theorem walkResultReturn : Statement .walkResultReturn := fun _ h => nomatch h

theorem faultRecordDeferred : Statement .faultRecordDeferred := fun _ h => nomatch h

theorem lineWriteback : Statement .lineWriteback := fun _ h => nomatch h

theorem correctableError : Statement .correctableError := fun _ h => nomatch h

theorem uncorrectableError : Statement .uncorrectableError := fun _ h => nomatch h

theorem llcTagError : Statement .llcTagError := fun _ h => nomatch h

theorem cleanSweep : Statement .cleanSweep := fun _ h => nomatch h

theorem spareSubstitution : Statement .spareSubstitution := fun _ h => nomatch h

theorem retirement : Statement .retirement := fun _ h => nomatch h

theorem vacateOrder : Statement .vacateOrder := fun _ h => nomatch h

theorem vacateLift : Statement .vacateLift := fun _ h => nomatch h

theorem progressInterval : Statement .progressInterval := fun _ h => nomatch h

theorem vacateCheck : Statement .vacateCheck := fun _ h => nomatch h

theorem vacateDeadlineFail : Statement .vacateDeadlineFail := fun _ h => nomatch h

theorem vacancyReached : Statement .vacancyReached := fun _ h => nomatch h

theorem safePointGraceExpiry : Statement .safePointGraceExpiry := fun _ h => nomatch h

theorem hartSave : Statement .hartSave := fun _ h => nomatch h

theorem contextSpill : Statement .contextSpill := fun _ h => nomatch h

theorem sealedCoreSave : Statement .sealedCoreSave := fun _ h => nomatch h

theorem hartRestore : Statement .hartRestore := fun _ h => nomatch h

theorem powerOn : Statement .powerOn := fun _ h => nomatch h

theorem powerOff : Statement .powerOff := fun _ h => nomatch h

theorem packageReset : Statement .packageReset := fun _ h => nomatch h

theorem dieResetEnd : Statement .dieResetEnd := fun _ h => nomatch h

theorem dieNegotiate : Statement .dieNegotiate := fun _ h => nomatch h

theorem dieCertificateCheck : Statement .dieCertificateCheck := fun _ h => nomatch h

theorem dieChallenge : Statement .dieChallenge := fun _ h => nomatch h

theorem dieMeasurementCheck : Statement .dieMeasurementCheck := fun _ h => nomatch h

theorem dieKeyExchange : Statement .dieKeyExchange := fun _ h => nomatch h

theorem dieKeyDelivery : Statement .dieKeyDelivery := fun _ h => nomatch h

theorem dieAdmit : Statement .dieAdmit := fun _ h => nomatch h

theorem attestTimeout : Statement .attestTimeout := fun _ h => nomatch h

theorem flitReceive : Statement .flitReceive := fun _ h => nomatch h

theorem keyRolloverStart : Statement .keyRolloverStart := fun _ h => nomatch h

theorem rolloverAckTimeout : Statement .rolloverAckTimeout := fun _ h => nomatch h

theorem oldKeyErase : Statement .oldKeyErase := fun _ h => nomatch h

theorem hostRawAccess : Statement .hostRawAccess := fun _ h => nomatch h

theorem hostWindowAccess : Statement .hostWindowAccess := fun _ h => nomatch h

theorem poolBackInvalidate : Statement .poolBackInvalidate := fun _ h => nomatch h

theorem remoteRequest : Statement .remoteRequest := fun _ h => nomatch h

theorem mailboxUnknownCode : Statement .mailboxUnknownCode := fun _ h => nomatch h

theorem partSet : Statement .partSet := fun _ h => nomatch h

theorem partDrop : Statement .partDrop := fun _ h => nomatch h

theorem mapSet : Statement .mapSet := fun _ h => nomatch h

theorem imgInfo : Statement .imgInfo := fun _ h => nomatch h

theorem ringSet : Statement .ringSet := fun _ h => nomatch h

theorem qreg : Statement .qreg := fun _ h => nomatch h

theorem qdrop : Statement .qdrop := fun _ h => nomatch h

theorem winSet : Statement .winSet := fun _ h => nomatch h

theorem fltAnsReplay : Statement .fltAnsReplay := fun _ h => nomatch h

theorem fltAnsDecline : Statement .fltAnsDecline := fun _ h => nomatch h

theorem s2Set : Statement .s2Set := fun _ h => nomatch h

theorem pageOut : Statement .pageOut := fun _ h => nomatch h

theorem pageIn : Statement .pageIn := fun _ h => nomatch h

theorem dieReset : Statement .dieReset := fun _ h => nomatch h

theorem dieStatus : Statement .dieStatus := fun _ h => nomatch h

theorem exportCmd : Statement .exportCmd := fun _ h => nomatch h

theorem dbgHalt : Statement .dbgHalt := fun _ h => nomatch h

theorem dbgResume : Statement .dbgResume := fun _ h => nomatch h

theorem dbgStep : Statement .dbgStep := fun _ h => nomatch h

theorem dbgRd : Statement .dbgRd := fun _ h => nomatch h

theorem dbgWr : Statement .dbgWr := fun _ h => nomatch h

theorem gangStop : Statement .gangStop := fun _ h => nomatch h

theorem gangGo : Statement .gangGo := fun _ h => nomatch h

theorem resync : Statement .resync := fun _ h => nomatch h

theorem powerSet : Statement .powerSet := fun _ h => nomatch h

theorem domSet : Statement .domSet := fun _ h => nomatch h

theorem fconsWrite : Statement .fconsWrite := fun _ h => nomatch h

theorem heatControlWrite : Statement .heatControlWrite := fun _ h => nomatch h

theorem registerWrite : Statement .registerWrite := fun _ h => nomatch h

theorem getVersion : Statement .getVersion := fun _ h => nomatch h

theorem getCapabilities : Statement .getCapabilities := fun _ h => nomatch h

theorem negotiateAlgorithms : Statement .negotiateAlgorithms := fun _ h => nomatch h

theorem getDigests : Statement .getDigests := fun _ h => nomatch h

theorem getCertificate : Statement .getCertificate := fun _ h => nomatch h

theorem challenge : Statement .challenge := fun _ h => nomatch h

theorem getMeasurements : Statement .getMeasurements := fun _ h => nomatch h

theorem keyExchange : Statement .keyExchange := fun _ h => nomatch h

theorem finish : Statement .finish := fun _ h => nomatch h

theorem endSession : Statement .endSession := fun _ h => nomatch h

theorem reportBind : Statement .reportBind := fun _ h => nomatch h

theorem spdmUnsupportedRequest : Statement .spdmUnsupportedRequest := fun _ h => nomatch h

theorem clusterGate : Statement .clusterGate := fun _ h => nomatch h

theorem clusterWake : Statement .clusterWake := fun _ h => nomatch h

theorem powerWindow : Statement .powerWindow := fun _ h => nomatch h

theorem thermalReset : Statement .thermalReset := fun _ h => nomatch h

theorem illegalInstruction : Statement .illegalInstruction := fun _ h => nomatch h

theorem instructionFetchFault : Statement .instructionFetchFault := fun _ h => nomatch h

theorem writePerformed : Statement .writePerformed := fun _ h => nomatch h

theorem cleanSweepEnd : Statement .cleanSweepEnd := fun _ h => nomatch h

theorem linkRetrainingEnd : Statement .linkRetrainingEnd := fun _ h => nomatch h

theorem pseudoChannelCopyEnd : Statement .pseudoChannelCopyEnd := fun _ h => nomatch h

theorem cobaltLinkKeying : Statement .cobaltLinkKeying := fun _ h => nomatch h

end F

end Sys2Proof.Laws
end

