-- ==== Sys2Proof/Tests/Slice0.lean ====
section
/-! SUPPORT. The model's own tests: instructions the device refuses, decoding of words written out from the encoding tables,
single steps with results worked out by hand, and, for every statement with hypotheses, states that meet them. -/

namespace Sys2Proof.Tests

open Sys2Proof Sys2Proof.Machine

set_option Elab.async false
set_option maxRecDepth 4000
set_option exponentiation.threshold 2000

/-! ## States -/

/-- A hart in U at 0x10000 with some x registers set; no comparator stops it. -/
def hart (xs : List (BitVec 5 × DWord)) : Hart :=
  let h := xs.foldl (fun h e => h.setX e.1 e.2) Hart.reset
  { h with pc := 0x10000, run := { h.run with passCmp := true } }

/-- A hart at a level. -/
def hartAt (p : Priv) (xs : List (BitVec 5 × DWord)) : Hart := { hart xs with priv := p }

/-- A partition with one range of class 0 at home in die 0, every core, slot and bank of it. -/
def part0 : Part :=
  { Part.blank with rtab := [⟨0, 1, 0, 0, 0, true⟩], cores := 0xFF, slots := 0xFFFF, banks := 0xFFFFFFFF, jq := 64, tq := 16, dsp := [65536] }

/-- A package with one partition, die 0 in service, some lines at home and harts. -/
def world (hs : List (Nat × Hart)) (lines : List (Nat × Nat)) : State :=
  { State.reset with
    now := 32, harts := hs, parts := [(0, part0)], dies := [(0, { Die.reset with accept := true, st := 5 })]
    mem := { Mem.reset with llc := lines.map (fun e => (lineKey 0 e.1, ⟨BitVec.ofNat 1024 e.2, true, false, false⟩)) } }

/-- One hart at key 0, lines at 0x11000 and 0x11080. -/
def lone (h : Hart) : State := world [(0, h)] [(0x11000, 0x8877665544332211), (0x11080, 0)]

/-- What a line at home takes, decided. -/
def standsNow (s : State) (part gpa : Nat) : Bool :=
  match s.part? part with
  | none => false
  | some p => match p.range? gpa with
    | none => false
    | some r => match Map.find s.mem.llc (lineKey part gpa) with
      | none => false
      | some l => r.cls != 2 && (s.die (homeOf r gpa / 64)).accept && !l.poison

theorem stands {s : State} {part gpa : Nat} (h : standsNow s part gpa = true) : s.standsAtHome part gpa := by
  unfold standsNow at h
  split at h
  · cases h
  · split at h
    · cases h
    · split at h
      · cases h
      · next p hp _ r hr _ l hl =>
        simp only [Bool.and_eq_true, bne_iff_ne, ne_eq, Bool.not_eq_true'] at h
        exact ⟨p, r, l, hp, hr, h.1.1, h.1.2, hl, h.2⟩

/-- A plain access, decided: no comparator, bare addresses. -/
def plainNow (s : State) (h : Hart) (va : DWord) (k : AccKind) (n gpa : Nat) : Bool :=
  (h.run.wait).isNone && !s.ordered h && h.run.passCmp && va.toNat % n == 0 && s.stage1 (coreOf s.cur) (h.ctx k) h.run.walks va k == .gpa gpa
    && (s.tlbFind (coreOf s.cur) (h.ctx k).part (satpAsid (h.ctx k).satp) va).isNone && gpa % 4096 == va.toNat % 4096
    && decide (gpa < 2 ^ 52) && h.run.declined.isEmpty && h.run.failedPages.isEmpty && standsNow s h.role.part gpa
    && (s.core (coreOf s.cur)).flight.isEmpty && s.latency == 0

theorem plain {s : State} {h : Hart} {va : DWord} {k : AccKind} {n gpa : Nat} (c : plainNow s h va k n gpa = true) :
    PlainAccess s h va k n gpa := by
  simp only [plainNow, Bool.and_eq_true, Bool.not_eq_true', beq_iff_eq, decide_eq_true_eq, List.isEmpty_iff, Option.isNone_iff_eq_none] at c
  obtain ⟨⟨⟨⟨⟨⟨⟨⟨⟨⟨⟨⟨c0, c1⟩, c2⟩, c3⟩, c4⟩, c5⟩, c6⟩, c7⟩, c8⟩, c9⟩, c10⟩, c11⟩, c12⟩ := c
  refine ⟨c0, c1, fun _ => by simp [State.dataMatch, c2], c3, ?_, c6, c7, by simp [c8, c9], stands c10, c11, c12⟩
  have st := c10
  unfold standsNow at st
  split at st
  · cases st
  · split at st
    · cases st
    · next p hp _ r hr =>
      simp only [State.translate, c4, hp, hr, State.fillL1, c5, ite_self]

/-- The state after a next outcome. -/
def next? (o : Out) : Option State :=
  match o with
  | .next t => some t
  | .fault _ => none
  | .refused _ => none

/-- What a value of the acting hart is after an instruction that goes on. -/
def after {α : Type} (i : Instr) (s : State) (f : Hart → α) : Option α := ((next? (exec i s)).bind (fun t => t.hart? s.cur)).map f

/-- Words that decode to an instruction, which encodes to those words. -/
def reads (l : List (Word × Word × Instr)) : Bool :=
  l.all (fun e => decide (decode e.1 e.2.1 = .ok e.2.2) && decide (encode e.2.2 = some (e.1.toNat + 2 ^ 32 * e.2.1.toNat)))

/-- Instructions that are not well formed. -/
def refuses (l : List Instr) : Bool := l.all (fun i => !i.wellFormed)

/-- Words that no instruction has. -/
def rejects (l : List (Word × Word)) : Bool := l.all (fun e => (decode e.1 e.2).toOption.isNone)

/-! ## Encodings -/

theorem test_decode_upper : reads [
  (0xABCDE2B7, 0x00000000, .lui 5 0xABCDE),
  (0x80000F97, 0x00000000, .auipc 31 0x80000),
  (0x801FF0EF, 0x00000000, .jal 1 0xFFC00),
  (0x24D0506F, 0x00000000, .jal 0 0x02D26)] = true := by decide

theorem test_decode_immediate_1 : reads [
  (0x801100E7, 0x00000000, .jalr 1 2 0x801),
  (0x80218103, 0x00000000, .lb 2 3 0x802),
  (0x80321183, 0x00000000, .lh 3 4 0x803),
  (0x8042A203, 0x00000000, .lw 4 5 0x804),
  (0x80533283, 0x00000000, .ld 5 6 0x805),
  (0x8063C303, 0x00000000, .lbu 6 7 0x806),
  (0x80745383, 0x00000000, .lhu 7 8 0x807),
  (0x8084E403, 0x00000000, .lwu 8 9 0x808),
  (0x80950493, 0x00000000, .addi 9 10 0x809),
  (0x80A5A513, 0x00000000, .slti 10 11 0x80A),
  (0x80B63593, 0x00000000, .sltiu 11 12 0x80B),
  (0x80C6C613, 0x00000000, .xori 12 13 0x80C),
  (0x80D76693, 0x00000000, .ori 13 14 0x80D),
  (0x80E7F713, 0x00000000, .andi 14 15 0x80E),
  (0x80F8079B, 0x00000000, .addiw 15 16 0x80F),
  (0xAAB08E23, 0x00000000, .sb 1 11 0xABC)] = true := by decide

theorem test_decode_immediate_2 : reads [
  (0xAAC11E23, 0x00000000, .sh 2 12 0xABC),
  (0xAAD1AE23, 0x00000000, .sw 3 13 0xABC),
  (0xAAE23E23, 0x00000000, .sd 4 14 0xABC),
  (0x89E08163, 0x00000000, .beq 1 30 0x841),
  (0x91D11163, 0x00000000, .bne 2 29 0x881),
  (0x99C1C163, 0x00000000, .blt 3 28 0x8C1),
  (0xA1B25163, 0x00000000, .bge 4 27 0x901),
  (0xA9A2E163, 0x00000000, .bltu 5 26 0x941),
  (0xB1937163, 0x00000000, .bgeu 6 25 0x981)] = true := by decide

theorem test_decode_register_1 : reads [
  (0x02141393, 0x00000000, .slli 7 8 33),
  (0x03F45393, 0x00000000, .srli 7 8 63),
  (0x42045393, 0x00000000, .srai 7 8 32),
  (0x01F4139B, 0x00000000, .slliw 7 8 31),
  (0x0014539B, 0x00000000, .srliw 7 8 1),
  (0x4104539B, 0x00000000, .sraiw 7 8 16),
  (0x003100B3, 0x00000000, .add 1 2 3),
  (0x40418133, 0x00000000, .sub 2 3 4),
  (0x005211B3, 0x00000000, .sll 3 4 5),
  (0x0062A233, 0x00000000, .slt 4 5 6),
  (0x007332B3, 0x00000000, .sltu 5 6 7),
  (0x0083C333, 0x00000000, .xor 6 7 8),
  (0x009453B3, 0x00000000, .srl 7 8 9),
  (0x40A4D433, 0x00000000, .sra 8 9 10),
  (0x00B564B3, 0x00000000, .or 9 10 11),
  (0x00C5F533, 0x00000000, .and 10 11 12)] = true := by decide

theorem test_decode_register_2 : reads [
  (0x02D605B3, 0x00000000, .mul 11 12 13),
  (0x02E69633, 0x00000000, .mulh 12 13 14),
  (0x02F726B3, 0x00000000, .mulhsu 13 14 15),
  (0x0307B733, 0x00000000, .mulhu 14 15 16),
  (0x031847B3, 0x00000000, .div 15 16 17),
  (0x0328D833, 0x00000000, .divu 16 17 18),
  (0x033968B3, 0x00000000, .rem 17 18 19),
  (0x0349F933, 0x00000000, .remu 18 19 20),
  (0x015A09BB, 0x00000000, .addw 19 20 21),
  (0x416A8A3B, 0x00000000, .subw 20 21 22),
  (0x017B1ABB, 0x00000000, .sllw 21 22 23),
  (0x018BDB3B, 0x00000000, .srlw 22 23 24),
  (0x419C5BBB, 0x00000000, .sraw 23 24 25),
  (0x03AC8C3B, 0x00000000, .mulw 24 25 26),
  (0x03BD4CBB, 0x00000000, .divw 25 26 27),
  (0x03CDDD3B, 0x00000000, .divuw 26 27 28)] = true := by decide

theorem test_decode_register_3 : reads [
  (0x03DE6DBB, 0x00000000, .remw 27 28 29),
  (0x03EEFE3B, 0x00000000, .remuw 28 29 30)] = true := by decide

theorem test_decode_atomic : reads [
  (0x18B524AF, 0x00000000, .sc 9 10 11 false false false),
  (0x0CB524AF, 0x00000000, .amoswap 9 10 11 true false false),
  (0x02B524AF, 0x00000000, .amoadd 9 10 11 false true false),
  (0x26B524AF, 0x00000000, .amoxor 9 10 11 true true false),
  (0x60B534AF, 0x00000000, .amoand 9 10 11 false false true),
  (0x44B534AF, 0x00000000, .amoor 9 10 11 true false true),
  (0x82B534AF, 0x00000000, .amomin 9 10 11 false true true),
  (0xA6B534AF, 0x00000000, .amomax 9 10 11 true true true),
  (0xC0B524AF, 0x00000000, .amominu 9 10 11 false false false),
  (0xE4B524AF, 0x00000000, .amomaxu 9 10 11 true false false),
  (0x140534AF, 0x00000000, .lr 9 10 true false true)] = true := by decide

theorem test_decode_system : reads [
  (0x0320000F, 0x00000000, .fence false 3 2),
  (0x8330000F, 0x00000000, .fence true 3 3),
  (0x0000100F, 0x00000000, .fenceI),
  (0x00000073, 0x00000000, .ecall),
  (0x00100073, 0x00000000, .ebreak),
  (0x10200073, 0x00000000, .sret),
  (0x30200073, 0x00000000, .mret),
  (0x10500073, 0x00000000, .wfi),
  (0x12418073, 0x00000000, .sfenceVma 3 4),
  (0x7C0A9273, 0x00000000, .csrrw 4 21 0x7C0),
  (0x7C0AA273, 0x00000000, .csrrs 4 21 0x7C0),
  (0x7C0AB273, 0x00000000, .csrrc 4 21 0x7C0),
  (0x7C0AD273, 0x00000000, .csrrwi 4 21 0x7C0),
  (0x7C0AE273, 0x00000000, .csrrsi 4 21 0x7C0),
  (0x7C0AF273, 0x00000000, .csrrci 4 21 0x7C0)] = true := by decide

theorem test_decode_custom_1 : reads [
  (0x0000002B, 0x00000000, .barC),
  (0x0010002B, 0x00000000, .barK),
  (0x020001AB, 0x00000000, .rfl 3),
  (0x0400002B, 0x00000000, .xit),
  (0x067305AB, 0x00000000, .spw 11 6 7),
  (0x085201AB, 0x00000000, .enq 3 4 5),
  (0x01C0102B, 0x00000000, .pfence 4 3),
  (0x0200102B, 0x00000000, .xfence),
  (0x0400102B, 0x00000000, .ofence),
  (0x005221AB, 0x00000000, .waita 3 4 5),
  (0x0202202B, 0x00000000, .lkbank 4),
  (0x0402202B, 0x00000000, .ulkbank 4),
  (0x005231AB, 0x00000000, .bcpy 3 4 5),
  (0x025231AB, 0x00000000, .bfil 3 4 5),
  (0x045231AB, 0x00000000, .bgat 3 4 5),
  (0x065231AB, 0x00000000, .bsct 3 4 5)] = true := by decide

theorem test_decode_custom_2 : reads [
  (0x000241AB, 0x00000000, .jpoll 3 4),
  (0x020241AB, 0x00000000, .jwait 3 4),
  (0x0452402B, 0x00000000, .jyield 4 5),
  (0x0052105B, 0x00000000, .tlbw 4 5),
  (0x0252105B, 0x00000000, .tlbinv 4 5),
  (0x040211DB, 0x00000000, .tlbprobe 3 4),
  (0x0002205B, 0x00000000, .ctxs 4),
  (0x0202205B, 0x00000000, .ctxl 4),
  (0x0052305B, 0x00000000, .msgs 4 5),
  (0x020231DB, 0x00000000, .msgr 3 4),
  (0x0000405B, 0x00000000, .retx),
  (0x001B805B, 0x00000000, .px ⟨7, 2, true, false⟩)] = true := by decide

theorem test_decode_lane_integer_1 : reads [
  (0xAF3E003F, 0x00000003, .ladd ⟨62, 60, 58, .i32, ⟨0, false⟩⟩),
  (0xAF3E043F, 0x00008903, .lsub ⟨62, 60, 58, .n32, ⟨1, true⟩⟩),
  (0xAF3E083F, 0x00001603, .lmul ⟨62, 60, 58, .i16x2, ⟨2, false⟩⟩),
  (0xAF3E0C3F, 0x00009F03, .lmulh ⟨62, 60, 58, .i8x4, ⟨3, true⟩⟩),
  (0xAF3E103F, 0x000020E3, .lmad ⟨62, 60, 58, 56, .i32, ⟨4, false⟩⟩),
  (0xAF3E143F, 0x0000A903, .lmin ⟨62, 60, 58, .n32, ⟨5, true⟩⟩),
  (0xAF3E183F, 0x00003603, .lmax ⟨62, 60, 58, .i16x2, ⟨6, false⟩⟩),
  (0x0F3E1C3F, 0x0000BE00, .labs ⟨62, 60, .i16x2, ⟨7, true⟩⟩),
  (0xAF3E203F, 0x00004003, .land ⟨62, 60, 58, .i32, ⟨8, false⟩⟩),
  (0xAF3E243F, 0x0000C903, .lor ⟨62, 60, 58, .n32, ⟨9, true⟩⟩),
  (0xAF3E283F, 0x00005603, .lxor ⟨62, 60, 58, .i16x2, ⟨10, false⟩⟩),
  (0xAF3E2C3F, 0x0000DF03, .landn ⟨62, 60, 58, .i8x4, ⟨11, true⟩⟩),
  (0xAF3E303F, 0x00000003, .lshl ⟨62, 60, 58, .i32, ⟨0, false⟩⟩),
  (0xAF3E343F, 0x00008903, .lshr ⟨62, 60, 58, .n32, ⟨1, true⟩⟩),
  (0xAF3E383F, 0x00001603, .lsra ⟨62, 60, 58, .i16x2, ⟨2, false⟩⟩),
  (0xAF3E3C3F, 0x00009F03, .lrot ⟨62, 60, 58, .i8x4, ⟨3, true⟩⟩)] = true := by decide

theorem test_decode_lane_integer_2 : reads [
  (0x0F3E403F, 0x00002000, .lclz ⟨62, 60, .i32, ⟨4, false⟩⟩),
  (0x0F3E443F, 0x0000A900, .lpopc ⟨62, 60, .n32, ⟨5, true⟩⟩),
  (0x0F3E483F, 0x00003600, .lbrev ⟨62, 60, .i16x2, ⟨6, false⟩⟩)] = true := by decide

theorem test_decode_lane_integer_immediate : reads [
  (0x0F3E803F, 0x7FFE0000, .laddImm ⟨62, 60, 0x7FFE, .i32, ⟨0, false⟩⟩),
  (0x0F3E843F, 0x7FFE8900, .lsubImm ⟨62, 60, 0x7FFE, .n32, ⟨1, true⟩⟩),
  (0x0F3E883F, 0x7FFE1600, .lmulImm ⟨62, 60, 0x7FFE, .i16x2, ⟨2, false⟩⟩),
  (0x0F3E8C3F, 0x7FFE9F00, .lmulhImm ⟨62, 60, 0x7FFE, .i8x4, ⟨3, true⟩⟩),
  (0x0F3E903F, 0x800120E0, .lmadImm ⟨62, 60, 0x8001, 56, .i32, ⟨4, false⟩⟩),
  (0x0F3E943F, 0x7FFEA900, .lminImm ⟨62, 60, 0x7FFE, .n32, ⟨5, true⟩⟩),
  (0x0F3E983F, 0x7FFE3600, .lmaxImm ⟨62, 60, 0x7FFE, .i16x2, ⟨6, false⟩⟩),
  (0x0F3EA03F, 0x7FFE4000, .landImm ⟨62, 60, 0x7FFE, .i32, ⟨8, false⟩⟩),
  (0x0F3EA43F, 0x7FFEC900, .lorImm ⟨62, 60, 0x7FFE, .n32, ⟨9, true⟩⟩),
  (0x0F3EA83F, 0x7FFE5600, .lxorImm ⟨62, 60, 0x7FFE, .i16x2, ⟨10, false⟩⟩),
  (0x0F3EAC3F, 0x7FFEDF00, .landnImm ⟨62, 60, 0x7FFE, .i8x4, ⟨11, true⟩⟩),
  (0x0F3EB03F, 0x7FFE0000, .lshlImm ⟨62, 60, 0x7FFE, .i32, ⟨0, false⟩⟩),
  (0x0F3EB43F, 0x7FFE8900, .lshrImm ⟨62, 60, 0x7FFE, .n32, ⟨1, true⟩⟩),
  (0x0F3EB83F, 0x7FFE1600, .lsraImm ⟨62, 60, 0x7FFE, .i16x2, ⟨2, false⟩⟩),
  (0x0F3EBC3F, 0x7FFE9F00, .lrotImm ⟨62, 60, 0x7FFE, .i8x4, ⟨3, true⟩⟩)] = true := by decide

theorem test_decode_lane_integer_short_1 : reads [
  (0x0062010B, 0x00000000, .laddS32 ⟨2, 4, 6, .i32⟩),
  (0x0262110B, 0x00000000, .lsubS32 ⟨2, 4, 6, .n32⟩),
  (0x0462610B, 0x00000000, .lmulS32 ⟨2, 4, 6, .i16x2⟩),
  (0x0662710B, 0x00000000, .lmulhS32 ⟨2, 4, 6, .i8x4⟩),
  (0x0A62110B, 0x00000000, .lminS32 ⟨2, 4, 6, .n32⟩),
  (0x0C62610B, 0x00000000, .lmaxS32 ⟨2, 4, 6, .i16x2⟩),
  (0x0E02610B, 0x00000000, .labsS32 ⟨2, 4, .i16x2⟩),
  (0x1062010B, 0x00000000, .landS32 ⟨2, 4, 6, .i32⟩),
  (0x1262110B, 0x00000000, .lorS32 ⟨2, 4, 6, .n32⟩),
  (0x1462610B, 0x00000000, .lxorS32 ⟨2, 4, 6, .i16x2⟩),
  (0x1662710B, 0x00000000, .landnS32 ⟨2, 4, 6, .i8x4⟩),
  (0x1862010B, 0x00000000, .lshlS32 ⟨2, 4, 6, .i32⟩),
  (0x1A62110B, 0x00000000, .lshrS32 ⟨2, 4, 6, .n32⟩),
  (0x1C62610B, 0x00000000, .lsraS32 ⟨2, 4, 6, .i16x2⟩),
  (0x1E62710B, 0x00000000, .lrotS32 ⟨2, 4, 6, .i8x4⟩),
  (0x2002010B, 0x00000000, .lclzS32 ⟨2, 4, .i32⟩)] = true := by decide

theorem test_decode_lane_integer_short_2 : reads [
  (0x2202110B, 0x00000000, .lpopcS32 ⟨2, 4, .n32⟩),
  (0x2402610B, 0x00000000, .lbrevS32 ⟨2, 4, .i16x2⟩)] = true := by decide

theorem test_decode_lane_float : reads [
  (0xAF3E00BF, 0x00000203, .lfadd ⟨62, 60, 58, .f32, ⟨0, false⟩⟩),
  (0xAF3E04BF, 0x00008B03, .lfsub ⟨62, 60, 58, .f16x2, ⟨1, true⟩⟩),
  (0xAF3E08BF, 0x00001403, .lfmul ⟨62, 60, 58, .bf16x2, ⟨2, false⟩⟩),
  (0xAF3E0CBF, 0x00009DE3, .lfma ⟨62, 60, 58, 56, .f64, ⟨3, true⟩⟩),
  (0xAF3E10BF, 0x00002203, .lfmin ⟨62, 60, 58, .f32, ⟨4, false⟩⟩),
  (0xAF3E14BF, 0x0000AB03, .lfmax ⟨62, 60, 58, .f16x2, ⟨5, true⟩⟩),
  (0x610218BF, 0x00023400, .lfsgn ⟨2, 4, 6, .bf16x2, ⟨6, false⟩⟩ 2),
  (0x0F3E1CBF, 0x0000BD00, .lfrcp ⟨62, 60, .f64, ⟨7, true⟩⟩),
  (0x0F3E20BF, 0x00004200, .lfrsq ⟨62, 60, .f32, ⟨8, false⟩⟩),
  (0x0F3E24BF, 0x0000CB00, .lfsqrt ⟨62, 60, .f16x2, ⟨9, true⟩⟩),
  (0xAF3E28BF, 0x00005403, .lfdiv ⟨62, 60, 58, .bf16x2, ⟨10, false⟩⟩),
  (0x0F3E2CBF, 0x0000DD00, .lfexp2 ⟨62, 60, .f64, ⟨11, true⟩⟩),
  (0x0F3E30BF, 0x00000200, .lflog2 ⟨62, 60, .f32, ⟨0, false⟩⟩)] = true := by decide

theorem test_decode_lane_float_immediate : reads [
  (0x0F3E80BF, 0x7FFE0200, .lfaddImm ⟨62, 60, 0x7FFE, .f32, ⟨0, false⟩⟩),
  (0x0F3E84BF, 0x7FFE8B00, .lfsubImm ⟨62, 60, 0x7FFE, .f16x2, ⟨1, true⟩⟩),
  (0x0F3E88BF, 0x7FFE1400, .lfmulImm ⟨62, 60, 0x7FFE, .bf16x2, ⟨2, false⟩⟩),
  (0x0F3E8CBF, 0x80019DE0, .lfmaImm ⟨62, 60, 0x8001, 56, .f64, ⟨3, true⟩⟩),
  (0x0F3E90BF, 0x7FFE2200, .lfminImm ⟨62, 60, 0x7FFE, .f32, ⟨4, false⟩⟩),
  (0x0F3E94BF, 0x7FFEAB00, .lfmaxImm ⟨62, 60, 0x7FFE, .f16x2, ⟨5, true⟩⟩),
  (0x0F3EA8BF, 0x7FFE5400, .lfdivImm ⟨62, 60, 0x7FFE, .bf16x2, ⟨10, false⟩⟩)] = true := by decide

theorem test_decode_lane_float_short : reads [
  (0x4062210B, 0x00000000, .lfaddS32 ⟨2, 4, 6, .f32⟩),
  (0x4262310B, 0x00000000, .lfsubS32 ⟨2, 4, 6, .f16x2⟩),
  (0x4462410B, 0x00000000, .lfmulS32 ⟨2, 4, 6, .bf16x2⟩),
  (0x4862210B, 0x00000000, .lfminS32 ⟨2, 4, 6, .f32⟩),
  (0x4A62310B, 0x00000000, .lfmaxS32 ⟨2, 4, 6, .f16x2⟩),
  (0x4E02510B, 0x00000000, .lfrcpS32 ⟨2, 4, .f64⟩),
  (0x5002210B, 0x00000000, .lfrsqS32 ⟨2, 4, .f32⟩),
  (0x5202310B, 0x00000000, .lfsqrtS32 ⟨2, 4, .f16x2⟩),
  (0x5462410B, 0x00000000, .lfdivS32 ⟨2, 4, 6, .bf16x2⟩),
  (0x5602510B, 0x00000000, .lfexp2S32 ⟨2, 4, .f64⟩),
  (0x5802210B, 0x00000000, .lflog2S32 ⟨2, 4, .f32⟩)] = true := by decide

theorem test_decode_lane_variants : reads [
  (0x00814C3F, 0x06857900, .lbfx ⟨1, 2, .n32, ⟨15, false⟩⟩ 5 20 true),
  (0x3081503F, 0x001F7800, .lbfi ⟨1, 2, 3, .i32, ⟨15, false⟩⟩ 31 0),
  (0x6102543F, 0x001B9D00, .lsel ⟨2, 4, 6, .f64, ⟨3, true⟩⟩ 11 true),
  (0x7102D43F, 0x3F807A01, .lselImm ⟨2, 4, 0x3F80, .f32, ⟨15, false⟩⟩ 7 true),
  (0x308B583F, 0x00057800, .lcmp ⟨11, 2, 3, .i32, ⟨15, false⟩⟩ 5),
  (0x3084D83F, 0xFFFF7900, .lcmpImm ⟨4, 2, 0xFFFF, .n32, ⟨15, false⟩⟩ 3),
  (0x30815C3F, 0x01547800, .laddc ⟨1, 2, 3, .i32, ⟨15, false⟩⟩ 4 5 true),
  (0x408334BF, 0x00077D00, .lfcmp ⟨3, 2, 4, .f64, ⟨15, false⟩⟩ 7),
  (0x6083B4BF, 0xBF807A00, .lfcmpImm ⟨3, 2, 0xBF80, .f32, ⟨15, false⟩⟩ 6),
  (0x008338BF, 0x02017A00, .lfclass ⟨3, 2, .f32, ⟨15, false⟩⟩ 0x201),
  (0x02483CBF, 0x05037800, .lcvt ⟨8, 9, .i32, ⟨15, false⟩⟩ 3 0 true 2),
  (0xA24840BF, 0x000A7800, .lpack ⟨8, 9, 10, .i32, ⟨15, false⟩⟩ 10),
  (0x024844BF, 0x00457800, .lunpk ⟨8, 9, .i32, ⟨15, false⟩⟩ 5 4)] = true := by decide

theorem test_decode_lane_moves_1 : reads [
  (0x0102013F, 0x00008D00, .lmov ⟨2, 4, .f64, ⟨1, true⟩⟩),
  (0x0003813F, 0xABCD7E00, .lmovi 3 0xABCD .i16x2 ⟨15, false⟩),
  (0x07C2053F, 0x00007800, .lbcast ⟨2, 31, .i32, ⟨15, false⟩⟩),
  (0x009F093F, 0x001F7D00, .lextr 31 2 .f64 31),
  (0x07FF0D3F, 0x00117900, .lins 63 31 .n32 17),
  (0x3081113F, 0x00007800, .lshfl ⟨1, 2, 3, .i32, ⟨15, false⟩⟩ 0 0),
  (0x0081113F, 0x00FC7800, .lshfl ⟨1, 2, 0, .i32, ⟨15, false⟩⟩ 4 31),
  (0x0081153F, 0x00057F00, .lred ⟨1, 2, .i8x4, ⟨15, false⟩⟩ 5),
  (0x0081193F, 0x00097A00, .lscan ⟨1, 2, .f32, ⟨15, false⟩⟩ 1 true),
  (0x02DF1D3F, 0x00007800, .lballot 31 11),
  (0x0004213F, 0x00051000, .lgets 4 ⟨2, false⟩ 5),
  (0x0020253F, 0x00007800, .ltrns 32 0),
  (0x3081293F, 0x000EA000, .plog 1 2 3 ⟨4, true⟩ 0xE),
  (0x00812D3F, 0x00002000, .pmovPred 1 2 ⟨4, false⟩),
  (0x07C12D3F, 0x0001A000, .pmovFromX 1 31 ⟨4, true⟩),
  (0x02DF2D3F, 0x00027800, .pmovToX 31 11)] = true := by decide

theorem test_decode_lane_moves_2 : reads [
  (0x0240313F, 0x00007800, .emset 9),
  (0x0009353F, 0x00007800, .emget 9),
  (0x0149393F, 0x00017800, .emand 9 5 true)] = true := by decide

theorem test_decode_lane_memory : reads [
  (0x57FE01BF, 0x00019070, .lld ⟨62, 31, 5, 4, 3, false, ⟨2, true⟩⟩ 1),
  (0x920781BF, 0x800078A0, .lldImm ⟨7, 8, 9, 0, 1, true, ⟨15, false⟩⟩ 0x8000),
  (0x57FE05BF, 0x0002780C, .lst ⟨62, 31, 5, 3, 0, false, ⟨15, false⟩⟩ 2),
  (0x920685BF, 0x7FFF7868, .lstImm ⟨6, 8, 9, 2, 3, false, ⟨15, false⟩⟩ 0x7FFF),
  (0xF22009BF, 0x00007845, .lldt ⟨32, 8, 31, 1, 2, false, ⟨15, false⟩⟩ 0),
  (0x920089BF, 0x00047840, .lldtImm ⟨0, 8, 9, 0, 2, false, ⟨15, false⟩⟩ 4),
  (0x92060DBF, 0xFAB97860, .lamo ⟨6, 8, 9, 0, 3, false, ⟨15, false⟩⟩ 9 3 5 62),
  (0x920011BF, 0x00027820, .lpref ⟨0, 8, 9, 0, 1, false, ⟨15, false⟩⟩ 2),
  (0x920091BF, 0x00807860, .lprefImm ⟨0, 8, 9, 0, 3, false, ⟨15, false⟩⟩ 128)] = true := by decide

theorem test_decode_matrix : reads [
  (0xEFDF023F, 0xE34F783D, .mma ⟨31, 63, 30, 15, 6, true⟩ true 3 9 2 true),
  (0x4081063F, 0x11B07814, .mmas ⟨1, 2, 4, 5, 1, false⟩ false 0 2 1 3 false),
  (0x00010A3F, 0x20077814, .mhad ⟨1, 0, 0, 5, 2, false⟩ 3 true),
  (0x20010E3F, 0x20147815, .mqnt ⟨1, 0, 18, 5, 2, false⟩ 4 2),
  (0x2001123F, 0xA0137815, .mcvt ⟨1, 0, 18, 5, 2, true⟩ 3 2),
  (0x0000163F, 0x00017814, .mzero ⟨0, 0, 0, 5, 0, false⟩ true),
  (0x20011A3F, 0xA0517815, .mst ⟨1, 0, 18, 5, 2, true⟩ 1 10),
  (0x04811E3F, 0xA01A7814, .mld ⟨1, 18, 0, 5, 2, true⟩ 10 true)] = true := by decide

theorem test_refuses_types : refuses [
  .ladd ⟨0, 1, 2, .f32, ⟨15, false⟩⟩, .labs ⟨0, 1, .n32, ⟨15, false⟩⟩, .lbfx ⟨0, 1, .i16x2, ⟨15, false⟩⟩ 0 0 false,
  .lfadd ⟨0, 2, 4, .i32, ⟨15, false⟩⟩, .lfcmp ⟨0, 2, 4, .f16x2, ⟨15, false⟩⟩ 0, .lcvt ⟨0, 1, .f32, ⟨15, false⟩⟩ 0 1 false 0,
  .lred ⟨0, 1, .f32, ⟨15, false⟩⟩ 3, .laddS32 ⟨0, 1, 2, .f32⟩, .lfrcpS32 ⟨0, 1, .i32⟩, .lmad ⟨0, 1, 2, 3, .f32, ⟨15, false⟩⟩] = true := by decide

theorem test_refuses_odd_pairs : refuses [
  .lfadd ⟨1, 2, 4, .f64, ⟨15, false⟩⟩, .lfadd ⟨0, 3, 4, .f64, ⟨15, false⟩⟩, .lfadd ⟨0, 2, 5, .f64, ⟨15, false⟩⟩,
  .lfma ⟨0, 2, 4, 7, .f64, ⟨15, false⟩⟩, .lfaddS32 ⟨0, 2, 5, .f64⟩, .lmovi 1 0 .f64 ⟨15, false⟩, .lextr 0 1 .f64 0,
  .lins 1 0 .f64 0, .lbcast ⟨1, 0, .f64, ⟨15, false⟩⟩, .lfclass ⟨0, 1, .f64, ⟨15, false⟩⟩ 1] = true := by decide

theorem test_refuses_guards : refuses [
  .ladd ⟨0, 1, 2, .i32, ⟨12, false⟩⟩, .ladd ⟨0, 1, 2, .i32, ⟨14, true⟩⟩, .ladd ⟨0, 1, 2, .i32, ⟨15, true⟩⟩,
  .lmovi 0 0 .i32 ⟨13, false⟩, .lgets 0 ⟨15, true⟩ 0, .plog 0 0 0 ⟨12, false⟩ 0] = true := by decide

theorem test_refuses_registers : refuses [
  .lcmp ⟨12, 0, 0, .i32, ⟨15, false⟩⟩ 0, .lfclass ⟨12, 0, .f32, ⟨15, false⟩⟩ 1, .lballot 32 0, .lballot 0 12, .emset 32, .emget 32,
  .emand 32 0 false, .emand 0 12 false, .pmovPred 12 0 ⟨15, false⟩, .pmovFromX 0 32 ⟨15, false⟩, .pmovToX 0 12,
  .plog 0 0 12 ⟨15, false⟩ 0, .lextr 32 0 .i32 0, .lins 0 32 .i32 0, .ltrns 1 0, .ltrns 0 33] = true := by decide

theorem test_refuses_variants : refuses [
  .lbfx ⟨0, 1, .i32, ⟨15, false⟩⟩ 1 31 false, .lbfi ⟨0, 1, 2, .i32, ⟨15, false⟩⟩ 31 1, .lsel ⟨0, 1, 2, .i32, ⟨15, false⟩⟩ 12 false,
  .lcmp ⟨0, 1, 2, .i32, ⟨15, false⟩⟩ 6, .laddc ⟨0, 1, 2, .i32, ⟨15, false⟩⟩ 0 12 false, .laddc ⟨0, 1, 2, .i32, ⟨15, false⟩⟩ 12 0 true,
  .laddc ⟨0, 1, 2, .i32, ⟨15, false⟩⟩ 1 0 false, .lfsgn ⟨0, 1, 2, .f32, ⟨15, false⟩⟩ 3, .lshfl ⟨0, 1, 0, .i32, ⟨15, false⟩⟩ 5 0,
  .lshfl ⟨0, 1, 2, .i32, ⟨15, false⟩⟩ 0 1, .lshfl ⟨0, 1, 2, .i32, ⟨15, false⟩⟩ 1 1, .lred ⟨0, 1, .i32, ⟨15, false⟩⟩ 6,
  .lscan ⟨0, 1, .i32, ⟨15, false⟩⟩ 7 false, .lgets 0 ⟨15, false⟩ 6] = true := by decide

theorem test_refuses_conversions : refuses [
  .lcvt ⟨0, 1, .i32, ⟨15, false⟩⟩ 12 0 false 0, .lcvt ⟨0, 1, .i32, ⟨15, false⟩⟩ 0 15 false 0, .lcvt ⟨0, 1, .i32, ⟨15, false⟩⟩ 3 3 false 0,
  .lcvt ⟨0, 1, .i32, ⟨15, false⟩⟩ 0 1 true 0, .lcvt ⟨0, 1, .i32, ⟨15, false⟩⟩ 0 1 false 2, .lcvt ⟨1, 2, .i32, ⟨15, false⟩⟩ 11 0 false 0,
  .lcvt ⟨0, 63, .i32, ⟨15, false⟩⟩ 5 0 false 0, .lcvt ⟨0, 2, .i32, ⟨15, false⟩⟩ 3 11 true 0, .lpack ⟨0, 1, 2, .i32, ⟨15, false⟩⟩ 0,
  .lpack ⟨0, 1, 2, .i32, ⟨15, false⟩⟩ 11, .lunpk ⟨0, 1, .i32, ⟨15, false⟩⟩ 0 0, .lunpk ⟨0, 1, .i32, ⟨15, false⟩⟩ 1 2] = true := by decide

theorem test_refuses_lane_memory : refuses [
  .lld ⟨0, 32, 0, 0, 2, false, ⟨15, false⟩⟩ 0, .lld ⟨0, 0, 0, 5, 2, false, ⟨15, false⟩⟩ 0, .lld ⟨0, 0, 0, 0, 2, true, ⟨15, false⟩⟩ 0,
  .lld ⟨1, 0, 0, 0, 3, false, ⟨15, false⟩⟩ 0, .lld ⟨0, 0, 0, 0, 2, false, ⟨15, false⟩⟩ 3, .lst ⟨0, 0, 0, 0, 0, true, ⟨15, false⟩⟩ 0,
  .lldt ⟨0, 0, 0, 0, 1, false, ⟨15, false⟩⟩ 0, .lldt ⟨1, 0, 0, 0, 2, false, ⟨15, false⟩⟩ 0, .lldt ⟨0, 0, 0, 0, 2, false, ⟨0, false⟩⟩ 0,
  .lldt ⟨0, 0, 32, 0, 2, false, ⟨15, false⟩⟩ 0, .lpref ⟨1, 0, 0, 0, 0, false, ⟨15, false⟩⟩ 0, .lprefImm ⟨0, 0, 0, 0, 0, true, ⟨15, false⟩⟩ 0,
  .lamo ⟨0, 0, 0, 0, 1, false, ⟨15, false⟩⟩ 0 0 0 0, .lamo ⟨0, 0, 0, 0, 2, false, ⟨15, false⟩⟩ 11 0 0 0,
  .lamo ⟨0, 0, 0, 0, 3, false, ⟨15, false⟩⟩ 10 0 0 0, .lamo ⟨0, 0, 0, 0, 2, false, ⟨15, false⟩⟩ 0 5 0 0] = true := by decide

theorem test_refuses_jobs_and_fences : refuses [
  .lamo ⟨0, 0, 0, 0, 2, false, ⟨15, false⟩⟩ 0 0 7 0, .lamo ⟨0, 0, 0, 0, 3, false, ⟨15, false⟩⟩ 0 0 0 1,
  .mzero ⟨32, 0, 0, 0, 0, false⟩ false, .mzero ⟨0, 0, 0, 0, 7, false⟩ false, .mma ⟨0, 1, 2, 0, 0, false⟩ false 0 0 0 false,
  .mma ⟨0, 2, 32, 0, 0, false⟩ false 0 0 0 false, .mma ⟨0, 2, 4, 0, 0, false⟩ false 1 0 0 false, .mma ⟨0, 2, 4, 0, 0, false⟩ false 0 1 0 false,
  .mma ⟨0, 2, 4, 0, 0, false⟩ false 0 0 0 true, .mhad ⟨0, 2, 0, 0, 0, false⟩ 1 false, .mhad ⟨0, 0, 0, 0, 0, false⟩ 0 false,
  .mqnt ⟨0, 0, 2, 0, 0, false⟩ 5 0, .mcvt ⟨0, 0, 2, 0, 0, false⟩ 0 3, .mst ⟨0, 0, 2, 15, 0, false⟩ 0 1, .mld ⟨0, 2, 2, 0, 0, false⟩ 0 false,
  .spw 12 0 0, .pfence 7 1, .pfence 0 0, .px ⟨6, 0, false, false⟩, .px ⟨0, 3, false, false⟩] = true := by decide

/-- R28, R29: words that name no instruction: a reserved funct7, funct3, operation, group, a bad guard or sense, an unused field
set, a reserved width. -/
theorem test_decode_rejects : rejects [(0x00000001, 0), (0x0000007F, 0), (0x0800000B, 0), (0x0800302B, 0), (0x0000505B, 0),
    (0x0000603F, 0x7800), (0x000002BF, 0x7800), (0x0000003F, 0x6000), (0x0000003F, 0xF800), (0x0000003F, 0x7804),
    (0x0000108F, 0), (0x40001013, 0), (0x0000102F, 0)] = true := by decide

/-! ## The hypotheses of the statements, met

One theorem for each statement, or clause of it, whose hypotheses say more than that a hart acts. -/

theorem witness_DecodeEncodeAgree : (Instr.add 10 11 12).wellFormed = true ∧ encode (.add 10 11 12) = some 0x00C58533 ∧
    decode 0x00C58533 0 = .ok (.add 10 11 12) := by decide

/-- A package about to fetch a word. -/
def fetching (w : Nat) : State := State.reset.withFetchWord 32 w

theorem witness_StepRunsDecodedInstruction (w : Nat) (hw : w = 0x00C58533 ∨ w = 0) :
    ∃ h, (fetching w).dueEvent = none ∧ (fetching w).alert = none ∧ (fetching w).nextHart = some (0, h) ∧ h.run.wait = none ∧
      h.run.second = none ∧ h.run.entering = none ∧ h.run.barw = false ∧ h.causePending = false ∧ h.haltPending = false ∧ h.noticeReady = false ∧
      h.otherIrq = none ∧ h.run.yielded = none ∧ h.tsc = false ∧
      ({ fetching w with cur := 0, nextCore := turnOf 0 + 1 } : State).savable h = false := by
  rcases hw with rfl | rfl <;> exact ⟨Hart.reset.atCode, by decide +kernel⟩

/-- The pair of words a fetch answers. -/
def fetched (w : Nat) : Option (Word × Word) :=
  match ({ fetching w with cur := 0, nextCore := turnOf 0 + 1 } : State).fetchPair Hart.reset.atCode 0x10000 with
  | .ok v _ => some v
  | .trap .. => none
  | .park .. => none

theorem witness_StepRunsDecodedInstruction_words : fetched 0x00C58533 = some (0x00C58533, 0) ∧
    fetched 0 = some (0, 0) ∧ decode 0 0 = .error .halfword ∧
    (({ fetching 0x00C58533 with cur := 0 } : State).core 0).dbg.pcCmp.toList.all (fun c => !cmpEn c) := by decide +kernel

theorem witness_ScalarResults : (lone (hart [])).hart? (lone (hart [])).cur = some (hart []) := by decide +kernel

theorem witness_ScalarControlFlow : ((0x10000 : DWord) + ((0x003 : BitVec 12) ++ 0#1).signExtend 64).getLsbD 1 = true ∧
    ((0x10000 : DWord) + ((0x802 : BitVec 12) ++ 0#1).signExtend 64).getLsbD 1 = false ∧
    ((0x10000 : DWord) + ((0x802 : BitVec 12) ++ 0#1).signExtend 64).toNat ≤ (0x10000 : DWord).toNat := by decide

/-- A hart with a chosen delegation register. -/
def deleg (d : DWord) (h : Hart) : Hart := { h with csr := { h.csr with medeleg := d } }

theorem witness_EnvironmentCalls : ∀ h ∈ [hart [], hartAt .S [(17, 0)], deleg 0 (hart []), deleg 0 (hartAt .S [(17, 1)]),
    deleg 0 (hartAt .S [(17, 2)]), deleg 0 (hartAt .S [(17, 3)]), hartAt .M []], (lone h).hart? (lone h).cur = some h ∧
    ((lone h).core (coreOf (lone h).cur)).dbg.ebh = false := by decide +kernel

theorem witness_EnvironmentCalls_levels : (hart []).priv = .U ∧ (hart []).csr.medeleg.getLsbD 8 = true ∧
    (deleg 0 (hart [])).csr.medeleg.getLsbD 8 = false ∧ (deleg 0 (hart [])).csr.medeleg.getLsbD 3 = false ∧
    (deleg 0x200 (hartAt .S [])).csr.medeleg.getLsbD 9 = true ∧ (hartAt .S [(17, 0)]).csr.medeleg.getLsbD 9 = false ∧
    (hartAt .S [(17, 0)]).getX 17 = 0 ∧ (deleg 0 (hartAt .S [(17, 1)])).getX 17 = 1 ∧ (deleg 0 (hartAt .S [(17, 2)])).getX 17 = 2 ∧
    (deleg 0 (hartAt .S [(17, 3)])).getX 17 = 3 ∧ (hartAt .M []).priv = .M ∧ (hart []).csr.medeleg.getLsbD 3 = true := by
  decide +kernel

/-- A state whose core 0 halts on `ebreak`. -/
def halting (h : Hart) : State := (lone h).modCore 0 (fun c => { c with dbg := { c.dbg with ebh := true } })

theorem witness_EnvironmentCalls_halt : (halting (hart [])).hart? (halting (hart [])).cur = some (hart []) ∧
    ((halting (hart [])).core (coreOf (halting (hart [])).cur)).dbg.ebh = true := by decide +kernel

/-- A hart with a chosen status register. -/
def status (m : DWord) (h : Hart) : Hart := { h with csr := { h.csr with mstatus := m } }

theorem witness_ReturnsFromTraps : (hartAt .M []).priv = .M ∧ (hartAt .S []).csr.mstatus.getLsbD 22 = false ∧
    (status 0x1800 (hartAt .M [])).csr.mstatus.extractLsb' 11 2 = 3 ∧ (status 0x800 (hartAt .M [])).csr.mstatus.extractLsb' 11 2 = 1 ∧
    (status 0 (hartAt .M [])).csr.mstatus.extractLsb' 11 2 = 0 ∧ (status 0x100 (hartAt .S [])).csr.mstatus.getLsbD 8 = true := by
  decide +kernel

/-- A hart that waits in M for the firmware's answer to a call of S. -/
def asking : Hart :=
  let h := hartAt .M [(11, 77)]
  { h with csr := { h.csr with mcause := 9, mepc := 0x20000, mstatus := 0x880 }, run := { h.run with wait := some .firmware } }

def asked : State := { lone asking with arg := { nats := [0] } }

theorem witness_ReturnsFromTraps_answers : asked.arg.nats = [0] ∧ asked.hart? 0 = some asking ∧ asking.run.wait = some .firmware ∧
    asking.csr.mcause = 9 ∧ asking.mpp = .S ∧ asked.part? asking.role.part = some part0 := by decide +kernel

theorem witness_PrivilegedInstructionsTrap : (hart []).run.pair = none ∧ (hart []).csr.medeleg.getLsbD 2 = true ∧ (hart []).priv = .U ∧
    [(0x100000 : DWord), 0x200000, 0x400000].all (fun m => (status m (hartAt .S [])).priv == .S &&
      ((status m (hartAt .S [])).csr.mstatus.getLsbD 20 || (status m (hartAt .S [])).csr.mstatus.getLsbD 21
        || (status m (hartAt .S [])).csr.mstatus.getLsbD 22)) = true := by decide +kernel

theorem witness_CsrAccesses : (hart []).csrAllowed 0x800 false = true ∧ (hartAt .S []).csrAllowed 0x180 true = true ∧
    (hartAt .M []).csrAllowed 0x300 true = true ∧ (hartAt .M []).priv = .M ∧ (lone (hartAt .M [])).part? 0 = some part0 ∧
    (hart []).csr.medeleg.getLsbD 2 = true ∧ (hart []).csrAllowed 0x100 true = false ∧ (hart []).csrAllowed 0x100 false = false ∧
    (hartAt .S []).csrAllowed 0xC00 true = false := by decide +kernel

theorem witness_CsrAccesses_counters : (hartAt .S []).priv = .S ∧
    ({ hartAt .S [] with csr := { Csr.reset with mcounteren := 0 } } : Hart).csr.mcounteren = 0 := by decide

/-- A package whose hart is about to take the second cycle of an f64 operation. -/
def halfway : State :=
  let s := fetching 0
  s.setHart 0 { Hart.reset.atCode with run := { Hart.reset.atCode.run with second := some (.lfadd ⟨0, 2, 4, .f64, ⟨15, false⟩⟩) } }

theorem witness_StepRunsDecodedInstruction_second : ∃ h, halfway.dueEvent = none ∧ halfway.alert = none ∧
    halfway.nextHart = some (0, h) ∧ h.run.wait = none ∧ h.run.second = some (.lfadd ⟨0, 2, 4, .f64, ⟨15, false⟩⟩) :=
  ⟨{ Hart.reset.atCode with run := { Hart.reset.atCode.run with second := some (.lfadd ⟨0, 2, 4, .f64, ⟨15, false⟩⟩) } },
    by decide +kernel⟩

theorem unwatched {s : State} {h : Hart} (c : h.run.passCmp = true) (acc : BitVec 2) (a : List (Nat × DWord)) (n : Nat) :
    s.dataMatch h acc a n = none := by simp [State.dataMatch, c]

/-- A hart with an address in a register, a store value and a reservation. -/
def atLine (a : DWord) (r : Option Line) : Hart :=
  let h := hart [(11, a), (12, 0x1122334455667788)]
  { h with run := { h.run with resv := r } }

theorem witness_ScalarLoadsAndStores : (lone (atLine 0x11000 none)).hart? 0 = some (atLine 0x11000 none) ∧
    PlainAccess (lone (atLine 0x11000 none)) (atLine 0x11000 none) ((atLine 0x11000 none).getX 11 + (0 : BitVec 12).signExtend 64) .load 8 0x11000 ∧
    PlainAccess (lone (atLine 0x11000 none)) (atLine 0x11000 none) ((atLine 0x11000 none).getX 11 + (0x7F : BitVec 12).signExtend 64) .load 1 0x1107F ∧
    PlainAccess (lone (atLine 0x11000 none)) (atLine 0x11000 none) ((atLine 0x11000 none).getX 11 + (0x7C : BitVec 12).signExtend 64) .store 4 0x1107C ∧
    PlainAccess (lone (atLine 0x11100 none)) (atLine 0x11100 none) ((atLine 0x11100 none).getX 11 + (0xF00 : BitVec 12).signExtend 64) .store 2 0x11000 :=
  ⟨by decide +kernel, plain (by decide +kernel), plain (by decide +kernel), plain (by decide +kernel), plain (by decide +kernel)⟩

theorem witness_AtomicAccesses (r : Option Line) (hr : r = none ∨ r = some ⟨0, 0x11000 / 128⟩ ∨ r = some ⟨0, 0x11080 / 128⟩) :
    (lone (atLine 0x11000 r)).hart? 0 = some (atLine 0x11000 r) ∧ (atLine 0x11000 r).dev.tbm = 0 ∧
    (atLine 0x11000 r).role.part = 0 ∧ (atLine 0x11000 r).run.resv = r ∧
    PlainAccess (lone (atLine 0x11000 r)) (atLine 0x11000 r) ((atLine 0x11000 r).getX 11) .load 8 0x11000 ∧
    PlainAccess (lone (atLine 0x11000 r)) (atLine 0x11000 r) ((atLine 0x11000 r).getX 11) .store 4 0x11000 := by
  rcases hr with rfl | rfl | rfl <;>
    exact ⟨by decide +kernel, by decide +kernel, by decide +kernel, by decide +kernel, plain (by decide +kernel), plain (by decide +kernel)⟩

theorem witness_ScalarAddressTraps : ∀ h ∈ [hart [(11, 0x11001)], hartAt .S [(11, 0x11001)], hartAt .M [(11, 0x11001)]],
    (lone h).hart? 0 = some h ∧ (lone h).ordered h = false ∧ h.run.passCmp = true ∧
    ((h.priv ≠ .M ∧ h.csr.medeleg.getLsbD 4 = true ∧ h.csr.medeleg.getLsbD 6 = true) ∨ h.priv = .M) ∧
    (h.getX 11 + (0 : BitVec 12).signExtend 64).toNat % 2 ≠ 0 ∧ (h.getX 11).toNat % 8 ≠ 0 := by decide +kernel

/-- A hart under a translation mode. -/
def mapped (m : DWord) (h : Hart) : Hart := { h with csr := { h.csr with satp := m } }

theorem witness_ScalarAddressTraps_canonical : ∀ h ∈ [mapped 0x9000000000000001 (hart [(11, 0x0000800000000000)]),
      mapped 0xA000000000000001 (hart [(11, 0x0100000000000000)])],
    (lone h).hart? 0 = some h ∧ (lone h).ordered h = false ∧ h.run.passCmp = true ∧ h.priv = .U ∧
    h.csr.medeleg.getLsbD 13 = true ∧ h.csr.medeleg.getLsbD 15 = true ∧
    ((satpMode h.csr.satp = 9 ∧ h.getX 11 ≠ (((h.getX 11).setWidth 48 : BitVec 48).signExtend 64))
      ∨ (satpMode h.csr.satp = 10 ∧ h.getX 11 ≠ (((h.getX 11).setWidth 57 : BitVec 57).signExtend 64))) ∧
    (h.getX 11).toNat % 8 = 0 := by decide +kernel

theorem witness_Fences : ∀ h ∈ [hart [], hartAt .S [(11, 0x11000), (12, 3)], hartAt .M []], (lone h).hart? 0 = some h ∧
    ((lone h).core (coreOf (lone h).cur)).flight = [] ∧ h.dev.tbm = 0 ∧ h.dev.tbmf = false ∧ (lone h).ordered h = false ∧
    (lone h).latency = 0 ∧ (lone h).walksOf h.role.part = false ∧
    (h.priv = .U ∨ h.priv = .M ∨ (h.priv = .S ∧ h.csr.mstatus.getLsbD 20 = false)) := by decide +kernel

/-- A hart with two occupied lanes in its mask, some v registers, a predicate and a rounding mode. -/
def laneHart (rm : BitVec 3) (vs : List (Nat × Word)) : Hart :=
  let h := hart [(11, 0x11000)]
  { h with
    lanes := { Lanes.reset with v := vs, p := Vector.replicate 12 1, em := 3, occ := 3 }
    dev := { h.dev with lrm := rm } }

theorem witness_LaneIntegerResults : let h := laneHart 0 [(0, 5), (1, 0xFFFFFFFF), (32, 7), (33, 0x80000000)]
    (lone h).hart? 0 = some h ∧ h.run.lent = [] ∧ Map.sorted h.lanes.v = true ∧
    (Instr.lmul ⟨2, 0, 1, .i32, ⟨15, false⟩⟩).wellFormed = true ∧ h.active ⟨15, false⟩ 1 = true ∧ h.active ⟨15, false⟩ 2 = false := by
  decide +kernel

theorem witness_LaneSelectionsAndPredicates : let h := laneHart 0 [(0, 5), (32, 7)]
    (lone h).hart? 0 = some h ∧ h.run.lent = [] ∧ Map.sorted h.lanes.v = true ∧ (lone h).pfmask h 4 = false ∧
    (Instr.lsel ⟨2, 4, 6, .f64, ⟨15, false⟩⟩ 3 true).wellFormed = true ∧ (Instr.lsel ⟨2, 4, 6, .f32, ⟨15, false⟩⟩ 3 true).wellFormed = true ∧
    (Instr.lselImm ⟨2, 4, 0x3C00, .f64, ⟨15, false⟩⟩ 3 true).wellFormed = true ∧
    (Instr.laddc ⟨2, 4, 6, .i32, ⟨15, false⟩⟩ 0 11 true).wellFormed = true ∧ (Instr.lcmp ⟨11, 4, 6, .n32, ⟨15, false⟩⟩ 5).wellFormed = true := by
  decide +kernel

theorem witness_LaneMasksAndScalars : let h := laneHart 0 [(0, 5)]
    (lone h).hart? 0 = some h ∧ (lone h).pfmask h 4 = false ∧ (Instr.lextr 5 4 .f64 31).wellFormed = true := by decide +kernel

theorem witness_LaneMoves : let h := laneHart 0 [(0, 5), (32, 7)]
    (lone h).hart? 0 = some h ∧ h.run.lent = [] ∧ Map.sorted h.lanes.v = true ∧ (lone h).pfmask h 4 = false ∧
    (lone h).pfmask h 7 = false ∧ (Instr.ltrns 32 0).wellFormed = true := by decide +kernel

theorem witness_BlockTransposed : let h := laneHart 0 [(0, 5), (32, 7)]
    (lone h).hart? 0 = some h ∧ h.run.lent = [] ∧ Map.sorted h.lanes.v = true ∧ (lone h).pfmask h 7 = false ∧
    (Instr.ltrns 0 0).wellFormed = true ∧ (Instr.ltrns 0 32).wellFormed = true := by decide +kernel

theorem witness_LaneFloatArithmetic : ∀ h ∈ [laneHart 0 [(0, 0x3F800000)], laneHart 1 [], laneHart 2 [], laneHart 3 [], laneHart 4 [],
      laneHart 5 []], h.rounding.isSome = true ∧ (lone h).hart? 0 = some h ∧ h.run.lent = [] ∧ Map.sorted h.lanes.v = true ∧
    (lone h).pfmask h 4 = false ∧ (lone h).pfmask h 5 = false := by decide +kernel

theorem witness_LaneFloatArithmetic_cycles : let h := laneHart 0 [(0, 5)]
    let g : Hart := { h with run := { h.run with second := some (.lfadd ⟨0, 2, 4, .f64, ⟨15, false⟩⟩) } }
    (lone h).hart? 0 = some h ∧ h.run.second = none ∧ (lone h).pfmask h 4 = false ∧ h.rounding = some .rne ∧
    (lone g).hart? 0 = some g ∧ g.run.second ≠ none ∧ (lone g).pfmask g 4 = false ∧ g.run.lent = [] := by decide +kernel

theorem witness_FloatValuesAndRounding : (⟨true, 3, -1, false⟩ : XReal).neg = true ∧ (⟨true, 3, -1, false⟩ : XReal).isZero = false ∧
    3 % 2 ^ 1 ≠ 0 ∧ 2 * (3 % 2 ^ 1) = 2 ^ 1 ∧ 2 * (5 % 2 ^ 2) < 2 ^ 2 ∧ 2 ^ 2 < 2 * (7 % 2 ^ 2) ∧ 8 % 2 ^ 2 = 0 := by decide +kernel

theorem witness_LaneFloatSelections : let h := laneHart 0 [(0, 0x7F800001), (32, 7)]
    (lone h).hart? 0 = some h ∧ h.run.lent = [] ∧ Map.sorted h.lanes.v = true ∧ (lone h).pfmask h 4 = false ∧
    (Instr.lfcmp ⟨11, 4, 6, .f64, ⟨15, false⟩⟩ 7).wellFormed = true ∧ (Instr.lfclass ⟨0, 4, .f32, ⟨15, false⟩⟩ 0x3FF).wellFormed = true ∧
    (FVal.nan false true).isNan = true := by decide +kernel

theorem witness_LaneConversions : let h := laneHart 0 [(0, 0x3F800000)]
    (lone h).hart? 0 = some h ∧ h.run.lent = [] ∧ Map.sorted h.lanes.v = true ∧ h.rounding = some .rne ∧
    (lone h).pfmask h 4 = false ∧ (lone h).pfmask h 5 = false := by decide +kernel

theorem witness_LaneConversions_range : ((roundUnits .rne 0 ⟨true, 257, -1, false⟩ 0).1 : Int) = 128 ∧
    ((roundUnits .rne 0 ⟨false, 127, 0, false⟩ 0).1 : Int) < 2 ^ (8 - 1) ∧ (2 : Int) ^ (8 - 1) ≤ (roundUnits .rne 0 ⟨false, 128, 0, false⟩ 0).1 ∧
    -((roundUnits .rne 0 ⟨true, 129, 0, false⟩ 0).1 : Int) < -(2 ^ (8 - 1)) := by decide +kernel

theorem witness_LaneCollectives : let h := laneHart 5 [(0, 5), (1, 0xFFFFFFFF)]
    (lone h).hart? 0 = some h ∧ h.run.lent = [] ∧ Map.sorted h.lanes.v = true ∧ h.rounding = some .sr ∧
    (lone h).pfmask h 4 = false ∧ (lone h).pfmask h 5 = false := by decide +kernel

theorem witness_LaneCollectives_tree : let h := laneHart 0 [(0, 5), (1, 0xFFFFFFFF)]
    [0, 1].Pairwise (· < ·) ∧ (0, 4) ∈ (collectiveValues h 0 .i32 .rne [0, 1] 0 none).1 ∧
    (1, 5) ∈ (collectiveValues h 3 .i32 .rne [0, 1] 0 none).1 ∧ (0, 0xFFFFFFFF) ∈ (collectiveValues h 4 .i32 .rne [0, 1] 0 none).1 ∧
    (0, 0xFFFFFFFA) ∈ (collectiveValues h 5 .i32 .rne [0, 1] 0 none).1 ∧ (0, 5) ∈ (collectiveValues h 1 .n32 .rne [0, 1] 0 none).1 ∧
    (0, 0xFFFFFFFF) ∈ (collectiveValues h 2 .n32 .rne [0, 1] 0 none).1 ∧ (0, 0xFFFFFFFF) ∈ (collectiveValues h 1 .i32 .rne [0, 1] 0 none).1 ∧
    (0, 5) ∈ (collectiveValues h 2 .i32 .rne [0, 1] 0 none).1 := by decide +kernel

/-- A partition that masks features. -/
def masked (m : BitVec 8) (h : Hart) : State := { lone h with parts := [(0, { part0 with pfmask := m })] }

theorem witness_MaskedInstructionsTrap : let h := laneHart 5 []
    (masked 0xB0 h).hart? 0 = some h ∧ h.priv ≠ .M ∧ h.csr.medeleg.getLsbD 2 = true ∧ (masked 0xB0 h).pfmask h 4 = true ∧
    (masked 0xB0 h).pfmask h 5 = true ∧ (masked 0xB0 h).pfmask h 7 = true ∧ h.rounding = some .sr ∧
    (Instr.lfadd ⟨2, 4, 6, .f64, ⟨15, false⟩⟩).wellFormed = true := by decide +kernel

theorem witness_MaskedInstructionsTrap_mode : ∀ h ∈ [laneHart 6 [], laneHart 7 []], (lone h).hart? 0 = some h ∧ h.priv ≠ .M ∧
    h.csr.medeleg.getLsbD 2 = true ∧ (lone h).pfmask h 4 = false ∧ h.run.pair = none ∧ 6 ≤ h.dev.lrm.toNat := by decide +kernel

/-- A line of code in the instruction cache of core 0: at 0x10004 a word pair, `ladd` of R26's form or one that is none. -/
def paired (h : Hart) (pair : Nat) : State :=
  let s := world [(0, h)] [(0x10000, pair * 2 ^ 32)]
  match s.fetchPair h (h.pc + 4) with
  | .ok _ t => t
  | .trap .. => s
  | .park .. => s

/-- Words that a fetch answers without a change of the package, decided. -/
def fetches (s : State) (h : Hart) (va : DWord) (lo hi : Word) : Bool :=
  match s.fetchPair h va with
  | .ok v t => v == (lo, hi) && decide (t = s)
  | .trap .. => false
  | .park .. => false

theorem fetches_ok {s : State} {h : Hart} {va : DWord} {lo hi : Word} (c : fetches s h va lo hi = true) :
    s.fetchPair h va = .ok (lo, hi) s := by
  unfold fetches at c
  split at c
  · next e => simp only [Bool.and_eq_true, beq_iff_eq, decide_eq_true_eq] at c; obtain ⟨rfl, rfl⟩ := c; exact e
  · cases c
  · cases c

theorem witness_PrefixPairs : (paired (laneHart 0 []) 0x00000003_AF3E003F).hart? 0 = some (laneHart 0 []) ∧
    (paired (laneHart 0 []) 0x00000003_AF3E003F).fetchPair (laneHart 0 []) 0x10004 =
      .ok (0xAF3E003F, 0x00000003) (paired (laneHart 0 []) 0x00000003_AF3E003F) ∧
    (∀ lanes pcs, (paired (laneHart 0 []) 0x00000003_AF3E003F).pcMatch (laneHart 0 []) lanes pcs = none) ∧
    prefixable 0xAF3E003F = true ∧ decode 0xAF3E003F 0x00000003 = .ok (.ladd ⟨62, 60, 58, .i32, ⟨0, false⟩⟩) ∧ (laneHart 0 []).pc + 4 = 0x10004 ∧ (laneHart 0 []).priv ≠ .M ∧
    (laneHart 0 []).csr.medeleg.getLsbD 24 = true ∧ (laneHart 0 []).run.lent = [] ∧ Map.sorted (laneHart 0 []).lanes.v = true :=
  ⟨by decide +kernel, fetches_ok (by decide +kernel), fun _ _ => by simp [State.pcMatch, laneHart, hart], by decide +kernel, by decide +kernel,
    by decide +kernel, by decide +kernel, by decide +kernel, by decide +kernel, by decide +kernel⟩

theorem witness_PrefixPairs_other : (paired (laneHart 0 []) 0x00C58533).fetchPair (laneHart 0 []) 0x10004 =
      .ok (0x00C58533, 0) (paired (laneHart 0 []) 0x00C58533) ∧ prefixable 0x00C58533 = false :=
  ⟨fetches_ok (by decide +kernel), by decide +kernel⟩

/-- Operands of an event. -/
def told (ns : List Nat) (s : State) : State := { s with arg := { nats := ns } }

theorem witness_BoundaryTraps : ∀ h ∈ [hart [], hartAt .M []], (told [0, 0xFFFFFFFF] (lone h)).hart? 0 = some h ∧
    (told [0, 0xFFFFFFFF] (lone h)).arg.nats = [0, 0xFFFFFFFF] ∧ h.run.wait = none ∧ h.run.halted = false ∧ h.run.entering = none ∧ h.run.second = none ∧
    h.run.busyUntil ≤ (lone h).now ∧ ((h.priv ≠ .M ∧ h.csr.medeleg.getLsbD 2 = true ∧ h.csr.medeleg.getLsbD 12 = true) ∨ h.priv = .M) := by
  decide +kernel

/-- A hart with asynchronous causes or interrupts pending. -/
def pending (p : Priv) (f : Run → Run) (e : DWord) : Hart :=
  let h := hartAt p []
  { h with run := f h.run, csr := { h.csr with mie := e } }

theorem witness_BoundaryTraps_async : let a := pending .U (fun r => { r with aq := [(27, 0x10040), (30, 5)] }) 0
    let b := pending .S (fun r => { r with aqOvf := true }) 0
    a.run.aq = [(27, 0x10040), (30, 5)] ∧ a.priv ≠ .M ∧ a.csr.medeleg.getLsbD 27 = true ∧ a.run.wait = none ∧ a.run.halted = false ∧
    b.run.aq = [] ∧ b.run.aqOvf = true ∧ b.priv ≠ .M ∧ b.csr.medeleg.getLsbD 27 = true := by decide +kernel

theorem witness_Interrupts : let all := pending .U (fun r => { r with irq16 := some 1, irq17 := some 2, irq18 := some 3, iq19 := [4, 5] }) 0xF0000
    let some18 := pending .U (fun r => { r with irq16 := some 1, irq17 := some 2, irq18 := some 3 }) 0xD0000
    let some16 := pending .U (fun r => { r with irq16 := some 1, iq19 := [4, 5] }) 0xF0000
    let done := pending .U (fun r => { r with iq19 := [4, 5] }) 0x80000
    let over_ := pending .U (fun r => { r with iq19Ovf := true }) 0x80000
    let ready := fun (h : Hart) (m : Nat) => h.mip.getLsbD m && h.csr.mie.getLsbD m && h.csr.mideleg.getLsbD m && h.priv == .U
    ready all 17 ∧ all.run.irq17 = some 2 ∧ ready some18 18 ∧ ready some18 17 = false ∧ some18.run.irq18 = some 3 ∧
    ready some16 16 ∧ some16.mip.getLsbD 17 = false ∧ some16.mip.getLsbD 18 = false ∧ some16.run.irq16 = some 1 ∧
    ready done 19 ∧ done.mip.getLsbD 16 = false ∧ done.run.iq19 = [4, 5] ∧ ready over_ 19 ∧ over_.run.iq19 = [] ∧
    all.run.wait = none ∧ all.run.halted = false ∧ all.run.entering = none ∧ all.run.second = none ∧ all.run.spawn = none ∧ all.run.aq = [] ∧ all.run.aqOvf = false := by
  decide +kernel

/-- A hart that the firmware takes interrupts for. -/
def keptByM (h : Hart) : Hart := { h with csr := { h.csr with mideleg := 0 } }

theorem witness_Interrupts_firmware : let h := keptByM (pending .S (fun r => { r with irq17 := some 2 }) 0x20000)
    (told [0] (lone h)).hart? 0 = some h ∧ h.mip.getLsbD 17 = true ∧ h.csr.mie.getLsbD 17 = true ∧ h.csr.mideleg.getLsbD 17 = false ∧
    h.priv ≠ .M := by decide +kernel

/-- A hart that waits. -/
def waiting (w : Wait) : Hart :=
  let h := hartAt .S []
  { h with run := { h.run with wait := some w } }

theorem witness_Interrupts_wfi : let s := hartAt .S []
    let p := pending .S (fun r => { r with irq17 := some 2 }) 0x20000
    let w := { p with run := { p.run with wait := some .wfi } }
    (lone s).hart? 0 = some s ∧ s.csr.mstatus.getLsbD 21 = false ∧ s.mip &&& s.csr.mie = 0 ∧ p.mip &&& p.csr.mie ≠ 0 ∧
    w.run.wait = some .wfi ∧ w.mip &&& w.csr.mie ≠ 0 := by decide +kernel

theorem witness_Interrupts_hang : let h := pending .U (fun r => { r with lastBack := some 0x10000, hangHeld := 0x100001 }) 0
    h.dev.hangthr ≠ 0 ∧ h.run.lastBack = some 0x10000 ∧ h.dev.hangthr.toNat < h.hangNow 32 := by decide +kernel

theorem witness_WaitsEnd : ∀ h ∈ [waiting (.data 5 (.ld 10 11 0)), waiting (.claim 5 (.rfl 10)), waiting (.sfence 5), waiting .ordered,
      waiting (.waita 5 10 ⟨0, 544⟩), waiting (.release 5 (.pfence 2 2)), waiting (.release 5 (.pfence 6 3))],
    (told [0, 5] (lone h)).hart? 0 = some h ∧ (lone h).walksBefore h.role.part 5 = false ∧ h.getX 0 = 0 ∧
    (lone h).echoHeld 0 = false ∧ ((lone h).core (coreOf 0)).flight = [] := by decide +kernel

/-- Core 0 with locks and requests. -/
def locked (h : Hart) (ls : Map BankLock) (qs : List (Nat × Nat)) : State :=
  (world [(0, h), (1, hart [])] []).modCore 0 (fun c => { c with locks := ls, lockq := qs })

theorem witness_BankLocks : let h := hart [(11, 31)]
    (locked h [] []).hart? 0 = some h ∧ (locked h [] []).part? 0 = some part0 ∧ (locked h [] []).ordered h = false ∧
    (h.getX 11).toNat = 31 ∧ 31 * 16384 < 524288 - part0.lend * 1024 ∧ part0.banks.getLsbD 31 = true ∧
    (locked h [] []).locksHeld 0 < 4 ∧ Map.sorted ((locked h [(31, ⟨0, 9⟩)] []).core 0).locks = true ∧
    Map.find ((locked h [(31, ⟨0, 9⟩)] []).core 0).locks 31 = some ⟨0, 9⟩ ∧
    Map.find ((locked h [(31, ⟨1, 9⟩)] []).core 0).locks 31 = some ⟨1, 9⟩ ∧ (locked h [(31, ⟨1, 9⟩)] []).locksHeld 0 < 4 := by
  decide +kernel

theorem witness_BankLocks_grant : let h := { hart [(11, 31)] with run := { Run.reset with wait := some (.lock 31 none) } }
    (locked h [] [(30, 1), (31, 0)]).hart? 0 = some h ∧
    ((locked h [] [(30, 1), (31, 0)]).core 0).lockq.find? (fun e => e.1 == 31) = some (31, 0) ∧
    h.run.wait = some (.lock 31 none) ∧ Map.find ((locked h [] [(30, 1), (31, 0)]).core 0).locks 31 = none := by decide +kernel

theorem witness_BankLocks_break : let s := told [0, 31, 9] (locked (hart [(11, 31)]) [(31, ⟨1, 9⟩)] [])
    s.arg.nats = [0, 31, 9] ∧ s.hart? 1 = some (hart []) ∧ (hart []).run.wait = none ∧ (hart []).run.aq.length < 4 := by decide +kernel

/-- An active launch of 64 indices of partition 0's queue 0. -/
def launch0 (f : Packet → Packet) : Launch := { launchOf (f { packetOf 0 with count := 64 }) 0 0 0 with activated := true }

/-- A hart of launch 0. -/
def member (m : Nat) (h : Hart) : Hart := { h with role := { h.role with launch := some 0, hidx := m, member := m } }

/-- A world with launch 0. -/
def launched (L : Launch) (hs : List (Nat × Hart)) : State :=
  { world hs [(0x11000, 0x8877665544332211), (0x11080, 0)] with launches := [(0, L)], nextLaunch := 1 }

/-- Harts of a gang, one of which may wait at a barrier of core 0 or of cluster 0. -/
def gang (whole : Bool) (w : Option Wait) (arrived : List Nat) : State :=
  let h := member 0 (hart [])
  let s := launched (launch0 (fun p => { p with gang := true })) [(0, { h with run := { h.run with wait := w } })]
  let b : Barrier := ⟨0, 0, 0, arrived, 7, 1⟩
  if whole then s.modCluster 0 (fun c => { c with bar := [b] }) else s.modCore 0 (fun c => { c with bar := [b] })

theorem witness_Barriers : ∀ whole ∈ [false, true], let s := gang whole none []
    let lists := if whole then (s.cluster 0).bar else (s.core 0).bar
    s.hart? 0 = some (member 0 (hart [])) ∧ s.launch? 0 = some (launch0 (fun p => { p with gang := true })) ∧
    (member 0 (hart [])).role.launch = some 0 ∧ (member 0 (hart [])).run.barw = false ∧ ⟨0, 0, 0, [], 7, 1⟩ ∈ lists ∧
    (member 0 (hart [])).dev.tbm = 0 ∧ (s.core 0).flight = [] := by decide +kernel

theorem witness_Barriers_release : ∀ whole ∈ [false, true], let s := gang whole (some (.barrier whole)) [0]
    let lists := if whole then (s.cluster 0).bar else (s.core 0).bar
    Map.sorted s.harts = true ∧ s.groupHarts 0 0 (if whole then none else some 0) = [0] ∧
    lists.find? (fun o => o.is 0 0 0) = some ⟨0, 0, 0, [0], 7, 1⟩ ∧ (s.hart? 0).map (fun h => h.run.wait) = some (some (.barrier whole)) := by
  decide +kernel

/-- A world with one write of hart 0 on its way. -/
def sending (a : Nat) (bs : List Byte) : State :=
  (lone (atLine 0x11000 none)).modCore 0 (fun c => { c with flight := [⟨0, 0, 0, a, bs, false, 0, none, none⟩] })

theorem witness_WritesArrive : let s := told [0, (sending 0x11078 [1, 2, 3, 4, 5, 6, 7, 8]).home 0 0x11078] (sending 0x11078 [1, 2, 3, 4, 5, 6, 7, 8])
    s.arg.nats = [0, s.home 0 0x11078] ∧ (s.core 0).flight = [⟨0, 0, 0, 0x11078, [1, 2, 3, 4, 5, 6, 7, 8], false, 0, none, none⟩] ∧ coreOf 0 = 0 ∧
    0x11078 % 128 + [1, 2, 3, 4, 5, 6, 7, 8].length ≤ 128 ∧ standsNow s 0 0x11078 = true := by decide +kernel

/-- An item of an ordered launch that has exited, with one byte held. -/
def item0 : OrdItem :=
  { index := 0, ts := 0, holder := none, claimed := true, exited := true, nonspec := false, core := 0, hart := 0,
    buf := [(1, 0, 0x100, 0xAB)], reads := [], flags := 1, children := [] }

theorem witness_WritesArrive_commit : let L := { launch0 (fun p => { p with ordered := true }) with items := [item0, { item0 with index := 1, ts := 65536 }] }
    let s := told [0] (launched L [(0, member 0 (hart []))])
    s.arg.nats = [0] ∧ s.launch? 0 = some L ∧ item0.exited = true ∧ L.pkt.open_ = false ∧ item0.children = [] ∧
    Memory.wf (s.core 0).spad = true := by decide +kernel

/-- Plain lane accesses, decided. -/
def plainLanesNow (s : State) (h : Hart) (space n : Nat) (k : AccKind) (as : List LaneAcc) (at_ : LaneAcc → Nat × Nat) : Bool :=
  (h.run.wait).isNone && !s.ordered h && h.run.passCmp && as.all (fun a => a.2.2.toNat % n == 0)
    && (space == 0 || as.all (fun a => match s.spotOf h space a.1 a.2.2.toNat n with
      | .ok q => q == at_ a
      | .error _ => false))
    && as.all (fun a => decide ((at_ a).2 + n ≤ 2 ^ 25))
    && as.all (fun a => (Map.find (s.core (at_ a).1).locks ((at_ a).2 / 16384)).isNone)
    && (space != 0 || as.all (fun a => (at_ a).1 == h.role.part
      && s.stage1 (coreOf s.cur) (h.ctx k) h.run.walks a.2.2 k == .gpa (at_ a).2 && (at_ a).2 % 4096 == a.2.2.toNat % 4096
      && decide ((at_ a).2 < 2 ^ 52) && decide (s.fillL1 (coreOf s.cur) (h.ctx k) a.2.2 = s) && standsNow s h.role.part (at_ a).2))
    && h.run.declined.isEmpty && h.run.failedPages.isEmpty && (s.core (coreOf s.cur)).l1.isEmpty && decide (s.leaveRecords s.cur = s)
    && (s.core (coreOf s.cur)).flight.isEmpty && s.latency == 0 && h.run.lent.isEmpty

theorem plainLanes {s : State} {h : Hart} {space n : Nat} {k : AccKind} {as : List LaneAcc} {at_ : LaneAcc → Nat × Nat}
    (c : plainLanesNow s h space n k as at_ = true) : PlainLanes s h space n k as at_ := by
  simp only [plainLanesNow, Bool.and_eq_true, Bool.or_eq_true, Bool.not_eq_true', beq_iff_eq, bne_iff_ne, decide_eq_true_eq,
    List.isEmpty_iff, List.all_eq_true, Option.isNone_iff_eq_none] at c
  obtain ⟨⟨⟨⟨⟨⟨⟨⟨⟨⟨⟨⟨⟨⟨c0, c1⟩, c2⟩, c3⟩, c4⟩, c5⟩, c6⟩, c7⟩, c8⟩, c9⟩, c10⟩, c11⟩, c12⟩, c13⟩, c14⟩ := c
  refine ⟨c0, c1, fun acc => unwatched c2 acc _ n, c3, ?_, fun _ => c5, ?_, ?_, ?_, ?_, c11, c12, c13, c14⟩
  · intro hs a ha
    have e := (c4.resolve_left hs) a ha
    split at e
    · next q hq => rw [hq, beq_iff_eq.mp e]
    · cases e
  · intro _ a ha l hl
    rw [c6 a ha] at hl
    cases hl
  · intro hs a ha
    obtain ⟨⟨⟨⟨⟨e1, e2⟩, e3⟩, e4⟩, e5⟩, e6⟩ := (c7.resolve_left (fun n => n hs)) a ha
    exact ⟨e1, e2, e3, e4, .inr e5, by simp [c8], by simp [c9], stands e6⟩
  · intro a _ l hl
    simp [c10, Map.find] at hl
  · simp [c10, Map.sorted]

/-- A hart whose lanes 0 and 1 hold offsets, data and comparands. -/
def memHart (base : DWord) (offs : List Word) (n : Nat) : Hart :=
  let h := laneHart 0 ((offs.zipIdx.map (fun e => (e.2, e.1))) ++ [(96, 0x11223344), (97, 0x55667788), (128, 1), (129, 2)])
  let em := BitVec.ofNat 32 (2 ^ n - 1)
  { (h.setX 11 base) with lanes := { h.lanes with em := em, occ := em } }

/-- A lane access of a hart. -/
def acc1 (h : Hart) (l : Nat) : LaneAcc :=
  (l, h.getX 11 + (h.getV 0 l).signExtend 64 + (0 : BitVec 16).signExtend 64, h.getX 11 + (h.getV 0 l).signExtend 64 + (0 : BitVec 16).signExtend 64)

def mem1 (space : BitVec 3) (size : BitVec 2) : LaneMem := ⟨3, 11, 0, space, size, false, ⟨15, false⟩⟩

theorem witness_LaneLoads : PlainLanes (lone (memHart 0x11000 [0, 8] 2)) (memHart 0x11000 [0, 8] 2) 0 8 .load
      (((memHart 0x11000 [0, 8] 2).activeLanes ⟨15, false⟩).map (acc1 (memHart 0x11000 [0, 8] 2))) (fun a => (0, a.2.2.toNat)) ∧
    PlainLanes (lone (memHart 0 [0x7FFFC, 0] 2)) (memHart 0 [0x7FFFC, 0] 2) 1 4 .load
      (((memHart 0 [0x7FFFC, 0] 2).activeLanes ⟨15, false⟩).map (acc1 (memHart 0 [0x7FFFC, 0] 2))) (fun a => (0, a.2.2.toNat)) ∧
    PlainLanes (lone (memHart 0 [65532, 0] 2)) (memHart 0 [65532, 0] 2) 3 4 .load
      (((memHart 0 [65532, 0] 2).activeLanes ⟨15, false⟩).map (acc1 (memHart 0 [65532, 0] 2))) (fun a => (0, a.2.2.toNat)) ∧
    PlainLanes (lone (memHart 0 [252, 0] 2)) (memHart 0 [252, 0] 2) 4 4 .load
      (((memHart 0 [252, 0] 2).activeLanes ⟨15, false⟩).map (acc1 (memHart 0 [252, 0] 2))) (fun a => (a.1, a.2.2.toNat)) :=
  ⟨plainLanes (by decide +kernel), plainLanes (by decide +kernel), plainLanes (by decide +kernel), plainLanes (by decide +kernel)⟩

theorem witness_LaneLoads_rows : PlainLanes (lone (memHart 0 [] 1)) (memHart 0 [] 1) 1 4 .load
    ((((memHart 0 [] 1).activeLanes unguarded).map (fun l => (List.range 32).map (fun j =>
      ((l, 0, 0 + BitVec.ofNat 64 (4 * j)) : LaneAcc)))).flatten) (fun a => (0, a.2.2.toNat)) := plainLanes (by decide +kernel)

theorem witness_LaneStores : PlainLanes (lone (memHart 0x11000 [0, 0] 2)) (memHart 0x11000 [0, 0] 2) 0 8 .store
      (((memHart 0x11000 [0, 0] 2).activeLanes ⟨15, false⟩).map (acc1 (memHart 0x11000 [0, 0] 2))) (fun a => (0, a.2.2.toNat)) ∧
    PlainLanes (lone (memHart 0 [0x7FFFC, 0] 2)) (memHart 0 [0x7FFFC, 0] 2) 1 4 .store
      (((memHart 0 [0x7FFFC, 0] 2).activeLanes ⟨15, false⟩).map (acc1 (memHart 0 [0x7FFFC, 0] 2))) (fun a => (0, a.2.2.toNat)) ∧
    (lone (memHart 0 [0x7FFFC, 0] 2)).memoriesOk = true ∧ (lone (memHart 0 [0x7FFFC, 0] 2)).pfmask (memHart 0 [0x7FFFC, 0] 2) 4 = false :=
  ⟨plainLanes (by decide +kernel), plainLanes (by decide +kernel), by decide +kernel, by decide +kernel⟩

theorem witness_LaneAtomics : PlainLanes (lone (memHart 0x11000 [0, 0] 2)) (memHart 0x11000 [0, 0] 2) 0 4 .store
      (((memHart 0x11000 [0, 0] 2).activeLanes ⟨15, false⟩).map (acc1 (memHart 0x11000 [0, 0] 2))) (fun a => (0, a.2.2.toNat)) ∧
    (memHart 0x11000 [0, 0] 2).dev.tbm = 0 ∧ (memHart 0x11000 [0, 0] 2).dev.tbmf = false ∧
    (lone (memHart 0x11000 [0, 0] 2)).pfmask (memHart 0x11000 [0, 0] 2) 3 = false ∧ (memHart 0x11000 [0, 0] 2).run.walks = [] ∧
    PlainLanes (lone (memHart 0x11000 [] 1)) (memHart 0x11000 [] 1) 0 1 .load [(0, 0x11000, 0x11000), (0, 0x11080, 0x11080)]
      (fun a => (0, a.2.2.toNat)) :=
  ⟨plainLanes (by decide +kernel), by decide +kernel, by decide +kernel, by decide +kernel, by decide +kernel, plainLanes (by decide +kernel)⟩

theorem witness_LaneAddressFaults : let h := memHart 0 [0x7FFFE, 0x80000, 0x7FFFC] 3
    (lone h).hart? 0 = some h ∧ (lone h).ordered h = false ∧ h.dev.lftab = 0 ∧ h.priv ≠ .M ∧ h.csr.medeleg.getLsbD 25 = true ∧
    h.run.passCmp = true ∧ (acc1 h 0).2.2.toNat % 4 ≠ 0 ∧
    (match (lone h).spotOf h 1 1 (acc1 h 1).2.2.toNat 4 with
      | .ok _ => 0
      | .error k => k) = 2 ∧
    (match (lone h).spotOf h 1 2 (acc1 h 2).2.2.toNat 4 with
      | .ok _ => 0
      | .error k => k) = 0 := by decide +kernel

/-- A hart of launch 0 with all lanes but those of `free` occupied. -/
def working (free : Word) : Hart :=
  let h := member 0 (hart [(11, 0x11000), (12, 1)])
  { h with lanes := { h.lanes with occ := ~~~free, em := ~~~free, p := Vector.replicate 12 1, v := [(96, 7)] } }

theorem witness_ItemsAndChildren : ∀ n ∈ [0, 5, 31], let L := launch0 id
    let h := working ((1 : Word) <<< n)
    (launched L [(0, h)]).hart? 0 = some h ∧ h.getX 0 = 0 ∧ h.role.launch = some 0 ∧ (launched L [(0, h)]).launch? 0 = some L ∧
    h.run.drain = false ∧ h.lanes.occ = ~~~((1 : Word) <<< n) ∧ L.ended = false ∧ L.pkt.determ = false ∧ L.pkt.open_ = false ∧
    L.pkt.ordered = false ∧ L.items = [] ∧ L.next < L.pkt.count ∧ (launched L [(0, h)]).latency = 0 ∧ h.lanes.em ≠ 0 := by
  decide +kernel

theorem witness_ItemsAndChildren_full : (working 0).lanes.occ = 0xFFFFFFFF ∧ (working 0).run.drain = false ∧
    (launched (launch0 id) [(0, working 0)]).hart? 0 = some (working 0) := by decide +kernel

/-- A package with an open launch of queue 0 whose ring of 32 records stands at 0x11000, and a hart outside it. -/
def spawning (pushed : List Child) (h : Hart) : State :=
  let L := { launch0 (fun p => { p with open_ := true, count := 32, mode := 0x11000 }) with appended := pushed.length, children := pushed }
  { launched L [(0, h)] with queues := [(0, { queueOf 0 with launches := [0] })] }

theorem witness_ItemsAndChildren_children : let h := { working 0 with role := Role.reset }
    let s := spawning [] h
    (s.spawnTarget 0 (h.getX 13).toNat).map (fun t => t.1 == 0 && !t.2.pkt.ordered && t.2.room == 32 &&
      (t.2.ringSlot t.2.appended).toNat == 0x11000 && t.2.part == 0 && s.launchSatp t.2 == 0 && decide (s.launch? t.1 = some t.2) &&
      t.2.children == []) = some true ∧
    (allLanes.filter (fun l => h.lanes.em.getLsbD l && (h.getP 3).getLsbD l)) = [0] ∧ standsNow s 0 0x11000 = true ∧
    ((spawning ((List.range 32).map (fun i => { index := i, ts := 0, claimable := true, claimed := false, loose := true, written := true })) h).spawnTarget 0 0).map (fun t => t.2.room) = some 0 := by
  decide +kernel

theorem witness_ItemsAndChildren_outside : let h := { working 0 with role := Role.reset }
    let s := spawning [] h
    s.hart? 0 = some h ∧ s.ordered h = false ∧ s.pfmask h 2 = false ∧ h.dev.tbm = 0 ∧ (s.core 0).flight = [] ∧ h.run.spawn = none ∧ s.latency = 0 := by
  decide +kernel

/-- A package with queue 0 of 16 slots at 0x12000 and its producer index at 0x11080; `p` is the index. -/
def queued (p cons : Nat) (h : Hart) : State :=
  { world [(0, h)] [(0x11000, 0x8877665544332211), (0x11080, p), (0x12000 + p % 16 / 2 * 128, 0)] with
    queues := [(0, { queueOf 0 with ring := 0x12000, n := 4, prod := 0x11080, cons := 0x11088, consIdx := cons })] }

theorem witness_QueueAndWatchInstructions : ∀ e ∈ [(0, 0), (15, 0), (16, 0), (31, 16)],
    let h := hart [(11, 0x11000), (12, 0x11001)]
    let s := queued e.1 e.2 h
    s.hart? 0 = some h ∧ Map.sorted s.harts = true ∧ s.ordered h = false ∧ s.pfmask h 2 = false ∧ h.getX 0 = 0 ∧
    (h.getX 12).toNat % 64 ≠ 0 ∧ (h.getX 11).toNat % 64 = 0 ∧ (h.getX 12).toNat > 255 ∧ h.dev.tbm = 0 ∧ s.latency = 0 ∧
    plainNow s h (h.getX 11) .load 64 0x11000 = true ∧ standsNow s 0 0x11080 = true ∧ s.numAt 0 0x11080 8 = e.1 ∧
    standsNow s 0 (0x12000 + 64 * (e.1 % 2 ^ 4)) = true ∧ e.2 ≤ e.1 ∧ (e.1 = e.2 + 2 ^ 4 ∨ e.1 < e.2 + 2 ^ 4) := by decide +kernel

theorem witness_QueueAndWatchInstructions_waita : let h := hart [(11, 0x11000), (10, 0x8877665544332211), (12, 100)]
    PlainAccess (lone h) h (h.getX 11) .load 8 0x11000 ∧ (lone h).pfmask h 6 = false ∧
    (lone h).numAt 0 0x11000 8 = (h.getX 10).toNat ∧ (lone h).numAt 0 0x11000 8 ≠ (h.getX 12).toNat ∧
    (((lone h).die ((lone h).home 0 0x11000 / 64)).slice ((lone h).home 0 0x11000 % 64)).watches.length < 256 :=
  ⟨plain (by decide +kernel), by decide +kernel, by decide +kernel, by decide +kernel, by decide +kernel⟩

/-- What grants a job at once, decided. -/
def mayIssueNow (s : State) (h : Hart) : Bool :=
  Map.sorted s.harts && h.run.wait == none && !h.run.halted
    && s.harts.all (fun e => e.2.run.stoppedJobs == [] && (e.1 == s.cur || e.2.run.attempt == none))
    && decide (0 < s.entriesFor (clusterOf s.cur) h.role.part) && Map.sorted (s.cluster (clusterOf s.cur)).jobs
    && (s.cluster (clusterOf s.cur)).jobs.all (fun e => decide (e.1 < 64))

theorem mem_of_find {α : Type} (m : Map α) (n : Nat) (a : α) (h : Map.find m n = some a) : (n, a) ∈ m := by
  induction m with
  | nil => simp [Map.find] at h
  | cons e m ih =>
    simp only [Map.find] at h
    split at h
    · next c => cases h; subst c; exact List.mem_cons_self
    · split at h
      · cases h
      · exact List.mem_cons_of_mem _ (ih h)

theorem mayIssue {s : State} {h : Hart} (c : mayIssueNow s h = true) : MayIssueJob s h := by
  simp only [mayIssueNow, Bool.and_eq_true, Bool.or_eq_true, Bool.not_eq_true', beq_iff_eq, decide_eq_true_eq, List.all_eq_true] at c
  obtain ⟨⟨⟨⟨⟨⟨c1, c2⟩, c3⟩, c4⟩, c5⟩, c6⟩, c7⟩ := c
  exact ⟨c1, ⟨c2, c3⟩, fun k g hg _ _ => ⟨(c4 _ (mem_of_find _ _ _ hg)).1, fun n => (c4 _ (mem_of_find _ _ _ hg)).2.resolve_left n⟩,
    c5, c6, c7⟩

/-- A hart with a descriptor in memory and its first line. -/
def describing (d : Nat) (n : DWord) : State :=
  let h := hart [(11, 0x11000), (12, n)]
  world [(0, h)] [(0x11000, d)]

def bteHart (n : DWord) : Hart := hart [(11, 0x11000), (12, n)]

/-- A BTE job as it is issued. -/
def bteJob (op : Nat) (d : Nat) (n : DWord) : Job :=
  { (bteHart n).newJob false op with
    hart := 0, desc := BitVec.ofNat 512 d, arg := n, scope := (BitVec.ofNat 512 d).extractLsb' 448 3, notify := (BitVec.ofNat 512 d).getLsbD 451 }

theorem witness_JobsIssued : let d := 2 ^ 121 + 0x1000 * 2 ^ 64 + 2 ^ 57
    PlainAccess (describing d 256) (bteHart 256) ((bteHart 256).getX 11) .load 64 0x11000 ∧
    (describing d 256).numAt 0 0x11000 64 = d ∧ (describing d 256).badBte (bteJob 0 d 256) 0 (BitVec.ofNat 512 d) 256 = false ∧
    MayIssueJob (describing d 256) (bteHart 256) ∧ (describing d 256).pfmask (bteHart 256) 1 = false ∧
    (describing (2 ^ 511) 256).badBte (bteJob 1 (2 ^ 511) 256) 1 (BitVec.ofNat 512 (2 ^ 511)) 256 = true ∧
    (bteHart 256).csr.medeleg.getLsbD 26 = true ∧ (bteHart 256).csr.medeleg.getLsbD 4 = true :=
  ⟨plain (by decide +kernel), by decide +kernel, by decide +kernel, mayIssue (by decide +kernel), by decide +kernel, by decide +kernel,
    by decide +kernel, by decide +kernel⟩

/-- A matrix job as it is issued. -/
def matJob1 (h : Hart) (op var : Nat) (m : MatJob) : Job :=
  { h.newJob true op with
    hart := 0, scope := m.scope, notify := m.notify, arg := BitVec.ofNat 64 (var + m.acc.toNat * 2 ^ 16)
    desc := BitVec.ofNat 512 ((h.getX (xOf (m.a + 1))).toNat * 2 ^ 64 + (h.getX (xOf m.a)).toNat)
    descB := BitVec.ofNat 128 ((h.getX (xOf (m.b + 1))).toNat * 2 ^ 64 + (h.getX (xOf m.b)).toNat) }

theorem witness_JobsIssued_matrix : let h := hart []
    (lone h).checkJob h (matJob1 h 5 1 ⟨10, 12, 14, 15, 0, false⟩) = none ∧ mayIssueNow (lone h) h = true ∧
    ((lone h).cluster 0).jobs = [] ∧ (lone h).pfmask h 0 = false ∧ (lone h).ordered h = false ∧
    ((lone h).checkJob (hart [(13, 2 ^ 57)]) (matJob1 (hart [(13, 2 ^ 57)]) 0 0 ⟨10, 12, 14, 0, 0, false⟩)) = some 1 := by decide +kernel

/-- Cluster 0 with a job of hart 0 in entry 3, sequence number 9. -/
def holding (h : Hart) (j : Job) : State := (lone h).modCluster 0 (fun c => { c with jobs := [(3, j)] })

def job9 (st : JobState) (m : Bool) (op : Nat) : Job := { (hart []).newJob m op with hart := 0, seq := 9, state := st, order := 4 }

theorem witness_JobStatusReads : let h := hart [(11, 9 * 2 ^ 16 + 3), (12, 0x20000), (13, 2 ^ 32), (14, 64), (15, 8 * 2 ^ 16 + 3), (16, 0x20002)]
    ∀ j ∈ [job9 .queued false 0, job9 .running true 5, job9 .done false 1, job9 .done true 5], let s := holding h j
    s.hart? 0 = some h ∧ s.job? 0 3 = some j ∧ (h.getX 11).toNat < 2 ^ 32 ∧ (h.getX 11).toNat / 64 % 1024 = 0 ∧
    (s.cluster 0).jobs = [(3, j)] ∧ j.launch = h.role.launch ∧ j.hidx = h.role.hidx ∧ j.part = h.role.part ∧
    j.seq.toNat = (h.getX 11).toNat / 2 ^ 16 ∧ (j.live = true ∨ j.state = .done) ∧ 2 ^ 32 ≤ (h.getX 13).toNat ∧
    (h.getX 14).toNat / 64 % 1024 ≠ 0 ∧ j.seq.toNat ≠ (h.getX 15).toNat / 2 ^ 16 ∧ (h.getX 15).toNat / 64 % 1024 = 0 ∧
    h.run.doneJobs = [] ∧ (h.getX 12).toNat % 4 = 0 ∧ (h.getX 16).toNat % 4 ≠ 0 := by decide +kernel

theorem witness_JobsRun : let mat := job9 .queued true 5
    let fill := { job9 .queued false 1 with arg := 256, desc := BitVec.ofNat 512 (2 ^ 121) }
    let none_ := job9 .queued false 1
    mat.matrix = true ∧ (holding (hart []) mat).job? 0 3 = some mat ∧ Map.sorted ((holding (hart []) mat).cluster 0).jobs = true ∧
    fill.moved = false ∧ none_.moved = true ∧ (holding (hart []) fill).partStopped 0 = false ∧
    ((holding (hart []) fill).cluster 0).pump = false ∧
    (holding (hart []) { mat with state := .running }).awaitingStart 0 = [(0, 3, { mat with state := .running })] ∧
    ((holding (hart []) mat).die 0).starts = [] := by decide +kernel

theorem witness_JobsRun_over : let j := { job9 .running false 1 with notify := true }
    let w := { hart [] with run := { Run.reset with wait := some (.jwait 10 (jobId 9 3)) } }
    j.moved = true ∧ j.live = true ∧ j.late = [] ∧ (holding (hart []) j).hart? j.hart = some (hart []) ∧ (hart []).role.launch = j.launch ∧
    (hart []).role.hidx = j.hidx ∧ (hart []).role.part = j.part ∧ (hart []).run.stoppedJobs = [] ∧ (hart []).run.wait = none ∧
    (hart []).run.aq.length < 4 ∧ w.run.wait = some (.jwait 10 (jobId j.seq 3)) ∧ (jobId j.seq 3).toNat / 2 ^ 16 = j.seq.toNat ∧
    (jobId j.seq 3).toNat / 64 % 1024 = 0 := by decide +kernel

/-- A fill of the issuing core's scratchpad, in progress. -/
def fill0 : Job := { job9 .running false 1 with arg := 256, desc := BitVec.ofNat 512 (2 ^ 121 + 0x1F00 * 2 ^ 64 + 0x5A) }

theorem witness_EngineResults : let s := told [0] (holding (hart []) fill0)
    s.arg.nats = [0] ∧ s.job? 0 3 = some fill0 ∧ Map.sorted (s.cluster 0).jobs = true ∧ s.memoriesOk = true ∧ fill0.matrix = false ∧
    fill0.state = .running ∧ s.partStopped fill0.part = false ∧ (s.cluster 0).jobs = [(3, fill0)] ∧
    (bteRow 1 (bteDesc fill0.desc) 256 0 0).2 = 0x1F00 ∧ bteShape (bteDesc fill0.desc) 256 = (1, 256) ∧
    chunkLen true 0 0x1F00 256 0 = 256 ∧ fill0.pos = 0 ∧ fill0.posByte = 0 ∧ fill0.carry = [] ∧
    (∀ u : State, { u with clusters := s.clusters } = s →
      u.jobSpot 0 3 fill0 (bteDesc fill0.desc).dsp 0x1F00 256 true = .ok ⟨1, 0, 0x1F00⟩ u ∧ u.bteSources fill0 = []) := by
  refine ⟨by decide +kernel, by decide +kernel, by decide +kernel, by decide +kernel, rfl, rfl, by decide +kernel, by decide +kernel,
    by decide +kernel, by decide +kernel, by decide +kernel, rfl, rfl, rfl, ?_⟩
  intro u hu
  have e : u = { told [0] (holding (hart []) fill0) with clusters := u.clusters } := by rw [← hu]
  have p : u.part? 0 = some part0 := by rw [e]; exact (by decide +kernel : (told [0] (holding (hart []) fill0)).part? 0 = some part0)
  have a : u.jobOffset fill0 1 0x1F00 256 = some ⟨1, 0, 0x1F00⟩ := by
    have q : ({ u with cur := fill0.hart } : State).part? 0 = some part0 := p
    have f : fill0.part = 0 := rfl
    simp only [State.jobOffset, State.spotOf, f, q]
    rfl
  have b : u.jobLocked fill0 ⟨1, 0, 0x1F00⟩ = false := by rw [e]; rfl
  have d : (bteDesc fill0.desc).dsp = 1 := by decide +kernel
  refine ⟨?_, rfl⟩
  have c : u.jobOffset fill0 1 (0x1F00 : DWord).toNat 256 = some ⟨1, 0, 0x1F00⟩ := a
  rw [d]
  simp only [State.jobSpot, c, b]
  rfl

/-- A product of one row of 8 elements of 8 bits by another in scratchpad 0. -/
def mma0 : Job :=
  { job9 .running true 0 with
    started := true, arg := 0x50000, desc := BitVec.ofNat 512 (2 ^ 57 + 16 * 2 ^ 64 + 9 * 2 ^ 116)
    descB := BitVec.ofNat 128 (0x1000 + 2 ^ 57 + 16 * 2 ^ 64 + 9 * 2 ^ 116) }

/-- A package with that job, whose hart has left, and its tile. -/
def producing (j : Job) : State :=
  told [0, 3, 4] ({ lone (hart []) with harts := [] }.modCluster 0 (fun c =>
    { c with jobs := [(3, j)], tiles := [(5, { Tile.blank with int := true, t := [(0, 41)] })] }))

/-- Eight elements of 0. -/
def zeros : Operand := operandOf 9 [[0, 0, 0, 0, 0, 0, 0, 0]] [] []

theorem reads_zeros (u : State) (k : Job) (a : DWord) (ha : (a.toNat = 0 ∨ a.toNat = 0x1000))
    (hu : u = { producing mma0 with clusters := u.clusters, fresh := u.fresh }) (hk : k.hart = 0 ∧ k.part = 0) :
    u.readRuns 0 3 k 1 [(a, 8)] = .ok [0, 0, 0, 0, 0, 0, 0, 0] u := by
  have p : u.part? 0 = some part0 := by rw [hu]; exact (by decide +kernel : (producing mma0).part? 0 = some part0)
  have o : u.jobOffset k 1 a.toNat 8 = some ⟨1, 0, a.toNat⟩ := by
    have q : ∀ c, ({ u with cur := c } : State).part? 0 = some part0 := fun _ => p
    simp only [State.jobOffset, State.spotOf, hk, q]
    rcases ha with e | e <;> rw [e] <;> rfl
  have l : u.jobLocked k ⟨1, 0, a.toNat⟩ = false := by rw [hu]; rfl
  have r : u.jobRead ⟨1, 0, a.toNat⟩ 8 = [0, 0, 0, 0, 0, 0, 0, 0] := by
    rw [hu]
    rcases ha with e | e <;> rw [e] <;> rfl
  have s : u.jobSpot 0 3 k 1 a 8 false = .ok ⟨1, 0, a.toNat⟩ u := by
    simp only [State.jobSpot, o, l]
    rfl
  simp only [State.readRuns, JobAcc.collect, s, JobAcc.bind, r]
  rfl

theorem witness_EngineResults_operands (u : State) (k : Job)
    (hu : { u with clusters := (producing mma0).clusters, fresh := (producing mma0).fresh } = producing mma0)
    (hk : { k with pos := 0, flags := mma0.flags, walks := mma0.walks, declined := mma0.declined, failedPages := mma0.failedPages } = mma0)
    (h0 : k.pos < mma0.b.E / 8) : u.readOperands 0 3 k = .ok (zeros, zeros) u := by
  have e : u = { producing mma0 with clusters := u.clusters, fresh := u.fresh } := by rw [← hu]
  have p : k.pos = 0 := by
    have : mma0.b.E / 8 = 1 := by decide +kernel
    omega
  have f : k = { mma0 with flags := k.flags, walks := k.walks, declined := k.declined, failedPages := k.failedPages } := by
    rw [← hk]; cases k; simp at p; subst p; rfl
  have a : k.a = mma0.a ∧ k.b = mma0.b ∧ k.op = 0 ∧ k.lane = none ∧ k.hart = 0 ∧ k.part = 0 ∧ k.var 8 7 = mma0.var 8 7 := by
    rw [f]; exact ⟨rfl, rfl, rfl, rfl, rfl, rfl, rfl⟩
  have n : hadSize (mma0.var 8 7) = 0 ∧ stepLen 0 mma0.a.fmt mma0.b.fmt = 8 ∧ mma0.a.rows = 1 ∧ mma0.b.rows = 1 ∧
    mma0.a.fmt = 9 ∧ mma0.b.fmt = 9 ∧ mma0.a.sp = 1 ∧ mma0.b.sp = 1 ∧
    mma0.a.elemRuns 0 0 0 8 = [(0, 8)] ∧ mma0.b.elemRuns 0 0 0 8 = [(0x1000, 8)] := by decide +kernel
  have c : ∀ d, d.rows = 1 → d.sp = 1 → d.fmt = 9 → (d.elemRuns 0 0 0 8 = [(0, 8)] ∨ d.elemRuns 0 0 0 8 = [(0x1000, 8)]) →
      u.readCols 0 3 k d 0 8 = .ok [[0, 0, 0, 0, 0, 0, 0, 0]] u := by
    intro d hr hs hf hd
    have z : u.readRuns 0 3 k 1 (d.elemRuns 0 0 0 8) = .ok [0, 0, 0, 0, 0, 0, 0, 0] u := by
      rcases hd with h | h <;> rw [h]
      · exact reads_zeros u k 0 (.inl rfl) e ⟨a.2.2.2.2.1, a.2.2.2.2.2.1⟩
      · exact reads_zeros u k 0x1000 (.inr rfl) e ⟨a.2.2.2.2.1, a.2.2.2.2.2.1⟩
    have o : upTo 1 = [0] := rfl
    simp only [State.readCols, State.readElems, hr, hs, hf, o, JobAcc.collect, z, JobAcc.bind]
    rfl
  have m : stepLen 0 9 9 = 8 ∧ 0 * 8 = 0 ∧ 0 + max 0 8 = 8 := ⟨rfl, rfl, rfl⟩
  simp only [State.readOperands, Job.fmtA, Job.unit, a, p, n, m, c mma0.a n.2.2.1 n.2.2.2.2.2.2.1 n.2.2.2.2.1 (.inl n.2.2.2.2.2.2.2.2.1),
    c mma0.b n.2.2.2.1 n.2.2.2.2.2.2.2.1 n.2.2.2.2.2.1 (.inr n.2.2.2.2.2.2.2.2.2), JobAcc.bind]
  rfl

theorem witness_EngineResults_matrix : (producing mma0).arg.nats = [0, 3, mma0.order] ∧ (producing mma0).job? 0 3 = some mma0 ∧
    mma0.matrix = true ∧ mma0.started = true ∧ (producing mma0).partStopped 0 = false ∧ mma0.launch = none ∧ mma0.notify = false ∧
    (producing mma0).hart? mma0.hart = none ∧ mma0.acc = 5 ∧ ((producing mma0).tile 0 0 5).int = true ∧
    ((producing mma0).tile 0 0 5).poison = false ∧ ((producing mma0).tile 0 0 5).free = none ∧ mma0.a.rows = 1 ∧ mma0.b.rows = 1 ∧
    mma0.lane = none ∧ mma0.pos = 0 ∧ mma0.undef = false ∧ mma0.var 8 7 = 0 ∧ stepLen 0 mma0.a.fmt mma0.b.fmt = 8 ∧
    Map.sorted ((producing mma0).tile 0 0 5).t = true ∧ (producing mma0).harts = [] := by decide +kernel

theorem witness_TranslationInstructions : let h := { hartAt .M [(11, 3 * 2 ^ 48 + 2 ^ 45 + 2 ^ 42 + 2 ^ 40 + 0x200), (12, 7 * 2 ^ 45 + 0x400)] with tsc := true }
    (lone h).hart? 0 = some h ∧ h.tsc = true ∧ h.priv = .M ∧ (h.getX 11).toNat / 2 ^ 54 = 0 ∧ (h.getX 12).toNat / 2 ^ 61 = 0 ∧
    0x200 % 2 ^ (pageBits 1 - 12) = 0 ∧ 0x400 % 2 ^ (pageBits 1 - 12) = 0 ∧ (lone h).clusters = [] ∧
    ({ hartAt .M [(12, 3)] with tsc := true }.getX 12).toNat < 2 ^ 24 := by decide +kernel

/-- A leaf of partition 0. -/
def leaf0 (vpn page : Nat) : Leaf := ⟨0, 7, vpn, 0, page, true, true, false, true, false, true⟩

/-- A world whose core, cluster or die holds that leaf. -/
def translated (lvl : Nat) (h : Hart) : State :=
  if lvl = 1 then (lone h).modCore 0 (fun c => { c with tlb := [leaf0 0x20 0x11] })
  else if lvl = 2 then (lone h).modCluster 0 (fun c => { c with tlb := [leaf0 0x20 0x11] })
  else if lvl = 3 then (lone h).modDie 0 (fun c => { c with tlb := [leaf0 0x20 0x11] })
  else lone h

theorem witness_TranslationInstructions_probe : let h := mapped 0x9000700000000000 (hartAt .S [(12, 0x20123)])
    h.priv ≠ .U ∧ (lone h).latency = 0 ∧ h.getX 0 = 0 ∧ h.csr.satp.toNat / 2 ^ 44 % 2 ^ 16 = 7 ∧
    (translated 0 h).tlbFind 0 0 7 0x20123 = none ∧ (translated 1 h).tlbFind 0 0 7 0x20123 = some (leaf0 0x20 0x11, 1) ∧
    (translated 2 h).tlbFind 0 0 7 0x20123 = some (leaf0 0x20 0x11, 2) ∧ (translated 3 h).tlbFind 0 0 7 0x20123 = some (leaf0 0x20 0x11, 3) ∧
    (leaf0 0x20 0x11).gpa 0x20123 / 4096 < 2 ^ 40 := by decide +kernel

/-- A world whose code line is in the instruction cache of core 0. -/
def cached (h : Hart) (code : Nat) : State :=
  let s := world [(0, h)] [(0x10000, code)]
  match s.fetchWord h 0x10000 with
  | .ok _ t => t
  | .trap .. => s
  | .park .. => s

def fetchesWord (s : State) (h : Hart) (va : DWord) (w : Word) : Bool :=
  match s.fetchWord h va with
  | .ok v t => v == w && decide (t = s)
  | .trap .. => false
  | .park .. => false

theorem fetches_word {s : State} {h : Hart} {va : DWord} {w : Word} (c : fetchesWord s h va w = true) : s.fetchWord h va = .ok w s := by
  unfold fetchesWord at c
  split at c
  · next e => simp only [Bool.and_eq_true, beq_iff_eq, decide_eq_true_eq] at c; obtain ⟨rfl, rfl⟩ := c; exact e
  · cases c
  · cases c

/-- A supervisor that has taken a trap at 0x10000. -/
def handler (p : Priv) : Hart :=
  let h := hartAt p []
  { h with csr := { h.csr with sepc := 0x10000, mstatus := 0x0000000A00000120 } }

theorem witness_TranslationInstructions_retx : ((handler .S).priv = .S ∧ (handler .S).csr.mstatus.getLsbD 22 = false) ∧
    (cached (handler .S) 0x00C58533).fetchWord (handler .S) (handler .S).csr.sepc = .ok 0x00C58533 (cached (handler .S) 0x00C58533) ∧
    wordLength 0x00C58533 = .ok 4 ∧
    (cached (handler .S) (0xAF3E003F * 2 ^ 32 + 0x0004805B)).fetchWord (handler .S) (handler .S).csr.sepc =
      .ok 0x0004805B (cached (handler .S) (0xAF3E003F * 2 ^ 32 + 0x0004805B)) ∧
    (cached (handler .S) (0xAF3E003F * 2 ^ 32 + 0x0004805B)).fetchWord (handler .S) ((handler .S).csr.sepc + 4) =
      .ok 0xAF3E003F (cached (handler .S) (0xAF3E003F * 2 ^ 32 + 0x0004805B)) ∧ wordLength 0xAF3E003F = .ok 8 ∧
    0x0004805B % 128 = 0x5B ∧ 0x0004805B / 2 ^ 12 % 8 = 0 :=
  ⟨by decide +kernel, fetches_word (by decide +kernel), by decide +kernel, fetches_word (by decide +kernel),
    fetches_word (by decide +kernel), by decide +kernel, by decide +kernel, by decide +kernel⟩

theorem witness_TranslationInstructions_retx_long : (cached (handler .S) 0x0000707F).fetchWord (handler .S) (handler .S).csr.sepc =
      .ok 0x0000707F (cached (handler .S) 0x0000707F) ∧ (0x0000707F : Word).toNat % 128 = 127 ∧
    (cached (handler .S) 0x0001).fetchWord (handler .S) (handler .S).csr.sepc = .ok 0x0001 (cached (handler .S) 0x0001) ∧
    (0x0001 : Word).toNat % 4 ≠ 3 := ⟨fetches_word (by decide +kernel), by decide, fetches_word (by decide +kernel), by decide⟩

/-- Many lines at home, from line number `n` on. -/
def manyLines (n count : Nat) : List (Nat × Nat) := (List.range count).map (fun i => ((n + i) * 128, i))

theorem bits_lt (v hi lo n : Nat) (h : hi + 1 - lo ≤ n) : bits v hi lo < 2 ^ n := by
  unfold bits
  exact Nat.lt_of_lt_of_le (Nat.mod_lt _ (Nat.two_pow_pos _)) (Nat.pow_le_pow_right (by decide) (by omega))

theorem sliceOf_lt (g : Nat) : sliceOf g < 2 ^ 6 := by
  unfold sliceOf
  refine Nat.xor_lt_two_pow (Nat.xor_lt_two_pow (Nat.xor_lt_two_pow (Nat.xor_lt_two_pow (Nat.xor_lt_two_pow (Nat.xor_lt_two_pow
    (Nat.xor_lt_two_pow ?_ ?_) ?_) ?_) ?_) ?_) ?_) ?_ <;> exact bits_lt _ _ _ _ (by decide)

/-- Every byte of a run of lines stands at home. -/
theorem stands_lines {s : State} (n count x : Nat) (hp : s.part? 0 = some part0) (hd : (s.die 0).accept = true)
    (hl : (List.range count).all (fun i => match Map.find s.mem.llc (n + i) with
      | none => false
      | some l => !l.poison) = true)
    (h1 : n * 128 ≤ x) (h2 : x < (n + count) * 128) (h3 : (n + count) * 128 ≤ 2 ^ 21) : s.standsAtHome 0 x := by
  have q := List.all_eq_true.mp hl (x / 128 - n) (List.mem_range.mpr (by omega))
  have e : n + (x / 128 - n) = x / 128 := by omega
  rw [e] at q
  split at q
  · cases q
  · next l hl =>
    have z : x / 2097152 ≤ 1 := by omega
    have y : sliceOf x / 64 = 0 := Nat.div_eq_of_lt (sliceOf_lt x)
    refine ⟨part0, ⟨0, 1, 0, 0, 0, true⟩, l, hp, ?_, by decide, ?_, ?_, by simpa using q⟩
    · simp [Part.range?, part0, z]
    · simpa [homeOf, y] using hd
    · simpa [lineKey] using hl

/-- A world with 140 lines from 0x11000 on. -/
def spacious (h : Hart) : State := world [(0, h)] (manyLines 0x220 140)

theorem witness_ContextSavedAndLoaded : let h := hartAt .M [(11, 0x11000)]
    (spacious h).hart? 0 = some h ∧ Map.sorted (spacious h).harts = true ∧ h.priv = .M ∧ h.tsc = false ∧ (h.getX 11).toNat = 0x11000 ∧
    (0x11000 + 17536) ≤ 140 * 128 + 0x11000 ∧ ((spacious h).core 0).flight = [] ∧ (spacious h).jobsLive 0 h = false ∧ h.dev.tbm = 0 ∧
    h.dev.tbmf = false ∧ (spacious h).locksHeld 0 = 0 ∧ h.run.declined = [] ∧ h.run.failedPages = [] := by decide +kernel

theorem witness_ContextSavedAndLoaded_memory (i : Nat) (c : i < 17536) : (spacious (hartAt .M [(11, 0x11000)])).standsAtHome 0 (0x11000 + i) :=
  stands_lines 0x220 140 _ (by decide +kernel) (by decide +kernel) (by decide +kernel) (by omega) (by omega) (by decide)

/-- A saved context: its first byte says that it is valid. -/
def restoring : State := world [(0, hartAt .M [(11, 0x11000)])] ((0x11000, 1) :: (manyLines 0x220 140).tail)

theorem witness_ContextSavedAndLoaded_load : (restoring.byteAt 0 0x11000).getLsbD 0 = true ∧ restoring.locksHeld 0 = 0 ∧
    (restoring.byteAt 0 (0x11000 + 17430)).getLsbD 7 = false ∧ (restoring.byteAt 0 (0x11000 + 17431)).getLsbD 7 = false ∧
    (restoring.byteAt 0 (0x11000 + 17432)).getLsbD 7 = false ∧ (restoring.byteAt 0 (0x11000 + 17433)).getLsbD 7 = false := by decide +kernel

/-- A world whose core 0 has messages. -/
def messages (h : Hart) (ms : List InboxEntry) : State := (lone h).modCore 0 (fun c => { c with inbox := ms })

theorem witness_Messages : let h := hartAt .S [(10, 7 + 15 * 2 ^ 11), (11, 0x11000)]
    (messages h []).hart? 0 = some h ∧ Map.sorted (messages h []).harts = true ∧ h.priv ≠ .U ∧ h.getX 0 = 0 ∧ h.dev.tbm = 0 ∧
    (messages h []).ordered h = false ∧ (messages h []).msgTarget 0 (h.getX 10) = some 7 ∧
    plainNow (messages h []) h (h.getX 11) .load 64 0x11000 = true ∧ ((messages h []).core 7).inbox.length < 32 ∧
    ((messages h []).core 7).inboxSaved = false ∧ (h.getX 11).toNat % 64 = 0 ∧
    plainNow (messages h [⟨3, 1, 2, 5⟩, ⟨0, 1, 2, 6⟩]) h (h.getX 11) .store 64 0x11000 = true := by decide +kernel

/-- Three tables and a leaf of Sv48 for page 0x20, at pages 0x11 to 0x14. -/
def tabled : State :=
  world [] [(0x11000, 0x12 * 2 ^ 10 + 1), (0x12000, 0x13 * 2 ^ 10 + 1), (0x13000, 0x14 * 2 ^ 10 + 1), (0x14100, 0x15 * 2 ^ 10 + 0xDF)]

def entry0 : TscEntry := ⟨5, 0, 0x9000700000000011, 0x20, false, 0, [0], none, 0x20123⟩

theorem witness_TranslationAndRecordEvents : satpMode entry0.satp = 9 ∧ satpPpn entry0.satp = 0x11 ∧ standsNow tabled 0 0x11000 = true ∧
    standsNow tabled 0 0x12000 = true ∧ standsNow tabled 0 0x13000 = true ∧ standsNow tabled 0 0x14100 = true ∧
    tabled.numAt 0 0x11000 8 = 0x12 * 2 ^ 10 + 1 ∧ tabled.numAt 0 0x12000 8 = 0x13 * 2 ^ 10 + 1 ∧
    tabled.numAt 0 0x13000 8 = 0x14 * 2 ^ 10 + 1 ∧ tabled.numAt 0 0x14100 8 = 0x15 * 2 ^ 10 + 0xDF ∧
    0xDF % 2 = 1 ∧ 0xDF / 2 % 2 = 1 ∧ 0xDF / 64 % 2 = 1 ∧ 0xDF / 128 % 2 = 1 := by decide +kernel

/-- A leaf that a megapage's one entry gives. -/
def asking1 (r : Option WalkResult) (h : Hart) : State :=
  ({ tabled with harts := [(0, h)] }).modCluster 0 (fun c => { c with tscq := [{ entry0 with result := r }] })

theorem witness_TranslationAndRecordEvents_return : let h := mapped 0x9000700000000011 (waiting .walk)
    let s := told [0, 5] (asking1 (some .fault) h)
    (s.cluster 0).tscq = [{ entry0 with result := some .fault }] ∧ s.hart? 0 = some h ∧ h.run.wait = some .walk ∧ h.role.part = 0 ∧
    h.csr.satp = entry0.satp ∧ (s.cluster 0).tscWait = [] := by decide +kernel

/-- A fault record. -/
def rec0 (tag : Nat) (posted : Bool) : FaultRec :=
  ⟨0, 0, 2, 0x11, 0, true, 0, 0, 0, 0x20000, 0x11000, posted, [], [], [], [], [], tag⟩

/-- A host with a fault ring of 16 records, none of which is answered. -/
def hosted (fs : List FaultRec) (next : Nat) : State :=
  { lone (hart []) with host := { HostIf.reset with faults := fs, rings := [(0, (0x4000, 4))], fnext := next } }

theorem witness_TranslationAndRecordEvents_post : let s := hosted [rec0 1 true, rec0 2 false, rec0 3 false] 15
    s.host.faults = [rec0 1 true] ++ rec0 2 false :: [rec0 3 false] ∧ (rec0 1 true).posted = true ∧ (rec0 2 false).posted = false ∧
    s.ring? 0 = some (0x4000, 4) ∧ s.host.fnext - s.host.fcons.toNat < 2 ^ 4 ∧ s.postedRecs < 4096 ∧
    s.part? 0 = some part0 ∧ part0.sealed_ = false ∧ Memory.wf s.mem.host = true := by decide +kernel

/-- A cluster with one walk queued whose root table holds the leaf of a whole region. -/
def walking : State :=
  (world [] [(0x11000, 0xDF)]).modCluster 0 (fun c => { c with tscq := [entry0] })

def region0 : Leaf := ⟨0, 7, 0, 3, 0, true, true, true, true, false, true⟩

theorem witness_TranslationAndRecordEvents_walk : (walking.cluster 0).tscq = [entry0] ∧ entry0.result = none ∧
    walking.host.faults = [] ∧ walking.cancelled region0 = false ∧
    (∀ u : State, { u with clusters := walking.clusters } = walking → u.walk entry0 = .res (.leaf region0) u) := by
  refine ⟨by decide +kernel, by decide +kernel, by decide +kernel, by decide +kernel, ?_⟩
  intro u hu
  have w : walking.standsAtHome 0 0x11000 := stands (by decide +kernel)
  have d : walking.llcData 0 0x11000 = 0xDF := by decide +kernel
  rw [← hu] at w d
  have w : u.standsAtHome 0 0x11000 := w
  have d : u.llcData 0 0x11000 = 0xDF := d
  have v : natOfBytes (lineBytes (0xDF : BitVec 1024) (0x11000 % 128) 8) = 0xDF := by decide +kernel
  have m : satpMode entry0.satp = 9 := by decide +kernel
  have a : satpPpn entry0.satp * 4096 + 8 * svIndex (entry0.vpn * 4096) 3 = 0x11000 := by decide +kernel
  have l : svLeaf 0xDF (entry0.vpn * 4096) 3 entry0.part (satpAsid entry0.satp) = some region0 := by decide +kernel
  have p : entry0.part = 0 := rfl
  have c : u.cleanHdc 0 0x11000 none = u := by
    have : u.cores = [] := by have := congrArg State.cores hu; simpa using this.trans (by decide +kernel : walking.cores = [])
    simp [State.cleanHdc, this]
  simp only [State.walk, m, State.svWalk, a]
  rw [p, readTable_stands 8 _ w, d, v, c]
  rw [← p, l]
  rfl

/-- A dirty line of GPA page 0x11, stage-2 tables in HBM that map the range's first 2 MiB to 0x200000. -/
def backing (poisoned : Bool) : State :=
  let s := lone (hart [])
  let put := fun (m : Memory) (at_ v : Nat) => Memory.store m at_ (bytesOfNat v 8)
  { s with mem := { s.mem with
      hbm := put (put (put (put [] 0 0x2001) 0x2000 0x3001) 0x3000 0x4001) 0x4000 0x200003
      llc := [(lineKey 0 0x11000, ⟨5, true, poisoned, false⟩)] } }

theorem witness_TranslationAndRecordEvents_writeback : let s := told [0, 0x11000] (backing false)
    s.part? 0 = some part0 ∧ part0.range? 0x11000 = some ⟨0, 1, 0, 0, 0, true⟩ ∧
    Map.find s.mem.llc (lineKey 0 0x11000) = some ⟨5, true, false, false⟩ ∧ s.pageFull 0 0x11000 = false ∧
    s.stage2 part0 ⟨0, 1, 0, 0, 0, true⟩ 0x11000 = .hbm 0x211000 ∧ Memory.wf s.mem.hbm = true ∧ Map.sorted s.mem.llc = true := by
  decide +kernel

/-- A package with queue 0 of 16 packets at 0x12000, its indices and supervisor block at 0x11080, one packet of value `v`. -/
def packeted (v : Nat) (ck : Bool) : State :=
  { world [] [(0x11080, 0), (0x12000, v)] with
    queues := [(0, { queueOf 0 with ring := 0x12000, n := 4, wt := 1, prio := 3, cons := 0x11088, sup := 0x110A0, checked := ck })] }

theorem witness_LaunchesBegin : ∀ e ∈ [(0x10000 + 64 * 2 ^ 128 + 2 ^ 511, false), (0x10001 + 64 * 2 ^ 128 + 2 ^ 511, true)],
    let s := told [0, 0] (packeted e.1 false)
    (s.queue? 0 0).map (fun q => !q.checked && q.ring == 0x12000 && q.sup % 32 == 0 && q.cons % 8 == 0) = some true ∧
    standsNow s 0 0x12000 = true ∧ standsNow s 0 0x110A0 = true ∧ standsNow s 0 0x11088 = true ∧ s.numAt 0 0x12000 64 = e.1 ∧
    e.1.testBit 511 = true ∧ (packetOf e.1).drain = false ∧ s.numAt 0 0x110A0 32 = 0 ∧
    (packetOf e.1).bad ((queueOf 0).withSup 0).supOk 0 = e.2 ∧ (packetOf e.1).cmpl = 0 ∧ (packetOf e.1).notify = false ∧
    s.harts = [] ∧ s.cores = [] := by
  decide +kernel

theorem witness_LaunchesBegin_activate : let s := told [0, 0] (packeted (0x10000 + 64 * 2 ^ 128 + 0x11080 * 2 ^ 320 + 2 ^ 511) true)
    let p := packetOf (0x10000 + 64 * 2 ^ 128 + 0x11080 * 2 ^ 320 + 2 ^ 511)
    (s.queue? 0 0).map (fun q => q.checked && q.launches == []) = some true ∧ (s.governing 0 0).isNone = true ∧ s.part? 0 = some part0 ∧
    p.open_ = false ∧ p.gang = false ∧ p.ndep = 0 ∧ p.fmtblk = 0 ∧ p.sidetab = 0x11080 ∧ standsNow s 0 0x11080 = true ∧
    satpMode (BitVec.ofNat 64 (s.numAt 0 0x110A8 8)) = 0 ∧ 0 < p.count := by decide +kernel

/-- A queue whose launch has a unit to place. -/
def placing (L : Launch) : State :=
  { world [] [(0x11080, 0)] with
    launches := [(0, L)], nextLaunch := 1
    queues := [(0, { queueOf 0 with ring := 0x12000, n := 4, wt := 1, prio := 3, cons := 0x11088, sup := 0x110A0, launches := [0], credit := 1, agingFrom := some 0 })] }

theorem witness_LaunchesBegin_place : ∀ L ∈ [launch0 id, { launch0 id with next := 33 }], let s := { placing L with arg := { nats := [], places := [[⟨3, [5]⟩]] } }
    s.launch? 0 = some L ∧ L.ended = false ∧ L.saved = [] ∧ L.requeued = [] ∧ L.pkt.hpc = 0 ∧ L.pkt.cpk = 0 ∧ L.pkt.gang = false ∧
    L.next < L.pkt.count ∧ s.ageQueues = s ∧ s.served = ([⟨0, 0, 0, L, 0, 1⟩], false) ∧ s.unitFor ⟨0, 0, 0, L, 0, 1⟩ = some [⟨3, [5]⟩] ∧
    standsNow s 0 0x110A0 = true := by decide +kernel

theorem witness_LaunchesBegin_gang : let L := launch0 (fun p => { p with gang := true, hlim := 1 })
    let s := told [0] (placing L)
    s.arg.places = [] ∧ s.served.1.find? (fun h => h.launch == 0) = some ⟨0, 0, 0, L, 0, 1⟩ ∧ L.pkt.gang = true ∧ L.pkt.hlim = 1 ∧
    s.gangFit 0 L true = some [[⟨0, [0]⟩]] := by decide +kernel

theorem witness_LaunchesEnd : let L := { launch0 (fun p => { p with cmpl := 0x11078 }) with exited := 64, flags := 3 }
    let s := told [0] (launched L [])
    s.launch? 0 = some L ∧ L.ended = false ∧ L.notifyDone = false ∧ L.pkt.open_ = false ∧ L.pkt.notify = false ∧ s.launchDone 0 L = true ∧
    s.cores = [] ∧ s.launchSatp L = 0 ∧ L.pkt.cmpl.toNat = 0x11078 ∧ standsNow s 0 0x11078 = true := by decide +kernel

theorem witness_LaunchesEnd_fail : let s := told [0] (launched (launch0 id) [(0, member 0 (hart [])), (1, hart [])])
    s.arg.ok = false ∧ s.launch? 0 = some (launch0 id) ∧ (launch0 id).pkt.cmpl = 0 ∧ (launch0 id).notifyDone = false ∧
    (launch0 id).pkt.notify = false ∧ Map.sorted s.harts = true ∧ s.cores = [] ∧ s.harts.all (fun g => g.2.run.stoppedJobs == []) = true := by decide +kernel

theorem witness_LaunchesEnd_aging : let s := { told [0, 0] (placing (launch0 id)) with now := 2 ^ 20 }
    (s.queue? 0 0).map (fun q => q.agingFrom == some 0 && decide (q.level < 7) && decide (0 + 2 ^ 20 * (q.level + 1) ≤ s.now)
      && (s.headOf q).isSome) = some true := by decide +kernel

/-- The least order: a response address, a tag and the valid bit. -/
def order0 (dline : Nat) : BitVec 1024 := BitVec.ofNat 1024 (dline + 5 * 2 ^ 72 + 0x4000 * 2 ^ 384 + 2 ^ 1023)

/-- A ready host with an order in hand. -/
def ordering (raw : BitVec 1024) (n : BitVec 64) (s : State) : State :=
  { s with arg := { data := raw, msg := ⟨n, 0, false, 0⟩ }, host := { s.host with ready := true, hlast := 6, stage := 7 } }

theorem witness_VacateOrders : let s := ordering (order0 100) 7 (packeted 0 false)
    Memory.wf s.mem.host = true ∧ (order0 100).getLsbD 1023 = true ∧ (order0 0).getLsbD 1023 = true ∧ s.host.ready = true ∧
    s.arrives s.arg.msg = true ∧ s.host.hlast + 1 = 7 ∧ s.badOrder (order0 100) = false ∧ orderDline (order0 100) ≠ 0 ∧ orderDline (order0 0) = 0 ∧
    s.badOrder (order0 0) = false ∧ s.badOrder (order0 100 ||| BitVec.ofNat 1024 (2 ^ 71)) = true ∧ s.namedQueues 0 (order0 100) = [0] ∧
    (s.activeOf 0 0).isEmpty = true ∧ (s.governing 0 0).isNone = true ∧ Map.sorted s.orders = true := by decide +kernel

/-- A standing order over queue 0 with a choice. -/
def standing (dline c nfail : Nat) : Order :=
  { raw := BitVec.ofNat 1024 (dline + 5 * 2 ^ 72 + 0x4000 * 2 ^ 384 + 2 ^ 576 + 2 ^ 1023), part := 0, dline := dline, hnum := 6, t0 := 0
    choices := [(0, c, 9)], own := false, nfail := nfail, ndisc := 0, ckUsed := 0, annexUsed := 0, done := false }

theorem witness_VacateOrders_vacant : ∀ n ∈ [0, 1], let s := { told [9] (packeted 0 false) with orders := [(9, standing 100 1 n)] }
    Map.find s.orders 9 = some (standing 100 1 n) ∧ (standing 100 1 n).done = false ∧ (s.activeOf 0 0).isEmpty = true ∧
    s.time < 2 ^ 64 := by decide +kernel

/-- A running launch of queue 0 under an order. -/
def ordered0 (f : Packet → Packet) (o : Order) (hs : List (Nat × Hart)) : State :=
  { launched (launch0 f) hs with
    orders := [(9, o)], queues := [(0, { queueOf 0 with ring := 0x12000, n := 4, wt := 1, launches := [0] })] }

theorem witness_VacateOrders_checkpoint : let h := member 0 (hart [])
    let o := { standing 100 1 0 with raw := (standing 100 1 0).raw ||| BitVec.ofNat 1024 (0xFFFFF * 2 ^ 576) }
    let s := told [9] (ordered0 (fun p => { p with ckpt := true }) o [(0, h)])
    Map.find s.orders 9 = some o ∧ s.running 9 o = [0] ∧ ((s.fallback o 0).map (·.1)) = some 2 ∧
    (s.fallback o 0).any (fun f => decide (o.dline * 7 < s.now + interval + f.2)) = true ∧
    (s.activeOf 0 0).map (·.1) = [0] ∧ s.hartsOf 0 = [(0, h)] ∧ h.run.preempt = none := by decide +kernel

theorem witness_VacateOrders_deadline : let o := standing 100 1 0
    let s := told [9] (ordered0 id o [])
    o.dline * 7 - quiesce ≤ s.now ∧ o.choices = [(0, 1, 9)] ∧ (s.governing 0 0).map (·.1) = some 9 ∧ s.choiceOf 0 0 = some 1 ∧
    s.fallback o 0 = none ∧ (s.activeOf 0 0).map (·.1) = [0] ∧ (launch0 id).q = 0 ∧ (launch0 id).pkt.cmpl = 0 := by decide +kernel

theorem witness_VacateOrders_grace : let h := { hart [] with run := { Run.reset with preempt := some 0 } }
    h.run.preempt = some 0 ∧ 0 + 8192 ≤ ({ lone h with now := 8192 } : State).now := by decide +kernel

/-- A hart that has been asked to yield and may be saved where it stands: its grace is over. -/
def yielding (f : Run → Run) : Hart :=
  let h := member 0 (hart [])
  { h with run := f { h.run with preempt := some 0, graceOver := true } }

/-- Masks that a lookup answers without a change of the package, decided. -/
def masksNow (s : State) (h : Hart) (m : Live) : Bool :=
  match s.saveMasks h with
  | .ok v t => v == some m && decide (t = s)
  | .wait .. => false
  | .fail .. => false

theorem masks_now {s : State} {h : Hart} {m : Live} (c : masksNow s h m = true) : s.saveMasks h = .ok (some m) s := by
  unfold masksNow at c
  split at c
  · next e => simp only [Bool.and_eq_true, beq_iff_eq, decide_eq_true_eq] at c; obtain ⟨rfl, rfl⟩ := c; exact e
  · cases c
  · cases c

theorem witness_HartsSavedAndRestored : let h := yielding id
    let s := told [0] (launched (launch0 id) [(0, h)])
    s.saveMasks h = .ok (some Live.all) s ∧ (Map.sorted s.harts = true ∧ s.hart? 0 = some h ∧ h.role.launch = some 0 ∧
    s.launch? 0 = some (launch0 id) ∧ (launch0 id).pkt.gang = false ∧ (launch0 id).items = [] ∧ s.part? 0 = some part0 ∧
    h.run.preempt ≠ none ∧ s.locksOf 0 = [] ∧ (s.core 0).flight = [] ∧ (s.core 0).tcc.length < 4 ∧ (s.cluster 0).jobs = [] ∧
    part0.sealed_ = false ∧ h.run.wait = none ∧ h.run.halted = false ∧ h.run.entering = none ∧ h.run.second = none ∧
    h.run.spawn = none ∧ h.run.busyUntil ≤ s.now ∧ h.run.stoppedJobs = []) :=
  ⟨masks_now (by decide +kernel), by decide +kernel⟩

theorem witness_HartsSavedAndRestored_sealed : let h := yielding (fun r => { r with wait := some (.swap 0 0xFFFFFFFF 0xFFFFFFFFFFFFFFFF 0xFFF) })
    let s := { told [0] (launched (launch0 id) [(0, h)]) with parts := [(0, { part0 with sealed_ := true })] }
    s.arg.nats = [coreOf 0] ∧ (s.part? 0).map (·.sealed_) = some true ∧ h.run.wait = some (.swap 0 Live.all.x Live.all.v Live.all.p) ∧
    h.run.preempt ≠ none ∧ s.hart? 0 = some h ∧ s.harts = [(0, h)] := by decide +kernel

/-- A hart in the cache of its core whose record goes to `area`. -/
def spilling (area : Nat) (p : Part) (lines : List (Nat × Nat)) : State :=
  let h := yielding (fun r => { r with wait := some (.swap 2 0xFFFFFFFF 0xFFFFFFFFFFFFFFFF 0xFFF) })
  let s := world [(0, h)] lines
  told [0, 0] { s with
    parts := [(0, p)], launches := [(0, { launch0 (fun q => { q with ckpt := true }) with stopping := true })], nextLaunch := 1
    orders := [(9, { standing 100 2 0 with raw := (standing 100 2 0).raw ||| BitVec.ofNat 1024 (area * 2 ^ 448 + 0xF * 2 ^ 576) })]
    queues := [(0, { queueOf 0 with ring := 0x12000, n := 4, wt := 1, launches := [0] })] }

theorem witness_HartsSavedAndRestored_spill : let p := { part0 with banks := 0, tq := 0 }
    let h := yielding (fun r => { r with wait := some (.swap 2 0xFFFFFFFF 0xFFFFFFFFFFFFFFFF 0xFFF) })
    let s := spilling 0x7000000 p []
    s.hart? 0 = some h ∧ s.waitsDie 0 = false ∧ s.spillOrder { launch0 (fun q => { q with ckpt := true }) with stopping := true } = some 9 ∧
    (s.spillHart 9 0 0 h { launch0 (fun q => { q with ckpt := true }) with stopping := true } p Live.all).isNone = true ∧
    p.evq = 0 ∧ p.sealed_ = false ∧ s.ring? 1 = none ∧ Map.sorted s.harts = true := by decide +kernel

/-- A saved hart whose record stands at 0x11000 and whose extension stands in the line behind it. -/
def saved0 : SavedHart :=
  { hidx := 0, addr := 0x11000, annex := 0x11000 + 136 * 128, unit := 0, member := 0, liveX := 2 ^ 32 - 1, liveV := 2 ^ 64 - 1
    liveP := 2 ^ 12 - 1, slice := none, steps := Vector.replicate 32 0, parkedOn := none, core := 0, slot := 0, inbox := [], low := none }

/-- A launch with that saved hart at the head of its queue. -/
def resuming : State :=
  told [0] { placing { launch0 id with saved := [saved0], unitsPlaced := 1 } with
    mem := { Mem.reset with llc := ((0x11000, 1) :: (manyLines 0x220 140).tail).map (fun e => (lineKey 0 e.1, ⟨BitVec.ofNat 1024 e.2, true, false, false⟩)) } }

theorem witness_HartsSavedAndRestored_restore : let L := { launch0 id with saved := [saved0], unitsPlaced := 1 }
    resuming.served.1.find? (fun h => h.launch == 0) = some ⟨0, 0, 0, L, 0, 1⟩ ∧ resuming.arg.places = [] ∧ L.sections = [] ∧
    L.barriers = [] ∧ L.items = [] ∧ (resuming.queue? 0 0).isSome = true ∧ resuming.part? 0 = some part0 ∧ resuming.waitsDie 0 = false ∧
    (resuming.fits 0 L true).head? = some [⟨0, [0]⟩] ∧ resuming.harts = [] ∧ (resuming.core 0).bar = [] ∧ (resuming.cluster 0).bar = [] ∧ (resuming.byteAt 0 0x11000).getLsbD 0 = true ∧
    ∀ i ∈ [0, 1, 2, 3], (resuming.byteAt 0 (saved0.annex + 22 + i)).getLsbD 7 = false := by decide +kernel

theorem witness_HartsSavedAndRestored_memory (i : Nat) (c : i < 17536) : resuming.standsAtHome 0 (0x11000 + i) :=
  stands_lines 0x220 140 _ (by decide +kernel) (by decide +kernel) (by decide +kernel) (by omega) (by omega) (by decide)

/-- A ready host with a command in hand, its operands, and bytes of host memory at 0x4000. -/
def commanded (ns : List Nat) (d : BitVec 1024) (bytes : List Byte) (s : State) : State :=
  { s with
    arg := { nats := ns, data := d, msg := ⟨7, 0, false, 0⟩ }, host := { s.host with ready := true, hlast := 6, stage := 7 }
    mem := { s.mem with host := Memory.store [] 0x4000 bytes } }

def mayNow (s : State) : Bool := !s.pkg.off && s.arrives s.arg.msg && !s.arg.msg.mgmt && s.arg.msg.rsv == 0 && s.host.ready && s.arg.msg.hnum == s.host.hlast + 1

theorem may {s : State} (c : mayNow s = true) : MayCommand s := by
  simp only [mayNow, Bool.and_eq_true, Bool.not_eq_true', beq_iff_eq] at c
  obtain ⟨⟨⟨⟨⟨c1, c2⟩, c3⟩, c4⟩, c5⟩, c6⟩ := c
  exact ⟨c1, c2, c3, c4, c5, c6⟩

theorem witness_MailboxMessages : let s := commanded [] 0 [] (lone (hart []))
    let q := { s with arg := { s.arg with msg := ⟨9, 0, false, 0⟩ } }
    let r := { s with arg := { s.arg with msg := ⟨7, 1, false, 0⟩ } }
    let u := { s with host := { s.host with ready := false } }
    let m := { s with arg := { s.arg with msg := ⟨7, 0, true, 0⟩ } }
    MayCommand s ∧ s.pkg.off = false ∧ q.arg.msg.hnum ≠ q.host.hlast + 1 ∧ r.arg.msg.rsv ≠ 0 ∧ r.arg.msg.hnum = r.host.hlast + 1 ∧
    u.host.ready = false ∧ u.arrives u.arg.msg = true ∧ u.arg.msg.rsv = 0 ∧ m.arg.msg.mgmt = true ∧ bits s.opnd 65 64 ≠ 2 ∧ s.arg.nat 3 ≠ 1 :=
  ⟨may (by decide +kernel), by decide +kernel⟩

/-- The bytes of a partition record: partition `n`, the cores of a mask, other fields at least legal values. -/
def record (n : Nat) (cores : Nat) (sl : Bool) (minsl jq : Nat) : List Byte :=
  bytesOfNat (n + (if sl then 2 ^ 6 + 2 ^ 144 else 0) + 1 * 2 ^ 16 + 1 * 2 ^ 32 + jq * 2 ^ 64 + 1 * 2 ^ 72 + 1 * 2 ^ 88 + minsl * 2 ^ 96
    + cores * 2 ^ 512) 66

/-- What PART-SET judges of a record. -/
def judged (s : State) (n : Nat) : Bool × Bool × Bool :=
  let v := Memory.num s.mem.host 0x4000 1024
  let p := partOf v Part.blank
  let others := (s.parts.filter (fun e => e.1 != n)).map (·.2)
  (badRecord v 0x4000, p.conflicts others, s.badMinima p others)

/-- A host that sets the partition of a record. -/
def setting (r : List Byte) : State := commanded [0x4000] 0 r (lone (hart []))

theorem witness_MailboxMessages_partSet : judged (setting (record 1 0xFF00 false 1 1)) 1 = (false, false, false) ∧
    (setting []).part? 1 = none := by decide +kernel

theorem witness_MailboxMessages_malformed : (judged (setting (record 1 0xFF00 false 1 0)) 1).1 = true := by decide +kernel

theorem witness_MailboxMessages_conflict : (judged (setting (record 1 0xFF0F false 1 1)) 1).2.1 = true := by decide +kernel

theorem witness_MailboxMessages_minima : judged (setting (record 1 0xFF00 false 999 1)) 1 = (false, false, true) := by decide +kernel

theorem witness_MailboxMessages_again : judged (setting (record 0 0xFF00 true 1 1)) 0 = (false, false, false) ∧
    (setting []).part? 0 = some part0 ∧ part0.sealed_ = false := by decide +kernel

theorem witness_MailboxMessages_busy : judged (setting (record 0 0xFF00 false 1 1)) 0 = (false, false, false) ∧
    (setting []).partBusy 0 = true ∧ part0.cores ≠ 0xFF00 := by decide +kernel

theorem witness_MailboxMessages_drop : let s := commanded [0] 0 [] (packeted 0 false)
    let b := commanded [0] 0 [] (ordered0 id (standing 100 1 0) [])
    MayCommand s ∧ s.part? 0 = some part0 ∧ s.queues.all (fun e => !s.queueBusy e.2) = true ∧ Map.sorted s.parts = true ∧
    Map.sorted s.host.capTable = true ∧ b.queues.any (fun e => e.1 / 256 == 0 && b.queueBusy e.2) = true ∧ s.part? 1 = none :=
  ⟨may (by decide +kernel), by decide +kernel, by decide +kernel, by decide +kernel, by decide +kernel, by decide +kernel, by decide +kernel⟩

/-- A host that gives a partition of one core the core table of some bytes. -/
def mapping (bs : List Byte) : State := commanded [0, 0x4000] 0 bs { world [] [] with parts := [(0, { part0 with cores := 1 })] }

theorem witness_MailboxMessages_mapSet :
    (coreTableOf (Memory.bytes (mapping [0, 0x88]).mem.host 0x4000 4096)).isNone = true ∧
    (coreTableOf (Memory.bytes (mapping [0, 0x80]).mem.host 0x4000 4096)).map { part0 with cores := 1 }.badTable = some false ∧
    { part0 with cores := 1 }.badTable [(0, 0), (1, 0)] = true ∧
    (mapping []).partBusy 0 = false := by decide +kernel

/-- A command whose operands are laid out as one number. -/
def operands (v : Nat) (s : State) : State := commanded [] (BitVec.ofNat 1024 v) [] s

theorem witness_RingsQueuesAndFaultAnswers : let s := operands (0 + 6 * 2 + 0x4000 * 2 ^ 64) (lone (hart []))
    let e := operands (1 + 6 * 2 + 0x4000 * 2 ^ 64) { lone (hart []) with host := { HostIf.reset with errors := [7] } }
    let b := operands (1 + 17 * 2) (lone (hart []))
    (mayNow s ∧ s.opnd % 2 = 0 ∧ bits s.opnd 5 1 = 6 ∧ bits s.opnd 127 64 = 0x4000 ∧ 0x4000 % (64 * 2 ^ 6) = 0 ∧ s.host.errors = []) ∧
    (mayNow e ∧ e.opnd % 2 = 1 ∧ e.host.errors = [7] ∧ Memory.wf e.mem.host = true) ∧ 16 < bits b.opnd 5 1 := by decide +kernel

/-- The operands that register queue 0 at 0x12000, its producer index at 0x11080 and its consumer index at 0x11088. -/
def qreg0 (n : Nat) : Nat := n * 2 ^ 16 + 2 ^ 24 + 0x12000 * 2 ^ 64 + 0x11080 * 2 ^ 128 + 0x11088 * 2 ^ 192 + 0x110A0 * 2 ^ 256

theorem witness_RingsQueuesAndFaultAnswers_qreg : let s := operands (qreg0 4) (lone (hart []))
    mayNow s ∧ bits s.opnd 5 0 = 0 ∧ bits s.opnd 15 8 = 0 ∧ badQreg s.opnd = false ∧ s.part? 0 = some part0 ∧ part0.sealed_ = false ∧
    s.queue? 0 0 = none ∧ standsNow s 0 0x11080 = true ∧ standsNow s 0 0x11088 = true ∧ (queueOf s.opnd).prod = 0x11080 ∧
    (queueOf s.opnd).cons = 0x11088 ∧ badQreg (qreg0 3) = true ∧ badQreg (qreg0 17) = true ∧ badQreg (qreg0 16) = true ∧
    (operands (qreg0 4) (packeted 0 false)).queue? 0 0 ≠ none ∧ (operands (qreg0 4 + 1) (lone (hart []))).part? 1 = none := by
  decide +kernel

/-- Queue 0, its producer index at 0x11080, with a launch or none. -/
def indexed (v : Nat) (ls : List Nat) : State :=
  operands 0 { launched (launch0 id) [] with
    mem := (world [] [(0x11080, v)]).mem
    queues := [(0, { queueOf 0 with ring := 0x12000, n := 4, wt := 1, prod := 0x11080, cons := 0x11088, launches := ls })] }

theorem witness_RingsQueuesAndFaultAnswers_qdrop : ∀ e ∈ [(0, []), (1, []), (0, [0])], let s := indexed e.1 e.2
    mayNow s = true ∧ bits s.opnd 5 0 = 0 ∧ bits s.opnd 15 8 = 0 ∧ standsNow s 0 0x11080 = true ∧ s.numAt 0 0x11080 8 = e.1 ∧
    (s.queue? 0 0).map (fun q => q.consIdx == 0 && q.prod == 0x11080 && s.queueBusy q == !e.2.isEmpty) = some true := by decide +kernel

theorem witness_RingsQueuesAndFaultAnswers_qdrop_none : let s := operands 0 (lone (hart []))
    MayCommand s ∧ s.queue? 0 0 = none ∧ s.part? 0 = some part0 ∧ (operands 1 (lone (hart []))).part? 1 = none :=
  ⟨may (by decide +kernel), by decide +kernel, by decide +kernel, by decide +kernel⟩

theorem witness_RingsQueuesAndFaultAnswers_answer : ∀ a ∈ [1, 2], let h := waiting .replay
    let f := { rec0 1 true with harts := [0] }
    let s := operands (a * 2 ^ 64) { lone h with host := { HostIf.reset with faults := [f] } }
    mayNow s = true ∧ s.host.faults = [f] ∧ f.posted = true ∧ f.seq = bits s.opnd 63 0 ∧ f.harts = [0] ∧ s.heldLines f = [] ∧
    s.hart? 0 = some h ∧ h.run.wait = some .replay ∧ h.role.part = f.part ∧ bits s.opnd 65 64 = a := by decide +kernel

theorem witness_RingsQueuesAndFaultAnswers_unknown : ∀ a ∈ [1, 2], let s := operands (a * 2 ^ 64 + 5) (hosted [rec0 1 true] 15)
    mayNow s = true ∧ s.host.faults.all (fun f => !f.posted || f.seq != bits s.opnd 63 0) = true ∧ bits s.opnd 65 64 = a := by decide +kernel

theorem witness_RingsQueuesAndFaultAnswers_writes : (told [5] (lone (hart []))).arg.nats = [5] ∧
    (told [0, 5] (lone (hart []))).arg.ok = false ∧ ({ lone (hart []) with arg := { nats := [0, 5], ok := true } } : State).arg.ok = true ∧
    ((lone (hart [])).core 0).own = false ∧ ({ (lone (hart [])).core 0 with own := true } : Core).own = true ∧
    (lone (hart [])).part? 0 = some part0 ∧ ∀ k ∈ [0, 1, 2, 3, 4, 5, 6, 7, 8, 9], (told [k, 0, 3] (lone (hart []))).arg.nats = [k, 0, 3] := by
  decide +kernel

/-- S2-SET of page 0x11 of partition 0, or of another page size. -/
def s2set (sz gpa leaf : Nat) : Nat := sz * 2 ^ 6 + gpa * 2 ^ 64 + leaf * 2 ^ 128

/-- The tables of `backing`, with a fifth table at 0x5000 that maps page 0x11 to 0x211000, or without it. -/
def backing4 (full : Bool) : State :=
  let s := backing false
  let m := if full then Memory.store (Memory.store s.mem.hbm 0x4000 (bytesOfNat 0x5001 8)) 0x5088 (bytesOfNat 0x211003 8) else s.mem.hbm
  { s with mem := { s.mem with hbm := m } }

theorem witness_PagesAndPackageCommands_s2Set :
    ∀ e ∈ [(0, 0x12000, 0x212003, true, some 0x5000), (1, 0x20000, 0x220003, true, some 0x5000), (2, 0x200000, 0x400003, true, some 0x4000),
      (0, 0x12000, 0x3, false, none)],
    let s := operands (s2set e.1 e.2.1 e.2.2.1) (backing4 e.2.2.2.1)
    mayNow s = true ∧ Memory.wf s.mem.hbm = true ∧ bits s.opnd 5 0 = 0 ∧ bits s.opnd 7 6 = e.1 ∧ bits s.opnd 127 64 = e.2.1 ∧
    bits s.opnd 191 128 = e.2.2.1 ∧ bits s.opnd 63 8 = 0 ∧ bits s.opnd 383 192 = 0 ∧ bits e.2.2.1 11 5 = 0 ∧ bits e.2.2.1 63 52 = 0 ∧
    e.2.2.1.testBit 1 = true ∧ s.part? 0 = some part0 ∧
    s2Table s.mem.hbm false e.2.1 (if e.1 = 2 then 3 else 4) part0.s2root 0 = e.2.2.2.2 := by
  decide +kernel

theorem witness_PagesAndPackageCommands_s2Set_lines : let s := operands (s2set 0 0x11000 0x311003) (backing4 true)
    let l : LlcLine := ⟨5, true, false, false⟩
    s.linesIn 0 0x12000 4096 = [] ∧ s.linesIn 0 0x11000 4096 = [(lineKey 0 0x11000, l)] ∧ Map.sorted s.mem.llc = true ∧ l.dirty = true ∧
    part0.range? 0x11000 = some ⟨0, 1, 0, 0, 0, true⟩ ∧ s.stage2 part0 ⟨0, 1, 0, 0, 0, true⟩ 0x11000 = .hbm 0x211000 ∧
    s2Table s.mem.hbm false 0x11000 4 part0.s2root 0 = some 0x5000 ∧
    (0x5000 + 8 * 0x11) / 128 ≠ 0x211000 / 128 ∧ s.part? 1 = none ∧ bits (s2set 3 0 3) 7 6 = 3 := by decide +kernel

/-- Keys of a sealed partition. -/
def keys0 : SealKeys := ⟨1, 2, 3, 4⟩

/-- Partition 0, sealed. -/
def sealedPart : Part := { part0 with sealed_ := true, keys := some keys0 }

/-- A sealed partition, a command about one of its pages, its lines as they were last written to HBM, and errors in memory. -/
def sealing (ns : List Nat) (away : Bool) (errs : List Nat) : State :=
  let s := backing false
  commanded ns 0 [] { s with
    parts := [(0, sealedPart)]
    mem := { s.mem with hbm := if away then [] else s.mem.hbm, llc := [], poisonAt := errs
                        sealedAt := (List.range 32).map (fun i => (0x300000 / 128 + i, ⟨0, lineMac 4 (0x11000 / 128 + i) 0⟩)) } }

theorem witness_PagesAndPackageCommands_pageOut : let s := sealing [0, 0x11000, 0x300000, 0x4000] true []
    let b := sealing [0, 0x11000, 0x300000, 0x4000] true [0x300000 / 128 + 31]
    let t := sealing [0, 0x11000, 0x300000, 0x4000] false []
    let o := commanded [0, 0x11000, 0x300000, 0x4000] 0 [] (lone (hart []))
    (mayNow s ∧ mayNow b ∧ mayNow t ∧ mayNow o) ∧ Memory.wf s.mem.host = true ∧ s.part? 0 = some sealedPart ∧ s.part? 1 = none ∧
    sealedPart.keys = some keys0 ∧ o.part? 0 = some part0 ∧ part0.keys = none ∧ s.reservedHpa 0x300000 = false ∧
    s2Away s.mem.hbm 0x11000 5 sealedPart.s2root 0 = true ∧ s2Away t.mem.hbm 0x11000 5 sealedPart.s2root 0 = false ∧
    hbmLine 0x300000 + 31 ∈ b.mem.poisonAt ∧ s.mem.poisonAt = [] ∧ Map.find s.mem.versions 0x11 = none ∧
    s.mem.versions.length < 2 ^ 24 := by decide +kernel

theorem find_run {α : Type} (f : Nat → α) (a n i : Nat) (hi : i < n) : Map.find ((List.range n).map (fun j => (a + j, f j))) (a + i) = some (f i) := by
  have r : ∀ (k o : Nat), o ≤ i → i < o + k → Map.find ((List.range' o k).map (fun j => (a + j, f j))) (a + i) = some (f i) := by
    intro k
    induction k with
    | zero => intro o h1 h2; omega
    | succ k ih =>
      intro o h1 h2
      rw [List.range'_succ, List.map_cons]
      by_cases e : o = i
      · subst e; simp [Map.find]
      · have : ¬ a + o = a + i := by omega
        have : ¬ a + i < a + o := by omega
        have q := ih (o + 1) (by omega) (by omega)
        simp only [Map.find]
        grind
  rw [List.range_eq_range']
  exact r n 0 (by omega) (by omega)

theorem witness_PagesAndPackageCommands_pageOut_lines (i : Nat) (hi : i < 32) : let s := sealing [0, 0x11000, 0x300000, 0x4000] true []
    s.mem.macAt (hbmLine 0x300000 + i) = lineMac keys0.mac (0x11000 / 128 + i) (Memory.line s.mem.hbm (0x300000 + 128 * i)) := by
  have z : ∀ a, Memory.line ([] : Memory) a = 0 := by
    intro a
    have q : ∀ n b, natOfBytes (Memory.bytes ([] : Memory) b n) = 0 := by
      intro n
      induction n with
      | zero => intro b; rfl
      | succ n ih => intro b; rw [Memory.bytes, natOfBytes, ih]; rfl
    rw [Memory.line, Memory.num, q]
    rfl
  have e : (sealing [0, 0x11000, 0x300000, 0x4000] true []).mem.hbm = [] := rfl
  have f : (sealing [0, 0x11000, 0x300000, 0x4000] true []).mem.sealedAt =
    (List.range 32).map (fun i => (0x300000 / 128 + i, ⟨0, lineMac 4 (0x11000 / 128 + i) 0⟩)) := rfl
  have g : hbmLine 0x300000 = 0x300000 / 128 := rfl
  simp only [e, z, Mem.macAt, f, g, find_run _ _ _ _ hi, keys0]

theorem bytes_store (bs : List Byte) (a i k : Nat) (h : i + k ≤ bs.length) :
    Memory.bytes (Memory.store [] a bs) (a + i) k = (bs.drop i).take k := by
  induction k generalizing i with
  | zero => simp [Memory.bytes]
  | succ k ih =>
    have e : Memory.read (Memory.store [] a bs) (a + i) = bs[i]'(by omega) := by
      rw [Memory.read_store bs [] a (a + i) (by decide)]
      rw [if_pos ⟨by omega, by omega⟩]
      simp [List.getD_eq_getElem?_getD, List.getElem?_eq_getElem (show i < bs.length by omega)]
    rw [Memory.bytes, e, Nat.add_assoc, ih (i + 1) (by omega), List.drop_eq_getElem_cons (show i < bs.length by omega), List.take_succ_cons]

theorem runs_length {α : Type} (f : α → List Byte) (n : Nat) (h : ∀ x, (f x).length = n) (l : List α) :
    (l.map f).flatten.length = n * l.length := by
  induction l with
  | nil => simp
  | cons x l ih => simp only [List.map_cons, List.flatten_cons, List.length_append, ih, h, List.length_cons]; ring

theorem run_at {α : Type} (f : α → List Byte) (n : Nat) (h : ∀ x, (f x).length = n) (l : List α) (i : Nat) (x : α) (hi : l[i]? = some x)
    (rest : List Byte) : (((l.map f).flatten ++ rest).drop (n * i)).take n = f x := by
  induction l generalizing i with
  | nil => simp at hi
  | cons y l ih =>
    cases i with
    | zero =>
      have e : y = x := by simpa using hi
      subst e
      rw [Nat.mul_zero, List.drop_zero, List.map_cons, List.flatten_cons, List.append_assoc, List.take_left' (h y)]
    | succ i =>
      have e : n * (i + 1) = n + n * i := by ring
      rw [e, ← List.drop_drop, List.map_cons, List.flatten_cons, List.append_assoc, List.drop_left' (h y)]
      exact ih i (by simpa using hi)

/-- The record of a page of zeros, exported under version 3. -/
def exported3 : List Byte := exportRecord keys0 0x11000 3 (List.replicate 32 0)

/-- The MACs of that page. -/
def macs3 : List (BitVec 48) := (List.range 32).map (fun i => lineMac keys0.mac (0x11000 / 128 + i) 0)

theorem exported3_eq : exported3 = ((List.replicate 32 (0 : BitVec 1024)).map (fun l => bytesOfNat l.toNat 128)).flatten ++
    ((macs3.map (fun m => bytesOfNat m.toNat 6)).flatten ++ (bytesOfNat 0x11000 8 ++ (bytesOfNat 3 8 ++
      (bytesOfNat (pageMac keys0.mac (exportCovered 0x11000 3 macs3)).toNat 8 ++ bytesOfNat 0 40)))) := by
  have m : (List.replicate 32 (0 : BitVec 1024)).zipIdx.map (fun l => lineMac keys0.mac (0x11000 / 128 + l.2) l.1) = macs3 := by
    have e : (List.replicate 32 (0 : BitVec 1024)).zipIdx = (List.range 32).map (fun i => (0, i)) := by decide +kernel
    rw [e, List.map_map]
    rfl
  simp only [exported3, exportRecord, m, exportCovered, List.append_assoc]

/-- The package of `sealing`, with bytes at 0x4000 of host memory and a version of the page. -/
def importing' (v : Nat) (bs : List Byte) : State :=
  let s := sealing [0, 0x11000, 0x4000, 0x400000] true []
  { s with mem := { s.mem with versions := [(0x11, v)], host := Memory.store [] 0x4000 bs } }

theorem importing_host (v : Nat) (bs : List Byte) : (importing' v bs).mem.host = Memory.store [] 0x4000 bs := rfl

/-- The package with that record. -/
def importing (v : Nat) : State := importing' v exported3

theorem importing_bytes (v i k : Nat) (h : i + k ≤ 4352) :
    Memory.bytes (importing v).mem.host (0x4000 + i) k = (exported3.drop i).take k := by
  rw [importing, importing_host, bytes_store]
  rw [exported3_eq]
  simp only [List.length_append, bytesOfNat_length, runs_length _ 128 (fun _ => bytesOfNat_length _ _),
    runs_length _ 6 (fun _ => bytesOfNat_length _ _), List.length_replicate, macs3, List.length_map, List.length_range]
  omega

theorem importing_macs (v k j : Nat) (h : j + k ≤ 256) : Memory.bytes (importing v).mem.host (0x4000 + (4096 + j)) k =
    ((((macs3.map (fun m => bytesOfNat m.toNat 6)).flatten ++ (bytesOfNat 0x11000 8 ++ (bytesOfNat 3 8 ++
      (bytesOfNat (pageMac keys0.mac (exportCovered 0x11000 3 macs3)).toNat 8 ++ bytesOfNat 0 40)))).drop j).take k) := by
  rw [importing_bytes v _ k (by omega), exported3_eq, ← List.drop_drop, List.drop_left']
  rw [runs_length _ 128 (fun _ => bytesOfNat_length _ _), List.length_replicate]

theorem macs3_length : (macs3.map (fun m => bytesOfNat m.toNat 6)).flatten.length = 192 := by
  rw [runs_length _ 6 (fun _ => bytesOfNat_length _ _)]
  rfl

theorem importing_fields (v : Nat) : Memory.num (importing v).mem.host (0x4000 + 4288) 8 = 0x11000 ∧
    Memory.num (importing v).mem.host (0x4000 + 4296) 8 = 3 := by
  constructor
  · rw [Memory.num, importing_macs v 8 192 (by omega), List.drop_left' macs3_length, List.take_left' (bytesOfNat_length _ _),
      natOfBytes_bytesOfNat]
    rfl
  · have e : ∀ l : List Byte, l.drop 200 = (l.drop 192).drop 8 := by intro l; rw [List.drop_drop]
    rw [Memory.num, importing_macs v 8 200 (by omega), e, List.drop_left' macs3_length, List.drop_left' (bytesOfNat_length _ _),
      List.take_left' (bytesOfNat_length _ _), natOfBytes_bytesOfNat]
    rfl

theorem witness_PagesAndPackageCommands_pageIn : let s := importing 3
    MayCommand s ∧ (s.part? 0 = some sealedPart ∧ sealedPart.keys = some keys0 ∧ s.reservedHpa 0x400000 = false ∧
      Memory.wf s.mem.hbm = true ∧ Map.sorted s.mem.sealedAt = true ∧
      Map.findD s.mem.versions (0 * 2 ^ 40 + 0x11000 / 4096) 0 = 3) ∧
    (Memory.num s.mem.host (0x4000 + 4288) 8 = 0x11000 ∧ Memory.num s.mem.host (0x4000 + 4296) 8 = 3) ∧
    Memory.num s.mem.host (0x4000 + 4304) 8 = (pageMac keys0.mac (Memory.bytes s.mem.host (0x4000 + 4096) 208)).toNat ∧
    ∀ i, i < 32 → Memory.num s.mem.host (0x4000 + 4096 + 6 * i) 6 =
      (lineMac keys0.mac (0x11000 / 128 + i) (Memory.line s.mem.host (0x4000 + 128 * i))).toNat := by
  refine ⟨may (by decide +kernel), by decide +kernel, importing_fields 3, ?_, ?_⟩
  · have c : Memory.bytes (importing 3).mem.host (0x4000 + 4096) 208 = exportCovered 0x11000 3 macs3 := by
      have q := importing_macs 3 208 0 (by omega)
      have l : ((macs3.map (fun m => bytesOfNat m.toNat 6)).flatten ++ bytesOfNat 0x11000 8 ++ bytesOfNat 3 8).length = 208 := by
        simp only [List.length_append, macs3_length, bytesOfNat_length]
      rw [List.drop_zero, ← List.append_assoc, ← List.append_assoc, List.take_left' l] at q
      exact q
    have e : ∀ l : List Byte, l.drop 208 = ((l.drop 192).drop 8).drop 8 := by intro l; simp [List.drop_drop]
    rw [c, Memory.num, importing_macs 3 8 208 (by omega), e, List.drop_left' macs3_length, List.drop_left' (bytesOfNat_length _ _),
      List.drop_left' (bytesOfNat_length _ _), List.take_left' (bytesOfNat_length _ _), natOfBytes_bytesOfNat]
    exact Nat.mod_eq_of_lt (BitVec.isLt _)
  · intro i hi
    have d : Memory.line (importing 3).mem.host (0x4000 + 128 * i) = 0 := by
      have x : (List.replicate 32 (0 : BitVec 1024))[i]? = some 0 := List.getElem?_replicate_of_lt hi
      rw [Memory.line, Memory.num, importing_bytes 3 _ 128 (by omega), exported3_eq,
        run_at _ 128 (fun _ => bytesOfNat_length _ _) _ i 0 x, natOfBytes_bytesOfNat]
      rfl
    have x : macs3[i]? = some (lineMac keys0.mac (0x11000 / 128 + i) 0) := by simp [macs3, hi]
    rw [d, Memory.num, Nat.add_assoc, importing_macs 3 6 (6 * i) (by omega), run_at _ 6 (fun _ => bytesOfNat_length _ _) _ i _ x,
      natOfBytes_bytesOfNat]
    exact Nat.mod_eq_of_lt (BitVec.isLt _)

theorem witness_PagesAndPackageCommands_pageIn_other : let s := importing 4
    Map.findD s.mem.versions (0 * 2 ^ 40 + 0x11000 / 4096) 0 = 4 ∧ Memory.num s.mem.host (0x4000 + 4296) 8 = 3 ∧ s.host.faults = [] :=
  ⟨by decide +kernel, (importing_fields 4).2, by decide +kernel⟩

theorem witness_PagesAndPackageCommands_exportCmd : let s := operands 0 (lone (hart []))
    let f := { part0 with exports := List.replicate 64 ⟨0, 0, 0, 0, 1⟩ }
    mayNow s = true ∧ bits s.opnd 5 0 = 0 ∧ s.part? 0 = some part0 ∧ part0.sealed_ = false ∧ part0.exports.length < 64 ∧
    64 ≤ f.exports.length ∧ (sealing [] true []).part? 0 = some sealedPart ∧ s.part? 1 = none := by decide +kernel

theorem witness_PagesAndPackageCommands_status : let s := commanded [0x4000] 0 [] (lone (hart []))
    let r := commanded [0x8000, 1] 0 [] (hosted [rec0 1 true] 15)
    mayNow s = true ∧ Memory.wf s.mem.host = true ∧ mayNow r = true ∧ r.host.hbusy = [] ∧ r.ring? 0 = some (0x4000, 4) ∧
    r.host.faults = [rec0 1 true] ∧ r.part? 0 = some part0 ∧ 0x4000 + 64 * 2 ^ 4 ≤ 0x8000 := by decide +kernel

theorem witness_PagesAndPackageCommands_power : ∀ e ∈ [(999, 0), (1000, 0), (3000, 0), (3001, 0), (1000, 1)],
    let s := operands (e.1 + e.2 * 2 ^ 12 + 5 * 2 ^ 16) (lone (hart []))
    mayNow s = true ∧ bits s.opnd 11 0 = e.1 ∧ bits s.opnd 15 12 = e.2 ∧ bits s.opnd 47 16 = 5 := by decide +kernel

theorem witness_PagesAndPackageCommands_domain : ∀ n ∈ [5, 6], let s := { lone (hart []) with host := { HostIf.reset with stage := n }, arg := { msg := ⟨7, 0, true, 0⟩ } }
    s.pkg.off = false ∧ s.arg.msg.mgmt = true ∧ s.host.stage = n := by decide +kernel

theorem witness_PagesAndPackageCommands_dieReset : let s := commanded [0, 1, 100] 0 [] (launched (launch0 id) [(0, member 0 (hart []))])
    mayNow s = true ∧ s.arg.nats = [0, 1, 100] ∧ (s.die 0).st = 5 ∧ s.launchesOn 0 = [0] ∧ s.launch? 0 = some (launch0 id) ∧
    (launch0 id).part < 64 ∧ s.now ≤ 100 * 7 ∧ (s.die 1).st ≠ 5 ∧ (s.die 1).st ≠ 6 := by decide +kernel

theorem witness_DebugCommands : let h := hart []
    let t := { h with run := { h.run with halted := true } }
    let s := commanded [0] 0 [] (lone h)
    (mayNow s ∧ s.hart? 0 = some h ∧ h.run.halted = false ∧ s.sealedHart h = false ∧ s.hart? 1 = none) ∧
    ((lone t).hart? 0 = some t ∧ t.run.halted = true ∧ (lone t).sealedHart t = false) ∧
    (sealing [] true []).sealedHart h = true ∧ s.part? 0 = some part0 ∧ s.part? 1 = none ∧
    ({ lone h with arg := { msg := ⟨7, 0, true, 0⟩ } } : State).pkg.off = false := by decide +kernel

theorem witness_DebugCommands_gang : let h := hart []
    let j := { job9 .running true 5 with stopped := true }
    let s := told [0] (holding { h with run := { h.run with amber := true, halted := true } } j)
    s.clusters.map (·.1) = [0] ∧ Map.sorted (s.cluster 0).jobs = true ∧ s.job? 0 3 = some j ∧ j.part = 0 ∧ j.state = .running ∧
    (s.hart? 0).map (fun g => g.role.part == 0 && g.run.amber) = some true ∧ part0.cores.getLsbD 0 = true := by decide +kernel

/-- An access from outside. -/
def outside (ns : List Nat) (x : HostAccess) (s : State) : State := { s with arg := { nats := ns, access := x } }

theorem witness_OutsideAccesses_raw : let s := outside [] ⟨0x211000, 8, some 5⟩ (backing false)
    let r := outside [] ⟨0x500000, 8, some 5⟩ (lone (hart []))
    let z := { sealing [] true [] with arg := { access := ⟨0x300000, 8, some 5⟩ } }
    s.mapped 0x211000 = true ∧ (Map.find s.mem.sealedAt (0x211000 / 128)).isSome = false ∧ r.mapped 0x500000 = false ∧
    Memory.wf r.mem.hbm = true ∧ (Map.find z.mem.sealedAt (0x300000 / 128)).isSome = true ∧ Memory.wf z.mem.hbm = true ∧
    s.hpaOf 0 0x11000 / 128 = 0x211000 / 128 ∧ r.mem.poisonAt = [] ∧
    ({ r with mem := { r.mem with poisonAt := [0x500000 / 128] } } : State).mem.poisonAt.contains (0x500000 / 128) = true := by decide +kernel

theorem witness_OutsideAccesses_window : let p := { part0 with winBase := some 0 }
    let z := { p with sealed_ := true }
    let s := outside [0] ⟨0x11000, 8, some 5⟩ { lone (hart []) with parts := [(0, p)] }
    let b := outside [0] ⟨0x11000, 8, some 5⟩ { lone (hart []) with parts := [(0, z)] }
    s.part? 0 = some p ∧ p.winBase = some 0 ∧ p.range? 0x11000 = some ⟨0, 1, 0, 0, 0, true⟩ ∧ s.windowOpen 0 p 0x11000 8 = true ∧
    standsNow s 0 0x11000 = true ∧ b.windowOpen 0 z 0x11000 8 = false ∧ s.windowOpen 0 p 0x13000 8 = true ∧ (match s.atHome 0 0x13000 with
      | .absent c _ => c
      | _ => 0) = 1 ∧
    p.range? 0x400000 = none ∧ part0.winBase = none ∧ s.part? 1 = none := by decide +kernel

/-- A partition with a range of class 2, its page at 0x11000 in the pool at 0x200000, and a copy of its first line. -/
def pooled (d : Bool) (x : HostAccess) : State :=
  let s := backing false
  outside [] x { s with
    mem := { s.mem with hbm := Memory.store s.mem.hbm 0x4000 (bytesOfNat 0x200007 8), llc := [(lineKey 0 0x11000, ⟨5, d, false, false⟩)] } }

theorem witness_OutsideAccesses_pool : ∀ d ∈ [true, false], let s := pooled d ⟨0x211000, 8, some 9⟩
    s.part? 0 = some part0 ∧ part0.range? 0x11000 = some ⟨0, 1, 0, 0, 0, true⟩ ∧
    s.stage2 part0 ⟨0, 1, 0, 0, 0, true⟩ 0x11000 = .pool 0x211000 ∧ Map.sorted s.mem.llc = true ∧ Memory.wf s.mem.pool = true ∧
    Map.find s.mem.llc (lineKey 0 0x11000) = some ⟨5, d, false, false⟩ ∧ s.mem.llc.map (·.1) = [lineKey 0 0x11000] := by decide +kernel

/-- A partition that exports its first 2 MiB to partition 4 of package 3. -/
def exported0 (g : Nat) : State :=
  outside [3, 4] ⟨0x200000 + g, 8, some 9⟩ { lone (hart []) with parts := [(0, { part0 with exports := [⟨3, 4, 0, 0x200000, 1⟩] })] }

theorem witness_OutsideAccesses_remote : (exported0 0x11000).exportFor 3 4 0x211000 8 = some (0, 0x11000) ∧
    standsNow (exported0 0x11000) 0 0x11000 = true ∧ (exported0 0x13000).exportFor 3 4 0x213000 8 = some (0, 0x13000) ∧
    (match (exported0 0x13000).atHome 0 0x13000 with
      | .absent c _ => c
      | _ => 0) = 1 ∧ (exported0 0x200000).exportFor 3 4 0x400000 8 = none := by decide +kernel

/-- A ready responder with some sessions, or one that has negotiated nothing. -/
def responding (a : EventArgs) (full : Bool) (l : List Session) (p : Part) : State :=
  { lone (hart []) with
    arg := a, host := { HostIf.reset with ready := true, stage := 7 }, parts := [(0, p)]
    spdm := { conns := [(0, ⟨full, full, full, (0, [])⟩)], sessions := l, nextSession := 70 } }

theorem witness_SpdmResponses : let z := { part0 with sealed_ := true, keys := some keys0 }
    let e : Session := ⟨3, 0, false, false, 0⟩
    let d : Session := ⟨4, 0, true, true, 0⟩
    let s := responding { nats := [3], ok := true } true [e, d] z
    let q := responding { nats := [0, 4] } true [e, d] z
    let n := responding { nats := [32, 4, 4, 2] } true [] z
    s.arrives s.arg.msg = true ∧ s.conn.version = true ∧ s.conn.caps = true ∧ s.conn.algs = true ∧
    s.spdm.sessions.length < 64 ∧ s.session? 3 = some e ∧ e.finished = false ∧ s.arg.ok = true ∧ q.session? 4 = some d ∧
    d.finished = true ∧ d.mutual_ = true ∧ q.part? 0 = some z ∧ z.sealed_ = true ∧ z.bkey = none ∧ part0.sealed_ = false ∧
    s.spdm.sessions.all (fun e => e.id != 9) = true ∧ (responding {} false [] z).conn.algs = false ∧
    ((32).testBit 5 && (4).testBit 2 && (4).testBit 2 && (2).testBit 1) = true ∧ n.arg.nats = [32, 4, 4, 2] ∧
    ({ s with dies := [(9, { Die.reset with st := 6 })] } : State).arrives ⟨0, 0, true, 0⟩ = false ∧
    64 ≤ (responding {} true (List.replicate 64 e) z).spdm.sessions.length := by decide +kernel

theorem witness_SpdmResponses_measurements : ∀ i ∈ [0, 1, 2, 11, 12, 63, 64, 65, 127, 128, 255],
    let s := responding { nats := [i] } true [] part0
    s.arrives s.arg.msg = true ∧ s.conn.algs = true ∧ s.arg.nats = [i] ∧ s.part? 0 = some part0 ∧
    s.part? 1 = none := by decide +kernel

/-- An error at a site. -/
def striking (x : ErrorSite) (ns : List Nat) (s : State) : State := { s with arg := { nats := ns, site := x } }

theorem witness_ErrorsHandled_corrected : let few := striking (.scratchBank 0 3) [5] (lone (hart []))
    let many := { few with pkg := { few.pkg with wear := List.replicate 31 (0, 5, 1) } }
    let keep := fun (s : State) => s.pkg.wear.filter (fun x => decide (s.now < x.2.2 + 360000000000 * 7)) ++ [(0, 5, s.now)]
    .core 0 ∉ few.pkg.retired ∧ ((keep few).filter (fun x => x.1 == 0 && x.2.1 == 5)).length < 32 ∧
    ((keep few).filter (fun x => x.1 == 0)).length < 1024 ∧
    32 ≤ ((keep many).filter (fun x => x.1 == 0 && x.2.1 == 5)).length := by decide +kernel

theorem witness_ErrorsHandled_uncorrectable : let h := member 0 (hart [])
    let s := striking (.hartState 0) [] (launched (launch0 id) [(0, h)])
    let m := striking (.matrixColumn 0 3) [] (holding (hart []) (job9 .running true 5))
    let c := striking (.laneL1 0 4) [] (lone (hart []))
    let l := striking (.llcData 0 (0x11000 / 128)) [] (lone (hart []))
    (Map.sorted s.harts = true ∧ s.hart? 0 = some h ∧ h.role.launch = some 0 ∧ s.launch? 0 = some (launch0 id) ∧ (launch0 id).ended = false ∧
      (launch0 id).notifyDone = false ∧ (launch0 id).pkt.cmpl = 0 ∧ (launch0 id).pkt.notify = false ∧ s.cores = [] ∧
      h.run.stoppedJobs = [] ∧ s.harts = [(0, h)] ∧ s.part? h.role.part = some part0 ∧ part0.evq = 0) ∧
    Map.sorted (c.core 0).l1 = true ∧ l.llc? 0 (0x11000 / 128 * 128) = some ⟨0x8877665544332211, true, false, false⟩ ∧
    (m.job? 0 3 = some (job9 .running true 5) ∧ (job9 .running true 5).live = true ∧ (job9 .running true 5).matrix = true ∧
      m.part? (job9 .running true 5).part = some part0) ∧
    (backing false).stage2 part0 ⟨0, 1, 0, 0, 0, true⟩ (0x11000 / 128 * 128) = .hbm 0x211000 := by decide +kernel

/-- A slice of die 0 that partition 0 has dirtied. -/
def dirtied (tolerant : Bool) (ns : List Nat) : State :=
  let s := launched (launch0 id) []
  ({ s with parts := [(0, { part0 with ltol := tolerant })], arg := { nats := ns } }).modDie 0 (fun d => { d with
    slices := [(0, { Slice.reset with dirty := 1 })] })

theorem witness_ErrorsHandled_tag : ∀ b ∈ [true, false], let s := dirtied b [0, 7]
    s.arg.ok = false ∧ (s.die (0 / 64)).accept = true ∧ s.parts.all (fun p => p.2.evq == 0) = true ∧
    ((List.range 64).filter (fun p => (((s.die 0).slice 0).dirty ||| ((s.die 0).slice 0).sweep.getD 0).getLsbD p && (s.part? p).isSome)) = [0] ∧
    s.part? 0 = some { part0 with ltol := b } ∧ s.launch? 0 = some (launch0 id) ∧ (launch0 id).part = 0 ∧ (launch0 id).pkt.cmpl = 0 := by
  decide +kernel

theorem witness_ErrorsHandled_sweep : let s := told [homeOf ⟨0, 1, 0, 0, 0, true⟩ 0x11000, 0, 1] (backing false)
    let l : LlcLine := ⟨5, true, false, false⟩
    let c := told [homeOf ⟨0, 1, 0, 0, 0, true⟩ 0x11000, 0] { s with mem := { s.mem with llc := [(lineKey 0 0x11000, { l with held := true })] } }
    (s.die 0).accept = true ∧ (s.die 0).epoch = 0 ∧ homeOf ⟨0, 1, 0, 0, 0, true⟩ 0x11000 / 64 = 0 ∧
    (s.sharedLines (homeOf ⟨0, 1, 0, 0, 0, true⟩ 0x11000)).filter (fun e => e.2.dirty) = [(lineKey 0 0x11000, l)] ∧ Map.sorted s.mem.llc = true ∧
    s.part? 0 = some part0 ∧ part0.range? 0x11000 = some ⟨0, 1, 0, 0, 0, true⟩ ∧
    s.stage2 part0 ⟨0, 1, 0, 0, 0, true⟩ 0x11000 = .hbm 0x211000 ∧ s.pageFull 0 0x11000 = false ∧ Memory.wf s.mem.hbm = true ∧
    (c.sharedLines (homeOf ⟨0, 1, 0, 0, 0, true⟩ 0x11000)).any (fun e => e.2.held) = true ∧ s.sharedLines 63 = [] := by decide +kernel

/-- A unit that has worn out, or retires. -/
def worn (u : HwUnit) (ns : List Nat) (ok_ : Bool) (s : State) : State := { s with arg := { nats := ns, unit := u, ok := ok_ } }

theorem witness_ErrorsHandled_spare : let s := worn (.core 0) [] false (lone (hart []))
    let u := { s with pkg := { s.pkg with spares := [(0, 1)] } }
    let r := worn (.core 0) [1] false (launched (launch0 id) [(0, member 0 (hart []))])
    let g := { r with pkg := { r.pkg with retired := [.core 0] } }
    .core 0 ∉ s.pkg.retired ∧ Map.findD s.pkg.spares 0 0 = 0 ∧ 1 ≤ Map.findD u.pkg.spares 0 0 ∧ .link 0 ∉ s.pkg.retired ∧
    s.parts = [(0, part0)] ∧ part0.sealed_ = false ∧ (.core 0 ∈ g.pkg.retired ∧ .core 0 ∉ g.pkg.gone ∧
      g.hart? 0 = some (member 0 (hart [])) ∧ (member 0 (hart [])).role.launch = some 0 ∧ g.launch? 0 = some (launch0 id)) ∧
    0 < ({ part0 with mw := 1 } : Part).mw := by decide +kernel

theorem witness_PowerDiesAndLinks_power : let s := lone (hart [])
    let o := { s with pkg := { s.pkg with off := true } }
    let c := told [0] { world [] [] with now := 7 * 200000, clusters := [(0, Cluster.reset)] }
    s.pkg.off = false ∧ o.pkg.off = true ∧ (told [0] s).hart? 0 = some (hart []) ∧ ((told [0] s).cluster 0).powered = true ∧
    c.pkg.gidle ≠ 0 ∧ (c.cluster 0).powered = true ∧ (c.cluster 0).waking = false ∧ c.harts = [] ∧ (c.cluster 0).liveAll = 0 ∧
    (c.cluster 0).lastBusy + 7 * c.pkg.gidle ≤ c.now ∧ Map.sorted c.parts = true ∧ c.part? 0 = some part0 ∧ part0.cores.getLsbD 0 = true ∧
    ((told [0] (s.modCluster 0 (fun c => { c with waking := true }))).cluster 0).waking = true ∧
    ({ s.pkg with overLimit := true } : Pkg).overLimit = true := by decide +kernel

theorem witness_PowerDiesAndLinks_steps : ∀ n ∈ [5, 6, 7],
    let s : State := { lone (hart []) with arg := { nats := [n, 0] }, host := { HostIf.reset with stage := n - 1 } }
    s.pkg.off = false ∧ s.pkg.boot.toNat = 0 ∧ s.host.stage + 1 = n ∧ 5 ≤ n ∧ n ≤ 7 ∧ (lone (hart [])).arg.nats = [] := by decide +kernel

/-- A die in a state of its handshake. -/
def shaking (st step got : Nat) (a : EventArgs) : State :=
  let s := lone (hart [])
  { s with arg := a, dies := Map.put s.dies 1 { Die.reset with st := st, step := step, got := got }, host := { s.host with stage := 3 } }

theorem witness_PowerDiesAndLinks_dies : ∀ e ∈ [(1, 0, 0), (2, 1, 0), (2, 1, 2), (2, 2, 0), (2, 3, 0), (2, 4, 0), (3, 5, 1), (3, 6, 0), (4, 7, 0)],
    ∀ b ∈ [true, false], let s := shaking e.1 e.2.1 e.2.2 { nats := [1], ok := b }
    let t := shaking e.1 e.2.1 e.2.2 { nats := [1, 0, e.2.1, e.2.2] }
    let o := shaking e.1 e.2.1 e.2.2 { nats := [1, 1, e.2.1, e.2.2] }
    (s.die 1).st = e.1 ∧ (s.die 1).step = e.2.1 ∧ (s.die 1).got = e.2.2 ∧ s.host.stage = 3 ∧ s.pkg.off = false ∧ s.arg.ok = b ∧
    Map.sorted s.parts = true ∧ (t.die 1).epoch = 0 ∧ (t.die 1).step = e.2.1 ∧ (o.die 1).epoch ≠ 1 := by decide +kernel

theorem witness_PowerDiesAndLinks_dies_chain (x y : BitVec 4096) (hx : x = Config.rootKey) (hy : y = Config.identityKey 1) :
    let s := shaking 2 2 1 { nats := [1, x.toNat, y.toNat], ok := true }
    (s.die 1).got ≠ 0 ∧ s.arg.ok = true ∧ rootMatches (s.arg.nat 1) = true ∧ manifestMatches 1 (s.arg.nat 2) = true := by
  have r : ∀ v : BitVec 4096, BitVec.ofNat 4096 v.toNat = v := by simp
  have e : rootMatches x.toNat = true := by simp only [rootMatches, r, hx, beq_self_eq_true]
  have f : manifestMatches 1 y.toNat = true := by simp only [manifestMatches, r, hy, beq_self_eq_true]
  exact ⟨(by decide : (1 : Nat) ≠ 0), rfl, e, f⟩

theorem witness_PowerDiesAndLinks_dies_blocks : let s := shaking 2 4 0 { nats := 1 :: referenceBlocks 1, ok := true }
    (s.die 1).step = 4 ∧ s.arg.nats = 1 :: referenceBlocks 1 ∧ (referenceBlocks 1).take 5 = referenceBlocks 1 :=
  ⟨rfl, rfl, rfl⟩

theorem witness_PowerDiesAndLinks_reset : let s := told [0, 0, 0, 1, 0] (lone (hart []))
    let u := told [0, 0, 0, 1, 2] (lone (hart []))
    (s.die 0).st = 5 ∧ (s.die 0).nres = 0 ∧ (u.die 0).nres ≠ 2 := by decide +kernel

/-- Direction `k` of the links in a state, with both end dies in service. -/
def linked (k : Nat) (l : LinkSt) (a : EventArgs) : State :=
  let s := lone (hart [])
  { s with arg := { a with link := ⟨k / 2, k % 2 == 1⟩ }, links := [(k, l)]
           dies := (List.range 10).map (fun d => (d, { Die.reset with accept := true, st := 5 })) }

theorem witness_PowerDiesAndLinks_flits : let l := { LinkSt.reset with keys := [(0, 77)], flits := 2 ^ 40 - 1 }
    let s := linked 1 l { nats := [0, 0], ok := true }
    let r := linked 1 { l with rolling := some 4095, keys := [(0, 77), (1, 78)], kidx := 1 } { nats := [1, 0], ok := true }
    s.link 1 = l ∧ l.inService = true ∧ l.retraining = false ∧ (linkDies 0).all (fun e => (s.die e).st == 5) = true ∧
    Map.find l.keys 0 ≠ none ∧ ¬ (4096 ≤ l.rolling.getD 0 ∧ 0 ≠ l.kidx) ∧
    2 ^ 40 ≤ l.flits + 1 ∧ l.awaiting = false ∧ l.rolling = none ∧ (r.link 1).rolling = some 4095 ∧
    (linked 1 l { nats := [3, 0], ok := true }).arg.nats = [3, 0] ∧ Map.find l.keys 3 = none ∧
    (linked 1 l { nats := [3, 2], ok := true }).arg.nats = [3, 2] := by decide +kernel

theorem witness_PowerDiesAndLinks_rollover : let l := { LinkSt.reset with keys := [(0, 77)], flits := 2 ^ 40 }
    let s := linked 1 l { ok := true }
    let t := linked 1 { l with awaiting := true, failed := 2 } { nats := [0, 2] }
    let b := linked 20 { l with awaiting := true, failed := 2 } { nats := [0, 2] }
    let e := linked 1 { l with rolling := some 4096 } {}
    (s.link 1).inService = true ∧ (s.link 1).retraining = false ∧ (s.link 1).rolling = none ∧ 2 ^ 40 ≤ (s.link 1).flits ∧
    s.mayRoll s.arg.link = true ∧ (t.link 1).awaiting = true ∧ (t.link 1).kidx = 0 ∧ (t.link 1).failed = 2 ∧
    3 ≤ (t.link 0).failed + (t.link 1).failed + 1 ∧ receiverOf t.arg.link = some 1 ∧ receiverOf b.arg.link = some 8 ∧
    4096 ≤ (e.link 1).rolling.getD 0 ∧ (s.link 1).rolling.getD 0 < 4096 ∧
    ((linked 28 l {}).die 8).st = 5 ∧ (linked 28 l {}).arg.link.link = 14 ∧ (linked 92 l {}).arg.link.link = 46 ∧
    ((linked 92 l {}).die 9).st = 5 := by decide +kernel

theorem witness_KeepsWellFormed : (lone (hart [])).wellFormed = true ∧ (next? (exec (.addi 5 0 1) (lone (hart [])))).isSome = true := by
  decide +kernel

/-! ## Single steps

One instruction each on a small state; the results are worked out by hand from the rules. -/

/-- x5 after an instruction on a hart with x6 and x7. -/
def x5 (i : Instr) (a b : DWord) : Option DWord := after i (lone (hart [(6, a), (7, b)])) (fun h => h.getX 5)

theorem test_addi_wraps : x5 (.addi 5 6 1) 0xFFFFFFFFFFFFFFFF 0 = some 0 := by decide +kernel

theorem test_slti_signed : x5 (.slti 5 6 0xFFF) 0xFFFFFFFFFFFFFFFE 0 = some 1 := by decide +kernel

theorem test_sltiu_extends_then_unsigned : x5 (.sltiu 5 6 0xFFF) 5 0 = some 1 := by decide +kernel

theorem test_xori_extends : x5 (.xori 5 6 0xFFF) 0x0F 0 = some 0xFFFFFFFFFFFFFFF0 := by decide +kernel

theorem test_ori : x5 (.ori 5 6 0x700) 0x0F 0 = some 0x70F := by decide +kernel

theorem test_andi : x5 (.andi 5 6 0xFF0) 0xFFFFFFFFFFFFFFFF 0 = some 0xFFFFFFFFFFFFFFF0 := by decide +kernel

theorem test_slli : x5 (.slli 5 6 63) 3 0 = some 0x8000000000000000 := by decide +kernel

theorem test_srli : x5 (.srli 5 6 63) 0xFFFFFFFFFFFFFFFF 0 = some 1 := by decide +kernel

theorem test_srai : x5 (.srai 5 6 4) 0x8000000000000000 0 = some 0xF800000000000000 := by decide +kernel

theorem test_addiw_extends : x5 (.addiw 5 6 1) 0x7FFFFFFF 0 = some 0xFFFFFFFF80000000 := by decide +kernel

theorem test_slliw : x5 (.slliw 5 6 31) 3 0 = some 0xFFFFFFFF80000000 := by decide +kernel

theorem test_srliw : x5 (.srliw 5 6 4) 0xFFFFFFFF80000000 0 = some 0x08000000 := by decide +kernel

theorem test_sraiw : x5 (.sraiw 5 6 4) 0x80000000 0 = some 0xFFFFFFFFF8000000 := by decide +kernel

theorem test_add : x5 (.add 5 6 7) 0xFFFFFFFFFFFFFFFF 2 = some 1 := by decide +kernel

theorem test_sub : x5 (.sub 5 6 7) 0 1 = some 0xFFFFFFFFFFFFFFFF := by decide +kernel

theorem test_sll_six_bits : x5 (.sll 5 6 7) 1 65 = some 2 := by decide +kernel

theorem test_slt : x5 (.slt 5 6 7) 0xFFFFFFFFFFFFFFFF 1 = some 1 := by decide +kernel

theorem test_sltu : x5 (.sltu 5 6 7) 0xFFFFFFFFFFFFFFFF 1 = some 0 := by decide +kernel

theorem test_xor : x5 (.xor 5 6 7) 0xF0F0 0xFF00 = some 0x0FF0 := by decide +kernel

theorem test_srl : x5 (.srl 5 6 7) 0x8000000000000000 63 = some 1 := by decide +kernel

theorem test_sra : x5 (.sra 5 6 7) 0x8000000000000000 63 = some 0xFFFFFFFFFFFFFFFF := by decide +kernel

theorem test_or : x5 (.or 5 6 7) 0xF0 0x0F = some 0xFF := by decide +kernel

theorem test_and : x5 (.and 5 6 7) 0xF3 0x3F = some 0x33 := by decide +kernel

theorem test_mul_low : x5 (.mul 5 6 7) 0xFFFFFFFFFFFFFFFF 3 = some 0xFFFFFFFFFFFFFFFD := by decide +kernel

theorem test_mulh_signed : x5 (.mulh 5 6 7) 0xFFFFFFFFFFFFFFFF 0xFFFFFFFFFFFFFFFF = some 0 := by decide +kernel

theorem test_mulhsu : x5 (.mulhsu 5 6 7) 0xFFFFFFFFFFFFFFFF 0xFFFFFFFFFFFFFFFF = some 0xFFFFFFFFFFFFFFFF := by decide +kernel

theorem test_mulhu : x5 (.mulhu 5 6 7) 0xFFFFFFFFFFFFFFFF 0xFFFFFFFFFFFFFFFF = some 0xFFFFFFFFFFFFFFFE := by decide +kernel

theorem test_div_overflow : x5 (.div 5 6 7) 0x8000000000000000 0xFFFFFFFFFFFFFFFF = some 0x8000000000000000 := by decide +kernel

theorem test_div_toward_zero : x5 (.div 5 6 7) 0xFFFFFFFFFFFFFFF9 2 = some 0xFFFFFFFFFFFFFFFD := by decide +kernel

theorem test_divu_by_zero : x5 (.divu 5 6 7) 5 0 = some 0xFFFFFFFFFFFFFFFF := by decide +kernel

theorem test_rem_sign_of_dividend : x5 (.rem 5 6 7) 0xFFFFFFFFFFFFFFF9 2 = some 0xFFFFFFFFFFFFFFFF := by decide +kernel

theorem test_remu_by_zero : x5 (.remu 5 6 7) 5 0 = some 5 := by decide +kernel

theorem test_addw : x5 (.addw 5 6 7) 0x7FFFFFFF 1 = some 0xFFFFFFFF80000000 := by decide +kernel

theorem test_subw : x5 (.subw 5 6 7) 0 1 = some 0xFFFFFFFFFFFFFFFF := by decide +kernel

theorem test_sllw_five_bits : x5 (.sllw 5 6 7) 1 33 = some 2 := by decide +kernel

theorem test_srlw : x5 (.srlw 5 6 7) 0xFFFFFFFF80000000 31 = some 1 := by decide +kernel

theorem test_sraw : x5 (.sraw 5 6 7) 0x80000000 31 = some 0xFFFFFFFFFFFFFFFF := by decide +kernel

theorem test_mulw : x5 (.mulw 5 6 7) 0x10000 0x8000 = some 0xFFFFFFFF80000000 := by decide +kernel

theorem test_divw_overflow : x5 (.divw 5 6 7) 0x80000000 0xFFFFFFFF = some 0xFFFFFFFF80000000 := by decide +kernel

theorem test_divuw_extends : x5 (.divuw 5 6 7) 0xFFFFFFFE 1 = some 0xFFFFFFFFFFFFFFFE := by decide +kernel

theorem test_remw_by_zero : x5 (.remw 5 6 7) 0x180000001 0 = some 0xFFFFFFFF80000001 := by decide +kernel

theorem test_remuw : x5 (.remuw 5 6 7) 0x100000007 4 = some 3 := by decide +kernel

theorem test_lui_extends : x5 (.lui 5 0x80000) 0 0 = some 0xFFFFFFFF80000000 := by decide +kernel

theorem test_auipc : x5 (.auipc 5 0x00001) 0 0 = some 0x11000 := by decide +kernel

theorem test_x0_reads_zero : x5 (.add 5 0 0) 1 2 = some 0 := by decide +kernel

theorem test_x0_is_not_written : after (.addi 0 6 1) (lone (hart [(6, 4)])) (fun h => (h.getX 0, h.pc)) = some (0, 0x10004) := by decide +kernel

/-- x5 and the pc after an instruction. -/
def jumped (i : Instr) (a b : DWord) : Option (DWord × DWord) := after i (lone (hart [(6, a), (7, b)])) (fun h => (h.getX 5, h.pc))

theorem test_jal_back : jumped (.jal 5 0xFFC00) 0 0 = some (0x10004, 0xF800) := by decide +kernel

theorem test_jalr_drops_bit_0 : jumped (.jalr 5 6 0x003) 0x20002 0 = some (0x10004, 0x20004) := by decide +kernel

theorem test_beq_not_taken : jumped (.beq 6 7 0x002) 1 2 = some (0, 0x10004) := by decide +kernel

theorem test_bne_taken : jumped (.bne 6 7 0x004) 1 2 = some (0, 0x10008) := by decide +kernel

theorem test_blt_signed : jumped (.blt 6 7 0x004) 0xFFFFFFFFFFFFFFFF 0 = some (0, 0x10008) := by decide +kernel

theorem test_bge_equal : jumped (.bge 6 7 0x004) 3 3 = some (0, 0x10008) := by decide +kernel

theorem test_bltu_unsigned : jumped (.bltu 6 7 0x004) 0xFFFFFFFFFFFFFFFF 0 = some (0, 0x10004) := by decide +kernel

theorem test_bgeu_unsigned : jumped (.bgeu 6 7 0xFFE) 0xFFFFFFFFFFFFFFFF 0 = some (0, 0xFFFC) := by decide +kernel

/-- x5 after an access at an offset from 0x11000. -/
def loaded (i : Instr) : Option DWord := after i (lone (hart [(6, 0x11000), (7, 0xFEDCBA9876543210)])) (fun h => h.getX 5)
/-- The doubleword at 0x11000 after a store of 0xFEDCBA9876543210, or of what an AMO makes of it. -/
def stored (i : Instr) : Option Nat := (next? (exec i (lone (hart [(6, 0x11000), (7, 0xFEDCBA9876543210)])))).map (fun t => t.numAt 0 0x11000 8)

theorem test_lb_extends : loaded (.lb 5 6 7) = some 0xFFFFFFFFFFFFFF88 := by decide +kernel

theorem test_lh_extends : loaded (.lh 5 6 6) = some 0xFFFFFFFFFFFF8877 := by decide +kernel

theorem test_lw_extends : loaded (.lw 5 6 4) = some 0xFFFFFFFF88776655 := by decide +kernel

theorem test_ld : loaded (.ld 5 6 0) = some 0x8877665544332211 := by decide +kernel

theorem test_lbu : loaded (.lbu 5 6 7) = some 0x88 := by decide +kernel

theorem test_lhu : loaded (.lhu 5 6 6) = some 0x8877 := by decide +kernel

theorem test_lwu : loaded (.lwu 5 6 4) = some 0x88776655 := by decide +kernel

theorem test_sb_one_byte : stored (.sb 6 7 3) = some 0x8877665510332211 := by decide +kernel

theorem test_sh : stored (.sh 6 7 2) = some 0x8877665532102211 := by decide +kernel

theorem test_sw : stored (.sw 6 7 4) = some 0x7654321044332211 := by decide +kernel

theorem test_sd : stored (.sd 6 7 0) = some 0xFEDCBA9876543210 := by decide +kernel

theorem test_amoswap : (loaded (.amoswap 5 6 7 false false false), stored (.amoswap 5 6 7 false false false)) = (some 0x44332211, some 0x8877665576543210) := by decide +kernel

theorem test_amoadd : (loaded (.amoadd 5 6 7 false false true), stored (.amoadd 5 6 7 false false true)) = (some 0x8877665544332211, some 0x875420EDBA875421) := by decide +kernel

theorem test_amoxor : stored (.amoxor 5 6 7 false false false) = some 0x8877665532671001 := by decide +kernel

theorem test_amoand : stored (.amoand 5 6 7 false false false) = some 0x8877665544102210 := by decide +kernel

theorem test_amoor : stored (.amoor 5 6 7 false false false) = some 0x8877665576773211 := by decide +kernel

theorem test_amomin_signed : stored (.amomin 5 6 7 false false true) = some 0x8877665544332211 := by decide +kernel

theorem test_amomax_signed : stored (.amomax 5 6 7 false false true) = some 0xFEDCBA9876543210 := by decide +kernel

theorem test_amominu : stored (.amominu 5 6 7 false false false) = some 0x8877665544332211 := by decide +kernel

theorem test_amomaxu : stored (.amomaxu 5 6 7 false false false) = some 0x8877665576543210 := by decide +kernel

theorem test_lr_reserves : after (.lr 5 6 false false true) (lone (hart [(6, 0x11000)])) (fun h => (h.getX 5, h.run.resv.isSome)) = some (0x8877665544332211, true) := by decide +kernel

theorem test_sc_without_reservation_fails : after (.sc 5 6 7 false false true) (lone (hart [(6, 0x11000), (7, 1)])) (fun h => h.getX 5) = some 1 := by decide +kernel

theorem test_sc_without_reservation_stores_nothing : stored (.sc 5 6 7 false false true) = some 0x8877665544332211 := by decide +kernel

theorem test_lw_misaligned_traps : after (.lw 5 6 2) (lone (hart [(6, 0x11000)])) (fun h => (h.priv, h.csr.scause, h.csr.stval, h.csr.sepc)) = some (.S, 4, 0x11002, 0x10000) := by decide +kernel

theorem test_fence_goes_on : after (.fence false 3 3) (lone (hart [])) (fun h => h.pc) = some 0x10004 := by decide +kernel

theorem test_fence_i_goes_on : after .fenceI (lone (hart [])) (fun h => h.pc) = some 0x10004 := by decide +kernel

theorem test_csrrw_swaps : after (.csrrw 5 6 0x140) (lone (hartAt .S [(6, 7)])) (fun h => (h.getX 5, h.csr.sscratch)) = some (0, 7) := by decide +kernel

theorem test_csrrs_sets : after (.csrrs 5 6 0x100) (lone (hartAt .S [(6, 2)])) (fun h => h.csr.mstatus) = some 0x0000000A00000002 := by decide +kernel

theorem test_csrrc_clears : after (.csrrc 5 6 0x302) (lone (hartAt .M [(6, 1)])) (fun h => (h.getX 5, h.csr.medeleg)) = some (0xFF00B15D, 0xFF00B15C) := by decide +kernel

theorem test_csrrwi : after (.csrrwi 5 31 0x140) (lone (hartAt .S [])) (fun h => h.csr.sscratch) = some 31 := by decide +kernel

theorem test_csrrsi : after (.csrrsi 5 4 0x140) (lone (hartAt .S [])) (fun h => h.csr.sscratch) = some 4 := by decide +kernel

theorem test_csrrci_in_u_traps : after (.csrrci 5 4 0x140) (lone (hart [])) (fun h => (h.priv, h.csr.scause)) = some (.S, 2) := by decide +kernel

theorem test_sfence_vma_in_u_traps : after (.sfenceVma 0 0) (lone (hart [])) (fun h => (h.priv, h.csr.scause)) = some (.S, 2) := by decide +kernel

theorem test_ecall_from_u : after .ecall (lone (hart [])) (fun h => (h.priv, h.csr.scause, h.csr.sepc)) = some (.S, 8, 0x10000) := by decide +kernel

theorem test_ebreak : after .ebreak (lone (hart [])) (fun h => (h.priv, h.csr.scause, h.csr.sepc)) = some (.S, 3, 0x10000) := by decide +kernel

theorem test_sret_restores : after .sret (lone (handler .S)) (fun h => (h.priv, h.pc)) = some (.S, 0x10000) := by decide +kernel

theorem test_mret_in_s_traps : after .mret (lone (hartAt .S [])) (fun h => (h.priv, h.csr.scause)) = some (.S, 2) := by decide +kernel

theorem test_wfi_parks : after .wfi (lone (hartAt .S [])) (fun h => h.run.wait) = some (some .wfi) := by decide +kernel

/-- Lanes 0 and 1 of v2 after a lane instruction, with values in lanes 0 and 1 of v0 and v1. -/
def lanes2 (i : Instr) (a b : Word × Word) : Option (Word × Word) :=
  after i (lone (laneHart 0 [(0, a.1), (1, a.2), (32, b.1), (33, b.2)])) (fun h => (h.getV 2 0, h.getV 2 1))

theorem test_ladd_saturates_nothing : lanes2 (.ladd ⟨2, 0, 1, .i32, ⟨15, false⟩⟩) (0xFFFFFFFF, 5) (2, 7) = some (1, 12) := by decide +kernel

theorem test_ladd_halves : lanes2 (.ladd ⟨2, 0, 1, .i16x2, ⟨15, false⟩⟩) (0x0001FFFF, 0) (0x00010001, 0) = some (0x00020000, 0) := by decide +kernel

theorem test_lsub : lanes2 (.lsub ⟨2, 0, 1, .i32, ⟨15, false⟩⟩) (0, 9) (1, 4) = some (0xFFFFFFFF, 5) := by decide +kernel

theorem test_lmul_low : lanes2 (.lmul ⟨2, 0, 1, .i32, ⟨15, false⟩⟩) (0x10000, 3) (0x10000, 5) = some (0, 15) := by decide +kernel

theorem test_lmulh_signed : lanes2 (.lmulh ⟨2, 0, 1, .i32, ⟨15, false⟩⟩) (0xFFFFFFFF, 0x40000000) (2, 8) = some (0xFFFFFFFF, 2) := by decide +kernel

theorem test_lmulh_unsigned : lanes2 (.lmulh ⟨2, 0, 1, .n32, ⟨15, false⟩⟩) (0xFFFFFFFF, 0x40000000) (2, 8) = some (1, 2) := by decide +kernel

theorem test_lmad : lanes2 (.lmad ⟨2, 0, 1, 0, .i32, ⟨15, false⟩⟩) (3, 5) (4, 6) = some (15, 35) := by decide +kernel

theorem test_lmin_signed : lanes2 (.lmin ⟨2, 0, 1, .i32, ⟨15, false⟩⟩) (0xFFFFFFFF, 1) (2, 8) = some (0xFFFFFFFF, 1) := by decide +kernel

theorem test_lmax_unsigned : lanes2 (.lmax ⟨2, 0, 1, .n32, ⟨15, false⟩⟩) (0xFFFFFFFF, 1) (2, 8) = some (0xFFFFFFFF, 8) := by decide +kernel

theorem test_labs : lanes2 (.labs ⟨2, 0, .i32, ⟨15, false⟩⟩) (0xFFFFFFFB, 7) (0, 0) = some (5, 7) := by decide +kernel

theorem test_land : lanes2 (.land ⟨2, 0, 1, .i32, ⟨15, false⟩⟩) (0xF3, 0xF0) (0x3F, 0x0F) = some (0x33, 0) := by decide +kernel

theorem test_landn : lanes2 (.landn ⟨2, 0, 1, .i32, ⟨15, false⟩⟩) (0xF3, 0xF0) (0x3F, 0x0F) = some (0xC0, 0xF0) := by decide +kernel

theorem test_lxor_imm : lanes2 (.lxorImm ⟨2, 0, 0x00FF, .i32, ⟨15, false⟩⟩) (0x0F, 0) (0, 0) = some (0xF0, 0xFF) := by decide +kernel

theorem test_lshl : lanes2 (.lshl ⟨2, 0, 1, .i32, ⟨15, false⟩⟩) (1, 1) (31, 33) = some (0x80000000, 2) := by decide +kernel

theorem test_lsra : lanes2 (.lsra ⟨2, 0, 1, .i32, ⟨15, false⟩⟩) (0x80000000, 0x40000000) (31, 30) = some (0xFFFFFFFF, 1) := by decide +kernel

theorem test_lrot : lanes2 (.lrot ⟨2, 0, 1, .i32, ⟨15, false⟩⟩) (0x80000001, 1) (1, 31) = some (3, 0x80000000) := by decide +kernel

theorem test_lclz : lanes2 (.lclz ⟨2, 0, .i32, ⟨15, false⟩⟩) (0, 0x00010000) (0, 0) = some (32, 15) := by decide +kernel

theorem test_lpopc : lanes2 (.lpopc ⟨2, 0, .i32, ⟨15, false⟩⟩) (0xFFFFFFFF, 0x11) (0, 0) = some (32, 2) := by decide +kernel

theorem test_lbrev : lanes2 (.lbrev ⟨2, 0, .i32, ⟨15, false⟩⟩) (1, 0xC0000000) (0, 0) = some (0x80000000, 3) := by decide +kernel

theorem test_lbfx_extends : lanes2 (.lbfx ⟨2, 0, .i32, ⟨15, false⟩⟩ 4 3 true) (0x80, 0x70) (0, 0) = some (0xFFFFFFF8, 7) := by decide +kernel

theorem test_lmovi_extends : lanes2 (.lmovi 2 0x8000 .i32 ⟨15, false⟩) (0, 0) (0, 0) = some (0xFFFF8000, 0xFFFF8000) := by decide +kernel

theorem test_lbcast : lanes2 (.lbcast ⟨2, 6, .i32, ⟨15, false⟩⟩) (0, 0) (0, 0) = some (0, 0) := by decide +kernel

theorem test_lfadd : lanes2 (.lfadd ⟨2, 0, 1, .f32, ⟨15, false⟩⟩) (0x3F800000, 0x3FC00000) (0x40000000, 0xBFC00000) = some (0x40400000, 0x00000000) := by decide +kernel

theorem test_lfsub_rounds_to_even : lanes2 (.lfsub ⟨2, 0, 1, .f32, ⟨15, false⟩⟩) (0x4B800000, 0x3F800000) (0xBF800000, 0x3E800000) = some (0x4B800000, 0x3F400000) := by decide +kernel

theorem test_lfmul : lanes2 (.lfmul ⟨2, 0, 1, .f32, ⟨15, false⟩⟩) (0x3FC00000, 0xC0000000) (0x3FC00000, 0x3F000000) = some (0x40100000, 0xBF800000) := by decide +kernel

theorem test_lfma_rounds_once : lanes2 (.lfma ⟨2, 0, 1, 0, .f32, ⟨15, false⟩⟩) (0x40400000, 0x3DCCCCCD) (0x40800000, 0x40000000) = some (0x41700000, 0x3E99999A) := by decide +kernel

theorem test_lfdiv : lanes2 (.lfdiv ⟨2, 0, 1, .f32, ⟨15, false⟩⟩) (0x3F800000, 0x3F800000) (0x40400000, 0xC0800000) = some (0x3EAAAAAB, 0xBE800000) := by decide +kernel

theorem test_lfdiv_by_zero : lanes2 (.lfdiv ⟨2, 0, 1, .f32, ⟨15, false⟩⟩) (0x3F800000, 0x00000000) (0x80000000, 0x00000000) = some (0xFF800000, 0x7FC00000) := by decide +kernel

theorem test_lfsqrt : lanes2 (.lfsqrt ⟨2, 0, .f32, ⟨15, false⟩⟩) (0x40000000, 0x40800000) (0, 0) = some (0x3FB504F3, 0x40000000) := by decide +kernel

theorem test_lfmin_of_zeros : lanes2 (.lfmin ⟨2, 0, 1, .f32, ⟨15, false⟩⟩) (0x00000000, 0x3F800000) (0x80000000, 0x40000000) = some (0x80000000, 0x3F800000) := by decide +kernel

theorem test_lfmax : lanes2 (.lfmax ⟨2, 0, 1, .f32, ⟨15, false⟩⟩) (0x3F800000, 0xC0000000) (0x40000000, 0xC0400000) = some (0x40000000, 0xC0000000) := by decide +kernel

theorem test_lfsgn_copies : lanes2 (.lfsgn ⟨2, 0, 1, .f32, ⟨15, false⟩⟩ 0) (0x3F800000, 0x40000000) (0xC0000000, 0x40400000) = some (0xBF800000, 0x40000000) := by decide +kernel

theorem test_lfrcp : lanes2 (.lfrcp ⟨2, 0, .f32, ⟨15, false⟩⟩) (0x40000000, 0xC0800000) (0x00000000, 0x00000000) = some (0x3F000000, 0xBE800000) := by decide +kernel

theorem test_lfrsq : lanes2 (.lfrsq ⟨2, 0, .f32, ⟨15, false⟩⟩) (0x40800000, 0x41800000) (0x00000000, 0x00000000) = some (0x3F000000, 0x3E800000) := by decide +kernel

theorem test_lfexp2 : lanes2 (.lfexp2 ⟨2, 0, .f32, ⟨15, false⟩⟩) (0x40400000, 0xBF800000) (0x00000000, 0x00000000) = some (0x41000000, 0x3F000000) := by decide +kernel

theorem test_lflog2 : lanes2 (.lflog2 ⟨2, 0, .f32, ⟨15, false⟩⟩) (0x41000000, 0x3F000000) (0x00000000, 0x00000000) = some (0x40400000, 0xBF800000) := by decide +kernel

/-- A predicate after a lane instruction on the same values. -/
def pred2 (i : Instr) (k : Nat) (a b : Word × Word) : Option Word :=
  after i (lone (laneHart 0 [(0, a.1), (1, a.2), (32, b.1), (33, b.2)])) (fun h => h.getP k)

theorem test_lextr : after (.lextr 5 0 .i32 1) (lone (laneHart 0 [(1, 0x80000001)])) (fun h => h.getX 5) = some 0xFFFFFFFF80000001 := by decide +kernel

theorem test_lins : after (.lins 2 11 .i32 1) (lone (laneHart 0 [])) (fun h => (h.getV 2 0, h.getV 2 1)) = some (0, 0x11000) := by decide +kernel

theorem test_lballot : after (.lballot 5 0) (lone (laneHart 0 [])) (fun h => h.getX 5) = some 1 := by decide +kernel

theorem test_lred_adds : after (.lred ⟨2, 0, .i32, ⟨15, false⟩⟩ 0) (lone (laneHart 0 [(0, 5), (1, 7)])) (fun h => (h.getV 2 0, h.getV 2 1)) = some (12, 12) := by decide +kernel

theorem test_lscan_excludes : after (.lscan ⟨2, 0, .i32, ⟨15, false⟩⟩ 0 true) (lone (laneHart 0 [(0, 5), (1, 7)])) (fun h => (h.getV 2 0, h.getV 2 1)) = some (0, 5) := by decide +kernel

theorem test_emset : after (.emset 11) (lone (laneHart 0 [])) (fun h => h.lanes.em) = some (0x11000 &&& 3) := by decide +kernel

theorem test_emget : after (.emget 5) (lone (laneHart 0 [])) (fun h => h.getX 5) = some 3 := by decide +kernel

theorem test_emand : after (.emand 5 0 true) (lone (laneHart 0 [])) (fun h => h.lanes.em) = some 2 := by decide +kernel

theorem test_plog_and : after (.plog 3 0 1 ⟨15, false⟩ 8) (lone (laneHart 0 [])) (fun h => h.getP 3) = some 1 := by decide +kernel

theorem test_pmov_to_x : after (.pmovToX 5 0) (lone (laneHart 0 [])) (fun h => h.getX 5) = some 1 := by decide +kernel

theorem test_lgets_lane : after (.lgets 2 ⟨15, false⟩ 0) (lone (laneHart 0 [])) (fun h => (h.getV 2 0, h.getV 2 1)) = some (0, 1) := by decide +kernel

theorem test_lcmp_less : pred2 (.lcmp ⟨4, 0, 1, .i32, ⟨15, false⟩⟩ 2) 4 (0xFFFFFFFF, 3) (1, 3) = some 1 := by decide +kernel

theorem test_lfcmp_nan_is_unordered : pred2 (.lfcmp ⟨4, 0, 1, .f32, ⟨15, false⟩⟩ 0) 4 (0x7FC00000, 0x80000000) (0x7FC00000, 0x00000000) = some 2 := by decide +kernel

theorem test_lane_in_masked_partition_traps : after (.ltrns 32 0) (masked 0x80 (laneHart 0 [])) (fun h => (h.priv, h.csr.scause)) = some (.S, 2) := by decide +kernel

theorem test_lbfi : lanes2 (.lbfi ⟨2, 0, 1, .i32, ⟨15, false⟩⟩ 8 3) (0xFFFFFFFF, 0) (0x5, 0xFF) = some (0xFFFFF5FF, 0xF00) := by decide +kernel

theorem test_lsel_where_not : lanes2 (.lsel ⟨2, 0, 1, .i32, ⟨15, false⟩⟩ 3 true) (10, 11) (20, 21) = some (20, 11) := by decide +kernel

theorem test_laddc_carries : after (.laddc ⟨2, 0, 1, .n32, ⟨15, false⟩⟩ 3 4 true) (lone (laneHart 0 [(0, 0xFFFFFFFF), (1, 0xFFFFFFFF), (32, 0), (33, 0)])) (fun h => (h.getV 2 0, h.getV 2 1, h.getP 4)) = some (0, 0xFFFFFFFF, 1) := by decide +kernel

theorem test_lshfl_xor : lanes2 (.lshfl ⟨2, 0, 0, .i32, ⟨15, false⟩⟩ 1 1) (10, 11) (0, 0) = some (11, 10) := by decide +kernel

theorem test_lshfl_up_stays_at_the_edge : lanes2 (.lshfl ⟨2, 0, 0, .i32, ⟨15, false⟩⟩ 2 1) (10, 11) (0, 0) = some (10, 10) := by decide +kernel

theorem test_lpack_example : after (.lpack ⟨6, 10, 6, .f32, ⟨15, false⟩⟩ 3) (lone (laneHart 0 [(192, 0x30403800), (320, 0x43E00000)])) (fun h => h.getV 6 0) = some 0x7E304038 := by decide +kernel

theorem test_lunpk_half : lanes2 (.lunpk ⟨2, 0, .f32, ⟨15, false⟩⟩ 1 1) (0x3C004000, 0xC0000000) (0, 0) = some (0x3F800000, 0xC0000000) := by decide +kernel

theorem test_lcvt_to_half_clamps : lanes2 (.lcvt ⟨2, 0, .f32, ⟨15, false⟩⟩ 1 0 false 0) (0x3F800000, 0xC0000000) (0, 0) = some (0x3C00, 0xC000) := by decide +kernel

theorem test_lfclass_infinity_and_zero : pred2 (.lfclass ⟨4, 0, .f32, ⟨15, false⟩⟩ 0x090) 4 (0x7F800000, 0x00000000) (0, 0) = some 3 := by decide +kernel

/-- A lane access at x11 = 0x11000 and the offsets in v1. -/
def access (sz : BitVec 2) (sx : Bool) : LaneMem := ⟨2, 11, 1, 0, sz, sx, ⟨15, false⟩⟩

theorem test_lld_bytes_extended : lanes2 (.lld (access 0 true) 0) (0, 0) (7, 1) = some (0xFFFFFF88, 0x22) := by decide +kernel

theorem test_lld_words : lanes2 (.lld (access 2 false) 0) (0, 0) (4, 0) = some (0x88776655, 0x44332211) := by decide +kernel

/-- The doubleword at 0x11000 after a lane store of v2 = (5, 6) at the offsets in v1, or an atomic with v0. -/
def stored2 (i : Instr) (b : Word × Word) : Option Nat :=
  (next? (exec i (lone (laneHart 0 [(0, 1), (1, 2), (32, b.1), (33, b.2), (64, 5), (65, 6)])))).map (fun t => t.numAt 0 0x11000 8)

theorem test_lst_ascending_lanes : stored2 (.lst (access 0 false) 0) (0, 0) = some 0x8877665544332206 := by decide +kernel

theorem test_lst_halves : stored2 (.lst (access 1 false) 0) (0, 6) = some 0x0006665544330005 := by decide +kernel

theorem test_lamo_adds_in_lane_order : stored2 (.lamo (access 2 false) 1 0 1 0) (0, 0) = some 0x8877665544332214 := by decide +kernel

theorem test_lamo_answers_old_values : lanes2 (.lamo (access 2 false) 1 0 1 0) (1, 2) (0, 0) = some (0x44332211, 0x44332212) := by decide +kernel

theorem test_lld_misaligned_traps : after (.lld (access 2 false) 0) (lone (laneHart 0 [(32, 4), (33, 2)])) (fun h => (h.priv, h.csr.scause, h.csr.stval, h.dev.lfmask)) = some (.S, 25, 0x11002, 2) := by decide +kernel

theorem test_ltrns : after (.ltrns 32 0) (lone (laneHart 0 [(1, 7)])) (fun h => (h.getV 33 0, h.getV 32 1)) = some (7, 0) := by decide +kernel

theorem test_xfence_goes_on : after .xfence (lone (hart [])) (fun h => h.pc) = some 0x10004 := by decide +kernel

theorem test_ofence_goes_on : after .ofence (lone (hart [])) (fun h => h.pc) = some 0x10004 := by decide +kernel

theorem test_pfence_goes_on : after (.pfence 3 2) (lone (hart [])) (fun h => h.pc) = some 0x10004 := by decide +kernel

theorem test_lkbank_takes_the_lock : after (.lkbank 6) (lone (hart [(6, 3)])) (fun h => (h.getX 6, h.pc)) = some (3, 0x10004) := by decide +kernel

theorem test_tlbprobe_in_u_traps : after (.tlbprobe 5 6) (lone (hart [])) (fun h => (h.priv, h.csr.scause)) = some (.S, 2) := by decide +kernel

theorem test_msgs_in_u_traps : after (.msgs 5 6) (lone (hart [])) (fun h => (h.priv, h.csr.scause)) = some (.S, 2) := by decide +kernel

theorem test_ctxs_in_s_traps : after (.ctxs 5) (lone (hartAt .S [])) (fun h => (h.priv, h.csr.scause)) = some (.S, 2) := by decide +kernel

theorem test_get_version : (next? (exec .getVersion (responding {} false [] part0))).map (fun t => (t.conn.response, t.conn.version)) = some ((0x04, [0x13]), true) := by decide +kernel

theorem test_get_capabilities_first : (next? (exec .getCapabilities (responding {} false [] part0))).map (fun t => t.conn.response) = some (0x7F, [4]) := by decide +kernel

theorem test_ring_set_too_small : (next? (exec .ringSet (operands (5 * 2) (lone (hart []))))).map (fun t => (t.host.mboxStatus, t.host.rings.isEmpty)) = some (1, true) := by decide +kernel

theorem test_ring_set : (next? (exec .ringSet (operands (6 * 2 + 0x4000 * 2 ^ 64) (lone (hart []))))).map (fun t => (t.host.mboxStatus, t.ring? 0)) = some (0, some (0x4000, 6)) := by decide +kernel

theorem test_power_set_limits : (next? (exec .powerSet (operands 999 (lone (hart []))))).map (fun t => (t.host.mboxStatus, t.pkg.plim)) = some (1, 3000) := by decide +kernel

theorem test_power_set : (next? (exec .powerSet (operands (1500 + 9 * 2 ^ 16) (lone (hart []))))).map (fun t => (t.pkg.plim, t.pkg.gidle)) = some (1500, 9) := by decide +kernel

theorem test_mailbox_unknown_code : (next? (exec .mailboxUnknownCode (operands 0 (lone (hart []))))).map (fun t => (t.host.mboxStatus, t.host.hlast, t.host.msix)) = some (1, 7, [0]) := by decide +kernel

theorem test_message_out_of_order : (next? (exec .powerSet { operands 1500 (lone (hart [])) with arg := { msg := ⟨9, 0, false, 0⟩ } })).map (fun t => (t.pkg.plim, t.host.hlast)) = some (3000, 6) := by decide +kernel

theorem test_qdrop_of_no_queue : (next? (exec .qdrop (operands 0 (lone (hart []))))).map (fun t => t.host.mboxStatus) = some 4 := by decide +kernel

theorem test_win_set : (next? (exec .winSet (operands (2 * 2 ^ 64) (lone (hart []))))).map (fun t => (t.part? 0).bind (·.winBase)) = some (some (2 ^ 37)) := by decide +kernel

theorem test_dbg_halt_of_no_hart : (next? (exec .dbgHalt (commanded [5] 0 [] (lone (hart []))))).map (fun t => t.host.mboxStatus) = some 3 := by decide +kernel

theorem test_gang_stop : (next? (exec .gangStop (commanded [0] 0 [] (lone (hart []))))).map (fun t => ((t.part? 0).map (·.stopped), (t.hart? 0).map (·.run.amber))) = some (some true, some true) := by decide +kernel

theorem test_window_read : (next? (exec .hostWindowAccess (outside [0] ⟨0x11002, 2, none⟩ { lone (hart []) with parts := [(0, { part0 with winBase := some 0 })] }))).map (fun t => t.host.reply) = some (some 0x4433) := by decide +kernel

theorem test_remote_read : (next? (exec .remoteRequest { exported0 0x11000 with arg := { nats := [3, 4], access := ⟨0x211001, 1, none⟩ } })).map (fun t => t.host.reply) = some (some 0x22) := by decide +kernel

theorem test_pool_back_invalidate : (next? (exec .poolBackInvalidate (pooled true ⟨0x211000, 1, none⟩))).map (fun t => (t.mem.llc.isEmpty, Memory.num t.mem.pool 0x211000 8)) = some (true, 5) := by decide +kernel

theorem test_power_off : (next? (exec .powerOff (lone (hart [])))).map (fun t => (t.pkg.off, (t.die 0).st, t.harts.isEmpty)) = some (true, 0, true) := by decide +kernel

theorem test_package_reset_counts : (next? (exec .packageReset { lone (hart []) with arg := { ok := true, ok2 := true } })).map (fun t => (t.pkg.boot, t.host.stage, t.parts.isEmpty, (t.die 0).st)) = some (1, 3, true, 1) := by decide +kernel

theorem test_flit_counted : (next? (exec .flitReceive (linked 1 { LinkSt.reset with keys := [(0, 77)] } { nats := [0, 0], ok := true }))).map (fun t => ((t.link 1).flits, (t.link 1).seqNo)) = some (1, 1) := by decide +kernel

theorem test_flit_under_an_unknown_key_discarded : (next? (exec .flitReceive (linked 1 { LinkSt.reset with keys := [(0, 77)] } { nats := [1, 0], ok := true }))).map (fun t => ((t.link 1).flits, (t.link 1).asked)) = some (0, true) := by decide +kernel

theorem test_key_rollover_switches : (next? (exec .keyRolloverStart (linked 1 { LinkSt.reset with keys := [(0, 77)], flits := 2 ^ 40 } { ok := true }))).map (fun t => ((t.link 1).keys.map (·.1), (t.link 1).kidx, (t.link 1).flits)) = some ([0, 1], 1, 0) := by decide +kernel

theorem test_die_admit : (next? (exec .dieAdmit (shaking 4 7 0 { nats := [1], ok := true }))).map (fun t => ((t.die 1).st, (t.die 1).accept)) = some (5, true) := by decide +kernel

theorem test_die_certificate_check_rejects : (next? (exec .dieCertificateCheck (shaking 2 2 0 { nats := [1] }))).map (fun t => ((t.die 1).st, (t.die 1).why)) = some (6, 1) := by decide +kernel

theorem test_uncorrectable_in_home_slice : (next? (exec .uncorrectableError (striking (.llcData 0 (0x11000 / 128)) [] (lone (hart []))))).map (fun t => ((t.llc? 0 0x11000).map (·.poison), t.host.enext)) = some (some true, 2) := by decide +kernel

theorem test_line_writeback : (next? (exec .lineWriteback (told [0, 0x11000] (backing false)))).map (fun t => (Memory.num t.mem.hbm 0x211000 8, (t.llc? 0 0x11000).map (·.dirty))) = some (5, some false) := by decide +kernel

theorem test_page_out_of_a_poisoned_line : (next? (exec .pageOut (sealing [0, 0x11000, 0x300000, 0x4000] true [0x300000 / 128]))).map (fun t => t.host.mboxStatus) = some 6 := by decide +kernel

theorem test_no_hart_no_instruction : (next? (exec .wfi State.reset)).isNone = true := by decide +kernel

/-- A key and a block of FIPS 197, appendix C.3, and the block enciphered. -/
def fipsBlock : List Nat := aesBlock (aesExpand (List.range 32)) ((List.range 16).map (fun i => i * 17))

theorem test_aes_substitution : (aesSub 0x53, aesSub 0) = (0xED, 0x63) := by decide +kernel

theorem test_aes_256_block : bigNum fipsBlock = 0x8EA2B7CA516745BFEAFC49904B496089 := by decide +kernel

theorem test_lfadd_f64_first_cycle : after (.lfadd ⟨2, 4, 6, .f64, ⟨15, false⟩⟩) (lone (laneHart 0 [])) (fun h => (h.pc, h.run.second.isSome)) = some (0x10000, true) := by decide +kernel

end Sys2Proof.Tests
end

section
/-! Bytes of a line at its home slice (R6, R17), and the places a write of one line reaches. -/

namespace Sys2Proof.Machine

open Sys2Proof

theorem getLsbD_lineByte (d : BitVec 1024) (i k : Nat) :
    (lineByte d i).getLsbD k = (decide (k < 8) && d.getLsbD (8 * i + k)) := by
  simp [lineByte]

theorem getLsbD_setLineByte (d : BitVec 1024) (i m : Nat) (b : Byte) (hm : m < 1024) :
    (setLineByte d i b).getLsbD m = if 8 * i ≤ m ∧ m < 8 * i + 8 then b.getLsbD (m - 8 * i) else d.getLsbD m := by
  have ones (k : Nat) (hk : k < 1024) : (0xFF : BitVec 1024).getLsbD k = decide (k < 8) := by
    rw [show (0xFF : BitVec 1024) = BitVec.ofNat 1024 (2 ^ 8 - 1) from rfl, BitVec.getLsbD_ofNat,
      Nat.testBit_two_pow_sub_one, decide_eq_true hk, Bool.true_and]
  simp only [setLineByte, BitVec.getLsbD_or, BitVec.getLsbD_and, BitVec.getLsbD_not, BitVec.getLsbD_shiftLeft,
    BitVec.getLsbD_setWidth, ones _ (show m - 8 * i < 1024 by omega), hm]
  by_cases h1 : 8 * i ≤ m
  · by_cases h2 : m < 8 * i + 8
    · simp [h1, h2, show ¬ m < 8 * i by omega, show m - 8 * i < 8 by omega, show m - 8 * i < 1024 by omega]
    · simp [h2, show ¬ m < 8 * i by omega, show ¬ m - 8 * i < 8 by omega, show 8 ≤ m - 8 * i by omega]
  · simp [h1, show m < 8 * i by omega]

/-- R6: one byte of a line replaced. -/
theorem lineByte_setLineByte (d : BitVec 1024) (i j : Nat) (b : Byte) (hj : j < 128) :
    lineByte (setLineByte d i b) j = if j = i then b else lineByte d j := by
  apply BitVec.eq_of_getLsbD_eq
  intro k hk
  rw [getLsbD_lineByte, getLsbD_setLineByte d i (8 * j + k) b (by omega)]
  by_cases h : j = i
  · subst h
    simp [hk, show 8 * j ≤ 8 * j + k ∧ 8 * j + k < 8 * j + 8 by omega]
  · rw [if_neg (by omega), if_neg h, getLsbD_lineByte]

/-- R6: bytes of a line replaced from an offset. -/
theorem lineByte_setLineBytes (bs : List Byte) (d : BitVec 1024) (i j : Nat) (hj : j < 128) :
    lineByte (setLineBytes d i bs) j = if i ≤ j ∧ j < i + bs.length then bs.getD (j - i) 0 else lineByte d j := by
  induction bs generalizing d i with
  | nil => rw [setLineBytes, if_neg (by simp)]
  | cons b bs ih =>
    rw [setLineBytes, ih, lineByte_setLineByte d i j b hj, List.length_cons]
    by_cases h1 : j = i
    · subst h1; simp
    · by_cases h2 : i + 1 ≤ j ∧ j < i + 1 + bs.length
      · rw [if_pos h2, if_pos (by omega), show j - i = j - (i + 1) + 1 by omega, List.getD_cons_succ]
      · rw [if_neg h2, if_neg h1, if_neg (by omega)]

/-- Of addresses below 2^52, a key names one partition and one line. -/
theorem lineKey_inj {p q a b : Nat} (ha : a < 2 ^ 52) (hb : b < 2 ^ 52) :
    lineKey p a = lineKey q b ↔ p = q ∧ a / 128 = b / 128 := by
  unfold lineKey; omega

/-- R6: bytes of one line that a partition's addresses hold. -/
theorem natOfBytes_lineBytes (s : State) (part n gpa : Nat) (h : gpa % 128 + n ≤ 128) :
    natOfBytes (lineBytes (s.llcData part gpa) (gpa % 128) n) = s.numAt part gpa n := by
  have one_line : ∀ m k, gpa % 128 + m + k ≤ 128 →
      natOfBytes (lineBytes (s.llcData part gpa) (gpa % 128 + m) k) = s.numAt part (gpa + m) k := by
    intro m k hk
    induction k generalizing m with
    | zero => rfl
    | succ k ih =>
      have byte : s.byteAt part (gpa + m) = lineByte (s.llcData part gpa) (gpa % 128 + m) := by
        rw [State.byteAt, State.llcData, State.llcData, lineKey, lineKey, show (gpa + m) / 128 = gpa / 128 by omega,
          show (gpa + m) % 128 = gpa % 128 + m by omega]
      rw [lineBytes, natOfBytes, State.numAt, byte, Nat.add_assoc (gpa % 128), ih (m + 1) (by omega), Nat.add_assoc gpa]
  exact one_line 0 n h

/-- R6: the low bytes of a number, counted. -/
theorem bytesOfNat_eq_map (v n : Nat) :
    bytesOfNat v n = (List.range n).map (fun j => BitVec.ofNat 8 (v / 256 ^ j)) := by
  induction n generalizing v with
  | zero => rfl
  | succ n ih =>
    rw [bytesOfNat, ih, List.range_succ_eq_map, List.map_cons, List.map_map]
    simp [Function.comp_def, Nat.div_div_eq_div_mul, Nat.pow_succ']

end Sys2Proof.Machine
end

section
/-! What a write performed at a home slice leaves (R68, R104, R107, R137, R150, R151): the bytes of its line, and what may move
beside them. -/

namespace Sys2Proof.Machine

open Sys2Proof

/-! ## Events to come -/

/-- Nothing of the package changed but the events to come. -/
def PlansOnly (s t : State) : Prop := { t with schedule := s.schedule, latencies := s.latencies } = s

theorem PlansOnly.refl (s : State) : PlansOnly s s := rfl

theorem PlansOnly.trans {s t u : State} (h1 : PlansOnly s t) (h2 : PlansOnly t u) : PlansOnly s u :=
  Eq.trans (congrArg (fun v : State => { v with schedule := s.schedule, latencies := s.latencies }) h2 :) h1

theorem PlansOnly.eq_with {s t : State} (h : PlansOnly s t) : t = { s with schedule := t.schedule, latencies := t.latencies } :=
  (congrArg (fun v : State => { v with schedule := t.schedule, latencies := t.latencies }) h :)

theorem PlansOnly.foldl {α : Type} {f : State → α → State} (hf : ∀ t a, PlansOnly t (f t a)) (l : List α) (s : State) :
    PlansOnly s (l.foldl f s) := by
  induction l generalizing s with
  | nil => exact .refl s
  | cons a l ih => exact (hf s a).trans (ih _)

/-- R82, R87: the dispatcher's looks at a written line are events to come. -/
theorem pollQueues_plansOnly (s : State) (part gpa : Nat) : PlansOnly s (s.pollQueues part gpa) := by
  refine .foldl (fun t e => ?_) s.queues s
  split
  · rfl
  · split <;> rfl

theorem pollOpen_plansOnly (s : State) (part : Nat) : PlansOnly s (s.pollOpen part) := by
  refine .foldl (fun t e => ?_) s.launches s
  split <;> rfl

/-! ## Caches of data -/

/-- Nothing of the package changed but caches of data. -/
structure CachesMoved (s t : State) : Prop where
  cores : CachesOnly s t
  rest : { t with cores := s.cores } = s

theorem CachesOnly.trans {s t u : State} (h1 : CachesOnly s t) (h2 : CachesOnly t u) : CachesOnly s u := fun c =>
  (congrArg (fun k : Core => { k with hdc := (s.core c).hdc, l1 := (s.core c).l1 }) (h2 c)).trans (h1 c)

theorem CachesMoved.refl (s : State) : CachesMoved s s := ⟨fun _ => rfl, rfl⟩

theorem CachesMoved.trans {s t u : State} (h1 : CachesMoved s t) (h2 : CachesMoved t u) : CachesMoved s u :=
  ⟨h1.cores.trans h2.cores, (congrArg (fun v : State => { v with cores := s.cores }) h2.rest).trans h1.rest⟩

theorem CachesMoved.modCore (s : State) (c : Nat) {f : Core → Core}
    (hf : ∀ v : Core, { f v with hdc := v.hdc, l1 := v.l1 } = v) : CachesMoved s (s.modCore c f) := by
  refine ⟨fun d => ?_, rfl⟩
  rw [State.modCore, State.core_setCore]
  split
  · next h => rw [h]; exact hf _
  · rfl

theorem CachesMoved.mapVal (s : State) {f : Nat → Core → Core}
    (hf : ∀ c v, { f c v with hdc := v.hdc, l1 := v.l1 } = v) : CachesMoved s { s with cores := Map.mapVal s.cores f } := by
  refine ⟨fun c => ?_, rfl⟩
  rw [State.core, State.core, Map.findD, Map.findD, Map.find_mapVal]
  cases Map.find s.cores c with
  | none => rfl
  | some v => exact hf c v

theorem cleanHdc_cachesMoved (s : State) (part gpa : Nat) (but : Option Nat) : CachesMoved s (s.cleanHdc part gpa but) := by
  unfold State.cleanHdc
  split
  · exact .mapVal s (fun c v => by split <;> rfl)
  · exact .refl s

theorem dropHdc_cachesMoved (s : State) (part gpa : Nat) (but : Option Nat) : CachesMoved s (s.dropHdc part gpa but) :=
  .mapVal s (fun c v => by split <;> rfl)

theorem putHdc_cachesMoved (s : State) (core part gpa : Nat) (m : Bool) : CachesMoved s (s.putHdc core part gpa m) :=
  (cleanHdc_cachesMoved s part gpa (some core)).trans (.modCore _ core fun _ => rfl)

theorem dropL1_cachesMoved (s : State) (core part gpa : Nat) : CachesMoved s (s.dropL1 core part gpa) :=
  .modCore s core fun _ => rfl

/-! ## What a write may move beside its bytes -/

theorem Woken.trans {a b c : Hart} (h1 : Woken a b) (h2 : Woken b c) : Woken a c := by
  rcases h1 with rfl | ⟨t, u, xd, l, ha, rfl⟩
  · exact h2
  · rcases h2 with rfl | ⟨t', u', xd', l', hb, rfl⟩
    · exact .inr ⟨t, u, xd, l, ha, rfl⟩
    · cases hb
      exact .inr ⟨t, u', xd, l, ha, rfl⟩

/-- R151: a hart that waits for nothing is not woken. -/
theorem Woken.eq_of_awake {g g' : Hart} (h : Woken g g') (hw : g.run.wait = none) : g' = g := by
  rcases h with rfl | ⟨t, u, xd, a, ha, -⟩
  · rfl
  · rw [hw] at ha; cases ha

/-- A state with what a write may move beside its bytes put back to what it was in `s`. -/
def State.putBack (s t : State) : State :=
  { t with harts := s.harts, cores := s.cores, dies := s.dies, schedule := s.schedule, latencies := s.latencies, tag := s.tag }

/-- What may move beside a write's bytes and reservations: the waits that wake messages will end, caches of data, watches and
dirty marks of slices, the events to come. -/
structure Beside (s t : State) : Prop where
  harts : ∀ j, Option.Rel Woken (s.hart? j) (t.hart? j)
  cores : CachesOnly s t
  dies : ∀ d, { t.die d with slices := (s.die d).slices } = s.die d
  rest : s.putBack t = s

theorem optionRel_woken_refl (o : Option Hart) : Option.Rel Woken o o := by
  cases o with
  | none => exact .none
  | some g => exact .some (.inl rfl)

theorem optionRel_woken_trans {a b c : Option Hart} (h1 : Option.Rel Woken a b) (h2 : Option.Rel Woken b c) :
    Option.Rel Woken a c := by
  cases h1 with
  | none => exact h2
  | some w1 => cases h2 with
    | some w2 => exact .some (w1.trans w2)

theorem Beside.trans {s t u : State} (h1 : Beside s t) (h2 : Beside t u) : Beside s u where
  harts := fun j => optionRel_woken_trans (h1.harts j) (h2.harts j)
  cores := h1.cores.trans h2.cores
  dies := fun d => (congrArg (fun v : Die => { v with slices := (s.die d).slices }) (h2.dies d)).trans (h1.dies d)
  rest := (congrArg s.putBack h2.rest).trans h1.rest

theorem PlansOnly.beside {s t : State} (h : PlansOnly s t) : Beside s t := by
  have fields : t.harts = s.harts ∧ t.cores = s.cores ∧ t.dies = s.dies := by
    unfold PlansOnly at h; rw [← h]; exact ⟨rfl, rfl, rfl⟩
  obtain ⟨hh, hc, hd⟩ := fields
  refine ⟨fun j => ?_, fun c => ?_, fun d => ?_, ?_⟩
  · rw [State.hart?, State.hart?, hh]; exact optionRel_woken_refl _
  · rw [State.core, State.core, hc]
  · rw [State.die, State.die, hd]
  · exact (congrArg s.putBack h :)

theorem CachesMoved.beside {s t : State} (h : CachesMoved s t) : Beside s t := by
  have fields : t.harts = s.harts ∧ t.dies = s.dies := by rw [← h.rest]; exact ⟨rfl, rfl⟩
  obtain ⟨hh, hd⟩ := fields
  refine ⟨fun j => ?_, h.cores, fun d => ?_, ?_⟩
  · rw [State.hart?, State.hart?, hh]; exact optionRel_woken_refl _
  · rw [State.die, State.die, hd]
  · exact (congrArg s.putBack h.rest :)

theorem Beside.refl (s : State) : Beside s s := (CachesMoved.refl s).beside

/-- A die whose slices alone changed. -/
theorem Beside.setDie (s : State) (d : Nat) (sl : Map Slice) : Beside s (s.setDie d { s.die d with slices := sl }) := by
  refine ⟨fun j => optionRel_woken_refl _, fun _ => rfl, fun e => ?_, rfl⟩
  rw [State.die_setDie]
  split
  · next h => rw [h]
  · rfl

/-- R387: the dirty mark of a write. -/
theorem markDirty_beside (s : State) (part place : Nat) : Beside s (s.markDirty part place) := by
  unfold State.markDirty
  dsimp only
  split
  · exact .refl s
  · split
    · exact .refl s
    · exact .setDie s _ _

theorem sendWakes_beside (ws : List Watch) (lat i : Nat) (s : State) : Beside s (s.sendWakes lat i ws) := by
  induction ws generalizing i s with
  | nil => exact .refl s
  | cons w ws ih =>
    unfold State.sendWakes
    split
    · exact ih _ s
    · next h hh =>
      split
      · next t xd a hw =>
        refine .trans (t := (s.nextTag.setHart w.hart _).plan _ _ _) ⟨fun j => ?_, fun _ => rfl, fun _ => rfl, rfl⟩ (ih _ _)
        change Option.Rel Woken (s.hart? j) ((s.nextTag.setHart w.hart _).hart? j)
        rw [State.hart?_setHart]
        split
        · next hj => rw [hj, hh]; exact .some (.inr ⟨_, _, _, _, hw, rfl⟩)
        · exact optionRel_woken_refl _
      · exact ih _ s

/-- R150, R151: the wake messages of a write. -/
theorem wakeLine_beside (s : State) (part gpa : Nat) : Beside s (s.wakeLine part gpa) := by
  unfold State.wakeLine
  dsimp only
  split
  · exact .refl s
  · refine .trans ?_ (sendWakes_beside _ _ _ _)
    exact (Beside.setDie s _ _).trans (PlansOnly.beside rfl)

/-! ## Reservations, bytes and child records -/

/-- R68: the reservations that end. -/
theorem hart?_breakResv (s : State) (part gpa j : Nat) :
    (s.breakResv part gpa).hart? j = (s.hart? j).map (LosesReservation part gpa) := by
  rw [State.breakResv, State.hart?_modHarts]
  congr 1
  funext g
  simp only [LosesReservation, beq_iff_eq]

theorem otherHart_of_woken {part gpa : Nat} {o o' : Option Hart}
    (h : Option.Rel Woken (o.map (LosesReservation part gpa)) o') : OtherHart part gpa o o' := by
  cases o with
  | none => cases h; rfl
  | some g => cases h with
    | some w => exact ⟨_, rfl, w⟩

/-- R68, R137, R150, R151: what a write to a line does besides storing its bytes. -/
theorem wrote_beside (s : State) (part gpa : Nat) (by_ : Option Nat) :
    Beside (s.breakResv part gpa) (s.wrote part gpa by_) :=
  (dropHdc_cachesMoved _ part gpa by_).beside.trans <| (wakeLine_beside _ part gpa).trans <|
    (pollQueues_plansOnly _ part gpa).beside.trans (pollOpen_plansOnly _ part).beside

/-- A write of bytes of one line that stands at its home slice. -/
structure LineWritten (s t : State) (part gpa : Nat) (bs : List Byte) : Prop where
  bytes : WritesBytes s t part gpa bs
  harts : ∀ j, OtherHart part gpa (s.hart? j) (t.hart? j)
  cores : CachesOnly s t
  dies : ∀ d, { t.die d with slices := (s.die d).slices } = s.die d
  rest : { s.putBack t with mem := s.mem } = s

/-- R17: the bytes of one standing line replaced. -/
theorem writesBytes_putLlc {s t : State} {part gpa : Nat} {bs : List Byte} {l l' : LlcLine} (hg : gpa < 2 ^ 52)
    (hin : gpa % 128 + bs.length ≤ 128) (hl : Map.find s.mem.llc (lineKey part gpa) = some l)
    (hd : l'.data = setLineBytes l.data (gpa % 128) bs)
    (ht : t.mem = { s.mem with llc := Map.put s.mem.llc (lineKey part gpa) l' }) : WritesBytes s t part gpa bs := by
  refine ⟨fun q a ha => ?_, by rw [ht]⟩
  rw [State.byteAt, State.byteAt, State.llcData, ht, Map.find_put]
  by_cases hk : lineKey q a = lineKey part gpa
  · obtain ⟨rfl, hline⟩ := (lineKey_inj ha hg).1 hk
    rw [if_pos hk, State.llcData, hk, hl]
    dsimp only
    rw [hd, lineByte_setLineBytes bs _ _ _ (Nat.mod_lt a (by decide))]
    by_cases hb : gpa ≤ a ∧ a < gpa + bs.length
    · rw [if_pos (by omega), if_pos ⟨rfl, hb⟩, show a % 128 - gpa % 128 = a - gpa by omega]
    · rw [if_neg (by omega), if_neg (fun c => hb c.2)]
  · rw [if_neg hk, if_neg, State.llcData]
    rintro ⟨rfl, h1, h2⟩
    exact hk ((lineKey_inj ha hg).2 ⟨rfl, by omega⟩)

theorem putLine_stands {s : State} {part gpa : Nat} {l : LlcLine} (bs : List Byte)
    (hl : Map.find s.mem.llc (lineKey part gpa) = some l) :
    ∃ l' : LlcLine, l'.data = setLineBytes l.data (gpa % 128) bs ∧
      s.putLine part gpa bs = ({ s with mem := { s.mem with llc := Map.put s.mem.llc (lineKey part gpa) l' } } : State).markDirty
        part (s.home part gpa) := by
  refine ⟨⟨setLineBytes l.data (gpa % 128) bs, true, l.poison && !(gpa % 128 == 0 && bs.length == 128), l.held⟩, rfl, ?_⟩
  rw [State.putLine, Map.findD, hl]
  rfl

theorem markDirty_harts (s : State) (part place : Nat) : (s.markDirty part place).harts = s.harts := by
  unfold State.markDirty
  dsimp only
  split
  · rfl
  · split <;> rfl

/-- R6, R68, R137, R151: a write performed at the home slice of a standing line. -/
theorem writeHome_stands {s : State} {part gpa : Nat} {bs : List Byte} (by_ : Option Nat) (hs : s.standsAtHome part gpa)
    (hg : gpa < 2 ^ 52) (hin : gpa % 128 + bs.length ≤ 128) :
    LineWritten s (s.writeHome part gpa bs by_) part gpa bs := by
  obtain ⟨p, r, l, hp, hr, hc, -, hl, -⟩ := hs
  obtain ⟨l', hd, hput⟩ := putLine_stands bs hl
  have put : s.writeHome part gpa bs by_ = (s.putLine part gpa bs).wrote part gpa by_ := by
    simp only [State.writeHome, hp, hr, if_neg hc]
  rw [put, hput]
  generalize hu : ({ s with mem := { s.mem with llc := Map.put s.mem.llc (lineKey part gpa) l' } } : State) = u
  have mark := markDirty_beside u part (s.home part gpa)
  have side := wrote_beside (u.markDirty part (s.home part gpa)) part gpa by_
  generalize (u.markDirty part (s.home part gpa)).wrote part gpa by_ = t at side
  subst hu
  refine ⟨?_, fun j => ?_, ?_, fun d => ?_, ?_⟩
  · exact writesBytes_putLlc hg hin hl hd ((congrArg State.mem side.rest).trans (congrArg State.mem mark.rest))
  · refine otherHart_of_woken ?_
    have w := side.harts j
    rwa [hart?_breakResv, State.hart?, markDirty_harts] at w
  · exact mark.cores.trans side.cores
  · exact (congrArg (fun v : Die => { v with slices := (s.die d).slices }) (side.dies d)).trans (mark.dies d)
  · have h1 := congrArg (fun v : State => { s.putBack v with mem := s.mem }) side.rest
    exact h1.trans (congrArg (fun v : State => { s.putBack v with mem := s.mem }) mark.rest)

end Sys2Proof.Machine
end

section
/-! A write on its way to a standing line, performed there: the child records it meets, its hart's hang counter (R104, R107, R166). -/

namespace Sys2Proof.Machine

open Sys2Proof

theorem Map.mem_of_find {α : Type} {m : Map α} {n : Nat} {a : α} (h : Map.find m n = some a) : (n, a) ∈ m := by
  induction m with
  | nil => cases h
  | cons e m ih =>
    obtain ⟨k, v⟩ := e
    simp only [Map.find] at h
    split at h
    · next hk => cases h; rw [hk]; exact List.mem_cons_self
    · split at h
      · cases h
      · exact List.mem_cons_of_mem _ (ih h)

/-- R104: a launch whose child records a store does not meet. -/
theorem spoiltBy_of_untouched {l : Launch} {part gpa n : Nat}
    (h : (l.part == part && l.children.any (fun c => c.touches gpa n)) = false) : SpoiltBy part gpa n l = l := by
  unfold SpoiltBy
  split
  · next hp =>
    have untouched : ∀ c ∈ l.children, ¬ c.touches gpa n = true := by simpa [hp] using h
    rw [List.map_congr_left (fun c hc => if_neg (untouched c hc)), List.map_id']
  · rfl

/-- R104: a store changes child records of the package and nothing else of it beside its bytes. -/
theorem spoilRing_spoils (s : State) (part gpa n : Nat) :
    ∃ ls, s.spoilRing part gpa n = { s with launches := ls } ∧
      ∀ l, Map.find ls l = (s.launch? l).map (SpoiltBy part gpa n) := by
  unfold State.spoilRing
  split
  · exact ⟨_, rfl, fun l => Map.find_mapVal s.launches (fun _ => SpoiltBy part gpa n) l⟩
  · next h =>
    refine ⟨s.launches, rfl, fun l => ?_⟩
    change s.launch? l = _
    cases hl : s.launch? l with
    | none => rfl
    | some L =>
      have untouched := List.any_eq_false.1 (Bool.eq_false_iff.2 h) _ (Map.mem_of_find hl)
      rw [Option.map_some, spoiltBy_of_untouched (Bool.eq_false_iff.2 untouched)]

/-- R107: the hart whose store has been performed. -/
theorem hart?_storeDone (s : State) (k j : Nat) :
    (s.storeDone k).hart? j = (s.hart? j).map (fun g => if j = k then g.hangClear s.now else g) := by
  rw [State.storeDone, State.hart?_modHarts]
  simp only [beq_iff_eq]

theorem heldAt_of_quiet {s : State} {c : Nat} (part gpa : Nat) (h : (s.core c).flight = []) : s.heldAt c part gpa = false := by
  simp [State.heldAt, h]

theorem drainPlace_of_quiet {s : State} {c : Nat} (place : Nat) (h : (s.core c).flight = []) : s.drainPlace c place = s := by
  simp [State.drainPlace, h]

/-- R166: what a write on its way, performed at a standing line, leaves: its bytes, what other harts lose, the child records it
meets, its hart's hang counter, and what may move beside them. -/
structure FlightLands (s t : State) (f : Flight) : Prop where
  bytes : WritesBytes s t f.owner f.addr f.bytes
  harts : ∀ j, ∃ o, OtherHart f.owner f.addr (s.hart? j) o ∧
    t.hart? j = if j = f.hart then o.map (fun g => g.hangClear s.now) else o
  launches : ∀ l, t.launch? l = (s.launch? l).map (SpoiltBy f.owner f.addr f.bytes.length)
  cores : CachesOnly s t
  dies : ∀ d, { t.die d with slices := (s.die d).slices } = s.die d
  rest : { s.putBack t with mem := s.mem, launches := s.launches } = s

theorem performFlight_stands {s : State} {f : Flight} (hspace : f.space = 0) (hchild : f.child = none)
    (hheld : s.heldAt (coreOf f.hart) f.owner f.addr = false) (hs : s.standsAtHome f.owner f.addr) :
    s.performFlight f = ((s.writeHome f.owner f.addr f.bytes (some (coreOf f.hart))).spoilRing f.owner f.addr
      f.bytes.length).storeDone f.hart := by
  simp [State.performFlight, hspace, hheld, atHome_stands hs, State.landed, hchild]

/-- R166: a write on its way to a standing line, performed there. -/
theorem performFlight_lands {s : State} {f : Flight} (hspace : f.space = 0) (hchild : f.child = none)
    (hheld : s.heldAt (coreOf f.hart) f.owner f.addr = false) (hs : s.standsAtHome f.owner f.addr)
    (hg : f.addr < 2 ^ 52) (hin : f.addr % 128 + f.bytes.length ≤ 128) : FlightLands s (s.performFlight f) f := by
  rw [performFlight_stands hspace hchild hheld hs]
  have wrote := writeHome_stands (some (coreOf f.hart)) hs hg hin
  generalize s.writeHome f.owner f.addr f.bytes (some (coreOf f.hart)) = u at wrote ⊢
  obtain ⟨ls, ring, spoilt⟩ := spoilRing_spoils u f.owner f.addr f.bytes.length
  rw [ring]
  have launches_kept : u.launches = s.launches := (congrArg State.launches wrote.rest :)
  have now_kept : u.now = s.now := (congrArg State.now wrote.rest :)
  refine ⟨⟨wrote.bytes.bytes, wrote.bytes.rest⟩, fun j => ⟨u.hart? j, wrote.harts j, ?_⟩, fun l => ?_, wrote.cores,
    wrote.dies, ?_⟩
  · rw [hart?_storeDone, ← now_kept]
    by_cases h : j = f.hart
    · simp only [if_pos h]; rfl
    · simp only [if_neg h]; exact Option.map_id_apply
  · exact (spoilt l).trans (by rw [State.launch?, launches_kept, State.launch?])
  · exact (congrArg (fun v : State => { v with launches := s.launches }) wrote.rest :)

end Sys2Proof.Machine
end

section
/-! Plain scalar loads and stores (R65, R66): the instruction down to its one read or write at a standing line. -/

namespace Sys2Proof.Machine

open Sys2Proof

/-! ## A plain access -/

theorem bytesAt_stands {s : State} {part gpa : Nat} (n : Nat) (h : s.standsAtHome part gpa) :
    s.bytesAt part gpa n = lineBytes (s.llcData part gpa) (gpa % 128) n := by
  rw [State.bytesAt, readHome_stands n h]

/-- R66: a naturally aligned access lies in one line. -/
theorem PlainAccess.in_line {s : State} {h : Hart} {va : DWord} {k : AccKind} {n gpa : Nat} (hp : PlainAccess s h va k n gpa)
    (hn : n = 1 ∨ n = 2 ∨ n = 4 ∨ n = 8) : gpa % 128 + n ≤ 128 := by
  have aligned := hp.aligned
  have offset := hp.offset
  rcases hn with rfl | rfl | rfl | rfl <;> omega

/-- R315: the line of a plain access needs no fill. -/
theorem PlainAccess.lineFor {s : State} {h : Hart} {va : DWord} {k : AccKind} {n gpa : Nat} (hp : PlainAccess s h va k n gpa) :
    s.lineFor h va gpa k = .ok () s := by
  simp [State.lineFor, hp.allowed, heldAt_of_quiet _ _ hp.quiet, atHome_stands hp.stands]

theorem CachesMoved.exists_cores {s t : State} (h : CachesMoved s t) :
    ∃ cs, t = { s with cores := cs } ∧ CachesOnly s { s with cores := cs } :=
  ⟨t.cores, (congrArg (fun v : State => { v with cores := t.cores }) h.rest :), h.cores⟩

/-! ## Loads -/

/-- R6, R60: a loaded value is the number at the address, extended as the form says. -/
theorem loadValue_lineBytes (s : State) (part : Nat) {n gpa : Nat} (signed : Bool) (hn : n = 1 ∨ n = 2 ∨ n = 4 ∨ n = 8)
    (hin : gpa % 128 + n ≤ 128) :
    loadValue (lineBytes (s.llcData part gpa) (gpa % 128) n) n signed =
      if signed then BitVec.ofInt 64 (readSigned (8 * n) (s.numAt part gpa n)) else BitVec.ofNat 64 (s.numAt part gpa n) := by
  unfold loadValue
  rw [natOfBytes_lineBytes s part n gpa hin]
  cases signed with
  | false => rfl
  | true =>
    rcases hn with rfl | rfl | rfl | rfl
    · rfl
    · rfl
    · rfl
    · exact (BitVec.ofInt_toInt).symm

/-- R65: a plain load is one write of `rd`; caches of data may move, and one latency is used where the line is not cached. -/
theorem scalarLoad_of_plain {s : State} {h : Hart} (hc : s.hart? s.cur = some h) (i : Instr) (rd rs1 : BitVec 5) (imm : BitVec 12)
    {n gpa : Nat} (signed : Bool) (hp : PlainAccess s h (h.getX rs1 + imm.signExtend 64) .load n gpa) :
    ∃ ls cs, CachesOnly s { s with cores := cs } ∧ scalarLoad i rd rs1 imm n signed s =
      .next (({ s with latencies := ls, cores := cs } : State).setCur
        ((h.setX rd (loadValue (lineBytes (s.llcData h.role.part gpa) (gpa % 128) n) n signed)).retire 4)) := by
  have ready : ∀ ls, ({ s with latencies := ls } : State).ready h.role.part gpa = { s with latencies := ls } :=
    fun ls => drainPlace_of_quiet _ hp.quiet
  have bytes : ∀ ls, ({ s with latencies := ls } : State).bytesAt h.role.part gpa n =
      lineBytes (s.llcData h.role.part gpa) (gpa % 128) n := fun ls => bytesAt_stands n hp.stands
  have unordered : ∀ ls, ({ s with latencies := ls } : State).ordered h = false := fun ls => hp.unordered
  have caches : ∀ ls, ∃ cs, ({ s with latencies := ls } : State).putHdc (coreOf s.cur) h.role.part gpa false =
      { s with latencies := ls, cores := cs } ∧ CachesOnly s { s with cores := cs } :=
    fun ls => (putHdc_cachesMoved { s with latencies := ls } (coreOf s.cur) h.role.part gpa false).exists_cores
  simp only [scalarLoad, onHart_of s h _ hc, sext64, State.watching, hp.unwatched 1, hp.aligned, hp.translated, hp.lineFor,
    Acc.bind_ok, Acc.done_ok, hp.prompt, ne_eq, not_true_eq_false, if_false, decide_true, Bool.or_true, if_true]
  by_cases hit : s.inHdc (coreOf s.cur) h.role.part gpa = true
  · obtain ⟨cs, put, only⟩ := caches s.latencies
    refine ⟨s.latencies, cs, only, ?_⟩
    simp only [hit, if_true, hp.unordered, Bool.false_eq_true, if_false]
    rw [ready s.latencies, bytes s.latencies, put]
    exact congrArg Host.Outcome.next (State.modCur_of _ h _ hc)
  · obtain ⟨cs, put, only⟩ := caches s.latencies.tail
    refine ⟨s.latencies.tail, cs, only, ?_⟩
    simp only [hit, if_false, State.popLatency, unordered, Bool.false_eq_true]
    rw [ready, bytes, put]
    exact congrArg Host.Outcome.next (State.modCur_of _ h _ hc)

/-- R65, R66: the outcome `o` of a load of the acting hart `h`: `rd` takes `v`, the instruction retires, and caches of data and the
latencies left are all that moves beside it. -/
def LoadsInto (s : State) (h : Hart) (o : Out) (rd : BitVec 5) (v : DWord) : Prop :=
  ∃ t h', o = .next t ∧ t.hart? s.cur = some h' ∧ RetiresTo h h' (h.nextPc 4) ∧ writesX h h' rd v ∧
    h'.lanes = h.lanes ∧ h'.dev = h.dev ∧ h'.run = h.settle.run ∧ (∀ j, j ≠ s.cur → t.hart? j = s.hart? j) ∧
    CachesOnly s t ∧ { t with harts := s.harts, cores := s.cores, latencies := s.latencies } = s

/-- R6, R60, R65, R66: a plain scalar load. -/
theorem scalarLoad_loads {s : State} {h : Hart} (hc : s.hart? s.cur = some h) (i : Instr) (rd rs1 : BitVec 5) (imm : BitVec 12)
    {n gpa : Nat} (signed : Bool) (hn : n = 1 ∨ n = 2 ∨ n = 4 ∨ n = 8)
    (hp : PlainAccess s h (h.getX rs1 + imm.signExtend 64) .load n gpa) :
    LoadsInto s h (scalarLoad i rd rs1 imm n signed s) rd
      (if signed then BitVec.ofInt 64 (readSigned (8 * n) (s.numAt h.role.part gpa n))
       else BitVec.ofNat 64 (s.numAt h.role.part gpa n)) := by
  obtain ⟨ls, cs, caches, load⟩ := scalarLoad_of_plain hc i rd rs1 imm signed hp
  rw [loadValue_lineBytes s h.role.part signed hn (hp.in_line hn)] at load
  generalize (if signed then BitVec.ofInt 64 (readSigned (8 * n) (s.numAt h.role.part gpa n))
    else BitVec.ofNat 64 (s.numAt h.role.part gpa n)) = v at load ⊢
  have step := s.scalar_step h rd v 4
  exact ⟨_, _, load, State.hart?_setCur _ _, step.retires, step.x, step.lanes, step.dev, step.run,
    fun j hj => State.hart?_setCur_other _ _ j hj, caches, rfl⟩

/-! ## Stores -/

theorem losesReservation_frame (part gpa : Nat) (g : Hart) :
    LosesReservation part gpa g = { g with run := { g.run with resv := (LosesReservation part gpa g).run.resv } } := by
  unfold LosesReservation
  split <;> rfl

/-- R68: only the reservation that a hart holds decides whether it loses one. -/
theorem losesReservation_resv {g k : Hart} (part gpa : Nat) (h : k.run.resv = g.run.resv) :
    (LosesReservation part gpa k).run.resv = (LosesReservation part gpa g).run.resv := by
  unfold LosesReservation
  rw [h]
  split
  · rfl
  · exact h

/-- R66, R68, R107, R134: a hart that has stored: it marks a slice group and retires, its reservation of the line is lost and its
hang counter is 0. -/
def Hart.stored (h : Hart) (part gpa place : Nat) (far : Bool) (now : Nat) : Hart :=
  (LosesReservation part gpa ((h.touch place far).retire 4)).hangClear now

theorem Hart.stored_retires (h : Hart) (part gpa place : Nat) (far : Bool) (now : Nat) :
    RetiresTo h (h.stored part gpa place far now) (h.nextPc 4) := by
  have retired : RetiresTo h ((h.touch place far).retire 4) (h.nextPc 4) :=
    (Hart.retireTo_retires (h.touch place far) _).of_same rfl rfl rfl rfl
  rw [Hart.stored, losesReservation_frame]
  exact ⟨retired.pc, retired.priv, retired.tsc, retired.role, retired.counted⟩

@[simp] theorem Hart.retire_wait (h : Hart) (len : Nat) : (h.retire len).run.wait = h.run.wait := by
  simp [Hart.retire, Hart.settle]

/-- R68, R107, R134: what a store leaves of its hart besides the pc and the count of instructions. -/
theorem Hart.stored_keeps (h : Hart) (part gpa place : Nat) (far : Bool) (now : Nat) :
    (h.stored part gpa place far now).x = h.x ∧ (h.stored part gpa place far now).lanes = h.lanes ∧
    (h.stored part gpa place far now).dev = (h.touch place far).dev ∧
    (h.stored part gpa place far now).run =
      { (LosesReservation part gpa h).settle.run with hangHeld := 0, hangFrom := now, lastBack := none } := by
  obtain ⟨hx, hlanes, hdev, hrun⟩ := (h.touch place far).retireTo_keeps (h.nextPc 4)
  have resv := losesReservation_resv (g := h) (k := (h.touch place far).retire 4) part gpa (congrArg Run.resv hrun :)
  rw [Hart.stored, losesReservation_frame, resv, losesReservation_frame part gpa h]
  refine ⟨hx, hlanes, hdev, ?_⟩
  exact (congrArg (fun r : Run => { r with resv := (LosesReservation part gpa h).run.resv
                                           hangHeld := 0
                                           hangFrom := now
                                           lastBack := none }) hrun :)

/-- R166: a write issued when the memory answers at once and the core has no other on its way is performed. -/
theorem issueWrite_of_prompt {s : State} {g : Flight} {k : Hart} (hk : s.hart? g.hart = some k)
    (hquiet : (s.core (coreOf g.hart)).flight = []) (hprompt : s.latency = 0) :
    s.issueWrite g = (s.popLatency).performFlight { g with launch := k.role.launch } := by
  simp only [State.issueWrite, State.owned, hk, hprompt, if_true]
  exact congrArg (State.performFlight · _) (drainPlace_of_quiet _ hquiet)

/-- R66: the write of a scalar store of the acting hart `h`, for a launch. -/
def storeFlight (s : State) (h : Hart) (va : DWord) (gpa : Nat) (bs : List Byte) (l : Option Nat) : Flight :=
  { hart := s.cur, space := 0, owner := h.role.part, addr := gpa, bytes := bs, held := false, gva := va, launch := l }

/-- R134, R137: the package as a scalar store performs its write: the caches of data moved, the hart marked and retired. -/
def State.beforeStore (s : State) (h : Hart) (cs : Map Core) (gpa : Nat) (far : Bool) : State :=
  ({ s with latencies := s.latencies.tail, cores := cs } : State).setCur ((h.touch (s.home h.role.part gpa) far).retire 4)

theorem State.hart?_beforeStore (s : State) (h : Hart) (cs : Map Core) (gpa : Nat) (far : Bool) (j : Nat) :
    (s.beforeStore h cs gpa far).hart? j =
      if j = s.cur then some ((h.touch (s.home h.role.part gpa) far).retire 4) else s.hart? j :=
  Map.find_put s.harts s.cur j _

/-- R68, R151: a hart that waits for nothing loses its reservation of a written line and nothing else. -/
theorem otherHart_of_awake {part gpa : Nat} {g : Hart} {o : Option Hart} (h : OtherHart part gpa (some g) o)
    (hw : g.run.wait = none) : o = some (LosesReservation part gpa g) := by
  obtain ⟨g', rfl, woken⟩ := h
  rw [woken.eq_of_awake (by rw [losesReservation_frame]; exact hw)]

/-- R66: a plain store is one write performed at its line, by a hart that has retired. -/
theorem scalarStore_of_plain {s : State} {h : Hart} (hc : s.hart? s.cur = some h) (rs1 rs2 : BitVec 5) (imm : BitVec 12)
    {n gpa : Nat} (hp : PlainAccess s h (h.getX rs1 + imm.signExtend 64) .store n gpa) :
    ∃ cs far l, CachesOnly s { s with cores := cs } ∧ scalarStore rs1 rs2 imm n s =
      .next ((s.beforeStore h cs gpa far).performFlight
        (storeFlight s h (h.getX rs1 + imm.signExtend 64) gpa (bytesOfNat (h.getX rs2).toNat n) l)) := by
  obtain ⟨cs, put, only⟩ := ((dropL1_cachesMoved s (coreOf s.cur) h.role.part gpa).trans
    (putHdc_cachesMoved _ (coreOf s.cur) h.role.part gpa true)).exists_cores
  simp only [scalarStore, onHart_of s h _ hc, sext64, State.watching, hp.unwatched 2, hp.unordered, hp.aligned, hp.translated,
    Acc.done_ok, ne_eq, not_true_eq_false, if_false, Bool.false_eq_true]
  rw [put, State.modCur_of { s with cores := cs } h _ hc]
  have quiet : (({ s with cores := cs } : State).core (coreOf s.cur)).flight = [] :=
    (congrArg Core.flight (only (coreOf s.cur)) :).trans hp.quiet
  exact ⟨cs, _, _, only, congrArg Host.Outcome.next (issueWrite_of_prompt (State.hart?_setCur _ _) quiet hp.prompt)⟩

/-- R66: the outcome `o` of a store of `bs` by the acting hart `h` to a partition's address. -/
def StoresAt (s : State) (h : Hart) (o : Out) (part gpa : Nat) (bs : List Byte) : Prop :=
  ∃ t h', o = .next t ∧ t.hart? s.cur = some h' ∧ RetiresTo h h' (h.nextPc 4) ∧ h'.x = h.x ∧ h'.lanes = h.lanes ∧
    h'.dev = { h.dev with tbm := h.dev.tbm ||| (1 <<< groupOf (s.home part gpa)), tbmf := h'.dev.tbmf } ∧
    h'.run = { (LosesReservation part gpa h).settle.run with hangHeld := 0, hangFrom := s.now, lastBack := none } ∧
    StoreEffects s t part gpa bs

/-- R68, R104, R107, R137: what the write of a scalar store leaves of the acting hart and of the package. -/
theorem storeEffects_of_lands {s t : State} {h : Hart} {cs : Map Core} {gpa : Nat} {far : Bool} {va : DWord} {bs : List Byte}
    {l : Option Nat} (hcaches : CachesOnly s { s with cores := cs }) (hawake : h.run.wait = none)
    (lands : FlightLands (s.beforeStore h cs gpa far) t (storeFlight s h va gpa bs l)) :
    t.hart? s.cur = some (h.stored h.role.part gpa (s.home h.role.part gpa) far s.now) ∧
      StoreEffects s t h.role.part gpa bs := by
  obtain ⟨bytes, harts, launches, cores, dies, rest⟩ := lands
  refine ⟨?_, ⟨bytes.bytes, bytes.rest⟩, fun j hj => ?_, launches, hcaches.trans cores, dies, ?_⟩
  · obtain ⟨o, other, acting⟩ := harts s.cur
    rw [State.hart?_beforeStore, if_pos rfl] at other
    rw [acting.trans (if_pos rfl), otherHart_of_awake other (by rw [Hart.retire_wait]; exact hawake)]
    rfl
  · obtain ⟨o, other, same⟩ := harts j
    rw [State.hart?_beforeStore, if_neg hj] at other
    rw [same.trans (if_neg hj)]
    exact other
  · exact (congrArg (fun v : State => { s.putBack v with mem := s.mem, launches := s.launches }) rest :)

/-- R6, R66, R68, R107, R134: a plain scalar store. -/
theorem scalarStore_stores {s : State} {h : Hart} (hc : s.hart? s.cur = some h) (rs1 rs2 : BitVec 5) (imm : BitVec 12)
    {n gpa : Nat} (hn : n = 1 ∨ n = 2 ∨ n = 4 ∨ n = 8)
    (hp : PlainAccess s h (h.getX rs1 + imm.signExtend 64) .store n gpa) :
    StoresAt s h (scalarStore rs1 rs2 imm n s) h.role.part gpa
      ((List.range n).map fun j => BitVec.ofNat 8 ((h.getX rs2).toNat / 256 ^ j)) := by
  obtain ⟨cs, far, l, caches, store⟩ := scalarStore_of_plain hc rs1 rs2 imm hp
  rw [← bytesOfNat_eq_map]
  have quiet : ((s.beforeStore h cs gpa far).core (coreOf s.cur)).flight = [] :=
    (congrArg Core.flight (caches (coreOf s.cur)) :).trans hp.quiet
  have inside : gpa % 128 + (bytesOfNat (h.getX rs2).toNat n).length ≤ 128 := by
    rw [bytesOfNat_length]
    exact hp.in_line hn
  have lands : FlightLands (s.beforeStore h cs gpa far) _ _ :=
    performFlight_lands (f := storeFlight s h (h.getX rs1 + imm.signExtend 64) gpa (bytesOfNat (h.getX rs2).toNat n) l) rfl rfl
      (heldAt_of_quiet _ _ quiet) hp.stands hp.inSpace inside
  obtain ⟨acting, effects⟩ := storeEffects_of_lands caches hp.awake lands
  obtain ⟨hx, hlanes, hdev, hrun⟩ := h.stored_keeps h.role.part gpa (s.home h.role.part gpa) far s.now
  exact ⟨_, _, store, acting, h.stored_retires _ _ _ _ _, hx, hlanes, by rw [hdev]; rfl, hrun, effects⟩

end Sys2Proof.Machine

namespace Sys2Proof.Proofs

open Sys2Proof Sys2Proof.Machine

/-- Settles O11: every load is `scalarLoad` and every store `scalarStore` of one of the four sizes. -/
theorem scalarLoadsAndStores : Obligations.ScalarLoadsAndStores := by
  unfold Obligations.ScalarLoadsAndStores
  refine ⟨?_, ?_⟩
  · intro s h rd rs1 imm gpa hc
    have loads (i : Instr) (n : Nat) (signed : Bool) (hn : n = 1 ∨ n = 2 ∨ n = 4 ∨ n = 8) :=
      scalarLoad_loads (gpa := gpa) hc i rd rs1 imm signed hn
    exact ⟨loads (.lb rd rs1 imm) 1 true (by decide), loads (.lh rd rs1 imm) 2 true (by decide),
      loads (.lw rd rs1 imm) 4 true (by decide), loads (.ld rd rs1 imm) 8 true (by decide),
      loads (.lbu rd rs1 imm) 1 false (by decide), loads (.lhu rd rs1 imm) 2 false (by decide),
      loads (.lwu rd rs1 imm) 4 false (by decide)⟩
  · intro s h rs1 rs2 imm gpa hc
    have stores (n : Nat) (hn : n = 1 ∨ n = 2 ∨ n = 4 ∨ n = 8) := scalarStore_stores (gpa := gpa) hc rs1 rs2 imm hn
    exact ⟨stores 1 (by decide), stores 2 (by decide), stores 4 (by decide), stores 8 (by decide)⟩

end Sys2Proof.Proofs
end

section
/-! The writes of a hart that arrive, and the commit of the oldest item of an ordered launch (R166, R174). -/

namespace Sys2Proof.Machine

open Sys2Proof

/-! ## Writes on their way -/

/-- R166: the package with no write of a core on its way any more. -/
def State.noFlight (s : State) (c : Nat) : State := s.modCore c fun k => { k with flight := [] }

theorem State.noFlight_quiet (s : State) (c : Nat) : ((s.noFlight c).core c).flight = [] := by
  rw [State.noFlight, State.modCore, State.core_setCore, if_pos rfl]

theorem State.noFlight_core_frame (s : State) (c d : Nat) :
    { (s.noFlight c).core d with flight := (s.core d).flight } = s.core d := by
  rw [State.noFlight, State.modCore, State.core_setCore]
  split
  · next h => rw [h]
  · rfl

/-- R166, R167: the one write of a core on its way to a place. -/
theorem drainPlace_one {s : State} {c place : Nat} {f : Flight} (hflight : (s.core c).flight = [f]) (hheld : f.held = false)
    (hplace : f.place s = place) : s.drainPlace c place = (s.noFlight c).performFlight f := by
  simp [State.drainPlace, State.noFlight, State.modCore, hflight, hheld, hplace]

/-- R166: the event by which a core's one write arrives at a standing line. -/
theorem writePerformed_lands {s : State} {f : Flight} (harg : s.arg.nats = [coreOf f.hart, s.home f.owner f.addr])
    (hflight : (s.core (coreOf f.hart)).flight = [f]) (hspace : f.space = 0) (hheld : f.held = false) (hchild : f.child = none)
    (hg : f.addr < 2 ^ 52) (hin : f.addr % 128 + f.bytes.length ≤ 128) (hs : s.standsAtHome f.owner f.addr) :
    ∃ t, exec .writePerformed s = .next t ∧ FlightLands (s.noFlight (coreOf f.hart)) t f := by
  have place : f.place s = s.home f.owner f.addr := by rw [Flight.place, hspace]; rfl
  refine ⟨(s.noFlight (coreOf f.hart)).performFlight f, ?_,
    performFlight_lands hspace hchild (heldAt_of_quiet _ _ (s.noFlight_quiet _)) hs hg hin⟩
  change Host.Outcome.next (s.drainPlace (s.arg.nats.getD 0 0) (s.arg.nats.getD 1 0)) = _
  rw [harg, ← drainPlace_one hflight hheld place]
  rfl

/-! ## The commit of the oldest item -/

/-- R130: a byte written to a scratchpad. -/
theorem read_spadWrite_one {s : State} {c a : Nat} {b : Byte} (hm : Memory.wf (s.core c).spad = true) (d x : Nat) :
    Memory.read ((s.spadWrite c a [b]).core d).spad x = if d = c ∧ x = a then b else Memory.read (s.core d).spad x := by
  rw [State.spadWrite, State.modCore, State.core_setCore]
  by_cases hd : d = c
  · subst hd
    simp only [Memory.store, Memory.read_write _ _ _ _ hm, true_and, if_true]
  · rw [if_neg hd, if_neg (fun h => hd h.1)]

theorem spadWrite_core_frame (s : State) (c a : Nat) (bs : List Byte) (d : Nat) :
    { (s.spadWrite c a bs).core d with spad := (s.core d).spad } = s.core d := by
  rw [State.spadWrite, State.modCore, State.core_setCore]
  split
  · next h => rw [h]
  · rfl

theorem wakeOrdered_plansOnly (s : State) (l : Nat) : PlansOnly s (s.wakeOrdered l) := by
  unfold State.wakeOrdered
  split
  · rfl
  · refine .foldl (fun t e => ?_) s.harts s
    split <;> rfl

theorem planCommit_plansOnly (s : State) (l : Nat) : PlansOnly s (s.planCommit l) := by
  unfold State.planCommit
  split
  · rfl
  · split
    · rfl
    · split <;> rfl

theorem checkComplete_plansOnly (s : State) (l : Nat) : PlansOnly s (s.checkComplete l) := by
  unfold State.checkComplete
  split
  · rfl
  · split <;> rfl

/-- R174, R175: lines that no other item of the launch has read abort nothing. -/
theorem sendLines_unread {s : State} {l : Nat} {L : Launch} {lines : List (Nat × Nat)} (hl : s.launch? l = some L)
    (h : ∀ o ∈ L.items, ∀ n ∈ lines, n ∉ o.reads) (but : List Nat) : s.sendLines l but lines = s := by
  have unread : L.items.filter (fun i => !i.nonspec && !but.contains i.index && i.reads.any (fun r => lines.contains r)) = [] := by
    refine List.filter_eq_nil_iff.2 fun o ho => ?_
    have none_read : o.reads.any (fun r => lines.contains r) = false :=
      List.any_eq_false.2 fun r hr hin => h o ho r (List.contains_iff_mem.1 hin) hr
    rw [none_read, Bool.and_false]
    exact Bool.false_ne_true
  simp only [State.sendLines, hl, unread, List.foldl_nil]

/-- R174: the launch after the commit of its oldest item `i`, which leaves `rest`. -/
def Launch.committed (L : Launch) (i : OrdItem) (rest : List OrdItem) : Launch :=
  { L with items := rest, exited := L.exited + 1, flags := L.flags ||| i.flags, frontier := i.ts + 1 }

/-- R174: an item without children, which holds one byte for a scratchpad and no line that another item has read. -/
structure HoldsSpadByte (i : OrdItem) (rest : List OrdItem) (c a : Nat) (b : Byte) : Prop where
  exited : i.exited = true
  buf : i.buf = [(1, c, a, b)]
  children : i.children = []
  unread : ∀ o ∈ rest, lineName 1 c a ∉ o.reads

/-- R174, R315: such an item waits for no line. -/
theorem standOldest_of_spadByte {s : State} {l : Nat} {L : Launch} {i : OrdItem} {rest : List OrdItem} {c a : Nat} {b : Byte}
    (hl : s.launch? l = some L) (hitems : L.items = i :: rest) (hi : HoldsSpadByte i rest c a b) :
    s.standOldest l = (none, s) := by
  have no_line : i.homeLines = [] := by simp [OrdItem.homeLines, hi.buf]
  simp [State.standOldest, hl, hitems, hi.exited, no_line, State.standLines]

/-- R174: the package after the commit of such an item, but for the events to come. -/
def State.spadCommitted (s : State) (l : Nat) (L : Launch) (i : OrdItem) (rest : List OrdItem) (c a : Nat) (b : Byte) : State :=
  ((s.spadWrite c a [b]).storeDone i.hart).setLaunch l (L.committed i rest)

/-- R174: the commit of such an item: its byte, its launch, its hart's hang counter, and events to come. -/
theorem commitOldest_of_spadByte {s : State} {l : Nat} {L : Launch} {i : OrdItem} {rest : List OrdItem} {c a : Nat} {b : Byte}
    (hl : s.launch? l = some L) (hitems : L.items = i :: rest) (hopen : L.pkt.open_ = false)
    (hi : HoldsSpadByte i rest c a b) :
    PlansOnly (s.spadCommitted l L i rest c a b) (s.commitOldest l) := by
  have buf : s.performBuf l i = (s.spadWrite c a [b]).storeDone i.hart := by
    simp [State.performBuf, hi.buf, insertBuf, State.performFlight]
  have launch : ((s.spadWrite c a [b]).storeDone i.hart).launch? l = some L := hl
  have lines : i.lines = [lineName 1 c a] := by simp [OrdItem.lines, hi.buf, List.eraseDups_cons]
  have commits : s.commitOldest l =
      ((s.spadCommitted l L i rest c a b).sendLines l [] i.lines).wakeOrdered l := by
    simp [State.commitOldest, hl, hitems, hi.exited, buf, hi.children, State.modLaunch, launch, hopen, State.spadCommitted,
      Launch.committed]
  have committed : (s.spadCommitted l L i rest c a b).launch? l = some (L.committed i rest) := by
    rw [State.spadCommitted, State.launch?_setLaunch, if_pos rfl]
  have unread : ∀ o ∈ (L.committed i rest).items, ∀ n ∈ i.lines, n ∉ o.reads := fun o ho n hn => by
    rw [lines, List.mem_singleton] at hn
    rw [hn]
    exact hi.unread o ho
  rw [commits, sendLines_unread committed unread]
  exact wakeOrdered_plansOnly _ l

/-- R174: the event by which such an item commits. -/
theorem itemCommit_commits {s : State} {l : Nat} {L : Launch} {i : OrdItem} {rest : List OrdItem} {c a : Nat} {b : Byte}
    (harg : s.arg.nats = [l]) (hl : s.launch? l = some L) (hitems : L.items = i :: rest) (hopen : L.pkt.open_ = false)
    (hi : HoldsSpadByte i rest c a b) :
    ∃ sched ls, exec .itemCommit s =
      .next { s.spadCommitted l L i rest c a b with schedule := sched, latencies := ls } := by
  have plans : PlansOnly (s.spadCommitted l L i rest c a b) (((s.commitOldest l).planCommit l).checkComplete l) :=
    (commitOldest_of_spadByte hl hitems hopen hi).trans <| (planCommit_plansOnly _ l).trans (checkComplete_plansOnly _ l)
  have commit : exec .itemCommit s = .next (((s.commitOldest l).planCommit l).checkComplete l) := by
    change execItemCommit s = _
    rw [execItemCommit, EventArgs.nat, harg, List.getD_cons_zero, standOldest_of_spadByte hl hitems hi]
  exact ⟨_, _, commit.trans (congrArg Host.Outcome.next plans.eq_with)⟩

end Sys2Proof.Machine

namespace Sys2Proof.Proofs

open Sys2Proof Sys2Proof.Machine

/-- Settles O32: a write that arrives at a standing line is `performFlight_lands`; the commit of an item that holds one
scratchpad byte is `commitOldest_of_spadByte`, after which only events are planned. -/
theorem writesArrive : Obligations.WritesArrive := by
  unfold Obligations.WritesArrive
  refine ⟨?_, ?_⟩
  · intro s c f harg hflight hspace hheld hchild hcore hg hin hs
    subst hcore
    obtain ⟨t, perform, lands⟩ := writePerformed_lands harg hflight hspace hheld hchild hg hin hs
    refine ⟨t, perform, ?_, ⟨lands.bytes.bytes, lands.bytes.rest⟩, lands.harts, lands.launches, fun d => ?_, lands.dies, ?_⟩
    · exact (congrArg Core.flight (lands.cores (coreOf f.hart)) :).trans (s.noFlight_quiet _)
    · have moved := congrArg (fun k : Core => { k with hdc := (s.core d).hdc, l1 := (s.core d).l1, flight := (s.core d).flight })
        (lands.cores d)
      exact moved.trans <| congrArg (fun k : Core => { k with hdc := (s.core d).hdc, l1 := (s.core d).l1 })
        (s.noFlight_core_frame (coreOf f.hart) d)
    · exact (congrArg (fun v : State => { s.putBack v with mem := s.mem, launches := s.launches }) lands.rest :)
  · intro s l L i rest c a b harg hl hitems hexited hopen hbuf hchildren hunread hwf
    obtain ⟨sched, ls, commit⟩ := itemCommit_commits harg hl hitems hopen ⟨hexited, hbuf, hchildren, hunread⟩
    refine ⟨_, commit, ?_, fun m hm => ?_, fun d x => ?_, fun d => ?_, fun j => ?_, rfl⟩
    · exact Map.find_put_same s.launches l _
    · exact Map.find_put_other s.launches l m _ hm
    · exact read_spadWrite_one hwf d x
    · exact spadWrite_core_frame s c a [b] d
    · exact hart?_storeDone (s.spadWrite c a [b]) i.hart j

end Sys2Proof.Proofs
end

section
/-! Fields packed into one number, and the evidence block of a partition (R359). -/

namespace Sys2Proof.Machine

open Sys2Proof

/-! ## Packed fields -/

theorem packFields_eq_sum (fs : List (Nat × Nat × Nat)) :
    packFields fs = (fs.map fun f => f.2.2 % 2 ^ f.2.1 * 2 ^ f.1).sum := by
  rw [packFields, List.sum_eq_foldl, List.foldl_map]

theorem packFields_append (fs gs : List (Nat × Nat × Nat)) : packFields (fs ++ gs) = packFields fs + packFields gs := by
  simp only [packFields_eq_sum, List.map_append, List.sum_append]

theorem packFields_cons (f : Nat × Nat × Nat) (fs : List (Nat × Nat × Nat)) :
    packFields (f :: fs) = f.2.2 % 2 ^ f.2.1 * 2 ^ f.1 + packFields fs := by
  simp only [packFields_eq_sum, List.map_cons, List.sum_cons]

/-- Fields in ascending order, each after the end of those before it. -/
def FieldsApart (fs : List (Nat × Nat × Nat)) : Prop := fs.Pairwise fun f g => f.1 + f.2.1 ≤ g.1

theorem packFields_lt {fs : List (Nat × Nat × Nat)} {n : Nat} (apart : FieldsApart fs) (below : ∀ f ∈ fs, f.1 + f.2.1 ≤ n) :
    packFields fs < 2 ^ n := by
  induction fs using List.reverseRecOn generalizing n with
  | nil => exact Nat.two_pow_pos n
  | append_singleton fs f ih =>
    obtain ⟨rest, -, before⟩ := List.pairwise_append.1 apart
    have low : packFields fs < 2 ^ f.1 := ih rest fun g hg => before g hg f (List.mem_singleton_self f)
    have value : f.2.2 % 2 ^ f.2.1 < 2 ^ f.2.1 := Nat.mod_lt _ (Nat.two_pow_pos _)
    calc packFields (fs ++ [f]) = packFields fs + f.2.2 % 2 ^ f.2.1 * 2 ^ f.1 := by
          rw [packFields_append, packFields_cons]; rfl
      _ < (f.2.2 % 2 ^ f.2.1 + 1) * 2 ^ f.1 := by rw [Nat.add_mul, Nat.one_mul]; omega
      _ ≤ 2 ^ f.2.1 * 2 ^ f.1 := Nat.mul_le_mul_right _ value
      _ = 2 ^ (f.1 + f.2.1) := by rw [Nat.mul_comm, Nat.pow_add]
      _ ≤ 2 ^ n := Nat.pow_le_pow_right (by decide) (below f (by simp))

theorem two_pow_dvd_packFields {fs : List (Nat × Nat × Nat)} {n : Nat} (above : ∀ f ∈ fs, n ≤ f.1) : 2 ^ n ∣ packFields fs := by
  rw [packFields_eq_sum]
  refine List.dvd_sum fun x hx => ?_
  obtain ⟨f, hf, rfl⟩ := List.mem_map.1 hx
  exact Nat.dvd_mul_left_of_dvd (Nat.pow_dvd_pow 2 (above f hf)) _

/-- A field read back: what stands below it is less than its place, and what stands above it is a multiple of its end. -/
theorem packFields_field {fs : List (Nat × Nat × Nat)} {o w v : Nat} (apart : FieldsApart fs) (hf : (o, w, v) ∈ fs) :
    packFields fs / 2 ^ o % 2 ^ w = v % 2 ^ w := by
  obtain ⟨below, above, rfl⟩ := List.append_of_mem hf
  obtain ⟨apart_below, apart_from, ends⟩ := List.pairwise_append.1 apart
  have low : packFields below < 2 ^ o := packFields_lt apart_below fun f h => ends f h _ List.mem_cons_self
  obtain ⟨k, high⟩ : 2 ^ (o + w) ∣ packFields above := two_pow_dvd_packFields (List.pairwise_cons.1 apart_from).1
  have split : packFields (below ++ (o, w, v) :: above) = packFields below + 2 ^ o * (v % 2 ^ w + 2 ^ w * k) := by
    rw [packFields_append, packFields_cons, high, Nat.mul_add, ← Nat.mul_assoc, ← Nat.pow_add, Nat.mul_comm (v % _)]
  rw [split, Nat.add_mul_div_left _ _ (Nat.two_pow_pos o), Nat.div_eq_of_lt low, Nat.zero_add, Nat.add_mul_mod_self_left,
    Nat.mod_mod]

/-- A bit of a field. -/
theorem packFields_testBit {fs : List (Nat × Nat × Nat)} {o w v j : Nat} (apart : FieldsApart fs) (hf : (o, w, v) ∈ fs)
    (hj : j < w) : (packFields fs).testBit (o + j) = v.testBit j := by
  have field := congrArg (Nat.testBit · j) (packFields_field apart hf)
  simpa only [Nat.testBit_mod_two_pow, Nat.testBit_div_two_pow, hj, decide_true, Bool.true_and, Nat.add_comm j o] using field

theorem testBit_b2n (b : Bool) : (b2n b).testBit 0 = b := by cases b <;> rfl

/-- A mask made of rising bit numbers has exactly those bits. -/
theorem testBit_foldl_two_pow {l : List Nat} (rising : l.SortedLT) (d : Nat) :
    (l.foldl (fun a d => a + 2 ^ d) 0).testBit d = decide (d ∈ l) := by
  have sum : l.foldl (fun a d => a + 2 ^ d) 0 = (l.map (2 ^ ·)).sum := by rw [List.sum_eq_foldl, List.foldl_map]
  rw [sum, Bool.eq_iff_iff, ← Nat.mem_bitIndices, Nat.bitIndices_sum_map_two_pow rising, decide_eq_true_iff]

/-! ## Evidence -/

/-- R359: the N-dies on which a partition has a hart or job. -/
def State.residentDies (s : State) (part : Nat) : List Nat := (upTo 8).filter (s.residentOn part)

theorem State.mem_residentDies (s : State) (part d : Nat) : d ∈ s.residentDies part ↔ d < 8 ∧ s.residentOn part d = true := by
  rw [State.residentDies, List.mem_filter, upTo, List.mem_range]

/-- R359: 0 resident, 1 descheduled, 2 gated. -/
def State.residence (s : State) (part : Nat) (p : Part) : Nat :=
  if !(s.residentDies part).isEmpty then 0 else if p.coreList.any (fun c => (s.cluster (c / 8)).powered) then 1 else 2

/-- R359: the fields of the evidence block: place, width and value. -/
def State.evidenceFields (s : State) (part : Nat) (p : Part) : List (Nat × Nat × Nat) :=
  [(0, 6, part), (6, 1, b2n p.sealed_), (7, 1, b2n (!p.sealed_ || p.heat)), (8, 2, s.residence part p),
    (16, 8, (s.residentDies part).foldl (fun a d => a + 2 ^ d) 0), (64, 64, p.tmeas), (128, 64, p.nlog),
    (192, 512, p.logHash.toNat), (704, 512, p.bhash.toNat)]

theorem State.evidence_eq_packFields (s : State) (part : Nat) (p : Part) :
    s.evidence part p = packFields (s.evidenceFields part p) := rfl

theorem State.evidenceFields_apart (s : State) (part : Nat) (p : Part) : FieldsApart (s.evidenceFields part p) := by
  simp [FieldsApart, State.evidenceFields]

theorem State.residence_eq (s : State) (part : Nat) (p : Part) :
    s.residence part p = if (List.range 8).any (s.residentOn part) = true then 0
      else if (List.range 2048).any (fun k => p.cores.getLsbD k && (s.cluster (k / 8)).powered) = true then 1 else 2 := by
  have resident : (!(s.residentDies part).isEmpty) = (List.range 8).any (s.residentOn part) := by
    rw [State.residentDies, upTo, Bool.eq_iff_iff]
    simp
  rw [State.residence, resident, Part.coreList, upTo, List.any_filter]

theorem State.residence_lt (s : State) (part : Nat) (p : Part) : s.residence part p < 2 ^ 2 := by
  unfold State.residence
  split
  · decide
  · split <;> decide

section
variable (s : State) (part : Nat) (p : Part)

/-- R359: a field of the evidence block, read back. -/
theorem State.evidence_field {o w v : Nat} (hf : (o, w, v) ∈ s.evidenceFields part p) :
    s.evidence part p / 2 ^ o % 2 ^ w = v % 2 ^ w :=
  packFields_field (s.evidenceFields_apart part p) hf

theorem State.evidence_testBit {o w v j : Nat} (hf : (o, w, v) ∈ s.evidenceFields part p) (hj : j < w) :
    (s.evidence part p).testBit (o + j) = v.testBit j :=
  packFields_testBit (s.evidenceFields_apart part p) hf hj

theorem State.evidence_part (h : part < 64) : s.evidence part p % 64 = part := by
  have field := s.evidence_field part p (o := 0) (w := 6) (v := part) (by simp [State.evidenceFields])
  rw [Nat.pow_zero, Nat.div_one] at field
  exact field.trans (Nat.mod_eq_of_lt h)

theorem State.evidence_sealed : (s.evidence part p).testBit 6 = p.sealed_ :=
  (s.evidence_testBit part p (o := 6) (j := 0) (w := 1) (by simp [State.evidenceFields]) (by decide)).trans (testBit_b2n _)

theorem State.evidence_heat : (s.evidence part p).testBit 7 = (!p.sealed_ || p.heat) :=
  (s.evidence_testBit part p (o := 7) (j := 0) (w := 1) (by simp [State.evidenceFields]) (by decide)).trans (testBit_b2n _)

theorem State.evidence_residence : s.evidence part p / 2 ^ 8 % 4 = s.residence part p :=
  (s.evidence_field part p (o := 8) (w := 2) (by simp [State.evidenceFields])).trans
    (Nat.mod_eq_of_lt (s.residence_lt part p))

theorem State.evidence_dies {d : Nat} (hd : d < 8) : (s.evidence part p).testBit (16 + d) = s.residentOn part d := by
  have rising : (s.residentDies part).SortedLT := (List.pairwise_lt_range.filter _).sortedLT
  have mask : (16, 8, (s.residentDies part).foldl (fun a d => a + 2 ^ d) 0) ∈ s.evidenceFields part p := by
    simp [State.evidenceFields]
  rw [s.evidence_testBit part p mask hd, testBit_foldl_two_pow rising, Bool.eq_iff_iff, decide_eq_true_iff, s.mem_residentDies,
    and_iff_right hd]

theorem State.evidence_time : s.evidence part p / 2 ^ 64 % 2 ^ 64 = p.tmeas % 2 ^ 64 :=
  s.evidence_field part p (by simp [State.evidenceFields])

theorem State.evidence_entries : s.evidence part p / 2 ^ 128 % 2 ^ 64 = p.nlog % 2 ^ 64 :=
  s.evidence_field part p (by simp [State.evidenceFields])

theorem State.evidence_logHash : s.evidence part p / 2 ^ 192 % 2 ^ 512 = p.logHash.toNat := by
  rw [s.evidence_field part p (w := 512) (v := p.logHash.toNat) (by simp [State.evidenceFields]), BitVec.toNat_mod_cancel]

theorem State.evidence_requester : s.evidence part p / 2 ^ 704 % 2 ^ 512 = p.bhash.toNat := by
  rw [s.evidence_field part p (w := 512) (v := p.bhash.toNat) (by simp [State.evidenceFields]), BitVec.toNat_mod_cancel]

end

end Sys2Proof.Machine
end

section
/-! The package as SPDM responder, request by request (R357 to R361). -/

namespace Sys2Proof.Machine

open Sys2Proof

/-! ## A response over a connection -/

theorem Map.put_put {α : Type} (m : Map α) (n : Nat) (a b : α) : Map.put (Map.put m n a) n b = Map.put m n b := by
  induction m with
  | nil => simp [Map.put]
  | cons e m ih =>
    obtain ⟨k, v⟩ := e
    rcases Nat.lt_trichotomy n k with h | rfl | h
    · simp [Map.put, h]
    · simp [Map.put]
    · simp [Map.put, ih, show ¬ n < k by omega, show n ≠ k by omega]

theorem State.conn_setConn (s : State) (d : Conn) : (s.setConn d).conn = d := by
  rw [State.conn, State.setConn, Map.findD_put, if_pos rfl]

theorem State.respondSpdm_setConn (s : State) (d : Conn) (code : Nat) (fields : List Nat) :
    (s.setConn d).respondSpdm code fields = s.spdmSays d s.spdm.sessions code fields := by
  rw [State.respondSpdm, State.conn_setConn]
  simp only [State.setConn, State.spdmSays, Map.put_put]

/-- R357: the request `i` is answered: the connection becomes `d` with this response, the sessions become `l`, and nothing else
moves. -/
def SpdmAnswers (s : State) (i : Instr) (d : Conn) (l : List Session) (code : Nat) (fields : List Nat) : Prop :=
  exec i s = .next (s.spdmSays d l code fields)

/-- R357: the request `i` is answered, and only the response moves. -/
def SpdmReplies (s : State) (i : Instr) (code : Nat) (fields : List Nat) : Prop :=
  SpdmAnswers s i s.conn s.spdm.sessions code fields

/-! ## Whether a request is answered -/

/-- R357: the requests that follow the choice of algorithms. -/
def spdmLater : List Instr :=
  [.getDigests, .getCertificate, .challenge, .getMeasurements, .keyExchange, .finish, .endSession, .reportBind]

/-- R357: every request. -/
def spdmRequests : List Instr :=
  [.getVersion, .getCapabilities, .negotiateAlgorithms, .spdmUnsupportedRequest] ++ spdmLater

theorem exec_of_mem_spdmLater (s : State) : ∀ i ∈ spdmLater, ∃ f, exec i s = s.spdm_ s.conn.algs f := by
  simp only [spdmLater, List.forall_mem_cons]
  exact ⟨⟨_, execGetDigests.eq_def s⟩, ⟨_, execGetCertificate.eq_def s⟩, ⟨_, execChallenge.eq_def s⟩,
    ⟨_, execGetMeasurements.eq_def s⟩, ⟨_, execKeyExchange.eq_def s⟩, ⟨_, execFinish.eq_def s⟩, ⟨_, execEndSession.eq_def s⟩,
    ⟨_, execReportBind.eq_def s⟩, List.forall_mem_nil _⟩

theorem exec_spdmUnsupportedRequest (s : State) :
    exec .spdmUnsupportedRequest s = s.spdm_ true (fun t => t.respondSpdm 0x7F [7]) := rfl

theorem exec_of_mem_spdmRequests (s : State) : ∀ i ∈ spdmRequests, ∃ ready f, exec i s = s.spdm_ ready f := by
  simp only [spdmRequests, List.cons_append, List.nil_append, List.forall_mem_cons]
  exact ⟨⟨_, _, execGetVersion.eq_def s⟩, ⟨_, _, execGetCapabilities.eq_def s⟩, ⟨_, _, execNegotiateAlgorithms.eq_def s⟩,
    ⟨_, _, exec_spdmUnsupportedRequest s⟩, fun i hi => ⟨_, exec_of_mem_spdmLater s i hi⟩⟩

section
variable {s : State} {ready : Bool} {f : State → State} {o : Out} (ho : o = s.spdm_ ready f)
include ho

/-- R12: a request that does not reach the responder. -/
theorem next_of_lost (harr : s.arrives s.arg.msg = false) : o = .next s := by
  simp [ho, State.spdm_, harr]

theorem next_of_ready (harr : s.arrives s.arg.msg = true) (hr : ready = true) : o = .next (f s) := by
  simp [ho, State.spdm_, harr, hr]

/-- R357: a request before the exchanges that it needs. -/
theorem next_of_early (harr : s.arrives s.arg.msg = true) (hr : ready = false) : o = .next (s.respondSpdm 0x7F [4]) := by
  simp [ho, State.spdm_, harr, hr, spdmError, errUnexpected]

end

/-! ## Version, capabilities and algorithms -/

theorem and_two_pow_beq (a k : Nat) : (a &&& 2 ^ k == 2 ^ k) = a.testBit k := by
  rw [Nat.and_two_pow]
  cases a.testBit k <;> simp [(Nat.two_pow_pos k).ne]

/-- R348: the requester's four sets hold the one set of algorithms. -/
theorem offers_spdmAlgs {x : EventArgs} {a b e g : Nat} (hx : x.nats = [a, b, e, g]) :
    spdmAlgs.zipIdx.all (fun r => x.nat r.2 &&& r.1 == r.1) = (a.testBit 5 && b.testBit 2 && e.testBit 2 && g.testBit 1) := by
  simp only [← and_two_pow_beq, spdmAlgs, EventArgs.nat, hx]
  simp [List.zipIdx_cons, Bool.and_assoc]

section
variable {s : State} (harr : s.arrives s.arg.msg = true)
include harr

theorem getVersion_answers : SpdmAnswers s .getVersion { s.conn with version := true, caps := false, algs := false }
    (s.spdm.sessions.filter (fun e => e.port != s.arg.msg.port)) 0x04 [0x13] :=
  (next_of_ready (execGetVersion.eq_def s) harr rfl).trans (congrArg Host.Outcome.next (State.respondSpdm_setConn _ _ _ _))

theorem spdmUnsupportedRequest_replies : SpdmReplies s .spdmUnsupportedRequest 0x7F [7] :=
  next_of_ready (exec_spdmUnsupportedRequest s) harr rfl

theorem getCapabilities_answers (hv : s.conn.version = true) :
    SpdmAnswers s .getCapabilities { s.conn with caps := true } s.spdm.sessions 0x61 [0x3D6] :=
  (next_of_ready (execGetCapabilities.eq_def s) harr hv).trans (congrArg Host.Outcome.next (State.respondSpdm_setConn _ _ _ _))

theorem getCapabilities_early (hv : s.conn.version = false) : SpdmReplies s .getCapabilities 0x7F [4] :=
  next_of_early (execGetCapabilities.eq_def s) harr hv

theorem negotiateAlgorithms_early (hc : s.conn.caps = false) : SpdmReplies s .negotiateAlgorithms 0x7F [4] :=
  next_of_early (execNegotiateAlgorithms.eq_def s) harr hc

theorem negotiateAlgorithms_eq (hc : s.conn.caps = true) :
    exec .negotiateAlgorithms s = .next (if spdmAlgs.zipIdx.all (fun r => s.arg.nat r.2 &&& r.1 == r.1) then
      (s.setConn { s.conn with algs := true }).respondSpdm 0x63 spdmAlgs else s.respondSpdm 0x7F [1]) :=
  (next_of_ready (execNegotiateAlgorithms.eq_def s) harr hc).trans rfl

/-- R348, R357: the one set of algorithms is chosen where the requester offers it. -/
theorem negotiateAlgorithms_answers (hc : s.conn.caps = true) {a b e g : Nat} (hn : s.arg.nats = [a, b, e, g]) :
    ((a.testBit 5 && b.testBit 2 && e.testBit 2 && g.testBit 1) = true →
      SpdmAnswers s .negotiateAlgorithms { s.conn with algs := true } s.spdm.sessions 0x63 [0x20, 0x04, 0x04, 0x02]) ∧
    ((a.testBit 5 && b.testBit 2 && e.testBit 2 && g.testBit 1) = false → SpdmReplies s .negotiateAlgorithms 0x7F [1]) := by
  have run := negotiateAlgorithms_eq harr hc
  rw [offers_spdmAlgs hn, State.respondSpdm_setConn] at run
  refine ⟨fun offered => ?_, fun lacking => ?_⟩
  · rwa [if_pos offered] at run
  · rwa [lacking, if_neg Bool.false_ne_true] at run

end

/-! ## Requests after the choice of algorithms -/

theorem early_of_mem_spdmLater {s : State} (harr : s.arrives s.arg.msg = true) (hg : s.conn.algs = false) :
    ∀ i ∈ spdmLater, SpdmReplies s i 0x7F [4] := fun i hi => by
  obtain ⟨f, run⟩ := exec_of_mem_spdmLater s i hi
  exact next_of_early run harr hg

/-- R358: the package has no such measurement block. -/
theorem State.measurement_eq_none (s : State) {i : Nat} (h : i = 0 ∨ (12 ≤ i ∧ i < 64) ∨ 128 ≤ i) : s.measurement i = none := by
  rw [State.measurement, if_neg (by omega), if_neg (by omega), if_neg (by omega)]

theorem State.measurement_die (s : State) {i : Nat} (h2 : 2 ≤ i) (h11 : i ≤ 11) :
    s.measurement i = some [(sha512Of (((s.die (i - 2)).blocks.map (fun b => bytesOfNat b 64)).flatten)).toNat,
      (s.die (i - 2)).st, (s.die (i - 2)).nres % 256] := by
  rw [State.measurement, if_neg (by omega), if_pos ⟨h2, h11⟩, Die.digest]

theorem State.measurement_part (s : State) {i : Nat} (h64 : 64 ≤ i) (h128 : i < 128) :
    s.measurement i = (s.part? (i - 64)).map (fun p => [s.evidence (i - 64) p]) := by
  rw [State.measurement, if_neg (by omega), if_neg (by omega), if_pos ⟨h64, h128⟩]

theorem EventArgs.nat_zero {x : EventArgs} {i : Nat} {l : List Nat} (h : x.nats = i :: l) : x.nat 0 = i := by
  rw [EventArgs.nat, h, List.getD_cons_zero]

section
variable {s : State} (harr : s.arrives s.arg.msg = true) (hg : s.conn.algs = true)
include harr hg

theorem getDigests_replies : ∃ g, SpdmReplies s .getDigests 0x01 [g] := ⟨_, next_of_ready (execGetDigests.eq_def s) harr hg⟩

/-- R346, R357: the certificate of the responder's key. -/
theorem getCertificate_replies : ∃ g, SpdmReplies s .getCertificate 0x02
    [s.pkg.boot.toNat, (sha512Of Config.slateFirmware).toNat, (Config.serial 8).toNat, g] :=
  ⟨_, next_of_ready (execGetCertificate.eq_def s) harr hg⟩

theorem challenge_replies : ∃ g, SpdmReplies s .challenge 0x03 [s.pkg.boot.toNat, s.arg.data.toNat, g] :=
  ⟨_, next_of_ready (execChallenge.eq_def s) harr hg⟩

/-- R358, R360: every block asked for at once. -/
theorem getMeasurements_all (hi : s.arg.nats = [255]) : ∃ fields, SpdmReplies s .getMeasurements 0x60 fields :=
  ⟨_, (next_of_ready (execGetMeasurements.eq_def s) harr hg).trans (congrArg Host.Outcome.next (if_pos (EventArgs.nat_zero hi)))⟩

/-- R358: GET_MEASUREMENTS of one block answers by what `State.measurement` holds of it. -/
theorem getMeasurements_one {i : Nat} (hi : s.arg.nats = [i]) (h255 : i ≠ 255) :
    exec .getMeasurements s = .next (match s.measurement i with
      | none => s.respondSpdm 0x7F [1]
      | some b => s.respondSpdm 0x60 (signedFields 0x60 (i :: b ++ [s.arg.data.toNat]))) := by
  obtain rfl := EventArgs.nat_zero hi
  exact (next_of_ready (execGetMeasurements.eq_def s) harr hg).trans (congrArg Host.Outcome.next (if_neg h255))

theorem getMeasurements_absent {i : Nat} (hi : s.arg.nats = [i]) (h255 : i ≠ 255) (hm : s.measurement i = none) :
    SpdmReplies s .getMeasurements 0x7F [1] := by
  have run := getMeasurements_one harr hg hi h255
  rwa [hm] at run

theorem getMeasurements_block {i : Nat} {b : List Nat} (hi : s.arg.nats = [i]) (h255 : i ≠ 255) (hm : s.measurement i = some b) :
    SpdmReplies s .getMeasurements 0x60 (signedFields 0x60 (i :: b ++ [s.arg.data.toNat])) := by
  have run := getMeasurements_one harr hg hi h255
  rwa [hm] at run

/-- R359: the evidence block of a partition that exists. -/
theorem getMeasurements_evidence {i : Nat} {p : Part} (hi : s.arg.nats = [i]) (h64 : 64 ≤ i) (h128 : i < 128)
    (hp : s.part? (i - 64) = some p) :
    ∃ g, SpdmReplies s .getMeasurements 0x60 [i, s.evidence (i - 64) p, s.arg.data.toNat, g] := by
  have block : s.measurement i = some [s.evidence (i - 64) p] := by rw [s.measurement_part h64 h128, hp]; rfl
  exact ⟨_, getMeasurements_block harr hg hi (by omega) block⟩

end

/-! ## Sessions -/

theorem State.session?_eq_none {s : State} {id : Nat} (h : ∀ e ∈ s.spdm.sessions, e.id ≠ id) : s.session? id = none :=
  List.find?_eq_none.2 fun e he => by simpa using h e he

/-- R357: the sessions after a FINISH of session `id` that holds. -/
def State.finishedSessions (s : State) (id : Nat) : List Session :=
  s.spdm.sessions.map fun x => if x.id = id then
    { x with finished := true, mutual_ := s.arg.ok2, keyHash := if s.arg.ok2 then s.arg.data.setWidth 512 else 0 } else x

section
variable {s : State} (harr : s.arrives s.arg.msg = true) (hg : s.conn.algs = true)
include harr hg

theorem keyExchange_full (h : 64 ≤ s.spdm.sessions.length) : SpdmReplies s .keyExchange 0x7F [10] :=
  (next_of_ready (execKeyExchange.eq_def s) harr hg).trans (congrArg Host.Outcome.next (if_pos h))

/-- R357: a session is opened under the next number. -/
theorem keyExchange_opens (h : s.spdm.sessions.length < 64) : ∃ g, exec .keyExchange s =
    .next (({ s with spdm := { s.spdm with nextSession := s.spdm.nextSession + 1 } } : State).spdmSays s.conn (s.spdm.sessions ++
      [{ id := s.spdm.nextSession, port := s.arg.msg.port, finished := false, mutual_ := false, keyHash := 0 }]) 0x64
      [s.spdm.nextSession, g]) :=
  ⟨_, (next_of_ready (execKeyExchange.eq_def s) harr hg).trans (congrArg Host.Outcome.next (if_neg (Nat.not_le_of_lt h)))⟩

/-- R357: FINISH answers by the session that it names. -/
theorem finish_eq {id : Nat} (hi : s.arg.nats = [id]) :
    exec .finish s = .next (match s.session? id with
      | none => s.respondSpdm 0x7F [2]
      | some e =>
        if e.finished then s.respondSpdm 0x7F [4]
        else if s.arg.ok = false then s.spdmSays s.conn (s.spdm.sessions.filter (fun x => x.id != id)) 0x7F [6]
        else s.spdmSays s.conn (s.finishedSessions id) 0x65 [id]) := by
  obtain rfl := EventArgs.nat_zero hi
  exact (next_of_ready (execFinish.eq_def s) harr hg).trans rfl

/-- R357: END_SESSION answers by the session that it names. -/
theorem endSession_eq {id : Nat} (hi : s.arg.nats = [id]) :
    exec .endSession s = .next (match s.session? id with
      | none => s.respondSpdm 0x7F [2]
      | some _ => s.spdmSays s.conn (s.spdm.sessions.filter (fun x => x.id != id)) 0x6C [id]) := by
  obtain rfl := EventArgs.nat_zero hi
  exact (next_of_ready (execEndSession.eq_def s) harr hg).trans rfl

theorem finish_endSession_unknown {id : Nat} (hi : s.arg.nats = [id]) (h : s.session? id = none) :
    SpdmReplies s .finish 0x7F [2] ∧ SpdmReplies s .endSession 0x7F [2] := by
  have finish := finish_eq harr hg hi
  have endSession := endSession_eq harr hg hi
  rw [h] at finish endSession
  exact ⟨finish, endSession⟩

theorem endSession_ends {e : Session} (hi : s.arg.nats = [e.id]) (he : s.session? e.id = some e) :
    SpdmAnswers s .endSession s.conn (s.spdm.sessions.filter (fun x => x.id != e.id)) 0x6C [e.id] := by
  have endSession := endSession_eq harr hg hi
  rwa [he] at endSession

theorem finish_of_session {e : Session} (hi : s.arg.nats = [e.id]) (he : s.session? e.id = some e) :
    exec .finish s = .next (if e.finished then s.respondSpdm 0x7F [4]
      else if s.arg.ok = false then s.spdmSays s.conn (s.spdm.sessions.filter (fun x => x.id != e.id)) 0x7F [6]
      else s.spdmSays s.conn (s.finishedSessions e.id) 0x65 [e.id]) := by
  have finish := finish_eq harr hg hi
  rwa [he] at finish

theorem finish_again {e : Session} (hi : s.arg.nats = [e.id]) (he : s.session? e.id = some e) (hf : e.finished = true) :
    SpdmReplies s .finish 0x7F [4] :=
  (finish_of_session harr hg hi he).trans (congrArg Host.Outcome.next (if_pos hf))

/-- R357: a FINISH whose verification data do not hold closes its session. -/
theorem finish_fails {e : Session} (hi : s.arg.nats = [e.id]) (he : s.session? e.id = some e) (hf : e.finished = false)
    (hok : s.arg.ok = false) :
    SpdmAnswers s .finish s.conn (s.spdm.sessions.filter (fun x => x.id != e.id)) 0x7F [6] := by
  have run := finish_of_session harr hg hi he
  rwa [hf, if_neg Bool.false_ne_true, if_pos hok] at run

theorem finish_finishes {e : Session} (hi : s.arg.nats = [e.id]) (he : s.session? e.id = some e) (hf : e.finished = false)
    (hok : s.arg.ok = true) : SpdmAnswers s .finish s.conn (s.finishedSessions e.id) 0x65 [e.id] := by
  have run := finish_of_session harr hg hi he
  rwa [hf, if_neg Bool.false_ne_true, hok, if_neg Bool.true_eq_false.mp] at run

end

/-! ## Report binding -/

/-- R360, R361: the package after a partition's report key is bound and logged. -/
def State.bound (s : State) (part id : Nat) (e : Session) : State :=
  (s.modPart part (fun p => { p with bkey := some (reportKey (Config.exportSecret id) part), bhash := e.keyHash })).logEntry part
    (logBinding part e.keyHash)

/-- R361: the binding of a partition and a session that exist. -/
theorem State.mayBind_of_some {s : State} {part id : Nat} {p : Part} {e : Session} (hp : s.part? part = some p)
    (he : s.session? id = some e) :
    s.mayBind part id =
      if p.sealed_ && e.finished && e.mutual_ && (p.bkey.isNone || p.bhash == e.keyHash) then some (p, e) else none := by
  rw [State.mayBind, hp, he]

theorem State.modPart_of {s : State} {k : Nat} {v : Part} (h : s.part? k = some v) (f : Part → Part) :
    s.modPart k f = s.setPart k (f v) := by
  rw [State.modPart, h]

theorem State.setPart_setPart (s : State) (k : Nat) (v w : Part) : (s.setPart k v).setPart k w = s.setPart k w := by
  simp only [State.setPart, Map.put_put]

/-- R360, R361: a partition whose report key is bound to a session: the key, the requester, and one more entry of the log. -/
def Part.boundTo (p : Part) (part id : Nat) (e : Session) (time : Nat) : Part :=
  { p with
    bkey := some (reportKey (Config.exportSecret id) part), bhash := e.keyHash, nlog := p.nlog + 1, tmeas := time
    logHash := sha512Of (bytesOfNat p.logHash.toNat 64 ++ bytesOfNat (sha512Of (logBinding part e.keyHash)).toNat 64) }

theorem State.bound_eq_setPart {s : State} {part : Nat} {p : Part} (hp : s.part? part = some p) (id : Nat) (e : Session) :
    s.bound part id e = s.setPart part (p.boundTo part id e s.time) := by
  have found : ∀ v, (s.setPart part v).part? part = some v := fun v => by rw [State.part?_setPart, if_pos rfl]
  rw [State.bound, State.logEntry, State.modPart_of hp, State.modPart_of (found _), State.setPart_setPart]
  rfl

section
variable {s : State} (harr : s.arrives s.arg.msg = true) (hg : s.conn.algs = true)
include harr hg

/-- R361: REPORT_BIND answers by whether the binding is accepted. -/
theorem reportBind_eq {part id : Nat} (hi : s.arg.nats = [part, id]) :
    exec .reportBind s = .next (match s.mayBind part id with
      | none => s.drawn.respondSpdm 0x7F [(s.free 8).toNat]
      | some (_, e) => (s.bound part id e).respondSpdm 0x7E [part]) := by
  obtain rfl := EventArgs.nat_zero hi
  obtain rfl : s.arg.nat 1 = id := by rw [EventArgs.nat, hi]; rfl
  exact (next_of_ready (execReportBind.eq_def s) harr hg).trans rfl

/-- R360, R361: a binding that is accepted. -/
theorem reportBind_binds {part id : Nat} {p : Part} {e : Session} (hi : s.arg.nats = [part, id]) (hp : s.part? part = some p)
    (he : s.session? id = some e) (hsealed : p.sealed_ = true) (hfin : e.finished = true) (hmut : e.mutual_ = true)
    (hkey : p.bkey = none ∨ p.bhash = e.keyHash) :
    exec .reportBind s = .next ((s.bound part id e).respondSpdm 0x7E [part]) := by
  have run := reportBind_eq harr hg hi
  have accepted : s.mayBind part id = some (p, e) := by
    rw [State.mayBind_of_some hp he, if_pos]
    rcases hkey with h | h <;> simp [hsealed, hfin, hmut, h]
  rwa [accepted] at run

/-- R361: a binding that is refused. -/
theorem reportBind_refuses {part id : Nat} {p : Part} {e : Session} (hi : s.arg.nats = [part, id]) (hp : s.part? part = some p)
    (he : s.session? id = some e)
    (h : p.sealed_ = false ∨ e.finished = false ∨ e.mutual_ = false ∨ (p.bkey ≠ none ∧ p.bhash ≠ e.keyHash)) :
    exec .reportBind s = .next (s.drawn.respondSpdm 0x7F [(s.free 8).toNat]) := by
  have run := reportBind_eq harr hg hi
  have refused : s.mayBind part id = none := by
    rw [State.mayBind_of_some hp he, if_neg]
    rcases h with h | h | h | ⟨hkey, hreq⟩
    · simp [h]
    · simp [h]
    · simp [h]
    · simp [hkey, hreq]
  rwa [refused] at run

end

end Sys2Proof.Machine

namespace Sys2Proof.Proofs

open Sys2Proof Sys2Proof.Machine

/-- Settles O56, request by request: the clause of each request is the lemma that bears the request's name. -/
theorem spdmResponses : Obligations.SpdmResponses := by
  unfold Obligations.SpdmResponses
  intro s sp c answers out later
  refine ⟨fun lost i hi => ?_, fun harr => ⟨getVersion_answers harr, spdmUnsupportedRequest_replies harr,
    getCapabilities_answers harr, getCapabilities_early harr, fun a b e g hn hc => negotiateAlgorithms_answers harr hc hn,
    negotiateAlgorithms_early harr, early_of_mem_spdmLater harr, fun hg => ⟨getDigests_replies harr hg,
      getCertificate_replies harr hg, challenge_replies harr hg, fun i hi => ?_, keyExchange_full harr hg,
      keyExchange_opens harr hg, fun id hi unknown => finish_endSession_unknown harr hg hi (State.session?_eq_none unknown),
      fun e hi he => ?_, fun part id p e hi hp he => ?_⟩⟩⟩
  · obtain ⟨ready, f, run⟩ := exec_of_mem_spdmRequests s i hi
    exact next_of_lost run lost
  · have block {b : List Nat} (h : i < 128) := getMeasurements_block (b := b) harr hg hi (by omega)
    refine ⟨fun h255 h => getMeasurements_absent harr hg hi h255 (s.measurement_eq_none h), ?_, ?_,
      fun h2 h11 => ⟨_, block (by omega) (s.measurement_die h2 h11)⟩, fun h64 h128 none => ?_, fun p h64 h128 hp => ?_⟩
    · rintro rfl
      exact getMeasurements_all harr hg hi
    · rintro rfl
      exact ⟨_, block (by omega) rfl⟩
    · exact getMeasurements_absent harr hg hi (by omega) (by rw [s.measurement_part h64 h128, none]; rfl)
    · obtain ⟨g, evidence⟩ := getMeasurements_evidence harr hg hi h64 h128 hp
      exact ⟨_, g, evidence, s.evidence_part _ p (by omega), s.evidence_sealed _ p, s.evidence_heat _ p,
        fun d => s.evidence_dies _ p, (s.evidence_residence _ p).trans (s.residence_eq _ p), s.evidence_time _ p,
        s.evidence_entries _ p, s.evidence_logHash _ p, s.evidence_requester _ p⟩
  · refine ⟨endSession_ends harr hg hi he, finish_again harr hg hi he, finish_fails harr hg hi he,
      fun hf hok => ⟨_, finish_finishes harr hg hi he hf hok, fun x => ?_⟩⟩
    rw [State.finishedSessions, List.mem_map]
    exact ⟨fun ⟨y, hy, h⟩ => ⟨y, hy, h.symm⟩, fun ⟨y, hy, h⟩ => ⟨y, hy, h.symm⟩⟩
  · refine ⟨fun hsealed hfin hmut hkey => ?_, fun h => ⟨_, _, reportBind_refuses harr hg hi hp he h, rfl, rfl⟩⟩
    have run := reportBind_binds harr hg hi hp he hsealed hfin hmut hkey
    rw [State.bound_eq_setPart hp id e] at run
    exact ⟨_, _, run, rfl, (s.part?_setPart part part _).trans (if_pos rfl), rfl, rfl, rfl, rfl, rfl⟩

end Sys2Proof.Proofs
end

section
/-! The encoder and the decoder (R26 to R52): the fields of an instruction, its words, and what the decoder reads of them. -/

namespace Sys2Proof

open Sys2Proof

/-! ## Fields within fields

The encodings write `x ++ y` at a width of their own, where the library's lemmas about `++` do not fire; these state them of
`BitVec.append`. -/

theorem extractLsb'_append_low {v w s n : Nat} (a : BitVec v) (b : BitVec w) (h : s + n ≤ w) :
    (a.append b).extractLsb' s n = b.extractLsb' s n := BitVec.extractLsb'_append_eq_of_add_le h

theorem extractLsb'_append_high {v w s n : Nat} (a : BitVec v) (b : BitVec w) (h : w ≤ s) :
    (a.append b).extractLsb' s n = a.extractLsb' (s - w) n := BitVec.extractLsb'_append_eq_of_le h

theorem append_extractLsb' {w s n t m : Nat} (x : BitVec w) (h : s = t + m) :
    (x.extractLsb' s n).append (x.extractLsb' t m) = x.extractLsb' t (n + m) :=
  BitVec.extractLsb'_append_extractLsb'_eq_extractLsb' h

theorem getLsbD_append_ite {v w k : Nat} (a : BitVec v) (b : BitVec w) :
    (a.append b).getLsbD k = if k < w then b.getLsbD k else a.getLsbD (k - w) := BitVec.getLsbD_append

theorem ofBool_getLsbD {w : Nat} (x : BitVec w) (k : Nat) : BitVec.ofBool (x.getLsbD k) = x.extractLsb' k 1 := by
  rw [BitVec.getLsbD_eq_extractLsb']
  generalize x.extractLsb' k 1 = y
  revert y
  decide

/-! ## The operation that fields name -/

/-- R29, R40: the fields of an instruction name it; `Laws` has it instruction by instruction, and an event has no fields. -/
theorem Code.candidate_of_fields (i : Instr) : Laws.F.Statement i := by
  open Laws in
  cases i
  rotate_left 246
  iterate 125 exact fun _ h => nomatch h
  exacts [
    F.lui _ _, F.auipc _ _, F.jal _ _, F.jalr _ _ _, F.beq _ _ _, F.bne _ _ _, F.blt _ _ _, F.bge _ _ _, F.bltu _ _ _,
    F.bgeu _ _ _, F.lb _ _ _, F.lh _ _ _, F.lw _ _ _, F.ld _ _ _, F.lbu _ _ _, F.lhu _ _ _, F.lwu _ _ _, F.sb _ _ _,
    F.sh _ _ _, F.sw _ _ _, F.sd _ _ _, F.addi _ _ _, F.slti _ _ _, F.sltiu _ _ _, F.xori _ _ _, F.ori _ _ _, F.andi _ _ _,
    F.slli _ _ _, F.srli _ _ _, F.srai _ _ _, F.addiw _ _ _, F.slliw _ _ _, F.srliw _ _ _, F.sraiw _ _ _, F.add _ _ _,
    F.sub _ _ _, F.sll _ _ _, F.slt _ _ _, F.sltu _ _ _, F.xor _ _ _, F.srl _ _ _, F.sra _ _ _, F.or _ _ _, F.and _ _ _,
    F.mul _ _ _, F.mulh _ _ _, F.mulhsu _ _ _, F.mulhu _ _ _, F.div _ _ _, F.divu _ _ _, F.rem _ _ _, F.remu _ _ _,
    F.addw _ _ _, F.subw _ _ _, F.sllw _ _ _, F.srlw _ _ _, F.sraw _ _ _, F.mulw _ _ _, F.divw _ _ _, F.divuw _ _ _,
    F.remw _ _ _, F.remuw _ _ _, F.lr _ _ _ _ _, F.sc _ _ _ _ _ _, F.amoswap _ _ _ _ _ _, F.amoadd _ _ _ _ _ _,
    F.amoxor _ _ _ _ _ _, F.amoand _ _ _ _ _ _, F.amoor _ _ _ _ _ _, F.amomin _ _ _ _ _ _, F.amomax _ _ _ _ _ _,
    F.amominu _ _ _ _ _ _, F.amomaxu _ _ _ _ _ _, F.fence _ _ _, F.sfenceVma _ _, F.csrrw _ _ _, F.csrrs _ _ _,
    F.csrrc _ _ _, F.csrrwi _ _ _, F.csrrsi _ _ _, F.csrrci _ _ _, F.ladd _, F.laddImm _, F.laddS32 _, F.lsub _, F.lsubImm _,
    F.lsubS32 _, F.lmul _, F.lmulImm _, F.lmulS32 _, F.lmulh _, F.lmulhImm _, F.lmulhS32 _, F.lmad _, F.lmadImm _, F.lmin _,
    F.lminImm _, F.lminS32 _, F.lmax _, F.lmaxImm _, F.lmaxS32 _, F.labs _, F.labsS32 _, F.land _, F.landImm _, F.landS32 _,
    F.lor _, F.lorImm _, F.lorS32 _, F.lxor _, F.lxorImm _, F.lxorS32 _, F.landn _, F.landnImm _, F.landnS32 _, F.lshl _,
    F.lshlImm _, F.lshlS32 _, F.lshr _, F.lshrImm _, F.lshrS32 _, F.lsra _, F.lsraImm _, F.lsraS32 _, F.lrot _, F.lrotImm _,
    F.lrotS32 _, F.lclz _, F.lclzS32 _, F.lpopc _, F.lpopcS32 _, F.lbrev _, F.lbrevS32 _, F.lbfx _ _ _ _, F.lbfi _ _ _,
    F.lsel _ _ _, F.lselImm _ _ _, F.lcmp _ _, F.lcmpImm _ _, F.laddc _ _ _ _, F.lfadd _, F.lfaddImm _, F.lfaddS32 _,
    F.lfsub _, F.lfsubImm _, F.lfsubS32 _, F.lfmul _, F.lfmulImm _, F.lfmulS32 _, F.lfma _, F.lfmaImm _, F.lfmin _,
    F.lfminImm _, F.lfminS32 _, F.lfmax _, F.lfmaxImm _, F.lfmaxS32 _, F.lfsgn _ _, F.lfrcp _, F.lfrcpS32 _, F.lfrsq _,
    F.lfrsqS32 _, F.lfsqrt _, F.lfsqrtS32 _, F.lfdiv _, F.lfdivImm _, F.lfdivS32 _, F.lfexp2 _, F.lfexp2S32 _, F.lflog2 _,
    F.lflog2S32 _, F.lfcmp _ _, F.lfcmpImm _ _, F.lfclass _ _, F.lcvt _ _ _ _ _, F.lpack _ _, F.lunpk _ _ _, F.lmov _,
    F.lmovi _ _ _ _, F.lbcast _, F.lextr _ _ _ _, F.lins _ _ _ _, F.lshfl _ _ _, F.lred _ _, F.lscan _ _ _, F.lballot _ _,
    F.lgets _ _ _, F.ltrns _ _, F.plog _ _ _ _ _, F.pmovPred _ _ _, F.pmovFromX _ _ _, F.pmovToX _ _, F.emset _, F.emget _,
    F.emand _ _ _, F.lld _ _, F.lldImm _ _, F.lst _ _, F.lstImm _ _, F.lldt _ _, F.lldtImm _ _, F.lamo _ _ _ _ _,
    F.lpref _ _, F.lprefImm _ _, F.mma _ _ _ _ _ _, F.mmas _ _ _ _ _ _ _, F.mhad _ _ _, F.mqnt _ _ _, F.mcvt _ _ _,
    F.mzero _ _, F.mst _ _ _, F.mld _ _ _, F.rfl _, F.spw _ _ _, F.enq _ _ _, F.pfence _ _, F.waita _ _ _, F.lkbank _,
    F.ulkbank _, F.bcpy _ _ _, F.bfil _ _ _, F.bgat _ _ _, F.bsct _ _ _, F.jpoll _ _, F.jwait _ _, F.jyield _ _, F.px _,
    F.tlbw _ _, F.tlbinv _ _, F.tlbprobe _ _, F.ctxs _, F.ctxl _, F.msgs _ _, F.msgr _ _, F.fenceI, F.ecall, F.ebreak,
    F.sret, F.mret, F.wfi, F.barC, F.barK, F.xit, F.xfence, F.ofence, F.retx]

/-- R28: fields are read as an instruction exactly where they are that instruction's and it is well formed. -/
theorem Code.decode_eq_ok {c : Code} {i : Instr} : c.decode = .ok i ↔ i.fields = some c ∧ i.wellFormed = true := by
  constructor
  · intro h
    unfold Code.decode at h
    split at h
    · cases h
    · split at h
      · split at h
        · cases h; exact ⟨‹_›, ‹_›⟩
        · cases h
      · cases h
  · rintro ⟨h, hwf⟩
    rw [Code.decode, Code.candidate_of_fields i c h]
    simp only [h, hwf, if_true]

/-! ## Words and their fields -/

theorem W32.ofBits_toBits (w : W32) : W32.ofBits w.toBits = w := by
  simp [W32.ofBits, W32.toBits, HAppend.hAppend, extractLsb'_append_low, extractLsb'_append_high, BitVec.extractLsb'_eq_self,
    -BitVec.append_eq, -BitVec.extractLsb'_toNat]

theorem W32.toBits_ofBits (b : BitVec 32) : (W32.ofBits b).toBits = b := by
  simp [W32.ofBits, W32.toBits, HAppend.hAppend, append_extractLsb', BitVec.extractLsb'_eq_self, -BitVec.append_eq,
    -BitVec.extractLsb'_toNat]

theorem L64.ofBits_toBits (w : L64) : L64.ofBits w.toBits = w := by
  simp [L64.ofBits, L64.toBits, HAppend.hAppend, extractLsb'_append_low, extractLsb'_append_high, getLsbD_append_ite,
    BitVec.extractLsb'_eq_self, -BitVec.append_eq, -BitVec.extractLsb'_toNat, -BitVec.getLsbD_eq_getElem]

/-- R40: an L64 word's fields leave out only its lowest bits, which are the same in each. -/
theorem L64.toBits_ofBits {b : BitVec 64} (h : b.extractLsb' 0 7 = 0x3f#7) : (L64.ofBits b).toBits = b := by
  simp [L64.ofBits, L64.toBits, ofBool_getLsbD, ← h, HAppend.hAppend, append_extractLsb', BitVec.extractLsb'_eq_self,
    -BitVec.append_eq, -BitVec.extractLsb'_toNat, -BitVec.getLsbD_eq_getElem]

/-! ## The length of a word (R26) -/

/-- R49: the lowest bits of every 32-bit encoding are those of a 32-bit length. -/
theorem W32.opcode_of_fields {i : Instr} {w : W32} (h : i.fields = some (.w32 w)) :
    w.op7.extractLsb' 0 2 = 3 ∧ w.op7.extractLsb' 2 3 ≠ 7 := by
  cases i <;> cases h <;> (dsimp only; decide)

theorem wordLength_of_short {lo : Word} (h2 : lo.extractLsb' 0 2 = 3) (h5 : lo.extractLsb' 2 3 ≠ 7) : wordLength lo = .ok 4 := by
  rw [wordLength, if_neg (not_not.2 h2), if_pos h5]

theorem extractLsb'_of_long {lo : Word} (h : lo.extractLsb' 0 7 = 0x3f#7) (s n : Nat) (hs : s + n ≤ 7) :
    lo.extractLsb' s n = (0x3f#7).extractLsb' s n := by
  rw [← h, BitVec.extractLsb'_extractLsb'_of_le hs]

theorem wordLength_of_long {lo : Word} (h : lo.extractLsb' 0 7 = 0x3f#7) : wordLength lo = .ok 8 := by
  rw [wordLength, extractLsb'_of_long h 0 2 (by decide), extractLsb'_of_long h 2 3 (by decide),
    extractLsb'_of_long h 0 6 (by decide), h]
  rfl

theorem wordLength_eq_ok {lo : Word} {n : Nat} (h : wordLength lo = .ok n) :
    (n = 4 ∧ lo.extractLsb' 2 3 ≠ 7) ∨ (n = 8 ∧ lo.extractLsb' 0 7 = 0x3f#7) := by
  unfold wordLength at h
  split at h
  · cases h
  · split at h
    · next short => cases h; exact .inl ⟨rfl, short⟩
    · split at h
      · cases h
      · split at h
        · next long => cases h; exact .inr ⟨rfl, long⟩
        · cases h

/-! ## Successive words and codes -/

theorem append_ofNat_words (b : BitVec 64) : BitVec.ofNat 32 (b.toNat / 2 ^ 32) ++ BitVec.ofNat 32 b.toNat = b := by
  have bound := b.isLt
  apply BitVec.eq_of_toNat_eq
  rw [BitVec.toNat_append, BitVec.toNat_ofNat, BitVec.toNat_ofNat, ← Nat.shiftLeft_add_eq_or_of_lt (by omega), Nat.shiftLeft_eq]
  omega

/-- R26: the words of an instruction have its fields. -/
theorem codeOf_of_fields {i : Instr} {c : Code} (h : i.fields = some c) :
    codeOf (BitVec.ofNat 32 c.bits) (BitVec.ofNat 32 (c.bits / 2 ^ 32)) = .ok c := by
  cases c with
  | w32 w =>
    obtain ⟨h2, h5⟩ := W32.opcode_of_fields h
    have low {s n : Nat} (hs : s + n ≤ 7) : w.toBits.extractLsb' s n = w.op7.extractLsb' s n :=
      BitVec.extractLsb'_append_eq_of_add_le hs
    have len : wordLength w.toBits = .ok 4 :=
      wordLength_of_short ((low (by decide)).trans h2) (fun c => h5 ((low (by decide)).symm.trans c))
    rw [Code.bits, BitVec.ofNat_toNat, BitVec.setWidth_eq, codeOf, len]
    exact congrArg (fun v => Except.ok (Code.w32 v)) w.ofBits_toBits
  | l64 w =>
    have low : (BitVec.ofNat 32 w.toBits.toNat).extractLsb' 0 7 = 0x3f#7 := by
      rw [BitVec.ofNat_toNat, BitVec.extractLsb'_setWidth_of_le (by decide)]
      exact BitVec.extractLsb'_append_eq_right
    rw [Code.bits, codeOf, wordLength_of_long low, append_ofNat_words]
    exact congrArg (fun v => Except.ok (Code.l64 v)) w.ofBits_toBits

/-- R26: fields that were read from words keep every bit of them. -/
theorem bits_of_codeOf {lo hi : Word} {c : Code} (h : codeOf lo hi = .ok c) :
    c.bits = if lo.extractLsb' 2 3 = 7 then lo.toNat + 2 ^ 32 * hi.toNat else lo.toNat := by
  unfold codeOf at h
  split at h
  · cases h
  · next n len =>
    rcases wordLength_eq_ok len with ⟨rfl, short⟩ | ⟨rfl, long⟩
    · cases h
      rw [if_neg short, Code.bits, W32.toBits_ofBits]
    · cases h
      have low : (hi ++ lo).extractLsb' 0 7 = 0x3f#7 := (BitVec.extractLsb'_append_eq_of_add_le (by decide)).trans long
      have long3 : lo.extractLsb' 2 3 = 7 := extractLsb'_of_long long 2 3 (by decide)
      rw [if_pos long3, Code.bits, L64.toBits_ofBits low, BitVec.toNat_append,
        ← Nat.shiftLeft_add_eq_or_of_lt lo.isLt, Nat.shiftLeft_eq]
      omega

end Sys2Proof

namespace Sys2Proof.Proofs

open Sys2Proof Sys2Proof.Machine

/-- Settles O1: the fields name the instruction, and the words are the fields. -/
theorem decodeEncodeAgree : Obligations.DecodeEncodeAgree := by
  unfold Obligations.DecodeEncodeAgree
  refine ⟨fun i w hwf hw => ?_, fun lo hi i h => ?_⟩
  · obtain ⟨c, hc, rfl⟩ := Option.map_eq_some_iff.1 hw
    rw [decode, codeOf_of_fields hc]
    exact Code.decode_eq_ok.2 ⟨hc, hwf⟩
  · unfold decode at h
    split at h
    · cases h
    · next c hcode =>
      obtain ⟨hc, hwf⟩ := Code.decode_eq_ok.1 h
      exact ⟨hwf, by rw [encode, hc, Option.map_some, bits_of_codeOf hcode]⟩

/-- Settles O2: the words of each example, and of each that is no instruction, are decoded. -/
theorem encodedWordsDecode : Obligations.EncodedWordsDecode := by
  unfold Obligations.EncodedWordsDecode
  and_intros <;> rfl

end Sys2Proof.Proofs
end

section
/-! The scalar integer instructions (R61, R62): their operations as the statements write them, and the shapes of a jump and a
branch. -/

namespace Sys2Proof.Machine

open Sys2Proof

/-! ## Comparisons -/

theorem boolWord_slt (a b : DWord) : boolWord (a.slt b) = if a.toInt < b.toInt then 1 else 0 := by
  simp [boolWord, BitVec.slt_eq_decide]

theorem boolWord_ult (a b : DWord) : boolWord (a.ult b) = if a.toNat < b.toNat then 1 else 0 := by
  simp [boolWord, BitVec.ult_eq_decide]

/-! ## Products (R61) -/

theorem mul_eq_ofInt (a b : DWord) : a * b = BitVec.ofInt 64 (a.toInt * b.toInt) := by
  rw [BitVec.ofInt_mul, BitVec.ofInt_toInt, BitVec.ofInt_toInt]

theorem mulHigh_natCast (a b : Nat) : mulHigh a b = BitVec.ofNat 64 (a * b / 2 ^ 64) := by
  rw [mulHigh, ← BitVec.ofInt_natCast]
  norm_cast

/-! ## Quotients and remainders (R62) -/

section
variable {n : Nat} (a b : BitVec n)

theorem neg_one_eq_ofInt : (-1 : BitVec n) = BitVec.ofInt n (-1) := by
  rw [BitVec.ofInt_neg]
  rfl

theorem divS_eq : divS a b = if b = 0 then BitVec.ofInt n (-1) else BitVec.ofInt n (a.toInt.tdiv b.toInt) := by
  rw [divS, neg_one_eq_ofInt]
  congr 1
  apply BitVec.eq_of_toInt_eq
  rw [BitVec.toInt_sdiv, BitVec.toInt_ofInt]

theorem remS_eq : remS a b = if b = 0 then a else BitVec.ofInt n (a.toInt.tmod b.toInt) := by
  rw [remS]
  congr 1
  apply BitVec.eq_of_toInt_eq
  rw [BitVec.toInt_ofInt, ← BitVec.toInt_srem, BitVec.toInt_bmod_cancel]

theorem divU_eq : divU a b = if b = 0 then BitVec.ofInt n (-1) else BitVec.ofNat n (a.toNat / b.toNat) := by
  rw [divU, neg_one_eq_ofInt]
  congr 1
  rw [← BitVec.toNat_udiv, BitVec.ofNat_toNat, BitVec.setWidth_eq]

theorem remU_eq : remU a b = if b = 0 then a else BitVec.ofNat n (a.toNat % b.toNat) := by
  rw [remU]
  congr 1
  rw [← BitVec.toNat_umod, BitVec.ofNat_toNat, BitVec.setWidth_eq]

end

/-! ## W forms (R61) -/

theorem setWidth_signExtend (imm : BitVec 12) : (imm.signExtend 64).setWidth 32 = imm.signExtend 32 := by
  apply BitVec.eq_of_getLsbD_eq
  intro k hk
  simp only [BitVec.getLsbD_setWidth, BitVec.getLsbD_signExtend, hk, show k < 64 by omega, decide_true, Bool.true_and]

theorem wordResult_add_sext (a : DWord) (imm : BitVec 12) :
    wordResult (a + imm.signExtend 64) = (a.setWidth 32 + imm.signExtend 32).signExtend 64 := by
  rw [wordResult, BitVec.setWidth_add _ _ (by decide), setWidth_signExtend]
  rfl

/-- R31: the value that a scalar instruction leaves, written in another way. -/
theorem scalarStep_value {s : State} {h : Hart} {o : Out} {rd : BitVec 5} {v w pc : DWord} {back : Option DWord}
    (step : ∃ t h', o = .next t ∧ ScalarStep s t h h' rd v pc back) (e : v = w) :
    ∃ t h', o = .next t ∧ ScalarStep s t h h' rd w pc back := e ▸ step

/-! ## Jumps and branches (R27, R107) -/

/-- R107: the last branch or jump that went backwards, after one to a target. -/
def Hart.backAfter (h : Hart) (target : DWord) : Option DWord :=
  if target.toNat ≤ h.pc.toNat then some h.pc else h.run.lastBack

theorem Hart.noteBack_eq (h : Hart) (target : DWord) :
    h.noteBack target = { h with run := { h.run with lastBack := h.backAfter target } } := by
  unfold Hart.noteBack Hart.backAfter
  split <;> rfl

/-- R27: a jump to a target that code may stand at. -/
theorem State.jump_step {s : State} {h : Hart} {target : DWord} (ht : target.getLsbD 1 = false) (rd : BitVec 5) :
    ∃ t h', s.jump h rd target = t ∧ ScalarStep s t h h' rd (h.nextPc 4) target (h.backAfter target) := by
  have keeps := Hart.retireTo_keeps ((h.noteBack target).setX rd (h.nextPc 4)) target
  obtain ⟨kx, kl, kd, kr⟩ := keeps
  have note := h.noteBack_eq target
  refine ⟨_, _, by rw [State.jump, ht, if_neg Bool.false_ne_true], s.setCur_only _, ?_, ?_, ?_, ?_, ?_⟩
  · exact (Hart.retireTo_retires _ _).of_same (by simp [note]) (by simp [note]) (by simp [note]) (by simp [note])
  · obtain ⟨w0, w⟩ := Hart.writesX_setX (h.noteBack target) _ rd (h.nextPc 4) kx
    exact ⟨w0, fun r hr => (w r hr).trans (by rw [Hart.getX_of_x h (h.noteBack target) r (by rw [note])])⟩
  · rw [kl, Hart.setX_lanes, note]
  · rw [kd, Hart.setX_dev, note]
  · rw [kr, Hart.settle, Hart.setX_run, note]
    rfl

/-- R27: a jump of the acting hart: cause 0 where the target is misaligned. -/
theorem State.jump_goes {s : State} {h : Hart} {o : Out} {rd : BitVec 5} {target : DWord} (run : o = .next (s.jump h rd target)) :
    if target.getLsbD 1 then o = .next (s.raise 0 target)
    else ∃ t h', o = .next t ∧ ScalarStep s t h h' rd (h.nextPc 4) target (h.backAfter target) := by
  split
  · next misaligned => rw [run, State.jump, if_pos misaligned]
  · next aligned =>
    obtain ⟨t, h', rfl, step⟩ := State.jump_step (s := s) (h := h) (Bool.not_eq_true _ ▸ aligned) rd
    exact ⟨_, h', run, step⟩

/-- R61: an instruction of the acting hart that writes one register and goes on. -/
theorem retire_goes {s : State} {h : Hart} {o : Out} {rd : BitVec 5} {v : DWord} (run : o = .next (s.retire (h.setX rd v) 4)) :
    ∃ t h', o = .next t ∧ ScalarStep s t h h' rd v (h.nextPc 4) h.run.lastBack :=
  ⟨_, _, run, s.scalar_step h rd v 4⟩

/-- R61: a conditional branch, taken where its condition holds. -/
theorem branch_goes {s : State} {h : Hart} (hc : s.hart? s.cur = some h) (c : DWord → DWord → Bool) (rs1 rs2 : BitVec 5)
    (off : BitVec 12) {p : Prop} (hp : c (h.getX rs1) (h.getX rs2) = true ↔ p) :
    let target := h.pc + (off ++ 0#1).signExtend 64
    let o := branch c rs1 rs2 off s
    (p → if target.getLsbD 1 then o = .next (s.raise 0 target)
      else ∃ t h', o = .next t ∧ ScalarStep s t h h' 0 (h.nextPc 4) target (h.backAfter target))
    ∧ (¬ p → ∃ t h', o = .next t ∧ ScalarStep s t h h' 0 0 (h.nextPc 4) h.run.lastBack) := by
  intro target o
  have run : o = .next (if c (h.getX rs1) (h.getX rs2) then s.jump h 0 target else s.retire h 4) := onHart_of s h _ hc
  refine ⟨fun taken => State.jump_goes ?_, fun untaken => retire_goes ?_⟩
  · rw [run, if_pos (hp.2 taken)]
  · rw [run, if_neg (fun e => untaken (hp.1 e)), Hart.setX_zero]

end Sys2Proof.Machine

namespace Sys2Proof.Proofs

open Sys2Proof Sys2Proof.Machine

/-- Settles O4: each instruction is one of the shapes of R61 at its operation. -/
theorem scalarIntegerResults : Obligations.ScalarIntegerResults := by
  unfold Obligations.ScalarIntegerResults
  refine ⟨fun s h hc rd rs1 rs2 imm n6 => ?_, fun s h hc rd rs1 rs2 imm n5 => ?_, fun s h hc rd rs1 rs2 => ?_⟩
  · have rr := fun f => aluRR_step hc f rd rs1 rs2
    have ri := fun f => aluRI_step hc f rd rs1 imm
    have sh := fun f => aluShift_step hc f rd rs1 n6.toNat
    exact ⟨⟨rr (· + ·), rr (· - ·), rr (· ^^^ ·), rr (· ||| ·), rr (· &&& ·), rr fun a b => a <<< (b.toNat % 64),
        rr fun a b => a >>> (b.toNat % 64), rr fun a b => a.sshiftRight (b.toNat % 64),
        scalarStep_value (rr fun a b => boolWord (a.slt b)) (boolWord_slt _ _),
        scalarStep_value (rr fun a b => boolWord (a.ult b)) (boolWord_ult _ _)⟩,
      ri (· + ·), ri (· ^^^ ·), ri (· ||| ·), ri (· &&& ·),
      scalarStep_value (ri fun a b => boolWord (a.slt b)) (boolWord_slt _ _),
      scalarStep_value (ri fun a b => boolWord (a.ult b)) (boolWord_ult _ _),
      sh (· <<< ·), sh (· >>> ·), sh fun a n => a.sshiftRight n⟩
  · have rr := fun f => aluRR_step hc (onWords f) rd rs1 rs2
    have sh := fun f : Word → Nat → Word => aluShift_step hc (fun a n => sext64 (f (a.setWidth 32) n)) rd rs1 n5.toNat
    exact ⟨rr (· + ·), rr (· - ·), rr (· * ·), rr fun a b => a <<< (b.toNat % 32), rr fun a b => a >>> (b.toNat % 32),
      rr fun a b => a.sshiftRight (b.toNat % 32),
      scalarStep_value (aluRI_step hc (fun a b => wordResult (a + b)) rd rs1 imm) (wordResult_add_sext _ _),
      sh (· <<< ·), sh (· >>> ·), sh fun a n => a.sshiftRight n⟩
  · have rr := fun f => aluRR_step hc f rd rs1 rs2
    have rw := fun f => aluRR_step hc (onWords f) rd rs1 rs2
    exact ⟨scalarStep_value (rr (· * ·)) (mul_eq_ofInt _ _), rr fun a b => mulHigh a.toInt b.toInt,
      rr fun a b => mulHigh a.toInt b.toNat, scalarStep_value (rr fun a b => mulHigh a.toNat b.toNat) (mulHigh_natCast _ _),
      scalarStep_value (rr divS) (divS_eq _ _), scalarStep_value (rr remS) (remS_eq _ _),
      scalarStep_value (rr divU) (divU_eq _ _), scalarStep_value (rr remU) (remU_eq _ _),
      scalarStep_value (rw divS) (congrArg sext64 (divS_eq _ _)), scalarStep_value (rw remS) (congrArg sext64 (remS_eq _ _)),
      scalarStep_value (rw divU) (congrArg sext64 (divU_eq _ _)), scalarStep_value (rw remU) (congrArg sext64 (remU_eq _ _))⟩

/-- Settles O5: the two shapes of an instruction that goes on and of one that jumps, at each operation. -/
theorem scalarControlFlow : Obligations.ScalarControlFlow := by
  unfold Obligations.ScalarControlFlow
  intro s h hc rd rs1 rs2 u o20 imm o12 a b seq goes jump branches
  have branch := fun c p => @branch_goes s h hc c rs1 rs2 o12 p
  refine ⟨retire_goes (onHart_of s h _ hc), retire_goes (onHart_of s h _ hc), State.jump_goes (onHart_of s h _ hc),
    State.jump_goes (onHart_of s h _ hc), branch (· == ·) _ beq_iff_eq, branch (· != ·) _ bne_iff_ne,
    branch (fun a b => a.slt b) _ ?_, branch (fun a b => !a.slt b) _ ?_, branch (fun a b => a.ult b) _ ?_,
    branch (fun a b => !a.ult b) _ ?_⟩
  · exact BitVec.slt_iff_toInt_lt
  · simp [BitVec.slt_eq_decide, a, b]
  · exact BitVec.ult_iff_toNat_lt
  · simp [BitVec.ult_eq_decide, a, b]

end Sys2Proof.Proofs
end

section
/-! The CSRs (R34 to R36, R72 to R75): their bits, and the six instructions that read and write them. -/

namespace Sys2Proof.Machine

open Sys2Proof

/-! ## Bits of masks -/

/-- A mask's bits, told for the 64 that it has. -/
theorem getLsbD_iff {m : DWord} {p : Nat → Prop} (hm : ∀ b < 64, m.getLsbD b = true ↔ p b) (hp : ∀ b, p b → b < 64)
    (b : Nat) : m.getLsbD b = true ↔ p b := by
  by_cases h : b < 64
  · exact hm b h
  · rw [BitVec.getLsbD_of_ge _ _ (by omega)]
    exact ⟨fun c => absurd c Bool.false_ne_true, fun c => absurd (hp b c) h⟩

theorem getLsbD_ite_shift {c : Bool} {i : Nat} (hi : i < 64) (b : Nat) :
    (if c then (1 : DWord) <<< i else 0).getLsbD b = (decide (b = i) && c) := by
  cases c
  · simp
  · rw [if_pos rfl, BitVec.getLsbD_shiftLeft, show (1 : DWord) = 1#64 from rfl, BitVec.getLsbD_one, Bool.and_true,
      Bool.eq_iff_iff]
    simp only [Bool.and_eq_true, Bool.not_eq_true', decide_eq_true_eq, decide_eq_false_iff_not]
    omega

/-- R73: the bits of a masked write. -/
theorem getLsbD_masked (old v m : DWord) (b : Nat) :
    ((old &&& ~~~m) ||| (v &&& m)).getLsbD b = if m.getLsbD b then v.getLsbD b else old.getLsbD b := by
  by_cases h : b < 64
  · simp only [BitVec.getLsbD_or, BitVec.getLsbD_and, BitVec.getLsbD_not, h, decide_true, Bool.true_and]
    cases m.getLsbD b <;> simp
  · simp only [BitVec.getLsbD_of_ge _ b (show 64 ≤ b by omega), if_neg Bool.false_ne_true]

/-- R73: the low bits of a vector, a saved pc or a table address read 0. -/
theorem div_mul_two_pow (v : DWord) (k : Nat) (hk : k < 64) :
    v / BitVec.ofNat 64 (2 ^ k) * BitVec.ofNat 64 (2 ^ k) = v &&& ~~~BitVec.ofNat 64 (2 ^ k - 1) := by
  have small : 2 ^ k < 2 ^ 64 := Nat.pow_lt_pow_right (by decide) hk
  apply BitVec.eq_of_getLsbD_eq
  intro b hb
  rw [BitVec.getLsbD_and, BitVec.getLsbD_not, BitVec.getLsbD_ofNat, Nat.testBit_two_pow_sub_one]
  have num : (v / BitVec.ofNat 64 (2 ^ k) * BitVec.ofNat 64 (2 ^ k)).toNat = v.toNat / 2 ^ k * 2 ^ k := by
    rw [BitVec.toNat_mul, BitVec.toNat_udiv, BitVec.toNat_ofNat, Nat.mod_eq_of_lt small]
    exact Nat.mod_eq_of_lt (Nat.lt_of_le_of_lt (Nat.div_mul_le_self _ _) v.isLt)
  rw [BitVec.getLsbD, num, Nat.testBit_mul_two_pow, Nat.testBit_div_two_pow, BitVec.getLsbD]
  by_cases h : k ≤ b
  · simp [h, hb, show b - k + k = b by omega, show ¬ b < k by omega]
  · simp [h, hb, show b < k by omega]

/-- R75: MODE of `satp`, as a quotient. -/
theorem div_eq_iff_satpMode (v : DWord) {n : Nat} (hn : n < 16) : v / 2 ^ 60 = BitVec.ofNat 64 n ↔ satpMode v = n := by
  have num : (v / 2 ^ 60).toNat = satpMode v := by
    have low : v.toNat < 2 ^ 64 := v.isLt
    have unit : (2 ^ 60 : DWord).toNat = 2 ^ 60 := by rw [BitVec.toNat_pow]; rfl
    rw [BitVec.toNat_udiv, unit, satpMode, bits]
    omega
  rw [← BitVec.toNat_inj, num, BitVec.toNat_ofNat, Nat.mod_eq_of_lt (by omega)]

/-! ## Reads (R36, R73) -/

theorem getLsbD_sstatus (h : Hart) (b : Nat) : (h.csr.mstatus &&& sstatusMask).getLsbD b =
    (decide (b = 1 ∨ b = 5 ∨ b = 8 ∨ b = 18 ∨ b = 19 ∨ b = 32 ∨ b = 33) && h.csr.mstatus.getLsbD b) := by
  have shown : sstatusMask.getLsbD b = true ↔ b = 1 ∨ b = 5 ∨ b = 8 ∨ b = 18 ∨ b = 19 ∨ b = 32 ∨ b = 33 := by
    apply getLsbD_iff
    · decide
    · omega
  rw [BitVec.getLsbD_and, Bool.and_comm, Bool.eq_iff_iff, Bool.and_eq_true, Bool.and_eq_true, shown, decide_eq_true_iff]

theorem getLsbD_mip (h : Hart) (b : Nat) : h.mip.getLsbD b =
    ((decide (b = 16) && h.run.irq16.isSome) || (decide (b = 17) && h.run.irq17.isSome)
      || (decide (b = 18) && h.run.irq18.isSome) || (decide (b = 19) && (!h.run.iq19.isEmpty || h.run.iq19Ovf))) := by
  simp only [Hart.mip, BitVec.getLsbD_or, getLsbD_ite_shift (show 16 < 64 by decide), getLsbD_ite_shift (show 17 < 64 by decide),
    getLsbD_ite_shift (show 18 < 64 by decide), getLsbD_ite_shift (show 19 < 64 by decide)]

/-! ## Writes (R73) -/

theorem getLsbD_mstatusMask (b : Nat) : mstatusMask.getLsbD b = true ↔ b = 1 ∨ b = 3 ∨ b = 5 ∨ b = 7 ∨ b = 8 ∨ b = 17
    ∨ b = 18 ∨ b = 19 ∨ b = 20 ∨ b = 21 ∨ b = 22 ∨ b = 11 ∨ b = 12 := by
  apply getLsbD_iff
  · decide
  · omega

theorem getLsbD_mstatusMask_notMpp (b : Nat) : (mstatusMask &&& ~~~0x1800).getLsbD b = true ↔ b = 1 ∨ b = 3 ∨ b = 5 ∨ b = 7
    ∨ b = 8 ∨ b = 17 ∨ b = 18 ∨ b = 19 ∨ b = 20 ∨ b = 21 ∨ b = 22 := by
  apply getLsbD_iff
  · decide
  · omega

theorem getLsbD_sstatusWritable (b : Nat) :
    sstatusWritable.getLsbD b = true ↔ b = 1 ∨ b = 5 ∨ b = 8 ∨ b = 18 ∨ b = 19 := by
  apply getLsbD_iff
  · decide
  · omega

theorem getLsbD_mstatusWrite (old v : DWord) (b : Nat) : (mstatusWrite old v mstatusMask).getLsbD b =
    if b = 1 ∨ b = 3 ∨ b = 5 ∨ b = 7 ∨ b = 8 ∨ b = 17 ∨ b = 18 ∨ b = 19 ∨ b = 20 ∨ b = 21 ∨ b = 22
      ∨ ((b = 11 ∨ b = 12) ∧ v.extractLsb' 11 2 ≠ 2) then v.getLsbD b else old.getLsbD b := by
  rw [mstatusWrite, getLsbD_masked]
  by_cases h : v.extractLsb' 11 2 = 2
  · rw [if_pos h]
    simp only [getLsbD_mstatusMask_notMpp, h, ne_eq, not_true_eq_false, and_false, or_false]
  · rw [if_neg h]
    simp only [getLsbD_mstatusMask, h, ne_eq, not_false_eq_true, and_true]

/-- R73: a write of `sstatus` reaches no bit of MPP. -/
theorem getLsbD_sstatusWrite (old v : DWord) (b : Nat) : (mstatusWrite old v sstatusWritable).getLsbD b =
    if b = 1 ∨ b = 5 ∨ b = 8 ∨ b = 18 ∨ b = 19 then v.getLsbD b else old.getLsbD b := by
  have same : (if v.extractLsb' 11 2 = 2 then sstatusWritable &&& ~~~0x1800 else sstatusWritable) = sstatusWritable := by
    split <;> rfl
  rw [mstatusWrite, same, getLsbD_masked]
  simp only [getLsbD_sstatusWritable]

theorem satpWrite_eq (old v : DWord) : satpWrite old v =
    if v / 2 ^ 60 = 0 ∨ v / 2 ^ 60 = 9 ∨ v / 2 ^ 60 = 10 ∨ v / 2 ^ 60 = 14 then v else old := by
  have mode := fun {n} => @div_eq_iff_satpMode v n
  rw [satpWrite]
  simp only [← mode (show 0 < 16 by decide), ← mode (show 9 < 16 by decide), ← mode (show 10 < 16 by decide),
    ← mode (show 14 < 16 by decide)]
  rfl

/-! ## Access (R35, R72, R74) -/

theorem csrAccess_user {a : Nat} {w : Bool} (h : csrAccess a = some (.U, w)) : a / 256 % 4 = 0 := by
  unfold csrAccess at h
  split at h
  case h_57 =>
    split at h
    · cases h
    · split at h <;> cases h
  all_goals cases h <;> rfl

theorem csrAccess_writable {a : Nat} {p : Priv} (h : csrAccess a = some (p, true)) : a / 1024 ≠ 3 := by
  unfold csrAccess at h
  split at h
  case h_57 =>
    split at h
    · cases h
    · split at h <;> cases h
  all_goals cases h <;> decide

/-- R35, R72: a hart that may access a CSR has its privilege, and writes it where it is no read-only one. -/
theorem csrAllowed_inv {h : Hart} {a : Nat} {wr : Bool} (ok : h.csrAllowed a wr = true) :
    ∃ p w, csrAccess a = some (p, w) ∧ p.num ≤ h.priv.num ∧ (wr = true → w = true) := by
  unfold Hart.csrAllowed at ok
  split at ok
  · cases ok
  · next p w access =>
    rw [Bool.and_eq_true, Bool.and_eq_true, decide_eq_true_eq] at ok
    obtain ⟨⟨level, write⟩, -⟩ := ok
    refine ⟨p, w, access, level, ?_⟩
    rintro rfl
    simpa using write

theorem csrAllowed_user {h : Hart} {a : Nat} (hp : h.priv = .U) (ha : a / 256 % 4 ≠ 0) : h.csrAllowed a false = false := by
  refine Bool.eq_false_iff.2 fun ok => ha ?_
  obtain ⟨p, w, access, level, -⟩ := csrAllowed_inv ok
  rw [hp] at level
  cases p with
  | U => exact csrAccess_user access
  | S => exact absurd level (by decide)
  | M => exact absurd level (by decide)

theorem csrAllowed_readOnly {h : Hart} {a : Nat} (ha : a / 1024 = 3) : h.csrAllowed a true = false := by
  refine Bool.eq_false_iff.2 fun ok => ?_
  obtain ⟨p, w, access, -, write⟩ := csrAllowed_inv ok
  obtain rfl := write rfl
  exact csrAccess_writable access ha

theorem counterOk_supervisor {h : Hart} (hp : h.priv = .S) (hm : h.csr.mcounteren = 0) (i : Nat) : h.counterOk i = false := by
  rw [Hart.counterOk, hp, hm]
  exact BitVec.getLsbD_zero

theorem csrAllowed_counters {h : Hart} (hp : h.priv = .S) (hm : h.csr.mcounteren = 0) :
    h.csrAllowed 0xC00 false = false ∧ h.csrAllowed 0xC01 false = false ∧ h.csrAllowed 0xC02 false = false := by
  have counter := counterOk_supervisor hp hm
  refine ⟨?_, ?_, ?_⟩ <;> simp [Hart.csrAllowed, csrAccess, counter]

/-! ## What a CSR instruction does (R35) -/

section
variable (rd rs1 u : BitVec 5) (a : BitVec 12) (s : State)

theorem exec_csrrw : exec (.csrrw rd rs1 a) s = csrOp (.csrrw rd rs1 a) rd a (fun h _ => some (h.getX rs1)) s := rfl

theorem exec_csrrs : exec (.csrrs rd rs1 a) s =
    csrOp (.csrrs rd rs1 a) rd a (fun h o => if rs1 = 0 then none else some (o ||| h.getX rs1)) s := rfl

theorem exec_csrrc : exec (.csrrc rd rs1 a) s =
    csrOp (.csrrc rd rs1 a) rd a (fun h o => if rs1 = 0 then none else some (o &&& ~~~h.getX rs1)) s := rfl

theorem exec_csrrwi : exec (.csrrwi rd u a) s = csrOp (.csrrwi rd u a) rd a (fun _ _ => some (u.setWidth 64)) s := rfl

theorem exec_csrrsi : exec (.csrrsi rd u a) s =
    csrOp (.csrrsi rd u a) rd a (fun _ o => if u = 0 then none else some (o ||| u.setWidth 64)) s := rfl

theorem exec_csrrci : exec (.csrrci rd u a) s =
    csrOp (.csrrci rd u a) rd a (fun _ o => if u = 0 then none else some (o &&& ~~~u.setWidth 64)) s := rfl

end

section
variable {s : State} {h : Hart} {a : BitVec 12} {f : Hart → DWord → Option DWord}

theorem csrOp_reads (hc : s.hart? s.cur = some h) (i : Instr) (rd : BitVec 5) (hf : f h (s.csrValue h a.toNat) = none)
    (ok : h.csrAllowed a.toNat false = true) :
    csrOp i rd a f s = .next (s.retire (h.setX rd (s.csrValue h a.toNat)) 4) := by
  refine (onHart_of s h _ hc).trans (congrArg Host.Outcome.next ?_)
  simp only [hf, ok, if_true]

/-- R35: the write of a CSR, by the address. -/
theorem csrOp_writes (hc : s.hart? s.cur = some h) (i : Instr) (rd : BitVec 5) {v : DWord}
    (hf : f h (s.csrValue h a.toNat) = some v) (ok : h.csrAllowed a.toNat true = true) :
    csrOp i rd a f s = .next (
      if a.toNat = 0x7C0 then (s.setPfmask h.role.part v).setCur ((h.setX rd (s.csrValue h a.toNat)).retire 4)
      else if a.toNat = 0xB02 then s.setCur (((h.setX rd (s.csrValue h a.toNat)).retire 4).csrSet a.toNat v s.now)
      else s.setCur (((h.csrSet a.toNat v s.now).setX rd (s.csrValue h a.toNat)).retire 4)) := by
  refine (onHart_of s h _ hc).trans (congrArg Host.Outcome.next ?_)
  simp only [hf, ok, Bool.not_true, Bool.false_eq_true, if_false]

theorem csrOp_illegal (hc : s.hart? s.cur = some h) (i : Instr) (rd : BitVec 5)
    (refused : h.csrAllowed a.toNat (f h (s.csrValue h a.toNat)).isSome = false) :
    csrOp i rd a f s = .next (s.illegal h i) := by
  refine (onHart_of s h _ hc).trans (congrArg Host.Outcome.next ?_)
  cases hf : f h (s.csrValue h a.toNat) with
  | none =>
    have no : h.csrAllowed a.toNat false = false := by rwa [hf] at refused
    simp only [hf, no, Bool.false_eq_true, if_false]
  | some v =>
    have no : h.csrAllowed a.toNat true = false := by rwa [hf] at refused
    simp only [hf, no, Bool.not_false, if_true]

end

/-- R35: a write changes none of a hart's x registers and nothing of its place. -/
theorem csrSet_frame (h : Hart) (a : Nat) (v : DWord) (now : Nat) :
    let k := h.csrSet a v now
    k.x = h.x ∧ k.pc = h.pc ∧ k.priv = h.priv ∧ k.tsc = h.tsc ∧ k.role = h.role ∧ k.run.pair = h.run.pair := by
  unfold Hart.csrSet
  split <;> exact ⟨rfl, rfl, rfl, rfl, rfl, rfl⟩

/-- R35: what a hart is after an instruction that wrote a CSR: rd has the old value, the CSR the written one. -/
def WritesCsr (s t : State) (h h' : Hart) (a : Nat) (v old : DWord) (rd : BitVec 5) : Prop :=
  OnlyHart s t s.cur h' ∧ RetiresTo (h.csrSet a v s.now) h' (h.nextPc 4) ∧ writesX h h' rd old ∧
    h'.lanes = (h.csrSet a v s.now).lanes ∧ h'.dev = (h.csrSet a v s.now).dev ∧ h'.run = (h.csrSet a v s.now).settle.run

theorem writesCsr_retire (s : State) (h : Hart) (a : Nat) (v old : DWord) (rd : BitVec 5) :
    WritesCsr s (s.setCur (((h.csrSet a v s.now).setX rd old).retire 4)) h (((h.csrSet a v s.now).setX rd old).retire 4)
      a v old rd := by
  obtain ⟨hx, hpc, -, -, -, hpair⟩ := csrSet_frame h a v s.now
  have next : ((h.csrSet a v s.now).setX rd old).nextPc 4 = h.nextPc 4 := by
    rw [Hart.nextPc, Hart.nextPc, Hart.setX_pc, Hart.setX_run, hpc, hpair]
  obtain ⟨kx, kl, kd, kr⟩ := Hart.retireTo_keeps ((h.csrSet a v s.now).setX rd old) (h.nextPc 4)
  rw [Hart.retire_eq, next]
  refine ⟨s.setCur_only _, ?_, ?_, ?_, ?_, ?_⟩
  · exact (Hart.retireTo_retires _ _).of_same (Hart.setX_priv ..) (Hart.setX_tsc ..) (Hart.setX_role ..) (Hart.setX_csr ..)
  · obtain ⟨w0, w⟩ := Hart.writesX_setX _ _ rd old kx
    exact ⟨w0, fun r hr => (w r hr).trans (by rw [Hart.getX_of_x h _ r hx])⟩
  · rw [kl, Hart.setX_lanes]
  · rw [kd, Hart.setX_dev]
  · rw [kr, Hart.settle, Hart.setX_run]
    rfl

end Sys2Proof.Machine

namespace Sys2Proof.Proofs

open Sys2Proof Sys2Proof.Machine

/-- Settles O10: by the tables of the CSRs, but for the fields that are told bit by bit. -/
theorem csrFields : Obligations.CsrFields := by
  unfold Obligations.CsrFields
  refine ⟨fun s h => ⟨?_, ?_, ?_, ?_, ?_, ?_, ?_⟩, fun h v now => ⟨?_, ?_, ?_, ?_⟩⟩
  · refine ⟨rfl, rfl, rfl, rfl, rfl, rfl, ?_, rfl⟩
    change BitVec.ofNat 64 (b2n h.dev.tbmf) = _
    cases h.dev.tbmf <;> rfl
  · exact ⟨rfl, rfl, rfl, rfl, rfl⟩
  · exact ⟨rfl, rfl, rfl, rfl, rfl, rfl, rfl, rfl, rfl, rfl, rfl, rfl, rfl, rfl, rfl⟩
  · exact ⟨rfl, rfl, rfl, rfl, rfl, rfl, rfl, rfl, rfl⟩
  · exact getLsbD_sstatus h
  · exact getLsbD_mip h
  · rfl
  · have low6 : v / 64 * 64 = v &&& ~~~63 := div_mul_two_pow v 6 (by decide)
    exact ⟨rfl, rfl, rfl, rfl, rfl, by rw [low6]; rfl, rfl⟩
  · have low2 : v / 4 * 4 = v &&& ~~~3 := div_mul_two_pow v 2 (by decide)
    rw [low2, ← satpWrite_eq]
    exact ⟨rfl, rfl, rfl, rfl, rfl, rfl, rfl, rfl, rfl, rfl, rfl, rfl, rfl, rfl⟩
  · exact getLsbD_mstatusWrite h.csr.mstatus v
  · exact getLsbD_sstatusWrite h.csr.mstatus v

/-- R35: reads of a CSR that the hart may make. -/
theorem csr_reads {s : State} {h : Hart} {i : Instr} {rd : BitVec 5} {a : BitVec 12} {f : Hart → DWord → Option DWord}
    (hc : s.hart? s.cur = some h) (run : exec i s = csrOp i rd a f s) (hf : f h (s.csrValue h a.toNat) = none)
    (ok : h.csrAllowed a.toNat false = true) :
    ∃ t h', exec i s = .next t ∧ ScalarStep s t h h' rd (s.csrValue h a.toNat) (h.nextPc 4) h.run.lastBack :=
  retire_goes (run.trans (csrOp_reads hc i rd hf ok))

/-- R35: writes of a CSR that the hart may make, but of the feature mask and of `minstret`. -/
theorem csr_writes {s : State} {h : Hart} {i : Instr} {rd : BitVec 5} {a : BitVec 12} {f : Hart → DWord → Option DWord} {v : DWord}
    (hc : s.hart? s.cur = some h) (mask : a ≠ 0x7C0) (count : a ≠ 0xB02) (ok : h.csrAllowed a.toNat true = true)
    (run : exec i s = csrOp i rd a f s) (hf : f h (s.csrValue h a.toNat) = some v) :
    ∃ t h', exec i s = .next t ∧ WritesCsr s t h h' a.toNat v (s.csrValue h a.toNat) rd := by
  have mask' : a.toNat ≠ 0x7C0 := fun e => mask (BitVec.eq_of_toNat_eq e)
  have count' : a.toNat ≠ 0xB02 := fun e => count (BitVec.eq_of_toNat_eq e)
  refine ⟨_, _, run.trans ?_, writesCsr_retire s h a.toNat v _ rd⟩
  rw [csrOp_writes hc i rd hf ok, if_neg mask', if_neg count']

/-- R35, R362: a CSR instruction that the hart may not make, where the supervisor takes cause 2. -/
theorem csr_traps {s : State} {h : Hart} {i : Instr} {rd : BitVec 5} {a : BitVec 12} {f : Hart → DWord → Option DWord} {wr : Bool}
    (hc : s.hart? s.cur = some h) (hp : h.priv ≠ .M) (hd : h.csr.medeleg.getLsbD 2 = true) (refused : h.csrAllowed a.toNat wr = false)
    (run : exec i s = csrOp i rd a f s) (hf : (f h (s.csrValue h a.toNat)).isSome = wr) :
    ∃ t h', exec i s = .next t ∧ OnlyHart s t s.cur h' ∧ EntersS s.now h h' 2 (h.firstWord i) h.csr.stvec := by
  obtain ⟨h', only, enters, -⟩ := State.raise_takes hc 2 (h.firstWord i) (.inl ⟨hp, hd⟩)
  exact ⟨_, h', run.trans (csrOp_illegal hc i rd (hf ▸ refused)), only, enters ⟨hp, hd⟩⟩

theorem csrAllowed_machine {h : Hart} (hm : h.priv = .M) : h.csrAllowed 0x7C0 true = true ∧ h.csrAllowed 0xB02 true = true := by
  simp [Hart.csrAllowed, csrAccess, hm, Priv.num]

/-- R36: a write of the feature mask reaches the hart's partition. -/
theorem pfmask_written {s : State} {h : Hart} {p : Part} (hc : s.hart? s.cur = some h) (hm : h.priv = .M)
    (hpart : s.part? h.role.part = some p) (rd rs1 : BitVec 5) :
    ∃ t h', exec (.csrrw rd rs1 0x7C0) s = .next t ∧ t.hart? s.cur = some h' ∧ RetiresTo h h' (h.nextPc 4) ∧
      writesX h h' rd (p.pfmask.setWidth 64) ∧ t.part? h.role.part = some { p with pfmask := (h.getX rs1).setWidth 8 } ∧
      (∀ q, q ≠ h.role.part → t.part? q = s.part? q) ∧ { t with harts := s.harts, parts := s.parts } = s := by
  have old : s.csrValue h 0x7C0 = p.pfmask.setWidth 64 := by
    change (match s.part? h.role.part with | none => 0 | some p => zext64 p.pfmask) = _
    rw [hpart]
    rfl
  have step := s.scalar_step h rd (p.pfmask.setWidth 64) 4
  have run : exec (.csrrw rd rs1 0x7C0) s =
      .next ((s.setPart h.role.part { p with pfmask := (h.getX rs1).setWidth 8 }).setCur ((h.setX rd (p.pfmask.setWidth 64)).retire 4)) := by
    rw [exec_csrrw, csrOp_writes (a := 0x7C0) hc _ rd rfl (csrAllowed_machine hm).1,
      show (0x7C0 : BitVec 12).toNat = 0x7C0 from rfl, if_pos rfl, ← old, State.setPfmask, State.modPart, hpart]
  refine ⟨_, _, run, State.hart?_setCur _ _, step.retires, step.x, ?_, fun q hq => ?_, rfl⟩
  · exact (State.part?_setPart ..).trans (if_pos rfl)
  · exact (State.part?_setPart ..).trans (if_neg hq)

/-- R74: a write of `minstret` leaves the value written. -/
theorem minstret_written {s : State} {h : Hart} (hc : s.hart? s.cur = some h) (hm : h.priv = .M) (rd rs1 : BitVec 5) :
    ∃ t h', exec (.csrrw rd rs1 0xB02) s = .next t ∧ OnlyHart s t s.cur h' ∧ h'.csr = { h.csr with minstret := h.getX rs1 } ∧
      writesX h h' rd h.csr.minstret ∧ h'.pc = h.nextPc 4 := by
  have step := s.scalar_step h rd h.csr.minstret 4
  have run : exec (.csrrw rd rs1 0xB02) s =
      .next (s.setCur (((h.setX rd h.csr.minstret).retire 4).csrSet 0xB02 (h.getX rs1) s.now)) := by
    rw [exec_csrrw, csrOp_writes (a := 0xB02) hc _ rd rfl (csrAllowed_machine hm).2,
      show (0xB02 : BitVec 12).toNat = 0xB02 from rfl, if_neg (by decide), if_pos rfl]
    rfl
  refine ⟨_, _, run, s.setCur_only _, ?_, ?_, step.retires.pc⟩
  · change { ((h.setX rd h.csr.minstret).retire 4).csr with minstret := h.getX rs1 } = _
    rw [step.retires.counted]
  · exact Hart.writesX_setX h _ rd _ (Hart.retire_x ..)

/-- Settles O9. -/
theorem csrAccesses : Obligations.CsrAccesses := by
  unfold Obligations.CsrAccesses
  refine ⟨fun s h rd a hc ok => ?_, fun s h rd rs1 u a hc ok mask count => ?_, fun s h p rd rs1 hc hm hpart => ?_,
    fun s h rd rs1 u a hc hp hd => ?_⟩
  · exact ⟨csr_reads hc (exec_csrrs ..) (if_pos rfl) ok, csr_reads hc (exec_csrrc ..) (if_pos rfl) ok,
      csr_reads hc (exec_csrrsi ..) (if_pos rfl) ok, csr_reads hc (exec_csrrci ..) (if_pos rfl) ok⟩
  · have writes := fun {i f v} => @csr_writes s h i rd a f v hc mask count ok
    exact ⟨writes (exec_csrrw ..) rfl, writes (exec_csrrwi ..) rfl,
      fun hr => ⟨writes (exec_csrrs ..) (if_neg hr), writes (exec_csrrc ..) (if_neg hr)⟩,
      fun hu => ⟨writes (exec_csrrsi ..) (if_neg hu), writes (exec_csrrci ..) (if_neg hu)⟩⟩
  · exact ⟨pfmask_written hc hm hpart rd rs1, minstret_written hc hm rd rs1⟩
  · have traps := fun {i f wr} => @csr_traps s h i rd a f wr hc hp hd
    have written {c : Prop} [Decidable c] (hn : ¬ c) (v : DWord) : (if c then none else some v).isSome = true := by
      rw [if_neg hn]; rfl
    exact ⟨fun refused => ⟨traps refused (exec_csrrw ..) rfl, traps refused (exec_csrrwi ..) rfl⟩,
      fun refused hr => ⟨traps refused (exec_csrrs ..) (written hr _), traps refused (exec_csrrc ..) (written hr _)⟩,
      fun refused hu => ⟨traps refused (exec_csrrsi ..) (written hu _), traps refused (exec_csrrci ..) (written hu _)⟩,
      fun refused => ⟨traps refused (exec_csrrs ..) rfl, traps refused (exec_csrrc ..) rfl⟩,
      csrAllowed_user, csrAllowed_readOnly, csrAllowed_counters⟩

end Sys2Proof.Proofs
end

section
/-! What a step does for the hart whose cycle it is (R92, R365, R375), and the package right after reset. -/

namespace Sys2Proof.Machine

open Sys2Proof

/-- What comes next, done. -/
def Act.perform : Act → Out
  | .run i s => exec i s
  | .settled s => .next s

theorem step_of_nextHart {s : State} {k : Nat} {h : Hart} (due : s.dueEvent = none) (alert : s.alert = none)
    (next : s.nextHart = some (k, h)) :
    step s = (State.boundaryAct { s with cur := k, nextCore := turnOf k + 1 } h).perform := by
  simp only [step, due, State.nextAct, alert, next]
  rfl

/-- R233: the second cycle of an operation needs no fetch. -/
theorem State.boundaryAct_second {s : State} {h : Hart} {i : Instr} (awake : h.run.wait = none) (hi : h.run.second = some i) :
    s.boundaryAct h = .run i s := by
  simp only [State.boundaryAct, awake, hi, Option.isSome_none, Bool.false_eq_true, if_false]

/-- R365: a hart with nothing pending fetches. -/
theorem State.boundaryAct_fetches {s : State} {h : Hart} (awake : h.run.wait = none) (h2 : h.run.second = none)
    (he : h.run.entering = none) (hy : h.run.yielded = none) (hw : h.run.barw = false) (hcause : h.causePending = false)
    (hhalt : h.haltPending = false) (hnotice : h.noticeReady = false) (hirq : h.otherIrq = none) (hsave : s.savable h = false) :
    s.boundaryAct h = s.fetchAct h := by
  simp only [State.boundaryAct, awake, h2, he, hy, hw, hcause, hhalt, hnotice, hirq, hsave, Option.isSome_none,
    Bool.false_eq_true, if_false]

/-- R375: no comparator of the core is enabled, so none matches. -/
theorem State.pcMatch_unwatched {s : State} (off : ∀ c ∈ (s.core (coreOf s.cur)).dbg.pcCmp.toList, cmpEn c = false) (h : Hart)
    (lanes : Word) (pcs : List DWord) : s.pcMatch h lanes pcs = none := by
  unfold State.pcMatch
  split
  · rfl
  · refine List.find?_eq_none.2 fun c hc => ?_
    simp only [cmpCounts, off c hc, Bool.false_and, Bool.false_eq_true, not_false_eq_true]

section
variable {s s1 : State} {h : Hart} {lo hi : Word} (fetched : s.fetchPair h h.pc = .ok (lo, hi) s1)
  (off : ∀ c ∈ (s1.core (coreOf s1.cur)).dbg.pcCmp.toList, cmpEn c = false)
include fetched off

theorem State.fetchAct_decoded (ht : h.tsc = false) {i : Instr} (hd : decode lo hi = .ok i) : s.fetchAct h = .run i s1 := by
  simp only [State.fetchAct, fetched, hd, ht, Bool.false_and, Bool.false_eq_true, if_false]
  split
  · rfl
  · rw [State.pcMatch_unwatched off]

theorem State.fetchAct_undecoded {e : DecodeError} (hd : decode lo hi = .error e) :
    s.fetchAct h = .run .illegalInstruction (s1.about [s.cur, lo.toNat]) := by
  simp only [State.fetchAct, fetched, hd, State.orHalt, State.pcMatch_unwatched off]

end

end Sys2Proof.Machine

namespace Sys2Proof.Proofs

open Sys2Proof Sys2Proof.Machine

/-- Settles O3: the step is the act of the boundary, and there nothing comes before the fetch. -/
theorem stepRunsDecodedInstruction : Obligations.StepRunsDecodedInstruction := by
  unfold Obligations.StepRunsDecodedInstruction
  intro s k h due alert next awake u
  have run := step_of_nextHart due alert next
  refine ⟨fun i second => ?_, fun s1 lo hi h2 he hy hw hcause hhalt hnotice hirq ht hsave fetched off => ?_⟩
  · rw [run, State.boundaryAct_second awake second, Act.perform]
  · have fetches : u.boundaryAct h = u.fetchAct h := State.boundaryAct_fetches awake h2 he hy hw hcause hhalt hnotice hirq hsave
    refine ⟨fun i hd => ?_, fun e hd => ?_⟩
    · rw [run, fetches, State.fetchAct_decoded fetched off ht hd, Act.perform]
    · rw [run, fetches, State.fetchAct_undecoded fetched off hd]
      rfl

/-- Settles O59, field by field. -/
theorem resetState : Obligations.ResetState := by
  unfold Obligations.ResetState
  refine ⟨rfl, rfl, rfl, rfl, rfl, rfl, rfl, rfl, rfl, rfl, rfl, rfl, rfl, fun _ => ⟨rfl, rfl⟩, fun _ => rfl, rfl, rfl, rfl, rfl, rfl,
    rfl, rfl, rfl, ?_, fun _ _ => rfl, ?_, ?_, ?_, rfl⟩
  · simp [Hart.getX, Hart.reset]
  · intro k
    change (Array.replicate 12 (0 : Word)).getD k 0 = 0
    rw [Array.getD_eq_getD_getElem?, Array.getElem?_replicate]
    split <;> rfl
  · decide
  · decide

end Sys2Proof.Proofs
end

section
/-! Exceptions taken at an instruction boundary (R28, R362, R363): what the hart that takes one becomes. -/

namespace Sys2Proof.Machine

open Sys2Proof

/-! ## One hart replaced -/

theorem State.setHart_only (s : State) (k : Nat) (h : Hart) : OnlyHart s (s.setHart k h) k h where
  acting := s.hart?_setHart_same k h
  others := fun j hj => (s.hart?_setHart k j h).trans (if_neg hj)
  rest := rfl

theorem State.setHart_setHart (s : State) (k : Nat) (h g : Hart) : (s.setHart k h).setHart k g = s.setHart k g := by
  simp only [State.setHart, Map.put_put]

/-- A step of one hart that replaces it, whichever hart acted before. -/
theorem State.asHart_setCur {s : State} {k : Nat} {f : State → State} {h : Hart}
    (hf : f { s with cur := k } = State.setCur { s with cur := k } h) : s.asHart k f = s.setHart k h := by
  rw [State.asHart, hf]
  rfl

/-! ## A hart that takes a cause -/

/-- R76, R362: a hart that takes a cause by itself: in S where it is delegated, in M else. -/
def Hart.trapped (h : Hart) (c : Nat) (tval : DWord) (now : Nat) : Hart :=
  if h.delegated h.csr.medeleg c then h.enterS (BitVec.ofNat 64 c) tval h.csr.stvec now
  else h.enterM (BitVec.ofNat 64 c) tval h.csr.mtvec now

/-- R70: a cause that no firmware takes: the supervisor's, or one of a hart in M. -/
theorem State.raiseWith_eq {s : State} {h : Hart} (hc : s.hart? s.cur = some h) {c : Nat}
    (own : toSupervisor h h.csr.medeleg c ∨ h.priv = .M) (tval : DWord) (poison : Bool) :
    s.raiseWith c tval poison = s.setCur (h.trapped c tval s.now) := by
  simp only [State.raiseWith, hc, Hart.trapped]
  split
  · rfl
  · next d => rw [if_pos (own.resolve_left fun t => d ((delegated_iff _ _ _).2 t))]

theorem takesTrap_trapped (s : State) (k : Nat) {h : Hart} (c : Nat) (tval : DWord) :
    TakesTrap s (s.setHart k (h.trapped c tval s.now)) k h c tval := by
  refine ⟨_, s.setHart_only k _, fun sup => ?_, fun mach => ?_⟩
  · rw [Hart.trapped, if_pos ((delegated_iff _ _ _).2 sup)]
    exact Hart.enterS_enters ..
  · rw [Hart.trapped, if_neg fun d => ((delegated_iff _ _ _).1 d).1 mach]
    exact Hart.enterM_enters ..

/-- R362: an exception that hart `k` takes in a step of its own. -/
theorem State.asHart_raiseWith {s : State} {k : Nat} {h : Hart} (hk : s.hart? k = some h) {c : Nat}
    (own : toSupervisor h h.csr.medeleg c ∨ h.priv = .M) (tval : DWord) (poison : Bool) :
    s.asHart k (fun t => t.raiseWith c tval poison) = s.setHart k (h.trapped c tval s.now) :=
  State.asHart_setCur (State.raiseWith_eq (s := { s with cur := k }) hk own tval poison)

theorem Hart.atBoundary_of {h : Hart} {now : Nat} (awake : h.run.wait = none) (runs : h.run.halted = false)
    (he : h.run.entering = none) (h2 : h.run.second = none) (free : h.run.busyUntil ≤ now) : h.atBoundary now = true := by
  simp [Hart.atBoundary, awake, runs, he, h2, free]

/-! ## Asynchronous causes (R363, R376) -/

/-- R376: the single step still to be made, after a cause that was not the stepped instruction's. -/
theorem Hart.trapped_keepStep (h : Hart) (u : Run) (hu : u.stepping = h.run.stepping ∧ u.haltReq = h.run.haltReq) (c : Nat)
    (v : DWord) (now : Nat) :
    let g := ({ h with run := u } : Hart).trapped c v now
    let k := ({ h with run := { u with stepping := false } } : Hart).trapped c v now
    ({ g with run := { g.run with stepping := h.run.stepping, haltReq := h.run.haltReq } } : Hart)
      = { k with run := { k.run with stepping := h.run.stepping } } := by
  have idle : h.run.haltReq = (u.haltReq || false) := by rw [Bool.or_false, hu.2]
  have entry (r : Run) : ({ h with run := r } : Hart).trapped c v now = if h.delegated h.csr.medeleg c
      then ({ h with run := r } : Hart).enterS (BitVec.ofNat 64 c) v h.csr.stvec now
      else ({ h with run := r } : Hart).enterM (BitVec.ofNat 64 c) v h.csr.mtvec now := rfl
  intro g k
  simp only [g, k, entry, idle]
  split <;> rfl

/-- R363: the oldest cause, taken off the queue, and the single step kept. -/
theorem State.raise_keepStep {s : State} {h : Hart} {u : Run} (hu : u.stepping = h.run.stepping ∧ u.haltReq = h.run.haltReq)
    {c : Nat} (own : toSupervisor h h.csr.medeleg c ∨ h.priv = .M) (v : DWord) :
    let k := ({ h with run := { u with stepping := false } } : Hart).trapped c v s.now
    ((s.setCur { h with run := u }).raise c v).keepStep h
      = s.setCur { k with run := { k.run with stepping := h.run.stepping } } := by
  have raised := State.raiseWith_eq (s.hart?_setCur { h with run := u }) own v false
  rw [State.raise, raised, State.setCur_setCur, State.keepStep, State.modCur_of _ _ _ (s.hart?_setCur _), State.setCur_setCur]
  exact congrArg s.setCur (Hart.trapped_keepStep h u hu c v s.now)

end Sys2Proof.Machine

namespace Sys2Proof.Proofs

open Sys2Proof Sys2Proof.Machine

/-- R363: what TAKE_ASYNC_CAUSE leaves, as an exception of the hart without its single step. -/
theorem takesCause_of {s : State} {k : Nat} {h : Hart} {u : Run} (hu : u.stepping = h.run.stepping ∧ u.haltReq = h.run.haltReq)
    {c : Nat} {v : DWord} (own : toSupervisor h h.csr.medeleg c ∨ h.priv = .M)
    (run : exec .takeAsyncCause s = .next (s.asHart k fun t => ((t.setCur { h with run := u }).raise c v).keepStep h)) :
    ∃ t g, TakesTrap s t k { h with run := { u with stepping := false } } c v ∧ t.hart? k = some g ∧
      exec .takeAsyncCause s = .next (t.setHart k { g with run := { g.run with stepping := h.run.stepping } }) := by
  refine ⟨_, _, takesTrap_trapped s k c v, s.hart?_setHart_same k _, ?_⟩
  rw [run, State.asHart_setCur (State.raise_keepStep (s := { s with cur := k }) hu own v), State.setHart_setHart]

/-- Settles O27. -/
theorem boundaryTraps : Obligations.BoundaryTraps := by
  unfold Obligations.BoundaryTraps
  refine ⟨fun s k w h harg hk awake runs he h2 free hw own => ?_, fun s k c v h harg hk awake runs he h2 free own => ?_,
    fun s k c v rest h harg hk awake runs he h2 free => ?_⟩
  · have at_ := Hart.atBoundary_of awake runs he h2 free
    refine ⟨_, ?_, takesTrap_trapped s k 2 _⟩
    change execIllegalInstruction s = _
    simp only [execIllegalInstruction, EventArgs.nat, harg, List.getD_cons_zero, List.getD_cons_succ, hk, at_, if_true,
      Nat.mod_eq_of_lt hw, State.raise, State.asHart_raiseWith hk own]
  · have at_ := Hart.atBoundary_of awake runs he h2 free
    refine ⟨_, ?_, takesTrap_trapped s k c _⟩
    change execInstructionFetchFault s = _
    simp only [execInstructionFetchFault, EventArgs.nat, harg, List.getD_cons_zero, List.getD_cons_succ, hk, at_, if_true,
      State.asHart_raiseWith hk own]
  · have at_ := Hart.atBoundary_of awake runs he h2 free
    have run (pending : h.causePending = true) : exec .takeAsyncCause s = .next (s.takeCause k) := by
      change execTakeAsyncCause s = _
      simp only [execTakeAsyncCause, EventArgs.nat, harg, List.getD_cons_zero, hk, pending, at_, Bool.and_self, if_true]
    have acting : State.hart? { s with cur := k } k = some h := hk
    refine ⟨fun hq own => ?_, fun hq ovf own => ?_⟩
    · refine takesCause_of (u := { h.run with aq := rest }) ⟨rfl, rfl⟩ own ?_
      rw [run (by simp [Hart.causePending, hq]), State.takeCause]
      simp only [State.asHart, acting, hq]
    · refine takesCause_of (u := { h.run with aqOvf := false }) ⟨rfl, rfl⟩ own ?_
      rw [run (by simp [Hart.causePending, ovf]), State.takeCause]
      simp only [State.asHart, acting, hq, ovf, if_true]

end Sys2Proof.Proofs
end

section
/-! The well-formed state (R26, R31, R69, R73, R75) as an invariant: what of a hart it speaks of, and that scalar instructions,
CSR instructions, traps and returns keep it. -/

namespace Sys2Proof.Machine

open Sys2Proof

/-! ## Addresses of instructions (R26) -/

theorem and_three_eq_zero_iff (v : DWord) : v &&& 3 = 0 ↔ v.getLsbD 0 = false ∧ v.getLsbD 1 = false := by
  have three (k : Nat) : (3 : DWord).getLsbD k = true ↔ k = 0 ∨ k = 1 := by
    apply getLsbD_iff
    · decide
    · omega
  constructor
  · intro h
    have bit (k : Nat) (hk : k = 0 ∨ k = 1) : v.getLsbD k = false := by
      have zero : (v &&& 3).getLsbD k = false := by rw [h]; exact BitVec.getLsbD_zero
      rwa [BitVec.getLsbD_and, (three k).2 hk, Bool.and_true] at zero
    exact ⟨bit 0 (.inl rfl), bit 1 (.inr rfl)⟩
  · rintro ⟨h0, h1⟩
    apply BitVec.eq_of_getLsbD_eq
    intro k _
    rw [BitVec.getLsbD_and, show (0 : DWord).getLsbD k = false from BitVec.getLsbD_zero]
    by_cases hk : k = 0 ∨ k = 1
    · rcases hk with rfl | rfl
      · rw [h0, Bool.false_and]
      · rw [h1, Bool.false_and]
    · rw [Bool.eq_false_iff.2 (fun c => hk ((three k).1 c)), Bool.and_false]

theorem and_not_three (v : DWord) : (v &&& ~~~3) &&& 3 = 0 := by
  rw [BitVec.and_assoc]
  exact BitVec.and_zero

theorem toNat_mod_four {v : DWord} (h : v &&& 3 = 0) : v.toNat % 4 = 0 := by
  have low : (v &&& 3).toNat = v.toNat % 4 := by
    rw [BitVec.toNat_and]
    exact Nat.and_two_pow_sub_one_eq_mod v.toNat 2
  rw [← low, h]
  rfl

/-- R26: the pc of the next instruction is a multiple of 4. -/
theorem add_and_three {v w : DWord} (hv : v &&& 3 = 0) (hw : w &&& 3 = 0) : (v + w) &&& 3 = 0 := by
  apply BitVec.eq_of_toNat_eq
  have a := toNat_mod_four hv
  have b := toNat_mod_four hw
  have low : ((v + w) &&& 3).toNat = (v + w).toNat % 4 := by
    rw [BitVec.toNat_and]
    exact Nat.and_two_pow_sub_one_eq_mod _ 2
  rw [low, BitVec.toNat_add]
  change (v.toNat + w.toNat) % 2 ^ 64 % 4 = 0
  omega

theorem Hart.nextPc_and_three {h : Hart} (hpc : h.pc &&& 3 = 0) : h.nextPc 4 &&& 3 = 0 := by
  unfold Hart.nextPc
  split
  · exact add_and_three hpc rfl
  · exact add_and_three hpc rfl

/-- R27: a target at an even distance. -/
theorem target_even {v : DWord} (hv : v &&& 3 = 0) {n : Nat} (off : BitVec n) :
    (v + (off ++ 0#1).signExtend 64).getLsbD 0 = false := by
  have even : ((off ++ 0#1).signExtend 64).getLsbD 0 = false := by
    rw [BitVec.getLsbD_signExtend, if_pos (Nat.succ_pos n), BitVec.getLsbD_append]
    simp
  rw [BitVec.getLsbD_add (by decide), ((and_three_eq_zero_iff v).1 hv).1, even]
  simp [BitVec.carry_zero]

/-! ## The status register (R73) -/

/-- R73: no reserved bit is set and MPP is a level. -/
def StatusLegal (m : DWord) : Prop := m &&& ~~~mstatusMask = 0x0000000A00000000 ∧ m.extractLsb' 11 2 ≠ 2

theorem and_not_mask_congr {m v w : DWord} (h : ∀ b, m.getLsbD b = false → v.getLsbD b = w.getLsbD b) :
    v &&& ~~~m = w &&& ~~~m := by
  apply BitVec.eq_of_getLsbD_eq
  intro b hb
  rw [BitVec.getLsbD_and, BitVec.getLsbD_and, BitVec.getLsbD_not]
  cases hm : m.getLsbD b with
  | false => rw [h b hm]
  | true => simp

theorem extractLsb'_mpp_congr {v w : DWord} (h11 : v.getLsbD 11 = w.getLsbD 11) (h12 : v.getLsbD 12 = w.getLsbD 12) :
    v.extractLsb' 11 2 = w.extractLsb' 11 2 := by
  apply BitVec.eq_of_getLsbD_eq
  intro b hb
  rw [BitVec.getLsbD_extractLsb', BitVec.getLsbD_extractLsb']
  interval_cases b
  · rw [h11]
  · rw [h12]

theorem StatusLegal.setBit {m : DWord} (h : StatusLegal m) {i : Nat} (b : Bool) (hi : mstatusMask.getLsbD i = true)
    (h11 : i ≠ 11) (h12 : i ≠ 12) : StatusLegal (setBit m i b) := by
  have small : i < 64 := by
    by_contra big
    rw [BitVec.getLsbD_of_ge _ _ (by omega)] at hi
    cases hi
  have other (j : Nat) (hj : j ≠ i) : (Machine.setBit m i b).getLsbD j = m.getLsbD j := by
    rw [getLsbD_setBit _ _ _ _ small, if_neg hj]
  refine ⟨(and_not_mask_congr fun j hj => other j ?_).trans h.1, ?_⟩
  · rintro rfl
    rw [hi] at hj
    cases hj
  · rw [extractLsb'_mpp_congr (other 11 h11.symm) (other 12 h12.symm)]
    exact h.2

theorem StatusLegal.setMpp {m : DWord} (h : StatusLegal m) (p : Priv) :
    StatusLegal (Machine.setBit (Machine.setBit m 11 (p.code.getLsbD 0)) 12 (p.code.getLsbD 1)) := by
  have bit (j : Nat) : (Machine.setBit (Machine.setBit m 11 (p.code.getLsbD 0)) 12 (p.code.getLsbD 1)).getLsbD j =
      if j = 12 then p.code.getLsbD 1 else if j = 11 then p.code.getLsbD 0 else m.getLsbD j := by
    rw [getLsbD_setBit _ _ _ _ (by decide), getLsbD_setBit _ _ _ _ (by decide)]
  refine ⟨(and_not_mask_congr fun j hj => ?_).trans h.1, ?_⟩
  · rw [bit, if_neg, if_neg]
    · rintro rfl; exact absurd hj (by decide)
    · rintro rfl; exact absurd hj (by decide)
  · have code : (Machine.setBit (Machine.setBit m 11 (p.code.getLsbD 0)) 12 (p.code.getLsbD 1)).extractLsb' 11 2 = p.code := by
      apply BitVec.eq_of_getLsbD_eq
      intro b hb
      rw [BitVec.getLsbD_extractLsb', bit]
      interval_cases b <;> rfl
    rw [code]
    cases p <;> decide

/-- R73: a write of the status register's held bits, or of some of them. -/
theorem StatusLegal.write {old : DWord} (h : StatusLegal old) (v : DWord) {mask : DWord}
    (sub : ∀ b, mask.getLsbD b = true → mstatusMask.getLsbD b = true)
    (mpp : (mask.getLsbD 11 = true ∧ mask.getLsbD 12 = true) ∨ (mask.getLsbD 11 = false ∧ mask.getLsbD 12 = false)) :
    StatusLegal (mstatusWrite old v mask) := by
  unfold mstatusWrite
  dsimp only
  have bit (j : Nat) := getLsbD_masked old v (if v.extractLsb' 11 2 = 2 then mask &&& ~~~0x1800 else mask) j
  have noMpp (j : Nat) (hj : j = 11 ∨ j = 12) : (mask &&& ~~~0x1800).getLsbD j = false := by
    rw [BitVec.getLsbD_and]
    rcases hj with rfl | rfl <;> simp
  refine ⟨(and_not_mask_congr fun j hj => ?_).trans h.1, ?_⟩
  · rw [bit, if_neg]
    have outside : mask.getLsbD j = false := Bool.eq_false_iff.2 fun c => by rw [sub j c] at hj; cases hj
    split
    · rw [BitVec.getLsbD_and, outside, Bool.false_and]; exact Bool.false_ne_true
    · rw [outside]; exact Bool.false_ne_true
  · by_cases e : v.extractLsb' 11 2 = 2
    · rw [extractLsb'_mpp_congr (w := old)]
      · exact h.2
      · rw [bit, if_pos e, noMpp 11 (.inl rfl), if_neg Bool.false_ne_true]
      · rw [bit, if_pos e, noMpp 12 (.inr rfl), if_neg Bool.false_ne_true]
    · rcases mpp with ⟨h11, h12⟩ | ⟨h11, h12⟩
      · rw [extractLsb'_mpp_congr (w := v)]
        · exact e
        · rw [bit, if_neg e, h11, if_pos rfl]
        · rw [bit, if_neg e, h12, if_pos rfl]
      · rw [extractLsb'_mpp_congr (w := old)]
        · exact h.2
        · rw [bit, if_neg e, h11, if_neg Bool.false_ne_true]
        · rw [bit, if_neg e, h12, if_neg Bool.false_ne_true]

/-! ## Harts -/

/-- R26, R73, R75: what `Csr.legal` says of each register. -/
structure Csr.Legal (c : Csr) : Prop where
  status : StatusLegal c.mstatus
  stvec : c.stvec &&& 3 = 0
  mtvec : c.mtvec &&& 3 = 0
  sepc : c.sepc &&& 3 = 0
  mepc : c.mepc &&& 3 = 0
  mie : c.mie &&& ~~~irqMask = 0
  inhibit : c.mcountinhibit &&& 2 = 0
  satp : satpMode c.satp = 0 ∨ satpMode c.satp = 9 ∨ satpMode c.satp = 10 ∨ satpMode c.satp = 14

theorem Csr.legal_iff (c : Csr) : c.legal = true ↔ c.Legal := by
  constructor
  · intro h
    simp only [Csr.legal, Bool.and_eq_true, Bool.or_eq_true, beq_iff_eq, bne_iff_ne, ne_eq, or_assoc] at h
    obtain ⟨⟨⟨⟨⟨⟨⟨⟨held, mpp⟩, stvec⟩, mtvec⟩, sepc⟩, mepc⟩, mie⟩, inhibit⟩, satp⟩ := h
    exact ⟨⟨held, mpp⟩, stvec, mtvec, sepc, mepc, mie, inhibit, satp⟩
  · rintro ⟨⟨held, mpp⟩, stvec, mtvec, sepc, mepc, mie, inhibit, satp⟩
    simp only [Csr.legal, Bool.and_eq_true, Bool.or_eq_true, beq_iff_eq, bne_iff_ne, ne_eq, or_assoc]
    exact ⟨⟨⟨⟨⟨⟨⟨⟨held, mpp⟩, stvec⟩, mtvec⟩, sepc⟩, mepc⟩, mie⟩, inhibit⟩, satp⟩

/-- The lane registers of a hart and its lane slice, in canonical form. -/
def Lanes.Formed (l : Lanes) : Prop :=
  (Map.sorted l.v = true ∧ l.v.all (fun e => e.2 != 0) = true) ∧ Memory.wf l.slice = true

/-- What a well-formed state says of one hart. -/
structure Hart.Formed (h : Hart) : Prop where
  x0 : h.x[0]'(by decide) = 0
  pc : h.pc &&& 3 = 0
  csr : h.csr.Legal
  emuvec : h.dev.emuvec &&& 2 = 0
  lanes : h.lanes.Formed

theorem Hart.formed_iff (h : Hart) : h.Formed ↔ h.wellFormed = true ∧ Memory.wf h.lanes.slice = true := by
  constructor
  · rintro ⟨x0, pc, csr, emuvec, ⟨sorted, listed⟩, slice⟩
    simp only [Hart.wellFormed, Bool.and_eq_true, beq_iff_eq]
    exact ⟨⟨⟨⟨⟨⟨x0, pc⟩, (Csr.legal_iff _).2 csr⟩, emuvec⟩, sorted⟩, listed⟩, slice⟩
  · rintro ⟨h, slice⟩
    simp only [Hart.wellFormed, Bool.and_eq_true, beq_iff_eq] at h
    obtain ⟨⟨⟨⟨⟨x0, pc⟩, csr⟩, emuvec⟩, sorted⟩, listed⟩ := h
    exact ⟨x0, pc, (Csr.legal_iff _).1 csr, emuvec, ⟨sorted, listed⟩, slice⟩

section
variable {h : Hart} (hf : h.Formed)
include hf

theorem Hart.Formed.withRun (r : Run) : ({ h with run := r } : Hart).Formed := ⟨hf.x0, hf.pc, hf.csr, hf.emuvec, hf.lanes⟩

theorem Hart.Formed.withPc {pc : DWord} (aligned : pc &&& 3 = 0) (p : Priv) : ({ h with priv := p, pc := pc } : Hart).Formed :=
  ⟨hf.x0, aligned, hf.csr, hf.emuvec, hf.lanes⟩

theorem Hart.Formed.withCsr {c : Csr} (legal : c.Legal) : ({ h with csr := c } : Hart).Formed :=
  ⟨hf.x0, hf.pc, legal, hf.emuvec, hf.lanes⟩

theorem Hart.Formed.setX (r : BitVec 5) (v : DWord) : (h.setX r v).Formed := by
  unfold Hart.setX
  split
  · exact hf
  · next hr =>
    have other : r.toNat ≠ 0 := fun e => hr (BitVec.eq_of_toNat_eq e)
    exact ⟨(Vector.getElem_set_ne r.isLt _ other).trans hf.x0, hf.pc, hf.csr, hf.emuvec, hf.lanes⟩

theorem Hart.Formed.countRetired : h.countRetired.Formed := by
  unfold Hart.countRetired
  split
  · exact hf
  · obtain ⟨status, stvec, mtvec, sepc, mepc, mie, inhibit, satp⟩ := hf.csr
    exact hf.withCsr ⟨status, stvec, mtvec, sepc, mepc, mie, inhibit, satp⟩

theorem Hart.Formed.retireTo {pc : DWord} (aligned : pc &&& 3 = 0) : (h.retireTo pc).Formed :=
  (hf.withPc aligned h.priv).countRetired.withRun _

theorem Hart.Formed.retire : (h.retire 4).Formed := hf.retireTo (Hart.nextPc_and_three hf.pc)

theorem Hart.Formed.noteBack (target : DWord) : (h.noteBack target).Formed := by
  rw [Hart.noteBack_eq]
  exact hf.withRun _

theorem Hart.Formed.setStatus {i : Nat} (b : Bool) (held : mstatusMask.getLsbD i = true) (h11 : i ≠ 11) (h12 : i ≠ 12) :
    (h.setStatus i b).Formed := by
  obtain ⟨status, stvec, mtvec, sepc, mepc, mie, inhibit, satp⟩ := hf.csr
  exact hf.withCsr ⟨status.setBit b held h11 h12, stvec, mtvec, sepc, mepc, mie, inhibit, satp⟩

theorem Hart.Formed.setMpp (p : Priv) : (h.setMpp p).Formed := by
  obtain ⟨status, stvec, mtvec, sepc, mepc, mie, inhibit, satp⟩ := hf.csr
  exact hf.withCsr ⟨status.setMpp p, stvec, mtvec, sepc, mepc, mie, inhibit, satp⟩

theorem Hart.Formed.enterS (cause tval : DWord) {vec : DWord} (aligned : vec &&& 3 = 0) (now : Nat) :
    (h.enterS cause tval vec now).Formed := by
  obtain ⟨status, stvec, mtvec, sepc, mepc, mie, inhibit, satp⟩ := hf.csr
  have saved : ({ h with csr := { h.csr with sepc := h.pc, scause := cause, stval := tval } } : Hart).Formed :=
    hf.withCsr ⟨status, stvec, mtvec, hf.pc, mepc, mie, inhibit, satp⟩
  have stacked := ((saved.setStatus (i := bitSPIE) (h.status bitSIE) rfl (by decide) (by decide)).setStatus
    (i := bitSIE) false rfl (by decide) (by decide)).setStatus (i := bitSPP) (h.priv != .U) rfl (by decide) (by decide)
  exact (stacked.withPc aligned .S).withRun _

theorem Hart.Formed.enterM (cause tval : DWord) {vec : DWord} (aligned : vec &&& 3 = 0) (now : Nat) :
    (h.enterM cause tval vec now).Formed := by
  obtain ⟨status, stvec, mtvec, sepc, mepc, mie, inhibit, satp⟩ := hf.csr
  have saved : ({ h with csr := { h.csr with mepc := h.pc, mcause := cause, mtval := tval } } : Hart).Formed :=
    hf.withCsr ⟨status, stvec, mtvec, sepc, hf.pc, mie, inhibit, satp⟩
  have stacked := ((saved.setStatus (i := bitMPIE) (h.status bitMIE) rfl (by decide) (by decide)).setStatus
    (i := bitMIE) false rfl (by decide) (by decide)).setMpp h.priv
  exact (stacked.withPc aligned .M).withRun _

theorem Hart.Formed.returnS {pc : DWord} (aligned : pc &&& 3 = 0) : (h.returnS pc).Formed :=
  ((((hf.setStatus (i := bitSIE) _ rfl (by decide) (by decide)).setStatus (i := bitSPIE) _ rfl (by decide) (by decide)).setStatus
    (i := bitSPP) _ rfl (by decide) (by decide)).setStatus (i := bitMPRV) _ rfl (by decide) (by decide)).withPc aligned _

theorem Hart.Formed.returnM {pc : DWord} (aligned : pc &&& 3 = 0) : (h.returnM pc).Formed := by
  have popped := ((hf.setStatus (i := bitMIE) (h.status bitMPIE) rfl (by decide) (by decide)).setStatus
    (i := bitMPIE) true rfl (by decide) (by decide)).setMpp .U
  unfold Hart.returnM
  dsimp only
  split
  · exact popped.withPc aligned _
  · exact (popped.setStatus (i := bitMPRV) false rfl (by decide) (by decide)).withPc aligned _

end

/-! ## CSR writes (R36, R73, R75) -/

theorem and_and_eq_zero {n : Nat} (v : BitVec n) {a b : BitVec n} (h : a &&& b = 0) : (v &&& a) &&& b = 0 := by
  rw [BitVec.and_assoc, h]
  exact BitVec.and_zero

theorem sieWrite_legal {old deleg v : DWord} (h : old &&& ~~~irqMask = 0) :
    ((old &&& ~~~deleg) ||| (v &&& deleg &&& irqMask)) &&& ~~~irqMask = 0 := by
  have old_part : (old &&& ~~~deleg) &&& ~~~irqMask = 0 := by
    rw [BitVec.and_assoc, BitVec.and_comm (~~~deleg), ← BitVec.and_assoc, h]
    exact BitVec.zero_and
  have new_part : (v &&& deleg &&& irqMask) &&& ~~~irqMask = 0 := and_and_eq_zero _ rfl
  rw [BitVec.and_comm, BitVec.and_or_distrib_left, BitVec.and_comm, old_part, BitVec.and_comm, new_part]
  rfl

theorem satpWrite_legal {old : DWord} (h : satpMode old = 0 ∨ satpMode old = 9 ∨ satpMode old = 10 ∨ satpMode old = 14) (v : DWord) :
    satpMode (satpWrite old v) = 0 ∨ satpMode (satpWrite old v) = 9 ∨ satpMode (satpWrite old v) = 10 ∨
      satpMode (satpWrite old v) = 14 := by
  rw [satpWrite]
  split
  · next legal => exact legal
  · exact h

theorem Hart.Formed.csrSet {h : Hart} (hf : h.Formed) (a : Nat) (v : DWord) (now : Nat) : (h.csrSet a v now).Formed := by
  obtain ⟨x0, pc, ⟨status, stvec, mtvec, sepc, mepc, mie, inhibit, satp⟩, emuvec, lanes⟩ := hf
  have sub (b : Nat) (hb : sstatusWritable.getLsbD b = true) : mstatusMask.getLsbD b = true := by
    rw [getLsbD_sstatusWritable] at hb
    rw [getLsbD_mstatusMask]
    omega
  unfold Hart.csrSet
  split
  all_goals refine ⟨x0, pc, ⟨?_, ?_, ?_, ?_, ?_, ?_, ?_, ?_⟩, ?_, lanes⟩
  all_goals try assumption
  · exact and_and_eq_zero v rfl
  · exact status.write v (fun _ => id) (.inl ⟨rfl, rfl⟩)
  · exact and_and_eq_zero v rfl
  · exact and_not_three v
  · exact and_and_eq_zero _ rfl
  · exact and_not_three v
  · exact status.write v sub (.inr ⟨rfl, rfl⟩)
  · exact sieWrite_legal mie
  · exact and_not_three v
  · exact and_not_three v
  · exact satpWrite_legal satp v

/-! ## The state -/

theorem State.formed_of_hart? {s : State} (hs : s.wellFormed = true) {k : Nat} {h : Hart} (hk : s.hart? k = some h) : h.Formed := by
  simp only [State.wellFormed, State.memoriesOk, Bool.and_eq_true, List.all_eq_true] at hs
  obtain ⟨⟨-, -, slices⟩, harts⟩ := hs
  have mem := Map.mem_of_find hk
  exact (Hart.formed_iff h).2 ⟨harts _ mem, slices _ mem⟩

theorem Map.all_put {α : Type} {m : Map α} {p : Nat × α → Bool} (hm : m.all p = true) {k : Nat} {a : α} (ha : p (k, a) = true) :
    (Map.put m k a).all p = true := by
  rw [List.all_eq_true] at hm ⊢
  intro e he
  rcases Map.mem_put m k a e he with rfl | old
  · exact ha
  · exact hm e old

theorem State.wellFormed_setHart {s : State} (hs : s.wellFormed = true) {h : Hart} (hf : h.Formed) (k : Nat) :
    (s.setHart k h).wellFormed = true := by
  obtain ⟨formed, slice⟩ := (Hart.formed_iff h).1 hf
  simp only [State.wellFormed, State.memoriesOk, Bool.and_eq_true] at hs ⊢
  obtain ⟨⟨⟨⟨sorted, cores⟩, parts⟩, mems, slices⟩, harts⟩ := hs
  exact ⟨⟨⟨⟨Map.sorted_put _ _ _ sorted, cores⟩, parts⟩, mems, Map.all_put slices slice⟩, Map.all_put harts formed⟩

theorem State.wellFormed_setCur {s : State} (hs : s.wellFormed = true) {h : Hart} (hf : h.Formed) : (s.setCur h).wellFormed = true :=
  State.wellFormed_setHart hs hf s.cur

theorem State.wellFormed_modCur {s : State} (hs : s.wellFormed = true) {f : Hart → Hart} (hf : ∀ h : Hart, h.Formed → (f h).Formed) :
    (s.modCur f).wellFormed = true := by
  unfold State.modCur
  split
  · exact hs
  · next h hc => exact State.wellFormed_setCur hs (hf h (State.formed_of_hart? hs hc))

theorem State.wellFormed_setPfmask {s : State} (hs : s.wellFormed = true) (part : Nat) (v : DWord) :
    (s.setPfmask part v).wellFormed = true := by
  unfold State.setPfmask State.modPart
  split
  · exact hs
  · simp only [State.wellFormed, Bool.and_eq_true] at hs ⊢
    obtain ⟨⟨⟨⟨sorted, cores⟩, parts⟩, mems⟩, harts⟩ := hs
    exact ⟨⟨⟨⟨sorted, cores⟩, Map.sorted_put _ _ _ parts⟩, mems⟩, harts⟩

/-- R70: the firmware's answer is planned; of the harts only the caller's wait changes. -/
theorem State.wellFormed_firmwareTakes {s : State} (hs : s.wellFormed = true) (h : Hart) (cause : Nat) (poison : Bool) :
    (s.firmwareTakes h cause poison).wellFormed = true := by
  have parked : (s.modCur fun k => k.park .firmware s.now).wellFormed = true :=
    State.wellFormed_modCur hs fun _ formed => formed.withRun _
  unfold State.firmwareTakes
  dsimp only
  split
  · exact parked
  · split
    · exact parked
    · exact parked

theorem State.wellFormed_raise {s : State} (hs : s.wellFormed = true) (cause : Nat) (tval : DWord) :
    (s.raise cause tval).wellFormed = true := by
  unfold State.raise State.raiseWith
  split
  · exact hs
  · next h hc =>
    have hf := State.formed_of_hart? hs hc
    have machine := State.wellFormed_setCur hs (hf.enterM (BitVec.ofNat 64 cause) tval hf.csr.mtvec s.now)
    split
    · exact State.wellFormed_setCur hs (hf.enterS _ _ hf.csr.stvec _)
    · dsimp only
      split
      · exact machine
      · exact State.wellFormed_firmwareTakes machine h cause false

/-! ## The shapes of instructions -/

section
variable {s t : State}

/-- An instruction whose state after it is well formed for every acting hart. -/
theorem wellFormed_of_onHart {f : Hart → State} (hs : s.wellFormed = true) (run : onHart s f = .next t)
    (keeps : ∀ h : Hart, h.Formed → (f h).wellFormed = true) : t.wellFormed = true := by
  unfold onHart at run
  split at run
  · cases run
  · next h hc =>
    cases run
    exact keeps h (State.formed_of_hart? hs hc)

theorem State.wellFormed_jump (hs : s.wellFormed = true) {h : Hart} (hf : h.Formed) (rd : BitVec 5) {target : DWord}
    (even : target.getLsbD 0 = false) : (s.jump h rd target).wellFormed = true := by
  unfold State.jump
  split
  · exact State.wellFormed_raise hs 0 target
  · next aligned =>
    have target4 : target &&& 3 = 0 := (and_three_eq_zero_iff _).2 ⟨even, Bool.eq_false_iff.2 aligned⟩
    exact State.wellFormed_setCur hs (((hf.noteBack target).setX rd _).retireTo target4)

theorem aluRR_keeps (f : DWord → DWord → DWord) (rd rs1 rs2 : BitVec 5) (hs : s.wellFormed = true)
    (run : aluRR f rd rs1 rs2 s = .next t) : t.wellFormed = true :=
  wellFormed_of_onHart hs run fun _ hf => State.wellFormed_setCur hs (hf.setX rd _).retire

theorem aluRI_keeps (f : DWord → DWord → DWord) (rd rs1 : BitVec 5) (imm : BitVec 12) (hs : s.wellFormed = true)
    (run : aluRI f rd rs1 imm s = .next t) : t.wellFormed = true :=
  wellFormed_of_onHart hs run fun _ hf => State.wellFormed_setCur hs (hf.setX rd _).retire

theorem aluShift_keeps (f : DWord → Nat → DWord) (rd rs1 : BitVec 5) (n : Nat) (hs : s.wellFormed = true)
    (run : aluShift f rd rs1 n s = .next t) : t.wellFormed = true :=
  wellFormed_of_onHart hs run fun _ hf => State.wellFormed_setCur hs (hf.setX rd _).retire

theorem branch_keeps (c : DWord → DWord → Bool) (rs1 rs2 : BitVec 5) (off : BitVec 12) (hs : s.wellFormed = true)
    (run : branch c rs1 rs2 off s = .next t) : t.wellFormed = true := by
  refine wellFormed_of_onHart hs run fun h hf => ?_
  split
  · exact State.wellFormed_jump hs hf 0 (target_even hf.pc off)
  · exact State.wellFormed_setCur hs hf.retire

theorem csrOp_keeps (hs : s.wellFormed = true) {i : Instr} {rd : BitVec 5} {a : BitVec 12} {f : Hart → DWord → Option DWord}
    (run : csrOp i rd a f s = .next t) : t.wellFormed = true := by
  refine wellFormed_of_onHart hs run fun h hf => ?_
  dsimp only
  have illegal := State.wellFormed_raise hs 2 (h.firstWord i)
  split
  · split
    · exact State.wellFormed_setCur hs (hf.setX rd _).retire
    · exact illegal
  · next v _ =>
    split
    · exact illegal
    · split
      · exact State.wellFormed_setCur (State.wellFormed_setPfmask hs _ v) (hf.setX rd _).retire
      · split
        · exact State.wellFormed_setCur hs ((hf.setX rd _).retire.csrSet _ v _)
        · exact State.wellFormed_setCur hs ((hf.csrSet _ v _).setX rd _).retire

theorem execLui_keeps (rd : BitVec 5) (imm : BitVec 20) (hs : s.wellFormed = true) (run : execLui rd imm s = .next t) :
    t.wellFormed = true :=
  wellFormed_of_onHart hs run fun _ hf => State.wellFormed_setCur hs (hf.setX rd _).retire

theorem execAuipc_keeps (rd : BitVec 5) (imm : BitVec 20) (hs : s.wellFormed = true) (run : execAuipc rd imm s = .next t) :
    t.wellFormed = true :=
  wellFormed_of_onHart hs run fun _ hf => State.wellFormed_setCur hs (hf.setX rd _).retire

theorem execJal_keeps (rd : BitVec 5) (off : BitVec 20) (hs : s.wellFormed = true) (run : execJal rd off s = .next t) :
    t.wellFormed = true :=
  wellFormed_of_onHart hs run fun _ hf => State.wellFormed_jump hs hf rd (target_even hf.pc off)

theorem execJalr_keeps (rd rs1 : BitVec 5) (imm : BitVec 12) (hs : s.wellFormed = true)
    (run : execJalr rd rs1 imm s = .next t) : t.wellFormed = true := by
  refine wellFormed_of_onHart hs run fun h hf => State.wellFormed_jump hs hf rd ?_
  rw [BitVec.getLsbD_and]
  exact Bool.and_false _

theorem execEcall_keeps (hs : s.wellFormed = true) (run : execEcall s = .next t) : t.wellFormed = true :=
  wellFormed_of_onHart hs run fun _ _ => State.wellFormed_raise hs _ 0

theorem execEbreak_keeps (hs : s.wellFormed = true) (run : execEbreak s = .next t) : t.wellFormed = true := by
  refine wellFormed_of_onHart hs run fun h _ => ?_
  split
  · exact State.wellFormed_modCur hs fun _ formed => formed.withRun _
  · exact State.wellFormed_raise hs 3 h.pc

theorem execSret_keeps (hs : s.wellFormed = true) (run : execSret s = .next t) : t.wellFormed = true := by
  refine wellFormed_of_onHart hs run fun h hf => ?_
  split
  · exact State.wellFormed_raise hs 2 _
  · exact State.wellFormed_setCur hs (((hf.returnS hf.csr.sepc).retireTo hf.csr.sepc).withRun _)

theorem execMret_keeps (hs : s.wellFormed = true) (run : execMret s = .next t) : t.wellFormed = true := by
  refine wellFormed_of_onHart hs run fun h hf => ?_
  split
  · exact State.wellFormed_setCur hs (((hf.returnM hf.csr.mepc).retireTo hf.csr.mepc).withRun _)
  · exact State.wellFormed_raise hs 2 _

theorem execWfi_keeps (hs : s.wellFormed = true) (run : execWfi s = .next t) : t.wellFormed = true := by
  refine wellFormed_of_onHart hs run fun h hf => ?_
  split
  · exact State.wellFormed_raise hs 2 _
  · split
    · exact State.wellFormed_setCur hs hf.retire
    · exact State.wellFormed_setCur hs (hf.retire.withRun _)

end

end Sys2Proof.Machine

namespace Sys2Proof.Proofs

open Sys2Proof Sys2Proof.Machine

/-- Settles O60: each instruction by its shape. -/
theorem keepsWellFormed : Obligations.KeepsWellFormed := by
  unfold Obligations.KeepsWellFormed
  intro keeps
  refine ⟨fun rd rs1 rs2 => ?_, fun rd rs1 imm => ?_, fun rd rs1 amt => ?_, fun rd rs1 amt => ?_, fun rd imm => ?_,
    fun _ _ => execEcall_keeps, fun _ _ => execEbreak_keeps, fun _ _ => execSret_keeps, fun _ _ => execMret_keeps,
    fun _ _ => execWfi_keeps⟩
  · have rr := fun f => fun s t => @aluRR_keeps s t f rd rs1 rs2
    exact ⟨rr (· + ·), rr (· - ·), rr fun a b => a <<< (b.toNat % 64), rr fun a b => boolWord (a.slt b),
      rr fun a b => boolWord (a.ult b), rr (· ^^^ ·), rr fun a b => a >>> (b.toNat % 64),
      rr fun a b => a.sshiftRight (b.toNat % 64), rr (· ||| ·), rr (· &&& ·), rr (· * ·), rr fun a b => mulHigh a.toInt b.toInt,
      rr fun a b => mulHigh a.toInt b.toNat, rr fun a b => mulHigh a.toNat b.toNat, rr divS, rr divU, rr remS, rr remU,
      rr (onWords (· + ·)), rr (onWords (· - ·)), rr (onWords fun a b => a <<< (b.toNat % 32)),
      rr (onWords fun a b => a >>> (b.toNat % 32)), rr (onWords fun a b => a.sshiftRight (b.toNat % 32)), rr (onWords (· * ·)),
      rr (onWords divS), rr (onWords divU), rr (onWords remS), rr (onWords remU)⟩
  · have ri := fun f => fun s t => @aluRI_keeps s t f rd rs1 imm
    have br := fun c => fun s t => @branch_keeps s t c rd rs1 imm
    have csr {i : Instr} {f} (run : ∀ s, exec i s = csrOp i rd imm f s) : keeps i := fun s t hs h => csrOp_keeps hs (run s ▸ h)
    exact ⟨ri (· + ·), ri fun a b => boolWord (a.slt b), ri fun a b => boolWord (a.ult b), ri (· ^^^ ·), ri (· ||| ·), ri (· &&& ·),
      ri fun a b => wordResult (a + b), fun _ _ => execJalr_keeps rd rs1 imm, br (· == ·), br (· != ·), br fun a b => a.slt b,
      br fun a b => !a.slt b, br fun a b => a.ult b, br fun a b => !a.ult b,
      csr (exec_csrrw rd rs1 imm), csr (exec_csrrs rd rs1 imm), csr (exec_csrrc rd rs1 imm), csr (exec_csrrwi rd rs1 imm),
      csr (exec_csrrsi rd rs1 imm), csr (exec_csrrci rd rs1 imm)⟩
  · have sh := fun f => fun s t => @aluShift_keeps s t f rd rs1 amt.toNat
    exact ⟨sh (· <<< ·), sh (· >>> ·), sh fun a n => a.sshiftRight n⟩
  · have sh := fun f : Word → Nat → Word => fun s t => @aluShift_keeps s t (fun a n => sext64 (f (a.setWidth 32) n)) rd rs1 amt.toNat
    exact ⟨sh (· <<< ·), sh (· >>> ·), sh fun a n => a.sshiftRight n⟩
  · exact ⟨fun _ _ => execLui_keeps rd imm, fun _ _ => execAuipc_keeps rd imm, fun _ _ => execJal_keeps rd imm⟩

end Sys2Proof.Proofs
end

section
/-! The TLB instructions of the translation service core (R379 to R381) and the return behind an emulated instruction (R384). -/

namespace Sys2Proof.Machine

open Sys2Proof

/-! ## TLBs -/

theorem Map.findD_mapVal {α : Type} (m : Map α) (f : α → α) (n : Nat) {d : α} (hd : f d = d) :
    Map.findD (Map.mapVal m fun _ => f) n d = f (Map.findD m n d) := by
  unfold Map.findD
  rw [Map.find_mapVal]
  cases Map.find m n with
  | none => exact hd.symm
  | some a => rfl

/-- R303: an entry comes first in its TLB, and no other comes with it. -/
theorem tlbInsert_adds (cap fresh : Nat) (l : List Leaf) (e : Leaf) :
    ∃ rest, tlbInsert cap fresh l e = e :: rest ∧ ∀ o ∈ rest, o ∈ l := by
  refine ⟨_, rfl, fun o ho => ?_⟩
  split at ho
  · exact List.mem_of_mem_filter ho
  · exact List.mem_of_mem_filter (List.mem_of_mem_eraseIdx ho)

theorem State.tlbFill_cluster (s : State) (cl : Nat) (e : Leaf) :
    ((s.tlbFill cl e).cluster cl).tlb = tlbInsert 2048 s.fresh (s.cluster cl).tlb e := by
  have put := s.cluster_setCluster cl cl { s.cluster cl with tlb := tlbInsert 2048 s.fresh (s.cluster cl).tlb e }
  rw [if_pos rfl] at put
  exact congrArg Cluster.tlb put

theorem State.tlbFill_die (s : State) (cl : Nat) (e : Leaf) :
    ((s.tlbFill cl e).die (cl / 32)).tlb = tlbInsert 65536 (s.fresh + 1) (s.die (cl / 32)).tlb e := by
  have put := s.die_setDie (cl / 32) (cl / 32) { s.die (cl / 32) with tlb := tlbInsert 65536 (s.fresh + 1) (s.die (cl / 32)).tlb e }
  rw [if_pos rfl] at put
  exact congrArg Die.tlb put

section
variable (s : State) (part : Nat) (va : Option DWord) (asid : Option Nat)

theorem State.tlbRemove_core (c : Nat) :
    ((s.tlbRemove part va asid).core c).tlb = (s.core c).tlb.filter fun e => !e.matchesFence part va asid :=
  congrArg Core.tlb (Map.findD_mapVal s.cores (fun c => { c with tlb := c.tlb.filter fun e => !e.matchesFence part va asid }) c rfl)

theorem State.tlbRemove_cluster (c : Nat) :
    ((s.tlbRemove part va asid).cluster c).tlb = (s.cluster c).tlb.filter fun e => !e.matchesFence part va asid :=
  congrArg Cluster.tlb
    (Map.findD_mapVal s.clusters (fun c => { c with tlb := c.tlb.filter fun e => !e.matchesFence part va asid }) c rfl)

theorem State.tlbRemove_die (d : Nat) :
    ((s.tlbRemove part va asid).die d).tlb = (s.die d).tlb.filter fun e => !e.matchesFence part va asid :=
  congrArg Die.tlb (Map.findD_mapVal s.dies (fun d => { d with tlb := d.tlb.filter fun e => !e.matchesFence part va asid }) d rfl)

end

/-- R380: the entries that an invalidation names, one address or all, one ASID or all. -/
theorem Leaf.matchesFence_iff (e : Leaf) (part asid : Nat) (a : DWord) (anyVa anyAsid : Bool) :
    e.matchesFence part (if anyVa then none else some a) (if anyAsid then none else some asid) = true ↔
      e.part = part ∧ (anyVa = true ∨ vpnOf a / 2 ^ (pageBits e.size - 12) = e.vpn / 2 ^ (pageBits e.size - 12)) ∧
        (anyAsid = true ∨ (e.g = false ∧ e.asid = asid)) := by
  cases anyVa <;> cases anyAsid <;> simp [Leaf.matchesFence, and_assoc]

/-- R306: the levels of the TLBs that `tlbprobe` names. -/
theorem State.tlbFind_level {s : State} {core part asid : Nat} {va : DWord} {e : Leaf} {lvl : Nat}
    (found : s.tlbFind core part asid va = some (e, lvl)) : lvl < 4 := by
  unfold State.tlbFind at found
  split at found
  · cases found; decide
  · split at found
    · cases found; decide
    · split at found
      · cases found; decide
      · cases found

/-- R381: what `tlbprobe` writes: the entry found, or 0. -/
def probeAnswer (found : Option (Leaf × Nat)) (va : DWord) : DWord := found.elim 0 fun e => probeWord e.1 e.2 va

/-- R381: the fields of what `tlbprobe` writes, none of them cut. -/
theorem probeWord_eq (e : Leaf) (level : Nat) (va : DWord) (hl : level < 4) (hs : e.size < 4) (hg : e.gpa va / 4096 < 2 ^ 40) :
    probeWord e level va = BitVec.ofNat 64 (1 + level * 2 + e.size * 8 + b2n e.r * 32 + b2n e.w * 64 + b2n e.x * 128 +
      b2n e.u * 256 + b2n e.g * 512 + b2n e.d * 1024 + e.gpa va / 4096 * 4096) := by
  have flag (b : Bool) : b2n b % 2 ^ 1 = b2n b := by cases b <;> rfl
  have h1 : level % 2 ^ 2 = level := Nat.mod_eq_of_lt hl
  have h2 : e.size % 2 ^ 2 = e.size := Nat.mod_eq_of_lt hs
  have h3 : e.gpa va / 4096 % 2 ^ 40 = e.gpa va / 4096 := Nat.mod_eq_of_lt hg
  have sum : packFields [(0, 1, 1), (1, 2, level), (3, 2, e.size), (5, 1, b2n e.r), (6, 1, b2n e.w), (7, 1, b2n e.x),
      (8, 1, b2n e.u), (9, 1, b2n e.g), (10, 1, b2n e.d), (12, 40, e.gpa va / 4096)] =
      0 + 1 % 2 ^ 1 * 2 ^ 0 + level % 2 ^ 2 * 2 ^ 1 + e.size % 2 ^ 2 * 2 ^ 3 + b2n e.r % 2 ^ 1 * 2 ^ 5 + b2n e.w % 2 ^ 1 * 2 ^ 6 +
        b2n e.x % 2 ^ 1 * 2 ^ 7 + b2n e.u % 2 ^ 1 * 2 ^ 8 + b2n e.g % 2 ^ 1 * 2 ^ 9 + b2n e.d % 2 ^ 1 * 2 ^ 10 +
        e.gpa va / 4096 % 2 ^ 40 * 2 ^ 12 := rfl
  rw [probeWord, sum]
  simp only [flag, h1, h2, h3]
  rfl

/-! ## Instructions that retire beside an effect on the package -/

/-- R92: the acting hart retires in a state that keeps the harts and the memories. -/
theorem State.modCur_retire {s u : State} {h : Hart} (hc : s.hart? s.cur = some h) (harts : u.harts = s.harts) (cur : u.cur = s.cur)
    (mem : u.mem = s.mem) :
    let t := u.modCur fun k => k.retire 4
    ∃ h', t.hart? s.cur = some h' ∧ RetiresTo h h' (h.nextPc 4) ∧ h'.x = h.x ∧ h'.lanes = h.lanes ∧ h'.dev = h.dev ∧
      (∀ j, j ≠ s.cur → t.hart? j = s.hart? j) ∧ t.mem = s.mem := by
  have acting : u.hart? u.cur = some h := by rw [State.hart?, harts, cur]; exact hc
  obtain ⟨kx, kl, kd, -⟩ := Hart.retireTo_keeps h (h.nextPc 4)
  obtain ⟨act, others, rest⟩ := u.setCur_only (h.retire 4)
  intro t
  have ht : t = u.setCur (h.retire 4) := State.modCur_of u h _ acting
  rw [ht, ← cur]
  refine ⟨h.retire 4, act, Hart.retireTo_retires h _, kx, kl, kd, fun j hj => ?_, mem⟩
  rw [others j hj, State.hart?, State.hart?, harts]

/-! ## The return behind an emulated instruction (R384) -/

/-- R79: the status after `sret`. -/
theorem Hart.returnS_status (h : Hart) (pc : DWord) (b : Nat) : (h.returnS pc).csr.mstatus.getLsbD b =
    if b = 17 then false else if b = 8 then false else if b = 5 then true else if b = 1 then h.csr.mstatus.getLsbD 5
      else h.csr.mstatus.getLsbD b := by
  change (setBit (setBit (setBit (setBit h.csr.mstatus bitSIE (h.status bitSPIE)) bitSPIE true) bitSPP false) bitMPRV false).getLsbD b = _
  rw [getLsbD_setBit _ _ _ _ (by decide), getLsbD_setBit _ _ _ _ (by decide), getLsbD_setBit _ _ _ _ (by decide),
    getLsbD_setBit _ _ _ _ (by decide)]
  rfl

/-- R26: the length of a word that is no longer than 64 bits. -/
theorem State.skipLength_short (s : State) {w : Word} (hw : w.toNat % 128 ≠ 127) : s.skipLength w =
    (if w.toNat % 4 ≠ 3 then (2 : DWord) else if w.toNat % 32 ≠ 31 then 4 else if w.toNat % 64 = 31 then 6 else 8, s) := by
  unfold State.skipLength
  split
  · rfl
  · split
    · rfl
    · split
      · rfl
      · rw [if_pos (by omega)]

theorem State.skipLength_long (s : State) {w : Word} (hw : w.toNat % 128 = 127) : s.skipLength w = (s.free 64, s.drawn) := by
  unfold State.skipLength
  rw [if_neg (by omega), if_neg (by omega), if_neg (by omega), if_neg (by omega)]

/-- R384: the acting hart `h` is back from S, `len` bytes behind the instruction at `sepc`; the package is else `u`. -/
structure ReturnsBehind (u t : State) (h h' : Hart) (len : DWord) : Prop where
  alone : OnlyHart u t u.cur h'
  pc : h'.pc = h.csr.sepc + len
  priv : h'.priv = if h.csr.mstatus.getLsbD 8 then .S else .U
  kept : KeptByTrap h h'
  csr : h'.csr = { h.csr with mstatus := h'.csr.mstatus, minstret :=
    if h.csr.mcountinhibit.getLsbD 2 then h.csr.minstret else h.csr.minstret + 1 }
  status : ∀ b, h'.csr.mstatus.getLsbD b = if b = 17 then false else if b = 8 then false else if b = 5 then true
    else if b = 1 then h.csr.mstatus.getLsbD 5 else h.csr.mstatus.getLsbD b

theorem returnsBehind_of {u : State} {h : Hart} (hc : u.hart? u.cur = some h) (len : DWord) (now : Nat) :
    ∃ h', ReturnsBehind u (u.modCur fun k => (((k.returnS k.csr.sepc).retireTo (k.csr.sepc + len)).hangClear now)) h h' len := by
  obtain ⟨rpc, rpriv, rtsc, rrole, rcsr⟩ := Hart.retireTo_retires (h.returnS h.csr.sepc) (h.csr.sepc + len)
  obtain ⟨kx, kl, kd, -⟩ := Hart.retireTo_keeps (h.returnS h.csr.sepc) (h.csr.sepc + len)
  refine ⟨((h.returnS h.csr.sepc).retireTo (h.csr.sepc + len)).hangClear now, ?_, rpc, rpriv, ⟨kx, kl, kd, rtsc, rrole⟩, ?_, fun b => ?_⟩
  · rw [State.modCur_of u h _ hc]
    exact u.setCur_only _
  · rw [Hart.hangClear, rcsr]
    rfl
  · change ((h.returnS h.csr.sepc).retireTo (h.csr.sepc + len)).csr.mstatus.getLsbD b = _
    rw [rcsr]
    exact h.returnS_status h.csr.sepc b

end Sys2Proof.Machine

namespace Sys2Proof.Proofs

open Sys2Proof Sys2Proof.Machine

section
variable {s : State} {h : Hart} (hc : s.hart? s.cur = some h)
include hc

/-- R379: `tlbw` of a leaf, which an invalidation in progress cancels. -/
theorem tlbw_enters (tsc : h.tsc = true) (mach : h.priv = .M) {x1 x2 : BitVec 5} {e : Leaf}
    (leaf : tlbwLeaf (h.getX x1) (h.getX x2) = some e) :
    exec (.tlbw x1 x2) s = .next ((if s.cancelled e then s else s.tlbFill (clusterOf s.cur) e).modCur fun k => k.retire 4) := by
  refine (onHart_of s h _ hc).trans (congrArg Host.Outcome.next ?_)
  simp only [tsc, mach, bne_self_eq_false, Bool.not_true, Bool.or_false, Bool.false_eq_true, if_false, leaf]

/-- R380: `tlbinv`, where the upper bits of its control word are 0. -/
theorem tlbinv_removes (tsc : h.tsc = true) (mach : h.priv = .M) {x1 x2 : BitVec 5} (hb : (h.getX x2).toNat < 2 ^ 24) :
    exec (.tlbinv x1 x2) s = .next ((s.tlbRemove (bits (h.getX x2).toNat 5 0)
      (if (h.getX x2).getLsbD 22 then none else some (h.getX x1))
      (if (h.getX x2).getLsbD 23 then none else some (bits (h.getX x2).toNat 21 6))).modCur fun k => k.retire 4) := by
  have upper : (bits (h.getX x2).toNat 63 24 != 0) = false := by
    rw [bits, Nat.div_eq_of_lt hb]
    rfl
  refine (onHart_of s h _ hc).trans (congrArg Host.Outcome.next ?_)
  simp only [tsc, mach, upper, bne_self_eq_false, Bool.not_true, Bool.or_false, Bool.false_eq_true, if_false]
  rfl

/-- R381: `tlbprobe`, when its answer has come. -/
theorem tlbprobe_reports (priv : h.priv ≠ .U) (now : s.latency = 0) (x1 x2 : BitVec 5) {v : DWord}
    (hv : probeAnswer (s.tlbFind (coreOf s.cur) h.role.part (satpAsid h.csr.satp) (h.getX x2)) (h.getX x2) = v) :
    ∃ t h', exec (.tlbprobe x1 x2) s = .next t ∧ t.hart? s.cur = some h' ∧ RetiresTo h h' (h.nextPc 4) ∧ writesX h h' x1 v ∧
      { t with harts := s.harts, latencies := s.latencies } = s := by
  obtain ⟨alone, retires, x, -⟩ := s.popLatency.scalar_step h x1 v 4
  refine ⟨_, _, (onHart_of s h _ hc).trans (congrArg Host.Outcome.next ?_), alone.acting, retires, x, rfl⟩
  rw [if_neg priv, if_neg (not_not.2 now), ← hv]
  dsimp only
  cases s.tlbFind (coreOf s.cur) h.role.part (satpAsid h.csr.satp) (h.getX x2) with
  | none => exact State.modCur_of s.popLatency h _ hc
  | some e => exact State.modCur_of s.popLatency h _ hc

/-- R384: `retx` behind the word at `sepc`, or behind the pair that the word begins. -/
theorem retx_returns {w : Word} (allowed : h.priv = .M ∨ (h.priv = .S ∧ h.csr.mstatus.getLsbD 22 = false)) {n : DWord} {u : State}
    (cur : u.cur = s.cur) (harts : u.harts = s.harts) (fetched : s.fetchWord h h.csr.sepc = .ok w s)
    (skip : (¬ (w.toNat % 128 = 0x5B ∧ w.toNat / 2 ^ 12 % 8 = 0) ∧ s.skipLength w = (n, u)) ∨
      ((w.toNat % 128 = 0x5B ∧ w.toNat / 2 ^ 12 % 8 = 0) ∧
        ∃ w2 m, s.fetchWord h (h.csr.sepc + 4) = .ok w2 s ∧ s.skipLength w2 = (m, u) ∧ n = 4 + m)) :
    ∃ t h', exec .retx s = .next t ∧ ReturnsBehind u t h h' n := by
  have notUser : ¬ (h.priv = .U ∨ (h.priv = .S ∧ h.status bitTSR = true)) := by
    have tsr : h.status bitTSR = h.csr.mstatus.getLsbD 22 := rfl
    rintro (user | ⟨sup, on⟩)
    · rw [user] at allowed
      simp at allowed
    · rw [tsr] at on
      rw [sup, on] at allowed
      simp at allowed
  have acting : u.hart? u.cur = some h := by rw [State.hart?, harts, cur]; exact hc
  obtain ⟨h', back⟩ := returnsBehind_of acting n s.now
  refine ⟨_, h', (onHart_of s h _ hc).trans (congrArg Host.Outcome.next ?_), back⟩
  rw [if_neg notUser, fetched]
  rcases skip with ⟨plain, len⟩ | ⟨pre, w2, m, second, len, rfl⟩
  · change Acc.done (if w.toNat % 128 = 0x5B ∧ w.toNat / 2 ^ 12 % 8 = 0 then _ else _) _ = _
    rw [if_neg plain, len]
    rfl
  · change Acc.done (if w.toNat % 128 = 0x5B ∧ w.toNat / 2 ^ 12 % 8 = 0 then _ else _) _ = _
    rw [if_pos pre, second]
    change Acc.done (.ok (4 + (s.skipLength w2).1) (s.skipLength w2).2) _ = _
    rw [len]
    rfl

end

/-- Settles O43. -/
theorem translationInstructions : Obligations.TranslationInstructions := by
  unfold Obligations.TranslationInstructions
  refine ⟨fun s h x1 x2 hc => ?_, fun s h w hc allowed fetched => ?_⟩
  · intro a b f retires
    refine ⟨fun tsc mach ha hb => ?_, fun tsc mach hb => ?_, fun priv now h0 => ?_⟩
    · intro e k hg hv added
      have leaf : tlbwLeaf a b = some e := by
        rw [tlbwLeaf]
        exact if_neg (by rintro (c | c | c | c) <;> contradiction)
      refine ⟨_, tlbw_enters hc tsc mach leaf, ?_, fun yes => ?_, fun no => ?_⟩
      · split
        · exact State.modCur_retire hc rfl rfl rfl
        · exact State.modCur_retire hc rfl rfl rfl
      · rw [if_pos yes, State.modCur_of _ _ _ hc]
        exact ⟨rfl, rfl⟩
      · have acting : (s.tlbFill (clusterOf s.cur) e).hart? s.cur = some h := hc
        rw [no, if_neg Bool.false_ne_true, State.modCur_of (s.tlbFill (clusterOf s.cur) e) _ _ acting]
        obtain ⟨rest, hr, old⟩ := tlbInsert_adds 2048 s.fresh (s.cluster (clusterOf s.cur)).tlb e
        obtain ⟨rest', hr', old'⟩ := tlbInsert_adds 65536 (s.fresh + 1) (s.die (clusterOf s.cur / 32)).tlb e
        exact ⟨⟨rest, (s.tlbFill_cluster _ e).trans hr, old⟩, ⟨rest', (s.tlbFill_die _ e).trans hr', old'⟩⟩
    · intro gone cut
      have acting {v a p} : (s.tlbRemove p v a).hart? s.cur = some h := hc
      have filtered {l : List Leaf} : cut l (l.filter fun e => !e.matchesFence (bits b.toNat 5 0)
          (if b.getLsbD 22 then none else some a) (if b.getLsbD 23 then none else some (bits b.toNat 21 6))) := by
        intro e
        rw [List.mem_filter, Bool.not_eq_true', ← Bool.not_eq_true, Leaf.matchesFence_iff]
        exact Iff.rfl
      refine ⟨_, tlbinv_removes hc tsc mach hb, State.modCur_retire hc rfl rfl rfl, ?_⟩
      rw [State.modCur_of (s.tlbRemove _ _ _) _ _ acting]
      refine ⟨fun c => ?_, fun c => ?_, fun d => ?_⟩
      · change cut _ (((s.tlbRemove _ _ _).core c).tlb)
        rw [State.tlbRemove_core]
        exact filtered
      · change cut _ (((s.tlbRemove _ _ _).cluster c).tlb)
        rw [State.tlbRemove_cluster]
        exact filtered
      · change cut _ (((s.tlbRemove _ _ _).die d).tlb)
        rw [State.tlbRemove_die]
        exact filtered
    · intro n found
      refine ⟨fun e lvl hit hs hgpa => tlbprobe_reports hc priv now x1 x2 ?_, fun miss => tlbprobe_reports hc priv now x1 x2 ?_⟩
      · exact (congrArg (probeAnswer · b) hit).trans (probeWord_eq e lvl b (State.tlbFind_level hit) hs hgpa)
      · exact congrArg (probeAnswer · b) miss
  · intro skips pairs long len
    have behind {u : State} {n : DWord} (cur : u.cur = s.cur)
        (back : ∃ t h', exec .retx s = .next t ∧ ReturnsBehind u t h h' n) : skips u n := by
      obtain ⟨t, h', run, alone, pc, priv, kept, csr, status⟩ := back
      refine ⟨t, h', run, cur ▸ alone, pc, priv, kept, csr, (status 1).trans rfl, status 5, status 8, status 17, fun b h1 h5 h8 h17 => ?_⟩
      rw [status b, if_neg h17, if_neg h8, if_neg h5, if_neg h1]
    have retx := fun {n u} c g => @retx_returns s h hc w allowed n u c g fetched
    refine ⟨fun plain short => ?_, fun far => ?_, fun w2 pre second => ⟨fun short => ?_, fun far => ?_⟩⟩
    · exact behind rfl (retx rfl rfl (.inl ⟨plain, s.skipLength_short short⟩))
    · have plain : ¬ pairs := fun c => absurd (c.1.symm.trans far) (by decide)
      exact behind rfl (retx rfl rfl (.inl ⟨plain, s.skipLength_long far⟩))
    · exact behind rfl (retx rfl rfl (.inr ⟨pre, w2, _, second, s.skipLength_short short, rfl⟩))
    · exact behind rfl (retx rfl rfl (.inr ⟨pre, w2, _, second, s.skipLength_long far, rfl⟩))

end Sys2Proof.Proofs
end

section
/-! What a lane instruction leaves (R60, R225, R230): the active lanes' results put one after the other, and the elements of a
lane's value. -/

namespace Sys2Proof.Machine

open Sys2Proof

/-! ## Elements of a lane's value (R38, R60) -/

/-- R32: the bits of a lane's value: a register's, or a pair's. -/
def Ty.laneBits (t : Ty) : Nat := if t = .f64 then 64 else 32

theorem Ty.width_mul_count (t : Ty) : Ty.width t * Ty.count t = Ty.laneBits t := by cases t <;> rfl

theorem Ty.width_pos (t : Ty) : 0 < Ty.width t := by cases t <;> decide

theorem elemOf_lt (t : Ty) (v k : Nat) : elemOf t v k < 2 ^ Ty.width t := Nat.mod_lt _ (Nat.two_pow_pos _)

/-- An element of a lane's value is cut by no register. -/
theorem elemOf_mod {t : Ty} {k : Nat} (hk : k < Ty.count t) (v : Nat) : elemOf t (v % 2 ^ Ty.laneBits t) k = elemOf t v k := by
  obtain ⟨n, hn⟩ : ∃ n, Ty.count t = k + (n + 1) := ⟨Ty.count t - k - 1, by omega⟩
  have split : 2 ^ Ty.laneBits t = 2 ^ (Ty.width t * k) * 2 ^ (Ty.width t * (n + 1)) := by
    rw [← Ty.width_mul_count, hn, Nat.mul_add, Nat.pow_add]
  rw [elemOf, elemOf, split, Nat.mod_mul_right_div_self, Nat.mod_mod_of_dvd]
  exact Nat.pow_dvd_pow 2 (Nat.le_mul_of_pos_right _ (Nat.succ_pos n))

/-- Element k of a lane's value put together. -/
theorem elemOf_joinElems (t : Ty) (es : List Nat) {k : Nat} (hk : k < es.length) :
    elemOf t (joinElems t es) k = es[k] % 2 ^ Ty.width t := by
  induction es generalizing k with
  | nil => cases hk
  | cons e es ih =>
    rw [joinElems]
    cases k with
    | zero =>
      rw [elemOf, Nat.mul_zero, Nat.pow_zero, Nat.div_one, Nat.add_mul_mod_self_left, Nat.mod_mod]
      rfl
    | succ k =>
      have high : (e % 2 ^ Ty.width t + 2 ^ Ty.width t * joinElems t es) / 2 ^ Ty.width t = joinElems t es := by
        rw [Nat.add_mul_div_left _ _ (Nat.two_pow_pos _), Nat.div_eq_of_lt (Nat.mod_lt _ (Nat.two_pow_pos _)), Nat.zero_add]
      have step : elemOf t (e % 2 ^ Ty.width t + 2 ^ Ty.width t * joinElems t es) (k + 1) = elemOf t (joinElems t es) k := by
        rw [elemOf, elemOf, Nat.mul_succ, Nat.add_comm (Ty.width t * k), Nat.pow_add, ← Nat.div_div_eq_div_mul, high]
      rw [step, ih (Nat.lt_of_succ_lt_succ hk)]
      rfl

/-! ## A lane's value written -/

theorem append_halves (v : DWord) : (v.extractLsb' 32 32 ++ v.setWidth 32 : DWord) = v := by
  apply BitVec.eq_of_getLsbD_eq
  intro i hi
  rw [BitVec.getLsbD_append]
  by_cases low : i < 32
  · simp [low]
  · simp only [low, BitVec.getLsbD_extractLsb', show i - 32 < 32 by omega, decide_true, Bool.true_and,
      show 32 + (i - 32) = i by omega, if_false]

section
variable {h : Hart} (sorted : Map.sorted h.lanes.v = true) {l : Nat} (hl : l < 32) (t : Ty) (r v : Nat)
include sorted

theorem Hart.sorted_setLaneVal : Map.sorted (h.setLaneVal t r l v).lanes.v = true := by
  unfold Hart.setLaneVal Hart.setPair
  split
  · exact Hart.sorted_setV _ _ _ _ (Hart.sorted_setV _ _ _ _ sorted)
  · exact Hart.sorted_setV _ _ _ _ sorted

include hl

theorem Hart.getV_setLaneVal {q m : Nat} (hm : m < 32) (other : q ∉ destRegs t r ∨ m ≠ l) :
    (h.setLaneVal t r l v).getV q m = h.getV q m := by
  unfold Hart.setLaneVal Hart.setPair
  unfold destRegs at other
  split
  · next wide =>
    rw [if_pos wide] at other
    have apart : ¬ (q = r + 1 ∧ m = l) ∧ ¬ (q = r ∧ m = l) := by
      simp only [List.mem_cons, List.not_mem_nil, or_false] at other
      tauto
    rw [Hart.getV_setV _ _ _ _ _ _ (Hart.sorted_setV _ _ _ _ sorted) hl hm, if_neg apart.1,
      Hart.getV_setV _ _ _ _ _ _ sorted hl hm, if_neg apart.2]
  · next narrow =>
    rw [if_neg narrow, List.mem_singleton] at other
    rw [Hart.getV_setV _ _ _ _ _ _ sorted hl hm, if_neg (by tauto)]

theorem Hart.laneVal_setLaneVal : (h.setLaneVal t r l v).laneVal t r l = v % 2 ^ Ty.laneBits t := by
  unfold Hart.setLaneVal Hart.laneVal Hart.setPair Hart.getPair Ty.laneBits
  split
  · rw [Hart.getV_setV _ _ _ _ _ _ (Hart.sorted_setV _ _ _ _ sorted) hl hl, if_pos ⟨rfl, rfl⟩,
      Hart.getV_setV _ _ _ _ _ _ (Hart.sorted_setV _ _ _ _ sorted) hl hl, if_neg (by omega),
      Hart.getV_setV _ _ _ _ _ _ sorted hl hl, if_pos ⟨rfl, rfl⟩, append_halves, BitVec.toNat_ofNat]
  · rw [Hart.getV_setV _ _ _ _ _ _ sorted hl hl, if_pos ⟨rfl, rfl⟩, BitVec.toNat_ofNat]

end

/-- What a lane's value is read from. -/
theorem Hart.laneVal_congr {h k : Hart} {t : Ty} {r l : Nat} (same : ∀ q, k.getV q l = h.getV q l) :
    k.laneVal t r l = h.laneVal t r l := by
  simp only [Hart.laneVal, Hart.getPair, same]

/-! ## The results of lanes, one after the other -/

/-- R60, R225: a lane's value, flags and stochastic state put in place. -/
def Hart.putLane (t : Ty) (vd : Nat) (out : Nat → Nat × FlagSet × Word) (h : Hart) (l : Nat) : Hart :=
  ((h.setLaneVal t vd l (out l).1).raiseFlags l (out l).2.1).setSr l (out l).2.2

/-- Hart `h` is `k` after the lanes `ls` have put their results. -/
structure LanesPut (h k : Hart) (t : Ty) (vd : Nat) (out : Nat → Nat × FlagSet × Word) (ls : List Nat) : Prop where
  frame : k = { h with
    lanes := { h.lanes with v := k.lanes.v, sticky := k.lanes.sticky, sr := k.lanes.sr }
    dev := { h.dev with lflags := ls.foldl (fun a l => a ||| (out l).2.1.bits) h.dev.lflags } }
  other : ∀ r l, l < 32 → (r ∉ destRegs t vd ∨ l ∉ ls) → k.getV r l = h.getV r l
  value : ∀ l, l < 32 → l ∈ ls → k.laneVal t vd l = (out l).1 % 2 ^ Ty.laneBits t
  sticky : ∀ l (hl : l < 32), k.lanes.sticky[l] = if l ∈ ls then h.lanes.sticky[l] ||| (out l).2.1.bits else h.lanes.sticky[l]
  sr : ∀ l (hl : l < 32), k.lanes.sr[l] = if l ∈ ls then (out l).2.2 else h.lanes.sr[l]

theorem Vector.getD_of_lt {α : Type} {n : Nat} (v : Vector α n) (d : α) {i : Nat} (hi : i < n) : v.getD i d = v[i] := by
  simp [Vector.getD, hi]

theorem Vector.getElem_set!_ite {α : Type} {n : Nat} (v : Vector α n) (i : Nat) (a : α) (j : Nat) (hj : j < n) :
    (v.set! i a)[j] = if j = i then a else v[j] := by
  rw [Vector.set!_eq_setIfInBounds, Vector.getElem_setIfInBounds]
  by_cases e : i = j
  · rw [if_pos e, if_pos e.symm]
  · rw [if_neg e, if_neg (Ne.symm e)]

section
variable (t : Ty) (vd : Nat) (out : Nat → Nat × FlagSet × Word)

theorem Hart.setLaneVal_frame (h : Hart) (l v : Nat) :
    h.setLaneVal t vd l v = { h with lanes := { h.lanes with v := (h.setLaneVal t vd l v).lanes.v } } := by
  unfold Hart.setLaneVal
  split <;> rfl

theorem Hart.putLane_frame (h : Hart) (l : Nat) : h.putLane t vd out l = { h with
    lanes := { h.lanes with v := (h.setLaneVal t vd l (out l).1).lanes.v
                            sticky := h.lanes.sticky.set! l (h.lanes.sticky.getD l 0 ||| (out l).2.1.bits)
                            sr := h.lanes.sr.set! l (out l).2.2 }
    dev := { h.dev with lflags := h.dev.lflags ||| (out l).2.1.bits } } := by
  rw [Hart.putLane, Hart.setLaneVal_frame]
  rfl

theorem Hart.getV_putLane (h : Hart) (l q m : Nat) : (h.putLane t vd out l).getV q m = (h.setLaneVal t vd l (out l).1).getV q m := rfl

/-- R60, R225, R230: the lanes' results put in place. -/
theorem lanesPut_foldl (ls : List Nat) {h : Hart} (sorted : Map.sorted h.lanes.v = true) (small : ∀ l ∈ ls, l < 32) :
    LanesPut h (ls.foldl (Hart.putLane t vd out) h) t vd out ls := by
  induction ls generalizing h with
  | nil => exact ⟨rfl, fun _ _ _ _ => rfl, fun _ _ c => absurd c List.not_mem_nil, fun _ _ => rfl, fun _ _ => rfl⟩
  | cons l ls ih =>
    have hl := small l List.mem_cons_self
    have sorted1 : Map.sorted (h.putLane t vd out l).lanes.v = true := Hart.sorted_setLaneVal sorted t vd (out l).1
    obtain ⟨frame, other, value, sticky, sr⟩ := ih sorted1 fun m hm => small m (List.mem_cons_of_mem _ hm)
    have first := h.putLane_frame t vd out l
    rw [List.foldl_cons]
    generalize ls.foldl (Hart.putLane t vd out) (h.putLane t vd out l) = k at *
    refine ⟨?_, fun r m hm c => ?_, fun m hm c => ?_, fun m hm => ?_, fun m hm => ?_⟩
    · rw [frame, first]
      rfl
    · rw [other r m hm (c.imp_right fun c d => c (List.mem_cons_of_mem _ d)), Hart.getV_putLane,
        Hart.getV_setLaneVal sorted hl t vd _ hm (c.imp_right fun c e => c (e ▸ List.mem_cons_self))]
    · by_cases again : m ∈ ls
      · exact value m hm again
      · obtain rfl : m = l := (List.mem_cons.1 c).resolve_right again
        rw [Hart.laneVal_congr fun q => other q m hm (.inr again)]
        exact Hart.laneVal_setLaneVal sorted hl t vd (out m).1
    · have at_l : (h.putLane t vd out l).lanes.sticky[m] =
          if m = l then h.lanes.sticky[l] ||| (out l).2.1.bits else h.lanes.sticky[m] := by
        simp only [first, Vector.getElem_set!_ite, Vector.getD_of_lt _ _ hl]
      rw [sticky m hm, at_l]
      by_cases e : m = l
      · subst e
        by_cases again : m ∈ ls
        · rw [if_pos again, if_pos rfl, if_pos List.mem_cons_self, BitVec.or_assoc, BitVec.or_self]
        · rw [if_neg again, if_pos rfl, if_pos List.mem_cons_self]
      · simp only [List.mem_cons, e, false_or, if_false]
    · have at_l : (h.putLane t vd out l).lanes.sr[m] = if m = l then (out l).2.2 else h.lanes.sr[m] := by
        simp only [first, Vector.getElem_set!_ite]
      rw [sr m hm, at_l]
      by_cases e : m = l
      · subst e
        simp only [if_true, List.mem_cons, true_or, ite_self]
      · simp only [List.mem_cons, e, false_or, if_false]

end

/-- An instruction that does not round leaves the stochastic state as it is. -/
theorem Hart.putLane_of_keepsSr {h k : Hart} {t : Ty} {vd l : Nat} {r : Nat × FlagSet} (hl : l < 32) (same : k.lanes.sr = h.lanes.sr) :
    (k.setLaneVal t vd l r.1).raiseFlags l r.2 = k.putLane t vd (fun m => (r.1, r.2, h.srOf m)) l := by
  have again : k.lanes.sr.set! l (h.lanes.sr.getD l 0) = k.lanes.sr := by
    rw [same]
    apply Vector.ext
    intro m hm
    rw [Vector.getElem_set!_ite]
    split
    · next e =>
      subst e
      simp [Vector.getD, hm]
    · rfl
  rw [Hart.putLane_frame, Hart.srOf, again, Hart.setLaneVal_frame]
  rfl

theorem foldl_putLane_of_keepsSr {h : Hart} (t : Ty) (vd : Nat) (f : Nat → Nat × FlagSet) (ls : List Nat) (small : ∀ l ∈ ls, l < 32)
    {k : Hart} (same : k.lanes.sr = h.lanes.sr) :
    ls.foldl (fun k l => (k.setLaneVal t vd l (f l).1).raiseFlags l (f l).2) k =
      ls.foldl (Hart.putLane t vd fun l => ((f l).1, (f l).2, h.srOf l)) k := by
  induction ls generalizing k with
  | nil => rfl
  | cons l ls ih =>
    rw [List.foldl_cons, List.foldl_cons, ih fun m hm => small m (List.mem_cons_of_mem _ hm)]
    · rw [Hart.putLane_of_keepsSr (small l List.mem_cons_self) same]
      rfl
    · rw [Hart.setLaneVal_frame]
      exact same

/-! ## Lane instructions (R60, R230) -/

/-- R60, R225, R230: instruction `i` gives the active lanes of a guard the values, flags and stochastic states `out`. -/
def LaneGives (s : State) (h : Hart) (o : Out) (len : Nat) (t : Ty) (g : Guard) (vd : Nat) (out : Nat → Nat × FlagSet × Word) : Prop :=
  ∃ u h', o = .next u ∧
    LaneStep s u h h' { laneEffect h len g (destRegs t vd) [] with raised := fun l => (out l).2.1.bits, sr := fun l => (out l).2.2 } ∧
    ∀ l, l < 32 → h.active g l = true → h'.laneVal t vd l = (out l).1 % 2 ^ Ty.laneBits t

theorem laneStep_of_lanesPut {s : State} {h k : Hart} {t : Ty} {vd : Nat} {out : Nat → Nat × FlagSet × Word} {g : Guard}
    (put : LanesPut h k t vd out (h.activeLanes g)) (len : Nat) :
    LaneStep s (s.setCur (k.retire len)) h (k.retire len)
      { laneEffect h len g (destRegs t vd) [] with raised := fun l => (out l).2.1.bits, sr := fun l => (out l).2.2 } := by
  obtain ⟨frame, other, -, sticky, sr⟩ := put
  obtain ⟨kx, kl, kd, kr⟩ := Hart.retireTo_keeps k (k.nextPc len)
  rw [← Hart.retire_eq] at kx kl kd kr
  have pc : k.nextPc len = h.nextPc len := by rw [frame]; rfl
  have acts (l : Nat) (hl : l < 32) : l ∈ h.activeLanes g ↔ h.active g l = true := by
    rw [mem_activeLanes]
    exact and_iff_right hl
  refine ⟨s.setCur_only _, ?_, ?_, fun r l hl c => ?_, fun q l _ => ?_, fun l hl => ?_, fun l hl => ?_, ?_, ?_, ?_⟩
  · rw [Hart.retire_eq, pc]
    refine (Hart.retireTo_retires k _).of_same ?_ ?_ ?_ ?_ <;> rw [frame]
  · rw [kx, frame]
  · rw [Hart.getV, kl]
    refine other r l hl (c.imp_right fun off on => ?_)
    exact Bool.false_ne_true (off.symm.trans ((acts l hl).1 on))
  · rw [Hart.getP, kl, frame]
    rfl
  · simp only [kl, sticky l hl, acts l hl]
    rfl
  · simp only [kl, sr l hl, acts l hl]
    rfl
  · rw [kl, frame]
  · rw [kd, frame]
    have fold : (h.activeLanes g).foldl (fun a l => a ||| (out l).2.1.bits) h.dev.lflags =
        allLanes.foldl (fun a l => if h.active g l then a ||| (out l).2.1.bits else a) h.dev.lflags := List.foldl_filter
    rw [fold]
    rfl
  · rw [kr, Hart.settle, frame]
    rfl

section
variable {s : State} {h : Hart} (hc : s.hart? s.cur = some h) (unlent : h.run.lent = []) (sorted : Map.sorted h.lanes.v = true)
include unlent sorted

theorem roundLanes_gives (len : Nat) (t : Ty) (g : Guard) (vd : Nat) (out : Nat → Nat × FlagSet × Word) :
    LaneGives s h (roundLanes len t g vd out s h) len t g vd out := by
  have put := lanesPut_foldl t vd out (h.activeLanes g) sorted fun l hl => ((mem_activeLanes h g l).1 hl).1
  refine ⟨_, _, ?_, laneStep_of_lanesPut put len, fun l hl on => ?_⟩
  · refine congrArg Host.Outcome.next ?_
    rw [State.laneDone, unlent, List.isEmpty_nil, Bool.not_true, Bool.and_false]
    rfl
  · rw [← put.value l hl ((mem_activeLanes h g l).2 ⟨hl, on⟩)]
    refine Hart.laneVal_congr fun q => ?_
    rw [Hart.getV, Hart.retire_lanes]
    rfl

include hc

theorem laneOp_gives (len : Nat) (t : Ty) (g : Guard) (vd : Nat) (f : Hart → Nat → Nat × FlagSet) :
    LaneGives s h (laneOp len t g vd f s) len t g vd fun l => ((f h l).1, (f h l).2, h.srOf l) := by
  have same := foldl_putLane_of_keepsSr t vd (f h) (h.activeLanes g) (fun l hl => ((mem_activeLanes h g l).1 hl).1) (k := h) rfl
  have run : laneOp len t g vd f s = roundLanes len t g vd (fun l => ((f h l).1, (f h l).2, h.srOf l)) s h := by
    refine (onHart_of s h _ hc).trans (congrArg Host.Outcome.next ?_)
    exact congrArg (fun k => s.laneDone h k (destRegs t vd) (!(h.activeLanes g).isEmpty) len) same
  rw [run]
  exact roundLanes_gives unlent sorted len t g vd _

end

/-! ## Flags (R225) -/

theorem FlagSet.bits_or (a b : FlagSet) : (a.or b).bits = a.bits ||| b.bits := by
  obtain ⟨a1, a2, a3, a4, a5, a6⟩ := a
  obtain ⟨b1, b2, b3, b4, b5, b6⟩ := b
  have pair {n : Nat} (x y : BitVec n) (a b : Bool) :
      (x ||| y) ++ BitVec.ofBool (a || b) = (x ++ BitVec.ofBool a) ||| (y ++ BitVec.ofBool b) := by
    rw [BitVec.or_append, BitVec.ofBool_or_ofBool]
  have first : BitVec.ofBool (a1 || b1) = BitVec.ofBool a1 ||| BitVec.ofBool b1 := BitVec.ofBool_or_ofBool.symm
  have all : BitVec.ofBool (a1 || b1) ++ BitVec.ofBool (a2 || b2) ++ BitVec.ofBool (a3 || b3) ++ BitVec.ofBool (a4 || b4) ++
      BitVec.ofBool (a5 || b5) ++ BitVec.ofBool (a6 || b6) =
      (BitVec.ofBool a1 ++ BitVec.ofBool a2 ++ BitVec.ofBool a3 ++ BitVec.ofBool a4 ++ BitVec.ofBool a5 ++ BitVec.ofBool a6) |||
      (BitVec.ofBool b1 ++ BitVec.ofBool b2 ++ BitVec.ofBool b3 ++ BitVec.ofBool b4 ++ BitVec.ofBool b5 ++ BitVec.ofBool b6) := by
    rw [first, pair, pair, pair, pair, pair]
  exact all

theorem noFlags_bits : noFlags.bits = 0#6 := rfl

end Sys2Proof.Machine
end

section
/-! The lane integer operations (R238, R239): the exact results, as the statements write them, and their clamp. -/

namespace Sys2Proof.Machine

open Sys2Proof

/-! ## Readings of a pattern (R238) -/

theorem two_pow_width (t : Ty) : 2 * 2 ^ (Ty.width t - 1) = 2 ^ Ty.width t := by
  rw [← Nat.pow_succ', Nat.succ_eq_add_one, Nat.sub_add_cancel (Ty.width_pos t)]

section
variable {t : Ty} {a b : Nat} (ha : a < 2 ^ Ty.width t) (hb : b < 2 ^ Ty.width t)
include ha

theorem toNat_ofNat_width : (BitVec.ofNat (Ty.width t) a).toNat = a := by rw [BitVec.toNat_ofNat, Nat.mod_eq_of_lt ha]

theorem asSigned_eq_toInt : asSigned (Ty.width t) a = (BitVec.ofNat (Ty.width t) a).toInt := by
  have half := two_pow_width t
  rw [BitVec.toInt_eq_toNat_cond, toNat_ofNat_width ha, asSigned]
  by_cases low : a < 2 ^ (Ty.width t - 1)
  · rw [if_pos low, if_pos (by omega)]
  · rw [if_neg low, if_neg (by omega)]
    norm_cast

/-- R238: an element read as its type reads it. -/
theorem asInt_eq : asInt t a = if t = .n32 then (a : Int) else readSigned (Ty.width t) a := by
  rw [asInt, asSigned_eq_toInt ha]
  rfl

theorem leadZeros_eq : (leadZeros (Ty.width t) a : Int) =
    if a = 0 then (Ty.width t : Int) else (Ty.width t - 1 - Nat.log2 a : Int) := by
  rw [leadZeros]
  by_cases zero : a = 0
  · rw [if_pos zero, if_pos zero]
  · have below : Nat.log2 a < Ty.width t := (Nat.log2_lt zero).2 ha
    rw [if_neg zero, if_neg zero]
    omega

theorem intShr_eq (n : Nat) : a / 2 ^ n = (BitVec.ofNat (Ty.width t) a >>> n).toNat := by
  rw [BitVec.toNat_ushiftRight, toNat_ofNat_width ha, Nat.shiftRight_eq_div_pow]

/-- R239: a rotation, as the sum of its two parts. -/
theorem intRot_eq {n : Nat} (hn : n < Ty.width t) :
    a * 2 ^ n % 2 ^ Ty.width t + a / 2 ^ (Ty.width t - n) = ((BitVec.ofNat (Ty.width t) a).rotateLeft n).toNat := by
  have split : 2 ^ Ty.width t = 2 ^ n * 2 ^ (Ty.width t - n) := by rw [← Nat.pow_add]; congr 1; omega
  have upper : a * 2 ^ n % 2 ^ Ty.width t = 2 ^ n * (a % 2 ^ (Ty.width t - n)) := by
    rw [split, Nat.mul_comm a, Nat.mul_mod_mul_left]
  have lower : a / 2 ^ (Ty.width t - n) < 2 ^ n := by
    rw [Nat.div_lt_iff_lt_mul (Nat.two_pow_pos _), ← split]
    exact ha
  rw [BitVec.toNat_rotateLeft, Nat.mod_eq_of_lt hn, toNat_ofNat_width ha, Nat.shiftLeft_eq, Nat.shiftRight_eq_div_pow, upper,
    Nat.two_pow_add_eq_or_of_lt lower]

include hb

theorem intAnd_eq : a &&& b = (BitVec.ofNat (Ty.width t) a &&& BitVec.ofNat (Ty.width t) b).toNat := by
  rw [BitVec.toNat_and, toNat_ofNat_width ha, toNat_ofNat_width hb]

theorem intOr_eq : a ||| b = (BitVec.ofNat (Ty.width t) a ||| BitVec.ofNat (Ty.width t) b).toNat := by
  rw [BitVec.toNat_or, toNat_ofNat_width ha, toNat_ofNat_width hb]

theorem intXor_eq : a ^^^ b = (BitVec.ofNat (Ty.width t) a ^^^ BitVec.ofNat (Ty.width t) b).toNat := by
  rw [BitVec.toNat_xor, toNat_ofNat_width ha, toNat_ofNat_width hb]

theorem intAndn_eq : a &&& (2 ^ Ty.width t - 1 - b) = (BitVec.ofNat (Ty.width t) a &&& ~~~BitVec.ofNat (Ty.width t) b).toNat := by
  rw [BitVec.toNat_and, BitVec.toNat_not, toNat_ofNat_width ha, toNat_ofNat_width hb]

end

/-- R239: the bits in reverse, the highest first. -/
theorem reverseBits_succ (w v : Nat) : reverseBits (w + 1) v = 2 * reverseBits w v + (if v.testBit w then 1 else 0) := by
  have sum (n : Nat) : reverseBits n v = ((List.range n).map fun j => if v.testBit j then 2 ^ (n - 1 - j) else 0).sum := by
    rw [reverseBits, List.sum_eq_foldl, List.foldl_map]
    rfl
  rw [sum, sum, List.range_succ, List.map_append, List.sum_append, ← List.sum_map_mul_left]
  congr 1
  · refine congrArg List.sum (List.map_congr_left fun j hj => ?_)
    have inside := List.mem_range.1 hj
    rw [mul_ite, ← Nat.pow_succ', show (w - 1 - j).succ = w + 1 - 1 - j by omega, Nat.mul_zero]
  · simp

theorem reverseBits_eq (w v : Nat) : reverseBits w v = (BitVec.ofNat w v).reverse.toNat := by
  induction w with
  | zero => exact (BitVec.toNat_of_zero_length rfl _).symm
  | succ w ih =>
    have low : (BitVec.ofNat (w + 1) v).truncate w = BitVec.ofNat w v := by
      apply BitVec.eq_of_toNat_eq
      simp
    have top : (BitVec.ofNat (w + 1) v).msb = v.testBit w := by
      rw [BitVec.msb_eq_getLsbD_last, BitVec.getLsbD_ofNat]
      simp
    rw [reverseBits_succ, ih, BitVec.reverse, BitVec.toNat_concat, low, top]
    cases v.testBit w <;> simp [Nat.mul_comm]

/-! ## Saturation (R238) -/

theorem clampInt_eq (sat w : Nat) (e : Int) :
    clampInt sat w e = ((clampTo sat w e % 2 ^ w).toNat, if clampTo sat w e != e then flagSAT else noFlags) := by
  unfold clampInt clampTo
  by_cases none : sat = 0
  · simp only [none, if_true, bne_self_eq_false, Bool.false_eq_true, if_false]
  · by_cases signed : sat = 1
    · simp only [signed, if_true, Nat.one_ne_zero, if_false, bne_iff_ne, ne_eq, ite_not]
    · simp only [none, signed, if_false, bne_iff_ne, ne_eq, ite_not]

theorem foldl_or_bits (fs : List FlagSet) (a : FlagSet) : (fs.foldl FlagSet.or a).bits = fs.foldl (fun m f => m ||| f.bits) a.bits := by
  induction fs generalizing a with
  | nil => rfl
  | cons f fs ih => rw [List.foldl_cons, List.foldl_cons, ih, FlagSet.bits_or]

/-- R225: SAT, raised by any of some elements. -/
theorem foldl_sat_bits (p : Nat → Bool) (ks : List Nat) (m : BitVec 6) :
    ks.foldl (fun m k => m ||| (if p k then flagSAT else noFlags).bits) m = m ||| if ks.any p then 32 else 0 := by
  induction ks generalizing m with
  | nil => exact (BitVec.or_zero).symm
  | cons k ks ih =>
    rw [List.foldl_cons, ih, List.any_cons]
    cases p k with
    | false => rw [Bool.false_or, if_neg Bool.false_ne_true, noFlags_bits, BitVec.or_zero]
    | true =>
      rw [Bool.true_or, if_pos rfl, if_pos rfl, BitVec.or_assoc]
      congr 1
      split <;> rfl

/-- R238, R60: an integer operation of the elements of one lane: an element of its result, and the flags it raises. -/
theorem intLane_eq (f : IntFn) (hon : Bool) (sat : Nat) (t : Ty) (a b c : Nat) :
    let exact := fun (k : Nat) => f t (elemOf t a k) (elemOf t b k) (elemOf t c k)
    let clamped := fun (k : Nat) => clampTo (if hon then sat else 0) (Ty.width t) (exact k)
    (∀ k, k < Ty.count t → elemOf t (intLane f hon sat t a b c).1 k = (clamped k % 2 ^ Ty.width t).toNat) ∧
      (intLane f hon sat t a b c).2.bits = if (List.range (Ty.count t)).any (fun k => clamped k != exact k) then 32 else 0 := by
  intro exact clamped
  have elems : (Ty.elems t).map (fun k => clampInt (if hon then sat else 0) (Ty.width t) (exact k)) =
      (List.range (Ty.count t)).map fun k =>
        ((clamped k % 2 ^ Ty.width t).toNat, if clamped k != exact k then flagSAT else noFlags) :=
    List.map_congr_left fun k _ => clampInt_eq _ _ _
  have lane : intLane f hon sat t a b c =
      (joinElems t ((List.range (Ty.count t)).map fun k => (clamped k % 2 ^ Ty.width t).toNat),
        ((List.range (Ty.count t)).map fun k => if clamped k != exact k then flagSAT else noFlags).foldl FlagSet.or noFlags) := by
    rw [intLane, elems, List.map_map, List.map_map]
    rfl
  rw [lane]
  refine ⟨fun k hk => ?_, ?_⟩
  · have inRange : (clamped k % 2 ^ Ty.width t).toNat < 2 ^ Ty.width t := by
      have pos : (0 : Int) < 2 ^ Ty.width t := by positivity
      have low := Int.emod_nonneg (clamped k) pos.ne'
      have high := Int.emod_lt_of_pos (clamped k) pos
      zify
      rw [Int.toNat_of_nonneg low]
      exact high
    rw [elemOf_joinElems _ _ (by simpa using hk), List.getElem_map, List.getElem_range, Nat.mod_eq_of_lt inRange]
  · rw [foldl_or_bits, List.foldl_map, foldl_sat_bits, noFlags_bits, BitVec.zero_or]

/-! ## Integer operations on the active lanes (R60) -/

/-- R238, R239: outcome `o` is that of an integer operation of exact result `r` on the active lanes' elements. -/
def IntGives (s : State) (h : Hart) (o : Out) (len : Nat) (t : Ty) (gd : Guard) (vd : Nat) (a b c : Nat → Nat) (honours : Bool)
    (r : Ty → Nat → Nat → Nat → Int) : Prop :=
  let exact := fun (l k : Nat) => r t (elemOf t (a l) k) (elemOf t (b l) k) (elemOf t (c l) k)
  let clamped := fun (l k : Nat) => clampTo (if honours then h.satCode else 0) (Ty.width t) (exact l k)
  ∃ u h', o = .next u ∧
    LaneStep s u h h' { laneEffect h len gd (destRegs t vd) [] with
      raised := fun l => if (List.range (Ty.count t)).any (fun k => clamped l k != exact l k) then 32 else 0 } ∧
    ∀ l, l < 32 → h.active gd l = true → ∀ k, k < Ty.count t →
      elemOf t (h'.laneVal t vd l) k = (clamped l k % 2 ^ Ty.width t).toNat

/-- The model's operation has exact result `r` on patterns of its type. -/
def IntFn.Is (f : IntFn) (r : Ty → Nat → Nat → Nat → Int) : Prop :=
  ∀ t a b c, a < 2 ^ Ty.width t → b < 2 ^ Ty.width t → c < 2 ^ Ty.width t → f t a b c = r t a b c

theorem intGives_of {s : State} {h : Hart} (hc : s.hart? s.cur = some h) (unlent : h.run.lent = [])
    (sorted : Map.sorted h.lanes.v = true) {f : IntFn} {r : Ty → Nat → Nat → Nat → Int} (is : f.Is r) {o : Out} {hon : Bool} {len : Nat}
    {t : Ty} {g : Guard} {vd : Nat} {a b c : Hart → Nat → Nat}
    (run : o = laneOp len t g vd (fun h l => intLane f hon h.satCode t (a h l) (b h l) (c h l)) s) :
    IntGives s h o len t g vd (a h) (b h) (c h) hon r := by
  unfold IntGives
  intro exact clamped
  have same (l k : Nat) : f t (elemOf t (a h l) k) (elemOf t (b h l) k) (elemOf t (c h l) k) = exact l k :=
    is t _ _ _ (elemOf_lt ..) (elemOf_lt ..) (elemOf_lt ..)
  obtain ⟨u, h', next, step, value⟩ := laneOp_gives hc unlent sorted len t g vd
    fun h l => intLane f hon h.satCode t (a h l) (b h l) (c h l)
  have lane := fun l => intLane_eq f hon h.satCode t (a h l) (b h l) (c h l)
  simp only [same] at lane
  refine ⟨u, h', run.trans next, ?_, fun l hl on k hk => ?_⟩
  · have raised : (fun l => (intLane f hon h.satCode t (a h l) (b h l) (c h l)).2.bits) =
        fun l => if (List.range (Ty.count t)).any (fun k => clamped l k != exact l k) then (32 : BitVec 6) else 0 :=
      funext fun l => (lane l).2
    rw [← raised]
    exact step
  · rw [value l hl on, elemOf_mod hk]
    exact (lane l).1 k hk

section
variable {s : State} {h : Hart} (hc : s.hart? s.cur = some h) (unlent : h.run.lent = []) (sorted : Map.sorted h.lanes.v = true)
  {fn : IntFn} {hon : Bool} {r : Ty → Nat → Nat → Nat → Int} (is : fn.Is r)
include hc unlent sorted is

theorem int3_gives (f : Lane3) : IntGives s h (int3 fn hon f s) 8 f.ty f.guard f.vd.toNat (fun l => h.laneVal f.ty f.va.toNat l)
    (fun l => h.laneVal f.ty f.vb.toNat l) (fun _ => 0) hon r :=
  intGives_of hc unlent sorted is (a := fun h l => h.laneVal f.ty f.va.toNat l) (b := fun h l => h.laneVal f.ty f.vb.toNat l)
    (c := fun _ _ => 0) rfl

theorem int3I_gives (g : Lane3I) : IntGives s h (int3I fn hon g s) 8 g.ty g.guard g.vd.toNat (fun l => h.laneVal g.ty g.va.toNat l)
    (fun _ => immVal g.ty g.imm) (fun _ => 0) hon r :=
  intGives_of hc unlent sorted is (a := fun h l => h.laneVal g.ty g.va.toNat l) (b := fun _ _ => immVal g.ty g.imm)
    (c := fun _ _ => 0) rfl

theorem int3S_gives (e : Lane3S) : IntGives s h (int3S fn hon e s) 4 e.ty unguarded e.vd.toNat
    (fun l => h.laneVal e.ty e.va.toNat l) (fun l => h.laneVal e.ty e.vb.toNat l) (fun _ => 0) hon r :=
  intGives_of hc unlent sorted is (a := fun h l => h.laneVal e.ty e.va.toNat l) (b := fun h l => h.laneVal e.ty e.vb.toNat l)
    (c := fun _ _ => 0) rfl

theorem int2_gives (f : Lane2) : IntGives s h (int2 fn hon f s) 8 f.ty f.guard f.vd.toNat (fun l => h.laneVal f.ty f.va.toNat l)
    (fun _ => 0) (fun _ => 0) hon r :=
  intGives_of hc unlent sorted is (a := fun h l => h.laneVal f.ty f.va.toNat l) (b := fun _ _ => 0) (c := fun _ _ => 0) rfl

theorem int2S_gives (e : Lane2S) : IntGives s h (int2S fn hon e s) 4 e.ty unguarded e.vd.toNat
    (fun l => h.laneVal e.ty e.va.toNat l) (fun _ => 0) (fun _ => 0) hon r :=
  intGives_of hc unlent sorted is (a := fun h l => h.laneVal e.ty e.va.toNat l) (b := fun _ _ => 0) (c := fun _ _ => 0) rfl

end

/-! ## The operations of R239 -/

/-- R238: an element as an integer: unsigned for n32, else signed. -/
def readInt (t : Ty) (p : Nat) : Int := if t = .n32 then (p : Int) else readSigned (Ty.width t) p

/-- R239: an operation in its long, immediate and short forms. -/
def IntForms3 (s : State) (h : Hart) (f : Lane3) (g : Lane3I) (e : Lane3S) (hon : Bool) (r : Ty → Nat → Nat → Nat → Int)
    (long : Lane3 → Instr) (imm : Lane3I → Instr) (short : Lane3S → Instr) : Prop :=
  IntGives s h (exec (long f) s) 8 f.ty f.guard f.vd.toNat (fun l => h.laneVal f.ty f.va.toNat l)
      (fun l => h.laneVal f.ty f.vb.toNat l) (fun _ => 0) hon r
    ∧ IntGives s h (exec (imm g) s) 8 g.ty g.guard g.vd.toNat (fun l => h.laneVal g.ty g.va.toNat l) (fun _ => immVal g.ty g.imm)
      (fun _ => 0) hon r
    ∧ IntGives s h (exec (short e) s) 4 e.ty unguarded e.vd.toNat (fun l => h.laneVal e.ty e.va.toNat l)
      (fun l => h.laneVal e.ty e.vb.toNat l) (fun _ => 0) hon r

/-- R239: an operation of one source in its long and short forms. -/
def IntForms2 (s : State) (h : Hart) (f : Lane2) (e : Lane2S) (hon : Bool) (r : Ty → Nat → Int) (long : Lane2 → Instr)
    (short : Lane2S → Instr) : Prop :=
  IntGives s h (exec (long f) s) 8 f.ty f.guard f.vd.toNat (fun l => h.laneVal f.ty f.va.toNat l) (fun _ => 0) (fun _ => 0) hon
      (fun t a _ _ => r t a)
    ∧ IntGives s h (exec (short e) s) 4 e.ty unguarded e.vd.toNat (fun l => h.laneVal e.ty e.va.toNat l) (fun _ => 0) (fun _ => 0) hon
      (fun t a _ _ => r t a)

section
variable {s : State} {h : Hart} (hc : s.hart? s.cur = some h) (unlent : h.run.lent = []) (sorted : Map.sorted h.lanes.v = true)
include hc unlent sorted

theorem intForms3_of {f : Lane3} {g : Lane3I} {e : Lane3S} {fn : IntFn} {hon : Bool} {r : Ty → Nat → Nat → Nat → Int} (is : fn.Is r)
    {long : Lane3 → Instr} {imm : Lane3I → Instr} {short : Lane3S → Instr} (h1 : exec (long f) s = int3 fn hon f s)
    (h2 : exec (imm g) s = int3I fn hon g s) (h3 : exec (short e) s = int3S fn hon e s) : IntForms3 s h f g e hon r long imm short := by
  rw [IntForms3, h1, h2, h3]
  exact ⟨int3_gives hc unlent sorted is f, int3I_gives hc unlent sorted is g, int3S_gives hc unlent sorted is e⟩

theorem intForms2_of {f : Lane2} {e : Lane2S} {fn : IntFn} {hon : Bool} {r : Ty → Nat → Int} (is : fn.Is fun t a _ _ => r t a)
    {long : Lane2 → Instr} {short : Lane2S → Instr} (h1 : exec (long f) s = int2 fn hon f s)
    (h2 : exec (short e) s = int2S fn hon e s) : IntForms2 s h f e hon r long short := by
  rw [IntForms2, h1, h2]
  exact ⟨int2_gives hc unlent sorted is f, int2S_gives hc unlent sorted is e⟩

variable (f : Lane3) (g : Lane3I) (e : Lane3S)

/-- R239: sums, products and extrema. -/
theorem laneInt_arithmetic :
    IntForms3 s h f g e true (fun t a b _ => readInt t a + readInt t b) .ladd .laddImm .laddS32
    ∧ IntForms3 s h f g e true (fun t a b _ => readInt t a - readInt t b) .lsub .lsubImm .lsubS32
    ∧ IntForms3 s h f g e true (fun t a b _ => readInt t a * readInt t b) .lmul .lmulImm .lmulS32
    ∧ IntForms3 s h f g e false (fun t a b _ => readInt t a * readInt t b / 2 ^ Ty.width t) .lmulh .lmulhImm .lmulhS32
    ∧ IntForms3 s h f g e false (fun t a b _ => min (readInt t a) (readInt t b)) .lmin .lminImm .lminS32
    ∧ IntForms3 s h f g e false (fun t a b _ => max (readInt t a) (readInt t b)) .lmax .lmaxImm .lmaxS32 := by
  have int {t : Ty} {a : Nat} (ha : a < 2 ^ Ty.width t) : asInt t a = readInt t a := asInt_eq ha
  have forms := fun {fn : IntFn} {hon r long imm short} is => @intForms3_of s h hc unlent sorted f g e fn hon r is long imm short
  exact ⟨forms (fn := intAddFn) (fun t a b c ha hb _ => by rw [intAddFn, int ha, int hb]) rfl rfl rfl,
    forms (fn := intSubFn) (fun t a b c ha hb _ => by rw [intSubFn, int ha, int hb]) rfl rfl rfl,
    forms (fn := intMulFn) (fun t a b c ha hb _ => by rw [intMulFn, int ha, int hb]) rfl rfl rfl,
    forms (fn := intMulhFn) (fun t a b c ha hb _ => by rw [intMulhFn, int ha, int hb]) rfl rfl rfl,
    forms (fn := intMinFn) (fun t a b c ha hb _ => by rw [intMinFn, int ha, int hb]) rfl rfl rfl,
    forms (fn := intMaxFn) (fun t a b c ha hb _ => by rw [intMaxFn, int ha, int hb]) rfl rfl rfl⟩

/-- R239: operations on the bits of a pattern, and shifts. -/
theorem laneInt_bits :
    let B := fun (t : Ty) (p : Nat) => BitVec.ofNat (Ty.width t) p
    let U := fun (t : Ty) (x : BitVec (Ty.width t)) => (x.toNat : Int)
    IntForms3 s h f g e false (fun t a b _ => U t (B t a &&& B t b)) .land .landImm .landS32
    ∧ IntForms3 s h f g e false (fun t a b _ => U t (B t a ||| B t b)) .lor .lorImm .lorS32
    ∧ IntForms3 s h f g e false (fun t a b _ => U t (B t a ^^^ B t b)) .lxor .lxorImm .lxorS32
    ∧ IntForms3 s h f g e false (fun t a b _ => U t (B t a &&& ~~~B t b)) .landn .landnImm .landnS32
    ∧ IntForms3 s h f g e true (fun t a b _ => readInt t a * 2 ^ (b % Ty.width t)) .lshl .lshlImm .lshlS32
    ∧ IntForms3 s h f g e false (fun t a b _ => U t (B t a >>> (b % Ty.width t))) .lshr .lshrImm .lshrS32
    ∧ IntForms3 s h f g e false (fun t a b _ => (B t a).toInt / 2 ^ (b % Ty.width t)) .lsra .lsraImm .lsraS32
    ∧ IntForms3 s h f g e false (fun t a b _ => U t ((B t a).rotateLeft (b % Ty.width t))) .lrot .lrotImm .lrotS32 := by
  intro B U
  have count (t : Ty) (b : Nat) : b % Ty.width t < Ty.width t := Nat.mod_lt b (Ty.width_pos t)
  have forms := fun {fn : IntFn} {hon r long imm short} is => @intForms3_of s h hc unlent sorted f g e fn hon r is long imm short
  exact ⟨forms (fn := intAndFn) (fun t a b c ha hb _ => congrArg Nat.cast (intAnd_eq ha hb)) rfl rfl rfl,
    forms (fn := intOrFn) (fun t a b c ha hb _ => congrArg Nat.cast (intOr_eq ha hb)) rfl rfl rfl,
    forms (fn := intXorFn) (fun t a b c ha hb _ => congrArg Nat.cast (intXor_eq ha hb)) rfl rfl rfl,
    forms (fn := intAndnFn) (fun t a b c ha hb _ => congrArg Nat.cast (intAndn_eq ha hb)) rfl rfl rfl,
    forms (fn := intShlFn) (fun t a b c ha _ _ => by rw [intShlFn, asInt_eq ha, shiftCount, readInt]) rfl rfl rfl,
    forms (fn := intShrFn) (fun t a b c ha _ _ => congrArg Nat.cast (intShr_eq ha _)) rfl rfl rfl,
    forms (fn := intSraFn) (fun t a b c ha _ _ => by rw [intSraFn, asSigned_eq_toInt ha, shiftCount]) rfl rfl rfl,
    forms (fn := intRotFn) (fun t a b c ha _ _ => congrArg Nat.cast (intRot_eq ha (count t b))) rfl rfl rfl⟩

/-- R239: operations of one source. -/
theorem laneInt_unary (f : Lane2) (e : Lane2S) :
    IntForms2 s h f e true (fun t a => |readInt t a|) .labs .labsS32
    ∧ IntForms2 s h f e false (fun t a => if a = 0 then (Ty.width t : Int) else (Ty.width t - 1 - Nat.log2 a : Int)) .lclz .lclzS32
    ∧ IntForms2 s h f e false (fun t a => (((List.range (Ty.width t)).filter a.testBit).length : Int)) .lpopc .lpopcS32
    ∧ IntForms2 s h f e false (fun t a => ((BitVec.ofNat (Ty.width t) a).reverse.toNat : Int)) .lbrev .lbrevS32 := by
  have forms := fun {fn : IntFn} {hon r long short} is => @intForms2_of s h hc unlent sorted f e fn hon r is long short
  exact ⟨forms (fn := intAbsFn)
    (fun t a b c ha _ _ => (congrArg (fun i => ((i.natAbs : Nat) : Int)) (asInt_eq ha)).trans (Int.natCast_natAbs _)) rfl rfl,
    forms (fn := intClzFn) (fun t a b c ha _ _ => leadZeros_eq ha) rfl rfl,
    forms (fn := intPopcFn) (fun t a b c _ _ _ => rfl) rfl rfl,
    forms (fn := intBrevFn) (fun t a b c _ _ _ => congrArg Nat.cast (reverseBits_eq _ a)) rfl rfl⟩

omit hc unlent sorted in
theorem intMad_is : intMadFn.Is fun t a b c => readInt t a * readInt t b + readInt t c := by
  intro t a b c ha hb hc
  rw [intMadFn, asInt_eq ha, asInt_eq hb, asInt_eq hc]
  rfl

theorem lmad_gives (f : Lane4) : IntGives s h (exec (.lmad f) s) 8 f.ty f.guard f.vd.toNat (fun l => h.laneVal f.ty f.va.toNat l)
    (fun l => h.laneVal f.ty f.vb.toNat l) (fun l => h.laneVal f.ty f.vc.toNat l) true
    (fun t a b c => readInt t a * readInt t b + readInt t c) :=
  intGives_of hc unlent sorted intMad_is (a := fun h l => h.laneVal f.ty f.va.toNat l) (b := fun h l => h.laneVal f.ty f.vb.toNat l)
    (c := fun h l => h.laneVal f.ty f.vc.toNat l) rfl

theorem lmadImm_gives (g : Lane4I) : IntGives s h (exec (.lmadImm g) s) 8 g.ty g.guard g.vd.toNat
    (fun l => h.laneVal g.ty g.va.toNat l) (fun _ => immVal g.ty g.imm) (fun l => h.laneVal g.ty g.vc.toNat l) true
    (fun t a b c => readInt t a * readInt t b + readInt t c) :=
  intGives_of hc unlent sorted intMad_is (a := fun h l => h.laneVal g.ty g.va.toNat l) (b := fun _ _ => immVal g.ty g.imm)
    (c := fun h l => h.laneVal g.ty g.vc.toNat l) rfl

end

end Sys2Proof.Machine

namespace Sys2Proof.Proofs

open Sys2Proof Sys2Proof.Machine

/-- Settles O15: one shape of a lane operation, at each exact result. -/
theorem laneIntegerResults : Obligations.LaneIntegerResults := by
  unfold Obligations.LaneIntegerResults
  intro s h hc unlent sorted f g e f2 e2 f4 g4
  exact ⟨laneInt_arithmetic hc unlent sorted f g e, laneInt_bits hc unlent sorted f g e, laneInt_unary hc unlent sorted f2 e2,
    lmad_gives hc unlent sorted f4, lmadImm_gives hc unlent sorted g4⟩

end Sys2Proof.Proofs
end

section
/-! The lane floating-point operations (R232, R233, R244, R245): the checks before them, one lane's elements, every form. -/

namespace Sys2Proof.Machine

open Sys2Proof

/-! ## One lane (R232) -/

section
variable (f : FloatFn) (md : FModes) (t : Ty) (sr : Word) (a b c : Nat)

/-- R244: the result of element k, not yet rounded. -/
def floatExact (k : Nat) : FVal × FlagSet :=
  let F := floatFmt (fmtOfTy t)
  f md.rm (F.value md.fsi (elemOf t a k)) (F.value md.fsi (elemOf t b k)) (F.value md.fsi (elemOf t c k))

/-- R219: the stochastic state before element k. -/
def floatSr (k : Nat) : Word := srBefore (floatFmt (fmtOfTy t)) md (fun j => (floatExact f md t a b c j).1) sr k

/-- R219, R220: element k, rounded. -/
def floatOut (k : Nat) : FOut := (floatFmt (fmtOfTy t)).encode md (floatSr f md t sr a b c k) (floatExact f md t a b c k).1

/-- R225: the flags of the elements below n. -/
def floatFlags (n : Nat) : FlagSet :=
  (List.range n).foldl (fun m k => (m.or (floatExact f md t a b c k).2).or (floatOut f md t sr a b c k).flags) noFlags

theorem floatFlags_succ (n : Nat) : floatFlags f md t sr a b c (n + 1) =
    ((floatFlags f md t sr a b c n).or (floatExact f md t a b c n).2).or (floatOut f md t sr a b c n).flags := by
  rw [floatFlags, List.range_succ, List.foldl_append]
  rfl

theorem floatFlags_bits (n : Nat) : (floatFlags f md t sr a b c n).bits = (List.range n).foldl
    (fun m k => m ||| (floatExact f md t a b c k).2.bits ||| (floatOut f md t sr a b c k).flags.bits) 0 := by
  induction n with
  | zero => exact noFlags_bits
  | succ n ih =>
    rw [floatFlags_succ, FlagSet.bits_or, FlagSet.bits_or, ih, List.range_succ, List.foldl_append]
    rfl

/-- R232: the elements below n, lowest first: their patterns, flags and the state they leave. -/
theorem floatElems_eq (n : Nat) :
    (List.range n).foldl (fun (acc : List Nat × FlagSet × Word) k =>
      let v := floatExact f md t a b c k
      let e := (floatFmt (fmtOfTy t)).encode md acc.2.2 v.1
      (acc.1 ++ [e.pat], (acc.2.1.or v.2).or e.flags, e.sr)) ([], noFlags, sr) =
    ((List.range n).map (fun k => (floatOut f md t sr a b c k).pat), floatFlags f md t sr a b c n, floatSr f md t sr a b c n) := by
  induction n with
  | zero => rfl
  | succ n ih =>
    rw [List.range_succ, List.foldl_append, ih, List.map_append, floatFlags_succ]
    rfl

theorem floatLane_eq : floatLane f md t sr a b c =
    (joinElems t ((List.range (Ty.count t)).map fun k => (floatOut f md t sr a b c k).pat),
      floatFlags f md t sr a b c (Ty.count t), floatSr f md t sr a b c (Ty.count t)) := by
  have elems := floatElems_eq f md t sr a b c (Ty.count t)
  exact congrArg (fun r : List Nat × FlagSet × Word => (joinElems t r.1, r.2)) elems

theorem elemOf_floatLane {k : Nat} (hk : k < Ty.count t) :
    elemOf t (floatLane f md t sr a b c).1 k = (floatOut f md t sr a b c k).pat % 2 ^ Ty.width t := by
  rw [floatLane_eq, elemOf_joinElems _ _ (by simpa using hk), List.getElem_map, List.getElem_range]

end

/-! ## The checks (R54, R235) and the two cycles of f64 (R233) -/

theorem roundChecked_of {s : State} {h : Hart} {rm : Rm} (hc : s.hart? s.cur = some h) (hr : h.rounding = some rm)
    (legal : rm = .sr → s.pfmask h 5 = false) (i : Instr) {wide : Bool} (open_ : wide = true → s.pfmask h 4 = false)
    (go : Hart → Rm → Out) : roundChecked i wide true s go = go h rm := by
  have unmasked : (wide && s.pfmask h 4) = false := by
    cases wide with
    | false => rfl
    | true => rw [open_ rfl, Bool.and_false]
  have allowed : (decide (rm = .sr) && s.pfmask h 5) = false := by
    by_cases stochastic : rm = .sr
    · rw [legal stochastic, Bool.and_false]
    · rw [decide_eq_false stochastic, Bool.false_and]
  simp only [roundChecked, hc, unmasked, hr, allowed, Bool.false_eq_true, if_false, if_true]

theorem roundChecked_exact {s : State} {h : Hart} (hc : s.hart? s.cur = some h) (i : Instr) {wide : Bool}
    (open_ : wide = true → s.pfmask h 4 = false) (go : Hart → Rm → Out) : roundChecked i wide false s go = go h .rne := by
  have unmasked : (wide && s.pfmask h 4) = false := by
    cases wide with
    | false => rfl
    | true => rw [open_ rfl, Bool.and_false]
  simp only [roundChecked, hc, unmasked, Bool.false_eq_true, if_false]

/-- R232, R233, R244: outcome `o` of instruction `i` is that of a float operation of exact result `r` on the active lanes' elements. -/
def FloatGives (s : State) (h : Hart) (rm : Rm) (i : Instr) (len : Nat) (t : Ty) (gd : Guard) (vd : Nat) (a b c : Nat → Nat)
    (r : FVal → FVal → FVal → FVal × FlagSet) : Prop :=
  let md : FModes := ⟨rm, h.satCode, h.fsi, h.fso⟩
  let F := floatFmt (fmtOfTy t)
  let val := fun (x k : Nat) => F.value h.fsi (elemOf t x k)
  let exact := fun (l k : Nat) => r (val (a l) k) (val (b l) k) (val (c l) k)
  let sr := fun (l k : Nat) => srBefore F md (fun j => (exact l j).1) (h.srOf l) k
  let out := fun (l k : Nat) => F.encode md (sr l k) (exact l k).1
  (t = .f64 → s.pfmask h 4 = false ∧ h.run.second = none →
    exec i s = .next (s.setCur { h with run := { h.run with second := some i } })) ∧
  ((t = .f64 → s.pfmask h 4 = false ∧ h.run.second ≠ none) → ∃ u h', exec i s = .next u ∧
    LaneStep s u h h' { laneEffect h len gd (destRegs t vd) [] with
      raised := fun l => (List.range (Ty.count t)).foldl (fun m k => m ||| (exact l k).2.bits ||| (out l k).flags.bits) 0,
      sr := fun l => sr l (Ty.count t) } ∧
    ∀ l, l < 32 → h.active gd l = true → ∀ k, k < Ty.count t →
      elemOf t (h'.laneVal t vd l) k = (out l k).pat % 2 ^ Ty.width t)

/-- What the float operations' statements ask of the acting hart (R51, R54, R171). -/
structure MayRound (s : State) (h : Hart) (rm : Rm) : Prop where
  acting : s.hart? s.cur = some h
  unlent : h.run.lent = []
  sorted : Map.sorted h.lanes.v = true
  mode : h.rounding = some rm
  legal : rm = .sr → s.pfmask h 5 = false

theorem floatGives_of {s : State} {h : Hart} {rm : Rm} (may : MayRound s h rm) (fn : FloatFn) {i : Instr} {len : Nat} {t : Ty}
    {g : Guard} {vd : Nat} {a b c : Hart → Nat → Nat} (run : exec i s = floatOp len i fn t g vd a b c s) :
    FloatGives s h rm i len t g vd (a h) (b h) (c h) (fn rm) := by
  obtain ⟨hc, unlent, sorted, mode, legal⟩ := may
  unfold FloatGives
  intro md F val exact sr out
  have checked (open_ : t = .f64 → s.pfmask h 4 = false) : exec i s = if h.firstCycle t then .next (s.atSecond i)
      else roundLanes len t g vd (fun l => floatLane fn md t (h.srOf l) (a h l) (b h l) (c h l)) s h :=
    run.trans (roundChecked_of hc mode legal i (fun w => open_ (of_decide_eq_true w)) _)
  refine ⟨fun wide ⟨unmasked, start⟩ => ?_, fun second => ?_⟩
  · have first : h.firstCycle t = true := by rw [Hart.firstCycle, wide, start]; rfl
    rw [checked fun _ => unmasked, if_pos first, State.atSecond, State.modCur_of s h _ hc]
  · have done : h.firstCycle t = false := by
      unfold Hart.firstCycle
      by_cases wide : t = .f64
      · cases running : h.run.second with
        | none => exact absurd running (second wide).2
        | some _ => exact Bool.and_false _
      · rw [beq_eq_false_iff_ne.2 wide, Bool.false_and]
    obtain ⟨u, h', next, step, value⟩ := roundLanes_gives unlent sorted len t g vd
      fun l => floatLane fn md t (h.srOf l) (a h l) (b h l) (c h l)
    refine ⟨u, h', ?_, ?_, fun l hl on k hk => ?_⟩
    · rw [checked fun wide => (second wide).1, if_neg (done ▸ Bool.false_ne_true), next]
    · have raised : (fun l => (floatLane fn md t (h.srOf l) (a h l) (b h l) (c h l)).2.1.bits) = fun l =>
          (List.range (Ty.count t)).foldl (fun m k => m ||| (exact l k).2.bits ||| (out l k).flags.bits) 0 :=
        funext fun l => by rw [floatLane_eq]; exact floatFlags_bits fn md t (h.srOf l) (a h l) (b h l) (c h l) _
      have state : (fun l => (floatLane fn md t (h.srOf l) (a h l) (b h l) (c h l)).2.2) = fun l => sr l (Ty.count t) :=
        funext fun l => by rw [floatLane_eq]; rfl
      rw [← raised, ← state]
      exact step
    · rw [value l hl on, elemOf_mod hk]
      exact elemOf_floatLane fn md t (h.srOf l) (a h l) (b h l) (c h l) hk

/-! ## The forms (R40, R41, R48) -/

/-- R244: an operation in its long, immediate and short forms. -/
def FloatForms3 (s : State) (h : Hart) (rm : Rm) (f : Lane3) (g : Lane3I) (e : Lane3S) (r : FVal → FVal → FVal → FVal × FlagSet)
    (long : Lane3 → Instr) (imm : Lane3I → Instr) (short : Lane3S → Instr) : Prop :=
  FloatGives s h rm (long f) 8 f.ty f.guard f.vd.toNat (fun l => h.laneVal f.ty f.va.toNat l) (fun l => h.laneVal f.ty f.vb.toNat l)
      (fun _ => 0) r
    ∧ FloatGives s h rm (imm g) 8 g.ty g.guard g.vd.toNat (fun l => h.laneVal g.ty g.va.toNat l) (fun _ => immVal g.ty g.imm)
      (fun _ => 0) r
    ∧ FloatGives s h rm (short e) 4 e.ty unguarded e.vd.toNat (fun l => h.laneVal e.ty e.va.toNat l)
      (fun l => h.laneVal e.ty e.vb.toNat l) (fun _ => 0) r

/-- R245: an operation of one operand in its long and short forms. -/
def FloatForms2 (s : State) (h : Hart) (rm : Rm) (f : Lane2) (e : Lane2S) (r : FVal → FVal × FlagSet) (long : Lane2 → Instr)
    (short : Lane2S → Instr) : Prop :=
  FloatGives s h rm (long f) 8 f.ty f.guard f.vd.toNat (fun l => h.laneVal f.ty f.va.toNat l) (fun _ => 0) (fun _ => 0) (fun a _ _ => r a)
    ∧ FloatGives s h rm (short e) 4 e.ty unguarded e.vd.toNat (fun l => h.laneVal e.ty e.va.toNat l) (fun _ => 0) (fun _ => 0)
      (fun a _ _ => r a)

section
variable {s : State} {h : Hart} {rm : Rm} (may : MayRound s h rm)
include may

theorem floatForms3_of (fn : FloatFn) {f : Lane3} {g : Lane3I} {e : Lane3S} {long : Lane3 → Instr} {imm : Lane3I → Instr}
    {short : Lane3S → Instr}
    (h1 : exec (long f) s = floatOp 8 (long f) fn f.ty f.guard f.vd.toNat (regOp f.ty f.va.toNat) (regOp f.ty f.vb.toNat) noOp s)
    (h2 : exec (imm g) s = floatOp 8 (imm g) fn g.ty g.guard g.vd.toNat (regOp g.ty g.va.toNat) (immOp g.ty g.imm) noOp s)
    (h3 : exec (short e) s = floatOp 4 (short e) fn e.ty unguarded e.vd.toNat (regOp e.ty e.va.toNat) (regOp e.ty e.vb.toNat) noOp s) :
    FloatForms3 s h rm f g e (fn rm) long imm short :=
  ⟨floatGives_of may fn (a := regOp f.ty f.va.toNat) (b := regOp f.ty f.vb.toNat) (c := noOp) h1,
    floatGives_of may fn (a := regOp g.ty g.va.toNat) (b := immOp g.ty g.imm) (c := noOp) h2,
    floatGives_of may fn (a := regOp e.ty e.va.toNat) (b := regOp e.ty e.vb.toNat) (c := noOp) h3⟩

theorem floatForms2_of (fn : FloatFn) {r : FVal → FVal × FlagSet} (unary : fn rm = fun a _ _ => r a) {f : Lane2} {e : Lane2S}
    {long : Lane2 → Instr} {short : Lane2S → Instr}
    (h1 : exec (long f) s = floatOp 8 (long f) fn f.ty f.guard f.vd.toNat (regOp f.ty f.va.toNat) noOp noOp s)
    (h2 : exec (short e) s = floatOp 4 (short e) fn e.ty unguarded e.vd.toNat (regOp e.ty e.va.toNat) noOp noOp s) :
    FloatForms2 s h rm f e r long short := by
  rw [FloatForms2, ← unary]
  exact ⟨floatGives_of may fn (a := regOp f.ty f.va.toNat) (b := noOp) (c := noOp) h1,
    floatGives_of may fn (a := regOp e.ty e.va.toNat) (b := noOp) (c := noOp) h2⟩

theorem laneFloat_binary (f : Lane3) (g : Lane3I) (e : Lane3S) :
    FloatForms3 s h rm f g e (fun a b _ => a.add rm b) .lfadd .lfaddImm .lfaddS32
    ∧ FloatForms3 s h rm f g e (fun a b _ => a.add rm b.neg) .lfsub .lfsubImm .lfsubS32
    ∧ FloatForms3 s h rm f g e (fun a b _ => a.mul b) .lfmul .lfmulImm .lfmulS32
    ∧ FloatForms3 s h rm f g e (fun a b _ => a.div b) .lfdiv .lfdivImm .lfdivS32 :=
  ⟨floatForms3_of may lfaddFn rfl rfl rfl, floatForms3_of may lfsubFn rfl rfl rfl, floatForms3_of may lfmulFn rfl rfl rfl,
    floatForms3_of may lfdivFn rfl rfl rfl⟩

theorem laneFloat_unary (f : Lane2) (e : Lane2S) :
    FloatForms2 s h rm f e (fun a => a.rcp) .lfrcp .lfrcpS32 ∧ FloatForms2 s h rm f e (fun a => a.rsqrt) .lfrsq .lfrsqS32
    ∧ FloatForms2 s h rm f e (fun a => a.sqrt) .lfsqrt .lfsqrtS32 ∧ FloatForms2 s h rm f e (fun a => a.exp2) .lfexp2 .lfexp2S32
    ∧ FloatForms2 s h rm f e (fun a => a.log2) .lflog2 .lflog2S32 :=
  ⟨floatForms2_of may lfrcpFn rfl rfl rfl, floatForms2_of may lfrsqFn rfl rfl rfl, floatForms2_of may lfsqrtFn rfl rfl rfl,
    floatForms2_of may lfexp2Fn rfl rfl rfl, floatForms2_of may lflog2Fn rfl rfl rfl⟩

theorem lfma_gives (f : Lane4) : FloatGives s h rm (.lfma f) 8 f.ty f.guard f.vd.toNat (fun l => h.laneVal f.ty f.va.toNat l)
    (fun l => h.laneVal f.ty f.vb.toNat l) (fun l => h.laneVal f.ty f.vc.toNat l) (FVal.fma rm) :=
  floatGives_of may lfmaFn (a := regOp f.ty f.va.toNat) (b := regOp f.ty f.vb.toNat) (c := regOp f.ty f.vc.toNat) rfl

theorem lfmaImm_gives (g : Lane4I) : FloatGives s h rm (.lfmaImm g) 8 g.ty g.guard g.vd.toNat
    (fun l => h.laneVal g.ty g.va.toNat l) (fun _ => immVal g.ty g.imm) (fun l => h.laneVal g.ty g.vc.toNat l) (FVal.fma rm) :=
  floatGives_of may lfmaFn (a := regOp g.ty g.va.toNat) (b := immOp g.ty g.imm) (c := regOp g.ty g.vc.toNat) rfl

end

end Sys2Proof.Machine

namespace Sys2Proof.Proofs

open Sys2Proof Sys2Proof.Machine

/-- Settles O20: one shape of a float operation, at each exact result. -/
theorem laneFloatArithmetic : Obligations.LaneFloatArithmetic := by
  unfold Obligations.LaneFloatArithmetic
  intro s h rm hc unlent sorted mode legal f g e f2 e2 f4 g4
  have may : MayRound s h rm := ⟨hc, unlent, sorted, mode, legal⟩
  exact ⟨laneFloat_binary may f g e, laneFloat_unary may f2 e2, lfma_gives may f4, lfmaImm_gives may g4⟩

end Sys2Proof.Proofs
end

section
/-! The lane conversions (R250 to R254), and the conversion to an integer (R224). -/

namespace Sys2Proof.Machine

open Sys2Proof

/-! ## Which conversions round (R54) -/

theorem cvtRounds_iff (d s : Nat) : cvtRounds d s = true ↔ d ≠ 8 ∧ ¬((d = 9 ∨ d = 10) ∧ (s = 9 ∨ s = 10)) := by
  unfold cvtRounds
  by_cases eight : d = 8
  · simp [eight]
  · by_cases int : d = 9 ∨ d = 10
    · simp [eight, int]
    · simp [eight, int]

/-- R253: the source of `lpack` is an integer where its destination is one. -/
theorem lpack_rounds_iff (dst : BitVec 4) :
    cvtRounds dst.toNat (if dst = 9 ∨ dst = 10 then 9 else 0) = true ↔ dst ≠ 8 ∧ dst ≠ 9 ∧ dst ≠ 10 := by
  revert dst
  decide

/-! ## Integers in a field (R224) -/

theorem readSigned_emod {w : Nat} (hw : 2 ≤ w) {i : Int} (low : -(2 ^ (w - 1)) ≤ i) (high : i < 2 ^ (w - 1)) :
    readSigned w (i % 2 ^ w).toNat = i := by
  have pos : (0 : Int) < 2 ^ w := by positivity
  have pattern : BitVec.ofNat w (i % 2 ^ w).toNat = BitVec.ofInt w i := by
    rw [← BitVec.ofInt_natCast, Int.toNat_of_nonneg (Int.emod_nonneg i pos.ne')]
    apply BitVec.eq_of_toInt_eq
    rw [BitVec.toInt_ofInt, BitVec.toInt_ofInt]
    exact_mod_cast Int.emod_bmod i (2 ^ w)
  rw [readSigned, pattern]
  exact BitVec.toInt_ofInt_eq_self (by omega) low high

/-- R224: a result of a conversion to an integer. -/
def IntOut (w : Nat) (sr : Word) (o : FOut) (v : Int) (fl : FlagSet) : Prop := readSigned w o.pat = v ∧ o.flags = fl ∧ o.sr = sr

/-- R219, R224: the value rounded to an integer. -/
def roundedInt (rm : Rm) (sr : Word) (x : XReal) : Int :=
  if x.neg then -((roundUnits rm sr x 0).1 : Int) else ((roundUnits rm sr x 0).1 : Int)

theorem half_pos (w : Nat) : (0 : Int) < 2 ^ (w - 1) := by positivity

section
variable {w : Nat} (hw : 2 ≤ w)
include hw

theorem intOut_low (sr : Word) (fl : FlagSet) : IntOut w sr ⟨((-(2 ^ (w - 1)) : Int) % 2 ^ w).toNat, fl, sr⟩ (-(2 ^ (w - 1))) fl :=
  ⟨readSigned_emod hw le_rfl (by have := half_pos w; omega), rfl, rfl⟩

theorem intOut_high (sr : Word) (fl : FlagSet) : IntOut w sr ⟨((2 ^ (w - 1) - 1 : Int) % 2 ^ w).toNat, fl, sr⟩ (2 ^ (w - 1) - 1) fl :=
  ⟨readSigned_emod hw (by have := half_pos w; omega) (by omega), rfl, rfl⟩

/-- R224: a number, rounded, in range or beyond either end. -/
theorem toIntFmt_num {rm : Rm} (det : rm ≠ .sr) (sr : Word) (x : XReal) :
    let r := roundedInt rm sr x
    let out := toIntFmt w rm sr (.num x)
    (-(2 ^ (w - 1)) ≤ r → r < 2 ^ (w - 1) → IntOut w sr out r (if (roundUnits rm sr x 0).2 then flagNX else noFlags))
      ∧ (r < -(2 ^ (w - 1)) → IntOut w sr out (-(2 ^ (w - 1))) flagNV)
      ∧ (2 ^ (w - 1) ≤ r → IntOut w sr out (2 ^ (w - 1) - 1) flagNV) := by
  intro r out
  have ends := half_pos w
  have cases_ : out = if r < -(2 ^ (w - 1)) then ⟨((-(2 ^ (w - 1)) : Int) % 2 ^ w).toNat, flagNV, sr⟩
      else if 2 ^ (w - 1) - 1 < r then ⟨((2 ^ (w - 1) - 1 : Int) % 2 ^ w).toNat, flagNV, sr⟩
      else ⟨(r % 2 ^ w).toNat, if (roundUnits rm sr x 0).2 then flagNX else noFlags, sr⟩ := by
    simp only [out, toIntFmt, if_neg det]
    rfl
  rw [cases_]
  refine ⟨fun low high => ?_, fun below => ?_, fun above => ?_⟩
  · rw [if_neg (not_lt.2 low), if_neg (by omega)]
    exact ⟨readSigned_emod hw low high, rfl, rfl⟩
  · rw [if_pos below]
    exact intOut_low hw sr _
  · rw [if_neg (by omega), if_pos (by omega)]
    exact intOut_high hw sr _

theorem toIntFmt_special (rm : Rm) (sr : Word) (n sig : Bool) :
    IntOut w sr (toIntFmt w rm sr (.nan n sig)) (2 ^ (w - 1) - 1) flagNV ∧
      IntOut w sr (toIntFmt w rm sr (.inf n)) (if n then -(2 ^ (w - 1)) else 2 ^ (w - 1) - 1) flagNV := by
  refine ⟨intOut_high hw sr _, ?_⟩
  cases n with
  | true => exact intOut_low hw sr _
  | false => exact intOut_high hw sr _

end

/-! ## The conversions' results (R251, R253) -/

section
variable {s : State} {h : Hart} {rm : Rm} (may : MayRound s h rm) (f64 : s.pfmask h 4 = false)
include may f64

/-- R54: a conversion that rounds takes the mode in force, another one none. -/
theorem roundChecked_lanes {i : Instr} {wide rounds : Bool} {t : Ty} {g : Guard} {vd : Nat} {out : Hart → Rm → Nat → Nat × FlagSet × Word}
    (run : exec i s = roundChecked i wide rounds s fun h rm => roundLanes 8 t g vd (out h rm) s h) :
    (rounds = true → LaneGives s h (exec i s) 8 t g vd (out h rm)) ∧ (rounds = false → LaneGives s h (exec i s) 8 t g vd (out h .rne)) := by
  obtain ⟨hc, unlent, sorted, mode, legal⟩ := may
  refine ⟨fun yes => ?_, fun no => ?_⟩
  · rw [run, yes, roundChecked_of hc mode legal i fun _ => f64]
    exact roundLanes_gives unlent sorted 8 t g vd _
  · rw [run, no, roundChecked_exact hc i fun _ => f64]
    exact roundLanes_gives unlent sorted 8 t g vd _

end

end Sys2Proof.Machine

namespace Sys2Proof.Proofs

open Sys2Proof Sys2Proof.Machine

/-- Settles O23. -/
theorem laneConversions : Obligations.LaneConversions := by
  unfold Obligations.LaneConversions
  refine ⟨fun s h rm hc unlent sorted mode f64 sr f f3 dst src bs sel k => ?_, fun w rm sr x n sig hw det => ?_⟩
  · intro md gives wide rounds lane pack
    have given {i : Instr} {t : Ty} {gd : Guard} {vd : Nat} {out : Nat → Nat × FlagSet × Word}
        (lanes : LaneGives s h (exec i s) 8 t gd vd out) : gives i t gd vd out := by
      obtain ⟨u, h', run, step, value⟩ := lanes
      refine ⟨u, h', run, step, fun l hl on => (value l hl on).trans ?_⟩
      unfold Ty.laneBits
      split <;> rfl
    have may : MayRound s h rm := ⟨hc, unlent, sorted, mode, fun _ => sr⟩
    have cvt := roundChecked_lanes may f64 (i := .lcvt f dst src bs sel) (t := wide dst)
      (out := fun h rm l => cvtLane (h.modes rm) dst.toNat src.toNat bs sel.toNat (h.srOf l)
        (h.laneVal (wide src) f.va.toNat l) (h.getV (f.va.toNat + 1) l).toNat (h.getV f.vd.toNat l).toNat) rfl
    have pck := roundChecked_lanes may f64 (i := .lpack f3 dst) (t := .i32)
      (out := fun h rm l => packLane (h.modes rm) dst.toNat (h.srOf l) (h.getV f3.va.toNat l).toNat (h.getV f3.vb.toNat l).toNat) rfl
    refine ⟨fun yes => given (cvt.1 ?_), fun no => given (cvt.2 ?_), fun yes => given (pck.1 ?_), fun no => given (pck.2 ?_),
      given (laneOp_gives hc unlent sorted 8 .i32 f.guard f.vd.toNat
        fun h l => unpackLane h.fsi src.toNat k.toNat (h.getV f.va.toNat l).toNat)⟩
    · exact (cvtRounds_iff _ _).2 yes
    · exact Bool.eq_false_iff.2 fun c => no ((cvtRounds_iff _ _).1 c)
    · exact (lpack_rounds_iff dst).2 yes
    · refine Bool.eq_false_iff.2 fun c => ?_
      obtain ⟨h8, h9, h10⟩ := (lpack_rounds_iff dst).1 c
      tauto
  · have num := toIntFmt_num hw det sr x
    have special := toIntFmt_special hw rm sr n sig
    exact ⟨num.1, num.2.1, num.2.2, special.1, special.2⟩

end Sys2Proof.Proofs
end

section
/-! The checks of a lane access that is plain (R130, R140, R152): they find nothing and leave the package as it is. -/

namespace Sys2Proof.Machine

open Sys2Proof

/-- A fold, by what holds of each front part of its list and of what the fold has made of it. -/
theorem foldl_stepwise {α β : Type} {f : β → α → β} (P : List α → β → Prop) {b : β} (start : P [] b) (as : List α)
    (step : ∀ pre a post c, as = pre ++ a :: post → P pre c → P (pre ++ [a]) (f c a)) : P as (as.foldl f b) := by
  suffices all : ∀ post pre c, as = pre ++ post → P pre c → P as (post.foldl f c) from all as [] b rfl start
  intro post
  induction post with
  | nil =>
    intro pre c split holds
    rw [List.append_nil] at split
    exact split ▸ holds
  | cons a post ih =>
    intro pre c split holds
    exact ih (pre ++ [a]) (f c a) (by rw [split, List.append_assoc]; rfl) (step pre a post c split holds)

theorem mem_of_split {α : Type} {as pre post : List α} {a : α} (split : as = pre ++ a :: post) : a ∈ as := by
  rw [split]
  exact List.mem_append_right _ List.mem_cons_self

theorem faultLanes_nil {fs : List (LaneAcc × Nat)} (none : ∀ f ∈ fs, f.2 = 0) : faultLanes fs = [] := by
  refine List.filterMap_eq_nil_iff.2 fun l _ => ?_
  have empty : fs.filter (fun f => f.1.1 == l && f.2 != 0) = [] := by
    refine List.filter_eq_nil_iff.2 fun f hf => ?_
    rw [none f hf, bne_self_eq_false, Bool.and_false]
    exact Bool.false_ne_true
  rw [empty]

/-- R129: the place that a plain access names. -/
def plainSpot (space : Nat) (at_ : LaneAcc → Nat × Nat) (a : LaneAcc) : Spot := ⟨a.1, space, (at_ a).1, (at_ a).2, a.2.2⟩

theorem range?_of_standsAtHome {s : State} {part gpa : Nat} (hs : s.standsAtHome part gpa) :
    ∃ p, s.part? part = some p ∧ (p.range? gpa).isNone = false := by
  obtain ⟨p, r, -, hp, hr, -⟩ := hs
  exact ⟨p, hp, by rw [hr]; rfl⟩

section
variable {s : State} {h : Hart} {space n : Nat} {k : AccKind} {as : List LaneAcc} {at_ : LaneAcc → Nat × Nat}
  (plain : PlainLanes s h space n k as at_)
include plain

theorem PlainLanes.firstKind {a : LaneAcc} (ha : a ∈ as) : s.firstKind h space n a = 0 := by
  unfold State.firstKind
  rw [if_neg (not_not.2 (plain.aligned a ha))]
  by_cases space0 : space = 0
  · rw [if_pos space0]
  · rw [if_neg space0, plain.beyond space0 a ha]

/-- R302 to R304: every access is translated, and no TLB changes. -/
theorem PlainLanes.translateAll (home : space = 0) :
    s.translateAll h k as = (as.map fun a => (a, Tr.gpa (at_ a).2), none, s) := by
  unfold State.translateAll
  dsimp only
  refine (congrArg (fun r : List (LaneAcc × Tr) × Option Wait × State => (r.1.reverse, r.2.1, r.2.2)) (foldl_stepwise
    (fun pre acc => acc = ((pre.map fun a => (a, Tr.gpa (at_ a).2)).reverse, none, s)) (b := ([], none, s)) rfl as ?_)).trans ?_
  on_goal 2 => rw [List.reverse_reverse]
  rintro pre a post c split rfl
  obtain ⟨-, answer, -, -, fill, -⟩ := plain.translated home a (mem_of_split split)
  have kept : (if (h.ctx k).priv = .M then s else s.fillL1 (coreOf s.cur) (h.ctx k) a.2.2) = s := by
    rcases fill with mach | same
    · rw [if_pos mach]
    · rw [same, ite_self]
  simp only [answer, kept, List.map_append, List.map_cons, List.map_nil, List.reverse_append, List.reverse_cons, List.reverse_nil,
    List.nil_append, List.cons_append]

theorem PlainLanes.laneHeld (part gpa : Nat) (useL1 : Bool) : s.laneHeld part gpa useL1 = false := by
  simp [State.laneHeld, plain.quiet, heldAt_of_quiet _ _ plain.quiet]

/-- R315, R339, R386: every line stands at its home slice. -/
theorem PlainLanes.judgeLines (home : space = 0) (wr reads useL1 : Bool) :
    s.judgeLines h wr reads useL1 (as.map fun a => (a, (at_ a).2)) = ⟨[], none, none, none, s⟩ := by
  unfold State.judgeLines
  rw [List.foldl_map]
  refine foldl_stepwise (fun _ (j : LineJudgement) => j = ⟨[], none, none, none, s⟩) rfl as ?_
  rintro pre a post c split rfl
  obtain ⟨-, -, -, -, -, undeclined, unfailed, stands⟩ := plain.translated home a (mem_of_split split)
  have d : h.run.declined.contains ((at_ a).2 / 4096) = false := by simpa using undeclined
  have e : h.run.failedPages.contains ((at_ a).2 / 4096) = false := by simpa using unfailed
  simp only [d, e, plain.laneHeld, atHome_stands stands, Bool.and_false, Bool.false_eq_true, if_false, ite_self]

/-- R140: the checks of a plain access: what follows acts on its places. -/
theorem PlainLanes.checkLanes (wr reads useL1 : Bool) (hk : k = if wr then .store else .load) (f : List Spot → State → State) :
    s.checkLanes h space n wr reads useL1 as f = f (as.map (plainSpot space at_)) s := by
  have early : faultLanes (as.map fun a => (a, s.firstKind h space n a)) = [] := by
    refine faultLanes_nil fun e he => ?_
    obtain ⟨a, ha, rfl⟩ := List.mem_map.1 he
    exact plain.firstKind ha
  unfold State.checkLanes
  simp only [early, List.isEmpty_nil, Bool.not_true, Bool.false_eq_true, if_false]
  by_cases home : space = 0
  · have spots : (as.map fun a => (a, (at_ a).2)).map (fun g => (⟨g.1.1, 0, h.role.part, g.2, g.1.2.2⟩ : Spot)) =
        as.map (plainSpot space at_) := by
      rw [List.map_map, home]
      refine List.map_congr_left fun a ha => ?_
      obtain ⟨owner, -⟩ := plain.translated home a ha
      rw [plainSpot, owner]
      rfl
    have fine : faultLanes (as.map fun a => (a, 0)) = [] := faultLanes_nil fun e he => by
      obtain ⟨a, -, rfl⟩ := List.mem_map.1 he
      rfl
    have nothing {β : Type} {p : LaneAcc → Bool} {g : LaneAcc → β} {b : β} (no : ∀ a ∈ as, p a = false)
        (found : (as.find? p).map g = some b) : False := by
      rw [List.find?_eq_none.2 fun a ha => by rw [no a ha]; exact Bool.false_ne_true] at found
      cases found
    rw [if_neg (not_not.2 home), ← hk, plain.translateAll home]
    simp only [List.map_map, Function.comp_def, reduceCtorEq, if_false, fine, List.isEmpty_nil, Bool.not_true, Bool.false_eq_true,
      List.find?_map, plain.unrecorded, plain.judgeLines home]
    split
    · next found => exact (nothing (fun _ _ => rfl) found).elim
    · split
      · next found =>
        refine (nothing (fun a ha => ?_) found).elim
        obtain ⟨-, -, -, -, -, -, -, stands⟩ := plain.translated home a ha
        obtain ⟨p, hp, hr⟩ := range?_of_standsAtHome stands
        simp only [hp, hr]
      · refine congrArg (f · s) (List.map_congr_left fun a ha => ?_)
        obtain ⟨owner, -⟩ := plain.translated home a ha
        rw [plainSpot, owner, home]
  · rw [if_pos home]
    refine congrArg (f · s) (List.map_congr_left fun a ha => ?_)
    rw [plain.beyond home a ha]
    rfl

theorem PlainLanes.unlessLocked (i : Instr) (f : State → State) : s.unlessLocked i (as.map (plainSpot space at_)) f = f s := by
  have none : s.lockedBank (as.map (plainSpot space at_)) = none := by
    refine Option.map_eq_none_iff.2 (List.find?_eq_none.2 fun p hp => ?_)
    obtain ⟨a, ha, rfl⟩ := List.mem_map.1 hp
    by_cases banked : space = 1 ∨ space = 2
    · cases lock : Map.find (s.core (at_ a).1).locks ((at_ a).2 / 16384) with
      | none => simp [plainSpot, lock]
      | some l => simp [plainSpot, lock, plain.unlocked banked a ha l lock]
    · rw [not_or] at banked
      simp [plainSpot, banked.1, banked.2]
  simp only [State.unlessLocked, none]

theorem PlainLanes.withRoom (room : Bool) (f : State → State) : s.withRoom h room f = f s := by
  simp [State.withRoom, plain.unordered]

/-- R375: no comparator matches. -/
theorem PlainLanes.watchLanes (acc : BitVec 2) (f : State → State) : s.watchLanes h space acc as n f = f s := by
  unfold State.watchLanes State.watching
  rw [plain.unwatched acc, ite_self]

theorem PlainLanes.withData (i : Instr) (away : Bool) (f : State → State) :
    s.withData i away f = f (if away then s.popLatency else s) := by
  cases away with
  | false => rfl
  | true => simp only [State.withData, Bool.not_true, Bool.false_eq_true, if_false, plain.prompt, if_true]

end

theorem em_of_active {h : Hart} {g : Guard} {l : Nat} (active : l ∈ h.activeLanes g) : h.lanes.em.getLsbD l = true := by
  have on := ((mem_activeLanes h g l).1 active).2
  rw [Hart.active, Bool.and_eq_true] at on
  exact on.1

/-- R60: the lanes of plain accesses are in the exec mask. -/
theorem live_spots {h : Hart} {as : List LaneAcc} (on : ∀ a ∈ as, h.lanes.em.getLsbD a.1 = true) (space : Nat)
    (at_ : LaneAcc → Nat × Nat) :
    (as.map (plainSpot space at_)).filter (fun p => h.lanes.em.getLsbD p.lane) = as.map (plainSpot space at_) := by
  refine List.filter_eq_self.2 fun p hp => ?_
  obtain ⟨a, ha, rfl⟩ := List.mem_map.1 hp
  exact on a ha

end Sys2Proof.Machine
end

section
/-! Lane reads of plain accesses (R129, R136, R144): the number at a place, from the place or from the lane L1, and the caches that
move. -/

namespace Sys2Proof.Machine

open Sys2Proof

/-! ## Maps of which entries go -/

theorem Map.sorted_iff_pairwise {α : Type} (m : Map α) : Map.sorted m = true ↔ m.Pairwise fun a b => a.1 < b.1 := by
  induction m with
  | nil => exact ⟨fun _ => .nil, fun _ => rfl⟩
  | cons a m ih =>
    rw [Map.sorted_cons, List.pairwise_cons, ih]
    refine ⟨fun ⟨head, tail⟩ => ⟨fun b hb => ?_, tail⟩,
      fun ⟨all, tail⟩ => ⟨fun b u hm => all b (hm ▸ List.mem_cons_self), tail⟩⟩
    cases m with
    | nil => cases hb
    | cons c m =>
      rcases List.mem_cons.1 hb with rfl | later
      · exact head b m rfl
      · exact (head c m rfl).trans ((List.pairwise_cons.1 tail).1 b later)

theorem Map.find_of_mem {α : Type} {m : Map α} (hs : Map.sorted m = true) {k : Nat} {a : α} (mem : (k, a) ∈ m) :
    Map.find m k = some a := by
  induction m with
  | nil => cases mem
  | cons e m ih =>
    obtain ⟨head, tail⟩ := List.pairwise_cons.1 ((Map.sorted_iff_pairwise _).1 hs)
    rcases List.mem_cons.1 mem with rfl | later
    · simp only [Map.find, if_true]
    · have below : e.1 < k := head _ later
      have rest := ih (Map.sorted_tail e m hs) later
      simp only [Map.find, if_neg (Nat.ne_of_gt below), if_neg (Nat.lt_asymm below), rest]

/-- A map that has lost entries is still in order, and its entries are the old ones. -/
theorem Map.of_sublist {α : Type} {m m' : Map α} (sub : m'.Sublist m) (hs : Map.sorted m = true) :
    Map.sorted m' = true ∧ ∀ k a, Map.find m' k = some a → Map.find m k = some a :=
  ⟨(Map.sorted_iff_pairwise _).2 (((Map.sorted_iff_pairwise _).1 hs).sublist sub),
    fun _ _ found => Map.find_of_mem hs (sub.subset (Map.mem_of_find found))⟩

theorem makeRoom_sublist {α : Type} (cap : Nat) (mark : α → Bool) (pick : Nat) (m : Map α) (key : Nat) :
    (makeRoom cap mark pick m key).Sublist m := by
  unfold makeRoom
  split
  · exact .refl m
  · split
    · exact List.eraseIdx_sublist _ _
    · exact List.eraseIdx_sublist _ _

/-- R136: a line enters the lane L1: it stands there, in order, and the others there stood there before. -/
theorem l1Insert_lines (fresh : Nat) {m : Map CacheLine} (hs : Map.sorted m = true) (key : Nat) (l : CacheLine) :
    Map.sorted (l1Insert fresh m key l) = true ∧
      ∀ k a, Map.find (l1Insert fresh m key l) k = some a → (k = key ∧ a = l) ∨ Map.find m k = some a := by
  obtain ⟨sorted, kept⟩ := Map.of_sublist (makeRoom_sublist 512 CacheLine.first (Config.victim m.length fresh) m key) hs
  refine ⟨Map.sorted_put _ _ _ sorted, fun k a found => ?_⟩
  rw [l1Insert, Map.find_put] at found
  split at found
  · next e => exact .inl ⟨e, (Option.some.inj found).symm⟩
  · exact .inr (kept k a found)

/-! ## Numbers at places (R6, R129) -/

theorem natOfBytes_lineBytes_div (d : BitVec 1024) (i n : Nat) : natOfBytes (lineBytes d i n) = d.toNat / 256 ^ i % 256 ^ n := by
  induction n generalizing i with
  | zero => rw [Nat.pow_zero, Nat.mod_one]; rfl
  | succ n ih =>
    have byte : (lineByte d i).toNat = d.toNat / 256 ^ i % 256 := by
      rw [lineByte, BitVec.toNat_setWidth, BitVec.toNat_ushiftRight, Nat.shiftRight_eq_div_pow, Nat.pow_mul]
    rw [lineBytes, natOfBytes, ih, byte, Nat.pow_succ 256 i, ← Nat.div_div_eq_div_mul, Nat.pow_succ' (n := n), Nat.mod_mul]

theorem toNat_lt_of_bytes (k : Nat) (d : BitVec (8 * k)) : d.toNat < 256 ^ k := d.isLt.trans_eq (Nat.pow_mul 2 8 k)

/-- R136: a line read whole is that line. -/
theorem ofNat_lineBytes (d : BitVec 1024) : BitVec.ofNat 1024 (natOfBytes (lineBytes d 0 128)) = d := by
  have whole : d.toNat < 256 ^ 128 := toNat_lt_of_bytes 128 d
  rw [natOfBytes_lineBytes_div, Nat.pow_zero, Nat.div_one, Nat.mod_eq_of_lt whole, BitVec.ofNat_toNat, BitVec.setWidth_eq]

theorem placeNum_congr {s u : State} {h g : Hart} {space : Nat} (same : ∀ q, u.placeByte g space q = s.placeByte h space q)
    (q : Nat × Nat) (n : Nat) : u.placeNum g space q n = s.placeNum h space q n := by
  induction n generalizing q with
  | zero => rfl
  | succ n ih => rw [State.placeNum, State.placeNum, same, ih]

theorem placeNum_home (s : State) (h : Hart) (part gpa n : Nat) : s.placeNum h 0 (part, gpa) n = s.numAt part gpa n := by
  induction n generalizing gpa with
  | zero => rfl
  | succ n ih => rw [State.placeNum, State.numAt, ih]; rfl

theorem placeNum_lt (s : State) (h : Hart) (space : Nat) (q : Nat × Nat) (n : Nat) : s.placeNum h space q n < 256 ^ n := by
  induction n generalizing q with
  | zero => exact Nat.one_pos
  | succ n ih =>
    have byte := (s.placeByte h space q).isLt
    have rest := ih (q.1, q.2 + 1)
    rw [State.placeNum, Nat.pow_succ']
    omega

/-- R6: a number in a memory whose bytes are those of a place. -/
theorem natOfBytes_placeBytes {s : State} {h : Hart} {space : Nat} {m : Memory} {o a : Nat} {place : Nat → Nat}
    (bytes : ∀ i, s.placeByte h space (o, i) = Memory.read m (place i)) (next : ∀ i, place (i + 1) = place i + 1) (n : Nat) :
    natOfBytes (Memory.bytes m (place a) n) = s.placeNum h space (o, a) n := by
  induction n generalizing a with
  | zero => rfl
  | succ n ih => rw [Memory.bytes, natOfBytes, State.placeNum, bytes, ← next, ih]

section
variable (s : State) (lane owner addr n : Nat) (va : DWord)

theorem spotBytes_home : s.spotBytes ⟨lane, 0, owner, addr, va⟩ n = s.bytesAt owner addr n := rfl

theorem spotBytes_spad {space : Nat} (hs : space = 1 ∨ space = 2) :
    s.spotBytes ⟨lane, space, owner, addr, va⟩ n = Memory.bytes (s.core owner).spad addr n := by
  rcases hs with rfl | rfl <;> rfl

theorem spotBytes_ds : s.spotBytes ⟨lane, 3, owner, addr, va⟩ n =
    Memory.bytes (s.die (owner / 64)).ds (dsAddr (owner % 64) addr) n := rfl

theorem spotBytes_slice {h : Hart} (hc : s.hart? s.cur = some h) :
    s.spotBytes ⟨lane, 4, owner, addr, va⟩ n = Memory.bytes h.lanes.slice (lane * 256 + addr) n := by
  simp only [State.spotBytes, hc]

theorem placeByte_spad (h : Hart) {space : Nat} (hs : space = 1 ∨ space = 2) (q : Nat × Nat) :
    s.placeByte h space q = Memory.read (s.core q.1).spad q.2 := by
  rcases hs with rfl | rfl <;> rfl

theorem placeByte_ds (h : Hart) (q : Nat × Nat) :
    s.placeByte h 3 q = Memory.read (s.die (q.1 / 64)).ds (dsAddr (q.1 % 64) q.2) := rfl

theorem placeByte_slice (h : Hart) (q : Nat × Nat) : s.placeByte h 4 q = Memory.read h.lanes.slice (q.1 * 256 + q.2) := rfl

end

theorem dsAddr_succ (part i : Nat) : dsAddr part (i + 1) = dsAddr part i + 1 := by
  unfold dsAddr
  exact (Nat.add_assoc ..).symm

/-- R129: the spaces. -/
theorem space_cases {space : Nat} (known : space ≤ 4) : space = 0 ∨ (space = 1 ∨ space = 2) ∨ space = 3 ∨ space = 4 := by omega

/-- R129: the bytes of a place, as a number. -/
theorem natOfBytes_spotBytes {s : State} {h : Hart} (hc : s.hart? s.cur = some h) {lane space owner addr n : Nat} (va : DWord)
    (known : space ≤ 4) (home : space = 0 → s.standsAtHome owner addr ∧ addr % 128 + n ≤ 128) (own : space = 4 → owner = lane) :
    natOfBytes (s.spotBytes ⟨lane, space, owner, addr, va⟩ n) = s.placeNum h space (owner, addr) n := by
  rcases space_cases known with rfl | spad | rfl | rfl
  · obtain ⟨stands, inside⟩ := home rfl
    rw [spotBytes_home, bytesAt_stands n stands, natOfBytes_lineBytes s owner n addr inside, placeNum_home]
  · rw [spotBytes_spad _ _ _ _ _ _ spad]
    exact natOfBytes_placeBytes (h := h) (place := fun i => i) (fun i => placeByte_spad s h spad (owner, i)) (fun _ => rfl) n
  · rw [spotBytes_ds]
    exact natOfBytes_placeBytes (h := h) (fun i => placeByte_ds s h (owner, i)) (dsAddr_succ (owner % 64)) n
  · rw [spotBytes_slice _ _ _ _ _ _ hc, ← own rfl]
    exact natOfBytes_placeBytes (place := fun i => owner * 256 + i) (fun i => placeByte_slice s h (owner, i))
      (fun _ => (Nat.add_assoc ..).symm) n

theorem spotOf_slice {s : State} {h : Hart} {lane off n : Nat} {q : Nat × Nat} (spot : s.spotOf h 4 lane off n = .ok q) :
    q = (lane, off) ∧ off + n ≤ 256 := by
  unfold State.spotOf at spot
  split at spot
  · cases spot
  · by_cases inside : off + n ≤ 256
    · simp only [inside, if_true] at spot
      exact ⟨(Except.ok.inj spot).symm, inside⟩
    · simp only [inside, if_false] at spot
      cases spot

/-! ## The places of plain accesses -/

section
variable {s : State} {h : Hart} {space n : Nat} {k : AccKind} {as : List LaneAcc} {at_ : LaneAcc → Nat × Nat}
  (plain : PlainLanes s h space n k as at_) {a : LaneAcc} (ha : a ∈ as)
include plain ha

theorem PlainLanes.stands (home : space = 0) : s.standsAtHome (at_ a).1 (at_ a).2 := by
  obtain ⟨owner, -, -, -, -, -, -, stands⟩ := plain.translated home a ha
  rw [owner]
  exact stands

theorem PlainLanes.below (home : space = 0) : (at_ a).2 < 2 ^ 52 := by
  obtain ⟨-, -, -, below, -⟩ := plain.translated home a ha
  exact below

theorem PlainLanes.inLine (hn : n = 1 ∨ n = 2 ∨ n = 4 ∨ n = 8) (home : space = 0) : (at_ a).2 % 128 + n ≤ 128 := by
  obtain ⟨-, -, offset, -⟩ := plain.translated home a ha
  have aligned := plain.aligned a ha
  rcases hn with rfl | rfl | rfl | rfl <;> omega

/-- R129: a lane's own slice. -/
theorem PlainLanes.ownSlice (slice : space = 4) : (at_ a).1 = a.1 ∧ (at_ a).2 + n ≤ 256 := by
  have spot := plain.beyond (by omega) a ha
  rw [slice] at spot
  obtain ⟨place, inside⟩ := spotOf_slice spot
  rw [place]
  exact ⟨rfl, inside⟩

end

/-! ## The package while plain lanes read -/

/-- R136: the package after lane reads of plain accesses `as`: caches of data have moved and free values were drawn; the lane L1 of
the acting hart's core shows what stands at home. -/
structure LanesRead (s u : State) (as : List LaneAcc) (at_ : LaneAcc → Nat × Nat) : Prop where
  rest : u = { s with cores := u.cores, latencies := u.latencies, fresh := u.fresh }
  cores : CachesOnly s u
  listed : Map.sorted (u.core (coreOf s.cur)).l1 = true
  coherent : ∀ a ∈ as, ∀ l, Map.find (u.core (coreOf s.cur)).l1 (lineKey (at_ a).1 (at_ a).2) = some l →
    l.data = s.llcData (at_ a).1 (at_ a).2

namespace LanesRead

variable {s u : State} {as : List LaneAcc} {at_ : LaneAcc → Nat × Nat} (read : LanesRead s u as at_)
include read

theorem cur_eq : u.cur = s.cur := (congrArg State.cur read.rest :)

theorem mem_eq : u.mem = s.mem := (congrArg State.mem read.rest :)

theorem dies_eq : u.dies = s.dies := (congrArg State.dies read.rest :)

theorem harts_eq : u.harts = s.harts := (congrArg State.harts read.rest :)

theorem acting {h : Hart} (hc : s.hart? s.cur = some h) : u.hart? u.cur = some h := by
  rw [State.hart?, read.harts_eq, read.cur_eq]
  exact hc

theorem spad_eq (c : Nat) : (u.core c).spad = (s.core c).spad := (congrArg Core.spad (read.cores c) :)

theorem flight_eq (c : Nat) : (u.core c).flight = (s.core c).flight := (congrArg Core.flight (read.cores c) :)

theorem placeByte_eq (h : Hart) (space : Nat) (q : Nat × Nat) : u.placeByte h space q = s.placeByte h space q := by
  unfold State.placeByte State.byteAt State.llcData State.die
  simp only [read.mem_eq, read.dies_eq, read.spad_eq]

theorem ready_eq (quiet : (s.core (coreOf s.cur)).flight = []) (spots : List Spot) : u.readySpots spots = u := by
  have none : (u.core (coreOf u.cur)).flight = [] := by rw [read.cur_eq, read.flight_eq, quiet]
  unfold State.readySpots
  refine foldl_stepwise (fun _ v => v = u) rfl spots ?_
  rintro _ p _ v _ rfl
  rw [drainPlace_of_quiet _ none, ite_self]

end LanesRead

end Sys2Proof.Machine
end

section
/-! One lane's read among plain ones (R136, R144): its value and what it moves. -/

namespace Sys2Proof.Machine

open Sys2Proof

/-! ## The start of a standing line -/

theorem bits_line (g hi : Nat) {lo : Nat} (high : 7 ≤ lo) : bits (g / 128 * 128) hi lo = bits g hi lo := by
  obtain ⟨k, rfl⟩ := Nat.exists_eq_add_of_le high
  rw [bits, bits, Nat.pow_add, ← Nat.div_div_eq_div_mul, ← Nat.div_div_eq_div_mul, Nat.mul_div_cancel _ (by decide : 0 < 128)]

theorem homeOf_line (r : Range) (g : Nat) : homeOf r (g / 128 * 128) = homeOf r g := by
  unfold homeOf sliceOf hashOf
  simp only [bits_line g _ (by decide : 7 ≤ 7), bits_line g _ (by decide : 7 ≤ 13), bits_line g _ (by decide : 7 ≤ 19),
    bits_line g _ (by decide : 7 ≤ 25), bits_line g _ (by decide : 7 ≤ 31), bits_line g _ (by decide : 7 ≤ 37),
    bits_line g _ (by decide : 7 ≤ 43), bits_line g _ (by decide : 7 ≤ 49), bits_line g _ (by decide : 7 ≤ 16),
    bits_line g _ (by decide : 7 ≤ 34)]

theorem lineKey_line (part g : Nat) : lineKey part (g / 128 * 128) = lineKey part g := by
  rw [lineKey, lineKey, Nat.mul_div_cancel _ (by decide : 0 < 128)]

/-- R17: where an address stands at home, so does its line's start. -/
theorem standsAtHome_line {s : State} {part gpa : Nat} (hs : s.standsAtHome part gpa) : s.standsAtHome part (gpa / 128 * 128) := by
  obtain ⟨p, r, l, hp, hr, hcls, accepts, hl, fine⟩ := hs
  refine ⟨p, r, l, hp, ?_, hcls, by rw [homeOf_line]; exact accepts, by rw [lineKey_line]; exact hl, fine⟩
  rw [Part.range?, show gpa / 128 * 128 / 2 ^ 21 = gpa / 2 ^ 21 by omega]
  exact hr

/-- R136: the line that a standing address lies in. -/
theorem lineData_stands {s : State} {part gpa : Nat} (hs : s.standsAtHome part gpa) :
    BitVec.ofNat 1024 (natOfBytes (s.bytesAt part (gpa / 128 * 128) 128)) = s.llcData part gpa := by
  rw [bytesAt_stands 128 (standsAtHome_line hs), show gpa / 128 * 128 % 128 = 0 by omega, ofNat_lineBytes, State.llcData, State.llcData,
    lineKey_line]

theorem core_cleanHdc_l1 (s : State) (part gpa c : Nat) (but : Option Nat) : ((s.cleanHdc part gpa but).core c).l1 = (s.core c).l1 := by
  unfold State.cleanHdc
  split
  · rw [State.core, State.core, Map.findD, Map.findD, Map.find_mapVal]
    cases Map.find s.cores c with
    | none => rfl
    | some v =>
      dsimp only [Option.map_some, Option.getD_some]
      split <;> rfl
  · rfl

theorem core_allocL1_l1 (s : State) (part gpa : Nat) (streaming : Bool) :
    ((s.allocL1 part gpa streaming).core (coreOf s.cur)).l1 = l1Insert s.fresh (s.core (coreOf s.cur)).l1 (lineKey part gpa)
      ⟨BitVec.ofNat 1024 (natOfBytes (s.bytesAt part (gpa / 128 * 128) 128)), streaming⟩ := by
  rw [← core_cleanHdc_l1 s part gpa (coreOf s.cur) none]
  exact congrArg Core.l1 ((State.core_setCore ..).trans (if_pos rfl))

namespace LanesRead

variable {s u : State} {as : List LaneAcc} {at_ : LaneAcc → Nat × Nat} (read : LanesRead s u as at_)
include read

theorem stands {part gpa : Nat} (hs : s.standsAtHome part gpa) : u.standsAtHome part gpa := by
  rw [read.rest]
  exact hs

/-- Caches of data move; lines stay in the lane L1 or show what stands at home. -/
theorem moved {v : State} (move : CachesMoved u v) (fresh : Nat)
    (listed : Map.sorted (v.core (coreOf s.cur)).l1 = true)
    (coherent : ∀ a ∈ as, ∀ l, Map.find (v.core (coreOf s.cur)).l1 (lineKey (at_ a).1 (at_ a).2) = some l →
      l.data = s.llcData (at_ a).1 (at_ a).2) : LanesRead s { v with fresh := fresh } as at_ := by
  refine ⟨?_, read.cores.trans move.cores, listed, coherent⟩
  have back := (congrArg (fun w : State => { w with cores := v.cores, fresh := fresh }) move.rest :)
  exact back.trans ((congrArg (fun w : State => { w with cores := v.cores, fresh := fresh }) read.rest :).trans
    (by rw [← move.rest]))

theorem cleanHdc (part gpa : Nat) : LanesRead s (u.cleanHdc part gpa none) as at_ := by
  have l1 : ((u.cleanHdc part gpa none).core (coreOf s.cur)).l1 = (u.core (coreOf s.cur)).l1 := core_cleanHdc_l1 ..
  exact read.moved (cleanHdc_cachesMoved u part gpa none) _ (l1 ▸ read.listed) (l1 ▸ read.coherent)

/-- R136, R138: a line that stands at home enters the lane L1. -/
theorem allocL1 {a : LaneAcc} (streaming : Bool) (stands : s.standsAtHome (at_ a).1 (at_ a).2)
    (below : ∀ b ∈ as, (at_ b).2 < 2 ^ 52) (ha : a ∈ as) :
    LanesRead s (u.allocL1 (at_ a).1 (at_ a).2 streaming) as at_ := by
  have l1 := core_allocL1_l1 u (at_ a).1 (at_ a).2 streaming
  rw [read.cur_eq, lineData_stands (read.stands stands)] at l1
  obtain ⟨listed, lines⟩ := l1Insert_lines u.fresh read.listed (lineKey (at_ a).1 (at_ a).2)
    ⟨u.llcData (at_ a).1 (at_ a).2, streaming⟩
  refine read.moved ((cleanHdc_cachesMoved u (at_ a).1 (at_ a).2 none).trans (.modCore _ (coreOf u.cur)
    (f := fun c => { c with l1 := (l1Insert u.fresh c.l1 (lineKey (at_ a).1 (at_ a).2)
      ⟨BitVec.ofNat 1024 (natOfBytes (u.bytesAt (at_ a).1 ((at_ a).2 / 128 * 128) 128)), streaming⟩) }) fun _ => rfl)) _ ?_ ?_
  · exact (congrArg (fun m => Map.sorted m = true) l1).mpr listed
  · intro b hb l found
    rcases lines _ _ ((congrArg (Map.find · _) l1).symm.trans found) with ⟨key, rfl⟩ | before
    · obtain ⟨owner, line⟩ := (lineKey_inj (below b hb) (below a ha)).1 key
      exact (congrArg (fun m => ({ s with mem := m }).llcData (at_ a).1 (at_ a).2) read.mem_eq :).trans (by
        rw [State.llcData, State.llcData, key])
    · exact read.coherent b hb l before

/-- R136, R144: one lane's read. -/
theorem laneRead {h : Hart} {space n : Nat} {k : AccKind} (plain : PlainLanes s h space n k as at_) (hc : s.hart? s.cur = some h)
    (known : space ≤ 4) (hn : n = 1 ∨ n = 2 ∨ n = 4 ∨ n = 8) (policy : Nat) {a : LaneAcc} (ha : a ∈ as) :
    natOfBytes (u.laneRead policy (plainSpot space at_ a) n).1 = s.placeNum h space (at_ a) n ∧
      LanesRead s (u.laneRead policy (plainSpot space at_ a) n).2 as at_ := by
  have ready : u.readySpots [plainSpot space at_ a] = u := read.ready_eq plain.quiet _
  have value {v : State} (now : LanesRead s v as at_) :
      natOfBytes (v.spotBytes (plainSpot space at_ a) n) = s.placeNum h space (at_ a) n := by
    rw [plainSpot, natOfBytes_spotBytes (now.acting hc) _ known (fun home => ⟨now.stands (plain.stands ha home), plain.inLine ha hn home⟩)
      (fun slice => (plain.ownSlice ha slice).1)]
    exact placeNum_congr (now.placeByte_eq h space) _ n
  unfold State.laneRead
  by_cases cached : ((plainSpot space at_ a).space = 0 && policy != 2) = true
  · have home : space = 0 := by
      rw [Bool.and_eq_true, decide_eq_true_eq] at cached
      exact cached.1
    rw [if_pos cached]
    split
    · next l found =>
      rw [read.cur_eq] at found
      have line := read.coherent a ha l found
      have settled : u.settleL1 (plainSpot space at_ a) = u := by
        simp [State.settleL1, read.cur_eq, read.flight_eq, plain.quiet]
      refine ⟨?_, settled.symm ▸ read⟩
      dsimp only [plainSpot]
      rw [line, natOfBytes_lineBytes s _ n _ (plain.inLine ha hn home), home]
      exact (placeNum_home ..).symm
    · rw [ready]
      have now := read.allocL1 (policy == 1) (plain.stands ha home) (fun b hb => plain.below hb home) ha
      exact ⟨value now, now⟩
  · rw [if_neg cached, ready]
    dsimp only
    by_cases home : (plainSpot space at_ a).space = 0
    · rw [if_pos home]
      have now := read.cleanHdc (at_ a).1 (at_ a).2
      exact ⟨value now, now⟩
    · rw [if_neg home]
      exact ⟨value read, read⟩

end LanesRead

end Sys2Proof.Machine
end

section
/-! Plain lane loads (R144, R146): the reads of all lanes, one after the other, and the registers they go to. -/

namespace Sys2Proof.Machine

open Sys2Proof

/-! ## Lane registers written -/

theorem extract_hi (v : Nat) : (BitVec.ofNat 64 v).extractLsb' 32 32 = BitVec.ofNat 32 (v / 2 ^ 32) := by
  apply BitVec.eq_of_toNat_eq
  rw [BitVec.extractLsb'_toNat, BitVec.toNat_ofNat, BitVec.toNat_ofNat, Nat.shiftRight_eq_div_pow]
  omega

theorem setWidth_lo (v : Nat) : (BitVec.ofNat 64 v).setWidth 32 = BitVec.ofNat 32 v := by
  apply BitVec.eq_of_toNat_eq
  rw [BitVec.toNat_setWidth, BitVec.toNat_ofNat, BitVec.toNat_ofNat]
  omega

/-- R32: what a register holds after a lane's value went to `r`, or to the pair from it on. -/
theorem Hart.getV_setLaneVal_ite {h : Hart} (sorted : Map.sorted h.lanes.v = true) {l m : Nat} (hl : l < 32) (hm : m < 32) (t : Ty)
    (r v q : Nat) : (h.setLaneVal t r l v).getV q m =
      if m = l ∧ q = r then BitVec.ofNat 32 v else if m = l ∧ t = .f64 ∧ q = r + 1 then BitVec.ofNat 32 (v / 2 ^ 32) else h.getV q m := by
  unfold Hart.setLaneVal Hart.setPair
  split
  · next wide =>
    rw [Hart.getV_setV _ _ _ _ _ _ (Hart.sorted_setV _ _ _ _ sorted) hl hm, Hart.getV_setV _ _ _ _ _ _ sorted hl hm, extract_hi, setWidth_lo]
    by_cases lane : m = l
    · by_cases first : q = r
      · simp [lane, first]
      · simp [lane, first, wide]
    · simp [lane]
  · next narrow =>
    rw [Hart.getV_setV _ _ _ _ _ _ sorted hl hm]
    simp [narrow, and_comm]

/-- R60: the lanes `ls` take their values, one after the other. -/
theorem getV_foldl_setLaneVal {h : Hart} (sorted : Map.sorted h.lanes.v = true) (t : Ty) (r : Nat) (val : Nat → Nat) (ls : List Nat)
    (small : ∀ l ∈ ls, l < 32) {m : Nat} (hm : m < 32) (q : Nat) :
    (ls.foldl (fun k l => k.setLaneVal t r l (val l)) h).getV q m =
      if m ∈ ls ∧ q = r then BitVec.ofNat 32 (val m)
      else if m ∈ ls ∧ t = .f64 ∧ q = r + 1 then BitVec.ofNat 32 (val m / 2 ^ 32) else h.getV q m := by
  induction ls generalizing h with
  | nil => simp
  | cons l ls ih =>
    rw [List.foldl_cons, ih (Hart.sorted_setLaneVal sorted t r (val l)) fun m hm => small m (List.mem_cons_of_mem _ hm),
      Hart.getV_setLaneVal_ite sorted (small l List.mem_cons_self) hm]
    by_cases e : m = l
    · subst e
      by_cases first : q = r
      · simp [first]
      · by_cases wide : t = .f64 ∧ q = r + 1
        · simp [wide]
        · simp [first, wide]
    · simp [e]

/-- R60: words put in registers of lanes, each the word of its register and lane. -/
theorem getV_foldl_setV {β : Type} {h : Hart} (sorted : Map.sorted h.lanes.v = true) (reg lane : β → Nat) (put : β → Word)
    (word : Nat → Nat → Word) (es : List β) (puts : ∀ e ∈ es, lane e < 32 ∧ put e = word (reg e) (lane e)) {m : Nat} (hm : m < 32)
    (q : Nat) : (es.foldl (fun k e => k.setV (reg e) (lane e) (put e)) h).getV q m =
      if ∃ e ∈ es, reg e = q ∧ lane e = m then word q m else h.getV q m := by
  induction es generalizing h with
  | nil => simp
  | cons e es ih =>
    obtain ⟨small, here⟩ := puts e List.mem_cons_self
    rw [List.foldl_cons, ih (Hart.sorted_setV _ _ _ _ sorted) fun d hd => puts d (List.mem_cons_of_mem _ hd),
      Hart.getV_setV _ _ _ _ _ _ sorted small hm, here]
    by_cases later : ∃ d ∈ es, reg d = q ∧ lane d = m
    · obtain ⟨d, hd, at_⟩ := later
      rw [if_pos ⟨d, hd, at_⟩, if_pos ⟨d, List.mem_cons_of_mem _ hd, at_⟩]
    · rw [if_neg later]
      by_cases first : q = reg e ∧ m = lane e
      · obtain ⟨rfl, rfl⟩ := first
        rw [if_pos ⟨rfl, rfl⟩, if_pos ⟨e, List.mem_cons_self, rfl, rfl⟩]
      · rw [if_neg first, if_neg]
        rintro ⟨d, hd, at_⟩
        rcases List.mem_cons.1 hd with rfl | hd
        · exact first ⟨at_.1.symm, at_.2.symm⟩
        · exact later ⟨d, hd, at_⟩

/-- A hart but for its lane registers. -/
def VOnly (h k : Hart) : Prop := k = { h with lanes := { h.lanes with v := k.lanes.v } }

theorem Hart.setV_vOnly (h : Hart) (r l : Nat) (w : Word) : VOnly h (h.setV r l w) := rfl

theorem VOnly.foldl {β : Type} {f : Hart → β → Hart} (each : ∀ k b, VOnly k (f k b)) (es : List β) (h : Hart) :
    VOnly h (es.foldl f h) := by
  induction es generalizing h with
  | nil => rfl
  | cons e es ih =>
    have rest : VOnly (f h e) (es.foldl f (f h e)) := ih _
    unfold VOnly at rest each
    rw [List.foldl_cons, VOnly, rest, each h e]

/-! ## Lists that folds make -/

theorem foldl_concat {α β : Type} (f : α → β) (as : List α) : as.foldl (fun c a => c ++ [f a]) [] = as.map f := by
  rw [List.foldl_append_eq_append, List.nil_append, ← List.flatMap_def, ← List.map_eq_flatMap]

theorem foldl_cons_reverse {α β : Type} (f : α → β) (as : List α) (c : List β) :
    as.foldl (fun c a => f a :: c) c = (as.map f).reverse ++ c := by
  induction as generalizing c with
  | nil => rfl
  | cons a as ih => rw [List.foldl_cons, ih, List.map_cons, List.reverse_cons, List.append_assoc, List.singleton_append]

/-- The elements of rows of width `w`, each numbered: the number gives the place in the row. -/
theorem mem_zipIdx_rows {α : Type} (row : Nat → Nat → α) {w : Nat} (ls : List Nat) (b : Nat) (a : α) (j : Nat) :
    (∃ i, (a, i) ∈ ((ls.map fun l => (List.range w).map (row l)).flatten).zipIdx (w * b) ∧ i % w = j) ↔
      ∃ l ∈ ls, j < w ∧ a = row l j := by
  induction ls generalizing b with
  | nil => simp
  | cons l ls ih =>
    have first : (∃ i, (a, i) ∈ ((List.range w).map (row l)).zipIdx (w * b) ∧ i % w = j) ↔ j < w ∧ a = row l j := by
      constructor
      · rintro ⟨i, mem, rfl⟩
        obtain ⟨le, at_⟩ := List.mk_mem_zipIdx_iff_le_and_getElem?_sub.1 mem
        obtain ⟨lt, rfl⟩ := List.getElem?_eq_some_iff.1 at_
        rw [List.length_map, List.length_range] at lt
        obtain ⟨d, rfl⟩ := Nat.exists_eq_add_of_le le
        rw [Nat.add_sub_cancel_left] at lt
        simp only [Nat.add_sub_cancel_left, List.getElem_map, List.getElem_range, Nat.mul_add_mod, Nat.mod_eq_of_lt lt, and_true]
        exact lt
      · rintro ⟨lt, rfl⟩
        refine ⟨w * b + j, List.mk_mem_zipIdx_iff_le_and_getElem?_sub.2 ⟨Nat.le_add_right _ _, ?_⟩, ?_⟩
        · rw [Nat.add_sub_cancel_left, List.getElem?_map, List.getElem?_range lt]
          rfl
        · rw [Nat.mul_add_mod, Nat.mod_eq_of_lt lt]
    rw [List.map_cons, List.flatten_cons, List.zipIdx_append, List.length_map, List.length_range, ← Nat.mul_succ]
    simp only [List.mem_append, or_and_right, exists_or, first, ih, List.mem_cons, exists_eq_left]

/-! ## All lanes' reads -/

/-- R144: the reads of plain accesses, one after the other, each put where it belongs. -/
theorem LanesRead.foldl {s u : State} {h : Hart} {space n : Nat} {k : AccKind} {as : List LaneAcc} {at_ : LaneAcc → Nat × Nat}
    (read : LanesRead s u as at_) (plain : PlainLanes s h space n k as at_) (hc : s.hart? s.cur = some h)
    (known : space ≤ 4) (hn : n = 1 ∨ n = 2 ∨ n = 4 ∨ n = 8) (policy : Nat) {β γ : Type} (place : β → LaneAcc)
    (put : γ → β → Nat → γ) (ps : List β) (among : ∀ p ∈ ps, place p ∈ as) (c : γ) :
    ∃ v, LanesRead s v as at_ ∧ ps.foldl (fun (acc : γ × State) p =>
        (put acc.1 p (natOfBytes (acc.2.laneRead policy (plainSpot space at_ (place p)) n).1),
          (acc.2.laneRead policy (plainSpot space at_ (place p)) n).2)) (c, u) =
      (ps.foldl (fun c p => put c p (s.placeNum h space (at_ (place p)) n)) c, v) := by
  induction ps generalizing c u with
  | nil => exact ⟨u, read, rfl⟩
  | cons p ps ih =>
    obtain ⟨value, now⟩ := read.laneRead plain hc known hn policy (among p List.mem_cons_self)
    rw [List.foldl_cons, value]
    exact ih now (fun q hq => among q (List.mem_cons_of_mem _ hq)) _

/-- R60, R144, R146: the outcome `o` of a lane load of the acting hart `h`: its lane registers read as `v`. -/
def LoadGives (s : State) (h : Hart) (o : Out) (v : Nat → Nat → Word) : Prop :=
  ∃ t h', o = .next t ∧ t.hart? s.cur = some h' ∧
    (∀ j, j ≠ s.cur → t.hart? j = s.hart? j) ∧ LaneMemKept h h' 8 ∧ h'.lanes.slice = h.lanes.slice ∧ h'.dev = h.dev ∧
    h'.run.resv = h.run.resv ∧ LaneMemRest s t ∧ t.mem = s.mem ∧ t.dies = s.dies ∧ (∀ c, (t.core c).spad = (s.core c).spad) ∧
    ∀ r l, l < 32 → h'.getV r l = v r l

theorem MaySpoil.refl (l : Launch) : MaySpoil l l := by
  refine ⟨fun _ => false, ?_⟩
  simp

theorem LaneMemKept.of_vOnly {h k : Hart} (only : VOnly h k) (len : Nat) : LaneMemKept h (k.retire len) len := by
  obtain ⟨kx, kl, kd, -⟩ := Hart.retireTo_keeps k (k.nextPc len)
  rw [← Hart.retire_eq] at kx kl kd
  unfold VOnly at only
  refine ⟨?_, ?_, ?_, ?_⟩
  · rw [Hart.retire_eq, show k.nextPc len = h.nextPc len by rw [only]; rfl]
    refine (Hart.retireTo_retires k _).of_same ?_ ?_ ?_ ?_ <;> rw [only]
  · rw [kx, only]
  · rw [kl, only]
  · rw [kd, only]

theorem LanesRead.gives {s u : State} {h k : Hart} {as : List LaneAcc} {at_ : LaneAcc → Nat × Nat} (read : LanesRead s u as at_)
    (only : VOnly h k) {v : Nat → Nat → Word} (value : ∀ r l, l < 32 → k.getV r l = v r l) :
    LoadGives s h (.next (u.setCur (k.retire 8))) v := by
  obtain ⟨-, kl, kd, kr⟩ := Hart.retireTo_keeps k (k.nextPc 8)
  rw [← Hart.retire_eq] at kl kd kr
  have kept := LaneMemKept.of_vOnly only 8
  unfold VOnly at only
  have cur := read.cur_eq
  refine ⟨_, _, rfl, ?_, fun j hj => ?_, kept, ?_, ?_, ?_, ⟨fun c => ?_, fun d => ?_, ?_, fun l => ?_, ?_⟩, read.mem_eq, read.dies_eq,
    fun c => read.spad_eq c, fun r l hl => ?_⟩
  · rw [← cur]
    exact State.hart?_setCur _ _
  · rw [State.hart?_setCur_other _ _ j (cur ▸ hj), State.hart?, read.harts_eq, State.hart?]
  · rw [kl, only]
  · rw [kd, only]
  · rw [kr, Hart.settle, only]
  · exact (congrArg (fun c' : Core => { c' with spad := (s.core c).spad }) (read.cores c) :)
  · rw [show (u.setCur (k.retire 8)).die d = s.die d from (congrArg (fun ds => ({ s with dies := ds }).die d) read.dies_eq :)]
  · exact (congrArg (fun m : Mem => { m with llc := s.mem.llc }) read.mem_eq :)
  · have launches : u.launches = s.launches := (congrArg State.launches read.rest :)
    have same : (u.setCur (k.retire 8)).launch? l = s.launch? l := (congrArg (fun ls => ({ s with launches := ls }).launch? l) launches :)
    rw [same]
    cases s.launch? l with
    | none => exact .inl ⟨rfl, rfl⟩
    | some L => exact .inr ⟨L, L, rfl, rfl, .refl L⟩
  · exact (congrArg (fun v : State => { v with
      harts := s.harts, cores := s.cores, dies := s.dies, mem := s.mem, launches := s.launches, schedule := s.schedule
      latencies := s.latencies, fresh := s.fresh, tag := s.tag }) read.rest :)
  · rw [Hart.getV, kl]
    exact value r l hl

/-! ## The instructions -/

theorem asSigned_of_lt {w p : Nat} (hw : 0 < w) (hp : p < 2 ^ w) : asSigned w p = readSigned w p := by
  have half : 2 * 2 ^ (w - 1) = 2 ^ w := by rw [← Nat.pow_succ', Nat.succ_eq_add_one, Nat.sub_add_cancel hw]
  rw [asSigned, readSigned, BitVec.toInt_eq_toNat_cond, BitVec.toNat_ofNat, Nat.mod_eq_of_lt hp]
  by_cases low : p < 2 ^ (w - 1)
  · rw [if_pos low, if_pos (by omega)]
  · rw [if_neg low, if_neg (by omega)]
    norm_cast

/-- R45: the bytes of a size code. -/
theorem sizeBytes_cases (z : BitVec 2) : 2 ^ z.toNat = 1 ∨ 2 ^ z.toNat = 2 ∨ 2 ^ z.toNat = 4 ∨ 2 ^ z.toNat = 8 := by
  revert z
  decide

/-- R36: a doubleword access that the partition does not mask. -/
theorem dwordMasked_eq_false {m : LaneMem} {s : State} {h : Hart} (unmasked : ¬ (m.size = 3 ∧ s.pfmask h 4 = true)) :
    dwordMasked m s h = false := by
  refine Bool.eq_false_iff.2 fun masked => unmasked ?_
  rw [dwordMasked, Bool.and_eq_true, beq_iff_eq] at masked
  exact masked

/-- R144: the value of a lane's load, from the number at its place. -/
def loadedNum (m : LaneMem) (p : Nat) : Nat :=
  if m.sx then (asSigned (8 * sizeBytes m) p % 2 ^ 32).toNat else p

theorem loadedNum_eq (m : LaneMem) {p : Nat} (hp : p < 256 ^ sizeBytes m) :
    loadedNum m p = if m.sx then (BitVec.ofInt 32 (readSigned (8 * sizeBytes m) p)).toNat else p := by
  unfold loadedNum
  have wide : 0 < 8 * sizeBytes m := Nat.mul_pos (by decide) (Nat.two_pow_pos _)
  rw [asSigned_of_lt wide (hp.trans_eq (Nat.pow_mul 2 8 _).symm), BitVec.toNat_ofInt]
  rfl

/-- R45: the accesses of a lane memory instruction, one of each active lane. -/
def laneAccs (h : Hart) (m : LaneMem) (imm : BitVec 16) : List LaneAcc :=
  (h.activeLanes m.guard).map fun l => (l, laneAddr h m imm l, laneAddr h m imm l)

theorem laneAccs_on (h : Hart) (m : LaneMem) (imm : BitVec 16) : ∀ a ∈ laneAccs h m imm, h.lanes.em.getLsbD a.1 = true := by
  intro a ha
  obtain ⟨l, hl, rfl⟩ := List.mem_map.1 ha
  exact em_of_active hl

/-- R93, R136: whether the data of reads of `live` places comes from beyond the core. -/
def State.readsAway (s : State) (space : Nat) (useL1 : Bool) (live : List Spot) : Bool :=
  (space == 0 && live.any (fun p => !s.l1Serves p.owner p.addr useL1)) || ((space == 2 || space == 3) && !live.isEmpty)

/-- R144: the hart and the package after the reads of `lld`. -/
def putLoads (m : LaneMem) (any : Bool) (r : List (Nat × Nat) × State) : State :=
  let t : Ty := if m.size = 3 then .f64 else .i32
  match r.2.hart? r.2.cur with
  | none => r.2
  | some k => r.2.laneDone k (r.1.foldl (fun q e => q.setLaneVal t m.vd.toNat e.1 e.2) k) (destRegs t m.vd.toNat) any 8

/-- R144, R173: the reads of `lld` at its places, one after the other. -/
def readLoads (m : LaneMem) (policy : Nat) (live : List Spot) (h : Hart) (s5 : State) : List (Nat × Nat) × State :=
  live.foldl (fun (acc : List (Nat × Nat) × State) p =>
    let v := if s5.ordered h then acc.2.orderedRead h p (sizeBytes m) else acc.2.laneRead policy p (sizeBytes m)
    (acc.1 ++ [(p.lane, laneLoaded m v.1)], v.2)) ([], s5)

/-- R146: the hart and the package after the reads of `lldt`. -/
def putRows (m : LaneMem) (any : Bool) (r : List (Nat × Nat × Nat) × State) : State :=
  match r.2.hart? r.2.cur with
  | none => r.2
  | some k => r.2.laneDone k (r.1.foldl (fun q e => q.setV (m.vd.toNat + e.2.1) e.1 (BitVec.ofNat 32 e.2.2)) k)
      ((upTo 32).map (fun j => m.vd.toNat + j)) any 8

/-- R146, R173: the reads of `lldt` at its places, one after the other. -/
def readRows (policy : Nat) (live : List (Spot × Nat)) (h : Hart) (s5 : State) : List (Nat × Nat × Nat) × State :=
  live.foldl (fun (acc : List (Nat × Nat × Nat) × State) p =>
    let v := if s5.ordered h then acc.2.orderedRead h p.1 4 else acc.2.laneRead policy p.1 4
    ((p.1.lane, p.2 % 32, natOfBytes v.1) :: acc.1, v.2)) ([], s5)

/-- R93: the package as the reads of plain lanes begin. -/
theorem PlainLanes.popped {s u : State} {h : Hart} {space n : Nat} {k : AccKind} {as : List LaneAcc} {at_ : LaneAcc → Nat × Nat}
    (plain : PlainLanes s h space n k as at_) (away : Bool) (hu : u = if away then s.popLatency else s) :
    LanesRead s u as at_ ∧ u.ordered h = false := by
  subst hu
  cases away with
  | false => exact ⟨⟨rfl, fun _ => rfl, plain.listed, plain.coherent⟩, plain.unordered⟩
  | true => exact ⟨⟨rfl, fun _ => rfl, plain.listed, plain.coherent⟩, plain.unordered⟩

section
variable {s : State} {h : Hart} {m : LaneMem} {at_ : LaneAcc → Nat × Nat} (hc : s.hart? s.cur = some h)
include hc

theorem laneLoad_of_plain (i : Instr) (policy : Nat) (imm : BitVec 16) (unmasked : dwordMasked m s h = false)
    (plain : PlainLanes s h m.space.toNat (sizeBytes m) .load (laneAccs h m imm) at_) :
    laneLoad i m policy imm s = .next (putLoads m (!((laneAccs h m imm).map (plainSpot m.space.toNat at_)).isEmpty)
      (readLoads m policy ((laneAccs h m imm).map (plainSpot m.space.toNat at_)) h
        (if s.readsAway m.space.toNat (usesL1 s h m.space.toNat policy) ((laneAccs h m imm).map (plainSpot m.space.toNat at_))
          then s.popLatency else s))) := by
  refine (onHart_of s h _ hc).trans (congrArg Host.Outcome.next ?_)
  refine (if_neg (by rw [unmasked]; exact Bool.false_ne_true)).trans
    ((plain.watchLanes ..).trans ((plain.checkLanes _ _ _ rfl _).trans ?_))
  rw [plain.unlessLocked, plain.withRoom, hc]
  dsimp only
  rw [live_spots (laneAccs_on h m imm)]
  exact plain.withData ..

/-- R144: `lld`. -/
theorem laneLoad_gives (i : Instr) (policy : Nat) (imm : BitVec 16) (unmasked : dwordMasked m s h = false)
    (sorted : Map.sorted h.lanes.v = true) (known : m.space.toNat ≤ 4)
    (plain : PlainLanes s h m.space.toNat (sizeBytes m) .load (laneAccs h m imm) at_) (val : Nat → Nat)
    (value : ∀ l, val l = loadedNum m (s.placeNum h m.space.toNat (at_ (l, laneAddr h m imm l, laneAddr h m imm l)) (sizeBytes m))) :
    LoadGives s h (laneLoad i m policy imm s) fun r l =>
      if h.active m.guard l = true ∧ r = m.vd.toNat then BitVec.ofNat 32 (val l)
      else if h.active m.guard l = true ∧ m.size = 3 ∧ r = m.vd.toNat + 1 then BitVec.ofNat 32 (val l / 2 ^ 32) else h.getV r l := by
  rw [laneLoad_of_plain hc i policy imm unmasked plain]
  obtain ⟨start, unordered⟩ := plain.popped _ rfl
  generalize (if s.readsAway m.space.toNat (usesL1 s h m.space.toNat policy) ((laneAccs h m imm).map (plainSpot m.space.toNat at_))
    then s.popLatency else s) = s5 at start unordered
  obtain ⟨u, read, fold⟩ := start.foldl plain hc known (sizeBytes_cases m.size) policy id
    (fun c a v => c ++ [(a.1, loadedNum m v)]) (laneAccs h m imm) (fun _ ha => ha) []
  rw [foldl_concat (fun a : LaneAcc => (a.1, loadedNum m (s.placeNum h m.space.toNat (at_ (id a)) (sizeBytes m))))] at fold
  have reads : readLoads m policy ((laneAccs h m imm).map (plainSpot m.space.toNat at_)) h s5 =
      ((laneAccs h m imm).map (fun a => (a.1, val a.1)), u) := by
    unfold readLoads
    simp only [unordered, Bool.false_eq_true, if_false, List.foldl_map]
    refine fold.trans (congrArg (·, u) (List.map_congr_left fun a ha => ?_))
    obtain ⟨l, -, rfl⟩ := List.mem_map.1 ha
    rw [value]
    rfl
  have done : putLoads m (!((laneAccs h m imm).map (plainSpot m.space.toNat at_)).isEmpty)
      ((laneAccs h m imm).map (fun a => (a.1, val a.1)), u) =
      u.setCur (((h.activeLanes m.guard).foldl
        (fun q l => q.setLaneVal (if m.size = 3 then .f64 else .i32) m.vd.toNat l (val l)) h).retire 8) := by
    unfold putLoads
    rw [read.acting hc]
    dsimp only
    rw [State.laneDone, plain.unlent, List.isEmpty_nil, Bool.not_true, Bool.and_false]
    simp only [laneAccs, List.map_map, List.foldl_map, Bool.false_eq_true, if_false, Function.comp_def]
  rw [reads, done]
  have small : ∀ l ∈ h.activeLanes m.guard, l < 32 := fun l hl => ((mem_activeLanes h m.guard l).1 hl).1
  refine read.gives (.foldl (fun k l => k.setLaneVal_frame _ _ l _) _ h) fun r l hl => ?_
  rw [getV_foldl_setLaneVal sorted _ _ _ _ small hl]
  simp only [mem_activeLanes, hl, true_and, ite_eq_left_iff, reduceCtorEq, imp_false, not_not]

end

end Sys2Proof.Machine
end

section
/-! Row loads (R146), and the statement about lane loads. -/

namespace Sys2Proof.Machine

open Sys2Proof

theorem rowAccesses_on (h : Hart) (m : LaneMem) (imm : BitVec 16) : ∀ a ∈ rowAccesses h m imm, h.lanes.em.getLsbD a.1 = true := by
  intro a ha
  obtain ⟨row, hrow, ha⟩ := List.mem_flatten.1 ha
  obtain ⟨l, hl, rfl⟩ := List.mem_map.1 hrow
  obtain ⟨j, -, rfl⟩ := List.mem_map.1 ha
  exact em_of_active hl

/-- R60: the numbered lanes of plain accesses are in the exec mask. -/
theorem live_rows {h : Hart} {as : List LaneAcc} (on : ∀ a ∈ as, h.lanes.em.getLsbD a.1 = true) (space : Nat)
    (at_ : LaneAcc → Nat × Nat) : (as.map (plainSpot space at_)).zipIdx.filter (fun p => h.lanes.em.getLsbD p.1.lane) =
      as.zipIdx.map (Prod.map (plainSpot space at_) id) := by
  rw [List.zipIdx_map]
  refine List.filter_eq_self.2 fun p hp => ?_
  obtain ⟨⟨a, i⟩, ha, rfl⟩ := List.mem_map.1 hp
  exact on a (List.fst_mem_of_mem_zipIdx ha)

/-- R146: word j of a lane's row. -/
def rowAcc (h : Hart) (m : LaneMem) (imm : BitVec 16) (l j : Nat) : LaneAcc :=
  let row := h.getX (xOf m.xb) + sext64 imm + BitVec.ofNat 64 l * h.getX (xOf m.vo)
  (l, row, row + BitVec.ofNat 64 (4 * j))

/-- R93, R136: whether the data of reads of numbered places comes from beyond the core. -/
def State.rowsAway (s : State) (space : Nat) (useL1 : Bool) (live : List (Spot × Nat)) : Bool :=
  (space == 0 && live.any (fun p => !s.l1Serves p.1.owner p.1.addr useL1)) || ((space == 2 || space == 3) && !live.isEmpty)

section
variable {s : State} {h : Hart} {m : LaneMem} {at_ : LaneAcc → Nat × Nat} (hc : s.hart? s.cur = some h)
include hc

theorem laneBlock_of_plain (i : Instr) (policy : Nat) (imm : BitVec 16) (unmasked : s.pfmask h 7 = false)
    (plain : PlainLanes s h m.space.toNat 4 .load (rowAccesses h m imm) at_) :
    let live := (rowAccesses h m imm).zipIdx.map (Prod.map (plainSpot m.space.toNat at_) id)
    laneBlock i m policy imm s = .next (putRows m (!live.isEmpty)
      (readRows policy live h
        (if s.rowsAway m.space.toNat (usesL1 s h m.space.toNat policy) live then s.popLatency else s))) := by
  refine (onHart_of s h _ hc).trans (congrArg Host.Outcome.next ?_)
  refine (if_neg (ne_true_of_eq_false unmasked)).trans ((plain.watchLanes ..).trans ((plain.checkLanes _ _ _ rfl _).trans ?_))
  rw [plain.unlessLocked, plain.withRoom, hc]
  dsimp only
  rw [live_rows (rowAccesses_on h m imm)]
  exact plain.withData ..

/-- R146: `lldt`. -/
theorem laneBlock_gives (i : Instr) (policy : Nat) (imm : BitVec 16) (unmasked : s.pfmask h 7 = false)
    (sorted : Map.sorted h.lanes.v = true) (known : m.space.toNat ≤ 4)
    (plain : PlainLanes s h m.space.toNat 4 .load (rowAccesses h m imm) at_) :
    LoadGives s h (laneBlock i m policy imm s) fun r l =>
      if h.active unguarded l = true ∧ m.vd.toNat ≤ r ∧ r < m.vd.toNat + 32 then
        BitVec.ofNat 32 (s.placeNum h m.space.toNat (at_ (rowAcc h m imm l (r - m.vd.toNat))) 4) else h.getV r l := by
  refine (congrArg (LoadGives s h · _) (laneBlock_of_plain hc i policy imm unmasked plain)).mpr ?_
  obtain ⟨start, unordered⟩ := plain.popped _ rfl
  generalize (if s.rowsAway m.space.toNat (usesL1 s h m.space.toNat policy) _ then s.popLatency else s) = s5 at start unordered ⊢
  obtain ⟨u, read, fold⟩ := start.foldl plain hc known (.inr (.inr (.inl rfl))) policy Prod.fst
    (fun c (p : LaneAcc × Nat) v => (p.1.1, p.2 % 32, v) :: c) (rowAccesses h m imm).zipIdx (fun _ hp => List.fst_mem_of_mem_zipIdx hp) []
  have reads : readRows policy ((rowAccesses h m imm).zipIdx.map (Prod.map (plainSpot m.space.toNat at_) id)) h s5 =
      (((rowAccesses h m imm).zipIdx.map fun p => (p.1.1, p.2 % 32, s.placeNum h m.space.toNat (at_ p.1) 4)).reverse, u) := by
    unfold readRows
    simp only [unordered, Bool.false_eq_true, if_false, List.foldl_map, Prod.map_fst, Prod.map_snd]
    rw [foldl_cons_reverse (fun p : LaneAcc × Nat => (p.1.1, p.2 % 32, s.placeNum h m.space.toNat (at_ p.1) 4)), List.append_nil] at fold
    exact fold
  have done (any : Bool) (es : List (Nat × Nat × Nat)) : putRows m any (es, u) =
      u.setCur ((es.foldl (fun q e => q.setV (m.vd.toNat + e.2.1) e.1 (BitVec.ofNat 32 e.2.2)) h).retire 8) := by
    unfold putRows
    rw [read.acting hc]
    dsimp only
    rw [State.laneDone, plain.unlent, List.isEmpty_nil, Bool.not_true, Bool.and_false]
    rfl
  rw [reads, done]
  have elem (l j v : Nat) : (l, j, v) ∈ ((rowAccesses h m imm).zipIdx.map
      fun p => (p.1.1, p.2 % 32, s.placeNum h m.space.toNat (at_ p.1) 4)).reverse ↔
      l ∈ h.activeLanes unguarded ∧ j < 32 ∧ v = s.placeNum h m.space.toNat (at_ (rowAcc h m imm l j)) 4 := by
    rw [List.mem_reverse, List.mem_map]
    constructor
    · rintro ⟨⟨a, i⟩, mem, same⟩
      cases same
      obtain ⟨l, hl, hj, rfl⟩ := (mem_zipIdx_rows (rowAcc h m imm) (h.activeLanes unguarded) 0 a (i % 32)).1 ⟨i, mem, rfl⟩
      exact ⟨hl, hj, rfl⟩
    · rintro ⟨hl, hj, rfl⟩
      obtain ⟨i, mem, rfl⟩ := (mem_zipIdx_rows (rowAcc h m imm) (h.activeLanes unguarded) 0 _ j).2 ⟨l, hl, hj, rfl⟩
      exact ⟨_, mem, rfl⟩
  generalize ((rowAccesses h m imm).zipIdx.map fun p => (p.1.1, p.2 % 32, s.placeNum h m.space.toNat (at_ p.1) 4)).reverse = es at elem ⊢
  have only := VOnly.foldl (fun k (e : Nat × Nat × Nat) => k.setV_vOnly (m.vd.toNat + e.2.1) e.1 (BitVec.ofNat 32 e.2.2)) es h
  refine read.gives only fun r l hl => ?_
  refine (getV_foldl_setV sorted (fun e => m.vd.toNat + e.2.1) (fun e => e.1) (fun e => BitVec.ofNat 32 e.2.2)
    (fun r l => BitVec.ofNat 32 (s.placeNum h m.space.toNat (at_ (rowAcc h m imm l (r - m.vd.toNat))) 4)) es ?_ hl r).trans ?_
  rotate_left
  · congr 1
    refine propext ⟨?_, fun ⟨active, low, high⟩ => ?_⟩
    · rintro ⟨e, he, rfl, rfl⟩
      obtain ⟨lane, hj, -⟩ := (elem e.1 e.2.1 e.2.2).1 he
      exact ⟨((mem_activeLanes ..).1 lane).2, by omega, by omega⟩
    · refine ⟨(l, r - m.vd.toNat, s.placeNum h m.space.toNat (at_ (rowAcc h m imm l (r - m.vd.toNat))) 4),
        (elem _ _ _).2 ⟨?_, ?_, rfl⟩, ?_, rfl⟩
      · exact (mem_activeLanes ..).2 ⟨hl, active⟩
      · exact Nat.sub_lt_left_of_lt_add low high
      · exact Nat.add_sub_cancel' low
  · intro e he
    obtain ⟨lane, -, num⟩ := (elem e.1 e.2.1 e.2.2).1 he
    exact ⟨((mem_activeLanes ..).1 lane).1, by rw [num, Nat.add_sub_cancel_left]⟩

end

end Sys2Proof.Machine

namespace Sys2Proof.Proofs

open Sys2Proof Sys2Proof.Machine

/-- Settles O33, by the reads of the lanes one after the other: each gives the number at its place, and moves caches of data only. -/
theorem laneLoads : Obligations.LaneLoads := by
  intro s h m at_ hc sorted known n done
  constructor
  · intro i imm form unmasked addr acc plain val
    have allowed := dwordMasked_eq_false unmasked
    have value (l : Nat) : val l =
        loadedNum m (s.placeNum h m.space.toNat (at_ (l, laneAddr h m imm l, laneAddr h m imm l)) (sizeBytes m)) :=
      (loadedNum_eq m (placeNum_lt ..)).symm
    rcases form with ⟨pol, rfl, rfl⟩ | rfl
    · exact laneLoad_gives hc _ _ _ allowed sorted known plain val value
    · exact laneLoad_gives hc _ _ _ allowed sorted known plain val value
  · intro i imm form unmasked row acc plain
    rcases form with ⟨pol, rfl, rfl⟩ | rfl
    · exact laneBlock_gives hc _ _ _ unmasked sorted known plain
    · exact laneBlock_gives hc _ _ _ unmasked sorted known plain

end Sys2Proof.Proofs
end

section
/-! What lane stores and atomics leave beside the places they write (R60, R68, R104, R134, R137, R145, R147): of the acting hart, of
other harts, of the rest of the package. -/

namespace Sys2Proof.Machine

open Sys2Proof

/-- R60, R68, R107, R134: of a hart, nothing has changed but lane registers, its slice, its slice-group marks, its reservation and its
hang counter. -/
def ActorMoves (h g : Hart) : Prop :=
  g = { h with lanes := { h.lanes with v := g.lanes.v, slice := g.lanes.slice }
               dev := { h.dev with tbm := g.dev.tbm, tbmf := g.dev.tbmf }
               run := { h.run with resv := g.run.resv, hangHeld := g.run.hangHeld, hangFrom := g.run.hangFrom, lastBack := g.run.lastBack } }

theorem ActorMoves.trans {h g k : Hart} (h1 : ActorMoves h g) (h2 : ActorMoves g k) : ActorMoves h k := by
  unfold ActorMoves at *
  rw [h2, h1]

theorem ActorMoves.wait_eq {h g : Hart} (actor : ActorMoves h g) : g.run.wait = h.run.wait := by
  unfold ActorMoves at actor
  rw [actor]

theorem ActorMoves.lent_eq {h g : Hart} (actor : ActorMoves h g) : g.run.lent = h.run.lent := by
  unfold ActorMoves at actor
  rw [actor]

/-- R68, R150, R151: of another hart, a reservation may be lost, and a wait that a wake message will end is named anew. -/
def OtherMoves (o o' : Option Hart) : Prop :=
  (o = none ∧ o' = none) ∨ ∃ g g' r, o = some g ∧ o' = some g' ∧ (r = none ∨ r = g.run.resv) ∧
    Woken { g with run := { g.run with resv := r } } g'

theorem OtherMoves.refl (o : Option Hart) : OtherMoves o o := by
  cases o with
  | none => exact .inl ⟨rfl, rfl⟩
  | some g => exact .inr ⟨g, g, g.run.resv, rfl, rfl, .inr rfl, .inl rfl⟩

theorem Woken.withResv {g k : Hart} (w : Woken g k) (r : Option Line) :
    Woken { g with run := { g.run with resv := r } } { k with run := { k.run with resv := r } } := by
  rcases w with rfl | ⟨t, u, xd, a, wait, rfl⟩
  · exact .inl rfl
  · exact .inr ⟨t, u, xd, a, wait, rfl⟩

theorem Woken.resv_eq {g k : Hart} (w : Woken g k) : k.run.resv = g.run.resv := by
  rcases w with rfl | ⟨t, u, xd, a, wait, rfl⟩ <;> rfl

theorem OtherMoves.trans {o p q : Option Hart} (h1 : OtherMoves o p) (h2 : OtherMoves p q) : OtherMoves o q := by
  rcases h1 with ⟨rfl, rfl⟩ | ⟨g, g', r, rfl, rfl, lost, w⟩
  · exact h2
  · rcases h2 with ⟨c, -⟩ | ⟨k, k', r', same, rfl, lost', w'⟩
    · cases c
    · cases same
      refine .inr ⟨g, k', r', rfl, rfl, ?_, (w.withResv r').trans w'⟩
      rcases lost' with rfl | rfl
      · exact .inl rfl
      · rw [w.resv_eq]
        exact lost

theorem OtherMoves.of_otherHart {part gpa : Nat} {o o' : Option Hart} (other : OtherHart part gpa o o') : OtherMoves o o' := by
  cases o with
  | none => exact .inl ⟨rfl, other⟩
  | some g =>
    obtain ⟨g', rfl, w⟩ := other
    rw [losesReservation_frame] at w
    refine .inr ⟨g, g', _, rfl, rfl, ?_, w⟩
    unfold LosesReservation
    split
    · exact .inl rfl
    · exact .inr rfl

theorem MaySpoil.trans {a b c : Launch} (h1 : MaySpoil a b) (h2 : MaySpoil b c) : MaySpoil a c := by
  obtain ⟨hit, rfl⟩ := h1
  obtain ⟨hit', rfl⟩ := h2
  refine ⟨fun c => hit c || hit' (if hit c then { c with spoilt := true } else c), ?_⟩
  rw [List.map_map]
  refine congrArg (fun cs => { a with children := cs }) (List.map_congr_left fun c _ => ?_)
  rw [Function.comp_apply]
  cases first : hit c with
  | true => simp [first]
  | false => simp [first]

theorem SpoiltBy.maySpoil (part gpa n : Nat) (l : Launch) : MaySpoil l (SpoiltBy part gpa n l) := by
  unfold SpoiltBy
  split
  · exact ⟨fun c => c.touches gpa n, rfl⟩
  · exact .refl l

theorem launches_of_map {s t : State} {f : Launch → Launch} (spoils : ∀ l, MaySpoil l (f l))
    (ht : ∀ l, t.launch? l = (s.launch? l).map f) (l : Nat) :
    s.launch? l = none ∧ t.launch? l = none ∨ ∃ L L', s.launch? l = some L ∧ t.launch? l = some L' ∧ MaySpoil L L' := by
  rw [ht]
  cases s.launch? l with
  | none => exact .inl ⟨rfl, rfl⟩
  | some L => exact .inr ⟨L, f L, rfl, rfl, spoils L⟩

/-- A state with what lane memory instructions may change put back to what it was in `s`. -/
def State.unmoved (s t : State) : State :=
  { t with harts := s.harts, cores := s.cores, dies := s.dies, mem := s.mem, launches := s.launches, schedule := s.schedule
           latencies := s.latencies, fresh := s.fresh, tag := s.tag }

theorem LaneMemRest.trans {s t u : State} (h1 : LaneMemRest s t) (h2 : LaneMemRest t u) : LaneMemRest s u where
  cores := fun c => (congrArg (fun k : Core => { k with hdc := (s.core c).hdc, l1 := (s.core c).l1, spad := (s.core c).spad })
    (h2.cores c)).trans (h1.cores c)
  dies := fun d => (congrArg (fun k : Die => { k with slices := (s.die d).slices, ds := (s.die d).ds }) (h2.dies d)).trans (h1.dies d)
  mem := (congrArg (fun m : Mem => { m with llc := s.mem.llc }) h2.mem).trans h1.mem
  launches := fun l => by
    rcases h1.launches l with ⟨was, is⟩ | ⟨L, M, was, is, spoil⟩
    · rcases h2.launches l with ⟨-, now⟩ | ⟨L, M, now, -, -⟩
      · exact .inl ⟨was, now⟩
      · rw [is] at now
        cases now
    · rcases h2.launches l with ⟨now, -⟩ | ⟨M', N, now, then_, spoil'⟩
      · rw [is] at now
        cases now
      · rw [is] at now
        cases now
        exact .inr ⟨L, N, was, then_, spoil.trans spoil'⟩
  rest := (congrArg s.unmoved h2.rest).trans h1.rest

/-- The launches of two packages that have the same. -/
theorem launches_of_same {s t : State} (same : t.launches = s.launches) (l : Nat) :
    s.launch? l = none ∧ t.launch? l = none ∨ ∃ L L', s.launch? l = some L ∧ t.launch? l = some L' ∧ MaySpoil L L' :=
  launches_of_map (f := id) MaySpoil.refl (fun l => by rw [Option.map_id, State.launch?, State.launch?, same]; rfl) l

/-- R129: the memories that lanes write, besides the home slices, are in canonical form. -/
structure SpotsOk (s : State) (h : Hart) : Prop where
  spad : ∀ c, Memory.wf (s.core c).spad = true
  ds : ∀ d, Memory.wf (s.die d).ds = true
  slice : Memory.wf h.lanes.slice = true

theorem Map.wf_findD {α : Type} {m : Map α} {p : α → Bool} (all : m.all (fun e => p e.2) = true) {d : α} (hd : p d = true) (n : Nat) :
    p (Map.findD m n d) = true := by
  unfold Map.findD
  cases found : Map.find m n with
  | none => exact hd
  | some a => exact List.all_eq_true.1 all _ (Map.mem_of_find found)

theorem spotsOk_of_memoriesOk {s : State} {h : Hart} (ok : s.memoriesOk = true) (hc : s.hart? s.cur = some h) : SpotsOk s h := by
  simp only [State.memoriesOk, Bool.and_eq_true] at ok
  obtain ⟨⟨⟨-, cores⟩, dies⟩, harts⟩ := ok
  exact ⟨fun c => Map.wf_findD (p := fun c : Core => Memory.wf c.spad) cores rfl c,
    fun d => Map.wf_findD (p := fun d : Die => Memory.wf d.ds) dies rfl d, List.all_eq_true.1 harts _ (Map.mem_of_find hc)⟩

/-- R17: every line at a home slice without poison still stands there without. -/
def LinesStay (s t : State) : Prop :=
  ∀ key l, Map.find s.mem.llc key = some l → l.poison = false → ∃ l', Map.find t.mem.llc key = some l' ∧ l'.poison = false

/-- What lane writes, and the caches beside them, leave of the package `s` with acting hart `h`: package `t`, hart `g`. -/
structure LaneMoves (s : State) (h : Hart) (t : State) (g : Hart) : Prop where
  acting : t.hart? t.cur = some g
  actor : ActorMoves h g
  others : ∀ j, j ≠ s.cur → OtherMoves (s.hart? j) (t.hart? j)
  rest : LaneMemRest s t
  lines : LinesStay s t
  ok : SpotsOk s h → SpotsOk t g

theorem LaneMemRest.cur_eq {s t : State} (rest : LaneMemRest s t) : t.cur = s.cur := (congrArg State.cur rest.rest :)

theorem LaneMemRest.parts_eq {s t : State} (rest : LaneMemRest s t) : t.parts = s.parts := (congrArg State.parts rest.rest :)

theorem LaneMemRest.flight_eq {s t : State} (rest : LaneMemRest s t) (c : Nat) : (t.core c).flight = (s.core c).flight :=
  (congrArg Core.flight (rest.cores c) :)

theorem LaneMemRest.accept_eq {s t : State} (rest : LaneMemRest s t) (d : Nat) : (t.die d).accept = (s.die d).accept :=
  (congrArg Die.accept (rest.dies d) :)

namespace LaneMoves

theorem trans {s t u : State} {h g k : Hart} (h1 : LaneMoves s h t g) (h2 : LaneMoves t g u k) : LaneMoves s h u k where
  acting := h2.acting
  actor := h1.actor.trans h2.actor
  others := fun j hj => (h1.others j hj).trans (h2.others j (h1.rest.cur_eq ▸ hj))
  rest := h1.rest.trans h2.rest
  lines := fun key l hl fine => by
    obtain ⟨l', hl', fine'⟩ := h1.lines key l hl fine
    exact h2.lines key l' hl' fine'
  ok := fun ok => h2.ok (h1.ok ok)

theorem stands {s t : State} {h g : Hart} (moves : LaneMoves s h t g) {part gpa : Nat} (hs : s.standsAtHome part gpa) :
    t.standsAtHome part gpa := by
  obtain ⟨p, r, l, hp, hr, hcls, accepts, hl, fine⟩ := hs
  obtain ⟨l', hl', fine'⟩ := moves.lines _ l hl fine
  refine ⟨p, r, l', ?_, hr, hcls, ?_, hl', fine'⟩
  · rw [State.part?, moves.rest.parts_eq]
    exact hp
  · rw [moves.rest.accept_eq]
    exact accepts

theorem refl {s : State} {h : Hart} (hc : s.hart? s.cur = some h) : LaneMoves s h s h where
  acting := hc
  actor := rfl
  others := fun _ _ => .refl _
  rest := ⟨fun _ => rfl, fun _ => rfl, rfl, launches_of_same rfl, rfl⟩
  lines := fun _ l hl fine => ⟨l, hl, fine⟩
  ok := id

/-- Caches of data move. -/
theorem of_caches {s t : State} {h : Hart} (hc : s.hart? s.cur = some h) (moved : CachesMoved s t) : LaneMoves s h t h := by
  obtain ⟨cs, rfl, only⟩ := moved.exists_cores
  refine ⟨hc, rfl, fun _ _ => .refl _, ⟨fun c => ?_, fun _ => rfl, rfl, launches_of_same rfl, rfl⟩, fun _ l hl fine => ⟨l, hl, fine⟩, ?_⟩
  · exact (congrArg (fun k : Core => { k with spad := (s.core c).spad }) (only c) :)
  · rintro ⟨spad, ds, slice⟩
    exact ⟨fun c => (congrArg Core.spad (only c) :) ▸ spad c, ds, slice⟩

/-- The acting hart alone changes. -/
theorem of_actor {s : State} {h g : Hart} (actor : ActorMoves h g)
    (ok : Memory.wf h.lanes.slice = true → Memory.wf g.lanes.slice = true) :
    LaneMoves s h (s.setCur g) g where
  acting := State.hart?_setCur s g
  actor := actor
  others := fun j hj => by
    rw [State.hart?_setCur_other s g j hj]
    exact .refl _
  rest := ⟨fun _ => rfl, fun _ => rfl, rfl, launches_of_same rfl, rfl⟩
  lines := fun _ l hl fine => ⟨l, hl, fine⟩
  ok := fun ⟨spad, ds, slice⟩ => ⟨spad, ds, ok slice⟩

/-- One latency is used. -/
theorem of_popLatency {s : State} {h : Hart} (hc : s.hart? s.cur = some h) : LaneMoves s h s.popLatency h where
  acting := hc
  actor := rfl
  others := fun _ _ => .refl _
  rest := ⟨fun _ => rfl, fun _ => rfl, rfl, launches_of_same rfl, rfl⟩
  lines := fun _ l hl fine => ⟨l, hl, fine⟩
  ok := fun ⟨spad, ds, slice⟩ => ⟨spad, ds, slice⟩

end LaneMoves

end Sys2Proof.Machine
end

section
/-! One write of a lane at its place, in each space (R129, R141, R145): the bytes it leaves. -/

namespace Sys2Proof.Machine

open Sys2Proof

/-- R129: an address of a space whose places are named by one address each. -/
structure InSpace (sp a : Nat) : Prop where
  home : sp = 0 → a < 2 ^ 52
  ds : sp = 3 → a < 2 ^ 25
  slice : sp = 4 → a < 256

/-- R129, R130: the `len` bytes from an address of an owner's place in a space hold place `q` of space `sp`. -/
def Hits (space owner addr len sp : Nat) (q : Nat × Nat) : Prop := samePlaces sp space ∧ q.1 = owner ∧ addr ≤ q.2 ∧ q.2 < addr + len

/-- Package `s` with acting hart `h` has become `t` with `g`: no byte of a place and no lane register has changed. -/
structure LaneStays (s : State) (h : Hart) (t : State) (g : Hart) : Prop where
  moves : LaneMoves s h t g
  regs : g.lanes.v = h.lanes.v
  bytes : ∀ sp q, t.placeByte g sp q = s.placeByte h sp q

/-- Package `s` with acting hart `h` has become `t` with `g`: the bytes `bs` were written at a place, no lane register has changed. -/
structure LanePuts (s : State) (h : Hart) (t : State) (g : Hart) (space owner addr : Nat) (bs : List Byte) : Prop where
  moves : LaneMoves s h t g
  regs : g.lanes.v = h.lanes.v
  hit : ∀ sp q, sp ≤ 4 → InSpace sp q.2 → Hits space owner addr bs.length sp q → t.placeByte g sp q = bs.getD (q.2 - addr) 0
  miss : ∀ sp q, sp ≤ 4 → InSpace sp q.2 → ¬ Hits space owner addr bs.length sp q → t.placeByte g sp q = s.placeByte h sp q

theorem LaneStays.trans {s t u : State} {h g k : Hart} (h1 : LaneStays s h t g) (h2 : LaneStays t g u k) : LaneStays s h u k :=
  ⟨h1.moves.trans h2.moves, h2.regs.trans h1.regs, fun sp q => (h2.bytes sp q).trans (h1.bytes sp q)⟩

theorem LaneStays.puts {s t u : State} {h g k : Hart} {space owner addr : Nat} {bs : List Byte} (h1 : LaneStays s h t g)
    (h2 : LanePuts t g u k space owner addr bs) : LanePuts s h u k space owner addr bs :=
  ⟨h1.moves.trans h2.moves, h2.regs.trans h1.regs, h2.hit, fun sp q hsp hq no => (h2.miss sp q hsp hq no).trans (h1.bytes sp q)⟩

theorem LanePuts.stays {s t u : State} {h g k : Hart} {space owner addr : Nat} {bs : List Byte}
    (h1 : LanePuts s h t g space owner addr bs)
    (h2 : LaneStays t g u k) : LanePuts s h u k space owner addr bs :=
  ⟨h1.moves.trans h2.moves, h2.regs.trans h1.regs, fun sp q hsp hq yes => (h2.bytes sp q).trans (h1.hit sp q hsp hq yes),
    fun sp q hsp hq no => (h2.bytes sp q).trans (h1.miss sp q hsp hq no)⟩

/-! ## Steps that write no place -/

namespace LaneStays

variable {s : State} {h : Hart} (hc : s.hart? s.cur = some h)
include hc

theorem refl : LaneStays s h s h := ⟨.refl hc, rfl, fun _ _ => rfl⟩

theorem of_caches {t : State} (moved : CachesMoved s t) : LaneStays s h t h := by
  refine ⟨.of_caches hc moved, rfl, fun sp q => ?_⟩
  obtain ⟨cs, rfl, only⟩ := moved.exists_cores
  have spad : (({ s with cores := cs } : State).core q.1).spad = (s.core q.1).spad := (congrArg Core.spad (only q.1) :)
  unfold State.placeByte
  rw [spad]
  rfl

theorem of_popLatency : LaneStays s h s.popLatency h := ⟨.of_popLatency hc, rfl, fun _ _ => rfl⟩

theorem popped (away : Bool) : LaneStays s h (if away then s.popLatency else s) h := by
  cases away with
  | false => exact refl hc
  | true => exact of_popLatency hc

/-- R134: a slice group is marked. -/
theorem touchSpot (p : Spot) : ∃ g, LaneStays s h (s.touchSpot p) g := by
  unfold State.touchSpot
  split
  · rw [State.modCur_of s h _ hc]
    exact ⟨_, .of_actor rfl id, rfl, fun _ _ => rfl⟩
  · exact ⟨h, refl hc⟩

/-- R107: a write of the acting hart has been performed. -/
theorem storeDone : LaneStays s h (s.storeDone s.cur) (h.hangClear s.now) := by
  have harts (j : Nat) := hart?_storeDone s s.cur j
  refine ⟨⟨?_, rfl, fun j hj => ?_, ⟨fun _ => rfl, fun _ => rfl, rfl, launches_of_same rfl, rfl⟩, fun _ l hl fine => ⟨l, hl, fine⟩, ?_⟩,
    rfl, fun _ _ => rfl⟩
  · exact (harts s.cur).trans (by rw [hc, Option.map_some, if_pos rfl])
  · rw [harts j]
    simp only [if_neg hj]
    exact Option.map_id_apply ▸ .refl _
  · rintro ⟨spad, ds, slice⟩
    exact ⟨spad, ds, slice⟩

end LaneStays

/-! ## Writes at places -/

theorem samePlaces_iff {space : Nat} (far : space ≠ 1 ∧ space ≠ 2) (sp : Nat) : samePlaces sp space ↔ sp = space := by
  unfold samePlaces
  omega

theorem spadPlaces {sp space : Nat} (hspace : space = 1 ∨ space = 2) : samePlaces sp space ↔ sp = 1 ∨ sp = 2 := by
  unfold samePlaces
  omega

/-- R130: bytes written to a scratchpad. -/
theorem read_spadWrite {s : State} {c : Nat} (hm : Memory.wf (s.core c).spad = true) (a : Nat) (bs : List Byte) (d x : Nat) :
    Memory.read ((s.spadWrite c a bs).core d).spad x =
      if d = c ∧ a ≤ x ∧ x < a + bs.length then bs.getD (x - a) 0 else Memory.read (s.core d).spad x := by
  rw [State.spadWrite, State.modCore, State.core_setCore]
  by_cases hd : d = c
  · subst hd
    simp only [Memory.read_store _ _ _ _ hm, true_and, if_true]
  · rw [if_neg hd, if_neg (fun h => hd h.1)]

/-- R131: bytes written to a die scratchpad. -/
theorem read_dsWrite {s : State} {die : Nat} (hm : Memory.wf (s.die die).ds = true) (part off : Nat) (bs : List Byte) (d x : Nat) :
    Memory.read ((s.dsWrite die part off bs).die d).ds x =
      if d = die ∧ dsAddr part off ≤ x ∧ x < dsAddr part off + bs.length then bs.getD (x - dsAddr part off) 0
      else Memory.read (s.die d).ds x := by
  rw [State.dsWrite, State.modDie, State.die_setDie]
  by_cases hd : d = die
  · subst hd
    simp only [Memory.read_store _ _ _ _ hm, true_and, if_true]
  · rw [if_neg hd, if_neg (fun h => hd h.1)]

section
variable {s : State} {h : Hart} (hc : s.hart? s.cur = some h) (ok : SpotsOk s h) {owner addr : Nat} (bs : List Byte)
include hc ok

/-- R130, R145: a lane's bytes written to a scratchpad. -/
theorem spadWrite_puts {space : Nat} (hspace : space = 1 ∨ space = 2) :
    LanePuts s h (s.spadWrite owner addr bs) h space owner addr bs := by
  have read := read_spadWrite (ok.spad owner) addr bs
  refine ⟨⟨hc, rfl, fun _ _ => .refl _, ⟨fun c => ?_, fun _ => rfl, rfl, launches_of_same rfl, rfl⟩,
      fun _ l hl fine => ⟨l, hl, fine⟩, ?_⟩,
    rfl, fun sp q _ _ yes => ?_, fun sp q hsp _ no => ?_⟩
  · exact (congrArg (fun k : Core => { k with hdc := (s.core c).hdc, l1 := (s.core c).l1 }) (spadWrite_core_frame s owner addr bs c) :)
  · rintro ⟨spad, ds, slice⟩
    refine ⟨fun c => ?_, ds, slice⟩
    rw [State.spadWrite, State.modCore, State.core_setCore]
    split
    · exact Memory.wf_store bs _ addr (spad owner)
    · exact spad c
  · obtain ⟨same, rest⟩ := yes
    rw [placeByte_spad _ _ ((spadPlaces hspace).1 same), read, if_pos rest]
  · rcases space_cases hsp with rfl | spad | rfl | rfl
    · rfl
    · rw [placeByte_spad _ _ spad, placeByte_spad _ _ spad, read, if_neg fun c => no ⟨(spadPlaces hspace).2 spad, c⟩]
    · rfl
    · rfl

/-- R131, R145: a lane's bytes written to a die scratchpad. -/
theorem dsWrite_puts (inside : addr + bs.length ≤ 2 ^ 25) :
    LanePuts s h (s.dsWrite (owner / 64) (owner % 64) addr bs) h 3 owner addr bs := by
  have read := read_dsWrite (ok.ds (owner / 64)) (owner % 64) addr bs
  have place (q : Nat × Nat) (hq : q.2 < 2 ^ 25) : (q.1 / 64 = owner / 64 ∧ dsAddr (owner % 64) addr ≤ dsAddr (q.1 % 64) q.2 ∧
      dsAddr (q.1 % 64) q.2 < dsAddr (owner % 64) addr + bs.length) ↔ (q.1 = owner ∧ addr ≤ q.2 ∧ q.2 < addr + bs.length) := by
    unfold dsAddr
    omega
  refine ⟨⟨hc, rfl, fun _ _ => .refl _, ⟨fun _ => rfl, fun d => ?_, rfl, launches_of_same rfl, rfl⟩,
      fun _ l hl fine => ⟨l, hl, fine⟩, ?_⟩,
    rfl, fun sp q _ hq yes => ?_, fun sp q hsp hq no => ?_⟩
  · rw [State.dsWrite, State.modDie, State.die_setDie]
    split
    · next e => rw [e]
    · rfl
  · rintro ⟨spad, ds, slice⟩
    refine ⟨spad, fun d => ?_, slice⟩
    rw [State.dsWrite, State.modDie, State.die_setDie]
    split
    · exact Memory.wf_store bs _ _ (ds (owner / 64))
    · exact ds d
  · obtain ⟨same, rest⟩ := yes
    obtain rfl := (samePlaces_iff (by decide) sp).1 same
    rw [placeByte_ds, read, if_pos ((place q (hq.ds rfl)).2 rest), rest.1, dsAddr, dsAddr, Nat.add_sub_add_left]
  · rcases space_cases hsp with rfl | spad | rfl | rfl
    · rfl
    · rw [placeByte_spad _ _ spad, placeByte_spad _ _ spad]
      rfl
    · rw [placeByte_ds, placeByte_ds, read, if_neg fun c => no ⟨.inl rfl, (place q (hq.ds rfl)).1 c⟩]
    · rfl

omit hc in
/-- R129, R145: a lane's bytes written to its slice. -/
theorem sliceWrite_puts (inside : addr + bs.length ≤ 256) :
    let g := { h with lanes := { h.lanes with slice := Memory.store h.lanes.slice (owner * 256 + addr) bs } }
    LanePuts s h (s.setCur g) g 4 owner addr bs := by
  have read (x : Nat) := Memory.read_store bs h.lanes.slice (owner * 256 + addr) x ok.slice
  have place (q : Nat × Nat) (hq : q.2 < 256) : (owner * 256 + addr ≤ q.1 * 256 + q.2 ∧
      q.1 * 256 + q.2 < owner * 256 + addr + bs.length) ↔ (q.1 = owner ∧ addr ≤ q.2 ∧ q.2 < addr + bs.length) := by
    omega
  refine ⟨.of_actor rfl (Memory.wf_store bs _ _), rfl, fun sp q _ hq yes => ?_, fun sp q hsp hq no => ?_⟩
  · obtain ⟨same, rest⟩ := yes
    obtain rfl := (samePlaces_iff (by decide) sp).1 same
    rw [placeByte_slice, read, if_pos ((place q (hq.slice rfl)).2 rest), rest.1, Nat.add_sub_add_left]
  · rcases space_cases hsp with rfl | spad | rfl | rfl
    · rfl
    · rw [placeByte_spad _ _ spad, placeByte_spad _ _ spad]
      rfl
    · rfl
    · rw [placeByte_slice, placeByte_slice, read, if_neg fun c => no ⟨.inl rfl, (place q (hq.slice rfl)).1 c⟩]

end

/-! ## Writes at home slices -/

/-- R17: a line without poison takes bytes, and has none after. -/
theorem putLine_fine {s : State} {part gpa : Nat} {l : LlcLine} (bs : List Byte) (hl : Map.find s.mem.llc (lineKey part gpa) = some l)
    (fine : l.poison = false) : ∃ l' : LlcLine, l'.poison = false ∧ s.putLine part gpa bs =
      ({ s with mem := { s.mem with llc := Map.put s.mem.llc (lineKey part gpa) l' } } : State).markDirty part (s.home part gpa) := by
  refine ⟨⟨setLineBytes l.data (gpa % 128) bs, true, l.poison && !(gpa % 128 == 0 && bs.length == 128), l.held⟩, by rw [fine]; rfl, ?_⟩
  rw [State.putLine, Map.findD, hl]
  rfl

/-- R17: the lines at home slices after a write to one that stands there. -/
theorem writeHome_llc {s : State} {part gpa : Nat} (bs : List Byte) (by_ : Option Nat) (hs : s.standsAtHome part gpa) :
    ∃ l, (s.writeHome part gpa bs by_).mem.llc = Map.put s.mem.llc (lineKey part gpa) l ∧ l.poison = false := by
  obtain ⟨p, r, l, hp, hr, hcls, -, hl, fine⟩ := hs
  obtain ⟨l', fine', put⟩ := putLine_fine bs hl fine
  have wrote := (congrArg State.mem (wrote_beside (s.putLine part gpa bs) part gpa by_).rest :)
  have write : s.writeHome part gpa bs by_ = (s.putLine part gpa bs).wrote part gpa by_ := by
    simp only [State.writeHome, hp, hr, if_neg hcls]
  refine ⟨l', ?_, fine'⟩
  rw [write]
  refine (congrArg Mem.llc wrote).trans ((congrArg (fun u : State => u.mem.llc) put).trans ?_)
  exact (congrArg (fun u : State => u.mem.llc) (markDirty_beside _ part (s.home part gpa)).rest :)

theorem linesStay_of_put {s t : State} {key : Nat} {l : LlcLine} (fine : l.poison = false) (ht : t.mem.llc = Map.put s.mem.llc key l) :
    LinesStay s t := by
  intro k l0 found fine0
  rw [ht, Map.find_put]
  split
  · exact ⟨l, rfl, fine⟩
  · exact ⟨l0, found, fine0⟩

/-- R17, R68, R104, R145: a lane's bytes written at a home slice. -/
theorem homeWrite_puts {s : State} {h : Hart} (hc : s.hart? s.cur = some h) (awake : h.run.wait = none) {part gpa : Nat} {bs : List Byte}
    (by_ : Option Nat) (hs : s.standsAtHome part gpa) (hg : gpa < 2 ^ 52) (hin : gpa % 128 + bs.length ≤ 128) :
    LanePuts s h ((s.writeHome part gpa bs by_).spoilRing part gpa bs.length) (LosesReservation part gpa h) 0 part gpa bs := by
  obtain ⟨line, llc, fine⟩ := writeHome_llc bs by_ hs
  obtain ⟨bytes, harts, cores, dies, rest⟩ := writeHome_stands by_ hs hg hin
  generalize s.writeHome part gpa bs by_ = u at llc bytes harts cores dies rest ⊢
  obtain ⟨ls, ring, spoilt⟩ := spoilRing_spoils u part gpa bs.length
  rw [ring]
  have launches : u.launches = s.launches := (congrArg State.launches rest :)
  have cur : u.cur = s.cur := (congrArg State.cur rest :)
  have spad (c : Nat) : (u.core c).spad = (s.core c).spad := (congrArg Core.spad (cores c) :)
  have ds (d : Nat) : (u.die d).ds = (s.die d).ds := (congrArg Die.ds (dies d) :)
  have actor := losesReservation_frame part gpa h
  have lanes : (LosesReservation part gpa h).lanes = h.lanes := by rw [actor]
  refine ⟨⟨?_, ?_, fun j _ => .of_otherHart (harts j), ⟨fun c => ?_, fun d => ?_, bytes.rest, ?_, ?_⟩, linesStay_of_put fine llc, ?_⟩,
    by rw [lanes], fun sp q _ hq yes => ?_, fun sp q hsp hq no => ?_⟩
  · have mine := harts s.cur
    rw [hc] at mine
    exact (congrArg u.hart? cur).trans (otherHart_of_awake mine awake)
  · unfold ActorMoves
    rw [actor]
  · exact (congrArg (fun k : Core => { k with spad := (s.core c).spad }) (cores c) :)
  · exact (congrArg (fun k : Die => { k with ds := (s.die d).ds }) (dies d) :)
  · exact launches_of_map (SpoiltBy.maySpoil part gpa bs.length)
      fun l => (spoilt l).trans (by rw [State.launch?, launches, State.launch?])
  · exact (congrArg (fun v : State => { v with launches := s.launches, fresh := s.fresh }) rest :)
  · rintro ⟨okSpad, okDs, okSlice⟩
    exact ⟨fun c => spad c ▸ okSpad c, fun d => ds d ▸ okDs d, lanes ▸ okSlice⟩
  · obtain ⟨same, rest⟩ := yes
    obtain rfl := (samePlaces_iff (by decide) sp).1 same
    exact (bytes.bytes q.1 q.2 (hq.home rfl)).trans (if_pos rest)
  · rcases space_cases hsp with rfl | scratch | rfl | rfl
    · exact (bytes.bytes q.1 q.2 (hq.home rfl)).trans (if_neg fun c => no ⟨.inl rfl, c⟩)
    · rw [placeByte_spad _ _ scratch, placeByte_spad _ _ scratch]
      exact congrArg (Memory.read · q.2) (spad q.1)
    · rw [placeByte_ds, placeByte_ds]
      exact congrArg (Memory.read · _) (ds _)
    · rw [placeByte_slice, placeByte_slice, lanes]

end Sys2Proof.Machine
end

section
/-! Plain lane stores (R145): the writes of all lanes, the highest lane's last. -/

namespace Sys2Proof.Machine

open Sys2Proof

/-! ## The write of one lane -/

/-- R129, R166: the write of one lane as the memory takes it: at once to the core's own scratchpad and slice, else as a write on its
way that is performed. -/
def State.landAt (t : State) (w : Spot × List Byte) : State :=
  if w.1.space == 4 || w.1.space == 1 then
    if w.1.space = 1 then t.spadWrite w.1.owner w.1.addr w.2
    else t.modCur (fun k => { k with lanes := { k.lanes with slice := Memory.store k.lanes.slice (w.1.lane * 256 + w.1.addr) w.2 } })
  else (t.readySpots [w.1]).performFlight (t.owned (w.1.flight t.cur w.2))

/-- R166: the writes of one instruction to one space, when the memory answers at once. -/
theorem issueWrites_eq {s : State} {space : Nat} {ws : List (Spot × List Byte)} (one : ∀ w ∈ ws, w.1.space = space)
    (prompt : s.latency = 0) : ∃ away : Bool, s.issueWrites ws = ws.foldl State.landAt (if away then s.popLatency else s) := by
  by_cases near : (space == 4 || space == 1) = true
  · have all : ws.filter (fun w => w.1.space == 4 || w.1.space == 1) = ws :=
      List.filter_eq_self.2 fun w hw => by rw [one w hw]; exact near
    have none : ws.filter (fun w => !(w.1.space == 4 || w.1.space == 1)) = [] :=
      List.filter_eq_nil_iff.2 fun w hw => by rw [one w hw, near]; exact Bool.false_ne_true
    refine ⟨false, ?_⟩
    unfold State.issueWrites
    simp only [all, none, List.isEmpty_nil, if_true]
    refine List.foldl_ext _ _ _ fun t w hw => ?_
    rw [State.landAt, one w hw, if_pos near]
  · have none : ws.filter (fun w => w.1.space == 4 || w.1.space == 1) = [] :=
      List.filter_eq_nil_iff.2 fun w hw => by rw [one w hw]; exact near
    have all : ws.filter (fun w => !(w.1.space == 4 || w.1.space == 1)) = ws :=
      List.filter_eq_self.2 fun w hw => by rw [one w hw, Bool.eq_false_iff.2 near]; rfl
    have each (t : State) (w) (hw : w ∈ ws) : t.landAt w = (t.readySpots [w.1]).performFlight (t.owned (w.1.flight t.cur w.2)) := by
      rw [State.landAt, one w hw, if_neg near]
    unfold State.issueWrites
    simp only [all, none, List.foldl_nil, prompt, if_true]
    cases ws with
    | nil => exact ⟨false, rfl⟩
    | cons w ws =>
      refine ⟨true, ?_⟩
      rw [List.isEmpty_cons, if_neg Bool.false_ne_true, if_pos rfl]
      exact List.foldl_ext _ _ _ fun t w hw => (each t w hw).symm

theorem owned_fields (s : State) (f : Flight) : ∃ l, s.owned f = { f with launch := l } := by
  unfold State.owned
  cases s.hart? f.hart with
  | none => exact ⟨f.launch, rfl⟩
  | some h => exact ⟨h.role.launch, rfl⟩

/-- R145, R166: the write of one lane to a place of a plain access. -/
theorem landAt_puts {t : State} {g : Hart} (hc : t.hart? t.cur = some g) (ok : SpotsOk t g) (awake : g.run.wait = none)
    (quiet : (t.core (coreOf t.cur)).flight = []) {space : Nat} (known : space ≤ 4) {lane owner addr : Nat} (va : DWord) (bs : List Byte)
    (home : space = 0 → t.standsAtHome owner addr ∧ addr < 2 ^ 52 ∧ addr % 128 + bs.length ≤ 128)
    (sized : space = 3 → addr + bs.length ≤ 2 ^ 25) (own : space = 4 → owner = lane ∧ addr + bs.length ≤ 256) :
    ∃ g', LanePuts t g (t.landAt (⟨lane, space, owner, addr, va⟩, bs)) g' space owner addr bs := by
  obtain ⟨l, flight⟩ := owned_fields t (Spot.flight ⟨lane, space, owner, addr, va⟩ t.cur bs)
  have ready (p : Spot) : t.readySpots [p] = t := by
    rw [State.readySpots, List.foldl_cons, List.foldl_nil, drainPlace_of_quiet _ quiet, ite_self]
  unfold State.landAt
  rw [ready, flight]
  rcases space_cases known with rfl | (rfl | rfl) | rfl | rfl
  · obtain ⟨stands, below, inside⟩ := home rfl
    have wrote := homeWrite_puts hc awake (some (coreOf t.cur)) stands below inside
    have done := wrote.stays (LaneStays.storeDone wrote.moves.acting)
    rw [wrote.moves.rest.cur_eq] at done
    have perform := performFlight_stands (s := t) (f := { Spot.flight ⟨lane, 0, owner, addr, va⟩ t.cur bs with launch := l }) rfl rfl
      (heldAt_of_quiet _ _ quiet) stands
    exact ⟨_, (congrArg (LanePuts t g · _ 0 owner addr bs) perform).mpr done⟩
  · exact ⟨_, spadWrite_puts hc ok bs (.inl rfl)⟩
  · have wrote := spadWrite_puts hc ok (owner := owner) (addr := addr) bs (space := 2) (.inr rfl)
    exact ⟨_, wrote.stays (LaneStays.storeDone wrote.moves.acting)⟩
  · have wrote := dsWrite_puts hc ok (owner := owner) bs (sized rfl)
    exact ⟨_, wrote.stays (LaneStays.storeDone wrote.moves.acting)⟩
  · obtain ⟨rfl, inside⟩ := own rfl
    have put := sliceWrite_puts ok (owner := owner) bs inside
    exact ⟨_, (congrArg (LanePuts t g · _ 4 owner addr bs) (State.modCur_of t g _ hc)).mpr put⟩

/-! ## The writes of all lanes -/

/-- R130: package `t` with acting hart `g` takes a lane's write at a place that was plain in `s`. -/
structure TakesWrites (s t : State) (g : Hart) : Prop where
  acting : t.hart? t.cur = some g
  ok : SpotsOk t g
  awake : g.run.wait = none
  quiet : (t.core (coreOf t.cur)).flight = []
  stands : ∀ part gpa, s.standsAtHome part gpa → t.standsAtHome part gpa

theorem TakesWrites.after {s t u : State} {g k : Hart} (takes : TakesWrites s t g) (moves : LaneMoves t g u k) : TakesWrites s u k where
  acting := moves.acting
  ok := moves.ok takes.ok
  awake := moves.actor.wait_eq.trans takes.awake
  quiet := by rw [moves.rest.cur_eq, moves.rest.flight_eq, takes.quiet]
  stands := fun part gpa hs => moves.stands (takes.stands part gpa hs)

theorem PlainLanes.landAt_puts {s t : State} {h g : Hart} {space n : Nat} {k : AccKind} {as : List LaneAcc} {at_ : LaneAcc → Nat × Nat}
    (plain : PlainLanes s h space n k as at_) (known : space ≤ 4) (hn : n = 1 ∨ n = 2 ∨ n = 4 ∨ n = 8) (takes : TakesWrites s t g)
    {a : LaneAcc} (ha : a ∈ as) {bs : List Byte} (len : bs.length = n) :
    ∃ g', LanePuts t g (t.landAt (plainSpot space at_ a, bs)) g' space (at_ a).1 (at_ a).2 bs := by
  subst len
  refine Machine.landAt_puts takes.acting takes.ok takes.awake takes.quiet known a.2.2 bs (fun home => ?_) (fun ds => plain.sized ds a ha)
    (fun slice => plain.ownSlice ha slice)
  exact ⟨takes.stands _ _ (plain.stands ha home), plain.below ha home, plain.inLine ha hn home⟩

/-- R145: package `t` with hart `g` holds at every byte what the highest of the lanes `ls` that wrote it wrote, else what `u` held. -/
def HighestHeld (u : State) (hb : Hart) (t : State) (g : Hart) (space n : Nat) (place : Nat → Nat × Nat) (bytes : Nat → List Byte)
    (ls : List Nat) : Prop :=
  ∀ sp q, sp ≤ 4 → InSpace sp q.2 →
    (∀ l ∈ ls, Hits space (place l).1 (place l).2 n sp q → (∀ l' ∈ ls, l < l' → ¬ Hits space (place l').1 (place l').2 n sp q) →
      t.placeByte g sp q = (bytes l).getD (q.2 - (place l).2) 0) ∧
    ((∀ l ∈ ls, ¬ Hits space (place l).1 (place l).2 n sp q) → t.placeByte g sp q = u.placeByte hb sp q)

theorem HighestHeld.put {u t v : State} {hb g k : Hart} {space n : Nat} {place : Nat → Nat × Nat} {bytes : Nat → List Byte}
    {ls : List Nat}
    (held : HighestHeld u hb t g space n place bytes ls) {l : Nat} (above : ∀ l' ∈ ls, l' < l) (len : (bytes l).length = n)
    (puts : LanePuts t g v k space (place l).1 (place l).2 (bytes l)) : HighestHeld u hb v k space n place bytes (ls ++ [l]) := by
  subst len
  intro sp q hsp hq
  obtain ⟨wrote, kept⟩ := held sp q hsp hq
  by_cases here : Hits space (place l).1 (place l).2 (bytes l).length sp q
  · refine ⟨fun m hm hits highest => ?_, fun none => absurd here (none l (List.mem_append_right _ List.mem_cons_self))⟩
    rcases List.mem_append.1 hm with before | last
    · exact absurd here (highest l (List.mem_append_right _ List.mem_cons_self) (above m before))
    · rw [List.mem_singleton.1 last]
      exact puts.hit sp q hsp hq here
  · have same := puts.miss sp q hsp hq here
    refine ⟨fun m hm hits highest => ?_, fun none => same.trans (kept fun m hm => none m (List.mem_append_left _ hm))⟩
    rcases List.mem_append.1 hm with before | last
    · exact same.trans (wrote m before hits fun m' hm' => highest m' (List.mem_append_left _ hm'))
    · rw [List.mem_singleton.1 last] at hits
      exact absurd hits here

/-- R145: the writes of plain accesses, the lanes ascending. -/
theorem PlainLanes.landAll {s u : State} {h hb : Hart} {space n : Nat} {k : AccKind} {at_ : LaneAcc → Nat × Nat} {ls : List Nat}
    {acc : Nat → LaneAcc} (plain : PlainLanes s h space n k (ls.map acc) at_) (known : space ≤ 4)
    (hn : n = 1 ∨ n = 2 ∨ n = 4 ∨ n = 8) (takes : TakesWrites s u hb) (ascending : ls.Pairwise (· < ·)) {bytes : Nat → List Byte}
    (len : ∀ l, (bytes l).length = n) :
    ∃ g, LaneMoves u hb (ls.foldl (fun t l => t.landAt (plainSpot space at_ (acc l), bytes l)) u) g ∧ g.lanes.v = hb.lanes.v ∧
      HighestHeld u hb (ls.foldl (fun t l => t.landAt (plainSpot space at_ (acc l), bytes l)) u) g space n (fun l => at_ (acc l)) bytes ls := by
  refine foldl_stepwise (fun pre t => ∃ g, LaneMoves u hb t g ∧ g.lanes.v = hb.lanes.v ∧
    HighestHeld u hb t g space n (fun l => at_ (acc l)) bytes pre) ?_ ls ?_
  · exact ⟨hb, .refl takes.acting, rfl, fun sp q _ _ => ⟨fun l hl => (List.not_mem_nil hl).elim, fun _ => rfl⟩⟩
  · rintro pre l post t split ⟨g, moves, regs, held⟩
    have mem : acc l ∈ ls.map acc := List.mem_map_of_mem (mem_of_split split)
    have above : ∀ l' ∈ pre, l' < l := by
      rw [split] at ascending
      exact fun l' hl' => (List.pairwise_append.1 ascending).2.2 l' hl' l List.mem_cons_self
    obtain ⟨g', puts⟩ := plain.landAt_puts known hn (takes.after moves) mem (len l)
    exact ⟨g', moves.trans puts.moves, puts.regs.trans regs, held.put above (len l) puts⟩

/-! ## The hart and its caches before the writes -/

theorem storeCaches_cachesMoved (s : State) (p : Spot) (bs : List Byte) (bypass : Bool) : CachesMoved s (s.storeCaches p bs bypass) := by
  unfold State.storeCaches
  split
  · refine .modCore s _ fun v => ?_
    dsimp only
    split
    · rfl
    · split <;> rfl
  · exact .refl s

/-- R134, R136: places are marked and caches moved, and no latency is used. -/
def Prepared (s : State) (h : Hart) (t : State) : Prop := ∃ g, LaneStays s h t g ∧ t.latencies = s.latencies

theorem Prepared.trans {s t u : State} {h : Hart} (h1 : Prepared s h t) (h2 : ∀ g, t.hart? t.cur = some g → Prepared t g u) :
    Prepared s h u := by
  obtain ⟨g, stays, same⟩ := h1
  obtain ⟨k, stays', same'⟩ := h2 g stays.moves.acting
  exact ⟨k, stays.trans stays', same'.trans same⟩

theorem prepared_foldl {α : Type} {f : State → α → State} (each : ∀ t g a, t.hart? t.cur = some g → Prepared t g (f t a))
    {s : State} {h : Hart} (hc : s.hart? s.cur = some h) (as : List α) : Prepared s h (as.foldl f s) :=
  foldl_stepwise (fun _ t => Prepared s h t) ⟨h, .refl hc, rfl⟩ as fun _ a _ t _ prep => prep.trans fun g hg => each t g a hg

theorem touchSpot_prepared {t : State} {g : Hart} (hc : t.hart? t.cur = some g) (p : Spot) : Prepared t g (t.touchSpot p) := by
  obtain ⟨k, stays⟩ := LaneStays.touchSpot hc p
  refine ⟨k, stays, ?_⟩
  unfold State.touchSpot
  split
  · rw [State.modCur_of t g _ hc]
    rfl
  · rfl

theorem storeCaches_prepared {t : State} {g : Hart} (hc : t.hart? t.cur = some g) (p : Spot) (bs : List Byte) (bypass : Bool) :
    Prepared t g (t.storeCaches p bs bypass) := by
  have moved := storeCaches_cachesMoved t p bs bypass
  exact ⟨g, .of_caches hc moved, (congrArg State.latencies moved.rest :)⟩

theorem LaneMemKept.of_moves {h g k : Hart} (before : ActorMoves h g) (len : Nat) (after : ActorMoves (g.retire len) k) :
    LaneMemKept h k len := by
  obtain ⟨gx, gl, gd, -⟩ := Hart.retireTo_keeps g (g.nextPc len)
  rw [← Hart.retire_eq] at gx gl gd
  have retired := Hart.retireTo_retires g (g.nextPc len)
  rw [← Hart.retire_eq] at retired
  unfold ActorMoves at before after
  have pc : g.nextPc len = h.nextPc len := by rw [before]; rfl
  have from_h : RetiresTo h (g.retire len) (h.nextPc len) := by
    rw [← pc]
    refine retired.of_same ?_ ?_ ?_ ?_ <;> rw [before]
  obtain ⟨rpc, rpriv, rtsc, rrole, rcounted⟩ := from_h
  refine ⟨⟨?_, ?_, ?_, ?_, ?_⟩, ?_, ?_, ?_⟩
  · rw [after, ← rpc]
  · rw [after, ← rpriv]
  · rw [after, ← rtsc]
  · rw [after, ← rrole]
  · rw [after, ← rcounted]
  · rw [after, gx, before]
  · rw [after, gl, before]
  · rw [after, gd, before]

end Sys2Proof.Machine
end

section
/-! `lst` down to the writes of its lanes, and the statement about lane stores. -/

namespace Sys2Proof.Machine

open Sys2Proof

/-- R45: the type of a size code's values. -/
def sizeTy (m : LaneMem) : Ty := if m.size = 3 then .f64 else .i32

theorem laneVal_sizeTy (h : Hart) (m : LaneMem) (r l : Nat) :
    h.laneVal (sizeTy m) r l = if m.size = 3 then (h.getPair r l).toNat else (h.getV r l).toNat := by
  unfold Hart.laneVal sizeTy
  by_cases wide : m.size = 3
  · rw [if_pos wide, if_pos rfl, if_pos wide]
  · rw [if_neg wide, if_neg (by decide), if_neg wide]

/-- R145, R173: `lst` after its checks: what the lanes write, the hart's marks, the caches, the writes. -/
def storeLanes (m : LaneMem) (policy : Nat) (live : List Spot) (h : Hart) (s4 : State) : State :=
  let ws := live.map (fun p => (p, bytesOfNat (h.laneVal (sizeTy m) m.vd.toNat p.lane) (sizeBytes m)))
  let marked := live.foldl State.touchSpot s4
  let split := ws.foldl (fun (acc : List (Spot × List Byte) × State) w =>
    match if s4.ordered h then acc.2.bufferWrite h w.1 w.2 else none with
    | some t => (acc.1, t)
    | none => (acc.1 ++ [w], acc.2.storeCaches w.1 w.2 (policy == 2))) ([], marked)
  let done := split.2.modCur (fun k => (if split.1.any (fun w => w.1.space == 4 || w.1.space == 1) then k.hangClear s4.now else k).retire 8)
  (done.issueWrites split.1).sendDirect h (split.1.map (·.1))

theorem foldl_collect {α β : Type} (f : β → α → β) (as : List α) (b : β) :
    as.foldl (fun (acc : List α × β) a => (acc.1 ++ [a], f acc.2 a)) ([], b) = (as, as.foldl f b) :=
  foldl_stepwise (fun pre acc => acc = (pre, pre.foldl f b)) rfl as fun pre a _ acc _ same => by
    rw [same, List.foldl_append, List.foldl_cons, List.foldl_nil]

theorem launch_ordered_of_rest {s t : State} (rest : LaneMemRest s t) (h : Hart) : t.ordered h = s.ordered h := by
  unfold State.ordered State.launchOf
  cases h.role.launch with
  | none => rfl
  | some l =>
    dsimp only
    rcases rest.launches l with ⟨was, is⟩ | ⟨L, L', was, is, hit, rfl⟩
    · rw [was, is]
    · rw [was, is]

theorem sendDirect_of_unordered {s : State} {h : Hart} (unordered : s.ordered h = false) (spots : List Spot) :
    s.sendDirect h spots = s := by
  unfold State.sendDirect
  cases h.role.launch with
  | none => rfl
  | some l => simp only [unordered, Bool.false_eq_true, if_false]

theorem laneMemRest_setCur (s : State) (g : Hart) : LaneMemRest s (s.setCur g) :=
  ⟨fun _ => rfl, fun _ => rfl, rfl, launches_of_same rfl, rfl⟩

/-- R129: of a hart, only its lanes hold places. -/
theorem placeByte_lanes {s : State} {g k : Hart} (c : Hart) (same : k.lanes = g.lanes) (sp : Nat) (q : Nat × Nat) :
    (s.setCur c).placeByte k sp q = s.placeByte g sp q := by
  unfold State.placeByte
  rw [same]
  rfl

/-- R6, R45: byte j of a lane's stored value. -/
theorem getD_bytesOfNat (v : Nat) {n j : Nat} (hj : j < n) : (bytesOfNat v n).getD j 0 = BitVec.ofNat 8 (v / 256 ^ j) := by
  rw [bytesOfNat_eq_map, List.getD_eq_getElem?_getD, List.getElem?_map, List.getElem?_range hj]
  rfl

theorem inSpace_of_lt {sp a : Nat} (ha : a < (if sp = 0 then 2 ^ 52 else if sp = 3 then 2 ^ 25 else if sp = 4 then 256 else 2 ^ 19)) :
    InSpace sp a := by
  refine ⟨?_, ?_, ?_⟩ <;> rintro rfl <;> exact ha

section
variable {s : State} {h : Hart} {m : LaneMem} {at_ : LaneAcc → Nat × Nat} (hc : s.hart? s.cur = some h)
include hc

theorem laneStore_of_plain (i : Instr) (policy : Nat) (imm : BitVec 16) (unmasked : dwordMasked m s h = false)
    (plain : PlainLanes s h m.space.toNat (sizeBytes m) .store (laneAccs h m imm) at_) :
    laneStore i m policy imm s = .next (storeLanes m policy ((laneAccs h m imm).map (plainSpot m.space.toNat at_)) h s) := by
  refine (onHart_of s h _ hc).trans (congrArg Host.Outcome.next ?_)
  refine (if_neg (ne_true_of_eq_false unmasked)).trans ((plain.watchLanes ..).trans ((plain.checkLanes _ _ _ rfl _).trans ?_))
  rw [plain.unlessLocked, plain.withRoom, hc]
  dsimp only
  rw [live_spots (laneAccs_on h m imm)]
  rfl

/-- R134, R136, R145: the marks and the caches, the hart's retirement, the writes. -/
theorem storeLanes_of_plain (policy : Nat) (live : List Spot) (unordered : s.ordered h = false) :
    ∃ u g k, LaneStays s h u g ∧ u.latencies = s.latencies ∧ ActorMoves g k ∧ k.lanes = g.lanes ∧ storeLanes m policy live h s =
      ((u.setCur (k.retire 8)).issueWrites
        (live.map fun p => (p, bytesOfNat (h.laneVal (sizeTy m) m.vd.toNat p.lane) (sizeBytes m)))).sendDirect h live := by
  have marked : Prepared s h (live.foldl State.touchSpot s) := prepared_foldl (fun _ _ p hg => touchSpot_prepared hg p) hc live
  obtain ⟨g, stays, same⟩ := marked.trans fun g hg => prepared_foldl
    (f := fun t (w : Spot × List Byte) => t.storeCaches w.1 w.2 (policy == 2)) (fun _ _ w hg => storeCaches_prepared hg w.1 w.2 _) hg
    (live.map fun p => (p, bytesOfNat (h.laneVal (sizeTy m) m.vd.toNat p.lane) (sizeBytes m)))
  unfold storeLanes
  simp only [unordered, Bool.false_eq_true, if_false,
    foldl_collect (fun (t : State) (w : Spot × List Byte) => t.storeCaches w.1 w.2 (policy == 2))]
  generalize List.foldl (fun (t : State) (w : Spot × List Byte) => t.storeCaches w.1 w.2 (policy == 2)) _ _ = u at *
  rw [State.modCur_of u g _ stays.moves.acting, List.map_map]
  refine ⟨u, g, _, stays, same, ?_, ?_, congrArg (State.sendDirect _ h) (List.map_id' live)⟩
  · split <;> rfl
  · split <;> rfl

omit hc in
/-- R145, R166: the writes of `lst` to plain places. -/
theorem PlainLanes.issueAll {imm : BitVec 16} {k : AccKind} (plain : PlainLanes s h m.space.toNat (sizeBytes m) k (laneAccs h m imm) at_)
    (known : m.space.toNat ≤ 4) {u : State} {g : Hart} (takes : TakesWrites s u g) (prompt : u.latency = 0) (val : Nat → Nat) :
    let t := u.issueWrites (((laneAccs h m imm).map (plainSpot m.space.toNat at_)).map fun p => (p, bytesOfNat (val p.lane) (sizeBytes m)))
    ∃ k, LaneMoves u g t k ∧ k.lanes.v = g.lanes.v ∧
      HighestHeld u g t k m.space.toNat (sizeBytes m) (fun l => at_ (l, laneAddr h m imm l, laneAddr h m imm l))
        (fun l => bytesOfNat (val l) (sizeBytes m)) (h.activeLanes m.guard) := by
  obtain ⟨away, issue⟩ := issueWrites_eq (s := u) (space := m.space.toNat)
    (ws := ((laneAccs h m imm).map (plainSpot m.space.toNat at_)).map fun p => (p, bytesOfNat (val p.lane) (sizeBytes m))) (fun w hw => by
      obtain ⟨p, hp, rfl⟩ := List.mem_map.1 hw
      obtain ⟨a, -, rfl⟩ := List.mem_map.1 hp
      rfl) prompt
  have popped := LaneStays.popped takes.acting away
  have ascending : (h.activeLanes m.guard).Pairwise (· < ·) := List.pairwise_lt_range.filter _
  obtain ⟨k, moves, regs, held⟩ := plain.landAll known (sizeBytes_cases m.size) (takes.after popped.moves) ascending
    (bytes := fun l => bytesOfNat (val l) (sizeBytes m)) fun l => bytesOfNat_length _ _
  rw [issue, laneAccs, List.foldl_map, List.foldl_map, List.foldl_map]
  refine ⟨k, popped.moves.trans moves, regs, fun sp q hsp hq => ?_⟩
  obtain ⟨wrote, kept⟩ := held sp q hsp hq
  exact ⟨wrote, fun none => (kept none).trans (popped.bytes sp q)⟩

/-- R145: what a plain lane store leaves. -/
theorem laneStore_stores (i : Instr) (policy : Nat) (imm : BitVec 16) (unmasked : dwordMasked m s h = false) (ok : s.memoriesOk = true)
    (known : m.space.toNat ≤ 4) (plain : PlainLanes s h m.space.toNat (sizeBytes m) .store (laneAccs h m imm) at_) :
    ∃ t g, laneStore i m policy imm s = .next t ∧ t.hart? s.cur = some g ∧ LaneMemKept h g 8 ∧ g.lanes.v = h.lanes.v ∧
      (∀ j, j ≠ s.cur → OtherMoves (s.hart? j) (t.hart? j)) ∧ LaneMemRest s t ∧
      HighestHeld s h t g m.space.toNat (sizeBytes m) (fun l => at_ (l, laneAddr h m imm l, laneAddr h m imm l))
        (fun l => bytesOfNat (h.laneVal (sizeTy m) m.vd.toNat l) (sizeBytes m)) (h.activeLanes m.guard) := by
  rw [laneStore_of_plain hc i policy imm unmasked plain]
  obtain ⟨u, g, k, stays, latencies, cleared, lanes, stores⟩ := storeLanes_of_plain hc (m := m) policy
    ((laneAccs h m imm).map (plainSpot m.space.toNat at_)) plain.unordered
  have retired : (k.retire 8).lanes = g.lanes := (Hart.retire_lanes k 8).trans lanes
  have takes : TakesWrites s (u.setCur (k.retire 8)) (k.retire 8) := by
    obtain ⟨spad, ds, slice⟩ := stays.moves.ok (spotsOk_of_memoriesOk ok hc)
    refine ⟨State.hart?_setCur u _, ⟨spad, ds, retired ▸ slice⟩, ?_, ?_, fun part gpa hs => stays.moves.stands hs⟩
    · rw [Hart.retire_wait, cleared.wait_eq, stays.moves.actor.wait_eq, plain.awake]
    · exact (congrArg (fun c => (u.core (coreOf c)).flight) stays.moves.rest.cur_eq).trans
        ((stays.moves.rest.flight_eq _).trans plain.quiet)
  have prompt : (u.setCur (k.retire 8)).latency = 0 := (congrArg (fun ls : List Nat => ls.headD 0) latencies).trans plain.prompt
  obtain ⟨g', moves, regs, held⟩ := plain.issueAll known takes prompt fun l => h.laneVal (sizeTy m) m.vd.toNat l
  have rest := (stays.moves.rest.trans (laneMemRest_setCur u (k.retire 8))).trans moves.rest
  rw [stores, sendDirect_of_unordered ((launch_ordered_of_rest rest h).trans plain.unordered)]
  refine ⟨_, g', rfl, rest.cur_eq ▸ moves.acting, .of_moves (stays.moves.actor.trans cleared) 8 moves.actor,
    regs.trans ((congrArg Lanes.v retired).trans stays.regs), fun j hj => ?_, rest, ?_⟩
  · have mine : j ≠ u.cur := stays.moves.rest.cur_eq ▸ hj
    have other := moves.others j mine
    rw [State.hart?_setCur_other u _ j mine] at other
    exact (stays.moves.others j hj).trans other
  · intro sp q hsp hq
    obtain ⟨wrote, kept⟩ := held sp q hsp hq
    refine ⟨wrote, fun none => (kept none).trans ?_⟩
    exact (placeByte_lanes _ retired sp q).trans (stays.bytes sp q)

end

end Sys2Proof.Machine

namespace Sys2Proof.Proofs

open Sys2Proof Sys2Proof.Machine

/-- Settles O34, by the writes of the lanes in ascending order: each leaves the other bytes of every space as they were. -/
theorem laneStores : Obligations.LaneStores := by
  intro s h m at_ i imm hc ok known form unmasked n addr acc covers val plain
  have allowed := dwordMasked_eq_false unmasked
  have value (l : Nat) : val l = h.laneVal (sizeTy m) m.vd.toNat l := (laneVal_sizeTy h m m.vd.toNat l).symm
  have stored : ∃ pol, exec i s = laneStore i m pol imm s := by
    rcases form with ⟨pol, rfl, rfl⟩ | rfl
    · exact ⟨pol.toNat, rfl⟩
    · exact ⟨0, rfl⟩
  obtain ⟨pol, run⟩ := stored
  obtain ⟨t, g, next, acting, kept, regs, others, rest, held⟩ := laneStore_stores hc i pol imm allowed ok known plain
  refine ⟨t, g, run.trans next, acting, kept, regs, others, rest, fun sp q hsp hq => ?_⟩
  obtain ⟨wrote, stays⟩ := held sp q hsp (inSpace_of_lt hq)
  have lane (l : Nat) (hl : l < 32) : samePlaces sp m.space.toNat ∧ covers l q ↔
      l ∈ h.activeLanes m.guard ∧ Hits m.space.toNat (at_ (acc l)).1 (at_ (acc l)).2 n sp q := by
    rw [mem_activeLanes]
    exact ⟨fun ⟨same, active, owner, range⟩ => ⟨⟨hl, active⟩, same, owner.symm, range⟩,
      fun ⟨⟨_, active⟩, same, owner, range⟩ => ⟨same, active, owner.symm, range⟩⟩
  refine ⟨fun l hl same cover highest => ?_, fun none => stays fun l hl hits => ?_⟩
  · obtain ⟨active, hits⟩ := (lane l hl).1 ⟨same, cover⟩
    have ⟨_, _, low, high⟩ := hits
    refine (wrote l active hits fun l' hl' above hits' => ?_).trans ?_
    · have small := ((mem_activeLanes ..).1 hl').1
      exact highest l' above small ((lane l' small).2 ⟨hl', hits'⟩).2
    · rw [value]
      exact getD_bytesOfNat _ (Nat.sub_lt_left_of_lt_add low high)
  · exact none l ((mem_activeLanes ..).1 hl).1 ((lane l ((mem_activeLanes ..).1 hl).1).2 ⟨hl, hits⟩)

end Sys2Proof.Proofs
end

section
/-! The places of lane atomics (R129, R147): aligned places of one size are the same or apart; the new value of an atomic. -/

namespace Sys2Proof.Machine

open Sys2Proof

/-! ## Aligned places -/

/-- R129, R130: a place in a space other than 0 is aligned where its offset is. -/
theorem spotOf_aligned {s : State} {h : Hart} {space lane off n : Nat} {q : Nat × Nat} (hn : n = 1 ∨ n = 2 ∨ n = 4 ∨ n = 8)
    (aligned : off % n = 0) (spot : s.spotOf h space lane off n = .ok q) : q.2 % n = 0 := by
  unfold State.spotOf at spot
  split at spot
  · cases spot
  · next p hp =>
    have window : (524288 - p.lentBytes + off % p.lentBytes) % n = 0 := by
      obtain ⟨k, rfl⟩ := Nat.dvd_of_mod_eq_zero aligned
      have lent : n ∣ p.lentBytes := Dvd.dvd.mul_left (by rcases hn with rfl | rfl | rfl | rfl <;> decide) p.lend
      have size : n ∣ 524288 := by rcases hn with rfl | rfl | rfl | rfl <;> decide
      exact Nat.mod_eq_zero_of_dvd (Nat.dvd_add (Nat.dvd_sub size lent) ((Nat.dvd_mod_iff lent).2 (Nat.dvd_mul_right n k)))
    dsimp only at spot
    split at spot
    · split at spot
      · split at spot <;> cases spot
        exact aligned
      · cases spot
    · split at spot
      · split at spot <;> cases spot
        exact window
      · cases spot
    · split at spot <;> cases spot
      exact aligned
    · split at spot <;> cases spot
      exact aligned

section
variable {s : State} {h : Hart} {space n : Nat} {k : AccKind} {as : List LaneAcc} {at_ : LaneAcc → Nat × Nat}
  (plain : PlainLanes s h space n k as at_) (hn : n = 1 ∨ n = 2 ∨ n = 4 ∨ n = 8)
include plain hn

/-- R130, R140: the places of plain accesses are aligned. -/
theorem PlainLanes.placeAligned {a : LaneAcc} (ha : a ∈ as) : (at_ a).2 % n = 0 := by
  have aligned := plain.aligned a ha
  by_cases home : space = 0
  · obtain ⟨-, -, offset, -⟩ := plain.translated home a ha
    rcases hn with rfl | rfl | rfl | rfl <;> omega
  · exact spotOf_aligned hn aligned (plain.beyond home a ha)

/-- R129: the bytes of the place of a plain access. -/
theorem PlainLanes.inSpace {a : LaneAcc} (ha : a ∈ as) {i : Nat} (hi : i < n) : InSpace space ((at_ a).2 + i) := by
  have aligned := plain.placeAligned hn ha
  refine ⟨fun home => ?_, fun ds => ?_, fun slice => ?_⟩
  · have below := plain.below ha home
    rcases hn with rfl | rfl | rfl | rfl <;> omega
  · have inside := plain.sized ds a ha
    omega
  · obtain ⟨-, inside⟩ := plain.ownSlice ha slice
    omega

end

theorem aligned_apart {n a b i : Nat} (ha : a % n = 0) (hb : b % n = 0) (hi : i < n) (low : a ≤ b + i) (high : b + i < a + n) :
    a = b := by
  obtain ⟨x, rfl⟩ := Nat.dvd_of_mod_eq_zero ha
  obtain ⟨y, rfl⟩ := Nat.dvd_of_mod_eq_zero hb
  have xy : x < y + 1 := Nat.lt_of_mul_lt_mul_left (a := n) (by rw [Nat.mul_succ]; omega)
  have yx : y < x + 1 := Nat.lt_of_mul_lt_mul_left (a := n) (by rw [Nat.mul_succ]; omega)
  rw [show x = y by omega]

/-! ## Numbers at places after a write -/

theorem placeNum_of_bytes {s t : State} {h g : Hart} {space : Nat} (q : Nat × Nat) (n : Nat)
    (same : ∀ i, i < n → t.placeByte g space (q.1, q.2 + i) = s.placeByte h space (q.1, q.2 + i)) :
    t.placeNum g space q n = s.placeNum h space q n := by
  induction n generalizing q with
  | zero => rfl
  | succ n ih =>
    rw [State.placeNum, State.placeNum, ih]
    · rw [show t.placeByte g space q = s.placeByte h space q from same 0 (Nat.succ_pos n)]
    · intro i hi
      have next := same (i + 1) (Nat.succ_lt_succ hi)
      rwa [← Nat.add_assoc, Nat.add_right_comm] at next

theorem placeNum_of_value {t : State} {g : Hart} {space : Nat} (q : Nat × Nat) (n v : Nat)
    (is : ∀ i, i < n → t.placeByte g space (q.1, q.2 + i) = BitVec.ofNat 8 (v / 256 ^ i)) : t.placeNum g space q n = v % 256 ^ n := by
  induction n generalizing q v with
  | zero => rw [Nat.pow_zero, Nat.mod_one]; rfl
  | succ n ih =>
    have first : t.placeByte g space q = BitVec.ofNat 8 v := by
      have zero := is 0 (Nat.succ_pos n)
      rwa [Nat.pow_zero, Nat.div_one] at zero
    have rest : t.placeNum g space (q.1, q.2 + 1) n = v / 256 % 256 ^ n := ih (q.1, q.2 + 1) (v / 256) fun i hi => by
      have next := is (i + 1) (Nat.succ_lt_succ hi)
      rw [Nat.pow_succ', ← Nat.div_div_eq_div_mul, ← Nat.add_assoc, Nat.add_right_comm] at next
      exact next
    rw [State.placeNum, first, rest, BitVec.toNat_ofNat, Nat.pow_succ' (m := 256), Nat.mod_mul]

/-! ## The new value of an atomic (R46, R147) -/

theorem FloatFmt.overflow_mag {F : FloatFmt} {rm : Rm} {neg n : Bool} {k : Nat} (is : F.overflow rm neg = .num n k) : k ≤ F.maxMag := by
  unfold FloatFmt.overflow at is
  dsimp only at is
  split at is
  · cases is
    exact Nat.le_refl _
  · obtain ⟨-, is⟩ | ⟨-, is⟩ := ite_eq_iff.1 is <;> cases is
    exact Nat.le_refl _
  · obtain ⟨-, is⟩ | ⟨-, is⟩ := ite_eq_iff.1 is <;> cases is
    exact Nat.le_refl _

theorem FloatFmt.round_mag {F : FloatFmt} {rm : Rm} {sr : Word} {x : XReal} {n : Bool} {k : Nat} (is : (F.round rm sr x).1 = .num n k) :
    k ≤ F.maxMag := by
  unfold FloatFmt.round at is
  split at is
  · cases is
    exact Nat.zero_le _
  · dsimp only at is
    split at is
    · exact FloatFmt.overflow_mag is
    · next small =>
      cases is
      exact Nat.le_of_not_lt small

theorem FloatFmt.flush_false (F : FloatFmt) (r : Deliv × FlagSet) : F.flush false r = r := by
  unfold FloatFmt.flush
  split
  · rw [if_neg (fun c => Bool.false_ne_true c.1)]
  · rfl

theorem b2n_le (b : Bool) : b2n b ≤ 1 := by cases b <;> decide

theorem pattern_lt {d : Deliv} (mag : ∀ n k, d = .num n k → k ≤ (floatFmt 0).maxMag) : (floatFmt 0).pattern d < 2 ^ 32 := by
  have max : (floatFmt 0).maxMag = 255 * 2 ^ 23 - 1 := rfl
  have sign : (floatFmt 0).signBit = 2 ^ 31 := rfl
  cases d with
  | nan => decide
  | ovfNaN n => cases n <;> decide
  | inf n => cases n <;> decide
  | num n k =>
    have small := mag n k rfl
    have bit := b2n_le n
    rw [FloatFmt.pattern, sign]
    omega

/-- R219: a float32 pattern has 32 bits. -/
theorem encode_lt (sr : Word) (v : FVal) : ((floatFmt 0).encode .rne sr v).pat < 2 ^ 32 := by
  have out : ∃ d, ((floatFmt 0).encode .rne sr v).pat = (floatFmt 0).pattern d ∧ ∀ n k, d = .num n k → k ≤ (floatFmt 0).maxMag := by
    cases v with
    | nan n sig => exact ⟨.nan, rfl, fun _ _ c => by cases c⟩
    | inf n => exact ⟨.inf n, rfl, fun _ _ c => by cases c⟩
    | num x =>
      refine ⟨((floatFmt 0).round .rne sr x).1, ?_, fun n k is => FloatFmt.round_mag is⟩
      exact congrArg (fun r => (floatFmt 0).pattern r.1) (FloatFmt.flush_false _ _)
  obtain ⟨d, pat, mag⟩ := out
  rw [pat]
  exact pattern_lt mag

/-- R147: the new value of an atomic, as the statement writes it. -/
theorem lamoApply_eq {n old sv : Nat} (hn : 0 < n) (ho : old < 256 ^ n) (hs : sv < 256 ^ n) (op : Nat) :
    lamoApply op n old sv = lamoValue op n old sv := by
  have w : 256 ^ n = 2 ^ (8 * n) := (Nat.pow_mul 2 8 n).symm
  have so := asSigned_of_lt (Nat.mul_pos (by decide) hn) (w ▸ ho)
  have ss := asSigned_of_lt (Nat.mul_pos (by decide) hn) (w ▸ hs)
  unfold lamoApply lamoValue
  dsimp only
  rw [so, ss]
  split
  case h_10 n1 n2 n3 n4 n5 n6 n7 n8 n10 =>
    rw [if_neg n1, if_neg n2, if_neg n3, if_neg n4, if_neg n5, if_neg n6, if_neg n7, if_neg n8, if_neg n10]
  all_goals rfl

/-- R147: the new value of an atomic has the size of its operands. -/
theorem lamoValue_lt {n old sv : Nat} (ho : old < 256 ^ n) (hs : sv < 256 ^ n) {op : Nat} (float : op = 10 → n = 4) :
    lamoValue op n old sv < 256 ^ n := by
  have w : 256 ^ n = 2 ^ (8 * n) := (Nat.pow_mul 2 8 n).symm
  unfold lamoValue
  dsimp only
  split_ifs with h1 h2 h3 h4 h5 h5' h6 h6' h7 h8 h10
  · rw [w]
    exact Nat.mod_lt _ (Nat.two_pow_pos _)
  · exact Nat.lt_of_le_of_lt Nat.and_le_left ho
  · rw [w] at ho hs ⊢
    exact Nat.or_lt_two_pow ho hs
  · rw [w] at ho hs ⊢
    exact Nat.xor_lt_two_pow ho hs
  · exact ho
  · exact hs
  · exact hs
  · exact ho
  · exact Nat.lt_of_le_of_lt (Nat.min_le_left _ _) ho
  · exact max_lt ho hs
  · rw [float h10]
    exact encode_lt _ _
  · exact hs

end Sys2Proof.Machine
end

section
/-! The atomic of one lane (R147): what its place holds after it, what `vd` takes, and what stays. -/

namespace Sys2Proof.Machine

open Sys2Proof

/-- R145, R147: bytes written at once at a plain place. -/
theorem PlainLanes.spotWrite_puts {s t : State} {h g : Hart} {space n : Nat} {k : AccKind} {as : List LaneAcc} {at_ : LaneAcc → Nat × Nat}
    (plain : PlainLanes s h space n k as at_) (known : space ≤ 4) (hn : n = 1 ∨ n = 2 ∨ n = 4 ∨ n = 8) (takes : TakesWrites s t g)
    {a : LaneAcc} (ha : a ∈ as) {bs : List Byte} (len : bs.length = n) :
    ∃ g', LanePuts t g (t.spotWrite (plainSpot space at_ a) bs) g' space (at_ a).1 (at_ a).2 bs := by
  obtain ⟨acting, ok, awake, -, stands⟩ := takes
  subst len
  rcases space_cases known with rfl | (rfl | rfl) | rfl | rfl
  · exact ⟨_, homeWrite_puts acting awake none (stands _ _ (plain.stands ha rfl)) (plain.below ha rfl) (plain.inLine ha hn rfl)⟩
  · exact ⟨_, spadWrite_puts acting ok bs (.inl rfl)⟩
  · exact ⟨_, spadWrite_puts acting ok bs (.inr rfl)⟩
  · exact ⟨_, dsWrite_puts acting ok bs (plain.sized rfl a ha)⟩
  · obtain ⟨own, inside⟩ := plain.ownSlice ha rfl
    have put := sliceWrite_puts ok (owner := a.1) bs inside
    rw [own]
    exact ⟨_, (congrArg (LanePuts t g · _ 4 a.1 (at_ a).2 bs) (State.modCur_of t g _ acting)).mpr put⟩

theorem Hart.setLaneVal_vOnly (h : Hart) (t : Ty) (r l v : Nat) : VOnly h (h.setLaneVal t r l v) := h.setLaneVal_frame t r l v

theorem VOnly.actorMoves {h g : Hart} (only : VOnly h g) : ActorMoves h g := by
  unfold VOnly at only
  unfold ActorMoves
  rw [only]

theorem VOnly.slice_eq {h g : Hart} (only : VOnly h g) : g.lanes.slice = h.lanes.slice := by
  unfold VOnly at only
  rw [only]

/-- R129: of a hart, only its slice holds places. -/
theorem placeByte_slice_eq {s : State} {g k : Hart} (same : k.lanes.slice = g.lanes.slice) (sp : Nat) (q : Nat × Nat) :
    (s.setCur k).placeByte k sp q = s.placeByte g sp q := by
  unfold State.placeByte
  rw [same]
  rfl

/-- R147: package `t` with acting hart `g` has become `t'` with `g'` by the atomic of lane `l` on a place: the place holds `new`, the
lane's `vd` takes `old`, and other places stay. -/
structure AtomicStep (t : State) (g : Hart) (t' : State) (g' : Hart) (space n : Nat) (place : Nat × Nat) (ty : Ty) (vd l old new : Nat) :
    Prop where
  moves : LaneMoves t g t' g'
  sorted : Map.sorted g.lanes.v = true → Map.sorted g'.lanes.v = true
  regs : Map.sorted g.lanes.v = true → l < 32 → ∀ r m, m < 32 → g'.getV r m =
    if m = l ∧ r = vd then BitVec.ofNat 32 old else if m = l ∧ ty = .f64 ∧ r = vd + 1 then BitVec.ofNat 32 (old / 2 ^ 32) else g.getV r m
  num : t'.placeNum g' space place n = new
  bytes : ∀ sp q, sp ≤ 4 → InSpace sp q.2 → ¬ Hits space place.1 place.2 n sp q → t'.placeByte g' sp q = t.placeByte g sp q

/-- R147: `vd` of a lane takes the old value of its place. -/
theorem AtomicStep.of_value {t u : State} {g k : Hart} {space n : Nat} {place : Nat × Nat} (moves : LaneMoves t g u k)
    (regs : k.lanes.v = g.lanes.v) {new : Nat} (num : u.placeNum k space place n = new)
    (bytes : ∀ sp q, sp ≤ 4 → InSpace sp q.2 → ¬ Hits space place.1 place.2 n sp q → u.placeByte k sp q = t.placeByte g sp q)
    (ty : Ty) (vd l old : Nat) :
    AtomicStep t g (u.modCur fun k => k.setLaneVal ty vd l old) (k.setLaneVal ty vd l old) space n place ty vd l old new := by
  have only := k.setLaneVal_vOnly ty vd l old
  have same := placeByte_slice_eq (s := u) only.slice_eq
  have sorted_k (hs : Map.sorted g.lanes.v = true) : Map.sorted k.lanes.v = true := regs ▸ hs
  rw [State.modCur_of u k _ moves.acting]
  refine ⟨moves.trans (.of_actor only.actorMoves fun ok => only.slice_eq ▸ ok), fun hs => Hart.sorted_setLaneVal (sorted_k hs) ty vd old,
    fun hs hl r m hm => ?_, ?_, fun sp q hsp hq apart => (same sp q).trans (bytes sp q hsp hq apart)⟩
  · rw [Hart.getV_setLaneVal_ite (sorted_k hs) hl hm, show k.getV r m = g.getV r m by rw [Hart.getV, Hart.getV, regs]]
  · exact (placeNum_congr (same space) place n).trans num

section
variable {s t : State} {h g : Hart} {space n : Nat} {k : AccKind} {as : List LaneAcc} {at_ : LaneAcc → Nat × Nat}
  (plain : PlainLanes s h space n k as at_) (known : space ≤ 4) (hn : n = 1 ∨ n = 2 ∨ n = 4 ∨ n = 8) (takes : TakesWrites s t g)
  {a : LaneAcc} (ha : a ∈ as)
include plain known hn takes ha

theorem PlainLanes.natOfBytes_spot : natOfBytes (t.spotBytes (plainSpot space at_ a) n) = t.placeNum g space (at_ a) n := by
  rw [plainSpot, natOfBytes_spotBytes takes.acting _ known
    (fun home => ⟨takes.stands _ _ (plain.stands ha home), plain.inLine ha hn home⟩) (fun slice => (plain.ownSlice ha slice).1)]

omit takes in
/-- R147: the number at a plain place after bytes were written there. -/
theorem PlainLanes.placeNum_puts {u : State} {g' : Hart} {v : Nat} (small : v < 256 ^ n)
    (puts : LanePuts t g u g' space (at_ a).1 (at_ a).2 (bytesOfNat v n)) : u.placeNum g' space (at_ a) n = v := by
  refine (placeNum_of_value (at_ a) n v fun i hi => ?_).trans (Nat.mod_eq_of_lt small)
  refine (puts.hit space ((at_ a).1, (at_ a).2 + i) known (plain.inSpace hn ha hi) ⟨.inl rfl, rfl, Nat.le_add_right _ _, ?_⟩).trans ?_
  · rw [bytesOfNat_length]
    exact Nat.add_lt_add_left hi _
  · rw [Nat.add_sub_cancel_left, getD_bytesOfNat _ hi]

/-- R147: the atomic of one lane on a plain place. -/
theorem PlainLanes.lamoLane_step (unordered : t.ordered h = false) (ty : Ty) (op vd vs : Nat)
    (fits : h.laneVal ty vs a.1 < 256 ^ n) (float : op = 10 → n = 4) :
    let old := t.placeNum g space (at_ a) n
    ∃ g', AtomicStep t g (t.lamoLane h ty n op vd vs (plainSpot space at_ a)) g' space n (at_ a) ty vd a.1 old
      (if lamoWrites op old (h.laneVal ty vd a.1) then lamoValue op n old (h.laneVal ty vs a.1) else old) := by
  intro old
  have ready : t.readySpots [plainSpot space at_ a] = t := by
    rw [State.readySpots, List.foldl_cons, List.foldl_nil, drainPlace_of_quiet _ takes.quiet, ite_self]
  have spot : natOfBytes (t.spotBytes (plainSpot space at_ a) n) = old := plain.natOfBytes_spot known hn takes ha
  have held : t.placeNum g space (at_ a) n = old := rfl
  have small : old < 256 ^ n := placeNum_lt ..
  clear_value old
  have lane : (plainSpot space at_ a).lane = a.1 := rfl
  have positive : 0 < n := by omega
  have cached : ∃ u, LaneStays t g u g ∧ (if (plainSpot space at_ a).space = 0 then
      (t.cleanHdc (plainSpot space at_ a).owner (plainSpot space at_ a).addr none).dropL1 (coreOf t.cur)
        (plainSpot space at_ a).owner (plainSpot space at_ a).addr else t) = u := by
    refine ⟨_, ?_, rfl⟩
    split
    · exact .of_caches takes.acting ((cleanHdc_cachesMoved ..).trans (dropL1_cachesMoved ..))
    · exact .refl takes.acting
  obtain ⟨u, stays, cached⟩ := cached
  have writes : (op ≠ 9 ∨ old = h.laneVal ty vd a.1) ↔ lamoWrites op old (h.laneVal ty vd a.1) = true := by
    simp [lamoWrites]
  unfold State.lamoLane
  dsimp only
  rw [ready, cached, spot, lane, lamoApply_eq positive small fits]
  by_cases wr : lamoWrites op old (h.laneVal ty vd a.1) = true
  · rw [if_pos (writes.2 wr), if_pos wr]
    obtain ⟨g1, put⟩ := plain.spotWrite_puts known hn (takes.after stays.moves) ha
      (bytesOfNat_length (lamoValue op n old (h.laneVal ty vs a.1)) n)
    obtain ⟨g2, touched⟩ := LaneStays.touchSpot put.moves.acting (plainSpot space at_ a)
    have puts := stays.puts (put.stays touched)
    rw [sendDirect_of_unordered ((launch_ordered_of_rest puts.moves.rest h).trans unordered)]
    have bytes := puts.miss
    rw [bytesOfNat_length] at bytes
    have num := plain.placeNum_puts known hn ha (lamoValue_lt small fits float) puts
    exact ⟨_, .of_value puts.moves puts.regs num bytes ty vd a.1 old⟩
  · rw [if_neg fun c => wr (writes.1 c), if_neg wr]
    exact ⟨_, .of_value stays.moves stays.regs ((placeNum_congr (stays.bytes space) _ n).trans held)
      (fun sp q _ _ _ => stays.bytes sp q) ty vd a.1 old⟩

end

end Sys2Proof.Machine
end

section
/-! The atomics of all lanes, one after the other (R141, R147). -/

namespace Sys2Proof.Machine

open Sys2Proof

theorem filter_below {ls pre post : List Nat} {l : Nat} (ascending : ls.Pairwise (· < ·)) (split : ls = pre ++ l :: post) :
    ls.filter (fun k => decide (k < l)) = pre := by
  subst split
  obtain ⟨-, tail, across⟩ := List.pairwise_append.1 ascending
  have low : pre.filter (fun k => decide (k < l)) = pre :=
    List.filter_eq_self.2 fun k hk => decide_eq_true (across k hk l List.mem_cons_self)
  have high : (l :: post).filter (fun k => decide (k < l)) = [] := List.filter_eq_nil_iff.2 fun k hk => by
    rw [decide_eq_true_eq]
    rcases List.mem_cons.1 hk with rfl | later
    · exact Nat.lt_irrefl k
    · exact Nat.lt_asymm ((List.pairwise_cons.1 tail).1 k later)
  rw [List.filter_append, low, high, List.append_nil]

section
variable (s : State) (h : Hart) (space n : Nat) (ty : Ty) (op vd vs : Nat) (place : Nat → Nat × Nat)

/-- R147: what the place of lane `l` holds after the atomics of lanes `ks`. -/
def placeChain (l : Nat) (ks : List Nat) : Nat :=
  lamoChain op n (h.laneVal ty vs) (h.laneVal ty vd) (s.placeNum h space (place l) n) (ks.filter fun k => place k == place l)

/-- R147: package `t` with acting hart `g` after the atomics of lanes `pre` of the lanes `ls`: each of `pre` has taken the value its
place held before it, and the lanes' places hold the values after them. -/
structure AtomicsDone (t : State) (g : Hart) (pre ls : List Nat) : Prop where
  moves : LaneMoves s h t g
  sorted : Map.sorted g.lanes.v = true
  regs : ∀ r l, l < 32 → g.getV r l =
    if l ∈ pre ∧ r = vd then BitVec.ofNat 32 (placeChain s h space n ty op vd vs place l (ls.filter fun k => decide (k < l)))
    else if l ∈ pre ∧ ty = .f64 ∧ r = vd + 1 then
      BitVec.ofNat 32 (placeChain s h space n ty op vd vs place l (ls.filter fun k => decide (k < l)) / 2 ^ 32)
    else h.getV r l
  nums : ∀ l ∈ ls, t.placeNum g space (place l) n = placeChain s h space n ty op vd vs place l pre
  bytes : ∀ sp q, sp ≤ 4 → InSpace sp q.2 → (∀ l ∈ ls, ¬ Hits space (place l).1 (place l).2 n sp q) →
    t.placeByte g sp q = s.placeByte h sp q

variable {s h space n ty op vd vs place}

theorem placeChain_append_same {l k : Nat} (ks : List Nat) (same : place k = place l) :
    placeChain s h space n ty op vd vs place l (ks ++ [k]) =
      (if lamoWrites op (placeChain s h space n ty op vd vs place k ks) (h.laneVal ty vd k) then
        lamoValue op n (placeChain s h space n ty op vd vs place k ks) (h.laneVal ty vs k)
      else placeChain s h space n ty op vd vs place k ks) := by
  have here : [k].filter (fun k => place k == place l) = [k] := List.filter_eq_self.2 fun m hm => by
    rw [List.mem_singleton.1 hm, same, beq_self_eq_true]
  unfold placeChain lamoChain
  rw [List.filter_append, here, List.foldl_append, same]
  rfl

theorem placeChain_append_apart {l k : Nat} (ks : List Nat) (apart : place k ≠ place l) :
    placeChain s h space n ty op vd vs place l (ks ++ [k]) = placeChain s h space n ty op vd vs place l ks := by
  have none : [k].filter (fun k => place k == place l) = [] := List.filter_eq_nil_iff.2 fun m hm => by
    rw [List.mem_singleton.1 hm, beq_iff_eq]
    exact apart
  unfold placeChain
  rw [List.filter_append, none, List.append_nil]

theorem AtomicsDone.stays {t u : State} {g k : Hart} {pre ls : List Nat} (done : AtomicsDone s h space n ty op vd vs place t g pre ls)
    (stays : LaneStays t g u k) : AtomicsDone s h space n ty op vd vs place u k pre ls where
  moves := done.moves.trans stays.moves
  sorted := stays.regs ▸ done.sorted
  regs := fun r l hl => (congrArg (fun v => (Map.findD v (r * 32 + l) 0 : Word)) stays.regs).trans (done.regs r l hl)
  nums := fun l hl => (placeNum_congr (stays.bytes space) _ n).trans (done.nums l hl)
  bytes := fun sp q hsp hq apart => (stays.bytes sp q).trans (done.bytes sp q hsp hq apart)

/-- R147: one lane more. -/
theorem AtomicsDone.step {t u : State} {g k : Hart} {pre ls post : List Nat} {l : Nat}
    (done : AtomicsDone s h space n ty op vd vs place t g pre ls) (ascending : ls.Pairwise (· < ·)) (split : ls = pre ++ l :: post)
    (small : ∀ l ∈ ls, l < 32) (known : space ≤ 4)
    (inside : ∀ l ∈ ls, ∀ i, i < n → InSpace space ((place l).2 + i)) (aligned : ∀ l ∈ ls, (place l).2 % n = 0)
    (step : AtomicStep t g u k space n (place l) ty vd l (t.placeNum g space (place l) n)
      (if lamoWrites op (t.placeNum g space (place l) n) (h.laneVal ty vd l) then
        lamoValue op n (t.placeNum g space (place l) n) (h.laneVal ty vs l) else t.placeNum g space (place l) n)) :
    AtomicsDone s h space n ty op vd vs place u k (pre ++ [l]) ls := by
  have mem : l ∈ ls := mem_of_split split
  have old : t.placeNum g space (place l) n = placeChain s h space n ty op vd vs place l pre := done.nums l mem
  rw [old] at step
  refine ⟨done.moves.trans step.moves, step.sorted done.sorted, fun r m hm => ?_, fun m hm => ?_, fun sp q hsp hq apart => ?_⟩
  · rw [step.regs done.sorted (small l mem) r m hm, done.regs r m hm]
    by_cases e : m = l
    · subst e
      rw [filter_below ascending split]
      by_cases first : r = vd
      · simp [first]
      · by_cases second : ty = .f64 ∧ r = vd + 1
        · simp [second]
        · simp [first, second]
    · simp [e]
  · by_cases same : place l = place m
    · rw [placeChain_append_same pre same, ← same]
      exact step.num
    · rw [placeChain_append_apart pre same, ← done.nums m hm]
      refine placeNum_of_bytes (place m) n fun i hi => step.bytes space _ known (inside m hm i hi) ?_
      rintro ⟨-, owner, low, high⟩
      exact same (Prod.ext owner.symm (aligned_apart (aligned l mem) (aligned m hm) hi low high))
  · exact (step.bytes sp q hsp hq (apart l mem)).trans (done.bytes sp q hsp hq apart)

end

/-- R147: the atomics of plain accesses, the lanes ascending, from a package that holds the same bytes and lane registers. -/
theorem PlainLanes.lamoAll {s u : State} {h hb : Hart} {space n : Nat} {k : AccKind} {at_ : LaneAcc → Nat × Nat} {ls : List Nat}
    {acc : Nat → LaneAcc} (plain : PlainLanes s h space n k (ls.map acc) at_) (lane : ∀ l, (acc l).1 = l) (known : space ≤ 4)
    (hn : n = 1 ∨ n = 2 ∨ n = 4 ∨ n = 8) (stays : LaneStays s h u hb) (takes : TakesWrites s s h) (sorted : Map.sorted h.lanes.v = true)
    (ascending : ls.Pairwise (· < ·)) (small : ∀ l ∈ ls, l < 32) (ty : Ty) (op vd vs : Nat)
    (fits : ∀ l, h.laneVal ty vs l < 256 ^ n) (float : op = 10 → n = 4) :
    ∃ g, AtomicsDone s h space n ty op vd vs (fun l => at_ (acc l))
      (ls.foldl (fun t l => t.lamoLane h ty n op vd vs (plainSpot space at_ (acc l))) u) g ls ls := by
  have mem (l : Nat) (hl : l ∈ ls) : acc l ∈ ls.map acc := List.mem_map_of_mem hl
  refine foldl_stepwise (fun pre t => ∃ g, AtomicsDone s h space n ty op vd vs (fun l => at_ (acc l)) t g pre ls) ?_ ls ?_
  · refine ⟨hb, stays.moves, stays.regs ▸ sorted, fun r l _ => ?_, fun l _ => ?_, fun sp q _ _ _ => stays.bytes sp q⟩
    · simp [Hart.getV, stays.regs]
    · exact placeNum_congr (stays.bytes space) _ n
  · rintro pre l post t split ⟨g, done⟩
    have now : TakesWrites s t g := takes.after done.moves
    have unordered : t.ordered h = false := (launch_ordered_of_rest done.moves.rest h).trans plain.unordered
    obtain ⟨g', step⟩ := plain.lamoLane_step known hn now (mem l (mem_of_split split)) unordered ty op vd vs (fits _) float
    rw [lane] at step
    exact ⟨g', done.step ascending split small known (fun m hm i hi => plain.inSpace hn (mem m hm) hi)
      (fun m hm => plain.placeAligned hn (mem m hm)) step⟩

end Sys2Proof.Machine
end

section
/-! `lamo` down to the atomics of its lanes (R46, R147). -/

namespace Sys2Proof.Machine

open Sys2Proof

/-- R168: a release of a hart that has nothing to wait for. -/
theorem released_prepared {s : State} {h : Hart} (hc : s.hart? s.cur = some h) (quiet : (s.core (coreOf s.cur)).flight = [])
    (scope : Nat) :
    Prepared s h (s.released s.cur scope) := by
  unfold State.released
  split
  · exact ⟨h, .refl hc, rfl⟩
  · have drained : s.drainCore (coreOf s.cur) = s := by simp [State.drainCore, quiet]
    rw [drained]
    have harts (j : Nat) := State.hart?_modHarts s (fun j _ => j == s.cur)
      (fun _ h => { h with dev := { h.dev with tbm := 0, tbmf := h.dev.tbmf && decide (scope < scX) } }) j
    refine ⟨{ h with dev := { h.dev with tbm := 0, tbmf := h.dev.tbmf && decide (scope < scX) } }, ⟨⟨?_, rfl, fun j hj => ?_,
      ⟨fun _ => rfl, fun _ => rfl, rfl, launches_of_same rfl, rfl⟩, fun _ l hl fine => ⟨l, hl, fine⟩, ?_⟩, rfl, fun _ _ => rfl⟩, rfl⟩
    · exact (harts s.cur).trans (by rw [hc, Option.map_some, if_pos (beq_self_eq_true _)])
    · rw [harts j]
      simp only [beq_iff_eq, if_neg hj]
      exact Option.map_id_apply ▸ .refl _
    · rintro ⟨spad, ds, slice⟩
      exact ⟨spad, ds, slice⟩

/-- R168: a fence that need not wait: what follows it acts on a package with the same bytes. -/
theorem fence_of_unmarked {s : State} {h : Hart} (hc : s.hart? s.cur = some h) (quiet : (s.core (coreOf s.cur)).flight = [])
    {scope : Nat} {rel : Bool} (unmarked : rel = true → h.dev.tbm = 0 ∧ (h.dev.tbmf = false ∨ scope < 5)) (i : Instr) :
    ∃ u, Prepared s h u ∧ ∀ f, s.fence scope rel false i f = f u := by
  cases rel with
  | false => exact ⟨s, ⟨h, .refl hc, rfl⟩, fun f => rfl⟩
  | true =>
    obtain ⟨clear, near⟩ := unmarked rfl
    have marked : s.marked s.cur scope = false := by
      have far : (h.dev.tbmf && decide (scX ≤ scope)) = false := by
        rcases near with off | low
        · rw [off, Bool.false_and]
        · rw [show decide (scX ≤ scope) = false from decide_eq_false (Nat.not_le.2 low), Bool.and_false]
      simp only [State.marked, quiet, hc, clear, far, List.any_nil, bne_self_eq_false, Bool.or_self]
    by_cases narrow : scope ≤ scC
    · refine ⟨s, ⟨h, .refl hc, rfl⟩, fun f => ?_⟩
      simp only [State.fence, State.releasing, narrow, if_true, Bool.false_eq_true, if_false]
    · refine ⟨_, released_prepared hc quiet scope, fun f => ?_⟩
      simp only [State.fence, State.releasing, narrow, marked, if_true, Bool.false_eq_true, if_false, Bool.not_false]

theorem dropSpots_prepared {s : State} {h : Hart} (hc : s.hart? s.cur = some h) (spots : List Spot) :
    Prepared s h (s.dropSpots spots) := by
  refine prepared_foldl (fun t g p hg => ?_) hc spots
  split
  · have moved := dropL1_cachesMoved t (coreOf s.cur) p.owner p.addr
    exact ⟨g, .of_caches hg moved, rfl⟩
  · exact ⟨g, .refl hg, rfl⟩

theorem withData_of_prompt {s : State} (prompt : s.latency = 0) (i : Instr) (away : Bool) (f : State → State) :
    s.withData i away f = f (if away then s.popLatency else s) := by
  cases away with
  | false => rfl
  | true => simp only [State.withData, prompt, if_true, Bool.not_true, Bool.false_eq_true, if_false]

theorem acquire_stays {s : State} {h : Hart} (hc : s.hart? s.cur = some h) (core scope : Nat) :
    LaneStays s h (s.acquire core scope) h := by
  unfold State.acquire
  split
  · exact .of_caches hc (.modCore _ _ fun _ => rfl)
  · exact .refl hc

/-- R147: `lamo` from the atomics of its lanes on. -/
def lamoLanes (m : LaneMem) (op : BitVec 4) (order scope : BitVec 3) (vs : BitVec 6) (spots : List Spot) (h : Hart) (now : Nat)
    (s5 : State) : State :=
  let s6 := spots.foldl (fun a p => a.lamoLane h (sizeTy m) (sizeBytes m) op.toNat m.vd.toNat vs.toNat p) s5
  let s7 := if lamoAcquires order then s6.acquire (coreOf s6.cur) scope.toNat else s6
  match s7.hart? s7.cur with
  | none => s7
  | some k => s7.laneDone k (if spots.isEmpty then k else k.hangClear now) (destRegs (sizeTy m) m.vd.toNat) (!spots.isEmpty) 8

theorem sizeTy_eq_f64 (m : LaneMem) : sizeTy m = .f64 ↔ m.size = 3 := by
  unfold sizeTy
  by_cases three : m.size = 3
  · simp only [three, if_true]
  · simp only [three, if_false, reduceCtorEq]

/-- R45: a lane's operand has the size of its place. -/
theorem laneVal_fits (h : Hart) {m : LaneMem} (wide : 2 ≤ m.size.toNat) (r l : Nat) : h.laneVal (sizeTy m) r l < 256 ^ sizeBytes m := by
  rw [laneVal_sizeTy]
  by_cases three : m.size = 3
  · have size : sizeBytes m = 8 := by rw [sizeBytes, three]; rfl
    rw [if_pos three, size]
    exact (h.getPair r l).isLt
  · have two : m.size.toNat = 2 := by
      have below := m.size.isLt
      have not3 : m.size.toNat ≠ 3 := fun c => three (BitVec.eq_of_toNat_eq c)
      omega
    have size : sizeBytes m = 4 := by rw [sizeBytes, two]; rfl
    rw [if_neg three, size]
    exact (h.getV r l).isLt

section
variable {s : State} {h : Hart} {m : LaneMem} {at_ : LaneAcc → Nat × Nat} (hc : s.hart? s.cur = some h)
include hc

theorem execLamo_of_plain (op : BitVec 4) (order scope : BitVec 3) (vs : BitVec 6)
    (unmasked : (s.pfmask h 3 || dwordMasked m s h) = false)
    (unmarked : lamoReleases order = true → h.dev.tbm = 0 ∧ (h.dev.tbmf = false ∨ scope.toNat < 5))
    (plain : PlainLanes s h m.space.toNat (sizeBytes m) .store (laneAccs h m 0) at_) :
    ∃ u g, LaneStays s h u g ∧ execLamo m op order scope vs s =
      .next (lamoLanes m op order scope vs ((laneAccs h m 0).map (plainSpot m.space.toNat at_)) h s.now u) := by
  obtain ⟨u, ⟨g, released, latencies⟩, fenced⟩ := fence_of_unmarked hc plain.quiet unmarked (.lamo m op order scope vs)
  obtain ⟨k, dropped, latencies'⟩ := dropSpots_prepared released.moves.acting ((laneAccs h m 0).map (plainSpot m.space.toNat at_))
  have prompt : (u.dropSpots ((laneAccs h m 0).map (plainSpot m.space.toNat at_))).latency = 0 :=
    (congrArg (fun ls : List Nat => ls.headD 0) (latencies'.trans latencies)).trans plain.prompt
  have stalled (f : State → State) : s.stalling h f = f s := by
    simp only [State.stalling, plain.unordered, Bool.not_false, if_true]
  have checked (f : List Spot → State → State) := plain.checkLanes true true false rfl f
  have watched (f : State → State) := plain.watchLanes 3 f
  have unlocked (f : State → State) := plain.unlessLocked (.lamo m op order scope vs) f
  have data (away : Bool) (f : State → State) := withData_of_prompt prompt (.lamo m op order scope vs) away f
  have popped := LaneStays.popped dropped.moves.acting ((m.space.toNat == 0 || m.space.toNat == 2 || m.space.toNat == 3) &&
    !((laneAccs h m 0).map (plainSpot m.space.toNat at_)).isEmpty)
  refine ⟨_, _, (released.trans dropped).trans popped, (onHart_of s h _ hc).trans (congrArg Host.Outcome.next ?_)⟩
  refine (if_neg (ne_true_of_eq_false unmasked)).trans ((stalled _).trans ?_)
  rw [hc]
  exact (watched _).trans ((checked _).trans ((unlocked _).trans ((fenced _).trans (data _ _))))

/-- R147: what plain lane atomics leave. -/
theorem execLamo_done (op : BitVec 4) (order scope : BitVec 3) (vs : BitVec 6)
    (unmasked : (s.pfmask h 3 || dwordMasked m s h) = false)
    (unmarked : lamoReleases order = true → h.dev.tbm = 0 ∧ (h.dev.tbmf = false ∨ scope.toNat < 5))
    (ok : s.memoriesOk = true) (sorted : Map.sorted h.lanes.v = true) (known : m.space.toNat ≤ 4) (wide : 2 ≤ m.size.toNat)
    (float : m.size = 3 → op ≠ 10) (plain : PlainLanes s h m.space.toNat (sizeBytes m) .store (laneAccs h m 0) at_) :
    ∃ t g k, execLamo m op order scope vs s = .next (t.setCur (k.retire 8)) ∧ ActorMoves g k ∧ k.lanes = g.lanes ∧
      AtomicsDone s h m.space.toNat (sizeBytes m) (sizeTy m) op.toNat m.vd.toNat vs.toNat
        (fun l => at_ (l, laneAddr h m 0 l, laneAddr h m 0 l)) t g (h.activeLanes m.guard) (h.activeLanes m.guard) := by
  obtain ⟨u, hb, stays, run⟩ := execLamo_of_plain hc op order scope vs unmasked unmarked plain
  have takes : TakesWrites s s h := ⟨hc, spotsOk_of_memoriesOk ok hc, plain.awake, plain.quiet, fun _ _ => id⟩
  have ascending : (h.activeLanes m.guard).Pairwise (· < ·) := List.pairwise_lt_range.filter _
  have single : op.toNat = 10 → sizeBytes m = 4 := fun ten => by
    have two : m.size.toNat = 2 := by
      have below := m.size.isLt
      have not3 : m.size.toNat ≠ 3 := fun c => float (BitVec.eq_of_toNat_eq c) (BitVec.eq_of_toNat_eq ten)
      omega
    rw [sizeBytes, two]
    rfl
  obtain ⟨g, done⟩ := plain.lamoAll (fun _ => rfl) known (sizeBytes_cases m.size) stays takes sorted ascending
    (fun l hl => ((mem_activeLanes ..).1 hl).1) (sizeTy m) op.toNat m.vd.toNat vs.toNat (fun l => laneVal_fits h wide vs.toNat l) single
  rw [run]
  unfold lamoLanes
  rw [laneAccs, List.foldl_map, List.foldl_map]
  generalize (h.activeLanes m.guard).foldl _ u = t at done
  have acquired : LaneStays t g (if lamoAcquires order then t.acquire (coreOf t.cur) scope.toNat else t) g := by
    split
    · exact acquire_stays done.moves.acting ..
    · exact .refl done.moves.acting
  dsimp only
  generalize (if lamoAcquires order = true then t.acquire (coreOf t.cur) scope.toNat else t) = v at acquired ⊢
  rw [acquired.moves.acting]
  dsimp only
  rw [State.laneDone, done.moves.actor.lent_eq, plain.unlent, List.isEmpty_nil, Bool.not_true, Bool.and_false]
  refine ⟨v, g, _, rfl, ?_, ?_, done.stays acquired⟩
  · split <;> rfl
  · split <;> rfl

end

end Sys2Proof.Machine
end

section
/-! Prefetches (R148), and the statement about lane atomics and prefetches. -/

namespace Sys2Proof.Machine

open Sys2Proof

/-- R302: the caches of data have no part in stage 1. -/
theorem LanesRead.stage1_eq {s u : State} {as : List LaneAcc} {at_ : LaneAcc → Nat × Nat} (read : LanesRead s u as at_) (core : Nat)
    (c : Ctx) (walks : List (Nat × WalkResult)) (va : DWord) (k : AccKind) : u.stage1 core c walks va k = s.stage1 core c walks va k := by
  have tlb : (u.core core).tlb = (s.core core).tlb := (congrArg Core.tlb (read.cores core) :)
  have find (part asid : Nat) (va : DWord) : u.tlbFind core part asid va = s.tlbFind core part asid va := by
    have rest := read.rest
    unfold State.tlbFind
    rw [tlb]
    generalize u.cores = cs at rest
    rw [rest]
    rfl
  unfold State.stage1
  simp only [find]

theorem allocL1_latencies (s : State) (part gpa : Nat) (streaming : Bool) : (s.allocL1 part gpa streaming).latencies = s.latencies :=
  (congrArg State.latencies (cleanHdc_cachesMoved s part gpa none).rest :)

/-- R148: a lane L1 line requested at a plain place. -/
theorem LanesRead.prefetch {s u : State} {h : Hart} {as : List LaneAcc} {at_ : LaneAcc → Nat × Nat} (read : LanesRead s u as at_)
    (plain : PlainLanes s h 0 1 .load as at_) (walks : h.run.walks = []) (policy : Nat) {a : LaneAcc} (ha : a ∈ as) :
    LanesRead s (u.prefetch h policy a.2.2) as at_ ∧ (u.prefetch h policy a.2.2).latencies = u.latencies := by
  obtain ⟨owner, answer, -⟩ := plain.translated rfl a ha
  have stands := plain.stands ha rfl
  have ready := atHome_stands (read.stands stands)
  have held : u.drainPlace (coreOf u.cur) (u.home (at_ a).1 (at_ a).2) = u :=
    drainPlace_of_quiet _ (by rw [read.cur_eq, read.flight_eq, plain.quiet])
  rw [walks] at answer
  unfold State.prefetch
  dsimp only
  rw [read.stage1_eq, read.cur_eq, answer]
  dsimp only
  rw [← owner, ready]
  dsimp only
  split
  · exact ⟨read, rfl⟩
  · rw [← read.cur_eq, held]
    exact ⟨read.allocL1 _ stands (fun b hb => plain.below hb rfl) ha, allocL1_latencies ..⟩

/-- R148: the lines of a prefetch from plain places. -/
theorem LanesRead.prefetchAll {s : State} {h : Hart} {as : List LaneAcc} {at_ : LaneAcc → Nat × Nat} (start : LanesRead s s as at_)
    (plain : PlainLanes s h 0 1 .load as at_) (walks : h.run.walks = []) (policy : Nat) {lines : List DWord}
    (among : ∀ va ∈ lines, ∃ a ∈ as, a.2.2 = va) :
    LanesRead s (lines.foldl (fun t va => t.prefetch h policy va) s) as at_ ∧
      (lines.foldl (fun t va => t.prefetch h policy va) s).latencies = s.latencies := by
  refine foldl_stepwise (fun _ u => LanesRead s u as at_ ∧ u.latencies = s.latencies) ⟨start, rfl⟩ lines ?_
  rintro pre va post u split ⟨read, same⟩
  obtain ⟨a, ha, rfl⟩ := among va (mem_of_split split)
  obtain ⟨next, kept⟩ := read.prefetch plain walks policy ha
  exact ⟨next, kept.trans same⟩

/-- R92: what retiring leaves of a hart. -/
theorem Hart.retire_leaves (h : Hart) (len : Nat) : RetiresTo h (h.retire len) (h.nextPc len) ∧ (h.retire len).x = h.x ∧
    (h.retire len).lanes = h.lanes ∧ (h.retire len).dev = h.dev ∧ (h.retire len).run = h.settle.run := by
  obtain ⟨x, lanes, dev, run⟩ := Hart.retireTo_keeps h (h.nextPc len)
  exact ⟨Hart.retireTo_retires h _, x, lanes, dev, run⟩

section
variable {s : State} {h : Hart} {m : LaneMem} (hc : s.hart? s.cur = some h) (policy : Nat) (imm : BitVec 16)
include hc

/-- R148: a prefetch outside space 0. -/
theorem lanePrefetch_beyond (away : m.space ≠ 0) : ∃ t h', lanePrefetch m policy imm s = .next t ∧ OnlyHart s t s.cur h' ∧
    RetiresTo h h' (h.nextPc 8) ∧ h'.x = h.x ∧ h'.lanes = h.lanes ∧ h'.dev = h.dev ∧ h'.run = h.settle.run := by
  refine ⟨_, h.retire 8, ?_, s.setCur_only _, h.retire_leaves 8⟩
  refine (onHart_of s h _ hc).trans (congrArg Host.Outcome.next ?_)
  dsimp only
  rw [if_neg away, State.modCur_of s h _ hc]

/-- R148: a prefetch from space 0. -/
theorem lanePrefetch_home (home : m.space = 0) (walks : h.run.walks = []) {at_ : LaneAcc → Nat × Nat} {as : List LaneAcc}
    (plain : PlainLanes s h 0 1 .load as at_) (among : ∀ va ∈ prefetchLines h m imm, ∃ a ∈ as, a.2.2 = va) :
    ∃ t h', lanePrefetch m policy imm s = .next t ∧ t.hart? s.cur = some h' ∧ (∀ j, j ≠ s.cur → t.hart? j = s.hart? j) ∧
      RetiresTo h h' (h.nextPc 8) ∧ h'.x = h.x ∧ h'.lanes = h.lanes ∧ h'.dev = h.dev ∧ h'.run = h.settle.run ∧
      CachesOnly s t ∧ { t with harts := s.harts, cores := s.cores, fresh := s.fresh } = s := by
  have start : LanesRead s s as at_ := ⟨rfl, fun _ => rfl, plain.listed, plain.coherent⟩
  obtain ⟨read, latencies⟩ := start.prefetchAll plain walks policy among
  have run : lanePrefetch m policy imm s = .next (((prefetchLines h m imm).foldl (fun t va => t.prefetch h policy va) s).setCur
      (h.retire 8)) := by
    refine (onHart_of s h _ hc).trans (congrArg Host.Outcome.next ?_)
    dsimp only
    rw [if_pos home, State.modCur_of _ h _ (read.acting hc)]
  rw [run]
  generalize (prefetchLines h m imm).foldl (fun t va => t.prefetch h policy va) s = u at read latencies ⊢
  obtain ⟨retires, x, lanes, dev, run⟩ := h.retire_leaves 8
  refine ⟨_, h.retire 8, rfl, ?_, fun j hj => ?_, retires, x, lanes, dev, run, read.cores, ?_⟩
  · exact (congrArg (u.setCur (h.retire 8)).hart? read.cur_eq.symm).trans (State.hart?_setCur u _)
  · rw [State.hart?_setCur_other _ _ j (read.cur_eq ▸ hj), State.hart?, read.harts_eq, State.hart?]
  · have rest := (congrArg (fun v : State => { v with harts := s.harts, cores := s.cores, fresh := s.fresh }) read.rest :)
    exact rest.trans (congrArg (fun ls => ({ s with latencies := ls } : State)) latencies)

end

/-- R148: the lines of a prefetch are those of its lanes' accesses. -/
theorem prefetchLines_among {h : Hart} {m : LaneMem} {imm : BitVec 16} {va : DWord} (hva : va ∈ prefetchLines h m imm) :
    let first := fun (l : Nat) => laneAddr h m imm l &&& ~~~127
    ∃ a ∈ ((h.activeLanes m.guard).map fun l => (List.range (2 ^ m.size.toNat)).map
      fun j => ((l, first l + BitVec.ofNat 64 (128 * j), first l + BitVec.ofNat 64 (128 * j)) : LaneAcc)).flatten, a.2.2 = va := by
  intro first
  obtain ⟨row, hrow, hva⟩ := List.mem_flatten.1 (List.mem_eraseDups.1 hva)
  obtain ⟨l, hl, rfl⟩ := List.mem_map.1 hrow
  obtain ⟨j, hj, rfl⟩ := List.mem_map.1 hva
  exact ⟨_, List.mem_flatten.2 ⟨_, List.mem_map.2 ⟨l, hl, rfl⟩, List.mem_map.2 ⟨j, hj, rfl⟩⟩, rfl⟩

theorem range_filter_below {l : Nat} (hl : l < 32) : (List.range 32).filter (fun k => decide (k < l)) = List.range l := by
  revert l
  decide

theorem activeLanes_below (h : Hart) (g : Guard) {l : Nat} (hl : l < 32) :
    (h.activeLanes g).filter (fun k => decide (k < l)) = (List.range l).filter (h.active g) := by
  rw [← range_filter_below hl, List.filter_filter, Hart.activeLanes, List.filter_filter]
  simp only [Bool.and_comm]
  rfl

/-- R147: the active lanes below a lane that share its place. -/
theorem placeChain_range {s : State} {h : Hart} {space n : Nat} {ty : Ty} {op vd vs : Nat} {place : Nat → Nat × Nat} (g : Guard)
    (l : Nat) (r : List Nat) : placeChain s h space n ty op vd vs place l (r.filter (h.active g)) =
      lamoChain op n (h.laneVal ty vs) (h.laneVal ty vd) (s.placeNum h space (place l) n)
        (r.filter fun k => h.active g k && place k == place l) := by
  unfold placeChain
  rw [List.filter_filter]
  simp only [Bool.and_comm]

end Sys2Proof.Machine

namespace Sys2Proof.Proofs

open Sys2Proof Sys2Proof.Machine

/-- Settles O35, by the atomics of the lanes in ascending order, each on the value the lanes before it have left at its place, and by the
lines of a prefetch one after the other. -/
theorem laneAtomics : Obligations.LaneAtomics := by
  constructor
  · intro s h m at_ op order scope vs hc ok sorted known wide float unmasked dwords unmarked n addr acc reg value plain
    have base : addr = laneAddr h m 0 := funext fun l => (BitVec.add_zero _).symm
    clear_value addr
    subst base
    have allowed : (s.pfmask h 3 || dwordMasked m s h) = false := by rw [unmasked, dwordMasked_eq_false dwords]; rfl
    have releases : lamoReleases order = true → h.dev.tbm = 0 ∧ (h.dev.tbmf = false ∨ scope.toNat < 5) := fun rel =>
      unmarked (by simpa [lamoReleases, or_assoc] using rel)
    obtain ⟨t, g, k, run, cleared, lanes, done⟩ := execLamo_done hc op order scope vs allowed releases ok sorted known wide float plain
    have retired : (k.retire 8).lanes = g.lanes := (Hart.retire_lanes k 8).trans lanes
    have same (sp : Nat) (q : Nat × Nat) := placeByte_lanes (s := t) (k.retire 8) retired sp q
    have values (l c : Nat) : placeChain s h m.space.toNat (sizeBytes m) (sizeTy m) op.toNat m.vd.toNat vs.toNat
        (fun l => at_ (l, laneAddr h m 0 l, laneAddr h m 0 l)) l ((List.range c).filter (h.active m.guard)) = value l c := by
      have operands : h.laneVal (sizeTy m) = reg := by
        funext r l
        exact laneVal_sizeTy h m r l
      rw [placeChain_range, operands]
      rfl
    refine ⟨_, k.retire 8, run, ?_, .of_moves (done.moves.actor.trans cleared) 8 rfl, fun j hj => ?_,
      done.moves.rest.trans (laneMemRest_setCur t _), fun l hl active => ?_, fun r l hl => ?_, fun sp q hsp hq apart => ?_⟩
    · exact done.moves.rest.cur_eq ▸ State.hart?_setCur t _
    · rw [State.hart?_setCur_other t _ j (done.moves.rest.cur_eq ▸ hj)]
      exact done.moves.others j hj
    · refine (placeNum_congr (same m.space.toNat) _ n).trans (Eq.trans ?_ (values l 32))
      exact done.nums l ((mem_activeLanes ..).2 ⟨hl, active⟩)
    · have reads : (k.retire 8).getV r l = g.getV r l := congrArg (fun v => (Map.findD v (r * 32 + l) 0 : Word)) (congrArg Lanes.v retired)
      rw [reads, done.regs r l hl, activeLanes_below h m.guard hl, values]
      simp only [mem_activeLanes, hl, true_and, sizeTy_eq_f64]
    · refine (same sp q).trans (done.bytes sp q hsp (inSpace_of_lt hq) fun l hl hits => ?_)
      obtain ⟨lt, active⟩ := (mem_activeLanes ..).1 hl
      obtain ⟨places, owner, low, high⟩ := hits
      exact Nat.not_le.2 high (apart l lt active places owner.symm low)
  · intro s h m i imm hc form
    have lpref : ∃ pol, exec i s = lanePrefetch m pol imm s := by
      rcases form with ⟨pol, rfl, rfl⟩ | rfl
      · exact ⟨pol.toNat, rfl⟩
      · exact ⟨0, rfl⟩
    obtain ⟨pol, run⟩ := lpref
    rw [run]
    constructor
    · exact lanePrefetch_beyond hc pol imm
    · intro at_ home walks first acc plain
      exact lanePrefetch_home hc pol imm home walks plain fun va hva => prefetchLines_among hva

end Sys2Proof.Proofs
end

section
/-! Environment calls, returns from traps, and privileged instructions that trap (R69 to R71, R75, R77 to R80). -/

namespace Sys2Proof.Machine

open Sys2Proof

/-! ## Causes that the firmware takes (R70) -/

/-- R70, R76: a hart below M that has entered M, where it waits for the firmware. -/
def Hart.toFirmware (h : Hart) (cause tval : DWord) (now : Nat) : Hart := (h.enterM cause tval h.csr.mtvec now).park .firmware now

theorem Hart.enterM_hangNow (h : Hart) (cause tval vec : DWord) (now : Nat) : (h.enterM cause tval vec now).hangNow now = 0 := by
  have still : (h.enterM cause tval vec now).hangStill = false := rfl
  have held : (h.enterM cause tval vec now).run.hangHeld = 0 := rfl
  have from_ : (h.enterM cause tval vec now).run.hangFrom = now := rfl
  simp only [Hart.hangNow, still, held, from_, Nat.sub_self, Bool.false_eq_true, ite_self]

theorem Hart.toFirmware_enters (h : Hart) (cause tval : DWord) (now : Nat) :
    EntersM now h (h.toFirmware cause tval now) cause tval (some .firmware) := by
  obtain ⟨hpc, hpriv, hcsr, hmpp, hmpie, hmie, hstatus, hkept, -⟩ := h.enterM_enters cause tval now
  refine ⟨hpc, hpriv, hcsr, hmpp, hmpie, hmie, hstatus, ⟨hkept.x, hkept.lanes, hkept.dev, hkept.tsc, hkept.role⟩, ?_⟩
  simp only [Hart.toFirmware, Hart.park, Hart.enterM_hangNow]
  rfl

/-- R70, R71: what the firmware does about a cause that hart `h` has brought to it. -/
theorem State.firmwareTakes_setCur (s : State) (h k : Hart) (c : Nat) (poison : Bool) :
    (s.setCur k).firmwareTakes h c poison =
      if c = 9 then (s.setCur (k.park .firmware s.now)).popLatency.plan s.latency (firmwareCall (h.getX 17)) { nats := [s.cur] }
      else if c = 1 ∨ c = 5 ∨ c = 7 then (s.setCur (k.park .firmware s.now)).popLatency.plan s.latency .launchFail
        { nats := [h.role.launch.getD 0, s.cur, 1], ok := true, ok2 := poison }
      else s.setCur (k.park .firmware s.now) := by
  have parked : (s.setCur k).modCur (fun g => g.park .firmware (s.setCur k).now) = s.setCur (k.park .firmware s.now) :=
    (State.modCur_of _ k _ (s.hart?_setCur k)).trans (s.setCur_setCur k _)
  simp only [State.firmwareTakes, parked]
  rfl

section
variable {s : State} {h : Hart} (hc : s.hart? s.cur = some h) (below : h.priv ≠ .M) {c : Nat}
  (kept : h.csr.medeleg.getLsbD c = false)
include hc below kept

theorem State.raise_toFirmware (tval : DWord) :
    s.raise c tval = (s.setCur (h.enterM (BitVec.ofNat 64 c) tval h.csr.mtvec s.now)).firmwareTakes h c false := by
  have notS : h.delegated h.csr.medeleg c = false := by rw [Hart.delegated, kept, Bool.and_false]
  simp only [State.raise, State.raiseWith, hc, notS, if_neg below, Bool.false_eq_true, if_false]

/-- R70, R76: a cause from below M that is not delegated. -/
theorem State.raise_entersFirmware (tval : DWord) : ∃ h', HartAndPlans s (s.raise c tval) s.cur h' ∧
    EntersM s.now h h' (BitVec.ofNat 64 c) tval (some .firmware) := by
  refine ⟨_, ?_, h.toFirmware_enters _ tval s.now⟩
  rw [State.raise_toFirmware hc below kept, State.firmwareTakes_setCur]
  have only := s.setCur_only (h.toFirmware (BitVec.ofNat 64 c) tval s.now)
  split
  · exact ⟨only.acting, only.others, rfl⟩
  · split <;> exact ⟨only.acting, only.others, rfl⟩

end

/-- R71: an environment call of S that the firmware answers: the answer is the event to come. -/
theorem State.raise_call {s : State} {h : Hart} (hc : s.hart? s.cur = some h) (super : h.priv = .S)
    (kept : h.csr.medeleg.getLsbD 9 = false) (tval : DWord) :
    ∃ h', HartAndPlans s (s.raise 9 tval) s.cur h' ∧ EntersM s.now h h' 9 tval (some .firmware) ∧
      (s.raise 9 tval).latencies = s.latencies.tail ∧
      (s.raise 9 tval).schedule = insertPlanned ⟨s.now + s.latency, firmwareCall (h.getX 17), { nats := [s.cur] }⟩ s.schedule := by
  have below : h.priv ≠ .M := by rw [super]; decide
  obtain ⟨h', plans, enters⟩ := State.raise_entersFirmware hc below kept tval
  refine ⟨h', plans, enters, ?_⟩
  rw [State.raise_toFirmware hc below kept, State.firmwareTakes_setCur, if_pos rfl]
  exact ⟨rfl, rfl⟩

/-! ## Environment calls (R77) -/

theorem exec_ecall {s : State} {h : Hart} (hc : s.hart? s.cur = some h) :
    exec .ecall s = .next (s.raise (match h.priv with | .U => 8 | .S => 9 | .M => 11) 0) := onHart_of s h _ hc

theorem exec_ebreak {s : State} {h : Hart} (hc : s.hart? s.cur = some h) :
    exec .ebreak s = .next (if (s.core (coreOf s.cur)).dbg.ebh then s.setCur h.halt else s.raise 3 h.pc) := by
  refine (onHart_of s h _ hc).trans ?_
  rw [State.modCur_of s h _ hc]

/-! ## Returns from traps (R79) -/

/-- R73, R79: what `mret` leaves of the status: MIE takes MPIE, MPIE is set, MPP is U; MPRV is cleared on a return below M. -/
theorem Hart.returnM_status (h : Hart) (pc : DWord) (b : Nat) : (h.returnM pc).csr.mstatus.getLsbD b =
    if b = 17 ∧ h.mpp ≠ .M then false else if b = 12 then false else if b = 11 then false else if b = 7 then true
    else if b = 3 then h.csr.mstatus.getLsbD 7 else h.csr.mstatus.getLsbD b := by
  have base : (((h.setStatus bitMIE (h.status bitMPIE)).setStatus bitMPIE true).setMpp .U).csr.mstatus.getLsbD b =
      if b = 12 then false else if b = 11 then false else if b = 7 then true
      else if b = 3 then h.csr.mstatus.getLsbD 7 else h.csr.mstatus.getLsbD b := by
    refine (getLsbD_setBit _ 12 b _ (by decide)).trans ?_
    refine if_congr Iff.rfl rfl ((getLsbD_setBit _ 11 b _ (by decide)).trans ?_)
    refine if_congr Iff.rfl rfl ((getLsbD_setBit _ 7 b _ (by decide)).trans ?_)
    exact if_congr Iff.rfl rfl (getLsbD_setBit _ 3 b _ (by decide))
  by_cases mach : h.mpp = .M
  · simp only [Hart.returnM, if_pos mach]
    rw [if_neg fun c => c.2 mach]
    exact base
  · simp only [Hart.returnM, if_neg mach]
    refine (getLsbD_setBit _ 17 b _ (by decide)).trans ?_
    exact if_congr (and_iff_left mach).symm rfl base

/-- `mret` changes the pc, the level and the status, nothing else. -/
theorem Hart.returnM_frame (h : Hart) (pc : DWord) : (h.returnM pc).pc = pc ∧ (h.returnM pc).priv = h.mpp ∧
    KeptByTrap h (h.returnM pc) ∧ (h.returnM pc).csr = { h.csr with mstatus := (h.returnM pc).csr.mstatus } ∧
    (h.returnM pc).run = h.run := by
  by_cases mach : h.mpp = .M
  · unfold Hart.returnM
    dsimp only
    rw [if_pos mach]
    exact ⟨rfl, rfl, ⟨rfl, rfl, rfl, rfl, rfl⟩, rfl, rfl⟩
  · unfold Hart.returnM
    dsimp only
    rw [if_neg mach]
    exact ⟨rfl, rfl, ⟨rfl, rfl, rfl, rfl, rfl⟩, rfl, rfl⟩

/-- R79: instruction `i` returns from a trap: to a pc and a level, its status changed as told, one instruction counted; no
register, lane or other CSR changed. -/
def ReturnsFrom (s : State) (h : Hart) (i : Instr) (pc : DWord) (lvl : Priv) (ie pie : Nat) (kept clear : Nat → Prop) : Prop :=
  ∃ t h', exec i s = .next t ∧ OnlyHart s t s.cur h' ∧ h'.pc = pc ∧ h'.priv = lvl ∧ KeptByTrap h h' ∧
    h'.csr = { h.csr with mstatus := h'.csr.mstatus, minstret :=
      if h.csr.mcountinhibit.getLsbD 2 then h.csr.minstret else h.csr.minstret + 1 } ∧
    h'.csr.mstatus.getLsbD ie = h.csr.mstatus.getLsbD pie ∧ h'.csr.mstatus.getLsbD pie = true ∧
    (∀ b, clear b → h'.csr.mstatus.getLsbD b = false) ∧
    (∀ b, b ≠ ie → b ≠ pie → kept b → h'.csr.mstatus.getLsbD b = h.csr.mstatus.getLsbD b) ∧
    h'.run = { h.settle.run with hangHeld := 0, hangFrom := s.now, lastBack := none }

section
variable {s : State} {h k : Hart} {i : Instr} {pc : DWord} {lvl : Priv} {ie pie : Nat} {kept clear : Nat → Prop}

/-- A return, given what it makes of the status before it counts as retired. -/
theorem returnsFrom_of_status (hi : exec i s = .next (s.setCur ((k.retireTo pc).hangClear s.now)))
    (priv : k.priv = lvl) (keeps : KeptByTrap h k) (csr : k.csr = { h.csr with mstatus := k.csr.mstatus }) (run : k.run = h.run)
    (enable : k.csr.mstatus.getLsbD ie = h.csr.mstatus.getLsbD pie) (previous : k.csr.mstatus.getLsbD pie = true)
    (clears : ∀ b, clear b → k.csr.mstatus.getLsbD b = false)
    (keepsBits : ∀ b, b ≠ ie → b ≠ pie → kept b → k.csr.mstatus.getLsbD b = h.csr.mstatus.getLsbD b) :
    ReturnsFrom s h i pc lvl ie pie kept clear := by
  obtain ⟨rx, rl, rd, rr⟩ := k.retireTo_keeps pc
  obtain ⟨rpc, rpriv, rtsc, rrole, rcsr⟩ := k.retireTo_retires pc
  have status : (k.retireTo pc).csr.mstatus = k.csr.mstatus := by rw [rcsr]
  have counted : (k.retireTo pc).csr = { h.csr with mstatus := (k.retireTo pc).csr.mstatus, minstret :=
      (if h.csr.mcountinhibit.getLsbD 2 then h.csr.minstret else h.csr.minstret + 1) } := by rw [rcsr, csr]
  have settled : ((k.retireTo pc).hangClear s.now).run =
      { h.settle.run with hangHeld := 0, hangFrom := s.now, lastBack := none } := by
    rw [Hart.hangClear, rr, Hart.settle, run]
    rfl
  refine ⟨_, _, hi, s.setCur_only _, rpc, rpriv.trans priv, ?_, counted, ?_, ?_, fun b hb => ?_, fun b h1 h2 h3 => ?_, settled⟩
  · exact ⟨rx.trans keeps.x, rl.trans keeps.lanes, rd.trans keeps.dev, rtsc.trans keeps.tsc, rrole.trans keeps.role⟩
  · exact (congrArg (·.getLsbD ie) status).trans enable
  · exact (congrArg (·.getLsbD pie) status).trans previous
  · exact (congrArg (·.getLsbD b) status).trans (clears b hb)
  · exact (congrArg (·.getLsbD b) status).trans (keepsBits b h1 h2 h3)

end

theorem exec_sret {s : State} {h : Hart} (hc : s.hart? s.cur = some h) :
    exec .sret s = .next (if h.priv = .U ∨ (h.priv = .S ∧ h.status bitTSR) then s.illegal h .sret
      else s.setCur (((h.returnS h.csr.sepc).retireTo h.csr.sepc).hangClear s.now)) := onHart_of s h _ hc

theorem exec_mret {s : State} {h : Hart} (hc : s.hart? s.cur = some h) :
    exec .mret s = .next (if h.priv = .M then s.setCur (((h.returnM h.csr.mepc).retireTo h.csr.mepc).hangClear s.now)
      else s.illegal h .mret) := onHart_of s h _ hc

/-- R79: `sret` where it may execute. -/
theorem sret_returns {s : State} {h : Hart} (hc : s.hart? s.cur = some h)
    (may : h.priv = .M ∨ (h.priv = .S ∧ h.csr.mstatus.getLsbD 22 = false)) :
    ReturnsFrom s h .sret h.csr.sepc (if h.csr.mstatus.getLsbD 8 then .S else .U) 1 5 (fun b => b ≠ 8 ∧ b ≠ 17)
      (fun b => b = 8 ∨ b = 17) := by
  have allowed : ¬ (h.priv = .U ∨ (h.priv = .S ∧ h.status bitTSR)) := by
    obtain mach | ⟨super, tsr⟩ := may
    · simp [mach]
    · have : h.status bitTSR = false := tsr
      simp [super, this]
  have bits := h.returnS_status h.csr.sepc
  refine returnsFrom_of_status (k := h.returnS h.csr.sepc) ((exec_sret hc).trans (congrArg _ (if_neg allowed))) rfl
    ⟨rfl, rfl, rfl, rfl, rfl⟩ rfl rfl (bits 1) (bits 5) ?_ fun b h1 h5 hb => ?_
  · rintro b (rfl | rfl)
    · exact bits 8
    · exact bits 17
  · rw [bits, if_neg hb.2, if_neg hb.1, if_neg h5, if_neg h1]

/-- R79: `mret` where it may execute. -/
theorem mret_returns {s : State} {h : Hart} (hc : s.hart? s.cur = some h) (mach : h.priv = .M) {kept clear : Nat → Prop}
    (clears : ∀ b, clear b → b = 11 ∨ b = 12 ∨ (b = 17 ∧ h.mpp ≠ .M))
    (keeps : ∀ b, kept b → b ≠ 11 ∧ b ≠ 12 ∧ (b = 17 → h.mpp = .M)) :
    ReturnsFrom s h .mret h.csr.mepc h.mpp 3 7 kept clear := by
  obtain ⟨-, priv, keepsRest, csr, run⟩ := h.returnM_frame h.csr.mepc
  have bits := h.returnM_status h.csr.mepc
  refine returnsFrom_of_status ((exec_mret hc).trans (congrArg _ (if_pos mach))) priv keepsRest csr run (bits 3) (bits 7)
    (fun b hb => ?_) fun b h3 h7 hb => ?_
  · rw [bits]
    obtain rfl | rfl | below := clears b hb
    · rfl
    · rfl
    · rw [if_pos below]
  · obtain ⟨h11, h12, h17⟩ := keeps b hb
    rw [bits, if_neg fun c => c.2 (h17 c.1), if_neg h12, if_neg h11, if_neg h7, if_neg h3]

/-! ## The firmware's answers (R71) -/

/-- R71: hart `h` of state `s`, back in S behind its `ecall` with the firmware's answer. -/
def AnswersCall (s : State) (k : Nat) (h : Hart) (o : Out) (a0 a1 : DWord) : Prop :=
  ∃ t h', o = .next t ∧ t.hart? k = some h' ∧ h'.priv = .S ∧ h'.pc = h.csr.mepc + 4 ∧ h'.getX 10 = a0 ∧ h'.getX 11 = a1 ∧
    (∀ r, r ≠ 10 → r ≠ 11 → h'.getX r = h.getX r) ∧ h'.run.wait = none ∧ h'.lanes = h.lanes ∧ h'.dev = h.dev ∧
    h'.csr.mstatus.getLsbD 3 = h.csr.mstatus.getLsbD 7 ∧ (∀ j, j ≠ k → t.hart? j = s.hart? j) ∧ { t with harts := s.harts } = s

theorem State.answerCall_answers {s : State} {k : Nat} {h : Hart} (hk : s.hart? k = some h) (waits : h.run.wait = some .firmware)
    (call : h.csr.mcause = 9) (super : h.mpp = .S) (status value : DWord) :
    AnswersCall s k h (.next (s.answerCall k status value)) status value := by
  obtain ⟨pc, priv, kept, -, run⟩ := (((h.unpark s.now).setX 10 status).setX 11 value).returnM_frame (h.csr.mepc + 4)
  have read (q : BitVec 5) := Hart.getX_of_x _ _ q kept.x
  have bits := (((h.unpark s.now).setX 10 status).setX 11 value).returnM_status (h.csr.mepc + 4) 3
  have back : (s.answerCall k status value).hart? k =
      some ((((((h.unpark s.now).setX 10 status).setX 11 value).returnM (h.csr.mepc + 4)).hangClear s.now).settle) := by
    rw [State.answerCall, State.hart?_modHarts, hk]
    exact congrArg some (if_pos (by simp [waits, call]))
  refine ⟨_, _, rfl, back, priv.trans super, pc, ?_, ?_, fun q h10 h11 => ?_, ?_, kept.lanes, kept.dev, bits, fun j hj => ?_, rfl⟩
  · exact (read 10).trans (by rw [Hart.getX_setX, if_neg (by decide), Hart.getX_setX, if_pos (by decide)])
  · exact (read 11).trans (by rw [Hart.getX_setX, if_pos (by decide)])
  · refine (read q).trans ?_
    rw [Hart.getX_setX, if_neg fun c => h11 c.1, Hart.getX_setX, if_neg fun c => h10 c.1]
    rfl
  · exact congrArg Run.wait run
  · rw [State.answerCall, State.hart?_modHarts]
    cases s.hart? j with
    | none => rfl
    | some g => exact congrArg some (if_neg (by simp [hj]))

/-! ## Privileged instructions (R75, R78, R79, R80) -/

/-- R362: an instruction that the hart may not execute, outside a pair and with cause 2 delegated. -/
theorem State.illegal_enters {s : State} {h : Hart} (hc : s.hart? s.cur = some h) (alone : h.run.pair = none)
    (below : h.priv ≠ .M) (deleg : h.csr.medeleg.getLsbD 2 = true) {i : Instr} {w : Nat} (word : encode i = some w) (short : w < 2 ^ 32) :
    ∃ t h', Host.Outcome.next (s.illegal h i) = (Host.Outcome.next t : Out) ∧ OnlyHart s t s.cur h' ∧
      EntersS s.now h h' 2 (BitVec.ofNat 64 w) h.csr.stvec := by
  obtain ⟨h', only, enters, -⟩ := State.raise_takes hc 2 (h.firstWord i) (.inl ⟨below, deleg⟩)
  have first : h.firstWord i = BitVec.ofNat 64 w := by
    simp only [Hart.firstWord, alone, word, Option.getD_some, Nat.mod_eq_of_lt short]
  exact ⟨_, h', rfl, only, first ▸ enters ⟨below, deleg⟩⟩

/-- Two fields side by side, as numbers. -/
theorem toNat_append_add {m n : Nat} (a : BitVec m) (b : BitVec n) : (a ++ b).toNat = a.toNat * 2 ^ n + b.toNat := by
  rw [BitVec.toNat_append, ← Nat.shiftLeft_add_eq_or_of_lt b.isLt, Nat.shiftLeft_eq]

/-- R80: the word of `sfence.vma`. -/
theorem encode_sfenceVma (rs1 rs2 : BitVec 5) :
    encode (.sfenceVma rs1 rs2) = some (0x12000073 + rs2.toNat * 2 ^ 20 + rs1.toNat * 2 ^ 15) := by
  change some (W32.toBits ⟨0x73, 0, 0, rs1, rs2, 9⟩).toNat = _
  simp only [W32.toBits, toNat_append_add, BitVec.ofNat_eq_ofNat, BitVec.toNat_ofNat]
  exact congrArg some (by omega)

/-- The same word as the value that a trap reports. -/
theorem ofNat_sfenceVma (rs1 rs2 : BitVec 5) : BitVec.ofNat 64 (0x12000073 + rs2.toNat * 2 ^ 20 + rs1.toNat * 2 ^ 15) =
    (0x12000073 : DWord) + (rs2.setWidth 64 <<< 20) + (rs1.setWidth 64 <<< 15) := by
  apply BitVec.eq_of_toNat_eq
  have h1 := rs1.isLt
  have h2 := rs2.isLt
  simp only [BitVec.ofNat_eq_ofNat, BitVec.toNat_ofNat, BitVec.toNat_add, BitVec.toNat_shiftLeft, BitVec.toNat_setWidth, Nat.shiftLeft_eq]
  omega

section
variable {s : State} {h : Hart} (hc : s.hart? s.cur = some h)
include hc

theorem exec_wfi_held (held : h.priv = .U ∨ (h.priv = .S ∧ h.csr.mstatus.getLsbD 21 = true)) :
    exec .wfi s = .next (s.illegal h .wfi) := (onHart_of s h _ hc).trans (congrArg _ (if_pos held))

theorem exec_sfenceVma_held (rs1 rs2 : BitVec 5) (held : h.priv = .U ∨ (h.priv = .S ∧ h.csr.mstatus.getLsbD 20 = true)) :
    exec (.sfenceVma rs1 rs2) s = .next (s.illegal h (.sfenceVma rs1 rs2)) :=
  (onHart_of s h _ hc).trans (congrArg _ (if_pos held))

end

end Sys2Proof.Machine

namespace Sys2Proof.Proofs

open Sys2Proof Sys2Proof.Machine

/-- Settles O6: each call and each break raises its cause; one that is not delegated goes to the firmware. -/
theorem environmentCalls : Obligations.EnvironmentCalls := by
  unfold Obligations.EnvironmentCalls
  refine ⟨fun s h hc => ⟨fun c level => ?_, fun mach => ?_, fun run own => ?_, fun run kept below => ?_, fun halts => ?_⟩,
    fun s h hc super kept => ?_⟩
  · have run : exec .ecall s = .next (s.raise c 0) := by
      rw [exec_ecall hc]
      obtain ⟨hp, rfl⟩ | ⟨hp, rfl⟩ := level <;> rw [hp]
    have below : h.priv ≠ .M := by
      obtain ⟨hp, -⟩ | ⟨hp, -⟩ := level <;> rw [hp] <;> decide
    refine ⟨fun deleg => ⟨_, run, State.raise_takes hc c 0 (.inl ⟨below, deleg⟩)⟩, fun kept => ?_⟩
    obtain ⟨h', plans, enters⟩ := State.raise_entersFirmware hc below kept 0
    exact ⟨_, h', run, plans, enters⟩
  · refine ⟨_, ?_, State.raise_takes hc 11 0 (.inr mach)⟩
    rw [exec_ecall hc, mach]
  · refine ⟨_, ?_, State.raise_takes hc 3 h.pc own⟩
    rw [exec_ebreak hc, run, if_neg Bool.false_ne_true]
  · obtain ⟨h', plans, enters⟩ := State.raise_entersFirmware hc below kept h.pc
    refine ⟨_, h', ?_, plans, enters⟩
    rw [exec_ebreak hc, run, if_neg Bool.false_ne_true]
  · refine ⟨_, h.halt, ?_, s.setCur_only _, rfl⟩
    rw [exec_ebreak hc, halts, if_pos rfl]
  · have run : exec .ecall s = .next (s.raise 9 0) := by rw [exec_ecall hc, super]
    obtain ⟨h', plans, enters, lat, sched⟩ := State.raise_call hc super kept 0
    have answer {ev : Instr} (call : firmwareCall (h.getX 17) = ev) : ∃ t h', exec .ecall s = .next t ∧ HartAndPlans s t s.cur h' ∧
        EntersM s.now h h' 9 0 (some .firmware) ∧ t.latencies = s.latencies.tail ∧
        t.schedule = insertPlanned ⟨s.now + s.latency, ev, { nats := [s.cur] }⟩ s.schedule :=
      ⟨_, h', run, plans, enters, lat, call ▸ sched⟩
    refine ⟨fun f => answer (if_pos f), fun f => answer ?_, fun f => answer ?_, fun f0 f1 f2 => answer ?_⟩
    · rw [f]
      rfl
    · rw [f]
      rfl
    · exact (if_neg f0).trans ((if_neg f1).trans (if_neg f2))

/-- Settles O7: a return is one change of level and status, an answer one of two registers and a return. -/
theorem returnsFromTraps : Obligations.ReturnsFromTraps := by
  unfold Obligations.ReturnsFromTraps
  refine ⟨fun s h hc => ?_, fun s k h p harg hk waits call super hpart => ?_⟩
  · have level {code : BitVec 2} (mpp : h.csr.mstatus.extractLsb' 11 2 = code) : h.mpp = Priv.ofCode code := by rw [Hart.mpp, mpp]
    have below {lvl : Priv} (lower : lvl ≠ .M) (mach : h.priv = .M) (mpp : h.mpp = lvl) : ReturnsFrom s h .mret h.csr.mepc lvl 3 7
        (fun b => b ≠ 11 ∧ b ≠ 12 ∧ b ≠ 17) (fun b => b = 11 ∨ b = 12 ∨ b = 17) := by
      subst mpp
      exact mret_returns hc mach (fun b hb => hb.imp_right (Or.imp_right fun e => ⟨e, lower⟩))
        fun b hb => ⟨hb.1, hb.2.1, fun e => absurd e hb.2.2⟩
    refine ⟨sret_returns hc, fun mach mpp => ?_, fun mach mpp => below (by decide) mach (level mpp),
      fun mach mpp => below (by decide) mach (level mpp)⟩
    have top : h.mpp = .M := level mpp
    have returns := mret_returns hc mach (kept := fun b => b ≠ 11 ∧ b ≠ 12) (clear := fun b => b = 11 ∨ b = 12)
      (fun b hb => hb.imp_right .inl) fun b hb => ⟨hb.1, hb.2, fun _ => top⟩
    rwa [top] at returns
  · have arg : s.arg.nat 0 = k := by rw [EventArgs.nat, harg, List.getD_cons_zero]
    have answers {ev : Instr} {a0 a1 : DWord} (run : exec ev s = .next (s.answerCall k a0 a1)) : AnswersCall s k h (exec ev s) a0 a1 :=
      run ▸ State.answerCall_answers hk waits call super a0 a1
    refine ⟨answers ?_, answers ?_, answers ?_, answers ?_⟩
    · change (.next (s.answerCall (s.arg.nat 0) 0 _) : Out) = _
      rw [arg]
      rfl
    · change (.next (match s.hart? (s.arg.nat 0) with | none => s | some h => _) : Out) = _
      rw [arg, hk]
      simp only [hpart]
      rfl
    · change (.next (match s.hart? (s.arg.nat 0) with | none => s | some h => _) : Out) = _
      rw [arg, hk]
      rfl
    · change (.next (match s.hart? (s.arg.nat 0) with | none => s | some h => _) : Out) = _
      rw [arg, hk]

/-- Settles O8: each instruction that may not execute is one illegal instruction, whose word is the trap value. -/
theorem privilegedInstructionsTrap : Obligations.PrivilegedInstructionsTrap := by
  unfold Obligations.PrivilegedInstructionsTrap
  intro s h rs1 rs2 hc alone deleg
  have traps {i : Instr} {n : Nat} {w : DWord} (below : h.priv ≠ .M) (run : exec i s = .next (s.illegal h i))
      (word : encode i = some n) (short : n < 2 ^ 32) (value : BitVec.ofNat 64 n = w) :
      ∃ t h', exec i s = .next t ∧ OnlyHart s t s.cur h' ∧ EntersS s.now h h' 2 w h.csr.stvec :=
    run ▸ value ▸ State.illegal_enters hc alone below deleg word short
  have low {b : Nat} (held : h.priv = .U ∨ (h.priv = .S ∧ h.csr.mstatus.getLsbD b = true)) : h.priv ≠ .M := by
    obtain user | ⟨super, -⟩ := held
    · simp [user]
    · simp [super]
  have lowFields : 0x12000073 + rs2.toNat * 2 ^ 20 + rs1.toNat * 2 ^ 15 < 2 ^ 32 := by
    have h1 := rs1.isLt
    have h2 := rs2.isLt
    omega
  refine ⟨fun held => traps (low held) ((exec_sret hc).trans (congrArg _ (if_pos held))) (n := 0x10200073) rfl (by decide) rfl,
    fun held => traps (low held) (exec_wfi_held hc held) (n := 0x10500073) rfl (by decide) rfl,
    fun held => traps (low held) (exec_sfenceVma_held hc rs1 rs2 held) (encode_sfenceVma rs1 rs2) lowFields (ofNat_sfenceVma rs1 rs2),
    fun level => ?_⟩
  have below : h.priv ≠ .M := by
    obtain user | super := level
    · simp [user]
    · simp [super]
  exact traps below ((exec_mret hc).trans (congrArg _ (if_neg below))) (n := 0x30200073) rfl (by decide) rfl

end Sys2Proof.Proofs
end

section
/-! Fences with nothing to wait for, and `sfence.vma` (R64, R80, R168, R199 to R201, R309). -/

namespace Sys2Proof.Machine

open Sys2Proof

/-! ## Releases with nothing to wait for (R168) -/

/-- A release of a hart whose core has no write on its way and that has marked no slice group changes no hart: what follows it
goes on. -/
theorem State.releasing_quiet {s : State} {h : Hart} (hc : s.hart? s.cur = some h) (quiet : (s.core (coreOf s.cur)).flight = [])
    (clear : h.dev.tbm = 0) {scope : Nat} (near : h.dev.tbmf = false ∨ scope < scX) (i : Instr) :
    ∃ hs, (∀ f, s.releasing scope i f = f { s with harts := hs }) ∧ ∀ j, ({ s with harts := hs } : State).hart? j = s.hart? j := by
  by_cases narrow : scope ≤ scC
  · exact ⟨s.harts, fun f => if_pos narrow, fun _ => rfl⟩
  have unmarked : s.marked s.cur scope = false := by
    have far : (h.dev.tbmf && decide (scX ≤ scope)) = false := by
      obtain off | low := near
      · rw [off, Bool.false_and]
      · rw [decide_eq_false (Nat.not_le.2 low), Bool.and_false]
    simp only [State.marked, quiet, hc, clear, far, List.any_nil, bne_self_eq_false, Bool.or_self]
  have same : { h with dev := { h.dev with tbm := 0, tbmf := h.dev.tbmf && decide (scope < scX) } } = h := by
    have far : (h.dev.tbmf && decide (scope < scX)) = h.dev.tbmf := by
      obtain off | low := near
      · rw [off, Bool.false_and]
      · rw [decide_eq_true low, Bool.and_true]
    rw [far, ← clear]
  have drained : s.drainCore (coreOf s.cur) = s := by simp only [State.drainCore, quiet, List.filter_nil, List.isEmpty_nil, if_true]
  have released : s.released s.cur scope = s.modHarts (fun j _ => j == s.cur) (fun _ h =>
      { h with dev := { h.dev with tbm := 0, tbmf := h.dev.tbmf && decide (scope < scX) } }) := by
    rw [State.released, if_neg narrow, drained]
  refine ⟨(s.released s.cur scope).harts, fun f => ?_, fun j => ?_⟩
  · simp only [State.releasing, narrow, unmarked, if_false, Bool.not_false, if_true, released]
    rfl
  · refine (congrArg (·.hart? j) released :).trans ?_
    rw [State.hart?_modHarts]
    by_cases own : j = s.cur
    · rw [own, hc, Option.map_some, if_pos (beq_self_eq_true _), same]
    · simp only [beq_iff_eq, if_neg own]
      exact Option.map_id_apply

/-- State `u` is `s` with core `k` replaced by `c`, the harts being the same. -/
structure OnlyCore (s u : State) (k : Nat) (c : Core) : Prop where
  harts : ∀ j, u.hart? j = s.hart? j
  here : u.core k = c
  others : ∀ d, d ≠ k → u.core d = s.core d
  rest : { u with harts := s.harts, cores := s.cores } = s

theorem OnlyCore.cur {s u : State} {k : Nat} {c : Core} (only : OnlyCore s u k c) : u.cur = s.cur :=
  (congrArg State.cur only.rest :)

theorem OnlyCore.of_harts {s : State} {hs : Map Hart} (k : Nat) (harts : ∀ j, ({ s with harts := hs } : State).hart? j = s.hart? j) :
    OnlyCore s { s with harts := hs } k (s.core k) := ⟨harts, rfl, fun _ _ => rfl, rfl⟩

theorem OnlyCore.modCore {s u : State} {k : Nat} {c : Core} (only : OnlyCore s u k c) (f : Core → Core) :
    OnlyCore s (u.modCore k f) k (f c) where
  harts := only.harts
  here := by rw [State.modCore, State.core_setCore, if_pos rfl, only.here]
  others d hd := by rw [State.modCore, State.core_setCore, if_neg hd, only.others d hd]
  rest := only.rest

theorem OnlyCore.acquire {s u : State} {k : Nat} {c : Core} (only : OnlyCore s u k c) (scope : Nat) :
    OnlyCore s (u.acquire k scope) k (if 1 ≤ scope then { c with l1 := [] } else c) := by
  unfold State.acquire
  split
  · next wide => exact (if_pos (show 1 ≤ scope from wide)).symm ▸ only.modCore _
  · next narrow => exact (if_neg (show ¬ 1 ≤ scope from narrow)).symm ▸ only

/-- R64: instruction `i` of hart `h` retires; but for the core, which is `c` after it, nothing else changes. -/
def CompletesFence (s : State) (h : Hart) (i : Instr) (c : Core) : Prop :=
  ∃ t h', exec i s = .next t ∧ t.hart? s.cur = some h' ∧ RetiresTo h h' (h.nextPc 4) ∧ h'.x = h.x ∧ h'.lanes = h.lanes ∧
    h'.dev = h.dev ∧ h'.run = h.settle.run ∧ (∀ j, j ≠ s.cur → t.hart? j = s.hart? j) ∧ t.core (coreOf s.cur) = c ∧
    (∀ d, d ≠ coreOf s.cur → t.core d = s.core d) ∧ { t with harts := s.harts, cores := s.cores } = s

section
variable {s : State} {h : Hart} (hc : s.hart? s.cur = some h)
include hc

theorem completesFence_of_onlyCore {i : Instr} {u : State} {c : Core} (only : OnlyCore s u (coreOf s.cur) c)
    (run : exec i s = .next (u.modCur fun k => k.retire 4)) : CompletesFence s h i c := by
  have acting : u.hart? u.cur = some h := by rw [only.cur, only.harts, hc]
  have retired := u.setCur_only (h.retire 4)
  obtain ⟨kx, kl, kd, kr⟩ := h.retireTo_keeps (h.nextPc 4)
  rw [State.modCur_of u h _ acting] at run
  refine ⟨_, h.retire 4, run, only.cur ▸ retired.acting, h.retireTo_retires _, kx, kl, kd, kr, fun j hj => ?_, only.here, only.others,
    only.rest⟩
  rw [retired.others j (only.cur ▸ hj), only.harts]

/-- R199: a fence with nothing to wait for, and then `g`. -/
theorem fence_completes (quiet : (s.core (coreOf s.cur)).flight = []) (clear : h.dev.tbm = 0) (near : h.dev.tbmf = false)
    (scope : Nat) (rel acq : Bool) {i : Instr} {g : State → State} {F : Core → Core}
    (cores : ∀ {u c}, OnlyCore s u (coreOf s.cur) c → OnlyCore s (g u) (coreOf s.cur) (F c))
    (run : exec i s = .next (s.fence scope rel acq i fun t => (g t).modCur fun k => k.retire 4)) :
    CompletesFence s h i (F (if acq = true ∧ 1 ≤ scope then { s.core (coreOf s.cur) with l1 := [] } else s.core (coreOf s.cur))) := by
  obtain ⟨hs, released, harts⟩ := State.releasing_quiet hc quiet clear (scope := scope) (.inl near) i
  obtain ⟨v, after, only⟩ : ∃ v, (∀ f, s.fence scope rel acq i f = f (if acq then v.acquire (coreOf v.cur) scope else v)) ∧
      OnlyCore s v (coreOf s.cur) (s.core (coreOf s.cur)) := by
    cases rel with
    | false => exact ⟨s, fun _ => rfl, .of_harts _ fun _ => rfl⟩
    | true => exact ⟨{ s with harts := hs }, fun f => released fun t => f (if acq then t.acquire (coreOf t.cur) scope else t), .of_harts _ harts⟩
  rw [after, only.cur] at run
  cases acq with
  | false => exact completesFence_of_onlyCore hc (cores only) run
  | true =>
    simp only [true_and]
    exact completesFence_of_onlyCore hc (cores (only.acquire scope)) run

/-- R200, R201: the fences of the engines, outside an ordered launch. -/
theorem engineFence_completes (quiet : (s.core (coreOf s.cur)).flight = []) (clear : h.dev.tbm = 0) (near : h.dev.tbmf = false)
    (unordered : s.ordered h = false) {i : Instr} (run : exec i s = engineFence i s) :
    CompletesFence s h i (s.core (coreOf s.cur)) := by
  obtain ⟨hs, released, harts⟩ := State.releasing_quiet hc quiet clear (scope := scP) (.inl near) i
  refine completesFence_of_onlyCore hc (.of_harts _ harts) (run.trans ((onHart_of s h _ hc).trans (congrArg _ ?_)))
  simp only [State.stalling, unordered, Bool.not_false, if_true]
  exact released _

end

/-! ## `sfence.vma` (R80, R309) -/

/-- R80: an entry that an `sfence.vma` of hart `h` names. -/
def Leaf.namedBy (e : Leaf) (h : Hart) (rs1 rs2 : BitVec 5) : Prop :=
  e.part = h.role.part ∧ (rs1 = 0 ∨ vpnOf (h.getX rs1) / 2 ^ (pageBits e.size - 12) = e.vpn / 2 ^ (pageBits e.size - 12)) ∧
    (rs2 = 0 ∨ (e.g = false ∧ e.asid = (h.getX rs2).toNat % 2 ^ 16))

/-- The address of an `sfence.vma`; none is every address. -/
def Hart.fenceVa (h : Hart) (rs1 : BitVec 5) : Option DWord := if rs1 = 0 then none else some (h.getX rs1)

/-- The ASID of an `sfence.vma`; none is every ASID. -/
def Hart.fenceAsid (h : Hart) (rs2 : BitVec 5) : Option Nat := if rs2 = 0 then none else some ((h.getX rs2).toNat % 2 ^ 16)

theorem mem_cut_iff (l : List Leaf) (h : Hart) (rs1 rs2 : BitVec 5) (e : Leaf) :
    e ∈ l.filter (fun e => !e.matchesFence h.role.part (h.fenceVa rs1) (h.fenceAsid rs2)) ↔ e ∈ l ∧ ¬ e.namedBy h rs1 rs2 := by
  have named := e.matchesFence_iff h.role.part ((h.getX rs2).toNat % 2 ^ 16) (h.getX rs1) (decide (rs1 = 0)) (decide (rs2 = 0))
  simp only [decide_eq_true_eq] at named
  rw [List.mem_filter, Bool.not_eq_true', ← Bool.not_eq_true]
  exact and_congr_right fun _ => not_congr named

theorem State.tlbRemove_walks (s : State) (part : Nat) (va : Option DWord) (asid : Option Nat) (p : Nat) :
    (s.tlbRemove part va asid).walksOf p = s.walksOf p := by
  simp only [State.walksOf, State.tlbRemove, Map.mapVal, List.any_map, Function.comp_def]

theorem State.tlbRemove_core_rest (s : State) (part : Nat) (va : Option DWord) (asid : Option Nat) (c : Nat) :
    { (s.tlbRemove part va asid).core c with tlb := (s.core c).tlb } = s.core c := by
  have cut := Map.findD_mapVal s.cores (fun c => { c with tlb := c.tlb.filter fun e => !e.matchesFence part va asid }) c
    (d := Core.reset) rfl
  rw [State.core, State.tlbRemove, cut]
  rfl

theorem exec_sfenceVma {s : State} {h : Hart} (hc : s.hart? s.cur = some h) (rs1 rs2 : BitVec 5)
    (may : h.priv = .M ∨ (h.priv = .S ∧ h.csr.mstatus.getLsbD 20 = false)) (quiet : (s.core (coreOf s.cur)).flight = [])
    (clear : h.dev.tbm = 0) (prompt : s.latency = 0) (still : s.walksOf h.role.part = false) :
    ∃ hs, (∀ j, ({ s with harts := hs } : State).hart? j = s.hart? j) ∧ exec (.sfenceVma rs1 rs2) s =
      .next ((({ s with harts := hs } : State).tlbRemove h.role.part (h.fenceVa rs1) (h.fenceAsid rs2)).popLatency.modCur
        fun k => k.retire 4) := by
  have allowed : ¬ (h.priv = .U ∨ (h.priv = .S ∧ h.status bitTVM)) := by
    obtain mach | ⟨super, tvm⟩ := may
    · simp [mach]
    · have : h.status bitTVM = false := tvm
      simp [super, this]
  obtain ⟨hs, released, harts⟩ := State.releasing_quiet hc quiet clear (scope := scP) (.inr (by decide)) (.sfenceVma rs1 rs2)
  have ready : (decide (s.latency = 0) &&
      !(({ s with harts := hs } : State).tlbRemove h.role.part (h.fenceVa rs1) (h.fenceAsid rs2)).walksOf h.role.part) = true := by
    rw [State.tlbRemove_walks, decide_eq_true prompt]
    exact congrArg (!·) still
  exact ⟨hs, harts, (onHart_of s h _ hc).trans (congrArg _ ((if_neg allowed).trans ((released _).trans (if_pos ready))))⟩

end Sys2Proof.Machine

namespace Sys2Proof.Proofs

open Sys2Proof Sys2Proof.Machine

/-- Settles O14: a release that need not wait changes nothing, so a fence is its invalidation and a retirement. -/
theorem fences : Obligations.Fences := by
  unfold Obligations.Fences
  refine ⟨fun s h tso pred succ scope order hc quiet clear near unordered => ⟨?_, ?_, ?_, ?_, ?_⟩,
    fun s h rs1 rs2 hc may quiet clear prompt still => ?_⟩
  · exact fence_completes hc quiet clear near scS true true (g := id) (F := id) id (onHart_of s h _ hc)
  · exact fence_completes hc quiet clear near scP true false (F := fun c => { c with icache := [] }) (fun only => only.cur ▸ only.modCore _)
      (onHart_of s h _ hc)
  · exact engineFence_completes hc quiet clear near unordered rfl
  · exact engineFence_completes hc quiet clear near unordered rfl
  · have wide : 1 ≤ scope.toNat ↔ scope ≠ 0 := by
      rw [Nat.one_le_iff_ne_zero, ne_eq, ne_eq, ← BitVec.toNat_inj]
      rfl
    have done := fence_completes hc quiet clear near scope.toNat (order.getLsbD 1) (order.getLsbD 0) (g := id) (F := id) id
      (i := .pfence scope order) (onHart_of s h _ hc)
    simp only [wide] at done
    exact done
  · obtain ⟨hs, harts, run⟩ := exec_sfenceVma hc rs1 rs2 may quiet clear prompt still
    have acting := (harts s.cur).trans hc
    have retired := (({ s with harts := hs } : State).tlbRemove h.role.part (h.fenceVa rs1) (h.fenceAsid rs2)).popLatency.setCur_only
      (h.retire 4)
    obtain ⟨kx, kl, -, -⟩ := h.retireTo_keeps (h.nextPc 4)
    refine ⟨_, h.retire 4, run.trans (congrArg _ (State.modCur_of _ h _ acting)), retired.acting, h.retireTo_retires _, kx, kl, fun c => ⟨fun e => ?_, ?_⟩, fun c e => ?_, fun d e => ?_,
      fun j hj => (retired.others j hj).trans (harts j), rfl⟩
    · exact (iff_of_eq (congrArg (e ∈ ·) (s.tlbRemove_core _ _ _ c))).trans (mem_cut_iff _ h rs1 rs2 e)
    · exact s.tlbRemove_core_rest _ _ _ c
    · exact (iff_of_eq (congrArg (e ∈ ·) (s.tlbRemove_cluster _ _ _ c))).trans (mem_cut_iff _ h rs1 rs2 e)
    · exact (iff_of_eq (congrArg (e ∈ ·) (s.tlbRemove_die _ _ _ d))).trans (mem_cut_iff _ h rs1 rs2 e)

end Sys2Proof.Proofs
end

section
/-! Interrupts, `wfi` and the hang detector (R70, R76, R78, R107, R364, R365). -/

namespace Sys2Proof.Machine

open Sys2Proof

/-! ## The interrupt that is taken (R365) -/

/-- R70, R73: interrupt `m` of a hart is pending, enabled and not held off. -/
def Hart.Ready (h : Hart) (m : Nat) : Prop := h.mip.getLsbD m = true ∧ h.csr.mie.getLsbD m = true ∧
  (if h.csr.mideleg.getLsbD m then h.priv = .U ∨ (h.priv = .S ∧ h.csr.mstatus.getLsbD 1 = true)
   else h.priv ≠ .M ∨ h.csr.mstatus.getLsbD 3 = true)

theorem Hart.irqReady_iff (h : Hart) (m : Nat) : h.irqReady m = true ↔ h.Ready m := by
  unfold Hart.irqReady Hart.Ready
  rw [Bool.and_eq_true, Bool.and_eq_true, and_assoc]
  refine and_congr_right fun _ => and_congr_right fun _ => ?_
  split <;> simp [Hart.status, bitSIE, bitMIE]

theorem Hart.irqReady_false {h : Hart} {m : Nat} (off : ¬ h.Ready m) : h.irqReady m = false :=
  Bool.eq_false_iff.2 fun on => off ((h.irqReady_iff m).1 on)

/-- R365: interrupt `n` is the first ready one in the order 17, 18, 16, 19. -/
def Hart.FirstReady (h : Hart) (n : Nat) : Prop := h.Ready n ∧
  (n = 17 ∨ (n = 18 ∧ ¬ h.Ready 17) ∨ (n = 16 ∧ ¬ h.Ready 17 ∧ ¬ h.Ready 18) ∨
    (n = 19 ∧ ¬ h.Ready 17 ∧ ¬ h.Ready 18 ∧ ¬ h.Ready 16))

theorem exec_takeInterrupt {s : State} {k n : Nat} {h : Hart} (arg : s.arg.nats = [k]) (hk : s.hart? k = some h)
    (noCause : h.causePending = false) (boundary : h.atBoundary s.now = true) (first : h.FirstReady n) :
    exec .takeInterrupt s = .next (s.takeIrq k n) := by
  obtain ⟨ready, order⟩ := first
  have on := (h.irqReady_iff n).2 ready
  have taken : (if h.noticeReady then s.takeIrq k 17 else match h.otherIrq with
      | some m => s.takeIrq k m
      | none => s) = s.takeIrq k n := by
    obtain rfl | ⟨rfl, no17⟩ | ⟨rfl, no17, no18⟩ | ⟨rfl, no17, no18, no16⟩ := order
    · rw [Hart.noticeReady, if_pos on]
    · simp only [Hart.noticeReady, Hart.irqReady_false no17, Hart.otherIrq, List.find?_cons, on, Bool.false_eq_true, if_false]
    · simp only [Hart.noticeReady, Hart.irqReady_false no17, Hart.irqReady_false no18, Hart.otherIrq, List.find?_cons, on,
        Bool.false_eq_true, if_false]
    · simp only [Hart.noticeReady, Hart.irqReady_false no17, Hart.irqReady_false no18, Hart.irqReady_false no16, Hart.otherIrq,
        List.find?_cons, on, Bool.false_eq_true, if_false]
  have at_ : s.arg.nat 0 = k := by rw [EventArgs.nat, arg, List.getD_cons_zero]
  change (.next (match s.hart? (s.arg.nat 0) with | none => s | some h => _) : Out) = _
  rw [at_, hk]
  simp only [noCause, boundary, Bool.not_false, Bool.true_or, Bool.and_self, if_true]
  exact congrArg _ taken

/-! ## An interrupt taken (R70, R76, R364) -/

/-- R70, R76: a hart that takes an interrupt: in S where it is delegated, in M else, where one from below waits for the
firmware. -/
def Hart.irqEntered (h : Hart) (n : Nat) (tval : DWord) (now : Nat) : Hart :=
  if h.delegated h.csr.mideleg n then h.enterS (BitVec.ofNat 64 (2 ^ 63 + n)) tval h.csr.stvec now
  else if h.priv = .M then h.enterM (BitVec.ofNat 64 (2 ^ 63 + n)) tval h.csr.mtvec now
  else h.toFirmware (BitVec.ofNat 64 (2 ^ 63 + n)) tval now

theorem State.interrupt_eq {s : State} {h : Hart} (hc : s.hart? s.cur = some h) (n : Nat) (tval : DWord) :
    s.interrupt n tval = s.setCur (h.irqEntered n tval s.now) := by
  simp only [State.interrupt, hc, Hart.irqEntered]
  split
  · rfl
  · split
    · rfl
    · exact (State.modCur_of _ _ _ (s.hart?_setCur _)).trans (s.setCur_setCur _ _)

theorem Hart.irqEntered_enters (h : Hart) (n : Nat) (tval : DWord) (now : Nat) :
    (toSupervisor h h.csr.mideleg n →
      EntersS now h (h.irqEntered n tval now) (BitVec.ofNat 64 (2 ^ 63 + n)) tval h.csr.stvec) ∧
    (¬ toSupervisor h h.csr.mideleg n → EntersM now h (h.irqEntered n tval now) (BitVec.ofNat 64 (2 ^ 63 + n)) tval
      (if h.priv = .M then none else some .firmware)) := by
  unfold Hart.irqEntered
  refine ⟨fun sup => ?_, fun own => ?_⟩
  · rw [if_pos ((delegated_iff _ _ _).2 sup)]
    exact Hart.enterS_enters ..
  · rw [if_neg fun d => own ((delegated_iff _ _ _).1 d)]
    split
    · exact Hart.enterM_enters ..
    · exact Hart.toFirmware_enters ..

/-- R364, R376: the hart whose wait has ended takes the interrupt and keeps its single step; it is the one that takes it without
the step, the step put back. -/
theorem Hart.irqEntered_keepStep (h : Hart) {u : Run} (hu : u.stepping = h.run.stepping ∧ u.haltReq = h.run.haltReq) (n : Nat)
    (v : DWord) (now : Nat) :
    let g := (({ h with run := u } : Hart).unpark now).irqEntered n v now
    let k := ({ h with run := { u with wait := none, busyUntil := now + 1, stepping := false } } : Hart).irqEntered n v now
    ({ g with run := { g.run with stepping := h.run.stepping, haltReq := h.run.haltReq } } : Hart)
      = { k with run := { k.run with stepping := h.run.stepping } } := by
  have idle : h.run.haltReq = (u.haltReq || false) := by rw [Bool.or_false, hu.2]
  have entry (r : Run) : ({ h with run := r } : Hart).irqEntered n v now =
      if h.delegated h.csr.mideleg n then ({ h with run := r } : Hart).enterS (BitVec.ofNat 64 (2 ^ 63 + n)) v h.csr.stvec now
      else if h.priv = .M then ({ h with run := r } : Hart).enterM (BitVec.ofNat 64 (2 ^ 63 + n)) v h.csr.mtvec now
      else ({ h with run := r } : Hart).toFirmware (BitVec.ofNat 64 (2 ^ 63 + n)) v now := rfl
  intro g k
  have hg : g = _ := entry (({ h with run := u } : Hart).unpark now).run
  have hk : k = _ := entry { u with wait := none, busyUntil := now + 1, stepping := false }
  rw [hg, hk, idle]
  simp only [Hart.toFirmware, Hart.park, Hart.enterM_hangNow]
  split
  · rfl
  · split <;> rfl

/-- R364: of an overflowed empty queue of completions, the mark. -/
theorem Hart.deliver_overflow {h : Hart} (empty : h.run.iq19 = []) :
    h.deliver 19 = (0xFFFFFFFFFFFFFFFF, { h with run := { h.run with iq19Ovf := false } }) := by
  change (match h.run.iq19 with | j :: rest => (j, _) | [] => _) = _
  split
  · next full => cases empty.symm.trans full
  · rfl

theorem State.endWait_awake {s : State} {k : Nat} {h : Hart} (hk : s.hart? k = some h) (awake : h.run.wait = none)
    (alone : h.run.spawn = none) : s.endWait k = s.setHart k (h.unpark s.now) := by
  simp only [State.endWait, hk, awake, State.dropSpawn, alone]

/-- R364, R365: a hart that waits for nothing takes interrupt `n`, whose delivery leaves the run state `u`. -/
theorem State.takeIrq_eq {s : State} {k n : Nat} {h : Hart} {u : Run} {v : DWord} (hk : s.hart? k = some h)
    (awake : h.run.wait = none) (alone : h.run.spawn = none) (hu : u.stepping = h.run.stepping ∧ u.haltReq = h.run.haltReq)
    (delivers : (h.unpark s.now).deliver n = (v, ({ h with run := u } : Hart).unpark s.now)) :
    let g := ({ h with run := { u with wait := none, busyUntil := s.now + 1, stepping := false } } : Hart).irqEntered n v s.now
    s.takeIrq k n = s.setHart k { g with run := { g.run with stepping := h.run.stepping } } := by
  intro g
  rw [State.takeIrq, State.endWait_awake hk awake alone]
  refine (State.asHart_setCur (h := { g with run := { g.run with stepping := h.run.stepping } }) ?_).trans (s.setHart_setHart k _ _)
  have here : ({ s.setHart k (h.unpark s.now) with cur := k } : State).hart? k = some (h.unpark s.now) := s.hart?_setHart_same k _
  simp only [here, delivers]
  rw [State.interrupt_eq (State.hart?_setCur _ _), State.setCur_setCur, State.keepStep,
    State.modCur_of _ _ _ (State.hart?_setCur _ _), State.setCur_setCur]
  exact congrArg (State.setCur _) (h.irqEntered_keepStep hu n v s.now)

/-! ## `wfi` (R78) -/

theorem exec_wfi {s : State} {h : Hart} (hc : s.hart? s.cur = some h)
    (may : h.priv = .M ∨ (h.priv = .S ∧ h.csr.mstatus.getLsbD 21 = false)) :
    exec .wfi s = .next (s.setCur (if h.mip &&& h.csr.mie = 0 then (h.retire 4).park .wfi s.now else h.retire 4)) := by
  have allowed : ¬ (h.priv = .U ∨ (h.priv = .S ∧ h.status bitTW)) := by
    obtain mach | ⟨super, tw⟩ := may
    · simp [mach]
    · have : h.status bitTW = false := tw
      simp [super, this]
  refine (onHart_of s h _ hc).trans (congrArg _ ((if_neg allowed).trans ?_))
  by_cases idle : h.mip &&& h.csr.mie = 0
  · rw [if_pos idle, if_neg (by simp [Hart.wakes, idle])]
  · rw [if_neg idle, if_pos (by simpa [Hart.wakes] using idle)]
    rfl

/-- R107: retiring leaves the hang counter of a hart that does not wait. -/
theorem Hart.retire_hangNow (h : Hart) (len now : Nat) : (h.retire len).hangNow now = h.hangNow now := by
  obtain ⟨-, -, dev, run⟩ := h.retireTo_keeps (h.nextPc len)
  have wait : (h.retire len).run = h.settle.run := run
  have same : (h.retire len).dev = h.dev := dev
  simp only [Hart.hangNow, Hart.hangStill, wait, same]
  rfl

end Sys2Proof.Machine

namespace Sys2Proof.Proofs

open Sys2Proof Sys2Proof.Machine

/-- R364: what taking interrupt `n` leaves, given what its delivery leaves. -/
theorem takesInterrupt {s : State} {k n : Nat} {h h0 : Hart} {u : Run} {v : DWord} (run : exec .takeInterrupt s = .next (s.takeIrq k n))
    (hk : s.hart? k = some h) (awake : h.run.wait = none) (alone : h.run.spawn = none)
    (hu : u.stepping = h.run.stepping ∧ u.haltReq = h.run.haltReq)
    (delivers : (h.unpark s.now).deliver n = (v, ({ h with run := u } : Hart).unpark s.now))
    (left : h0 = { h with run := { u with wait := none, busyUntil := s.now + 1, stepping := false } }) :
    ∃ t h', exec .takeInterrupt s = .next (t.setHart k { h' with run := { h'.run with stepping := h.run.stepping } }) ∧
      OnlyHart s t k h' ∧
      (toSupervisor h h.csr.mideleg n → EntersS s.now h0 h' (BitVec.ofNat 64 (2 ^ 63 + n)) v h.csr.stvec) ∧
      (¬ toSupervisor h h.csr.mideleg n →
        EntersM s.now h0 h' (BitVec.ofNat 64 (2 ^ 63 + n)) v (if h.priv = .M then none else some .firmware)) := by
  subst left
  obtain ⟨super, mach⟩ := ({ h with run := { u with wait := none, busyUntil := s.now + 1, stepping := false } } : Hart).irqEntered_enters
    n v s.now
  refine ⟨_, _, ?_, s.setHart_only k _, super, mach⟩
  rw [run, State.takeIrq_eq hk awake alone hu delivers, State.setHart_setHart]

/-- Settles O28: an interrupt is one entry of the hart as its delivery leaves it; `wfi` and its wake are a park and an unpark. -/
theorem interrupts : Obligations.Interrupts := by
  unfold Obligations.Interrupts
  refine ⟨fun s k n v h h0 arg hk awake runs entering second free noCause noOvf alone => ?_, fun s h hc may => ?_, fun s k h arg hk => ?_⟩
  · intro ready on cases
    have noCause : h.causePending = false := by simp [Hart.causePending, noCause, noOvf]
    have boundary := Hart.atBoundary_of awake runs entering second free
    have run (order) : exec .takeInterrupt s = .next (s.takeIrq k n) :=
      exec_takeInterrupt arg hk noCause boundary ⟨on, order⟩
    obtain ⟨rfl, pend, left⟩ | ⟨rfl, no17, pend, left⟩ | ⟨rfl, no17, no18, pend, left⟩ | ⟨rfl, no17, no18, no16, pend⟩ := cases
    · refine takesInterrupt (run (.inl rfl)) hk awake alone (u := { h.run with irq17 := none }) ⟨rfl, rfl⟩ ?_ ?_
      · exact Prod.ext (congrArg (·.getD 0) pend) rfl
      · rw [left, ← awake]
    · refine takesInterrupt (run (.inr (.inl ⟨rfl, no17⟩))) hk awake alone (u := { h.run with irq18 := none }) ⟨rfl, rfl⟩ ?_ ?_
      · exact Prod.ext (congrArg (·.getD 0) pend) rfl
      · rw [left, ← awake]
    · refine takesInterrupt (run (.inr (.inr (.inl ⟨rfl, no17, no18⟩)))) hk awake alone (u := { h.run with irq16 := none })
        ⟨rfl, rfl⟩ ?_ ?_
      · exact Prod.ext (congrArg (·.getD 0) pend) rfl
      · rw [left, ← awake]
    · have run := run (.inr (.inr (.inr ⟨rfl, no17, no18, no16⟩)))
      obtain ⟨rest, queue, left⟩ | ⟨queue, rfl, left⟩ := pend
      · refine takesInterrupt run hk awake alone (u := { h.run with iq19 := rest }) ⟨rfl, rfl⟩ ?_ ?_
        · have : (h.unpark s.now).run.iq19 = v :: rest := queue
          simp only [Hart.deliver, this]
          rfl
        · rw [left, ← awake]
      · refine takesInterrupt run hk awake alone (u := { h.run with iq19Ovf := false }) ⟨rfl, rfl⟩ ?_ ?_
        · exact (h.unpark s.now).deliver_overflow queue
        · rw [left, ← awake]
  · obtain ⟨kx, kl, kd, kr⟩ := h.retireTo_keeps (h.nextPc 4)
    have retires := h.retireTo_retires (h.nextPc 4)
    have run := exec_wfi hc may
    by_cases idle : h.mip &&& h.csr.mie = 0
    · rw [if_pos idle] at run
      refine ⟨_, _, run, s.setCur_only _, ⟨retires.pc, retires.priv, retires.tsc, retires.role, retires.counted⟩, kx, kl, kd, fun c => absurd idle c, fun _ => ?_⟩
      rw [Hart.park, Hart.retire_hangNow]
      exact congrArg (fun r : Run => { r with hangHeld := h.hangNow s.now, hangFrom := s.now, wait := some .wfi }) kr
    · rw [if_neg idle] at run
      exact ⟨_, _, run, s.setCur_only _, retires, kx, kl, kd, fun _ => kr, fun c => absurd c idle⟩
  · have at_ : s.arg.nat 0 = k := by rw [EventArgs.nat, arg, List.getD_cons_zero]
    refine ⟨fun waits wakes => ⟨_, ?_, s.setHart_only k _⟩, fun pc armed back long => ⟨_, ?_, s.setHart_only k _⟩⟩
    · change (.next (match s.hart? (s.arg.nat 0) with | none => s | some h => _) : Out) = _
      rw [at_, hk]
      exact congrArg _ (if_pos (by simpa [waits, Hart.wakes] using wakes))
    · change (.next (match s.hart? (s.arg.nat 0) with | none => s | some h => _) : Out) = _
      rw [at_, hk, ← back]
      exact congrArg _ (if_pos (by simpa [Hart.hung, back, long] using armed))

end Sys2Proof.Proofs
end

section
/-! Misaligned and noncanonical scalar addresses (R65, R66, R305, R362). -/

namespace Sys2Proof.Machine

open Sys2Proof

/-! ## Misaligned accesses (R66) -/

/-- R66, R362: instruction `i` takes cause `c` at address `a`; the reservation of the hart survives. -/
def TrapsMisaligned (s : State) (h : Hart) (i : Instr) (c : Nat) (a : DWord) : Prop :=
  ∃ t, TakesTrap s t s.cur h c a ∧ exec i s = .next (t.modCur (fun g => { g with run := { g.run with resv := h.run.resv } }))

theorem State.watching_unwatched {s : State} {h : Hart} (unwatched : ∀ acc a n, s.dataMatch h acc a n = none) (acc : BitVec 2)
    (addrs : List (Nat × DWord)) (n : Nat) (f : State → State) : s.watching h acc addrs n f = f s := by
  rw [State.watching, unwatched]

section
variable {s : State} {h : Hart} (hc : s.hart? s.cur = some h)
include hc

theorem trapsMisaligned_of {i : Instr} {c : Nat} {a : DWord} (own : toSupervisor h h.csr.medeleg c ∨ h.priv = .M)
    (run : exec i s = .next (s.misaligned c a)) : TrapsMisaligned s h i c a := by
  refine ⟨_, State.raise_takes hc c a own, run.trans ?_⟩
  rw [State.misaligned, hc]

variable (unwatched : ∀ acc a n, s.dataMatch h acc a n = none)
include unwatched

theorem scalarLoad_misaligned (i : Instr) (rd rs1 : BitVec 5) (imm : BitVec 12) {n : Nat} (signed : Bool)
    (odd : (h.getX rs1 + imm.signExtend 64).toNat % n ≠ 0) :
    scalarLoad i rd rs1 imm n signed s = .next (s.misaligned 4 (h.getX rs1 + imm.signExtend 64)) :=
  (onHart_of s h _ hc).trans (congrArg _ ((State.watching_unwatched unwatched ..).trans (if_pos odd)))

variable (unordered : s.ordered h = false)
include unordered

theorem scalarStore_misaligned (rs1 rs2 : BitVec 5) (imm : BitVec 12) {n : Nat}
    (odd : (h.getX rs1 + imm.signExtend 64).toNat % n ≠ 0) :
    scalarStore rs1 rs2 imm n s = .next (s.misaligned 6 (h.getX rs1 + imm.signExtend 64)) := by
  refine (onHart_of s h _ hc).trans (congrArg _ ((State.watching_unwatched unwatched ..).trans ?_))
  rw [unordered, if_neg Bool.false_ne_true]
  exact if_pos odd

theorem atomicAccess_misaligned (i : Instr) (rs1 : BitVec 5) (rl dbl : Bool) {k : AccKind} {c : Nat} (cause : (if k = .load then 4 else 6) = c)
    (f : Hart → DWord → Nat → State → State) (odd : (h.getX rs1).toNat % (if dbl then 8 else 4) ≠ 0) :
    atomicAccess i rs1 rl dbl k s f = .next (s.misaligned c (h.getX rs1)) := by
  subst cause
  refine (onHart_of s h _ hc).trans (congrArg _ ((State.watching_unwatched unwatched ..).trans ?_))
  rw [unordered, if_neg Bool.false_ne_true]
  exact if_pos odd

end

/-! ## Noncanonical addresses (R65, R305) -/

/-- An address whose bits above bit `w` - 1 all equal that bit is the sign extension of its low `w` bits. -/
theorem eq_signExtend_of_bits {va : DWord} {w : Nat} (pos : 0 < w) (le : w ≤ 64)
    (high : bits va.toNat 63 w = if va.getLsbD (w - 1) then 2 ^ (64 - w) - 1 else 0) :
    va = ((va.setWidth w : BitVec w).signExtend 64) := by
  refine BitVec.eq_of_getLsbD_eq fun i hi => ?_
  have sign : (va.setWidth w : BitVec w).msb = va.getLsbD (w - 1) := by
    rw [BitVec.msb_eq_getLsbD_last, BitVec.getLsbD_setWidth, decide_eq_true (by omega), Bool.true_and]
  rw [BitVec.getLsbD_signExtend, BitVec.getLsbD_setWidth, sign, decide_eq_true hi, Bool.true_and]
  by_cases low : i < w
  · rw [if_pos low, decide_eq_true low, Bool.true_and]
  · rw [if_neg low]
    obtain ⟨j, rfl⟩ := Nat.exists_eq_add_of_le (Nat.le_of_not_lt low)
    have bit : va.getLsbD (w + j) = (bits va.toNat 63 w).testBit j := by
      rw [bits, Nat.testBit_mod_two_pow, decide_eq_true (by omega), Bool.true_and, Nat.testBit_div_two_pow, Nat.add_comm]
      rfl
    rw [bit, high]
    cases va.getLsbD (w - 1) with
    | false => exact Nat.zero_testBit j
    | true => rw [if_pos rfl, Nat.testBit_two_pow_sub_one, decide_eq_true (by omega)]

/-- R65: an address that is not canonical under its MODE. -/
def Noncanonical (h : Hart) (va : DWord) : Prop :=
  (satpMode h.csr.satp = 9 ∧ va ≠ ((va.setWidth 48 : BitVec 48).signExtend 64)) ∨
    (satpMode h.csr.satp = 10 ∧ va ≠ ((va.setWidth 57 : BitVec 57).signExtend 64))

theorem canonical_of_noncanonical {h : Hart} {va : DWord} (bad : Noncanonical h va) : canonical (satpMode h.csr.satp) va = false := by
  obtain ⟨mode, differs⟩ | ⟨mode, differs⟩ := bad
  · rw [mode]
    exact beq_false_of_ne fun high => differs (eq_signExtend_of_bits (by decide) (by decide) high)
  · rw [mode]
    exact beq_false_of_ne fun high => differs (eq_signExtend_of_bits (by decide) (by decide) high)

section
variable {s : State} {h : Hart} (hc : s.hart? s.cur = some h) (unwatched : ∀ acc a n, s.dataMatch h acc a n = none)
  (user : h.priv = .U)

include user in
/-- R305: stage 1 has no leaf for a noncanonical address. -/
theorem State.translate_noncanonical {va : DWord} (bad : Noncanonical h va) (k : AccKind) :
    s.translate h va k = .trap k.pageCause va false s := by
  have level : (h.ctx k).priv = .U := by simp [Hart.ctx, user]
  have unmapped : s.stage1 (coreOf s.cur) (h.ctx k) h.run.walks va k = .unmapped := by
    rw [State.stage1, level, if_neg (by decide)]
    exact if_pos (by rw [show (h.ctx k).satp = h.csr.satp from rfl, canonical_of_noncanonical bad]; rfl)
  simp only [State.translate, unmapped]

include hc unwatched user

theorem scalarLoad_noncanonical (i : Instr) (rd rs1 : BitVec 5) (imm : BitVec 12) {n : Nat} (signed : Bool)
    (aligned : (h.getX rs1 + imm.signExtend 64).toNat % n = 0) (bad : Noncanonical h (h.getX rs1 + imm.signExtend 64)) :
    scalarLoad i rd rs1 imm n signed s = .next (s.raise 13 (h.getX rs1 + imm.signExtend 64)) := by
  refine (onHart_of s h _ hc).trans (congrArg _ ((State.watching_unwatched unwatched ..).trans ((if_neg (not_not.2 aligned)).trans ?_)))
  exact congrArg (fun a : Acc Nat => (a.bind _).done _) (s.translate_noncanonical user bad .load)

theorem scalarStore_noncanonical (unordered : s.ordered h = false) (rs1 rs2 : BitVec 5) (imm : BitVec 12) {n : Nat}
    (aligned : (h.getX rs1 + imm.signExtend 64).toNat % n = 0) (bad : Noncanonical h (h.getX rs1 + imm.signExtend 64)) :
    scalarStore rs1 rs2 imm n s = .next (s.raise 15 (h.getX rs1 + imm.signExtend 64)) := by
  refine (onHart_of s h _ hc).trans (congrArg _ ((State.watching_unwatched unwatched ..).trans ?_))
  rw [unordered, if_neg Bool.false_ne_true]
  refine (if_neg (not_not.2 aligned)).trans ?_
  exact congrArg (fun a : Acc Nat => a.done _) (s.translate_noncanonical user bad .store)

end

end Sys2Proof.Machine

namespace Sys2Proof.Proofs

open Sys2Proof Sys2Proof.Machine

section
variable {s : State} {h : Hart} (hc : s.hart? s.cur = some h) (unordered : s.ordered h = false)
  (unwatched : ∀ acc a n, s.dataMatch h acc a n = none)
include hc unwatched

/-- R66: the misaligned loads. -/
theorem misaligned_loads (own : toSupervisor h h.csr.medeleg 4 ∨ h.priv = .M) (rd rs1 : BitVec 5) (imm : BitVec 12) :
    let va := h.getX rs1 + imm.signExtend 64
    let traps := fun (i : Instr) (n : Nat) => va.toNat % n ≠ 0 → TrapsMisaligned s h i 4 va
    traps (.lh rd rs1 imm) 2 ∧ traps (.lhu rd rs1 imm) 2 ∧ traps (.lw rd rs1 imm) 4 ∧ traps (.lwu rd rs1 imm) 4 ∧
      traps (.ld rd rs1 imm) 8 := by
  have load {i : Instr} {n : Nat} {signed : Bool} (run : exec i s = scalarLoad i rd rs1 imm n signed s)
      (odd : (h.getX rs1 + imm.signExtend 64).toNat % n ≠ 0) : TrapsMisaligned s h i 4 (h.getX rs1 + imm.signExtend 64) :=
    trapsMisaligned_of hc own (run.trans (scalarLoad_misaligned hc unwatched i rd rs1 imm signed odd))
  exact ⟨load rfl, load rfl, load rfl, load rfl, load rfl⟩

include unordered

/-- R66: the misaligned stores. -/
theorem misaligned_stores (own : toSupervisor h h.csr.medeleg 6 ∨ h.priv = .M) (rs1 rs2 : BitVec 5) (imm : BitVec 12) :
    let va := h.getX rs1 + imm.signExtend 64
    let traps := fun (i : Instr) (n : Nat) => va.toNat % n ≠ 0 → TrapsMisaligned s h i 6 va
    traps (.sh rs1 rs2 imm) 2 ∧ traps (.sw rs1 rs2 imm) 4 ∧ traps (.sd rs1 rs2 imm) 8 := by
  have store {i : Instr} {n : Nat} (run : exec i s = scalarStore rs1 rs2 imm n s)
      (odd : (h.getX rs1 + imm.signExtend 64).toNat % n ≠ 0) : TrapsMisaligned s h i 6 (h.getX rs1 + imm.signExtend 64) :=
    trapsMisaligned_of hc own (run.trans (scalarStore_misaligned hc unwatched unordered rs1 rs2 imm odd))
  exact ⟨store rfl, store rfl, store rfl⟩

/-- R66: a misaligned `lr`. -/
theorem misaligned_lr (own : toSupervisor h h.csr.medeleg 4 ∨ h.priv = .M) (rd rs1 : BitVec 5) (aq rl dbl : Bool)
    (odd : (h.getX rs1).toNat % (if dbl then 8 else 4) ≠ 0) : TrapsMisaligned s h (.lr rd rs1 aq rl dbl) 4 (h.getX rs1) :=
  trapsMisaligned_of hc own ((show exec _ s = execLr rd rs1 aq rl dbl s from rfl).trans
    (atomicAccess_misaligned hc unwatched unordered _ rs1 rl dbl (if_pos rfl) _ odd))

/-- R66: the misaligned `sc` and AMOs. -/
theorem misaligned_atomics (own : toSupervisor h h.csr.medeleg 6 ∨ h.priv = .M) (rd rs1 rs2 : BitVec 5) (aq rl dbl : Bool)
    {i : Instr} (among : i ∈ [Instr.sc rd rs1 rs2 aq rl dbl, .amoswap rd rs1 rs2 aq rl dbl, .amoadd rd rs1 rs2 aq rl dbl,
      .amoxor rd rs1 rs2 aq rl dbl, .amoand rd rs1 rs2 aq rl dbl, .amoor rd rs1 rs2 aq rl dbl, .amomin rd rs1 rs2 aq rl dbl,
      .amomax rd rs1 rs2 aq rl dbl, .amominu rd rs1 rs2 aq rl dbl, .amomaxu rd rs1 rs2 aq rl dbl])
    (odd : (h.getX rs1).toNat % (if dbl then 8 else 4) ≠ 0) : TrapsMisaligned s h i 6 (h.getX rs1) := by
  have amo {j : Instr} (f : (w : Nat) → BitVec w → BitVec w → BitVec w) (run : exec j s = scalarAmo j f rd rs1 rs2 aq rl dbl s) :
      TrapsMisaligned s h j 6 (h.getX rs1) :=
    trapsMisaligned_of hc own (run.trans (atomicAccess_misaligned hc unwatched unordered j rs1 rl dbl (if_neg (by decide)) _ odd))
  simp only [List.mem_cons, List.not_mem_nil, or_false] at among
  obtain rfl | rfl | rfl | rfl | rfl | rfl | rfl | rfl | rfl | rfl := among
  · exact trapsMisaligned_of hc own ((show exec _ s = execSc rd rs1 rs2 aq rl dbl s from rfl).trans
      (atomicAccess_misaligned hc unwatched unordered _ rs1 rl dbl (if_neg (by decide)) _ odd))
  · exact amo (fun _ _ b => b) rfl
  · exact amo (fun _ a b => a + b) rfl
  · exact amo (fun _ a b => a ^^^ b) rfl
  · exact amo (fun _ a b => a &&& b) rfl
  · exact amo (fun _ a b => a ||| b) rfl
  · exact amo (fun _ a b => if b.slt a then b else a) rfl
  · exact amo (fun _ a b => if a.slt b then b else a) rfl
  · exact amo (fun _ a b => if b.ult a then b else a) rfl
  · exact amo (fun _ a b => if a.ult b then b else a) rfl

end

/-- Settles O13: the alignment is checked before the translation, and the translation has no leaf for a noncanonical address. -/
theorem scalarAddressTraps : Obligations.ScalarAddressTraps := by
  unfold Obligations.ScalarAddressTraps
  refine ⟨fun s h rd rs1 rs2 imm aq rl dbl hc unordered unwatched own => ?_,
    fun s h rd rs1 rs2 imm hc unordered unwatched user deleg13 deleg15 => ?_⟩
  · have own4 : toSupervisor h h.csr.medeleg 4 ∨ h.priv = .M := own.imp_left And.left
    have own6 : toSupervisor h h.csr.medeleg 6 ∨ h.priv = .M := own.imp_left And.right
    exact ⟨misaligned_loads hc unwatched own4 rd rs1 imm, misaligned_stores hc unordered unwatched own6 rs1 rs2 imm,
      misaligned_lr hc unordered unwatched own4 rd rs1 aq rl dbl,
      fun i among => misaligned_atomics hc unordered unwatched own6 rd rs1 rs2 aq rl dbl among⟩
  · intro va bad
    have below : h.priv ≠ .M := by simp [user]
    have load {i : Instr} {n : Nat} {signed : Bool} (run : exec i s = scalarLoad i rd rs1 imm n signed s) (aligned : va.toNat % n = 0) :
        ∃ t, exec i s = .next t ∧ TakesTrap s t s.cur h 13 va :=
      ⟨_, run.trans (scalarLoad_noncanonical hc unwatched user i rd rs1 imm signed aligned bad),
        State.raise_takes hc 13 va (.inl ⟨below, deleg13⟩)⟩
    have store {i : Instr} {n : Nat} (run : exec i s = scalarStore rs1 rs2 imm n s) (aligned : va.toNat % n = 0) :
        ∃ t, exec i s = .next t ∧ TakesTrap s t s.cur h 15 va :=
      ⟨_, run.trans (scalarStore_noncanonical hc unwatched user unordered rs1 rs2 imm aligned bad),
        State.raise_takes hc 15 va (.inl ⟨below, deleg15⟩)⟩
    exact ⟨load rfl (Nat.mod_one _), store rfl (Nat.mod_one _), fun aligned => ⟨load rfl aligned, store rfl aligned⟩⟩

end Sys2Proof.Proofs
end

section
/-! Scalar atomics with a plain access (R67, R68, R107, R149). -/

namespace Sys2Proof.Machine

open Sys2Proof

/-! ## The line claimed (R67, R137, R149) -/

/-- The harts and caches of `s` as an atomic finds them that has claimed its line: no hart changed, data caches moved. -/
structure Claims (s : State) (hs : Map Hart) (cs : Map Core) : Prop where
  harts : ∀ j, ({ s with harts := hs } : State).hart? j = s.hart? j
  caches : CachesOnly s { s with cores := cs }

theorem acquire_cachesMoved (s : State) (core scope : Nat) : CachesMoved s (s.acquire core scope) := by
  unfold State.acquire
  split
  · exact .modCore s core fun _ => rfl
  · exact .refl s

theorem atomicAcquire_cachesMoved (s : State) (aq : Bool) : CachesMoved s (atomicAcquire aq s) := by
  unfold atomicAcquire
  split
  · exact acquire_cachesMoved s _ _
  · exact .refl s

theorem claimLine_cachesMoved (s : State) (part gpa : Nat) : CachesMoved s (s.claimLine part gpa) :=
  (dropHdc_cachesMoved s part gpa _).trans (dropL1_cachesMoved _ _ part gpa)

/-- R67: the release of an atomic that has nothing to wait for. -/
theorem atomicRelease_quiet {s : State} {h : Hart} (hc : s.hart? s.cur = some h) (quiet : (s.core (coreOf s.cur)).flight = [])
    {rl : Bool} (clear : rl = true → h.dev.tbm = 0) (i : Instr) :
    ∃ hs, (∀ f, atomicRelease rl s i f = f { s with harts := hs }) ∧ ∀ j, ({ s with harts := hs } : State).hart? j = s.hart? j := by
  cases rl with
  | false => exact ⟨s.harts, fun _ => rfl, fun _ => rfl⟩
  | true => exact State.releasing_quiet hc quiet (clear rfl) (scope := scP) (.inr (by decide)) i

/-- R67: an atomic with a plain access performs at once, on its claimed line. -/
theorem atomicAccess_of_plain {s : State} {h : Hart} (hc : s.hart? s.cur = some h) (i : Instr) (rs1 : BitVec 5) {rl dbl : Bool}
    {k : AccKind} {n gpa : Nat} (size : (if dbl then 8 else 4) = n) (clear : rl = true → h.dev.tbm = 0)
    (plain : PlainAccess s h (h.getX rs1) k n gpa) :
    ∃ hs ls cs, Claims s hs cs ∧ ∀ f, atomicAccess i rs1 rl dbl k s f =
      .next (f h (h.getX rs1) gpa { s with harts := hs, latencies := ls, cores := cs }) := by
  obtain ⟨hs, released, harts⟩ := atomicRelease_quiet hc plain.quiet clear i
  obtain ⟨cs, claimed, caches⟩ :=
    (claimLine_cachesMoved { s with harts := hs, latencies := s.latencies.tail } h.role.part gpa).exists_cores
  have ready : ({ s with harts := hs, latencies := s.latencies.tail } : State).ready h.role.part gpa =
      { s with harts := hs, latencies := s.latencies.tail } := drainPlace_of_quiet _ plain.quiet
  have prompt : ({ s with harts := hs } : State).latency = 0 := plain.prompt
  refine ⟨hs, s.latencies.tail, cs, ⟨harts, caches⟩, fun f => ?_⟩
  simp only [atomicAccess, size, onHart_of s h _ hc, State.watching, plain.unwatched, plain.unordered, plain.aligned, plain.translated,
    plain.lineFor, Acc.bind_ok, Acc.done_ok, ne_eq, not_true_eq_false, if_false, Bool.false_eq_true, released, prompt, if_true,
    State.popLatency, ready, claimed]

/-! ## Atomic writes (R68, R104, R107, R149) -/

/-- R68, R107, R134: a hart that has written atomically: its reservation of the line is lost, it marks a slice group and its hang
counter is 0. -/
def Hart.wroteLine (h : Hart) (part gpa place : Nat) (far : Bool) (now : Nat) : Hart :=
  ((LosesReservation part gpa h).touch place far).hangClear now

theorem Hart.wroteLine_frame (h : Hart) (part gpa place : Nat) (far : Bool) (now : Nat) : h.wroteLine part gpa place far now =
    { h with dev := (h.touch place far).dev, run := { h.run with
      resv := (LosesReservation part gpa h).run.resv, hangHeld := 0, hangFrom := now, lastBack := none } } := by
  rw [Hart.wroteLine, losesReservation_frame]
  rfl

theorem atomicWrite_effects {s : State} {h : Hart} {gpa : Nat} {bs : List Byte} (hc : s.hart? s.cur = some h)
    (awake : h.run.wait = none) (stands : s.standsAtHome h.role.part gpa) (inSpace : gpa < 2 ^ 52)
    (inLine : gpa % 128 + bs.length ≤ 128) :
    ∃ far, (s.atomicWrite h gpa bs).hart? s.cur = some (h.wroteLine h.role.part gpa (s.home h.role.part gpa) far s.now) ∧
      StoreEffects s (s.atomicWrite h gpa bs) h.role.part gpa bs := by
  obtain ⟨cs, dropped, moved⟩ := (dropL1_cachesMoved s (coreOf s.cur) h.role.part gpa).exists_cores
  have wrote := writeHome_stands (s := { s with cores := cs }) (bs := bs) (some (coreOf s.cur)) stands inSpace inLine
  generalize hu : ({ s with cores := cs } : State).writeHome h.role.part gpa bs (some (coreOf s.cur)) = u at wrote
  obtain ⟨ls, ring, spoilt⟩ := spoilRing_spoils u h.role.part gpa bs.length
  have cur : u.cur = s.cur := (congrArg State.cur wrote.rest :)
  have launches : u.launches = s.launches := (congrArg State.launches wrote.rest :)
  have acting : u.hart? u.cur = some (LosesReservation h.role.part gpa h) := by
    rw [cur]
    have other := wrote.harts s.cur
    rw [show ({ s with cores := cs } : State).hart? s.cur = some h from hc] at other
    exact otherHart_of_awake other awake
  have done : s.atomicWrite h gpa bs = ({ u with launches := ls } : State).setCur
      (h.wroteLine h.role.part gpa (s.home h.role.part gpa) (s.isFar h.role.part gpa) s.now) := by
    rw [State.atomicWrite, dropped, hu, ring]
    exact State.modCur_of { u with launches := ls } _ _ acting
  have only := ({ u with launches := ls } : State).setCur_only
    (h.wroteLine h.role.part gpa (s.home h.role.part gpa) (s.isFar h.role.part gpa) s.now)
  rw [done]
  refine ⟨s.isFar h.role.part gpa, cur ▸ only.acting, ⟨wrote.bytes.bytes, wrote.bytes.rest⟩, fun j hj => ?_, fun l => ?_,
    moved.trans wrote.cores, wrote.dies, ?_⟩
  · exact (only.others j (show j ≠ u.cur from cur ▸ hj)).symm ▸ wrote.harts j
  · exact (spoilt l).trans (by rw [State.launch?, launches, State.launch?])
  · exact (congrArg (fun v : State => { s.putBack v with mem := s.mem, launches := s.launches }) wrote.rest :)

/-- What an atomic write of a claimed line leaves of the package, its hart replaced and data caches moved after it. -/
theorem StoreEffects.of_claims {s t : State} {hs : Map Hart} {ls : List Nat} {cs ds : Map Core} {part gpa : Nat} {bs : List Byte}
    (claims : Claims s hs cs) (effects : StoreEffects { s with harts := hs, latencies := ls, cores := cs } t part gpa bs) (g : Hart)
    (caches : CachesOnly t { t with cores := ds }) : StoreEffects s { t.setCur g with cores := ds } part gpa bs := by
  obtain ⟨bytes, others, launches, cores, dies, rest⟩ := effects
  have cur : t.cur = s.cur := (congrArg State.cur rest :)
  refine ⟨⟨bytes.bytes, bytes.rest⟩, fun j hj => ?_, launches, (claims.caches.trans cores).trans caches, dies, ?_⟩
  · have other := (t.hart?_setCur_other g j (cur ▸ hj)).symm ▸ others j hj
    exact claims.harts j ▸ other
  · exact (congrArg (fun v : State => { s.putBack v with mem := s.mem, launches := s.launches }) rest :)

/-- R67, R149: an atomic write of a claimed line, what its instruction does to the hart, and an acquire. -/
theorem atomicWrite_then {s : State} {h : Hart} {hs : Map Hart} {ls : List Nat} {cs : Map Core} {va : DWord} {n gpa : Nat}
    {bs : List Byte} (hc : s.hart? s.cur = some h) (claims : Claims s hs cs) (plain : PlainAccess s h va .store n gpa)
    (inLine : gpa % 128 + bs.length ≤ 128) (aq : Bool) (F : Hart → Hart) :
    ∃ t far, atomicAcquire aq ((({ s with harts := hs, latencies := ls, cores := cs } : State).atomicWrite h gpa bs).modCur F) = t ∧
      t.hart? s.cur = some (F (h.wroteLine h.role.part gpa (s.home h.role.part gpa) far s.now)) ∧
      StoreEffects s t h.role.part gpa bs := by
  obtain ⟨far, acting, effects⟩ := atomicWrite_effects (s := { s with harts := hs, latencies := ls, cores := cs })
    ((claims.harts _).trans hc) plain.awake plain.stands plain.inSpace inLine
  generalize ({ s with harts := hs, latencies := ls, cores := cs } : State).atomicWrite h gpa bs = w at acting effects
  have cur : w.cur = s.cur := (congrArg State.cur effects.rest :)
  rw [State.modCur_of w _ F (cur ▸ acting)]
  obtain ⟨es, acquired, last⟩ := (atomicAcquire_cachesMoved (w.setCur (F (h.wroteLine h.role.part gpa (s.home h.role.part gpa) far
    s.now))) aq).exists_cores
  exact ⟨_, far, acquired, cur ▸ (w.setCur_only _).acting, effects.of_claims claims _ last⟩

/-! ## `lr`, `sc` and the AMOs (R67, R68) -/

/-- The acting hart `h` retires as `h'`, data caches moved. -/
def RetiresBeside (s t : State) (h h' : Hart) : Prop :=
  t.hart? s.cur = some h' ∧ RetiresTo h h' (h.nextPc 4) ∧ h'.lanes = h.lanes ∧ CachesOnly s t

theorem atomicSize {dbl : Bool} {n : Nat} (size : (if dbl then 8 else 4) = n) : n = 1 ∨ n = 2 ∨ n = 4 ∨ n = 8 := by
  cases dbl
  · exact .inr (.inr (.inl size.symm))
  · exact .inr (.inr (.inr size.symm))

/-- R60, R67: the old value of an AMO, sign-extended. -/
theorem loadValue_bytesOfNat {n : Nat} (v : Nat) (size : n = 1 ∨ n = 2 ∨ n = 4 ∨ n = 8) :
    loadValue (bytesOfNat v n) n true = BitVec.ofInt 64 (BitVec.ofNat (8 * n) v).toInt := by
  have low (k : Nat) (hk : 256 ^ n = 2 ^ k) : BitVec.ofNat k (natOfBytes (bytesOfNat v n)) = BitVec.ofNat k v := by
    rw [natOfBytes_bytesOfNat, hk]
    exact BitVec.eq_of_toNat_eq (by simp)
  obtain rfl | rfl | rfl | rfl := size
  · exact congrArg sext64 (low 8 rfl)
  · exact congrArg sext64 (low 16 rfl)
  · exact congrArg sext64 (low 32 rfl)
  · exact (low 64 rfl).trans (BitVec.ofInt_toInt).symm

section
variable {s : State} {h : Hart} (hc : s.hart? s.cur = some h) {rl dbl : Bool} (clear : rl = true → h.dev.tbm = 0) {n gpa : Nat}
  (size : (if dbl then 8 else 4) = n)
include hc clear size

/-- R67: an `lr` reads the number at the address, sign-extended, and reserves its line. -/
theorem lr_reads (rd rs1 : BitVec 5) (aq : Bool) (plain : PlainAccess s h (h.getX rs1) .load n gpa) :
    ∃ t h', exec (.lr rd rs1 aq rl dbl) s = .next t ∧ RetiresBeside s t h h' ∧
      writesX h h' rd (BitVec.ofInt 64 (readSigned (8 * n) (s.numAt h.role.part gpa n))) ∧
      h'.run = { h.settle.run with resv := some ⟨h.role.part, gpa / 128⟩ } ∧ h'.dev = h.dev ∧ t.mem = s.mem ∧
      ∀ j, j ≠ s.cur → t.hart? j = s.hart? j := by
  obtain ⟨hs, ls, cs, claims, done⟩ := atomicAccess_of_plain hc (.lr rd rs1 aq rl dbl) rs1 size clear plain
  have read : ({ s with harts := hs, latencies := ls, cores := cs } : State).bytesAt h.role.part gpa n =
      lineBytes (s.llcData h.role.part gpa) (gpa % 128) n := bytesAt_stands _ plain.stands
  have value := loadValue_lineBytes s h.role.part true (atomicSize size) (plain.in_line (atomicSize size))
  have run : exec (.lr rd rs1 aq rl dbl) s = execLr rd rs1 aq rl dbl s := rfl
  rw [execLr, done, size] at run
  dsimp only at run
  rw [read, value, if_pos rfl] at run
  generalize BitVec.ofInt 64 (readSigned (8 * n) (s.numAt h.role.part gpa n)) = v at run ⊢
  obtain ⟨ds, put, moved⟩ := (putHdc_cachesMoved { s with harts := hs, latencies := ls, cores := cs } (coreOf s.cur) h.role.part gpa
    false).exists_cores
  have acting : ({ s with harts := hs, latencies := ls, cores := ds } : State).hart? s.cur = some h := (claims.harts _).trans hc
  have step := s.scalar_step { h with run := { h.run with resv := some ⟨h.role.part, gpa / 128⟩ } } rd v 4
  rw [put, State.modCur_of _ h _ acting] at run
  obtain ⟨es, acquired, last⟩ := (atomicAcquire_cachesMoved _ aq).exists_cores
  rw [acquired] at run
  have only := ({ s with harts := hs, latencies := ls, cores := ds } : State).setCur_only
    ((({ h with run := { h.run with resv := some ⟨h.role.part, gpa / 128⟩ } } : Hart).setX rd v).retire 4)
  exact ⟨_, _, run, ⟨only.acting, step.retires.of_same rfl rfl rfl rfl, step.lanes, (claims.caches.trans moved).trans last⟩, step.x,
    step.run, step.dev, rfl, fun j hj => (only.others j hj).trans (claims.harts j)⟩

/-- R68: an `sc` whose reservation survives stores and writes 0. -/
theorem sc_stores (rd rs1 rs2 : BitVec 5) (aq : Bool) (plain : PlainAccess s h (h.getX rs1) .store n gpa)
    (reserved : h.run.resv = some ⟨h.role.part, gpa / 128⟩) :
    ∃ t h', exec (.sc rd rs1 rs2 aq rl dbl) s = .next t ∧ RetiresBeside s t h h' ∧ writesX h h' rd 0 ∧ h'.run.resv = none ∧
      h'.dev = { h.dev with tbm := h.dev.tbm ||| (1 <<< groupOf (s.home h.role.part gpa)), tbmf := h'.dev.tbmf } ∧
      StoreEffects s t h.role.part gpa ((List.range n).map (fun j => BitVec.ofNat 8 ((h.getX rs2).toNat / 256 ^ j))) := by
  obtain ⟨hs, ls, cs, claims, done⟩ := atomicAccess_of_plain hc (.sc rd rs1 rs2 aq rl dbl) rs1 size clear plain
  have acting : ({ s with harts := hs, latencies := ls, cores := cs } : State).hart? s.cur = some h := (claims.harts _).trans hc
  have run : exec (.sc rd rs1 rs2 aq rl dbl) s = execSc rd rs1 rs2 aq rl dbl s := rfl
  rw [execSc, done, size] at run
  simp only [acting, reserved, beq_self_eq_true, if_true] at run
  have inLine : gpa % 128 + (bytesOfNat (h.getX rs2).toNat n).length ≤ 128 := by
    rw [bytesOfNat_length]
    exact plain.in_line (atomicSize size)
  obtain ⟨t, far, wrote, hart, effects⟩ := atomicWrite_then (ls := ls) hc claims plain inLine aq fun k =>
    (({ k with run := { k.run with resv := none } }).setX rd 0).retire 4
  rw [Hart.wroteLine_frame] at hart
  have step := s.scalar_step { h with
    dev := (h.touch (s.home h.role.part gpa) far).dev
    run := { h.run with resv := none, hangHeld := 0, hangFrom := s.now, lastBack := none } } rd 0 4
  rw [← bytesOfNat_eq_map]
  exact ⟨t, _, run.trans (congrArg _ wrote), ⟨hart, step.retires.of_same rfl rfl rfl rfl, step.lanes, effects.caches⟩, step.x,
    congrArg Run.resv step.run, by rw [step.dev]; rfl, effects⟩

/-- R68: an `sc` whose reservation does not survive writes 1 and stores nothing. -/
theorem sc_fails (rd rs1 rs2 : BitVec 5) (aq : Bool) (plain : PlainAccess s h (h.getX rs1) .store n gpa)
    (lost : h.run.resv ≠ some ⟨h.role.part, gpa / 128⟩) :
    ∃ t h', exec (.sc rd rs1 rs2 aq rl dbl) s = .next t ∧ RetiresBeside s t h h' ∧ writesX h h' rd 1 ∧
      h'.run = { h.settle.run with resv := none } ∧ h'.dev = h.dev ∧ t.mem = s.mem ∧
      ∀ j, j ≠ s.cur → t.hart? j = s.hart? j := by
  obtain ⟨hs, ls, cs, claims, done⟩ := atomicAccess_of_plain hc (.sc rd rs1 rs2 aq rl dbl) rs1 size clear plain
  have acting : ({ s with harts := hs, latencies := ls, cores := cs } : State).hart? s.cur = some h := (claims.harts _).trans hc
  have run : exec (.sc rd rs1 rs2 aq rl dbl) s = execSc rd rs1 rs2 aq rl dbl s := rfl
  rw [execSc, done, size] at run
  simp only [acting, beq_false_of_ne lost, Bool.false_eq_true, if_false] at run
  have step := s.scalar_step { h with run := { h.run with resv := none } } rd 1 4
  rw [State.modCur_of _ h _ acting] at run
  obtain ⟨es, acquired, last⟩ := (atomicAcquire_cachesMoved _ aq).exists_cores
  rw [acquired] at run
  have only := ({ s with harts := hs, latencies := ls, cores := cs } : State).setCur_only
    ((({ h with run := { h.run with resv := none } } : Hart).setX rd 1).retire 4)
  exact ⟨_, _, run, ⟨only.acting, step.retires.of_same rfl rfl rfl rfl, step.lanes, claims.caches.trans last⟩, step.x,
    step.run, step.dev, rfl, fun j hj => (only.others j hj).trans (claims.harts j)⟩

/-- R67, R149: an AMO reads the number at the address, sign-extended, and stores what its operation makes of it and rs2. -/
theorem amo_stores {i : Instr} (f : (w : Nat) → BitVec w → BitVec w → BitVec w) (rd rs1 rs2 : BitVec 5) (aq : Bool)
    (plain : PlainAccess s h (h.getX rs1) .store n gpa) (run : exec i s = scalarAmo i f rd rs1 rs2 aq rl dbl s) :
    let a : BitVec (8 * n) := BitVec.ofNat (8 * n) (s.numAt h.role.part gpa n)
    ∃ t h', exec i s = .next t ∧ t.hart? s.cur = some h' ∧ RetiresTo h h' (h.nextPc 4) ∧ h'.lanes = h.lanes ∧
      writesX h h' rd (BitVec.ofInt 64 a.toInt) ∧
      h'.dev = { h.dev with tbm := h.dev.tbm ||| (1 <<< groupOf (s.home h.role.part gpa)), tbmf := h'.dev.tbmf } ∧
      h'.run = { (LosesReservation h.role.part gpa h).settle.run with hangHeld := 0, hangFrom := s.now, lastBack := none } ∧
      StoreEffects s t h.role.part gpa
        ((List.range n).map (fun j => BitVec.ofNat 8 ((f (8 * n) a ((h.getX rs2).setWidth (8 * n))).toNat / 256 ^ j))) := by
  intro a
  obtain ⟨hs, ls, cs, claims, done⟩ := atomicAccess_of_plain hc i rs1 size clear plain
  have inside := plain.in_line (atomicSize size)
  have old : natOfBytes (({ s with harts := hs, latencies := ls, cores := cs } : State).bytesAt h.role.part gpa n) =
      s.numAt h.role.part gpa n := by
    rw [show ({ s with harts := hs, latencies := ls, cores := cs } : State).bytesAt h.role.part gpa n =
      lineBytes (s.llcData h.role.part gpa) (gpa % 128) n from bytesAt_stands n plain.stands]
    exact natOfBytes_lineBytes s h.role.part n gpa inside
  rw [scalarAmo, done, size] at run
  simp only [old, loadValue_bytesOfNat _ (atomicSize size)] at run
  have inLine : gpa % 128 + (bytesOfNat (f (8 * n) a ((h.getX rs2).setWidth (8 * n))).toNat n).length ≤ 128 := by
    rw [bytesOfNat_length]
    exact inside
  obtain ⟨t, far, wrote, hart, effects⟩ := atomicWrite_then (ls := ls) hc claims plain inLine aq fun k =>
    (k.setX rd (BitVec.ofInt 64 a.toInt)).retire 4
  rw [Hart.wroteLine_frame] at hart
  have step := s.scalar_step { h with
    dev := (h.touch (s.home h.role.part gpa) far).dev
    run := { h.run with
      resv := (LosesReservation h.role.part gpa h).run.resv, hangHeld := 0, hangFrom := s.now, lastBack := none } }
    rd (BitVec.ofInt 64 a.toInt) 4
  rw [← bytesOfNat_eq_map, losesReservation_frame]
  exact ⟨t, _, run.trans (congrArg _ wrote), hart, step.retires.of_same rfl rfl rfl rfl, step.lanes, step.x, by rw [step.dev]; rfl,
    step.run, effects⟩

end

end Sys2Proof.Machine
namespace Sys2Proof.Proofs

open Sys2Proof Sys2Proof.Machine

/-- R67: the smaller and the larger of two numbers, as the model orders them and as the statement does. -/
theorem signed_min {w : Nat} (a b : BitVec w) : (if b.slt a then b else a) = if a.toInt ≤ b.toInt then a else b := by
  simp only [BitVec.slt_iff_toInt_lt, ← not_le, ite_not]

theorem signed_max {w : Nat} (a b : BitVec w) : (if a.slt b then b else a) = if b.toInt ≤ a.toInt then a else b := by
  simp only [BitVec.slt_iff_toInt_lt, ← not_le, ite_not]

theorem unsigned_min {w : Nat} (a b : BitVec w) : (if b.ult a then b else a) = if a.toNat ≤ b.toNat then a else b := by
  simp only [BitVec.ult_iff_toNat_lt, ← not_le, ite_not]

theorem unsigned_max {w : Nat} (a b : BitVec w) : (if a.ult b then b else a) = if b.toNat ≤ a.toNat then a else b := by
  simp only [BitVec.ult_iff_toNat_lt, ← not_le, ite_not]

/-- Settles O12: an atomic with a plain access acts on its claimed line, at its home slice, in one step. -/
theorem atomicAccesses : Obligations.AtomicAccesses := by
  unfold Obligations.AtomicAccesses
  refine ⟨fun s h rd rs1 rs2 aq rl dbl gpa hc clear => ⟨lr_reads hc clear rfl rd rs1 aq, sc_stores hc clear rfl rd rs1 rs2 aq,
    sc_fails hc clear rfl rd rs1 rs2 aq⟩, fun s h rd rs1 rs2 aq rl dbl gpa hc clear => ?_⟩
  intro part n num a b amo
  rw [← signed_min, ← signed_max, ← unsigned_min, ← unsigned_max]
  exact ⟨fun plain => amo_stores hc clear rfl (fun _ _ b => b) rd rs1 rs2 aq plain rfl,
    fun plain => amo_stores hc clear rfl (fun _ a b => a + b) rd rs1 rs2 aq plain rfl,
    fun plain => amo_stores hc clear rfl (fun _ a b => a ^^^ b) rd rs1 rs2 aq plain rfl,
    fun plain => amo_stores hc clear rfl (fun _ a b => a &&& b) rd rs1 rs2 aq plain rfl,
    fun plain => amo_stores hc clear rfl (fun _ a b => a ||| b) rd rs1 rs2 aq plain rfl,
    fun plain => amo_stores hc clear rfl (fun _ a b => if b.slt a then b else a) rd rs1 rs2 aq plain rfl,
    fun plain => amo_stores hc clear rfl (fun _ a b => if a.slt b then b else a) rd rs1 rs2 aq plain rfl,
    fun plain => amo_stores hc clear rfl (fun _ a b => if b.ult a then b else a) rd rs1 rs2 aq plain rfl,
    fun plain => amo_stores hc clear rfl (fun _ a b => if a.ult b then b else a) rd rs1 rs2 aq plain rfl⟩

end Sys2Proof.Proofs
end

section
/-! What ends a wait (R80, R93, R94, R109, R150, R168, R169, R176, R309). -/

namespace Sys2Proof.Machine

open Sys2Proof

/-! ## An instruction performed when its answer comes (R93, R94, R109) -/

/-- R93: the package as a waiting instruction of hart `k` is performed: the hart acts, its wait over, and its operations have the
latencies `lat`. -/
def State.performing (s : State) (k : Nat) (h : Hart) (lat : List Nat) : State :=
  { s with cur := k, latencies := lat, harts := Map.put s.harts k { h with run := { h.run with
      wait := none, busyUntil := s.now + 1, hangHeld := h.hangNow s.now, hangFrom := s.now } } }

theorem State.perform_eq {s t : State} {k : Nat} {h : Hart} {i : Instr} {lat : List Nat} (hk : s.hart? k = some h)
    (run : performed i (s.performing k h lat) = .next t) : s.perform k i lat = { t with cur := s.cur } := by
  have acting : ({ s with cur := k } : State).hart? k = some h := hk
  have ready : ({ ({ s with cur := k } : State).modCur (fun g => g.unpark s.now) with latencies := lat } : State) =
      s.performing k h lat := by
    rw [State.modCur_of _ h _ acting]
    rfl
  simp only [State.perform, State.asHart, ready, run, nextOf]

/-- R93: what an answer leaves that makes hart `k` perform `i`: what `i` itself does then. -/
def ReturnsAs (s : State) (k : Nat) (h : Hart) (i ev : Instr) : Prop :=
  ∃ t, exec i (s.performing k h []) = .next t ∧ exec ev s = .next { t with cur := s.cur, latencies := s.latencies }

section
variable {s : State} {k tag : Nat} {h : Hart} {i : Instr} (arg : s.arg.nats = [k, tag]) (hk : s.hart? k = some h)
include arg hk

theorem missDataReturn_returns (waits : h.run.wait = some (.data tag i)) (same : ∀ u, performed i u = exec i u)
    (answers : ∀ u g, u.hart? u.cur = some g → ∃ t, exec i u = .next t) : ReturnsAs s k h i .missDataReturn := by
  obtain ⟨t, run⟩ := answers (s.performing k h []) _ (Map.find_put_same s.harts k _)
  have at0 : s.arg.nat 0 = k := by rw [EventArgs.nat, arg, List.getD_cons_zero]
  have at1 : s.arg.nat 1 = tag := by rw [EventArgs.nat, arg, List.getD_cons_succ, List.getD_cons_zero]
  refine ⟨t, run, ?_⟩
  change execMissDataReturn s = _
  simp only [execMissDataReturn, at0, at1, hk, waits, if_true, State.perform_eq hk ((same _).trans run)]

theorem rflClaimAnswer_returns (waits : h.run.wait = some (.claim tag i)) (same : ∀ u, performed i u = exec i u)
    (answers : ∀ u g, u.hart? u.cur = some g → ∃ t, exec i u = .next t) : ReturnsAs s k h i .rflClaimAnswer := by
  obtain ⟨t, run⟩ := answers (s.performing k h []) _ (Map.find_put_same s.harts k _)
  have at0 : s.arg.nat 0 = k := by rw [EventArgs.nat, arg, List.getD_cons_zero]
  have at1 : s.arg.nat 1 = tag := by rw [EventArgs.nat, arg, List.getD_cons_succ, List.getD_cons_zero]
  refine ⟨t, run, ?_⟩
  change execRflClaimAnswer s = _
  simp only [execRflClaimAnswer, at0, at1, hk, waits, if_true, State.perform_eq hk ((same _).trans run)]

end

/-! ## Waits that end without an instruction (R80, R150, R176, R309) -/

theorem sfenceVmaComplete_ends {s : State} {k tag : Nat} {h : Hart} (arg : s.arg.nats = [k, tag]) (hk : s.hart? k = some h)
    (waits : h.run.wait = some (.sfence tag)) (returned : s.walksBefore h.role.part tag = false) :
    ∃ t, exec .sfenceVmaComplete s = .next t ∧ t.hart? k = some (h.unpark s.now) ∧ (∀ j, j ≠ k → t.hart? j = s.hart? j) ∧
      (∀ f, f ∈ (t.cluster (clusterOf k)).sfences ↔ f ∈ (s.cluster (clusterOf k)).sfences ∧ f.1 ≠ tag) ∧
      (∀ c, c ≠ clusterOf k → t.cluster c = s.cluster c) ∧ { t with harts := s.harts, clusters := s.clusters } = s := by
  have at0 : s.arg.nat 0 = k := by rw [EventArgs.nat, arg, List.getD_cons_zero]
  have at1 : s.arg.nat 1 = tag := by rw [EventArgs.nat, arg, List.getD_cons_succ, List.getD_cons_zero]
  have only := s.setHart_only k (h.unpark s.now)
  have run : exec .sfenceVmaComplete s = .next ((s.setHart k (h.unpark s.now)).modCluster (clusterOf k)
      fun c => { c with sfences := c.sfences.filter (fun f => f.1 != tag) }) := by
    change execSfenceVmaComplete s = _
    simp only [execSfenceVmaComplete, at0, at1, hk, waits, returned, beq_self_eq_true, Bool.not_false, Bool.and_self, if_true]
  refine ⟨_, run, only.acting, only.others, fun f => ?_, fun c hc => ?_, rfl⟩
  · rw [State.modCluster, State.cluster_setCluster, if_pos rfl, List.mem_filter, bne_iff_ne]
    rfl
  · rw [State.modCluster, State.cluster_setCluster, if_neg hc]
    rfl

theorem orderedStallEnd_ends {s : State} {k : Nat} {h : Hart} (arg : s.arg.nats = [k]) (hk : s.hart? k = some h)
    (waits : h.run.wait = some .ordered) : exec .orderedStallEnd s = .next (s.setHart k (h.unpark s.now)) := by
  have at0 : s.arg.nat 0 = k := by rw [EventArgs.nat, arg, List.getD_cons_zero]
  change execOrderedStallEnd s = _
  simp only [execOrderedStallEnd, at0, hk, waits, beq_self_eq_true, if_true]

/-- The slices of a die without the watches of hart `k`. -/
def dropWatches (k : Nat) (m : Map Slice) : Map Slice :=
  Map.mapVal m fun _ sl => { sl with watches := sl.watches.filter (fun w => w.hart != k) }

theorem dropWatch_watches (s : State) (k d n : Nat) (w : Watch) : w ∈ (((s.dropWatch k).die d).slice n).watches ↔
    w ∈ ((s.die d).slice n).watches ∧ w.hart ≠ k := by
  have die : (s.dropWatch k).die d = { s.die d with slices := dropWatches k (s.die d).slices } :=
    Map.findD_mapVal s.dies (fun v : Die => { v with slices := dropWatches k v.slices }) d rfl
  have slice : Map.findD (dropWatches k (s.die d).slices) n Slice.reset = { (s.die d).slice n with
      watches := ((s.die d).slice n).watches.filter (fun w => w.hart != k) } :=
    Map.findD_mapVal (s.die d).slices (fun sl : Slice => { sl with watches := sl.watches.filter (fun w => w.hart != k) }) n rfl
  rw [die, Die.slice, slice, List.mem_filter, bne_iff_ne]

/-- R150: the end of a `waita` of the acting hart that was parked. -/
theorem finishWaita_unparked {s : State} {h : Hart} (hc : s.hart? s.cur = some h) (xd : BitVec 5) (status : Nat) :
    (s.modCur (fun g => g.unpark s.now)).finishWaita xd status = (s.modCore (coreOf s.cur) (fun c => { c with l1 := [] })).setCur
      (((h.unpark s.now).setX xd (BitVec.ofNat 64 status)).retire 4) := by
  have acquired : (s.setCur (h.unpark s.now)).acquire (coreOf s.cur) scP =
      (s.modCore (coreOf s.cur) (fun c => { c with l1 := [] })).setCur (h.unpark s.now) := rfl
  rw [State.modCur_of s h _ hc]
  change ((s.setCur (h.unpark s.now)).acquire (coreOf s.cur) scP).modCur _ = _
  rw [acquired, State.modCur_of _ _ _ (State.hart?_setCur _ _), State.setCur_setCur]

/-- R150: a parked `waita` ends with a status: its watch is removed, the core's lane L1 is empty and the hart retires. -/
theorem endWaita_ends {s : State} {k tag : Nat} {h : Hart} {xd : BitVec 5} {at_ : Line} (hk : s.hart? k = some h)
    (waits : h.run.wait = some (.waita tag xd at_)) (status : Nat) :
    let t := s.endWaita k tag status
    ∃ h', t.hart? k = some h' ∧ RetiresTo h h' (h.nextPc 4) ∧ writesX h h' xd (BitVec.ofNat 64 status) ∧ h'.lanes = h.lanes ∧
      h'.dev = h.dev ∧ h'.run.wait = none ∧ h'.run.resv = h.run.resv ∧ (t.core (coreOf k)).l1 = [] ∧ CachesOnly s t ∧
      (∀ d n w, w ∈ ((t.die d).slice n).watches ↔ w ∈ ((s.die d).slice n).watches ∧ w.hart ≠ k) ∧
      (∀ j, j ≠ k → t.hart? j = s.hart? j) ∧ { t with harts := s.harts, cores := s.cores, dies := s.dies } = s := by
  intro t
  have acting : ({ s.dropWatch k with cur := k } : State).hart? k = some h := hk
  have ends : t = { (({ s.dropWatch k with cur := k } : State).modCore (coreOf k) (fun c => { c with l1 := [] })).setCur
      (((h.unpark s.now).setX xd (BitVec.ofNat 64 status)).retire 4) with cur := s.cur } := by
    simp only [t, State.endWaita, hk, waits, if_true, State.asHart]
    exact congrArg (fun u : State => { u with cur := s.cur }) (finishWaita_unparked (s := { s.dropWatch k with cur := k }) acting xd
      status)
  have step := s.scalar_step (h.unpark s.now) xd (BitVec.ofNat 64 status) 4
  have only := ((({ s.dropWatch k with cur := k } : State).modCore (coreOf k) (fun c => { c with l1 := [] }))).setCur_only
    (((h.unpark s.now).setX xd (BitVec.ofNat 64 status)).retire 4)
  have emptied := CachesMoved.modCore s (coreOf k) (f := fun c => { c with l1 := [] }) fun _ => rfl
  rw [ends]
  refine ⟨_, only.acting, step.retires.of_same rfl rfl rfl rfl, step.x, step.lanes, step.dev, (congrArg Run.wait step.run :),
    (congrArg Run.resv step.run :), ?_, emptied.cores, fun d n w => dropWatch_watches s k d n w, only.others, rfl⟩
  change ((s.modCore (coreOf k) (fun c => { c with l1 := [] })).core (coreOf k)).l1 = []
  rw [State.modCore, State.core_setCore, if_pos rfl]

/-! ## Releases that complete (R168, R169) -/

/-- R169: what a release at a scope leaves of the marks of its hart. -/
def Hart.unmarked (h : Hart) (scope : Nat) : Hart :=
  { h with dev := { h.dev with tbm := 0, tbmf := h.dev.tbmf && decide (scope < scX) } }

theorem released_quiet {s : State} {h : Hart} (hc : s.hart? s.cur = some h) (quiet : (s.core (coreOf s.cur)).flight = [])
    {scope : Nat} (wide : ¬ scope ≤ scC) :
    ∃ hs, s.released s.cur scope = { s with harts := hs } ∧ Map.find hs s.cur = some (h.unmarked scope) ∧
      ∀ j, j ≠ s.cur → Map.find hs j = s.hart? j := by
  have drained : s.drainCore (coreOf s.cur) = s := by simp only [State.drainCore, quiet, List.filter_nil, List.isEmpty_nil, if_true]
  have clears (j : Nat) := s.hart?_modHarts (fun j _ => j == s.cur) (fun _ g => g.unmarked scope) j
  refine ⟨_, by rw [State.released, if_neg wide, drained]; rfl, ?_, fun j hj => ?_⟩
  · exact (clears s.cur).trans (by rw [hc, Option.map_some, if_pos (beq_self_eq_true _)])
  · refine (clears j).trans ?_
    simp only [beq_iff_eq, if_neg hj]
    exact Option.map_id_apply

/-- R168: a release whose echoes are back at once: what follows it goes on, a latency used where something was marked. -/
theorem releasing_prompt {s : State} {h : Hart} (hc : s.hart? s.cur = some h) (quiet : (s.core (coreOf s.cur)).flight = [])
    {scope : Nat} (wide : ¬ scope ≤ scC) (prompt : s.latency = 0) (echoes : s.echoHeld s.cur = false) (i : Instr) :
    ∃ hs ls, (ls = s.latencies ∨ ls = s.latencies.tail) ∧
      (∀ f, s.releasing scope i f = f { s with harts := hs, latencies := ls }) ∧
      Map.find hs s.cur = some (h.unmarked scope) ∧ ∀ j, j ≠ s.cur → Map.find hs j = s.hart? j := by
  have ready : s.releaseWaits s.cur scope = false := by simp [State.releaseWaits, prompt, echoes]
  by_cases marked : s.marked s.cur scope = true
  · obtain ⟨hs, released, own, others⟩ := released_quiet (s := s.popLatency) hc quiet wide
    refine ⟨hs, s.latencies.tail, .inr rfl, fun f => ?_, own, others⟩
    have cur : s.popLatency.cur = s.cur := rfl
    rw [cur] at released
    simp only [State.releasing, if_neg wide, marked, Bool.not_true, ready, Bool.false_eq_true, if_false, released]
    rfl
  · obtain ⟨hs, released, own, others⟩ := released_quiet hc quiet wide
    refine ⟨hs, s.latencies, .inl rfl, fun f => ?_, own, others⟩
    simp only [State.releasing, if_neg wide, marked, Bool.not_false, if_true, released]

/-- R168: a `pfence` that releases, its echoes back. -/
theorem pfence_prompt {s : State} {h : Hart} (hc : s.hart? s.cur = some h) (quiet : (s.core (coreOf s.cur)).flight = [])
    {scope : BitVec 3} {order : BitVec 2} (rel : order.getLsbD 1 = true) (wide : 2 ≤ scope.toNat) (prompt : s.latency = 0)
    (echoes : s.echoHeld s.cur = false) :
    ∃ t, execPfence scope order s = .next t ∧ t.hart? s.cur = some ((h.unmarked scope.toNat).retire 4) ∧
      (∀ j, j ≠ s.cur → t.hart? j = s.hart? j) ∧ (t.latencies = s.latencies ∨ t.latencies = s.latencies.tail) ∧
      { t with harts := s.harts, cores := s.cores, latencies := s.latencies } = s := by
  obtain ⟨hs, ls, lat, released, own, others⟩ :=
    releasing_prompt hc quiet (show ¬ scope.toNat ≤ scC from Nat.not_le.2 wide) prompt echoes (.pfence scope order)
  obtain ⟨cs, acquired⟩ : ∃ cs, (if order.getLsbD 0 then ({ s with harts := hs, latencies := ls } : State).acquire (coreOf s.cur)
      scope.toNat else { s with harts := hs, latencies := ls }) = { s with harts := hs, latencies := ls, cores := cs } := by
    split
    · exact ⟨_, (acquire_cachesMoved { s with harts := hs, latencies := ls } _ _).exists_cores.choose_spec.1⟩
    · exact ⟨s.cores, rfl⟩
  have only := ({ s with harts := hs, latencies := ls, cores := cs } : State).setCur_only ((h.unmarked scope.toNat).retire 4)
  refine ⟨_, ?_, only.acting, fun j hj => (only.others j hj).trans (others j hj), lat, rfl⟩
  refine (onHart_of s h _ hc).trans (congrArg _ ?_)
  rw [State.fence, if_pos rel, released, acquired]
  exact State.modCur_of _ (h.unmarked scope.toNat) _ own

/-- R168, R169: the hart that waits in a fence goes on behind it. -/
theorem releaseComplete_ends {s : State} {k tag : Nat} {h : Hart} {scope : BitVec 3} {order : BitVec 2} (arg : s.arg.nats = [k, tag])
    (hk : s.hart? k = some h) (waits : h.run.wait = some (.release tag (.pfence scope order))) (echoes : s.echoHeld k = false)
    (quiet : (s.core (coreOf k)).flight = []) (rel : order.getLsbD 1 = true) (wide : 2 ≤ scope.toNat) :
    ∃ t, exec .releaseComplete s = .next t ∧ t.hart? k = some (((h.unpark s.now).unmarked scope.toNat).retire 4) ∧
      (∀ j, j ≠ k → t.hart? j = s.hart? j) ∧ { t with harts := s.harts, cores := s.cores } = s := by
  have at0 : s.arg.nat 0 = k := by rw [EventArgs.nat, arg, List.getD_cons_zero]
  have at1 : s.arg.nat 1 = tag := by rw [EventArgs.nat, arg, List.getD_cons_succ, List.getD_cons_zero]
  have only := s.setHart_only k (h.unpark s.now)
  have here : (s.performing k h (0 :: s.latencies)).hart? k = some (h.unpark s.now) := only.acting
  have held : (s.performing k h (0 :: s.latencies)).echoHeld k = false := by
    rw [← echoes]
    simp only [State.echoHeld, here, hk]
    rfl
  obtain ⟨t, run, own, others, lat, rest⟩ := pfence_prompt (s := s.performing k h (0 :: s.latencies)) here quiet rel wide rfl held
  have performs : s.perform k (.pfence scope order) (0 :: s.latencies) = { t with cur := s.cur } := State.perform_eq hk run
  refine ⟨{ t with cur := s.cur, latencies := s.latencies }, ?_, own, fun j hj => (others j hj).trans (only.others j hj), ?_⟩
  · change execReleaseComplete s = _
    simp only [execReleaseComplete, at0, at1, hk, waits, echoes, decide_true, Bool.not_false, Bool.and_self, if_true, performs]
    obtain same | used := lat
    · rw [if_pos (by rw [same]; rfl)]
    · have back : t.latencies = s.latencies := used
      rw [if_neg (by rw [back]; omega), ← back]
  · exact (congrArg (fun u : State => { u with harts := s.harts, cores := s.cores, cur := s.cur, latencies := s.latencies }) rest :)

end Sys2Proof.Machine
namespace Sys2Proof.Proofs

open Sys2Proof Sys2Proof.Machine

section
variable {s : State} {k tag : Nat} {h : Hart} {i : Instr} (arg : s.arg.nats = [k, tag]) (hk : s.hart? k = some h)
  (waits : h.run.wait = some (.data tag i))
include arg hk waits

/-- R93: the scalar loads that wait for data. -/
theorem scalarLoad_returns {rd rs1 : BitVec 5} {imm : BitVec 12} (form : i = .lb rd rs1 imm ∨ i = .lh rd rs1 imm ∨ i = .lw rd rs1 imm ∨
    i = .ld rd rs1 imm ∨ i = .lbu rd rs1 imm ∨ i = .lhu rd rs1 imm ∨ i = .lwu rd rs1 imm) : ReturnsAs s k h i .missDataReturn := by
  obtain rfl | rfl | rfl | rfl | rfl | rfl | rfl := form <;>
    exact missDataReturn_returns arg hk waits (fun _ => rfl) fun u g hc => ⟨_, onHart_of u g _ hc⟩

/-- R93: the lane accesses that wait for data. -/
theorem laneAccess_returns {m : LaneMem} {p : BitVec 2} (form : i = .lld m p ∨ i = .lst m p ∨ i = .lldt m p) :
    ReturnsAs s k h i .missDataReturn := by
  obtain rfl | rfl | rfl := form <;>
    exact missDataReturn_returns arg hk waits (fun _ => rfl) fun u g hc => ⟨_, onHart_of u g _ hc⟩

/-- R93: their immediate forms. -/
theorem laneAccessImm_returns {m : LaneMem} {imm : BitVec 16} (form : i = .lldImm m imm ∨ i = .lldtImm m imm) :
    ReturnsAs s k h i .missDataReturn := by
  obtain rfl | rfl := form <;>
    exact missDataReturn_returns arg hk waits (fun _ => rfl) fun u g hc => ⟨_, onHart_of u g _ hc⟩

end

/-- Settles O29: an answer performs the waiting instruction by the hart that has stopped waiting. -/
theorem waitsEnd : Obligations.WaitsEnd := by
  unfold Obligations.WaitsEnd
  refine ⟨fun s k tag h i arg hk => ⟨fun waits form => ?_, fun xd waits form => ?_⟩, fun s k tag h hk => ⟨fun arg waits returned => ?_,
    fun arg waits => ?_, fun xd at_ status waits => ?_⟩, fun s k tag h scope order arg hk waits echoes quiet rel wide _ => ?_⟩
  · obtain ⟨rd, rs1, imm, form⟩ | ⟨m, p, form⟩ | ⟨m, imm, form⟩ | ⟨m, op, o, sc, vs, rfl⟩ := form
    · exact scalarLoad_returns arg hk waits form
    · exact laneAccess_returns arg hk waits form
    · exact laneAccessImm_returns arg hk waits form
    · exact missDataReturn_returns arg hk waits (fun _ => rfl) fun u g hc => ⟨_, onHart_of u g _ hc⟩
  · subst form
    exact rflClaimAnswer_returns arg hk waits (fun _ => rfl) fun u g hc => ⟨_, onHart_of u g _ hc⟩
  · exact sfenceVmaComplete_ends arg hk waits returned
  · exact ⟨_, orderedStallEnd_ends arg hk waits, s.setHart_only k _⟩
  · intro ends _
    have wakes (v : Nat) {ev : Instr} (run : exec ev s = .next (s.endWaita k tag v)) : ends ev v := by
      obtain ⟨h', hart⟩ := endWaita_ends hk waits v
      exact ⟨_, h', run, hart⟩
    refine ⟨fun arg => wakes status ?_, fun arg => wakes 1 ?_⟩
    · change (.next (s.endWaita (s.arg.nats.getD 0 0) (s.arg.nats.getD 1 0) (s.arg.nats.getD 2 0)) : Out) = _
      rw [arg]
      rfl
    · change (.next (s.endWaita (s.arg.nats.getD 0 0) (s.arg.nats.getD 1 0) 1) : Out) = _
      rw [arg]
      rfl
  · obtain ⟨t, run, own, others, rest⟩ := releaseComplete_ends arg hk waits echoes quiet rel wide
    obtain ⟨kx, kl, kd, kr⟩ := ((h.unpark s.now).unmarked scope.toNat).retireTo_keeps
      (((h.unpark s.now).unmarked scope.toNat).nextPc 4)
    have retires := ((h.unpark s.now).unmarked scope.toNat).retireTo_retires (((h.unpark s.now).unmarked scope.toNat).nextPc 4)
    exact ⟨t, _, run, own, congrArg Run.wait kr, congrArg Run.busyUntil kr, retires.pc, kx, kl, kd, others, rest⟩

end Sys2Proof.Proofs
end

section
/-! Lane address faults (R76, R131, R140, R366). -/

namespace Sys2Proof.Machine

open Sys2Proof

/-! ## The lanes that fault (R140) -/

/-- R131, R140: an access that faults before any translation: misaligned, or at no place of its space. -/
def BadAccess (s : State) (h : Hart) (m : LaneMem) (n : Nat) (a : LaneAcc) : Prop := a.2.2.toNat % n ≠ 0 ∨
  (m.space ≠ 0 ∧ ∃ k, s.spotOf h m.space.toNat a.1 a.2.2.toNat n = .error k ∧ k ≠ 0)

theorem firstKind_ne_zero_iff (s : State) (h : Hart) (m : LaneMem) (n : Nat) (a : LaneAcc) :
    s.firstKind h m.space.toNat n a ≠ 0 ↔ BadAccess s h m n a := by
  have home : m.space.toNat = 0 ↔ m.space = 0 := by rw [← BitVec.toNat_inj]; rfl
  unfold State.firstKind BadAccess
  by_cases odd : a.2.2.toNat % n ≠ 0
  · rw [if_pos odd]
    exact ⟨fun _ => .inl odd, fun _ => by decide⟩
  · rw [if_neg odd]
    by_cases zero : m.space = 0
    · rw [if_pos (home.2 zero)]
      exact ⟨fun c => absurd rfl c, fun c => absurd zero (c.resolve_left odd).1⟩
    · rw [if_neg (mt home.1 zero)]
      cases place : s.spotOf h m.space.toNat a.1 a.2.2.toNat n with
      | ok p => exact ⟨fun c => absurd rfl c, fun c => by obtain ⟨-, k, hk, -⟩ := c.resolve_left odd; cases hk⟩
      | error k =>
        refine ⟨fun c => .inr ⟨zero, k, rfl, c⟩, fun c => ?_⟩
        obtain ⟨-, j, hj, ne⟩ := c.resolve_left odd
        cases hj
        exact ne

/-- R140: whether a lane has an access that faults. -/
def faulty (fs : List (LaneAcc × Nat)) (l : Nat) : Bool := fs.any fun f => f.1.1 == l && f.2 != 0

/-- R140: the faulting lanes in ascending order, each with the address that its accesses report. -/
theorem faultLanes_eq {fs : List (LaneAcc × Nat)} {addr : Nat → DWord} (reports : ∀ f ∈ fs, f.1.2.1 = addr f.1.1) :
    ∃ kind : Nat → Nat, faultLanes fs = (allLanes.filter (faulty fs)).map fun l => (l, addr l, kind l) := by
  refine ⟨fun l => match fs.filter (fun f => f.1.1 == l && f.2 != 0) with
    | [] => 0
    | f :: rest => rest.foldl (fun k g => min k g.2) f.2, ?_⟩
  rw [faultLanes, ← List.filterMap_eq_map, ← List.filterMap_eq_filter, List.filterMap_filterMap]
  refine List.filterMap_congr fun l _ => ?_
  cases bad : fs.filter (fun f => f.1.1 == l && f.2 != 0) with
  | nil =>
    have none : faulty fs l = false := List.any_eq_false.2 fun f hf => by simpa using List.filter_eq_nil_iff.1 bad f hf
    simp [Option.guard, none]
  | cons f rest =>
    have mem : f ∈ fs.filter (fun f => f.1.1 == l && f.2 != 0) := by rw [bad]; exact List.mem_cons_self
    obtain ⟨hf, on⟩ := List.mem_filter.1 mem
    have some : faulty fs l = true := List.any_eq_true.2 ⟨f, hf, on⟩
    have lane : f.1.1 = l := beq_iff_eq.1 (Bool.and_eq_true_iff.1 on).1
    simp [Option.guard, some, reports f hf, lane, bad]

/-- A lane set in a mask. -/
theorem getLsbD_setMask (v : Word) {i l : Nat} (hi : i < 32) : (setMask v l true).getLsbD i = (v.getLsbD i || decide (i = l)) := by
  have one (k : Nat) : (1 : Word).getLsbD k = decide (k = 0) := by simp
  rw [setMask, if_pos rfl, BitVec.getLsbD_or, BitVec.getLsbD_shiftLeft, one, decide_eq_true hi, Bool.true_and]
  congr 1
  by_cases e : i = l
  · simp [e]
  · by_cases lt : i < l
    · simp [lt, e]
    · simp [e, lt]
      omega

/-- R140: the mask of a list of faulting lanes. -/
theorem getLsbD_foldl_setMask {α : Type} (lane : α → Nat) (fs : List α) (v : Word) {i : Nat} (hi : i < 32) :
    (fs.foldl (fun m f => setMask m (lane f) true) v).getLsbD i = (v.getLsbD i || decide (i ∈ fs.map lane)) := by
  induction fs generalizing v with
  | nil => simp
  | cons f fs ih => rw [List.foldl_cons, ih, getLsbD_setMask v hi, List.map_cons, Bool.or_assoc]; simp [List.mem_cons]

/-! ## The trap (R76, R366) -/

/-- R140: hart `h` with its mask of faulting lanes, on its way into the trap. -/
def Hart.inLaneTrap (h : Hart) (M : Word) (t : LaneTrap) : Hart :=
  { h with dev := { h.dev with lfmask := M }, run := { h.run with entering := some t } }

theorem Hart.inLaneTrap_trapped (h : Hart) (M : Word) (t : LaneTrap) (c : Nat) (v : DWord) (now : Nat) :
    (h.inLaneTrap M t).trapped c v now = ({ h with dev := { h.dev with lfmask := M } } : Hart).trapped c v now := by
  change (if h.delegated h.csr.medeleg c then _ else _) = if h.delegated h.csr.medeleg c then _ else _
  split <;> rfl

/-- R366: without a fault table a lane fault is one trap of the hart with its mask. -/
theorem laneTrap_takes {s : State} {h : Hart} (hc : s.hart? s.cur = some h) (noTable : h.dev.lftab = 0) {cause : Nat}
    (own : toSupervisor h h.csr.medeleg cause ∨ h.priv = .M) (space : Nat) (wr : Bool) (fs : List (Nat × DWord × Nat)) :
    TakesTrap s (s.laneTrap h cause space wr fs) s.cur
      { h with dev := { h.dev with lfmask := fs.foldl (fun m f => setMask m f.1 true) (0 : Word) } } cause (fs.headD (0, 0, 0)).2.1 := by
  generalize hM : fs.foldl (fun m f => setMask m f.1 true) (0 : Word) = M
  have entering : s.modCur (fun k => k.inLaneTrap M ⟨cause, space, wr, fs⟩) = s.setCur (h.inLaneTrap M ⟨cause, space, wr, fs⟩) :=
    State.modCur_of s h _ hc
  have raised := State.raiseWith_eq (s := s.setCur (h.inLaneTrap M ⟨cause, space, wr, fs⟩)) (State.hart?_setCur _ _) own
    (fs.headD (0, 0, 0)).2.1 false
  have done : s.laneTrap h cause space wr fs =
      s.setCur (({ h with dev := { h.dev with lfmask := M } } : Hart).trapped cause (fs.headD (0, 0, 0)).2.1 s.now) := by
    rw [State.laneTrap, hM]
    change (s.modCur (fun k => k.inLaneTrap M ⟨cause, space, wr, fs⟩)).enterLaneTrap h ⟨cause, space, wr, fs⟩ = _
    rw [entering, State.enterLaneTrap, if_pos noTable]
    refine raised.trans ((s.setCur_setCur _ _).trans (congrArg s.setCur ?_))
    exact h.inLaneTrap_trapped M _ _ _ _
  rw [done]
  exact takesTrap_trapped s s.cur cause _

/-- R140: what an instruction with lane accesses `as` does where some of them fault. -/
def FaultsLanes (s : State) (h : Hart) (m : LaneMem) (i : Instr) (n : Nat) (as : List LaneAcc) : Prop :=
  ∀ (M : Word) (a0 : LaneAcc), (∀ acc, s.dataMatch h acc (as.map (fun a => (a.1, a.2.2))) n = none) →
    (∀ l, l < 32 → (M.getLsbD l = true ↔ ∃ a, (a ∈ as ∧ BadAccess s h m n a) ∧ a.1 = l)) → a0 ∈ as ∧ BadAccess s h m n a0 →
    (∀ a, a ∈ as ∧ BadAccess s h m n a → a0.1 ≤ a.1) →
    ∃ t, exec i s = .next t ∧ TakesTrap s t s.cur { h with dev := { h.dev with lfmask := M } } 25 a0.2.1

theorem faulty_iff {s : State} {h : Hart} {m : LaneMem} {n : Nat} {as : List LaneAcc} {l : Nat} :
    faulty (as.map fun a => (a, s.firstKind h m.space.toNat n a)) l = true ↔ ∃ a, (a ∈ as ∧ BadAccess s h m n a) ∧ a.1 = l := by
  simp only [faulty, List.any_map, List.any_eq_true, Function.comp_apply, Bool.and_eq_true, beq_iff_eq, bne_iff_ne,
    firstKind_ne_zero_iff, and_assoc]
  exact exists_congr fun a => and_congr_right fun _ => and_comm

section
variable {s : State} {h : Hart} (hc : s.hart? s.cur = some h) (noTable : h.dev.lftab = 0)
  (own : toSupervisor h h.csr.medeleg 25 ∨ h.priv = .M)
include hc noTable own

theorem faultsLanes_of {m : LaneMem} {i : Instr} {n : Nat} {as : List LaneAcc} {addr : Nat → DWord} (lanes : ∀ a ∈ as, a.1 < 32)
    (reports : ∀ a ∈ as, a.2.1 = addr a.1)
    (run : (∀ acc, s.dataMatch h acc (as.map (fun a => (a.1, a.2.2))) n = none) →
      ∃ wr reads useL1 f, exec i s = .next (s.checkLanes h m.space.toNat n wr reads useL1 as f)) : FaultsLanes s h m i n as := by
  intro M a0 unwatched mask bad least
  obtain ⟨wr, reads, useL1, f, exec⟩ := run unwatched
  obtain ⟨kind, faults⟩ := faultLanes_eq (fs := as.map fun a => (a, s.firstKind h m.space.toNat n a)) (addr := addr) (by
    rintro e he
    obtain ⟨a, ha, rfl⟩ := List.mem_map.1 he
    exact reports a ha)
  have inside : a0.1 ∈ allLanes := List.mem_range.2 (lanes a0 bad.1)
  obtain ⟨rest, first⟩ : ∃ rest, allLanes.filter (faulty (as.map fun a => (a, s.firstKind h m.space.toNat n a))) = a0.1 :: rest := by
    refine List.head?_eq_some_iff.1 ((List.head?_filter ..).trans (List.find?_range_eq_some.2 ⟨?_, inside, fun l hl => ?_⟩))
    · exact faulty_iff.2 ⟨a0, bad, rfl⟩
    · refine Bool.not_eq_eq_eq_not.2 (Bool.eq_false_iff.2 fun on => ?_)
      obtain ⟨a, ha, rfl⟩ := faulty_iff.1 on
      exact absurd (least a ha) (Nat.not_le.2 hl)
  have named : (faultLanes (as.map fun a => (a, s.firstKind h m.space.toNat n a))).foldl (fun m f => setMask m f.1 true) (0 : Word)
      = M := by
    refine BitVec.eq_of_getLsbD_eq fun l hl => Bool.eq_iff_iff.2 ?_
    rw [getLsbD_foldl_setMask Prod.fst _ _ hl, show (0 : Word).getLsbD l = false from BitVec.getLsbD_zero, Bool.false_or,
      decide_eq_true_iff, mask l hl, ← faulty_iff, faults,
      List.map_map]
    simp only [List.mem_map, List.mem_filter, Function.comp_apply, exists_eq_right]
    exact and_iff_right (List.mem_range.2 hl)
  have trap := laneTrap_takes hc noTable own m.space.toNat wr (faultLanes (as.map fun a => (a, s.firstKind h m.space.toNat n a)))
  have reported : ((faultLanes (as.map fun a => (a, s.firstKind h m.space.toNat n a))).headD (0, 0, 0)).2.1 = a0.2.1 := by
    rw [faults, first]
    exact (reports a0 bad.1).symm
  rw [named, reported] at trap
  refine ⟨_, exec, ?_⟩
  have some : (!(faultLanes (as.map fun a => (a, s.firstKind h m.space.toNat n a))).isEmpty) = true := by
    rw [faults, first]
    rfl
  rw [State.checkLanes, if_pos some]
  exact trap

end

/-! ## The lane accesses (R144 to R147) -/

theorem watchLanes_unwatched {s : State} {h : Hart} {as : List LaneAcc} {n : Nat}
    (unwatched : ∀ acc, s.dataMatch h acc (as.map (fun a => (a.1, a.2.2))) n = none) (space : Nat) (acc : BitVec 2)
    (f : State → State) : s.watchLanes h space acc as n f = f s := by
  unfold State.watchLanes
  split
  · rw [State.watching, unwatched]
  · rfl

theorem dwordMasked_false {s : State} {h : Hart} {m : LaneMem} (open_ : ¬ (m.size = 3 ∧ s.pfmask h 4 = true)) :
    dwordMasked m s h = false := by
  refine Bool.eq_false_iff.2 fun masked => open_ ?_
  obtain ⟨size, dword⟩ := Bool.and_eq_true_iff.1 masked
  exact ⟨beq_iff_eq.1 size, dword⟩

theorem mem_rowAccesses {h : Hart} {m : LaneMem} {imm : BitVec 16} {a : LaneAcc} (ha : a ∈ rowAccesses h m imm) :
    a.1 < 32 ∧ a.2.1 = h.getX (xOf m.xb) + sext64 imm + BitVec.ofNat 64 a.1 * h.getX (xOf m.vo) := by
  obtain ⟨row, hrow, ha⟩ := List.mem_flatten.1 ha
  obtain ⟨l, hl, rfl⟩ := List.mem_map.1 hrow
  obtain ⟨j, -, rfl⟩ := List.mem_map.1 ha
  exact ⟨((mem_activeLanes h _ l).1 hl).1, rfl⟩

theorem mem_laneAccs {h : Hart} {m : LaneMem} {imm : BitVec 16} {a : LaneAcc} (ha : a ∈ laneAccs h m imm) :
    a.1 < 32 ∧ a.2.1 = laneAddr h m imm a.1 := by
  obtain ⟨l, hl, rfl⟩ := List.mem_map.1 ha
  exact ⟨((mem_activeLanes h _ l).1 hl).1, rfl⟩

section
variable {s : State} {h : Hart} (hc : s.hart? s.cur = some h) (noTable : h.dev.lftab = 0)
  (own : toSupervisor h h.csr.medeleg 25 ∨ h.priv = .M)
include hc noTable own

theorem laneLoad_faults {m : LaneMem} (open_ : ¬ (m.size = 3 ∧ s.pfmask h 4 = true)) {i : Instr} {policy : Nat} (imm : BitVec 16)
    (run : exec i s = laneLoad i m policy imm s) : FaultsLanes s h m i (sizeBytes m) (laneAccs h m imm) := by
  refine faultsLanes_of hc noTable own (fun a ha => (mem_laneAccs ha).1) (fun a ha => (mem_laneAccs ha).2) fun unwatched => ?_
  have masked := Bool.eq_false_iff.1 (dwordMasked_false open_)
  exact ⟨false, true, _, _, run.trans ((onHart_of s h _ hc).trans (congrArg _ ((if_neg masked).trans
    (watchLanes_unwatched unwatched _ _ _))))⟩

theorem laneStore_faults {m : LaneMem} (open_ : ¬ (m.size = 3 ∧ s.pfmask h 4 = true)) {i : Instr} {policy : Nat} (imm : BitVec 16)
    (run : exec i s = laneStore i m policy imm s) : FaultsLanes s h m i (sizeBytes m) (laneAccs h m imm) := by
  refine faultsLanes_of hc noTable own (fun a ha => (mem_laneAccs ha).1) (fun a ha => (mem_laneAccs ha).2) fun unwatched => ?_
  have masked := Bool.eq_false_iff.1 (dwordMasked_false open_)
  exact ⟨true, false, _, _, run.trans ((onHart_of s h _ hc).trans (congrArg _ ((if_neg masked).trans
    (watchLanes_unwatched unwatched _ _ _))))⟩

theorem laneBlock_faults {m : LaneMem} (open_ : s.pfmask h 7 = false) {i : Instr} {policy : Nat} (imm : BitVec 16)
    (run : exec i s = laneBlock i m policy imm s) : FaultsLanes s h m i 4 (rowAccesses h m imm) := by
  refine faultsLanes_of hc noTable own (fun a ha => (mem_rowAccesses ha).1)
    (addr := fun l => h.getX (xOf m.xb) + sext64 imm + BitVec.ofNat 64 l * h.getX (xOf m.vo))
    (fun a ha => (mem_rowAccesses ha).2) fun unwatched => ?_
  exact ⟨false, true, _, _, run.trans ((onHart_of s h _ hc).trans (congrArg _ ((if_neg (Bool.eq_false_iff.1 open_)).trans
    (watchLanes_unwatched unwatched _ _ _))))⟩

theorem lamo_faults (unordered : s.ordered h = false) {m : LaneMem} (open_ : ¬ (m.size = 3 ∧ s.pfmask h 4 = true))
    (atomic : s.pfmask h 3 = false) (op : BitVec 4) (order scope : BitVec 3) (vs : BitVec 6) :
    FaultsLanes s h m (.lamo m op order scope vs) (sizeBytes m) (laneAccs h m 0) := by
  have run : exec (.lamo m op order scope vs) s = _ := onHart_of s h _ hc
  simp only [atomic, dwordMasked_false open_, Bool.or_self, Bool.false_eq_true, if_false, State.stalling, unordered, Bool.not_false,
    if_true, hc] at run
  refine faultsLanes_of hc noTable own (fun a ha => (mem_laneAccs ha).1) (fun a ha => (mem_laneAccs ha).2) fun unwatched => ?_
  exact ⟨true, true, _, _, run.trans (congrArg _ (watchLanes_unwatched unwatched _ _ _))⟩

end

end Sys2Proof.Machine

namespace Sys2Proof.Proofs

open Sys2Proof Sys2Proof.Machine

/-- Settles O36: the first kind of a fault is judged before anything is translated, and its lanes make one trap. -/
theorem laneAddressFaults : Obligations.LaneAddressFaults := by
  unfold Obligations.LaneAddressFaults
  intro s h m hc unordered noTable own faults each rows n
  refine ⟨fun open_ => ⟨fun pol imm => ⟨laneLoad_faults hc noTable own open_ 0 rfl, laneLoad_faults hc noTable own open_ imm rfl,
    laneStore_faults hc noTable own open_ 0 rfl, laneStore_faults hc noTable own open_ imm rfl⟩, fun atomic op order scope vs =>
    lamo_faults hc noTable own unordered open_ atomic op order scope vs⟩, fun open_ pol imm =>
    ⟨laneBlock_faults hc noTable own open_ 0 rfl, laneBlock_faults hc noTable own open_ imm rfl⟩⟩

end Sys2Proof.Proofs
end

section
/-! What the end of a launch leaves as it is, and the ends of launches (R70, R85, R88, R99, R116). -/

namespace Sys2Proof.Machine

open Sys2Proof

/-! ## Queues and launches, one reasoning rule each -/

theorem State.queue?_modQueue {s : State} {part qn : Nat} {q : Queue} (f : Queue → Queue) (hq : s.queue? part qn = some q) :
    (s.modQueue part qn f).queue? part qn = some (f q) := by
  rw [State.modQueue, hq]
  exact Map.find_put_same s.queues (queueKey part qn) (f q)

theorem State.modQueue_eq (s : State) (part qn : Nat) (f : Queue → Queue) :
    ∃ qs, s.modQueue part qn f = { s with queues := qs } := by
  unfold State.modQueue
  split
  · exact ⟨s.queues, rfl⟩
  · exact ⟨_, rfl⟩

theorem State.launch?_modLaunch (s : State) (l j : Nat) (f : Launch → Launch) :
    (s.modLaunch l f).launch? j = if j = l then (s.launch? l).map f else s.launch? j := by
  unfold State.modLaunch
  cases h : s.launch? l with
  | none => by_cases e : j = l <;> simp [e, h]
  | some L => exact State.launch?_setLaunch s l j (f L)

theorem State.modLaunch_eq (s : State) (l : Nat) (f : Launch → Launch) :
    ∃ ls, s.modLaunch l f = { s with launches := ls } := by
  unfold State.modLaunch
  split
  · exact ⟨s.launches, rfl⟩
  · exact ⟨_, rfl⟩

/-! ## The dispatcher's looks are events to come (R87, R88, R121) -/

theorem plan_plansOnly (s : State) (delay : Nat) (ev : Instr) (args : EventArgs) : PlansOnly s (s.plan delay ev args) := rfl

theorem kickDispatch_plansOnly (s : State) : PlansOnly s s.kickDispatch := rfl

theorem kickActivate_plansOnly (s : State) (part : Nat) : PlansOnly s (s.kickActivate part) := by
  refine .foldl (fun t e => ?_) s.queues s
  split <;> rfl

theorem kickVacancy_plansOnly (s : State) (part : Nat) : PlansOnly s (s.kickVacancy part) := by
  refine .foldl (fun t o => ?_) s.orders s
  split <;> rfl

theorem kickEngine_plansOnly (s : State) (cl : Nat) (matrix : Bool) : PlansOnly s (s.kickEngine cl matrix) := by
  unfold State.kickEngine
  split <;> rfl

theorem serveBank_plansOnly (s : State) (core bank : Nat) : PlansOnly s (s.serveBank core bank) := by
  unfold State.serveBank
  split <;> rfl

theorem noteStop_plansOnly (s : State) (l k : Nat) : PlansOnly s (s.noteStop l k) := by
  unfold State.noteStop
  split
  · rfl
  · split <;> rfl

theorem checkBarrier_plansOnly (s : State) (k l unit member : Nat) (cluster atOnce : Bool) :
    PlansOnly s (s.checkBarrier k l unit member cluster atOnce) := by
  unfold State.checkBarrier
  dsimp only
  generalize (if cluster then (s.cluster (clusterOf k)).bar.find? (fun b => b.is l unit 0)
    else (s.core (coreOf k)).bar.find? (fun b => b.is l unit member)) = found
  cases found with
  | none => rfl
  | some b =>
    dsimp only
    split
    · rfl
    · split <;> rfl

/-! ## What the winding down of a launch leaves -/

/-- What a launch is for its completion: its packet and place, its status, and the items that exited. -/
def Launch.outcome (L : Launch) : Packet × Nat × Nat × Bool × Nat × Nat := (L.pkt, L.part, L.q, L.ended, L.status, L.exited)

/-- Memory, queues and the outcome of every launch stand, and every hart outside `ks`. -/
structure Winds (ks : Nat → Prop) (s t : State) : Prop where
  mem : t.mem = s.mem
  queues : t.queues = s.queues
  launches : ∀ i, (t.launch? i).map Launch.outcome = (s.launch? i).map Launch.outcome
  harts : Map.sorted s.harts = true → Map.sorted t.harts = true ∧ ∀ j, ¬ ks j → t.hart? j = s.hart? j

theorem Winds.of_same {ks : Nat → Prop} {s t : State} (hm : t.mem = s.mem) (hq : t.queues = s.queues)
    (hl : t.launches = s.launches) (hh : t.harts = s.harts) : Winds ks s t :=
  ⟨hm, hq, fun i => by rw [State.launch?, hl]; rfl, fun hs => ⟨hh ▸ hs, fun j _ => by rw [State.hart?, hh]; rfl⟩⟩

theorem Winds.refl {ks : Nat → Prop} (s : State) : Winds ks s s := .of_same rfl rfl rfl rfl

theorem Winds.trans {ks : Nat → Prop} {s t u : State} (h1 : Winds ks s t) (h2 : Winds ks t u) : Winds ks s u :=
  ⟨h2.mem.trans h1.mem, h2.queues.trans h1.queues, fun i => (h2.launches i).trans (h1.launches i), fun hs =>
    have ⟨ht, same1⟩ := h1.harts hs
    have ⟨hu, same2⟩ := h2.harts ht
    ⟨hu, fun j hj => (same2 j hj).trans (same1 j hj)⟩⟩

theorem Winds.mono {ks ks' : Nat → Prop} {s t : State} (h : Winds ks s t) (sub : ∀ j, ks j → ks' j) : Winds ks' s t :=
  ⟨h.mem, h.queues, h.launches, fun hs => ⟨(h.harts hs).1, fun j hj => (h.harts hs).2 j (mt (sub j) hj)⟩⟩

theorem Winds.foldl {ks : Nat → Prop} {α : Type} {f : State → α → State} {Q : State → Prop}
    (keeps : ∀ t u, Winds ks t u → Q t → Q u) (hf : ∀ t a, Q t → Winds ks t (f t a)) (l : List α) (s : State) (h : Q s) :
    Winds ks s (l.foldl f s) := by
  induction l generalizing s with
  | nil => exact .refl s
  | cons a l ih => exact (hf s a h).trans (ih _ (keeps _ _ (hf s a h) h))

theorem PlansOnly.winds {s t : State} (h : PlansOnly s t) (ks : Nat → Prop) : Winds ks s t := by
  rw [h.eq_with]
  exact .of_same rfl rfl rfl rfl

theorem Winds.modLaunch (ks : Nat → Prop) (s : State) (l : Nat) {f : Launch → Launch} (hf : ∀ L, (f L).outcome = L.outcome) :
    Winds ks s (s.modLaunch l f) := by
  refine ⟨by simp, by simp, fun i => ?_, fun hs => ⟨by simpa using hs, fun j _ => by simp [State.hart?]⟩⟩
  rw [State.launch?_modLaunch]
  by_cases e : i = l
  · subst e
    rw [if_pos rfl, Option.map_map]
    exact congrArg (Option.map · (s.launch? i)) (funext hf)
  · rw [if_neg e]

theorem Winds.setHart (s : State) (k : Nat) (h : Hart) : Winds (· = k) s (s.setHart k h) :=
  ⟨rfl, rfl, fun _ => rfl, fun hs => ⟨Map.sorted_put _ _ _ hs, fun j hj => by rw [State.hart?_setHart, if_neg hj]⟩⟩

theorem Winds.delHart (s : State) (k : Nat) : Winds (· = k) s (s.delHart k) :=
  ⟨rfl, rfl, fun _ => rfl, fun hs => ⟨Map.sorted_del _ _ hs, fun _ hj => Map.find_del_other _ _ _ hs hj⟩⟩

theorem Winds.modHarts {ks : Nat → Prop} (s : State) {p : Nat → Hart → Bool} (f : Nat → Hart → Hart)
    (only : ∀ j h, p j h = true → ks j) : Winds ks s (s.modHarts p f) := by
  refine ⟨rfl, rfl, fun _ => rfl, fun hs => ⟨(Map.sorted_mapVal s.harts fun k h => if p k h then f k h else h).trans hs,
    fun j hj => ?_⟩⟩
  rw [State.hart?_modHarts]
  cases s.hart? j with
  | none => rfl
  | some h => exact congrArg some (if_neg (mt (only j h) hj))

/-! ## The jobs of a launch that ends (R117, R193) -/

theorem modJob_winds (ks : Nat → Prop) (s : State) (cl slot : Nat) (f : Job → Job) : Winds ks s (s.modJob cl slot f) :=
  .of_same rfl rfl rfl rfl

theorem kick_winds (ks : Nat → Prop) (s : State) (cl : Nat) : Winds ks s (s.kick cl) := by
  have trim : Winds ks s (s.trimBte cl) :=
    .foldl (Q := fun _ => True) (fun _ _ _ _ => trivial) (fun t e _ => modJob_winds ks t cl e.1 _) _ s trivial
  exact (trim.trans ((kickEngine_plansOnly _ cl false).winds ks)).trans ((kickEngine_plansOnly _ cl true).winds ks)

theorem keepFlags_winds (s : State) (cl slot : Nat) : Winds (fun _ => True) s (s.keepFlags cl slot) := by
  unfold State.keepFlags
  split
  · exact .refl s
  · split
    · exact .refl s
    · split
      · exact .modHarts s _ fun _ _ _ => trivial
      · split
        · exact .refl s
        · exact .modLaunch _ s _ fun _ => rfl

theorem enterJob_winds (s : State) (cl slot : Nat) (j : Job) : Winds (fun _ => True) s (s.enterJob cl slot j) := by
  refine (keepFlags_winds s cl slot).trans (Winds.trans ?_ (kick_winds _ _ cl))
  exact .of_same rfl rfl rfl rfl

theorem reinstateOne_winds (s : State) (cl : Nat) : Winds (fun _ => True) s (s.reinstateOne cl) := by
  unfold State.reinstateOne
  split
  · exact .refl s
  · split
    · refine Winds.trans (Winds.trans (Winds.trans ?_ (.mono (.setHart _ _ _) fun _ _ => trivial)) (enterJob_winds _ cl _ _))
        (.modHarts _ _ fun _ _ _ => trivial)
      exact .of_same rfl rfl rfl rfl
    · exact .refl s

theorem reinstateAll_winds (s : State) (cl n : Nat) : Winds (fun _ => True) s (s.reinstateAll cl n) := by
  induction n generalizing s with
  | zero => exact .refl s
  | succ n ih =>
    unfold State.reinstateAll
    split
    · exact (reinstateOne_winds s cl).trans (ih _)
    · exact .refl s

/-- No hart has a job to be taken up again. -/
def NoStoppedJobs (s : State) : Prop := Map.sorted s.harts = true ∧ ∀ k h, s.hart? k = some h → h.run.stoppedJobs = []

theorem NoStoppedJobs.of_winds {s t : State} (h : Winds (fun _ => False) s t) (hs : NoStoppedJobs s) : NoStoppedJobs t :=
  have ⟨sorted, same⟩ := h.harts hs.1
  ⟨sorted, fun k g hg => hs.2 k g (same k id ▸ hg)⟩

theorem reinstateAll_of_noStoppedJobs {s : State} (h : NoStoppedJobs s) (cl n : Nat) : s.reinstateAll cl n = s := by
  cases n with
  | zero => rfl
  | succ n =>
    refine if_neg fun c => ?_
    obtain ⟨e, he, hw⟩ := List.any_eq_true.1 c
    have none := h.2 e.1 e.2 (Map.find_of_mem h.1 he)
    simp [Hart.wantsEntries, none] at hw

/-- R117: what jobs that are stopped with their launch leave: all but what the taking up of other harts' jobs changes. -/
theorem dropJobs_winds_of {ks : Nat → Prop} {Q : State → Prop} (keeps : ∀ t u, Winds ks t u → Q t → Q u)
    (entries : ∀ t cl n, Q t → Winds ks t (t.reinstateAll cl n)) {s : State} (h : Q s) (l : Nat) : Winds ks s (s.dropJobs l) := by
  refine .foldl keeps (fun t cl ht => ?_) _ s h
  refine Winds.trans ?_ (kick_winds ks _ cl)
  have ended : ∀ f tag, Winds ks t ({ t.modCluster cl f with tag := tag } : State) := fun _ _ => .of_same rfl rfl rfl rfl
  exact (ended _ _).trans (entries _ cl 64 (keeps _ _ (ended _ _) ht))

theorem dropJobs_winds (s : State) (l : Nat) : Winds (fun _ => True) s (s.dropJobs l) :=
  dropJobs_winds_of (Q := fun _ => True) (fun _ _ _ _ => trivial) (fun t cl n _ => reinstateAll_winds t cl n) trivial l

theorem dropJobs_winds_idle {s : State} (h : NoStoppedJobs s) (l : Nat) : Winds (fun _ => False) s (s.dropJobs l) :=
  dropJobs_winds_of (fun _ _ => NoStoppedJobs.of_winds)
    (fun t cl n ht => by rw [reinstateAll_of_noStoppedJobs ht]; exact .refl t) h l

/-! ## The harts of a launch that ends (R98) -/

theorem voidChild_winds (ks : Nat → Prop) (s : State) (l index : Nat) : Winds ks s (s.voidChild l index) := by
  unfold State.voidChild
  have gone : ∀ t : State, Winds ks t ((t.modLaunch l fun L => L.childGone index).plan 0 .launchComplete { nats := [l] }) :=
    fun t => (Winds.modLaunch ks t l (f := (·.childGone index)) fun _ => rfl).trans ((plan_plansOnly _ _ _ _).winds ks)
  refine Winds.trans ?_ (gone _)
  split
  · exact .of_same rfl rfl rfl rfl
  · exact .refl s

theorem dropSpawn_winds (s : State) (k : Nat) (h : Hart) : Winds (· = k) s (s.dropSpawn k h) := by
  unfold State.dropSpawn
  split
  · exact .refl s
  · next l ls _ =>
    refine Winds.trans ?_ (.modHarts _ _ fun j _ c => beq_iff_eq.1 c)
    exact .foldl (Q := fun _ => True) (fun _ _ _ _ => trivial) (fun t (e : Nat × Nat) _ => voidChild_winds _ t l e.2) ls s trivial

theorem endWait_winds (s : State) (k : Nat) : Winds (· = k) s (s.endWait k) := by
  unfold State.endWait
  split
  · exact .refl s
  · next h _ =>
    have awake := (Winds.setHart s k (h.unpark s.now)).trans (dropSpawn_winds _ k h)
    dsimp only
    split
    · exact awake.trans (.of_same rfl rfl rfl rfl)
    · exact awake.trans (.of_same rfl rfl rfl rfl)
    · exact awake.trans (.of_same rfl rfl rfl rfl)
    · exact awake

theorem freeLocks_winds (ks : Nat → Prop) (s : State) (k : Nat) : Winds ks s (s.freeLocks k) := by
  refine .foldl (Q := fun _ => True) (fun _ _ _ _ => trivial) (fun t e _ => ?_) _ s trivial
  have freed : Winds ks t (t.modCore (coreOf k) (fun c => { c with locks := Map.del c.locks e.1 })) := .of_same rfl rfl rfl rfl
  exact freed.trans ((serveBank_plansOnly _ _ _).winds ks)

theorem jobFlagsToLaunch_winds (ks : Nat → Prop) (s : State) (cl l hidx : Nat) (late : List (Nat × BitVec 6)) :
    Winds ks s (s.jobFlagsToLaunch cl l hidx late) := by
  have kept : ∀ f, Winds ks s (s.modLaunch l fun L => { L with flags := L.flags ||| f }) := fun _ => .modLaunch ks s l fun _ => rfl
  have jobs : ∀ (t : State) (f : Cluster → Cluster), Winds ks t (t.modCluster cl f) := fun _ _ => .of_same rfl rfl rfl rfl
  unfold State.jobFlagsToLaunch
  exact (kept _).trans (jobs _ _)

theorem restCluster_winds (ks : Nat → Prop) (s : State) (cl : Nat) : Winds ks s (s.restCluster cl) := by
  unfold State.restCluster
  split
  · exact .refl s
  · exact .of_same rfl rfl rfl rfl

/-- R98: the package when a hart has left its slot, before its launch and its barriers learn of it. -/
def State.withoutHart (s : State) (k : Nat) : State :=
  (((s.endWait k).freeLocks k).modCore (coreOf k) (fun c => { c with tcc := c.tcc.filter (· != k) })).delHart k

theorem withoutHart_winds (s : State) (k : Nat) : Winds (· = k) s (s.withoutHart k) := by
  refine Winds.trans (Winds.trans (endWait_winds s k) (freeLocks_winds _ _ k)) (Winds.trans ?_ (.delHart _ k))
  exact .of_same rfl rfl rfl rfl

theorem hart?_withoutHart {s : State} (hs : Map.sorted s.harts = true) (k : Nat) : (s.withoutHart k).hart? k = none :=
  Map.find_del_same _ _ (((endWait_winds s k).trans (freeLocks_winds _ _ k)).harts hs).1

/-- R98: what a retirement changes, the slot once vacant, is no hart. -/
theorem retireHart_eq {s : State} {k : Nat} {h : Hart} (hk : s.hart? k = some h) :
    Winds (fun _ => False) (s.withoutHart k) (s.retireHart k) := by
  unfold State.retireHart
  rw [hk]
  dsimp only
  split
  · exact .refl _
  · next l _ =>
    refine Winds.trans (jobFlagsToLaunch_winds _ _ (clusterOf k) l h.role.hidx h.run.lateFlags)
      (Winds.trans ?_ (restCluster_winds _ _ (clusterOf k)))
    refine PlansOnly.winds ?_ _
    exact (((((checkBarrier_plansOnly _ _ _ _ _ _ _).trans (checkBarrier_plansOnly _ _ _ _ _ _ _)).trans
      (noteStop_plansOnly _ _ _)).trans (wakeOrdered_plansOnly _ _)).trans (checkComplete_plansOnly _ _)).trans
      (kickDispatch_plansOnly _)

theorem retireHart_winds (s : State) (k : Nat) : Winds (· = k) s (s.retireHart k) := by
  cases hk : s.hart? k with
  | none => simp only [State.retireHart, hk]; exact .refl s
  | some h => exact (withoutHart_winds s k).trans ((retireHart_eq hk).mono fun _ c => c.elim)

theorem hart?_retireHart {s : State} (hs : Map.sorted s.harts = true) (k : Nat) : (s.retireHart k).hart? k = none := by
  cases hk : s.hart? k with
  | none => simp only [State.retireHart, hk]
  | some h =>
    have ⟨_, same⟩ := (retireHart_eq hk).harts ((withoutHart_winds s k).harts hs).1
    rw [same k id, hart?_withoutHart hs]

/-- R98: harts that retire one after the other. -/
def State.retireAll (s : State) (es : List (Nat × Hart)) : State := es.foldl (fun t e => t.retireHart e.1) s

theorem retireAll_winds (es : List (Nat × Hart)) (s : State) : Winds (fun k => ∃ e ∈ es, e.1 = k) s (s.retireAll es) := by
  induction es generalizing s with
  | nil => exact .refl s
  | cons e es ih =>
    refine Winds.trans ((retireHart_winds s e.1).mono fun j hj => ⟨e, List.mem_cons_self, hj.symm⟩) ((ih _).mono ?_)
    rintro j ⟨f, hf, rfl⟩
    exact ⟨f, List.mem_cons_of_mem _ hf, rfl⟩

theorem hart?_retireAll (es : List (Nat × Hart)) {s : State} (hs : Map.sorted s.harts = true) (k : Nat) :
    (s.retireAll es).hart? k = if ∃ e ∈ es, e.1 = k then none else s.hart? k := by
  induction es generalizing s with
  | nil => exact (if_neg (by simp)).symm
  | cons e es ih =>
    have ⟨sorted, same⟩ := (retireHart_winds s e.1).harts hs
    refine (ih sorted).trans ?_
    by_cases he : e.1 = k
    · subst he
      rw [hart?_retireHart hs, ite_self, if_pos ⟨e, List.mem_cons_self, rfl⟩]
    · rw [same k fun c => he c.symm]
      simp only [List.exists_mem_cons_iff, he, false_or]

/-! ## The end of a launch (R85, R99) -/

/-- R99: a launch that has ended with a status has nothing to run or to resume. -/
def Launch.close (status : Nat) (L : Launch) : Launch :=
  { L with ended := true, status := status, items := [], children := [], requeued := [], saved := [], parked := false, stopping := false }

/-- R99, R117: the stores of a launch that ends are performed, its jobs stopped, its harts retired. -/
def State.stopLaunch (s : State) (l : Nat) : State :=
  ((s.drainLaunch l).dropJobs l).retireAll (((s.drainLaunch l).dropJobs l).hartsOf l)

/-- R103: the barriers of a launch that has ended are gone. -/
def State.unbar (s : State) (l : Nat) : State :=
  { s with
    cores := Map.mapVal s.cores (fun _ c => { c with bar := c.bar.filter (fun b => b.launch != l) })
    clusters := Map.mapVal s.clusters (fun _ c => { c with bar := c.bar.filter (fun b => b.launch != l) }) }

/-- R82: a launch that has ended leaves its queue. -/
def State.dequeue (s : State) (part qn l : Nat) : State :=
  s.modQueue part qn (fun q => { q with launches := q.launches.filter (· != l) })

/-- R85, R99: beyond its stops and its completion word, the end of a launch only leaves its queue and plans what it lets go on. -/
theorem endLaunch_plans {s : State} {l status : Nat} {L : Launch} (hl : s.launch? l = some L) (he : L.ended = false) :
    PlansOnly (((((s.modLaunch l (Launch.close status)).stopLaunch l).unbar l).writeWord l).dequeue L.part L.q l)
      (s.endLaunch l status) := by
  unfold State.endLaunch
  rw [hl]
  dsimp only
  rw [he, if_neg Bool.false_ne_true]
  refine PlansOnly.trans ?_ (kickVacancy_plansOnly _ L.part)
  refine PlansOnly.trans ?_ (kickDispatch_plansOnly _)
  refine PlansOnly.trans (.foldl (fun t e => ?_) _ _) (kickActivate_plansOnly _ L.part)
  split
  · exact checkComplete_plansOnly t e.1
  · rfl

theorem drainLaunch_of_none {s : State} {l : Nat} (h : ∀ c ∈ s.cores, ∀ f ∈ c.2.flight, f.launch ≠ some l) :
    s.drainLaunch l = s := by
  have skip : ∀ (cs : List (Nat × Core)), (∀ c ∈ cs, ∀ f ∈ c.2.flight, f.launch ≠ some l) → ∀ t : State,
      cs.foldl (fun t e => if e.2.flight.any (fun f => !f.held && f.launch == some l) then t.drainCore e.1 else t) t = t := by
    intro cs
    induction cs with
    | nil => exact fun _ _ => rfl
    | cons c cs ih =>
      intro hc t
      have none : ¬ c.2.flight.any (fun f => !f.held && f.launch == some l) = true := by
        intro some
        obtain ⟨f, hf, mine⟩ := List.any_eq_true.1 some
        exact hc c List.mem_cons_self f hf (beq_iff_eq.1 (Bool.and_eq_true_iff.1 mine).2)
      rw [List.foldl_cons, if_neg none]
      exact ih (fun c' hc' => hc c' (List.mem_cons_of_mem _ hc')) t
  exact skip s.cores h s

theorem writeWord_winds {s : State} {l : Nat} {L : Launch} (ks : Nat → Prop) (hl : s.launch? l = some L) (hc : L.pkt.cmpl = 0)
    (hn : L.pkt.notify = false) : Winds ks s (s.writeWord l) := by
  simp only [State.writeWord, hl, hc, if_true]
  split
  · exact .refl s
  · simp only [State.announce, hl, hn]
    exact .modLaunch ks s l fun _ => rfl

theorem Winds.launch? {ks : Nat → Prop} {s t : State} (h : Winds ks s t) {l : Nat} {L : Launch} (hl : s.launch? l = some L) :
    ∃ M, t.launch? l = some M ∧ M.outcome = L.outcome := by
  have same := h.launches l
  rw [hl] at same
  exact Option.map_eq_some_iff.1 same

theorem closed_launch? {s : State} {l : Nat} {L : Launch} (status : Nat) (hl : s.launch? l = some L) :
    (s.modLaunch l (Launch.close status)).launch? l = some (L.close status) := by
  rw [State.launch?_modLaunch, if_pos rfl, hl]; rfl

/-- R85, R99: the end of a launch that writes no completion word: what its stops leave stands, and its queue loses it. -/
theorem endLaunch_winds {s : State} {l status : Nat} {L : Launch} {ks : Nat → Prop} (hl : s.launch? l = some L)
    (he : L.ended = false) (hc : L.pkt.cmpl = 0) (hn : L.pkt.notify = false)
    (stops : Winds ks (s.modLaunch l (Launch.close status)) ((s.modLaunch l (Launch.close status)).stopLaunch l)) :
    ∃ u, Winds (fun _ => False) ((s.modLaunch l (Launch.close status)).stopLaunch l) u ∧
      PlansOnly (u.dequeue L.part L.q l) (s.endLaunch l status) := by
  have unbarred (ks : Nat → Prop) (t : State) : Winds ks t (t.unbar l) := .of_same rfl rfl rfl rfl
  obtain ⟨M, hM, same⟩ := (stops.trans (unbarred ks _)).launch? (closed_launch? status hl)
  have pkt : M.pkt = L.pkt := congrArg Prod.fst same
  exact ⟨_, (unbarred _ _).trans (writeWord_winds _ hM (pkt ▸ hc) (pkt ▸ hn)), endLaunch_plans hl he⟩

/-- R98, R117: what the stops of a launch without a store on its way leave. -/
theorem stopLaunch_winds {s : State} {l : Nat} (h : ∀ c ∈ s.cores, ∀ f ∈ c.2.flight, f.launch ≠ some l) :
    Winds (fun _ => True) s (s.stopLaunch l) := by
  unfold State.stopLaunch
  rw [drainLaunch_of_none h]
  exact (dropJobs_winds s l).trans ((retireAll_winds _ _).mono fun _ _ => trivial)

theorem hart?_stopLaunch {s : State} {l k : Nat} {g : Hart} (idle : NoStoppedJobs s)
    (h : ∀ c ∈ s.cores, ∀ f ∈ c.2.flight, f.launch ≠ some l) (hk : s.hart? k = some g) :
    (s.stopLaunch l).hart? k = if g.role.launch = some l then none else some g := by
  obtain ⟨sorted, same⟩ := (dropJobs_winds_idle idle l).harts idle.1
  have there : (s.dropJobs l).hart? k = some g := (same k id).trans hk
  have retires : (∃ e ∈ (s.dropJobs l).hartsOf l, e.1 = k) ↔ g.role.launch = some l := by
    refine ⟨?_, fun mine => ⟨(k, g), List.mem_filter.2 ⟨Map.mem_of_find there, beq_iff_eq.2 mine⟩, rfl⟩⟩
    rintro ⟨⟨j, g'⟩, he, rfl⟩
    obtain ⟨listed, mine⟩ := List.mem_filter.1 he
    have : g' = g := Option.some.inj ((Map.find_of_mem sorted listed).symm.trans there)
    exact this ▸ beq_iff_eq.1 mine
  unfold State.stopLaunch
  rw [drainLaunch_of_none h, hart?_retireAll _ sorted, there]
  exact if_congr retires rfl rfl

theorem dequeue_queues {s t : State} (h : t.queues = s.queues) (part qn l : Nat) :
    (t.dequeue part qn l).queues = (s.dequeue part qn l).queues := by
  unfold State.dequeue State.modQueue State.queue?
  rw [h]
  split
  · exact h
  · rfl

/-- A launch that has ended without a completion word: its queue is without it, memory stands, its harts are gone. -/
structure EndsSilently (s t : State) (l status : Nat) (L : Launch) : Prop where
  launch : ∃ M, t.launch? l = some M ∧ M.ended = true ∧ M.status = status ∧ M.exited = L.exited
  mem : t.mem = s.mem
  queues : t.queues = (s.dequeue L.part L.q l).queues
  harts : NoStoppedJobs s → ∀ k g, s.hart? k = some g → t.hart? k = if g.role.launch = some l then none else some g

/-- R85, R99: the end of a launch without a completion word, none of whose stores is on its way. -/
theorem endLaunch_endsSilently {s : State} {l : Nat} {L : Launch} (status : Nat) (hl : s.launch? l = some L) (he : L.ended = false)
    (hc : L.pkt.cmpl = 0) (hn : L.pkt.notify = false) (quiet : ∀ c ∈ s.cores, ∀ f ∈ c.2.flight, f.launch ≠ some l) :
    EndsSilently s (s.endLaunch l status) l status L := by
  have closed := closed_launch? status hl
  have plans (ks : Nat → Prop) := endLaunch_winds (status := status) (ks := ks) hl he hc hn
  obtain ⟨ls, hls⟩ := State.modLaunch_eq s l (Launch.close status)
  rw [hls] at closed plans
  have stops := stopLaunch_winds (s := { s with launches := ls }) quiet
  obtain ⟨u, wound, plans⟩ := plans _ stops
  have all := stops.trans (wound.mono fun _ c => c.elim)
  obtain ⟨qs, hqs⟩ := State.modQueue_eq u L.part L.q (fun q => { q with launches := q.launches.filter (· != l) })
  have frame : (s.endLaunch l status).launches = u.launches ∧ (s.endLaunch l status).harts = u.harts ∧
      (s.endLaunch l status).mem = u.mem ∧ (s.endLaunch l status).queues = (u.dequeue L.part L.q l).queues := by
    rw [plans.eq_with, State.dequeue, hqs]
    exact ⟨rfl, rfl, rfl, rfl⟩
  obtain ⟨launches, harts, mem, queues⟩ := frame
  refine ⟨?_, mem.trans all.mem, queues.trans (dequeue_queues (s := s) all.queues _ _ _), fun idle k g hk => ?_⟩
  · obtain ⟨M, hM, same⟩ := all.launch? closed
    simp only [Launch.outcome, Launch.close, Prod.mk.injEq] at same
    obtain ⟨-, -, -, ended, stat, exited⟩ := same
    exact ⟨M, by rw [State.launch?, launches]; exact hM, ended, stat, exited⟩
  · rw [State.hart?, harts]
    exact ((wound.harts (stops.harts idle.1).1).2 k id).trans (hart?_stopLaunch (s := { s with launches := ls }) idle quiet hk)

/-! ## LAUNCH_FAIL, QUEUE_AGING and PROGRESS_INTERVAL (R70, R88, R99, R116) -/

/-- R70, R99: a launch that fails ends with status 2 and its harts retire. -/
theorem launchFail_ends {s : State} {l : Nat} {L : Launch} (ha : s.arg.nats = [l]) (hok : s.arg.ok = false)
    (hl : s.launch? l = some L) (he : L.ended = false) (hc : L.pkt.cmpl = 0) (hn : L.pkt.notify = false) (idle : NoStoppedJobs s)
    (quiet : ∀ c ∈ s.cores, c.2.flight = []) :
    ∃ t M, exec .launchFail s = .next t ∧ t.launch? l = some M ∧ M.ended = true ∧ M.status = 2 ∧ M.exited = L.exited ∧
      (∀ k g, s.hart? k = some g → t.hart? k = if g.role.launch = some l then none else some g) := by
  have at0 : s.arg.nat 0 = l := by rw [EventArgs.nat, ha, List.getD_cons_zero]
  have run : exec .launchFail s = .next (s.endLaunch l 2) := by
    change execLaunchFail s = _
    simp only [execLaunchFail, at0, hl, he, hok]
    rfl
  obtain ⟨⟨M, hM, ended, status, exited⟩, -, -, harts⟩ := endLaunch_endsSilently 2 hl he hc hn fun c hc f hf => by
    rw [quiet c hc] at hf
    cases hf
  exact ⟨_, M, run, hM, ended, status, exited, harts idle⟩

/-- R88: a queue that has waited for a unit long enough rises one level. -/
theorem queueAging_rises {s : State} {part qn c : Nat} {q : Queue} (ha : s.arg.nats = [part, qn]) (hq : s.queue? part qn = some q)
    (hc : q.agingFrom = some c) (low : q.level < 7) (due : c + 2 ^ 20 * (q.level + 1) ≤ s.now) (head : (s.headOf q).isSome = true) :
    ∃ t, exec .queueAging s = .next t ∧ t.queue? part qn = some { q with level := q.level + 1 } ∧
      { t with queues := s.queues, schedule := s.schedule, latencies := s.latencies } = s := by
  have at0 : s.arg.nat 0 = part := by rw [EventArgs.nat, ha, List.getD_cons_zero]
  have at1 : s.arg.nat 1 = qn := by rw [EventArgs.nat, ha, List.getD_cons_succ, List.getD_cons_zero]
  have rises : State.modQueue s part qn (fun w => { w with level := w.level + 1 }) =
      { s with queues := Map.put s.queues (queueKey part qn) { q with level := q.level + 1 } } := by
    rw [State.modQueue, hq]
  have run : exec .queueAging s = .next ((s.modQueue part qn fun w => { w with level := w.level + 1 }).plan (2 ^ 20) .queueAging
      { nats := [part, qn] }).kickDispatch := by
    change execQueueAging s = _
    simp only [execQueueAging, at0, at1, hq, hc]
    rw [if_pos ⟨low, due, head⟩]
  refine ⟨_, run, State.queue?_modQueue (fun w => { w with level := w.level + 1 }) hq, ?_⟩
  rw [rises]
  rfl

/-- R116: a launch's rate is judged again at an interval's end. -/
theorem progressInterval_rates {s : State} {l : Nat} {L : Launch} (ha : s.arg.nats = [l]) (hl : s.launch? l = some L)
    (he : L.ended = false) (hact : L.activated = true) :
    ∃ t, exec .progressInterval s = .next t ∧
      t.launch? l = some { L with rate := (L.rate + (L.exited - L.lastExited)) / 2, lastExited := L.exited } ∧
      { t with launches := s.launches, schedule := s.schedule } = s := by
  have at0 : s.arg.nat 0 = l := by rw [EventArgs.nat, ha, List.getD_cons_zero]
  have run : exec .progressInterval s = .next ((s.setLaunch l { L with
      rate := (L.rate + (L.exited - L.lastExited)) / 2, lastExited := L.exited }).plan interval .progressInterval { nats := [l] }) := by
    change execProgressInterval s = _
    simp only [execProgressInterval, at0, hl, he, hact]
    rfl
  exact ⟨_, run, Map.find_put_same s.launches l _, rfl⟩

/-! ## LAUNCH_COMPLETE (R85, R99) -/

/-- R302: without a translation, a dispatcher's address is its GPA. -/
theorem dispGpa_bare (s : State) (part : Nat) {satp va : DWord} (bare : satpMode satp = 0) (hva : va.toNat < 2 ^ 52) :
    s.dispGpa part satp va = .ok va.toNat s := by
  have high : bits va.toNat 63 52 = 0 := by
    simp only [bits, Nat.div_eq_of_lt hva, Nat.zero_mod]
  simp [State.dispGpa, bare, canonical, high]

theorem dispWrite_stands {s : State} {part : Nat} {satp va : DWord} {bs : List Byte} (bare : satpMode satp = 0)
    (hva : va.toNat < 2 ^ 52) (hs : s.standsAtHome part va.toNat) :
    s.dispWrite part satp va bs = .ok () (s.writeHome part va.toNat bs none) := by
  simp only [State.dispWrite, dispGpa_bare s part bare hva, Disp.bind, State.dispWriteGpa, atHome_stands hs]

theorem WritesBytes.of_mem {s s' t t' : State} {part gpa : Nat} {bs : List Byte} (h : WritesBytes s t part gpa bs)
    (hs : s.mem = s'.mem) (ht : t'.mem = t.mem) : WritesBytes s' t' part gpa bs := by
  have byte (u v : State) (e : u.mem = v.mem) (q a : Nat) : u.byteAt q a = v.byteAt q a := by
    simp only [State.byteAt, State.llcData, e]
  refine ⟨fun q a ha => ?_, by rw [ht, ← hs]; exact h.rest⟩
  rw [byte t' t ht, ← byte s s' hs]
  exact h.bytes q a ha

/-- R85, R99: the completion word of a launch, none of whose stores is held, where its line stands. -/
theorem writeWord_stands {s : State} {l : Nat} {L : Launch} (hl : s.launch? l = some L) (hd : L.notifyDone = false)
    (hn : L.pkt.notify = false) (free : s.launchHeld l = false) (bare : satpMode (s.launchSatp L) = 0) (h0 : L.pkt.cmpl ≠ 0)
    (ha : L.pkt.cmpl.toNat < 2 ^ 52) (align : L.pkt.cmpl.toNat % 8 = 0) (hs : s.standsAtHome L.part L.pkt.cmpl.toNat) :
    (s.writeWord l).launch? l = some { L with notifyDone := true } ∧
      WritesBytes s (s.writeWord l) L.part L.pkt.cmpl.toNat (bytesOfNat L.word 8) := by
  have line : L.pkt.cmpl.toNat % 128 + (bytesOfNat L.word 8).length ≤ 128 := by
    rw [bytesOfNat_length]; omega
  have written := writeHome_stands none hs ha line
  have launches : (s.writeHome L.part L.pkt.cmpl.toNat (bytesOfNat L.word 8) none).launches = s.launches :=
    (congrArg State.launches written.rest :)
  have there : (s.writeHome L.part L.pkt.cmpl.toNat (bytesOfNat L.word 8) none).launch? l = some L := by
    rw [State.launch?, launches]; exact hl
  have word : s.writeWord l = (s.writeHome L.part L.pkt.cmpl.toNat (bytesOfNat L.word 8) none).modLaunch l
      (fun M => { M with notifyDone := true }) := by
    simp only [State.writeWord, hl, hd, free, h0, dispWrite_stands bare ha hs, State.announce, there, hn]
    rfl
  obtain ⟨ls, hls⟩ := State.modLaunch_eq (s.writeHome L.part L.pkt.cmpl.toNat (bytesOfNat L.word 8) none) l
    (fun M => { M with notifyDone := true })
  refine ⟨by rw [word, State.launch?_modLaunch, if_pos rfl, there]; rfl, ?_⟩
  rw [word, hls]
  exact ⟨written.bytes.bytes, written.bytes.rest⟩

/-- R85, R99: a launch whose work is done has no hart, no job and no held store. -/
structure WorkOver (s : State) (l : Nat) : Prop where
  harts : s.hartsOf l = []
  jobs : ∀ c ∈ s.clusters, ∀ j ∈ c.2.jobs, (j.2.live && j.2.launch == some l) = false
  held : s.launchHeld l = false

theorem workOver_of_launchDone {s : State} {l : Nat} {L : Launch} (h : s.launchDone l L = true) : WorkOver s l := by
  simp only [State.launchDone, Bool.and_eq_true, Bool.not_eq_true'] at h
  obtain ⟨⟨⟨⟨-, harts⟩, jobs⟩, held⟩, -⟩ := h
  refine ⟨List.filter_eq_nil_iff.2 fun e he => ?_, fun c hc j hj => ?_, held⟩
  · exact List.any_eq_false.1 harts e he
  · have ended := List.any_eq_false.1 jobs c hc
    rw [Bool.not_eq_true] at ended
    have idle := List.any_eq_false.1 ended j hj
    rw [Bool.not_eq_true, Bool.and_assoc, Bool.and_comm] at idle
    exact idle

/-- R99: a launch whose work is done has nothing to stop. -/
theorem stopLaunch_of_workOver {s : State} {l : Nat} (done : WorkOver s l)
    (quiet : ∀ c ∈ s.cores, ∀ f ∈ c.2.flight, f.launch ≠ some l) : s.stopLaunch l = s := by
  have jobs : s.clusters.filter (fun c => c.2.jobs.any (fun j => j.2.live && j.2.launch == some l)) = [] := by
    refine List.filter_eq_nil_iff.2 fun c hc some => ?_
    obtain ⟨j, hj, mine⟩ := List.any_eq_true.1 some
    exact Bool.false_ne_true ((done.jobs c hc j hj).symm.trans mine)
  have dropped : s.dropJobs l = s := by
    unfold State.dropJobs
    rw [jobs]
    rfl
  rw [State.stopLaunch, drainLaunch_of_none quiet, dropped, done.harts]
  rfl

/-- R85, R99: a launch whose work is done writes its completion word and ends. -/
theorem launchComplete_ends {s : State} {l : Nat} {L : Launch} (ha : s.arg.nats = [l]) (hl : s.launch? l = some L)
    (he : L.ended = false) (hd : L.notifyDone = false) (open_ : L.pkt.open_ = false) (hn : L.pkt.notify = false)
    (hdone : s.launchDone l L = true) (quiet : ∀ c ∈ s.cores, c.2.flight = []) (bare : s.launchSatp L = 0)
    (pos : 0 < L.pkt.cmpl.toNat) (hlt : L.pkt.cmpl.toNat < 2 ^ 52) (align : L.pkt.cmpl.toNat % 8 = 0)
    (hs : s.standsAtHome L.part L.pkt.cmpl.toNat) :
    ∃ t M, exec .launchComplete s = .next t ∧ t.launch? l = some M ∧ M.ended = true ∧ M.status = 0 ∧ M.notifyDone = true ∧
      WritesBytes s t L.part L.pkt.cmpl.toNat
        (bytesOfNat (L.exited % 2 ^ 48 + L.flags.toNat * 2 ^ 56 + 2 ^ 63) 8) := by
  have at0 : s.arg.nat 0 = l := by rw [EventArgs.nat, ha, List.getD_cons_zero]
  have run : exec .launchComplete s = .next (s.endLaunch l 0) := by
    change execLaunchComplete s = _
    simp only [execLaunchComplete, at0, hl, he, hdone, State.completeLaunch, open_]
    rfl
  obtain ⟨ls, hls⟩ := State.modLaunch_eq s l (Launch.close 0)
  have closed := closed_launch? 0 hl
  have plans := endLaunch_plans (status := 0) hl he
  have done := workOver_of_launchDone hdone
  rw [hls] at closed plans
  have stopped : ({ s with launches := ls } : State).stopLaunch l = { s with launches := ls } := by
    refine stopLaunch_of_workOver ⟨done.harts, done.jobs, done.held⟩ fun c hc f hf => ?_
    rw [quiet c hc] at hf
    cases hf
  rw [stopped] at plans
  generalize hu : ({ s with launches := ls } : State).unbar l = u at plans
  have free : u.launchHeld l = false := by
    refine List.any_eq_false.2 fun c hc => ?_
    rw [← hu] at hc
    obtain ⟨⟨k, c'⟩, hc', rfl⟩ := List.mem_map.1 hc
    dsimp only
    rw [quiet (k, c') hc']
    exact Bool.false_ne_true
  have there : u.launch? l = some (L.close 0) := by rw [← hu]; exact closed
  have satp : u.launchSatp (L.close 0) = 0 := by rw [← hu]; exact bare
  have stands : u.standsAtHome L.part L.pkt.cmpl.toNat := by rw [← hu]; exact hs
  have nonzero : L.pkt.cmpl ≠ 0 := fun h => by rw [h] at pos; exact absurd pos (by decide)
  obtain ⟨announced, written⟩ := writeWord_stands there hd hn free (by rw [satp]; rfl) nonzero hlt align stands
  obtain ⟨qs, hqs⟩ := State.modQueue_eq (u.writeWord l) L.part L.q (fun q => { q with launches := q.launches.filter (· != l) })
  have frame : (s.endLaunch l 0).launches = (u.writeWord l).launches ∧ (s.endLaunch l 0).mem = (u.writeWord l).mem := by
    rw [plans.eq_with, State.dequeue, hqs]
    exact ⟨rfl, rfl⟩
  obtain ⟨launches, mem⟩ := frame
  refine ⟨_, _, run, by rw [State.launch?, launches]; exact announced, rfl, rfl, rfl, ?_⟩
  have word : (L.close 0).word = L.exited % 2 ^ 48 + L.flags.toNat * 2 ^ 56 + 2 ^ 63 := by
    simp [Launch.word, Launch.close]
  rw [word] at written
  refine written.of_mem ?_ mem
  rw [← hu]; rfl

end Sys2Proof.Machine

namespace Sys2Proof.Proofs

open Sys2Proof Sys2Proof.Machine

/-- Settles O48: a launch ends by its stops, which keep memory, queues and every launch's outcome, then by its completion word;
the interval's rate and a queue's level are single updates. -/
theorem launchesEnd : Obligations.LaunchesEnd := by
  refine ⟨?_, ?_, ?_, ?_⟩
  · intro s l L ha hl he hd open_ notify done quiet bare a pos hlt align hs word
    exact launchComplete_ends ha hl he hd open_ notify done quiet bare pos hlt align hs
  · intro s l L ha hok hl he _ hc hn sorted quiet stopped
    exact launchFail_ends ha hok hl he hc hn ⟨sorted, fun k g hk => stopped (k, g) (Map.mem_of_find hk)⟩ quiet
  · intro s part qn c q ha hq hc low due head
    exact queueAging_rises ha hq hc low due head
  · intro s l L ha hl he hact
    exact progressInterval_rates ha hl he hact

end Sys2Proof.Proofs
end

section
/-! Packets are read, checked and consumed, and launches activate (R81 to R87, R96). -/

namespace Sys2Proof.Machine

open Sys2Proof

/-! ## A dispatcher's reads of standing lines -/

/-- R6: addresses of one line stand at home together. -/
theorem standsAtHome_of_same_line {s : State} {part a b : Nat} (line : b / 128 = a / 128) (hs : s.standsAtHome part a) :
    s.standsAtHome part b := by
  obtain ⟨p, r, l, hp, hr, hcls, accepts, hl, fine⟩ := hs
  refine ⟨p, r, l, hp, ?_, hcls, ?_, by rw [lineKey, line]; exact hl, fine⟩
  · rw [Part.range?, show b / 2 ^ 21 = a / 2 ^ 21 by omega]
    exact hr
  · rw [← homeOf_line, line, homeOf_line]
    exact accepts

/-- The writes on their way of every core are the same, core by core. -/
def SameFlights (s t : State) : Prop := t.cores.map (fun c => c.2.flight) = s.cores.map (fun c => c.2.flight)

theorem SameFlights.trans {s t u : State} (h1 : SameFlights s t) (h2 : SameFlights t u) : SameFlights s u := Eq.trans h2 h1

theorem SameFlights.of_cores {s t : State} (h : t.cores = s.cores) : SameFlights s t := by rw [SameFlights, h]

theorem SameFlights.mapVal (s : State) {f : Nat → Core → Core} (h : ∀ k c, (f k c).flight = c.flight) :
    SameFlights s { s with cores := Map.mapVal s.cores f } := by
  refine List.map_map.trans (List.map_congr_left fun c _ => ?_)
  exact h c.1 c.2

theorem SameFlights.forall_mem {s t : State} (h : SameFlights s t) {p : Flight → Prop}
    (hs : ∀ c ∈ s.cores, ∀ f ∈ c.2.flight, p f) : ∀ c ∈ t.cores, ∀ f ∈ c.2.flight, p f := by
  intro c hc
  have there : c.2.flight ∈ s.cores.map (fun c => c.2.flight) := h ▸ List.mem_map_of_mem (f := fun c => c.2.flight) hc
  obtain ⟨c', hc', same⟩ := List.mem_map.1 there
  exact same ▸ hs c' hc'

theorem cleanHdc_sameFlights (s : State) (part gpa : Nat) (but : Option Nat) : SameFlights s (s.cleanHdc part gpa but) := by
  unfold State.cleanHdc
  split
  · refine .mapVal s fun k c => ?_
    split <;> rfl
  · exact rfl

/-- What a dispatcher's reads move: copies in caches of data. -/
structure ReadsOnly (s t : State) : Prop where
  caches : CachesMoved s t
  flights : SameFlights s t

theorem ReadsOnly.trans {s t u : State} (h1 : ReadsOnly s t) (h2 : ReadsOnly t u) : ReadsOnly s u :=
  ⟨h1.caches.trans h2.caches, h1.flights.trans h2.flights⟩

theorem ReadsOnly.eq_with {s t : State} (h : ReadsOnly s t) : t = { s with cores := t.cores } :=
  (congrArg (fun v : State => { v with cores := t.cores }) h.caches.rest :)

theorem ReadsOnly.stands {s t : State} (h : ReadsOnly s t) {part gpa : Nat} (hs : s.standsAtHome part gpa) : t.standsAtHome part gpa := by
  rw [h.eq_with]; exact hs

theorem numAt_of_mem {s t : State} (h : t.mem = s.mem) (part gpa n : Nat) : t.numAt part gpa n = s.numAt part gpa n := by
  induction n generalizing gpa with
  | zero => rfl
  | succ n ih => rw [State.numAt, State.numAt, ih, State.byteAt, State.byteAt, State.llcData, State.llcData, h]

theorem ReadsOnly.numAt {s t : State} (h : ReadsOnly s t) (part gpa n : Nat) : t.numAt part gpa n = s.numAt part gpa n :=
  numAt_of_mem (by rw [h.eq_with]) part gpa n

/-- R82: a dispatcher's read within a standing line. -/
theorem dispReadGpa_stands {s : State} {part gpa n : Nat} (hs : s.standsAtHome part gpa) (line : gpa % 128 + n ≤ 128) :
    ∃ t, s.dispReadGpa part gpa n = .ok (s.numAt part gpa n) t ∧ ReadsOnly s t := by
  refine ⟨s.cleanHdc part gpa none, ?_, cleanHdc_cachesMoved s part gpa none, cleanHdc_sameFlights s part gpa none⟩
  rw [State.dispReadGpa, readHome_stands n hs]
  dsimp only
  rw [natOfBytes_lineBytes s part n gpa line]

theorem dispRead_stands {s : State} {part n : Nat} {satp va : DWord} (bare : satpMode satp = 0) (hva : va.toNat < 2 ^ 52)
    (hs : s.standsAtHome part va.toNat) (line : va.toNat % 128 + n ≤ 128) :
    ∃ t, s.dispRead part satp va n = .ok (s.numAt part va.toNat n) t ∧ ReadsOnly s t := by
  obtain ⟨t, read, only⟩ := dispReadGpa_stands hs line
  exact ⟨t, by rw [State.dispRead, dispGpa_bare s part bare hva]; exact read, only⟩

/-- A queue whose slot at the consumer index, supervisor block and index stand at home. -/
structure Queue.Stands (s : State) (part : Nat) (q : Queue) : Prop where
  slot : s.standsAtHome part q.slotAddr
  sup : s.standsAtHome part q.sup
  cons : s.standsAtHome part q.cons
  slotAlign : q.slotAddr % 64 = 0
  supAlign : q.sup % 32 = 0
  consAlign : q.cons % 8 = 0

/-- R82, R84: the packet at the consumer index, ready, with its queue's supervisor block. -/
theorem readPacket_stands {s : State} {part : Nat} {q : Queue} (h : q.Stands s part)
    (ready : (s.numAt part q.slotAddr 64).testBit 511 = true) :
    ∃ t, s.readPacket part q = .ok (some (s.numAt part q.slotAddr 64, q.withSup (s.numAt part q.sup 32))) t ∧ ReadsOnly s t := by
  obtain ⟨slot, sup, cons, slotAlign, supAlign, consAlign⟩ := h
  obtain ⟨t1, read1, only1⟩ := dispReadGpa_stands (n := 64) slot (by omega)
  obtain ⟨t2, read2, only2⟩ := dispReadGpa_stands (n := 32) (only1.stands sup) (by omega)
  obtain ⟨t3, read3, only3⟩ := dispReadGpa_stands (n := 8) ((only1.trans only2).stands cons) (by omega)
  rw [only1.numAt] at read2
  refine ⟨t3, ?_, (only1.trans only2).trans only3⟩
  simp only [State.readPacket, read1, Disp.bind, ready, if_true, read2, read3]

/-! ## A packet consumed (R82) -/

theorem sendWakes_cores (lat : Nat) (ws : List Watch) (i : Nat) (s : State) : (s.sendWakes lat i ws).cores = s.cores := by
  induction ws generalizing i s with
  | nil => rfl
  | cons w ws ih =>
    unfold State.sendWakes
    split
    · exact ih _ s
    · split
      · exact ih _ _
      · exact ih _ s

theorem wakeLine_cores (s : State) (part gpa : Nat) : (s.wakeLine part gpa).cores = s.cores := by
  unfold State.wakeLine
  dsimp only
  split
  · rfl
  · exact sendWakes_cores _ _ _ _

theorem PlansOnly.cores {s t : State} (h : PlansOnly s t) : t.cores = s.cores := by rw [h.eq_with]

theorem wrote_sameFlights (s : State) (part gpa : Nat) (by_ : Option Nat) : SameFlights s (s.wrote part gpa by_) := by
  have dropped : SameFlights (s.breakResv part gpa) ((s.breakResv part gpa).dropHdc part gpa by_) := by
    refine .mapVal _ fun k c => ?_
    split <;> rfl
  refine SameFlights.trans (.of_cores rfl) (dropped.trans (.of_cores ?_))
  exact ((pollOpen_plansOnly _ part).cores.trans (pollQueues_plansOnly _ part gpa).cores).trans (wakeLine_cores _ part gpa)

theorem markDirty_cores (s : State) (part place : Nat) : (s.markDirty part place).cores = s.cores := by
  unfold State.markDirty
  dsimp only
  split
  · rfl
  · split <;> rfl

theorem writeHome_sameFlights (s : State) (part gpa : Nat) (bs : List Byte) (by_ : Option Nat) :
    SameFlights s (s.writeHome part gpa bs by_) := by
  have wrote (t : State) (h : t.cores = s.cores) : SameFlights s (t.wrote part gpa by_) :=
    SameFlights.trans (.of_cores h) (wrote_sameFlights t part gpa by_)
  unfold State.writeHome
  split
  · exact rfl
  · split
    · exact rfl
    · split
      · exact wrote _ rfl
      · exact wrote _ (markDirty_cores _ part _)

/-- R6, R17: a write changes nothing but memory and what may move beside one. -/
theorem writeHome_frame (s : State) (part gpa : Nat) (bs : List Byte) (by_ : Option Nat) :
    { s.putBack (s.writeHome part gpa bs by_) with mem := s.mem } = s := by
  have wrote (t : State) (h : { s.putBack t with mem := s.mem } = s) :
      { s.putBack (t.wrote part gpa by_) with mem := s.mem } = s :=
    (congrArg (fun v : State => { s.putBack v with mem := s.mem }) (wrote_beside t part gpa by_).rest).trans h
  unfold State.writeHome
  split
  · rfl
  · split
    · rfl
    · split
      · exact wrote _ rfl
      · refine wrote _ ?_
        exact (congrArg (fun v : State => { s.putBack v with mem := s.mem }) (markDirty_beside _ part (s.home part gpa)).rest :)

/-- R82: what the consumption of a packet leaves: everything but its queue, memory and what may move beside a write. -/
structure Consumed (s t : State) (part qn : Nat) (q : Queue) : Prop where
  frame : { s.putBack t with mem := s.mem, queues := s.queues } = s
  flights : SameFlights s t
  queue : t.queue? part qn = some { q with consIdx := q.consIdx + 1, checked := false }

theorem consume_consumed {s : State} {part qn : Nat} {q : Queue} (hq : s.queue? part qn = some q) (q1 : Queue) :
    Consumed s (s.consume part qn q1) part qn q := by
  unfold State.consume
  dsimp only
  generalize bytesOfNat _ 8 = b1
  generalize bytesOfNat _ 8 = b2
  have queue := State.queue?_modQueue (fun v => { v with consIdx := v.consIdx + 1, checked := false }) hq
  obtain ⟨qs, hqs⟩ := State.modQueue_eq s part qn (fun v => { v with consIdx := v.consIdx + 1, checked := false })
  rw [hqs] at queue ⊢
  generalize hu : ({ s with queues := qs } : State) = u at queue ⊢
  have frame1 := writeHome_frame u part (q1.slotAddr + 56) b1 none
  have flights1 := writeHome_sameFlights u part (q1.slotAddr + 56) b1 none
  generalize u.writeHome part (q1.slotAddr + 56) b1 none = v at frame1 flights1 ⊢
  have frame2 := writeHome_frame v part q1.cons b2 none
  have flights2 := writeHome_sameFlights v part q1.cons b2 none
  generalize v.writeHome part q1.cons b2 none = w at frame2 flights2 ⊢
  have frame : { u.putBack w with mem := u.mem } = u :=
    (congrArg (fun v : State => { u.putBack v with mem := u.mem }) frame2).trans frame1
  subst hu
  refine ⟨(congrArg (fun v : State => { v with queues := s.queues }) frame :), flights1.trans flights2, ?_⟩
  have queues : w.queues = qs := (congrArg State.queues frame :)
  exact (congrArg (fun m => Map.find m (queueKey part qn)) queues).trans queue

/-! ## The bytes of a consumed packet (R82) -/

/-- R6: byte j of the number that n bytes stand for. -/
theorem ofNat_numAt_div (s : State) (part : Nat) {n j : Nat} (a : Nat) (hj : j < n) :
    BitVec.ofNat 8 (s.numAt part a n / 256 ^ j) = s.byteAt part (a + j) := by
  induction n generalizing a j with
  | zero => exact absurd hj (Nat.not_lt_zero j)
  | succ n ih =>
    have byte : (s.byteAt part a).toNat < 256 := (s.byteAt part a).isLt
    rw [State.numAt]
    cases j with
    | zero =>
      refine BitVec.eq_of_toNat_eq ?_
      change _ = (s.byteAt part a).toNat
      rw [BitVec.toNat_ofNat, Nat.pow_zero, Nat.div_one]
      omega
    | succ j =>
      rw [Nat.pow_succ', ← Nat.div_div_eq_div_mul, show ((s.byteAt part a).toNat + 256 * s.numAt part (a + 1) n) / 256 =
        s.numAt part (a + 1) n by omega, ih (a + 1) (by omega), show a + 1 + j = a + (j + 1) by omega]

/-- R81: what the clearing of the ready bit leaves of byte j of the packet's last eight. -/
theorem ofNat_readyCleared (n : Nat) {j : Nat} (hj : j < 8) : BitVec.ofNat 8 (n % 2 ^ 63 / 256 ^ j) =
    if j = 7 then BitVec.ofNat 8 (n / 256 ^ j) &&& 0x7F else BitVec.ofNat 8 (n / 256 ^ j) := by
  refine BitVec.eq_of_toNat_eq ?_
  split
  · next h =>
    rw [h, BitVec.toNat_and, BitVec.toNat_ofNat, BitVec.toNat_ofNat, show (0x7F : Byte).toNat = 2 ^ 7 - 1 from rfl,
      Nat.and_two_pow_sub_one_eq_mod]
    omega
  · rw [BitVec.toNat_ofNat, BitVec.toNat_ofNat]
    interval_cases j <;> omega

theorem linePieces_in_line {a n : Nat} (pos : 0 < n) (line : a % 128 + n ≤ 128) : linePieces a n = [(a, n)] := by
  have one : (a + n - 1) / 128 - a / 128 + 1 = 1 := by omega
  have low : max a ((a / 128 + 0) * 128) = a := by omega
  have high : min (a + n) ((a / 128 + 0 + 1) * 128) = a + n := by omega
  rw [linePieces, if_neg (by omega), one]
  change [(max a ((a / 128 + 0) * 128), min (a + n) ((a / 128 + 0 + 1) * 128) - max a ((a / 128 + 0) * 128))] = _
  rw [low, high, Nat.add_sub_cancel_left]

theorem gpaBytes_stands {s : State} {part a n : Nat} (hs : s.standsAtHome part a) (pos : 0 < n) (line : a % 128 + n ≤ 128) :
    natOfBytes (s.gpaBytes part a n) = s.numAt part a n := by
  rw [State.gpaBytes, linePieces_in_line pos line]
  change natOfBytes (s.bytesAt part a n ++ []) = _
  rw [List.append_nil, bytesAt_stands n hs, natOfBytes_lineBytes s part n a line]

/-- R6, R17: a write at a standing line lets every line stand. -/
theorem writeHome_stays {s : State} {part gpa : Nat} {bs : List Byte} (by_ : Option Nat) (hs : s.standsAtHome part gpa)
    (hg : gpa < 2 ^ 52) (hin : gpa % 128 + bs.length ≤ 128) {q a : Nat} (ha : s.standsAtHome q a) :
    (s.writeHome part gpa bs by_).standsAtHome q a := by
  obtain ⟨l, llc, fine⟩ := writeHome_llc bs by_ hs
  have written := writeHome_stands by_ hs hg hin
  obtain ⟨p, r, l0, hp, hr, hcls, accepts, hl, fine0⟩ := ha
  have parts : (s.writeHome part gpa bs by_).parts = s.parts := (congrArg State.parts written.rest :)
  have accept (d : Nat) : ((s.writeHome part gpa bs by_).die d).accept = (s.die d).accept := (congrArg Die.accept (written.dies d) :)
  by_cases same : lineKey q a = lineKey part gpa
  · exact ⟨p, r, l, by rw [State.part?, parts]; exact hp, hr, hcls, by rw [accept]; exact accepts,
      by rw [llc, Map.find_put, if_pos same], fine⟩
  · exact ⟨p, r, l0, by rw [State.part?, parts]; exact hp, hr, hcls, by rw [accept]; exact accepts,
      by rw [llc, Map.find_put, if_neg same]; exact hl, fine0⟩

/-- R82: the ready bit of the packet is cleared, the index written. -/
theorem byteAt_consume {s : State} {part qn : Nat} {q : Queue} (h : q.Stands s part) (hslot : q.slotAddr < 2 ^ 52)
    (hcons : q.cons < 2 ^ 52) (r b : Nat) (hb : b < 2 ^ 52) :
    (s.consume part qn q).byteAt r b =
      if r = part ∧ q.cons ≤ b ∧ b < q.cons + 8 then BitVec.ofNat 8 ((q.consIdx + 1) / 256 ^ (b - q.cons))
      else if r = part ∧ b = q.slotAddr + 63 then s.byteAt part b &&& 0x7F else s.byteAt r b := by
  obtain ⟨slot, sup, cons, slotAlign, supAlign, consAlign⟩ := h
  obtain ⟨qs, hqs⟩ := State.modQueue_eq s part qn (fun v => { v with consIdx := v.consIdx + 1, checked := false })
  have last : s.standsAtHome part (q.slotAddr + 56) := standsAtHome_of_same_line (by omega) slot
  unfold State.consume
  dsimp only
  rw [gpaBytes_stands last (by decide) (by omega), hqs]
  generalize hu : ({ s with queues := qs } : State) = u
  have same : u.mem = s.mem := by rw [← hu]
  have last' : u.standsAtHome part (q.slotAddr + 56) := by rw [← hu]; exact last
  have cons' : u.standsAtHome part q.cons := by rw [← hu]; exact cons
  have line1 : (q.slotAddr + 56) % 128 + (bytesOfNat (s.numAt part (q.slotAddr + 56) 8 % 2 ^ 63) 8).length ≤ 128 := by
    rw [bytesOfNat_length]; omega
  have line2 : q.cons % 128 + (bytesOfNat (q.consIdx + 1) 8).length ≤ 128 := by rw [bytesOfNat_length]; omega
  have write1 := (writeHome_stands none last' (by omega) line1).bytes.bytes
  have write2 := (writeHome_stands none (writeHome_stays none last' (by omega) line1 cons') hcons line2).bytes.bytes
  refine (write2 r b hb).trans ?_
  rw [write1 r b hb, bytesOfNat_length, bytesOfNat_length]
  have old : u.byteAt r b = s.byteAt r b := by rw [State.byteAt, State.llcData, same]; rfl
  split
  · next inIndex => exact getD_bytesOfNat _ (by omega)
  · rw [old]
    by_cases inLast : r = part ∧ q.slotAddr + 56 ≤ b ∧ b < q.slotAddr + 56 + 8
    · obtain ⟨rfl, low, high⟩ := inLast
      rw [if_pos ⟨rfl, low, high⟩, getD_bytesOfNat _ (by omega), ofNat_readyCleared _ (by omega), ofNat_numAt_div s r _ (by omega),
        show q.slotAddr + 56 + (b - (q.slotAddr + 56)) = b by omega]
      exact if_congr ⟨fun c => ⟨rfl, by omega⟩, fun c => by omega⟩ rfl rfl
    · rw [if_neg inLast, if_neg fun c => inLast ⟨c.1, by omega⟩]

/-! ## PACKET_CHECK (R82, R84) -/

theorem State.addLaunch_eq (s : State) (L : Launch) :
    ∃ qs, s.addLaunch L = { s with launches := Map.put s.launches s.nextLaunch L, nextLaunch := s.nextLaunch + 1, queues := qs } := by
  unfold State.addLaunch
  obtain ⟨qs, hqs⟩ := State.modQueue_eq ({ s with launches := Map.put s.launches s.nextLaunch L, nextLaunch := s.nextLaunch + 1 } : State)
    L.part L.q (fun q => { q with launches := q.launches ++ [s.nextLaunch] })
  exact ⟨qs, hqs⟩

theorem queue?_addLaunch {s : State} {L : Launch} {q : Queue} (hq : s.queue? L.part L.q = some q) :
    (s.addLaunch L).queue? L.part L.q = some { q with launches := q.launches ++ [s.nextLaunch] } :=
  State.queue?_modQueue (s := { s with launches := Map.put s.launches s.nextLaunch L, nextLaunch := s.nextLaunch + 1 }) _ hq

/-- R82, R84: the packet is consumed and its launch ends at once with a status. -/
def State.reject (s : State) (part qn : Nat) (q : Queue) (p : Packet) (status : Nat) : State :=
  ((s.consume part qn q).addLaunch (Machine.launchOf p part qn q.consIdx)).endLaunch s.nextLaunch status

/-- R82, R84: what the rejection of a packet without a completion word leaves. -/
theorem reject_ends {s : State} {part qn : Nat} {q : Queue} (hq : s.queue? part qn = some q) (q1 : Queue) {p : Packet} (status : Nat)
    (hc : p.cmpl = 0) (hn : p.notify = false) (quiet : ∀ c ∈ s.cores, ∀ f ∈ c.2.flight, f.launch ≠ some s.nextLaunch) :
    (∃ M, (s.reject part qn q1 p status).launch? s.nextLaunch = some M ∧ M.ended = true ∧ M.status = status ∧ M.exited = 0) ∧
      (∃ r, (s.reject part qn q1 p status).queue? part qn = some r ∧ r.consIdx = q.consIdx + 1 ∧ r.checked = false) ∧
      (s.reject part qn q1 p status).mem = (s.consume part qn q1).mem := by
  obtain ⟨frame, flights, queue⟩ := consume_consumed hq q1
  unfold State.reject
  generalize s.consume part qn q1 = u at frame flights queue ⊢
  have next : u.nextLaunch = s.nextLaunch := (congrArg State.nextLaunch frame :)
  have queued := queue?_addLaunch (L := launchOf p part qn q1.consIdx) queue
  obtain ⟨qs, hqs⟩ := State.addLaunch_eq u (launchOf p part qn q1.consIdx)
  rw [hqs] at queued ⊢
  generalize hv : ({ u with
    launches := Map.put u.launches u.nextLaunch (launchOf p part qn q1.consIdx)
    nextLaunch := u.nextLaunch + 1
    queues := qs } : State) = v at queued ⊢
  have there : v.launch? s.nextLaunch = some (launchOf p part qn q1.consIdx) := by
    rw [← hv, ← next]
    exact Map.find_put_same _ _ _
  have quiet' : ∀ c ∈ v.cores, ∀ f ∈ c.2.flight, f.launch ≠ some s.nextLaunch := by
    rw [← hv]
    exact flights.forall_mem quiet
  obtain ⟨launch, mem, queues, -⟩ := endLaunch_endsSilently status there rfl hc hn quiet'
  have left := State.queue?_modQueue (fun w => { w with launches := w.launches.filter (· != s.nextLaunch) }) queued
  refine ⟨launch, ⟨_, (congrArg (Map.find · (queueKey part qn)) queues).trans left, rfl, rfl⟩, mem.trans (by rw [← hv])⟩

/-- R86: without a drain pc to judge, the side table does not matter. -/
theorem bad_of_not_drain {p : Packet} (h : p.drain = false) (ok : Bool) (a b : DWord) : p.bad ok a = p.bad ok b := by
  simp only [Packet.bad, h, Bool.false_and]

/-- R84: a packet whose reads are all at home is judged by its fields. -/
theorem packetCheck_judges {s : State} {part qn : Nat} {q : Queue} (ha : s.arg.nats = [part, qn]) (hq : s.queue? part qn = some q)
    (hc : q.checked = false) (h : q.Stands s part) (ready : (s.numAt part q.slotAddr 64).testBit 511 = true)
    (hd : (packetOf (s.numAt part q.slotAddr 64)).drain = false) :
    let q1 := q.withSup (s.numAt part q.sup 32)
    let p := packetOf (s.numAt part q.slotAddr 64)
    ∃ t, ReadsOnly s t ∧ exec .packetCheck s = .next (if p.bad q1.supOk 0 then (t.modQueue part qn fun _ => q1).reject part qn q1 p 1
      else ((t.modQueue part qn fun _ => q1).modQueue part qn fun w => { w with checked := true }).plan 0 .launchActivate
        { nats := [part, qn] }) := by
  have at0 : s.arg.nat 0 = part := by rw [EventArgs.nat, ha, List.getD_cons_zero]
  have at1 : s.arg.nat 1 = qn := by rw [EventArgs.nat, ha, List.getD_cons_succ, List.getD_cons_zero]
  obtain ⟨t, read, only⟩ := readPacket_stands h ready
  refine ⟨t, only, ?_⟩
  change execPacketCheck s = _
  simp only [execPacketCheck, at0, at1, hq, hc, read, hd]
  rw [bad_of_not_drain hd _ 1 0]
  cases judged : (packetOf (s.numAt part q.slotAddr 64)).bad (q.withSup (s.numAt part q.sup 32)).supOk 0 with
  | true => rfl
  | false => simp only [Bool.false_eq_true, if_false, judged]

/-- R84, R86: a packet that passes its checks waits to activate. -/
theorem packetCheck_accepts {s : State} {part qn : Nat} {q : Queue} (ha : s.arg.nats = [part, qn]) (hq : s.queue? part qn = some q)
    (hc : q.checked = false) (h : q.Stands s part) (ready : (s.numAt part q.slotAddr 64).testBit 511 = true)
    (hd : (packetOf (s.numAt part q.slotAddr 64)).drain = false)
    (good : (packetOf (s.numAt part q.slotAddr 64)).bad (q.withSup (s.numAt part q.sup 32)).supOk 0 = false) :
    ∃ t, exec .packetCheck s = .next t ∧ t.queue? part qn = some { q.withSup (s.numAt part q.sup 32) with checked := true } ∧
      (∃ e ∈ t.schedule, e.at_ = s.now ∧ e.ev = .launchActivate ∧ e.args.nats = [part, qn]) ∧
      CachesOnly s t ∧ { t with queues := s.queues, schedule := s.schedule, cores := s.cores } = s := by
  obtain ⟨t, only, run⟩ := packetCheck_judges ha hq hc h ready hd
  rw [good] at run
  refine ⟨_, run, ?_⟩
  have caches := only.caches.cores
  obtain ⟨cs, rfl⟩ : ∃ cs, t = { s with cores := cs } := ⟨t.cores, only.eq_with⟩
  have sup := State.queue?_modQueue (s := { s with cores := cs }) (fun _ => q.withSup (s.numAt part q.sup 32)) hq
  have checked := State.queue?_modQueue (fun w => { w with checked := true }) sup
  obtain ⟨qs, hqs⟩ := State.modQueue_eq ({ s with cores := cs } : State) part qn (fun _ => q.withSup (s.numAt part q.sup 32))
  rw [hqs] at checked ⊢
  obtain ⟨qs', hqs'⟩ := State.modQueue_eq ({ s with cores := cs, queues := qs } : State) part qn (fun w => { w with checked := true })
  rw [hqs'] at checked ⊢
  exact ⟨checked, ⟨_, (mem_insertPlanned _ _ _).2 (.inl rfl), Nat.add_zero _, rfl, rfl⟩, caches, rfl⟩

/-- R82, R84: a packet that fails its checks is consumed, and its launch ends with status 1. -/
theorem packetCheck_rejects {s : State} {part qn : Nat} {q : Queue} (ha : s.arg.nats = [part, qn]) (hq : s.queue? part qn = some q)
    (hc : q.checked = false) (h : q.Stands s part) (ready : (s.numAt part q.slotAddr 64).testBit 511 = true)
    (hd : (packetOf (s.numAt part q.slotAddr 64)).drain = false) (hslot : q.slotAddr < 2 ^ 52) (hcons : q.cons < 2 ^ 52)
    (fails : (packetOf (s.numAt part q.slotAddr 64)).bad (q.withSup (s.numAt part q.sup 32)).supOk 0 = true)
    (hcmpl : (packetOf (s.numAt part q.slotAddr 64)).cmpl = 0) (hnotify : (packetOf (s.numAt part q.slotAddr 64)).notify = false)
    (quiet : ∀ c ∈ s.cores, ∀ f ∈ c.2.flight, f.launch ≠ some s.nextLaunch) :
    ∃ t L, exec .packetCheck s = .next t ∧ t.launch? s.nextLaunch = some L ∧ L.ended = true ∧ L.status = 1 ∧ L.exited = 0 ∧
      (∃ r, t.queue? part qn = some r ∧ r.consIdx = q.consIdx + 1 ∧ r.checked = false) ∧
      (∀ r b, b < 2 ^ 52 → t.byteAt r b =
        if r = part ∧ q.cons ≤ b ∧ b < q.cons + 8 then BitVec.ofNat 8 ((q.consIdx + 1) / 256 ^ (b - q.cons))
        else if r = part ∧ b = q.slotAddr + 63 then s.byteAt part b &&& 0x7F else s.byteAt r b) := by
  obtain ⟨t, only, run⟩ := packetCheck_judges ha hq hc h ready hd
  rw [fails] at run
  have flights := only.flights
  obtain ⟨cs, rfl⟩ : ∃ cs, t = { s with cores := cs } := ⟨t.cores, only.eq_with⟩
  have sup := State.queue?_modQueue (s := { s with cores := cs }) (fun _ => q.withSup (s.numAt part q.sup 32)) hq
  obtain ⟨qs, hqs⟩ := State.modQueue_eq ({ s with cores := cs } : State) part qn (fun _ => q.withSup (s.numAt part q.sup 32))
  rw [hqs] at sup run
  obtain ⟨⟨M, launch⟩, queue, mem⟩ := reject_ends sup (q.withSup (s.numAt part q.sup 32)) 1 hcmpl hnotify (flights.forall_mem quiet)
  obtain ⟨hM, ended, status, exited⟩ := launch
  refine ⟨_, M, run, hM, ended, status, exited, queue, fun r b hb => ?_⟩
  rw [State.byteAt, State.llcData, if_pos rfl, mem]
  have stands : (q.withSup (s.numAt part q.sup 32)).Stands ({ s with cores := cs, queues := qs } : State) part :=
    ⟨h.slot, h.sup, h.cons, h.slotAlign, h.supAlign, h.consAlign⟩
  exact byteAt_consume (qn := qn) stands hslot hcons r b hb

/-! ## Words of a block (R82, R86) -/

theorem numAt_lt (s : State) (part a n : Nat) : s.numAt part a n < 256 ^ n := by
  induction n generalizing a with
  | zero => exact Nat.one_pos
  | succ n ih =>
    have byte : (s.byteAt part a).toNat < 256 := (s.byteAt part a).isLt
    have rest := ih (a + 1)
    rw [State.numAt, Nat.pow_succ']
    omega

theorem numAt_add (s : State) (part a m n : Nat) : s.numAt part a (m + n) = s.numAt part a m + 256 ^ m * s.numAt part (a + m) n := by
  induction m generalizing a with
  | zero => rw [Nat.zero_add, Nat.pow_zero, Nat.one_mul]; exact (Nat.zero_add _).symm
  | succ m ih =>
    rw [show m + 1 + n = (m + n) + 1 by omega, State.numAt, ih (a + 1), show a + 1 + m = a + (m + 1) by omega, State.numAt,
      Nat.pow_succ', Nat.mul_add, Nat.add_assoc, Nat.mul_assoc]

/-- R6: m bytes from the i-th of the number that n bytes stand for. -/
theorem numAt_div_mod (s : State) (part a : Nat) {i m n : Nat} (h : i + m ≤ n) :
    s.numAt part a n / 256 ^ i % 256 ^ m = s.numAt part (a + i) m := by
  obtain ⟨k, rfl⟩ := Nat.exists_eq_add_of_le h
  rw [Nat.add_assoc, numAt_add s part a i (m + k), Nat.add_mul_div_left _ _ (Nat.pow_pos (by decide)),
    Nat.div_eq_of_lt (numAt_lt s part a i), Nat.zero_add, numAt_add s part (a + i) m k, Nat.add_mul_mod_self_left,
    Nat.mod_eq_of_lt (numAt_lt s part (a + i) m)]

/-! ## LAUNCH_ACTIVATE (R86, R87) -/

/-- R86: the header of a side table that stands at home. -/
theorem readSide_stands {s : State} {part : Nat} {satp : DWord} {p : Packet} (bare : satpMode satp = 0)
    (hlt : p.sidetab.toNat < 2 ^ 52) (align : p.sidetab.toNat % 32 = 0) (hs : s.standsAtHome part p.sidetab.toNat) :
    ∃ t, s.readSide part satp p = .ok (BitVec.ofNat 64 (s.numAt part p.sidetab.toNat 8),
      BitVec.ofNat 64 (s.numAt part (p.sidetab.toNat + 8) 8), BitVec.ofNat 64 (s.numAt part (p.sidetab.toNat + 16) 8)) t ∧ ReadsOnly s t := by
  obtain ⟨t, read, only⟩ := dispRead_stands (n := 32) bare hlt hs (by omega)
  have word (i : Nat) (h : i + 8 ≤ 32) : s.numAt part p.sidetab.toNat 32 / 256 ^ i % 256 ^ 8 = s.numAt part (p.sidetab.toNat + i) 8 :=
    numAt_div_mod s part _ h
  refine ⟨t, ?_, only⟩
  rw [State.readSide, read, ← word 8 (by decide), ← word 16 (by decide), ← Nat.add_zero p.sidetab.toNat, ← word 0 (by decide)]
  rfl

/-- R84, R87: nothing settles a launch of items without dependences, formats or a gang at once. -/
theorem opening_bare {s : State} {part room : Nat} {satp : DWord} {p : Packet} (open_ : p.open_ = false) (gang : p.gang = false)
    (dep : p.ndep = 0) (fmt : p.fmtblk = 0) (count : 0 < p.count) (bare : satpMode satp = 0)
    (hlt : p.sidetab.toNat < 2 ^ 52) (align : p.sidetab.toNat % 32 = 0) (hs : s.standsAtHome part p.sidetab.toNat) :
    ∃ t, s.opening part satp p room = .ok (some { entries := [], side := (BitVec.ofNat 64 (s.numAt part p.sidetab.toNat 8),
      BitVec.ofNat 64 (s.numAt part (p.sidetab.toNat + 8) 8), BitVec.ofNat 64 (s.numAt part (p.sidetab.toNat + 16) 8)) }) t ∧
      ReadsOnly s t := by
  obtain ⟨t, read, only⟩ := readSide_stands bare hlt align hs
  have go : p.settles [] room = none := by
    simp [Packet.settles, fmt, gang, open_, Nat.ne_of_gt count]
  have words : s.depWords part satp p (if p.open_ then 0 else p.ndep) = .ok [] s := by
    rw [open_, dep]; rfl
  have formats : (if p.fmtblk = 0 ∨ p.fmtblk.toNat % 32 ≠ 0 then .ok [] s else s.readFmt part satp p.fmtblk 4) = Disp.ok [] s :=
    if_pos (.inl fmt)
  refine ⟨t, ?_, only⟩
  simp only [State.opening, words, Disp.bind, List.any_nil, Packet.depFailed, Bool.and_false, Bool.false_eq_true, if_false, formats,
    go, read]

/-- R87, R96: a launch as it activates, without formats: nothing is claimed or exited, and its side table is known. -/
def startedLaunch (p : Packet) (part qn index : Nat) (side : DWord × DWord × DWord) : Launch :=
  { launchOf p part qn index with activated := true, safetab := side.1, livetab := side.2.1, drainpc := side.2.2 }

theorem checkComplete_schedule {s : State} {e : Planned} (l : Nat) (he : e ∈ s.schedule) : e ∈ (s.checkComplete l).schedule := by
  unfold State.checkComplete
  split
  · exact he
  · split
    · exact (mem_insertPlanned _ _ _).2 (.inr he)
    · exact he

/-- R73: a `satp` without a translation is kept as it is written. -/
theorem satpWrite_bare {v : DWord} (bare : satpMode v = 0) : satpWrite 0 v = v := by
  rw [satpWrite, if_pos (.inl bare)]

/-- R87: LAUNCH_ACTIVATE of a packet that nothing holds back or settles. -/
theorem launchActivate_starts {s : State} {part qn : Nat} {q : Queue} {pt : Part} (ha : s.arg.nats = [part, qn])
    (hq : s.queue? part qn = some q) (hp : s.part? part = some pt) (hc : q.checked = true) (hg : s.governing part qn = none)
    (hl : q.launches = []) (h : q.Stands s part) (ready : (s.numAt part q.slotAddr 64).testBit 511 = true) {p : Packet}
    (hpkt : packetOf (s.numAt part q.slotAddr 64) = p) (open_ : p.open_ = false) (gang : p.gang = false) (dep : p.ndep = 0)
    (fmt : p.fmtblk = 0) (count : 0 < p.count) (bare : satpMode (BitVec.ofNat 64 (s.numAt part (q.sup + 8) 8)) = 0)
    (align : p.sidetab.toNat % 32 = 0) (hlt : p.sidetab.toNat < 2 ^ 52) (hs : s.standsAtHome part p.sidetab.toNat) :
    ∃ t L, exec .launchActivate s = .next t ∧ t.launch? s.nextLaunch = some L ∧
      L = startedLaunch p part qn q.consIdx (BitVec.ofNat 64 (s.numAt part p.sidetab.toNat 8),
        BitVec.ofNat 64 (s.numAt part (p.sidetab.toNat + 8) 8), BitVec.ofNat 64 (s.numAt part (p.sidetab.toNat + 16) 8)) ∧
      (∀ l, l ≠ s.nextLaunch → t.launch? l = s.launch? l) ∧ t.nextLaunch = s.nextLaunch + 1 ∧
      (∃ r, t.queue? part qn = some r ∧ r.consIdx = q.consIdx + 1 ∧ r.checked = false ∧ r.launches = [s.nextLaunch]) ∧
      (∃ e ∈ t.schedule, e.at_ = s.now + interval ∧ e.ev = .progressInterval ∧ e.args.nats = [s.nextLaunch]) := by
  have at0 : s.arg.nat 0 = part := by rw [EventArgs.nat, ha, List.getD_cons_zero]
  have at1 : s.arg.nat 1 = qn := by rw [EventArgs.nat, ha, List.getD_cons_succ, List.getD_cons_zero]
  obtain ⟨t, read, only⟩ := readPacket_stands h ready
  have satp : (q.withSup (s.numAt part q.sup 32)).satp = BitVec.ofNat 64 (s.numAt part (q.sup + 8) 8) := by
    rw [← satpWrite_bare bare, ← numAt_div_mod s part q.sup (show 8 + 8 ≤ 32 by decide)]
    rfl
  obtain ⟨u, opens, more⟩ := opening_bare (room := 0) open_ gang dep fmt count bare hlt align (only.stands hs)
  have all := only.trans more
  rw [only.numAt, only.numAt, only.numAt] at opens
  generalize (BitVec.ofNat 64 (s.numAt part p.sidetab.toNat 8), BitVec.ofNat 64 (s.numAt part (p.sidetab.toNat + 8) 8),
    BitVec.ofNat 64 (s.numAt part (p.sidetab.toNat + 16) 8)) = side at opens ⊢
  have run : exec .launchActivate s = .next (((((u.consume part qn (q.withSup (s.numAt part q.sup 32))).addLaunch
      (startedLaunch p part qn q.consIdx side)).plan interval .progressInterval { nats := [u.nextLaunch] }).checkComplete
      u.nextLaunch).kickDispatch) := by
    change execLaunchActivate s = _
    simp only [execLaunchActivate, at0, at1, hq, hp, hc, hg, hl, List.any_nil, Bool.not_true, Option.isSome_none, Bool.or_self,
      Bool.false_eq_true, if_false, read, hpkt, gang, satp, opens]
    rfl
  obtain ⟨frame, -, queue⟩ := consume_consumed (s := u) (by rw [all.eq_with]; exact hq) (q.withSup (s.numAt part q.sup 32))
  generalize u.consume part qn (q.withSup (s.numAt part q.sup 32)) = v at frame queue run
  have same : v.nextLaunch = u.nextLaunch ∧ v.launches = u.launches ∧ v.now = u.now :=
    ⟨(congrArg State.nextLaunch frame :), (congrArg State.launches frame :), (congrArg State.now frame :)⟩
  obtain ⟨cs, rfl⟩ : ∃ cs, u = { s with cores := cs } := ⟨u.cores, all.eq_with⟩
  obtain ⟨next, launches, now⟩ := same
  dsimp only at next launches now run
  have queued := queue?_addLaunch (L := startedLaunch p part qn q.consIdx side) queue
  obtain ⟨qs, hqs⟩ := State.addLaunch_eq v (startedLaunch p part qn q.consIdx side)
  rw [hqs] at run queued
  generalize hw : ({ v with
    launches := Map.put v.launches v.nextLaunch (startedLaunch p part qn q.consIdx side)
    nextLaunch := v.nextLaunch + 1
    queues := qs } : State) = w at run queued
  have plans : PlansOnly w (((w.plan interval .progressInterval { nats := [s.nextLaunch] }).checkComplete s.nextLaunch).kickDispatch) :=
    ((plan_plansOnly _ _ _ _).trans (checkComplete_plansOnly _ _)).trans (kickDispatch_plansOnly _)
  have planned := checkComplete_schedule (s := w.plan interval .progressInterval { nats := [s.nextLaunch] }) s.nextLaunch
    ((mem_insertPlanned _ _ _).2 (.inl rfl))
  refine ⟨_, startedLaunch p part qn q.consIdx side, run, ?_, rfl, fun l hl => ?_, ?_, ?_, _, (mem_insertPlanned _ _ _).2 (.inr planned),
    ?_, rfl, rfl⟩
  · rw [plans.eq_with, ← hw, ← next]
    exact Map.find_put_same _ _ _
  · rw [plans.eq_with, ← hw]
    refine (Map.find_put_other _ _ _ _ (next ▸ hl)).trans ?_
    rw [launches]
    rfl
  · rw [plans.eq_with, ← hw, ← next]
  · rw [plans.eq_with]
    exact ⟨_, queued, rfl, rfl, by rw [hl, next]; rfl⟩
  · rw [← hw, ← now]

end Sys2Proof.Machine
end

section
/-! Units of one hart are placed (R88, R89, R91, R101). -/

namespace Sys2Proof.Machine

open Sys2Proof

/-! ## Items for the lanes of a new hart (R91, R96) -/

/-- R96: the launch when m lanes in ascending order have asked for an item. -/
def Launch.afterClaims (L : Launch) (m : Nat) : Launch :=
  { L with
    next := L.next + min m (L.pkt.count - L.next)
    high := if min m (L.pkt.count - L.next) = 0 then L.high else max L.high (L.next + min m (L.pkt.count - L.next)) }

/-- R96: a launch that hands out its indexes in order: neither ordered, open nor deterministic, without anything to be run again. -/
structure Launch.Plain (L : Launch) : Prop where
  running : L.ended = false
  determ : L.pkt.determ = false
  open_ : L.pkt.open_ = false
  ordered : L.pkt.ordered = false
  items : L.items = []

theorem afterClaims_zero (L : Launch) : L.afterClaims 0 = L := by
  simp [Launch.afterClaims]

theorem afterClaims_succ_of_lt {L : Launch} {m : Nat} (h : L.next + m < L.pkt.count) :
    L.afterClaims (m + 1) = { (L.afterClaims m).claimed (L.next + m) with next := L.next + m + 1 } := by
  have now : min m (L.pkt.count - L.next) = m := by omega
  have then_ : min (m + 1) (L.pkt.count - L.next) = m + 1 := by omega
  have high : max L.high (L.next + (m + 1)) = max (if m = 0 then L.high else max L.high (L.next + m)) (L.next + m + 1) := by
    split <;> omega
  simp only [Launch.afterClaims, Launch.claimed, now, then_, Nat.succ_ne_zero, if_false, high]
  rfl

theorem afterClaims_succ_of_le {L : Launch} {m : Nat} (h : L.pkt.count ≤ L.next + m) : L.afterClaims (m + 1) = L.afterClaims m := by
  have same : min (m + 1) (L.pkt.count - L.next) = min m (L.pkt.count - L.next) := by omega
  simp only [Launch.afterClaims, same]

/-- R96: the next item of a plain launch is its next index. -/
theorem nextItem_plain {s : State} {l k m : Nat} {L : Launch} (plain : L.Plain) (hl : s.launch? l = some (L.afterClaims m)) :
    s.nextItem l k m = if L.next + m < L.pkt.count then
      (some (L.next + m, L.tsOf (L.next + m)), s.setLaunch l (L.afterClaims (m + 1))) else (none, s) := by
  obtain ⟨running, determ, open_, ordered, items⟩ := plain
  have none : (L.afterClaims m).items.find? (fun i => (L.afterClaims m).requeued.contains i.index) = none := by
    rw [show (L.afterClaims m).items = [] from items]; rfl
  have next : (L.afterClaims m).next = L.next + min m (L.pkt.count - L.next) := rfl
  have same : (L.afterClaims m).ended = false ∧ (L.afterClaims m).pkt = L.pkt := ⟨running, rfl⟩
  simp only [State.nextItem, hl, none, same.1, same.2, determ, open_, ordered, Bool.false_eq_true, if_false]
  by_cases left : L.next + m < L.pkt.count
  · have here : (L.afterClaims m).next = L.next + m := by rw [next]; omega
    rw [if_pos left, if_pos (here ▸ left), here, afterClaims_succ_of_lt left]
    rfl
  · rw [if_neg left, if_neg (by rw [next]; omega)]

/-! ## The lanes of a new hart (R91, R109) -/

theorem getLsbD_setMask_true (v : Word) (i j : Nat) (hj : j < 32) : (setMask v i true).getLsbD j = (v.getLsbD j || decide (j = i)) := by
  have one (n : Nat) : (1 : Word).getLsbD n = decide (n = 0) := by simp
  have bit : ((1 : Word) <<< i).getLsbD j = decide (j = i) := by
    rw [BitVec.getLsbD_shiftLeft, one, decide_eq_true hj, Bool.true_and, Bool.eq_iff_iff]
    simp only [Bool.and_eq_true, Bool.not_eq_true', decide_eq_false_iff_not, decide_eq_true_eq]
    omega
  rw [setMask, if_pos rfl, BitVec.getLsbD_or, bit]

/-- R91: a hart whose first m lanes have been filled with the items of a launch from `first` on, below `count`. -/
structure LanesFilled (g0 : Hart) (first count m : Nat) (g : Hart) : Prop where
  frame : g = { g0 with lanes := g.lanes }
  v : g.lanes.v = []
  em : g.lanes.em = g.lanes.occ
  occ : ∀ i, i < 32 → g.lanes.occ.getLsbD i = decide (i < m ∧ first + i < count)
  gen : ∀ i, i < 32 → g.lanes.gen.getD i 1 = 0
  cohort : ∀ i, i < 32 → g.lanes.cohort.getD i 1 = 0
  item : ∀ i, i < 32 → g.lanes.item.getD i 0 = if i < m ∧ first + i < count then BitVec.ofNat 48 (first + i) else 0xFFFFFFFFFFFF

theorem lanesFilled_zero {g0 : Hart} (h : g0.lanes = Lanes.reset) (first count : Nat) : LanesFilled g0 first count 0 g0 := by
  refine ⟨rfl, by rw [h]; rfl, by rw [h]; rfl, fun i _ => ?_, fun i hi => ?_, fun i hi => ?_, fun i hi => ?_⟩
  · rw [h]
    simp [Lanes.reset]
  · rw [h, Vector.getD_of_lt _ _ hi]
    simp [Lanes.reset]
  · rw [h, Vector.getD_of_lt _ _ hi]
    simp [Lanes.reset]
  · rw [h, Vector.getD_of_lt _ _ hi]
    simp [Lanes.reset]

theorem LanesFilled.fill {g0 g : Hart} {first count m : Nat} (h : LanesFilled g0 first count m g)
    (left : first + m < count) (ts : Nat) : LanesFilled g0 first count (m + 1) (g.fillLane m (first + m) ts false 0) := by
  have next (i : Nat) : (i < m + 1 ∧ first + i < count) ↔ (i < m ∧ first + i < count) ∨ i = m := by omega
  obtain ⟨frame, v, em, occ, gen, cohort, item⟩ := h
  refine ⟨?_, v, ?_, fun i hi => ?_, gen, fun i hi => ?_, fun i hi => ?_⟩
  · unfold Hart.fillLane
    rw [frame]
  · change setMask g.lanes.em m true = setMask g.lanes.occ m true
    rw [em]
  · change (setMask g.lanes.occ m true).getLsbD i = _
    rw [getLsbD_setMask_true _ _ _ hi, occ i hi, ← Bool.decide_or]
    exact decide_eq_decide.2 (next i).symm
  · change (g.lanes.cohort.set! m 0).getD i 1 = 0
    rw [Vector.getD_of_lt _ _ hi, Vector.getElem_set!_ite, ← Vector.getD_of_lt _ 1 hi, cohort i hi, ite_self]
  · change (g.lanes.item.set! m (BitVec.ofNat 48 (first + m))).getD i 0 = _
    rw [Vector.getD_of_lt _ _ hi, Vector.getElem_set!_ite, ← Vector.getD_of_lt _ 0 hi, item i hi]
    by_cases e : i = m
    · rw [if_pos e, if_pos ((next i).2 (.inr e)), e]
    · rw [if_neg e]
      exact if_congr ⟨fun c => (next i).2 (.inl c), fun c => ((next i).1 c).resolve_right e⟩ rfl rfl

theorem LanesFilled.skip {g0 g : Hart} {first count m : Nat} (h : LanesFilled g0 first count m g) (out : count ≤ first + m)
    (fresh : Word) : LanesFilled g0 first count (m + 1) { g with lanes := { g.lanes with fresh := fresh } } := by
  have next (i : Nat) : (i < m + 1 ∧ first + i < count) ↔ (i < m ∧ first + i < count) := by omega
  obtain ⟨frame, v, em, occ, gen, cohort, item⟩ := h
  refine ⟨?_, v, em, fun i hi => ?_, gen, cohort, fun i hi => ?_⟩
  · rw [frame]
  · exact (occ i hi).trans (decide_eq_decide.2 (next i).symm)
  · exact (item i hi).trans (if_congr (next i).symm rfl rfl)

/-- R91: what the filling of the first m lanes of the hart `k` makes of the package `s`. -/
structure Filling (s : State) (l k : Nat) (L : Launch) (g0 : Hart) (m : Nat) (t : State) : Prop where
  frame : ∃ hs ls, t = { s with harts := hs, launches := ls }
  hart : ∃ g, t.hart? k = some g ∧ LanesFilled g0 L.next L.pkt.count m g
  others : ∀ j, j ≠ k → t.hart? j = s.hart? j
  launch : t.launch? l = some (L.afterClaims m)

theorem lane_of_split {pre post : List Nat} {a : Nat} (split : allLanes = pre ++ a :: post) : a = pre.length ∧ a < 32 := by
  have there : allLanes[pre.length]? = some a := by rw [split, List.getElem?_append_right (Nat.le_refl _), Nat.sub_self]; rfl
  obtain ⟨inRange, val⟩ := List.getElem?_eq_some_iff.1 there
  have lane : pre.length = a := (List.getElem_range inRange).symm.trans val
  exact ⟨lane.symm, lane ▸ (List.length_range (n := 32) ▸ inRange)⟩

/-- R91, R96: the lanes of a new hart take the next items of a plain launch in ascending order. -/
theorem fillLanes_fills {s : State} {l k : Nat} {L : Launch} {g0 : Hart} (plain : L.Plain) (hl : s.launch? l = some L)
    (hk : s.hart? k = some g0) (vacant : g0.lanes = Lanes.reset) : Filling s l k L g0 32 (s.fillLanes l k false 0).2 := by
  have start : Filling s l k L g0 0 s :=
    ⟨⟨_, _, rfl⟩, ⟨g0, hk, lanesFilled_zero vacant _ _⟩, fun _ _ => rfl, by rw [afterClaims_zero]; exact hl⟩
  refine foldl_stepwise (fun pre (acc : Word × State) => Filling s l k L g0 pre.length acc.2) start allLanes ?_
  rintro pre a post ⟨mask, _⟩ split ⟨⟨hs, ls, rfl⟩, ⟨g, hg, filled⟩, others, launch⟩
  obtain ⟨rfl, ha⟩ := lane_of_split split
  have free : g.lanes.occ.getLsbD pre.length = false := by
    rw [filled.occ _ ha]
    exact decide_eq_false fun c => Nat.lt_irrefl _ c.1
  rw [List.length_append, List.length_singleton]
  dsimp only at hg launch others ⊢
  rw [hg]
  dsimp only
  rw [if_neg (by rw [free]; exact Bool.false_ne_true), nextItem_plain plain launch]
  by_cases left : L.next + pre.length < L.pkt.count
  · rw [if_pos left]
    refine ⟨⟨_, _, rfl⟩, ⟨_, ?_, filled.fill left (L.tsOf (L.next + pre.length))⟩, fun j hj => ?_, Map.find_put_same _ _ _⟩
    · refine (State.hart?_modHarts _ _ _ k).trans ((congrArg _ hg).trans (congrArg some ?_))
      exact if_pos (beq_self_eq_true k)
    · refine (State.hart?_modHarts _ _ _ j).trans ((congrArg _ (others j hj)).trans ?_)
      cases s.hart? j with
      | none => rfl
      | some h => exact congrArg some (if_neg (mt beq_iff_eq.1 hj))
  · rw [if_neg left]
    refine ⟨⟨_, _, rfl⟩, ⟨_, State.hart?_setHart_same _ _ _, filled.skip (Nat.le_of_not_lt left) _⟩, fun j hj => ?_, ?_⟩
    · rw [State.hart?_setHart, if_neg hj]
      exact others j hj
    · rw [afterClaims_succ_of_le (Nat.le_of_not_lt left)]
      exact launch

/-! ## A hart dispatched (R69, R91) -/

theorem noteClaims_plansOnly (s : State) (l : Nat) : PlansOnly s (s.noteClaims l) := by
  unfold State.noteClaims
  split
  · rfl
  · split
    · exact kickActivate_plansOnly s _
    · rfl

/-- R69, R91: a hart resident in slot `k` for the launch `l`, its lanes filled; barriers and memory stand. -/
structure Dispatched (s : State) (l : Nat) (L : Launch) (q : Queue) (k : Nat) (t : State) : Prop where
  hart : ∃ role stopped g, role.launch = some l ∧ role.part = L.part ∧ t.hart? k = some g ∧
    LanesFilled (L.newHart q role stopped s.now) L.next L.pkt.count 32 g
  others : ∀ j, j ≠ k → t.hart? j = s.hart? j
  launch : t.launch? l = some (L.afterClaims 32)
  mem : t.mem = s.mem
  bars : ∀ c, (t.core c).bar = (s.core c).bar
  clusters : t.clusters = s.clusters

theorem dispatchHart_dispatches {s : State} {l k : Nat} {L : Launch} {q : Queue} {p : Part} (hl : s.launch? l = some L)
    (plain : L.Plain) (hq : s.queue? L.part L.q = some q) (hp : s.part? L.part = some p)
    (wants : L.pkt.gang = true ∨ L.claimable = true) (unit member i : Nat) :
    Dispatched s l L q k (s.dispatchHart l unit member i k) := by
  have go : ¬ (!L.pkt.gang && !L.claimable) = true := by
    rcases wants with h | h <;> simp [h]
  unfold State.dispatchHart
  rw [hl]
  dsimp only
  rw [hq, hp]
  dsimp only
  rw [if_neg go]
  generalize hrole : ({ Role.reset with
    launch := some l
    part := L.part
    hidx := unit * L.pkt.hg + member * L.pkt.h + i
    unit := unit
    member := member
    slice := if L.pkt.determ then some L.slicesGiven else none } : Role) = role
  generalize hs1 : (s.setHart k (L.newHart q role p.stopped s.now)).modCore (coreOf k) (fun c => { c with inboxSaved := false }) = s1
  have same : s1.launches = s.launches ∧ s1.mem = s.mem ∧ s1.clusters = s.clusters := by rw [← hs1]; exact ⟨rfl, rfl, rfl⟩
  obtain ⟨launches, mem, clusters⟩ := same
  have here : s1.hart? k = some (L.newHart q role p.stopped s.now) := by rw [← hs1]; exact Map.find_put_same _ _ _
  have others (j : Nat) (hj : j ≠ k) : s1.hart? j = s.hart? j := by rw [← hs1]; exact Map.find_put_other _ _ _ _ hj
  have bars (c : Nat) : (s1.core c).bar = (s.core c).bar := by
    rw [← hs1, State.modCore, State.core_setCore]
    split
    · next e => rw [e]; rfl
    · rfl
  have given : (s1.modLaunch l fun M => if M.pkt.determ then { M with slicesGiven := M.slicesGiven + 1 } else M).launch? l = some L := by
    rw [State.launch?_modLaunch, if_pos rfl, State.launch?, launches]
    refine (congrArg _ hl).trans (congrArg some ?_)
    exact if_neg (by rw [plain.determ]; exact Bool.false_ne_true)
  obtain ⟨ls, hls⟩ := State.modLaunch_eq s1 l fun M => if M.pkt.determ then { M with slicesGiven := M.slicesGiven + 1 } else M
  rw [hls] at given ⊢
  obtain ⟨⟨hs, ls', frame⟩, ⟨g, hg, filled⟩, rest, claimed⟩ := fillLanes_fills plain given here rfl
  generalize (({ s1 with launches := ls } : State).fillLanes l k false 0).2 = t at frame hg rest claimed ⊢
  rw [(noteClaims_plansOnly t l).eq_with]
  refine ⟨⟨role, p.stopped, g, by rw [← hrole], by rw [← hrole], hg, filled⟩, fun j hj => (rest j hj).trans (others j hj), claimed, ?_,
    fun c => ?_, ?_⟩
  · rw [frame]; exact mem
  · rw [frame]; exact bars c
  · rw [frame]; exact clusters

/-! ## A unit of one hart (R86, R89, R91, R101) -/

/-- R86: the supervisor block of a queue is read anew before a unit is placed. -/
theorem supOf_stands {s : State} {part qn : Nat} {q : Queue} (hq : s.queue? part qn = some q) (hs : s.standsAtHome part q.sup)
    (align : q.sup % 32 = 0) : ∃ cs qs, s.supOf part qn = { s with cores := cs, queues := qs } ∧
      ({ s with cores := cs, queues := qs } : State).queue? part qn = some (q.withSup (s.numAt part q.sup 32)) := by
  obtain ⟨t, read, only⟩ := dispReadGpa_stands (n := 32) hs (by omega)
  obtain ⟨cs, rfl⟩ : ∃ cs, t = { s with cores := cs } := ⟨t.cores, only.eq_with⟩
  have sup := State.queue?_modQueue (s := { s with cores := cs }) (fun w => w.withSup (s.numAt part q.sup 32)) hq
  obtain ⟨qs, hqs⟩ := State.modQueue_eq ({ s with cores := cs } : State) part qn (fun w => w.withSup (s.numAt part q.sup 32))
  rw [hqs] at sup
  refine ⟨cs, qs, ?_, sup⟩
  simp only [State.supOf, hq, read]
  exact hqs

/-- R101: the barriers of a unit of one group stand in its core and in its cluster. -/
theorem addBarriers_one (s : State) (l unit core : Nat) (slots : List Nat) :
    ∃ cs cls, s.addBarriers l unit [⟨core, slots⟩] = { s with cores := cs, clusters := cls } ∧
      ⟨l, unit, 0, [], 0, 0⟩ ∈ ((s.addBarriers l unit [⟨core, slots⟩]).core core).bar ∧
      ⟨l, unit, 0, [], 0, 0⟩ ∈ ((s.addBarriers l unit [⟨core, slots⟩]).cluster (core / 8)).bar := by
  refine ⟨_, _, rfl, ?_, ?_⟩
  · change _ ∈ (Map.findD (Map.put s.cores core _) core Core.reset).bar
    rw [Map.findD_put, if_pos rfl]
    exact List.mem_append_right _ List.mem_cons_self
  · change _ ∈ (Map.findD (Map.put s.clusters (core / 8) _) (core / 8) Cluster.reset).bar
    rw [Map.findD_put, if_pos rfl]
    exact List.mem_append_right _ List.mem_cons_self

/-- R89, R91, R101: a unit of one hart placed. -/
structure UnitPlaced (s : State) (l : Nat) (L : Launch) (q : Queue) (core slot : Nat) (t : State) : Prop where
  hart : ∃ role stopped g, role.launch = some l ∧ role.part = L.part ∧ t.hart? (core * 16 + slot) = some g ∧
    LanesFilled (L.newHart q role stopped s.now) L.next L.pkt.count 32 g
  others : ∀ j, j ≠ core * 16 + slot → t.hart? j = s.hart? j
  launch : t.launch? l = some { L.afterClaims 32 with unitsPlaced := L.unitsPlaced + 1 }
  mem : t.mem = s.mem
  bars : L.pkt.gang = true → ⟨l, L.unitsPlaced, 0, [], 0, 0⟩ ∈ (t.core core).bar ∧
    ⟨l, L.unitsPlaced, 0, [], 0, 0⟩ ∈ (t.cluster (core / 8)).bar

theorem dispatchUnit_places {s : State} {l core slot : Nat} {L : Launch} {q : Queue} {p : Part} (hl : s.launch? l = some L)
    (plain : L.Plain) (hq : s.queue? L.part L.q = some q) (hp : s.part? L.part = some p) (hs : s.standsAtHome L.part q.sup)
    (align : q.sup % 32 = 0) (wants : L.pkt.gang = true ∨ L.claimable = true) :
    UnitPlaced s l L (q.withSup (s.numAt L.part q.sup 32)) core slot (s.dispatchUnit l [⟨core, [slot]⟩]) := by
  obtain ⟨cs, qs, sup, hq'⟩ := supOf_stands hq hs align
  have counted : (({ s with cores := cs, queues := qs } : State).modLaunch l fun M => { M with unitsPlaced := M.unitsPlaced + 1 }).launch? l =
      some { L with unitsPlaced := L.unitsPlaced + 1 } := by
    rw [State.launch?_modLaunch, if_pos rfl]
    exact congrArg (Option.map _) hl
  obtain ⟨ls, hls⟩ := State.modLaunch_eq ({ s with cores := cs, queues := qs } : State) l fun M => { M with unitsPlaced := M.unitsPlaced + 1 }
  have unit : s.dispatchUnit l [⟨core, [slot]⟩] = (if L.pkt.gang then
      ({ s with cores := cs, queues := qs, launches := ls } : State).addBarriers l L.unitsPlaced [⟨core, [slot]⟩]
      else ({ s with cores := cs, queues := qs, launches := ls } : State)).dispatchHart l L.unitsPlaced 0 0 (core * 16 + slot) := by
    simp only [State.dispatchUnit, hl, sup, hls]
    rfl
  rw [hls] at counted
  rw [unit]
  have plain' : ({ L with unitsPlaced := L.unitsPlaced + 1 } : Launch).Plain :=
    ⟨plain.running, plain.determ, plain.open_, plain.ordered, plain.items⟩
  cases gang : L.pkt.gang with
  | false =>
    rw [if_neg Bool.false_ne_true]
    obtain ⟨hart, others, launch, mem, -, -⟩ := dispatchHart_dispatches (k := core * 16 + slot) counted plain' hq' hp wants L.unitsPlaced 0 0
    exact ⟨hart, others, launch, mem, fun c => absurd (gang.symm.trans c) Bool.false_ne_true⟩
  | true =>
    rw [if_pos rfl]
    obtain ⟨cs', cls, frame, coreBar, clusterBar⟩ := addBarriers_one
      ({ s with cores := cs, queues := qs, launches := ls } : State) l L.unitsPlaced core [slot]
    rw [frame] at coreBar clusterBar ⊢
    obtain ⟨hart, others, launch, mem, bars, clusters⟩ :=
      dispatchHart_dispatches (s := { s with cores := cs', clusters := cls, queues := qs, launches := ls }) (k := core * 16 + slot)
        counted plain' hq' hp wants L.unitsPlaced 0 0
    refine ⟨hart, others, launch, mem, fun _ => ⟨by rw [bars]; exact coreBar, ?_⟩⟩
    rw [State.cluster, clusters]
    exact clusterBar

/-! ## PLACE_UNIT and PLACE_GANG (R88, R89, R90) -/

/-- R88: a queue's turn is charged; its supervisor block is where it was. -/
theorem takeTurn_eq {s : State} {part qn n : Nat} {q : Queue} (hq : s.queue? part qn = some q) :
    ∃ qs sch q', s.takeTurn part qn n = { s with queues := qs, schedule := sch } ∧
      ({ s with queues := qs, schedule := sch } : State).queue? part qn = some q' ∧ q'.sup = q.sup := by
  have charged := State.queue?_modQueue (fun q => { q with credit := q.credit - n }) hq
  obtain ⟨qs1, hqs1⟩ := State.modQueue_eq s part qn (fun q => { q with credit := q.credit - n })
  rw [hqs1] at charged
  have level := State.queue?_modQueue (fun q => { q with level := 0, agingFrom := some s.now }) charged
  obtain ⟨qs2, hqs2⟩ := State.modQueue_eq ({ s with queues := qs1 } : State) part qn (fun q => { q with level := 0, agingFrom := some s.now })
  rw [hqs2] at level
  refine ⟨qs2, insertPlanned ⟨s.now + 2 ^ 20, .queueAging, { nats := [part, qn] }⟩ s.schedule, _, ?_, level, rfl⟩
  unfold State.takeTurn State.startAging
  rw [hqs1]
  exact congrArg (fun t : State => t.plan (2 ^ 20) .queueAging { nats := [part, qn] }) hqs2

/-- R89: a head's unit of one hart goes to a slot, its queue's turn charged. -/
theorem turn_places {s : State} {part qn l core slot : Nat} {L : Launch} {q : Queue} {p : Part} (hpart : part = L.part) (hqn : qn = L.q)
    (hl : s.launch? l = some L) (plain : L.Plain) (hq : s.queue? L.part L.q = some q) (hp : s.part? L.part = some p)
    (hs : s.standsAtHome L.part q.sup) (align : q.sup % 32 = 0) (wants : L.pkt.gang = true ∨ L.claimable = true) :
    ∃ q', UnitPlaced s l L (Queue.withSup q' (s.numAt L.part q.sup 32)) core slot
      ((s.takeTurn part qn 1).dispatchUnit l [⟨core, [slot]⟩]).kickDispatch := by
  subst hpart hqn
  obtain ⟨qs, sch, q', turn, hq', sup⟩ := takeTurn_eq (n := 1) hq
  rw [turn]
  obtain ⟨hart, others, launch, mem, bars⟩ := dispatchUnit_places (s := { s with queues := qs, schedule := sch }) (core := core)
    (slot := slot) hl plain hq' hp (sup ▸ hs) (sup ▸ align) wants
  rw [sup] at hart
  exact ⟨q', hart, others, launch, mem, bars⟩

/-- R88, R89: PLACE_UNIT serves the only head that may be served. -/
theorem placeUnit_places {s : State} {hd : Head} {core slot : Nat} {q : Queue} {p : Part} (hage : s.ageQueues = s)
    (ha : s.arg.nats = []) (hserved : s.served = ([hd], false)) (hsaved : hd.l.saved = []) (hgang : hd.l.pkt.gang = false)
    (hfit : s.unitFor hd = some [⟨core, [slot]⟩]) (hpart : hd.part = hd.l.part) (hqn : hd.q = hd.l.q)
    (hl : s.launch? hd.launch = some hd.l) (plain : hd.l.Plain) (left : hd.l.next < hd.l.pkt.count)
    (hq : s.queue? hd.l.part hd.l.q = some q) (hp : s.part? hd.l.part = some p) (hs : s.standsAtHome hd.l.part q.sup)
    (align : q.sup % 32 = 0) : ∃ t q', exec .placeUnit s = .next t ∧
      UnitPlaced s hd.launch hd.l (Queue.withSup q' (s.numAt hd.l.part q.sup 32)) core slot t := by
  have run : exec .placeUnit s = .next ((((s.drawn).takeTurn hd.part hd.q 1).dispatchUnit hd.launch [⟨core, [slot]⟩]).kickDispatch) := by
    change execPlaceUnit s = _
    simp only [execPlaceUnit, hage, hserved, State.chosen, ha, List.head?_cons, hsaved, hgang, List.isEmpty_nil, Bool.not_true,
      Bool.false_eq_true, if_false, hfit]
  have claimable : hd.l.claimable = true := by
    simp [Launch.claimable, plain.open_, plain.determ, left]
  obtain ⟨q', hart, others, launch, mem, bars⟩ := turn_places (s := s.drawn) (core := core) (slot := slot) hpart hqn hl plain hq hp hs
    align (.inr claimable)
  exact ⟨_, q', run, hart, others, launch, mem, bars⟩

/-- R90: PLACE_GANG places a gang of one. -/
theorem placeGang_places {s : State} {hd : Head} {core slot : Nat} {q : Queue} {p : Part} (ha : s.arg.nats = [hd.launch])
    (hplaces : s.arg.places = []) (hserved : s.served.1.find? (fun h => h.launch == hd.launch) = some hd) (hsaved : hd.l.saved = [])
    (hgang : hd.l.pkt.gang = true) (hlim : hd.l.pkt.hlim = 1) (hpc : hd.l.pkt.hpc = 0) (cpk : hd.l.pkt.cpk = 0)
    (hfit : s.gangFit hd.launch hd.l true = some [[⟨core, [slot]⟩]]) (hpart : hd.part = hd.l.part) (hqn : hd.q = hd.l.q)
    (hl : s.launch? hd.launch = some hd.l) (plain : hd.l.Plain) (hq : s.queue? hd.l.part hd.l.q = some q)
    (hp : s.part? hd.l.part = some p) (hs : s.standsAtHome hd.l.part q.sup) (align : q.sup % 32 = 0) :
    ∃ t q', exec .placeGang s = .next t ∧
      UnitPlaced s hd.launch hd.l (Queue.withSup q' (s.numAt hd.l.part q.sup 32)) core slot t := by
  have at0 : s.arg.nat 0 = hd.launch := by rw [EventArgs.nat, ha, List.getD_cons_zero]
  have one : hd.l.pkt.hg = 1 := by rw [Packet.hg, Packet.h, Packet.g, hpc, cpk]
  have none : s.validGang hd.l [] = false := by
    simp [State.validGang, hp, hlim, one]
  have run : exec .placeGang s = .next (((s.takeTurn hd.part hd.q 1).dispatchUnit hd.launch [⟨core, [slot]⟩]).kickDispatch) := by
    change execPlaceGang s = _
    simp only [execPlaceGang, at0, hserved, hsaved, hgang, List.isEmpty_nil, Bool.not_true, Bool.or_self, Bool.false_eq_true, if_false,
      hplaces, none, hfit]
    rfl
  obtain ⟨q', placed⟩ := turn_places (core := core) (slot := slot) hpart hqn hl plain hq hp hs align (.inl hgang)
  exact ⟨_, q', run, placed⟩

/-- R73: what a `satp` written over 0 holds, written once more or not. -/
theorem satpWrite_twice (w : DWord) : satpWrite 0 (satpWrite 0 w) = if satpMode w ∈ [0, 9, 10, 14] then w else 0 := by
  simp only [List.mem_cons, List.not_mem_nil, or_false]
  by_cases legal : satpMode w = 0 ∨ satpMode w = 9 ∨ satpMode w = 10 ∨ satpMode w = 14
  · rw [if_pos legal, satpWrite, satpWrite, if_pos legal, if_pos legal]
  · rw [if_neg legal, satpWrite, satpWrite, if_neg legal]
    exact ite_self _

/-- R69, R73, R86, R91: what a hart placed under the supervisor block at `a` holds. -/
theorem newHart_values (s : State) (part a : Nat) (L : Launch) (q : Queue) (role : Role) (stopped : Bool) (now : Nat) :
    let sup := fun i => BitVec.ofNat 64 (s.numAt part (a + 8 * i) 8)
    let g := L.newHart (q.withSup (s.numAt part a 32)) role stopped now
    g.csr.stvec = sup 0 &&& ~~~3 ∧ g.csr.satp = (if satpMode (sup 1) ∈ [0, 9, 10, 14] then sup 1 else 0) ∧ g.csr.sscratch = sup 2 ∧
      ∀ r, g.getX r = if r = 10 then L.pkt.args else 0 := by
  have word (i : Nat) (h : 8 * i + 8 ≤ 32) : s.numAt part a 32 / 256 ^ (8 * i) % 256 ^ 8 = s.numAt part (a + 8 * i) 8 :=
    numAt_div_mod s part a h
  refine ⟨?_, ?_, ?_, fun r => ?_⟩
  · change _ = BitVec.ofNat 64 (s.numAt part (a + 8 * 0) 8) &&& ~~~3
    rw [← word 0 (by decide)]
    exact (BitVec.and_assoc _ _ _).trans (congrArg _ BitVec.and_self)
  · change _ = if satpMode (BitVec.ofNat 64 (s.numAt part (a + 8 * 1) 8)) ∈ [0, 9, 10, 14] then
      BitVec.ofNat 64 (s.numAt part (a + 8 * 1) 8) else 0
    rw [← word 1 (by decide)]
    exact satpWrite_twice _
  · change _ = BitVec.ofNat 64 (s.numAt part (a + 8 * 2) 8)
    rw [← word 2 (by decide)]
    rfl
  · have args : (L.newHart (q.withSup (s.numAt part a 32)) role stopped now).x = Hart.reset.x.set 10 L.pkt.args := rfl
    by_cases zero : r = 0
    · subst zero
      rfl
    · have ten : 10 = r.toNat ↔ r = 10 := by
        rw [← BitVec.toNat_inj]
        exact eq_comm
      rw [Hart.getX, if_neg zero]
      simp only [args, Vector.getElem_set, ten, Hart.reset, Vector.getElem_replicate]

/-- The state of a hart and its launch that the placement of a unit of one hart comes to, as R69 and R91 list it. -/
theorem UnitPlaced.values {s t : State} {l core slot : Nat} {L : Launch} {q q' : Queue}
    (h : UnitPlaced s l L (Queue.withSup q' (s.numAt L.part q.sup 32)) core slot t) :
    let sup := fun (i : Nat) => BitVec.ofNat 64 (s.numAt L.part (q.sup + 8 * i) 8)
    let n := min 32 (L.pkt.count - L.next)
    ∃ g, t.hart? (core * 16 + slot) = some g ∧ (∀ j, j ≠ core * 16 + slot → t.hart? j = s.hart? j) ∧ g.pc = L.pkt.entry ∧
      g.priv = .U ∧ g.tsc = false ∧ (∀ r, g.getX r = if r = 10 then L.pkt.args else 0) ∧
      g.csr.stvec = sup 0 &&& ~~~3 ∧ g.csr.satp = (if satpMode (sup 1) ∈ [0, 9, 10, 14] then sup 1 else 0) ∧ g.csr.sscratch = sup 2 ∧
      g.dev.fs = L.fmt ∧ g.role.launch = some l ∧ g.role.part = L.part ∧ g.lanes.v = [] ∧ g.lanes.em = g.lanes.occ ∧
      (∀ i, i < 32 → g.lanes.occ.getLsbD i = decide (i < n) ∧ g.lanes.gen.getD i 1 = 0 ∧ g.lanes.cohort.getD i 1 = 0 ∧
        g.lanes.item.getD i 0 = if i < n then BitVec.ofNat 48 (L.next + i) else 0xFFFFFFFFFFFF) ∧
      t.launch? l = some { L with
        next := L.next + n
        high := if n = 0 then L.high else max L.high (L.next + n)
        unitsPlaced := L.unitsPlaced + 1 } ∧
      t.mem = s.mem := by
  obtain ⟨⟨role, stopped, g, hlaunch, hpart, hg, filled⟩, others, launch, mem, -⟩ := h
  obtain ⟨frame, v, em, occ, gen, cohort, item⟩ := filled
  obtain ⟨stvec, satp, sscratch, regs⟩ := newHart_values s L.part q.sup L q' role stopped s.now
  have claims (i : Nat) (hi : i < 32) : (i < 32 ∧ L.next + i < L.pkt.count) ↔ i < min 32 (L.pkt.count - L.next) := by omega
  refine ⟨g, hg, others, (congrArg Hart.pc frame :), (congrArg Hart.priv frame :), (congrArg Hart.tsc frame :),
    fun r => (congrArg (fun h : Hart => h.getX r) frame).trans (regs r), (congrArg (fun h : Hart => h.csr.stvec) frame).trans stvec,
    (congrArg (fun h : Hart => h.csr.satp) frame).trans satp, (congrArg (fun h : Hart => h.csr.sscratch) frame).trans sscratch,
    (congrArg (fun h : Hart => h.dev.fs) frame :), (congrArg (fun h : Hart => h.role.launch) frame).trans hlaunch,
    (congrArg (fun h : Hart => h.role.part) frame).trans hpart, v, em, fun i hi => ⟨?_, gen i hi, cohort i hi, ?_⟩, launch, mem⟩
  · rw [occ i hi]
    exact decide_eq_decide.2 (claims i hi)
  · rw [item i hi]
    exact if_congr (claims i hi) rfl rfl

end Sys2Proof.Machine

namespace Sys2Proof.Proofs

open Sys2Proof Sys2Proof.Machine

/-- Settles O47: a packet is read at its standing lines and judged by its fields; it is consumed by two writes; a new hart's lanes
take the launch's next indexes one by one. -/
theorem launchesBegin : Obligations.LaunchesBegin := by
  refine ⟨?_, ?_, ?_⟩
  · intro s part qn q ha hq hc slot v q1 p hslot hsup hcons slotAlign supAlign consAlign slotLt consLt _ ready hd
    have stands : q.Stands s part := ⟨hslot, hsup, hcons, slotAlign, supAlign, consAlign⟩
    refine ⟨fun good => packetCheck_accepts ha hq hc stands ready hd good, fun fails cmpl notify _ _ quiet => ?_⟩
    exact packetCheck_rejects ha hq hc stands ready hd slotLt consLt fails cmpl notify quiet
  · intro s part qn q pt ha hq hp hc hg hl slot v p hslot hsup hcons slotAlign supAlign consAlign ready open_ gang dep fmt count side word
      bare align hlt hs
    obtain ⟨t, L, run, launch, rfl, others, next, queue, event⟩ := launchActivate_starts ha hq hp hc hg hl
      ⟨hslot, hsup, hcons, slotAlign, supAlign, consAlign⟩ ready rfl open_ gang dep fmt count bare align hlt hs
    exact ⟨t, _, run, launch, rfl, rfl, rfl, rfl, rfl, rfl, rfl, rfl, rfl, rfl, rfl, rfl, others, next, queue, event⟩
  · intro s hd core slot q p hage hl running saved determ open_ ordered items requeued hpc cpk hpart hqn hq hp align hs _ _ _ L k sup n placed
    have plain : hd.l.Plain := ⟨running, determ, open_, ordered, items⟩
    refine ⟨fun ha served gang left fit => ?_, fun ha places served gang hlim fit => ?_⟩
    · obtain ⟨t, q', run, unit⟩ := placeUnit_places hage ha served saved gang fit hpart hqn hl plain left hq hp hs align
      exact ⟨t, run, unit.values⟩
    · obtain ⟨t, q', run, unit⟩ := placeGang_places ha places served saved gang hlim hpc cpk fit hpart hqn hl plain hq hp hs align
      exact ⟨t, run, unit.values, unit.bars gang⟩

end Sys2Proof.Proofs
end

section
/-! The lane instructions that write an x register or the exec mask (R257, R261, R265 to R267). -/

namespace Sys2Proof.Machine

open Sys2Proof

/-- R235: an instruction of type f64 is masked where the partition's feature mask says so, and only there. -/
theorem guardF64_open {s : State} {h : Hart} (hc : s.hart? s.cur = some h) (i : Instr) (t : Ty) (go : Out)
    (open_ : t = .f64 → s.pfmask h 4 = false) : guardF64 i t s go = go := by
  simp only [guardF64, hc]
  exact if_neg fun masked => by simp [open_ masked.1] at masked

/-- R61, R92: an instruction that only writes an x register. -/
theorem onHart_setX_scalarStep {s : State} {h : Hart} (hc : s.hart? s.cur = some h) (rd : BitVec 5) (v : Hart → DWord)
    (len : Nat) : ∃ t h', (onHart s fun h => s.retire (h.setX rd (v h)) len) = .next t ∧
      ScalarStep s t h h' rd (v h) (h.nextPc len) h.run.lastBack :=
  ⟨_, _, onHart_of s h _ hc, s.scalar_step h rd (v h) len⟩

/-- R257: `lextr`, where its type is not masked. -/
theorem execLextr_scalarStep {s : State} {h : Hart} (hc : s.hart? s.cur = some h) (xd va : BitVec 6) (ty : Ty) (n : BitVec 5)
    (open_ : ty = .f64 → s.pfmask h 4 = false) :
    ∃ t h', execLextr xd va ty n s = .next t ∧
      ScalarStep s t h h' (xOf xd) (extracted h ty va.toNat n.toNat) (h.nextPc 8) h.run.lastBack := by
  rw [execLextr, guardF64_open hc _ _ _ open_]
  exact onHart_setX_scalarStep hc (xOf xd) _ 8

/-- R257: a register of a type that is neither i32 nor f64 is zero-extended. -/
theorem extracted_zext (h : Hart) {ty : Ty} (va n : Nat) (hi : ty ≠ .i32) (hf : ty ≠ .f64) :
    extracted h ty va n = (h.getV va n).setWidth 64 := by
  cases ty with
  | i32 => exact absurd rfl hi
  | f64 => exact absurd rfl hf
  | _ => rfl

/-- R266, R267: an instruction that replaces the exec mask and writes an x register. -/
theorem State.retire_em (s : State) (h : Hart) (em : BitVec 32) (rd : BitVec 5) (v : DWord) (len : Nat) :
    let h1 := { h with lanes := { h.lanes with em := em } }
    let h' := (h1.setX rd v).retire len
    OnlyHart s (s.retire (h1.setX rd v) len) s.cur h' ∧ RetiresTo h h' (h.nextPc len) ∧
      h'.lanes = { h.lanes with em := em } ∧ h'.dev = h.dev ∧ h'.run = h.settle.run ∧ writesX h h' rd v ∧
      h'.x = (h.setX rd v).x := by
  intro h1 h'
  have step := s.scalar_step h1 rd v len
  refine ⟨step.alone, step.retires.of_same rfl rfl rfl rfl, step.lanes, step.dev, step.run, step.x, ?_⟩
  rw [Hart.retire_x]
  simp only [Hart.setX]
  split <;> rfl

end Sys2Proof.Machine

namespace Sys2Proof.Proofs

open Sys2Proof Sys2Proof.Machine

/-- Settles O17: the writes of an x register are one shape, the writes of the exec mask another. -/
theorem laneMasksAndScalars : Obligations.LaneMasksAndScalars := by
  intro s h hc xd va pa xs n neg ty
  dsimp only
  refine ⟨onHart_setX_scalarStep hc _ _ 8, onHart_setX_scalarStep hc _ _ 8, onHart_setX_scalarStep hc _ _ 8,
    execLextr_scalarStep hc xd va .i32 n nofun, fun hi hf => ?_, fun open_ => execLextr_scalarStep hc xd va .f64 n fun _ => open_,
    ?_, ?_⟩
  · rw [← extracted_zext h _ _ hi hf]
    exact execLextr_scalarStep hc xd va ty n fun e => absurd e hf
  · obtain ⟨alone, retires, lanes, dev, run, -, x⟩ :=
      s.retire_em h ((h.getX (xs.setWidth 5)).setWidth 32 &&& h.lanes.occ) 0 0 8
    exact ⟨_, _, onHart_of s h _ hc, alone, retires, lanes, dev, run, x⟩
  · obtain ⟨alone, retires, lanes, dev, run, x, -⟩ :=
      s.retire_em h (h.lanes.em &&& (if neg then ~~~h.getP pa.toNat else h.getP pa.toNat)) (xOf xd) (h.lanes.em.setWidth 64) 8
    exact ⟨_, _, onHart_of s h _ hc, alone, retires, lanes, dev, run, x⟩

end Sys2Proof.Proofs
end

section
/-! Barriers (R101, R102, R108): the arrival of a hart, and the release of its group. -/

namespace Sys2Proof.Machine

open Sys2Proof

/-- R101: the barriers of the cluster groups, or of the core groups, where a hart is. -/
def State.bars (s : State) (whole : Bool) (k : Nat) : List Barrier :=
  if whole then (s.cluster (clusterOf k)).bar else (s.core (coreOf k)).bar

/-- Nothing of the package changed but harts, caches of data, the barriers of the groups where hart `k` is, and the events to
come. -/
structure BesideBars (s t : State) (whole : Bool) (k : Nat) : Prop where
  cores : ∀ c, { t.core c with bar := (s.core c).bar, hdc := (s.core c).hdc, l1 := (s.core c).l1 } = s.core c
  clusters : ∀ c, { t.cluster c with bar := (s.cluster c).bar } = s.cluster c
  others : ∀ j, whole = false → coreOf j ≠ coreOf k → t.bars whole j = s.bars whole j
  rest : { t with harts := s.harts, cores := s.cores, clusters := s.clusters, schedule := s.schedule, latencies := s.latencies } = s

/-- Nothing of the package changed but harts, caches of data and the events to come. -/
structure BarsKept (s t : State) : Prop where
  cores : CachesOnly s t
  rest : { t with harts := s.harts, cores := s.cores, schedule := s.schedule, latencies := s.latencies } = s

theorem BarsKept.trans {s t u : State} (h1 : BarsKept s t) (h2 : BarsKept t u) : BarsKept s u :=
  ⟨h1.cores.trans h2.cores,
    (congrArg (fun v : State => { v with harts := s.harts, cores := s.cores, schedule := s.schedule, latencies := s.latencies })
      h2.rest).trans h1.rest⟩

theorem BarsKept.of_caches {s t : State} (h : CachesMoved s t) : BarsKept s t :=
  ⟨h.cores, (congrArg (fun v : State => { v with harts := s.harts, schedule := s.schedule, latencies := s.latencies }) h.rest :)⟩

theorem BarsKept.of_harts {s : State} (hs : Map Hart) : BarsKept s { s with harts := hs } := ⟨fun _ => rfl, rfl⟩

theorem BarsKept.of_plans {s t : State} (h : PlansOnly s t) : BarsKept s t := by
  rw [h.eq_with]
  exact ⟨fun _ => rfl, rfl⟩

theorem BarsKept.bars {s t : State} (h : BarsKept s t) (whole : Bool) (k : Nat) : t.bars whole k = s.bars whole k := by
  cases whole with
  | true => exact (congrArg (fun v : State => (v.cluster (clusterOf k)).bar) h.rest :)
  | false => exact (congrArg Core.bar (h.cores (coreOf k)) :)

theorem BesideBars.trans {s t u : State} {whole : Bool} {k : Nat} (h1 : BesideBars s t whole k) (h2 : BesideBars t u whole k) :
    BesideBars s u whole k where
  cores c := (congrArg (fun v : Core => { v with bar := (s.core c).bar, hdc := (s.core c).hdc, l1 := (s.core c).l1 })
    (h2.cores c)).trans (h1.cores c)
  clusters c := (congrArg (fun v : Cluster => { v with bar := (s.cluster c).bar }) (h2.clusters c)).trans (h1.clusters c)
  others j hw hj := (h2.others j hw hj).trans (h1.others j hw hj)
  rest := (congrArg (fun v : State => { v with
    harts := s.harts, cores := s.cores, clusters := s.clusters, schedule := s.schedule, latencies := s.latencies }) h2.rest).trans h1.rest

theorem BarsKept.beside {s t : State} (h : BarsKept s t) (whole : Bool) (k : Nat) : BesideBars s t whole k where
  cores c := (congrArg (fun v : Core => { v with bar := (s.core c).bar }) (h.cores c) :)
  clusters c := (congrArg (fun v : State => { v.cluster c with bar := (s.cluster c).bar }) h.rest :)
  others j _ _ := h.bars whole j
  rest := (congrArg (fun v : State => { v with clusters := s.clusters }) h.rest :)

/-! ## A barrier changed (R101) -/

/-- R101: the member that a group's barrier carries. -/
def barMember (whole : Bool) (member : Nat) : Nat := if whole then 0 else member

theorem Barrier.is_iff (b : Barrier) (l unit member : Nat) :
    b.is l unit member = true ↔ b.launch = l ∧ b.unit = unit ∧ b.member = member := by
  simp [Barrier.is, and_assoc]

theorem modBarrier_harts (s : State) (k l unit member : Nat) (whole : Bool) (f : Barrier → Barrier) :
    (s.modBarrier k l unit member whole f).harts = s.harts := by
  cases whole <;> rfl

theorem modBarrier_bars (s : State) (k l unit member : Nat) (whole : Bool) (f : Barrier → Barrier) :
    (s.modBarrier k l unit member whole f).bars whole k =
      (s.bars whole k).map (fun b => if b.is l unit (barMember whole member) then f b else b) := by
  cases whole with
  | true => exact (congrArg Cluster.bar ((s.cluster_setCluster _ _ _).trans (if_pos rfl)) :)
  | false => exact (congrArg Core.bar ((s.core_setCore _ _ _).trans (if_pos rfl)) :)

theorem modBarrier_beside (s : State) (k l unit member : Nat) (whole : Bool) (f : Barrier → Barrier) :
    BesideBars s (s.modBarrier k l unit member whole f) whole k := by
  cases whole with
  | true =>
    refine ⟨fun _ => rfl, fun c => ?_, nofun, rfl⟩
    rw [State.modBarrier, if_pos rfl, State.modCluster, State.cluster_setCluster]
    split
    · next own => rw [own]
    · rfl
  | false =>
    refine ⟨fun c => ?_, fun _ => rfl, fun j _ hj => ?_, rfl⟩
    · rw [State.modBarrier, if_neg Bool.false_ne_true, State.modCore, State.core_setCore]
      split
      · next own => rw [own]
      · rfl
    · exact (congrArg Core.bar ((s.core_setCore _ _ _).trans (if_neg hj)) :)

/-! ## Arrival (R102, R108) -/

/-- R108: a hart that has arrived at the barrier of its group and waits there. -/
def Hart.atBarrier (h : Hart) (whole : Bool) (now : Nat) : Hart :=
  { h with run := { h.run with wait := some (.barrier whole), barw := true, hangHeld := h.hangNow now, hangFrom := now } }

theorem barrierOf_isSome {s : State} {h : Hart} {l k : Nat} {whole : Bool} {b : Barrier} (launch : h.role.launch = some l)
    (listed : b ∈ s.bars whole k) (own : b.is l h.role.unit (barMember whole h.role.member) = true) :
    ∃ o, s.barrierOf k h whole = some o := by
  refine Option.isSome_iff_exists.1 ?_
  cases whole with
  | true => simpa only [State.barrierOf, launch, if_true, List.find?_isSome] using ⟨b, listed, own⟩
  | false => simpa only [State.barrierOf, launch, Bool.false_eq_true, if_false, List.find?_isSome] using ⟨b, listed, own⟩

/-- R102: a hart's arrival at the barrier of its group is entered there, and the hart waits. -/
def State.arrive (s : State) (h : Hart) (l : Nat) (whole : Bool) : State :=
  (s.modBarrier s.cur l h.role.unit h.role.member whole fun b =>
    { b with arrived := b.arrived ++ [s.cur], flags := b.flags ||| h.dev.lflags }).setCur (h.atBarrier whole s.now)

/-- R108: `bar` of a hart of a gang launch that has not arrived, its release with nothing to wait for. -/
theorem barrierOp_arrives {s : State} {h : Hart} {L : Launch} {l : Nat} {whole : Bool} {o : Barrier} (i : Instr)
    (hc : s.hart? s.cur = some h) (launch : h.role.launch = some l) (hl : s.launch? l = some L) (gang : L.pkt.gang = true)
    (plain : L.pkt.ordered = false) (new : h.run.barw = false) (bar : s.barrierOf s.cur h whole = some o)
    (quiet : whole = true → h.dev.tbm = 0 ∧ (s.core (coreOf s.cur)).flight = []) :
    ∃ hs t, (∀ j, ({ s with harts := hs } : State).hart? j = s.hart? j) ∧ barrierOp i whole s = .next t ∧
      PlansOnly (({ s with harts := hs } : State).arrive h l whole) t := by
  obtain ⟨hs, released, harts⟩ : ∃ hs, (∀ f, s.releasing (if whole then scK else scC) i f = f { s with harts := hs }) ∧
      ∀ j, ({ s with harts := hs } : State).hart? j = s.hart? j := by
    cases whole with
    | false => exact ⟨s.harts, fun _ => rfl, fun _ => rfl⟩
    | true => exact State.releasing_quiet hc (quiet rfl).2 (quiet rfl).1 (scope := scK) (.inr (by decide)) i
  have ofHart : s.launchOf h = some L := by rw [State.launchOf, launch]; exact hl
  have run : barrierOp i whole s = .next (State.checkBarrier (((({ s with harts := hs } : State).modBarrier s.cur l h.role.unit
      h.role.member whole fun b => { b with arrived := b.arrived ++ [s.cur], flags := b.flags ||| h.dev.lflags })).modCur
        fun k => k.atBarrier whole s.now) s.cur l h.role.unit h.role.member whole false) := by
    rw [barrierOp, onHart_of s h _ hc, ofHart, launch, bar]
    simp only [gang, plain, new, Bool.not_true, Bool.or_self, Bool.false_eq_true, if_false, State.fence, if_true, released]
    cases whole <;> rfl
  generalize hu : ({ s with harts := hs } : State) = u at harts run
  have cur : u.cur = s.cur := hu ▸ rfl
  have now : u.now = s.now := hu ▸ rfl
  refine ⟨hs, _, hu ▸ harts, run, ?_⟩
  rw [hu, ← cur, ← now]
  have acting : (u.modBarrier u.cur l h.role.unit h.role.member whole fun b =>
      { b with arrived := b.arrived ++ [u.cur], flags := b.flags ||| h.dev.lflags }).hart? u.cur = some h := by
    rw [State.hart?, modBarrier_harts, ← State.hart?, cur, harts, hc]
  have still (f : Barrier → Barrier) : (u.modBarrier u.cur l h.role.unit h.role.member whole f).cur = u.cur := by
    cases whole <;> rfl
  rw [State.modCur_of _ h _ ((still _).symm ▸ acting)]
  exact checkBarrier_plansOnly _ _ _ _ _ _ _

/-- R102: an arrival touches the acting hart, and beside it the barriers where the hart is. -/
theorem arrive_beside (s : State) (h : Hart) (l : Nat) (whole : Bool) : BesideBars s (s.arrive h l whole) whole s.cur :=
  (modBarrier_beside s s.cur l h.role.unit h.role.member whole _).trans ((BarsKept.of_harts _).beside whole s.cur)

theorem hart?_arrive (s : State) (h : Hart) (l : Nat) (whole : Bool) (j : Nat) :
    (s.arrive h l whole).hart? j = if j = s.cur then some (h.atBarrier whole s.now) else s.hart? j := by
  cases whole <;> exact Map.find_put s.harts s.cur j _

theorem bars_arrive (s : State) (h : Hart) (l : Nat) (whole : Bool) :
    (s.arrive h l whole).bars whole s.cur = (s.bars whole s.cur).map fun b =>
      if b.is l h.role.unit (barMember whole h.role.member) then
        { b with arrived := b.arrived ++ [s.cur], flags := b.flags ||| h.dev.lflags } else b :=
  ((BarsKept.of_harts _).bars whole s.cur).trans (modBarrier_bars s s.cur l h.role.unit h.role.member whole _)

theorem mem_map_ite_iff {α : Type} (P : α → Bool) (f : α → α) (l : List α) (b' : α) :
    b' ∈ l.map (fun o => if P o then f o else o) ↔ ∃ o ∈ l, (¬ P o = true ∧ b' = o) ∨ (P o = true ∧ b' = f o) := by
  simp only [List.mem_map]
  refine exists_congr fun o => and_congr_right fun _ => ?_
  cases P o <;> simp [eq_comm]

/-! ## Release (R102) -/

/-- R102: a hart behind the barrier at which it has waited, or was to wait, with the group's flags. -/
def Hart.passBarrier (h : Hart) (whole : Bool) (flags : BitVec 6) (now : Nat) : Hart :=
  let g := { h with dev := { h.dev with bflags := flags } }
  ((if h.run.wait = some (.barrier whole) then g.unpark now else g).retire 4).hangClear now

/-- R102: the release of one hart of a group. -/
def State.passOne (s : State) (whole : Bool) (flags : BitVec 6) (now k : Nat) : State :=
  (s.acquire (coreOf k) (if whole then scK else scC)).modHarts
    (fun j h => j == k && (h.run.wait == some (.barrier whole) || h.run.barw)) (fun _ h => h.passBarrier whole flags now)

theorem passBarrier_passes {h : Hart} {whole : Bool} (flags : BitVec 6) (now : Nat) (waits : h.run.wait = some (.barrier whole)) :
    RetiresTo h (h.passBarrier whole flags now) (h.nextPc 4) ∧ (h.passBarrier whole flags now).x = h.x ∧
      (h.passBarrier whole flags now).lanes = h.lanes ∧
      (h.passBarrier whole flags now).dev = { h.dev with bflags := flags } ∧
      (h.passBarrier whole flags now).run.wait = none ∧ (h.passBarrier whole flags now).run.barw = false := by
  have passed : h.passBarrier whole flags now =
      ((({ h with dev := { h.dev with bflags := flags } } : Hart).unpark now).retire 4).hangClear now := by
    rw [Hart.passBarrier, if_pos waits]
  rw [passed]
  generalize hg : (({ h with dev := { h.dev with bflags := flags } } : Hart).unpark now) = g
  obtain ⟨x, lanes, dev, run⟩ := g.retireTo_keeps (g.nextPc 4)
  have retired := g.retireTo_retires (g.nextPc 4)
  subst hg
  exact ⟨⟨retired.pc, retired.priv, retired.tsc, retired.role, retired.counted⟩, x, lanes, dev, (congrArg Run.wait run :),
    (congrArg Run.barw run :)⟩

theorem passOne_kept (s : State) (whole : Bool) (flags : BitVec 6) (now k : Nat) : BarsKept s (s.passOne whole flags now k) :=
  (BarsKept.of_caches (acquire_cachesMoved s (coreOf k) _)).trans (.of_harts _)

theorem acquire_harts (s : State) (core scope : Nat) : (s.acquire core scope).harts = s.harts :=
  (congrArg State.harts (acquire_cachesMoved s core scope).rest :)

theorem hart?_passOne (s : State) (whole : Bool) (flags : BitVec 6) (now k j : Nat) :
    (s.passOne whole flags now k).hart? j = (s.hart? j).map fun h =>
      if j == k && (h.run.wait == some (.barrier whole) || h.run.barw) then h.passBarrier whole flags now else h := by
  rw [State.passOne, State.hart?_modHarts, State.hart?, acquire_harts, ← State.hart?]

theorem hart?_passOne_other (s : State) (whole : Bool) (flags : BitVec 6) (now : Nat) {j k : Nat} (hj : j ≠ k) :
    (s.passOne whole flags now k).hart? j = s.hart? j := by
  rw [hart?_passOne]
  simp only [beq_eq_false_iff_ne.2 hj, Bool.false_and, Bool.false_eq_true, if_false]
  exact Option.map_id_apply

/-- R102: the release of the harts of a group, one after the other. -/
def State.passAll (s : State) (whole : Bool) (flags : BitVec 6) (now : Nat) (ps : List Nat) : State :=
  ps.foldl (fun t k => t.passOne whole flags now k) s

theorem passAll_kept (whole : Bool) (flags : BitVec 6) (now : Nat) (ps : List Nat) (s : State) :
    BarsKept s (s.passAll whole flags now ps) := by
  induction ps generalizing s with
  | nil => exact .of_harts s.harts
  | cons p ps ih => exact (passOne_kept s whole flags now p).trans (ih _)

theorem hart?_passAll_other (whole : Bool) (flags : BitVec 6) (now : Nat) {ps : List Nat} {j : Nat} (hj : j ∉ ps) (s : State) :
    (s.passAll whole flags now ps).hart? j = s.hart? j := by
  induction ps generalizing s with
  | nil => rfl
  | cons p ps ih =>
    obtain ⟨first, later⟩ := not_or.1 (mt List.mem_cons.2 hj)
    exact (ih later _).trans (hart?_passOne_other s whole flags now first)

theorem hart?_passAll (whole : Bool) (flags : BitVec 6) (now : Nat) {ps : List Nat} (apart : ps.Nodup) {k : Nat} (hk : k ∈ ps)
    {s : State} {h : Hart} (hh : s.hart? k = some h) (waits : h.run.wait = some (.barrier whole)) :
    (s.passAll whole flags now ps).hart? k = some (h.passBarrier whole flags now) := by
  induction ps generalizing s with
  | nil => cases hk
  | cons p ps ih =>
    obtain ⟨once, apart⟩ := List.nodup_cons.1 apart
    change ((s.passOne whole flags now p).passAll whole flags now ps).hart? k = _
    obtain rfl | later := List.mem_cons.1 hk
    · rw [hart?_passAll_other _ _ _ once, hart?_passOne, hh]
      simp [waits]
    · have other : k ≠ p := fun e => once (e ▸ later)
      exact ih apart later ((hart?_passOne_other s whole flags now other).trans hh)

/-- R101: a hart is in its group once. -/
theorem groupHarts_nodup {s : State} (sorted : Map.sorted s.harts = true) (l unit : Nat) (member : Option Nat) :
    (s.groupHarts l unit member).Nodup := by
  have rising := (Map.sorted_iff_pairwise _).1 sorted
  exact List.pairwise_map.2 ((rising.imp fun below => Nat.ne_of_lt below).filter _)

/-- R102: BARRIER_RELEASE where every hart of the group has arrived. -/
theorem exec_barrierRelease {s : State} {whole : Bool} {l u m p : Nat} {ps : List Nat} {b : Barrier}
    (operands : s.arg.nats = [l, u, m]) (ok : s.arg.ok = whole) (group : s.groupHarts l u (if whole then none else some m) = p :: ps)
    (found : (s.bars whole p).find? (fun o => o.is l u (barMember whole m)) = some b) (arrived : ∀ k ∈ p :: ps, k ∈ b.arrived) :
    exec .barrierRelease s = .next ((s.modBarrier p l u m whole fun c => { c with arrived := [], phase := c.phase + 1, flags := 0 }).passAll
      whole b.flags s.now (p :: ps)) := by
  obtain ⟨launch, unit, member⟩ := (b.is_iff l u (barMember whole m)).1
    (List.find?_some (p := fun o : Barrier => o.is l u (barMember whole m)) found)
  have full : s.barrierFull b whole = true := by
    have same : s.groupHarts b.launch b.unit (if whole then none else some b.member) = p :: ps := by
      rw [launch, unit, ← group, member]
      cases whole <;> rfl
    rw [State.barrierFull, same]
    simpa using arrived
  have inList : (if whole then (s.cluster (clusterOf p)).bar.find? (fun b => b.is l u 0)
      else (s.core (coreOf p)).bar.find? (fun b => b.is l u m)) = some b := by
    rw [← found]
    cases whole <;> rfl
  change execBarrierRelease s = _
  simp only [execBarrierRelease, EventArgs.nat, operands, ok, List.getD_cons_zero, List.getD_cons_succ, group, inList, full,
    Bool.not_true, Bool.false_eq_true, if_false]
  rfl

/-- R102: the barrier of a group after a change that keeps whose it is. -/
theorem find?_modBarrier {s : State} {whole : Bool} {l u m p : Nat} {b : Barrier} {f : Barrier → Barrier}
    (keeps : ∀ c : Barrier, (f c).is l u (barMember whole m) = c.is l u (barMember whole m))
    (found : (s.bars whole p).find? (fun o => o.is l u (barMember whole m)) = some b) :
    ((s.modBarrier p l u m whole f).bars whole p).find? (fun o => o.is l u (barMember whole m)) = some (f b) := by
  have same : (fun o : Barrier => o.is l u (barMember whole m)) ∘ (fun b => if b.is l u (barMember whole m) then f b else b) =
      fun o => o.is l u (barMember whole m) := by
    funext o
    simp only [Function.comp_apply]
    split
    · exact keeps o
    · rfl
  rw [modBarrier_bars, List.find?_map, same, found, Option.map_some, if_pos (List.find?_some found)]

end Sys2Proof.Machine

namespace Sys2Proof.Proofs

open Sys2Proof Sys2Proof.Machine

/-- Settles O31: an arrival is one barrier changed and a hart parked, a release one barrier changed and its harts unparked. -/
theorem barriers : Obligations.Barriers := by
  intro s whole lists same rest
  refine ⟨fun h L l b hc launch hl gang plain new listed own quiet => ?_,
    fun l u m b p ps operands ok sorted group found arrived => ?_⟩
  · obtain ⟨o, bar⟩ := barrierOf_isSome launch listed ((b.is_iff _ _ _).2 own)
    obtain ⟨hs, t, harts, run, plans⟩ :=
      barrierOp_arrives (if whole then .barK else .barC) hc launch hl gang plain new bar quiet
    have moved : BarsKept s { s with harts := hs } := .of_harts hs
    generalize hu : ({ s with harts := hs } : State) = v at harts plans moved
    have cur : v.cur = s.cur := hu ▸ rfl
    have now : v.now = s.now := hu ▸ rfl
    have kept := BarsKept.of_plans plans
    have harts_kept : t.harts = (v.arrive h l whole).harts := by rw [plans.eq_with]
    have hart (j : Nat) : t.hart? j = if j = s.cur then some (h.atBarrier whole s.now) else s.hart? j := by
      rw [State.hart?, harts_kept, ← State.hart?, hart?_arrive, cur, now, harts]
    refine ⟨t, by cases whole <;> exact run, (hart s.cur).trans (if_pos rfl), fun j hj => (hart j).trans (if_neg hj), fun b' => ?_, ?_⟩
    · change b' ∈ t.bars whole s.cur ↔ _
      rw [kept.bars, ← cur, bars_arrive, cur, moved.bars, mem_map_ite_iff]
      simp only [Barrier.is_iff]
      rfl
    · obtain ⟨cores, clusters, others, keeps⟩ := (moved.beside whole s.cur).trans
        ((cur ▸ arrive_beside v h l whole).trans (kept.beside whole s.cur))
      exact ⟨cores, clusters, others, keeps⟩
  · have gone := passAll_kept whole b.flags s.now (p :: ps)
      (s.modBarrier p l u m whole fun c => { c with arrived := [], phase := c.phase + 1, flags := 0 })
    have before (j : Nat) : (s.modBarrier p l u m whole fun c => { c with arrived := [], phase := c.phase + 1, flags := 0 }).hart? j =
        s.hart? j := by rw [State.hart?, modBarrier_harts, ← State.hart?]
    have apart : (p :: ps).Nodup := group ▸ groupHarts_nodup sorted _ _ _
    refine ⟨_, exec_barrierRelease operands ok group found fun k hk => (arrived k hk).1, fun k hk h hh => ?_, fun j hj => ?_, ?_, ?_⟩
    · obtain ⟨-, g, hg, waits⟩ := arrived k hk
      obtain rfl : h = g := Option.some.inj (hh.symm.trans hg)
      exact ⟨_, hart?_passAll whole b.flags s.now apart hk ((before k).trans hh) waits, passBarrier_passes b.flags s.now waits⟩
    · exact (hart?_passAll_other _ _ _ hj _).trans (before j)
    · change (State.bars _ whole p).find? _ = _
      rw [gone.bars]
      exact find?_modBarrier (fun _ => rfl) found
    · obtain ⟨cores, clusters, others, keeps⟩ := (modBarrier_beside s p l u m whole _).trans (gone.beside whole p)
      exact ⟨cores, clusters, others, keeps⟩

end Sys2Proof.Proofs
end

section
/-! `enq` and `waita` (R112, R150, R151). -/

namespace Sys2Proof.Machine

open Sys2Proof

/-! ## Releases that change nothing (R168) -/

/-- A change of one listed hart that leaves it as it is. -/
theorem State.modHarts_same {s : State} (sorted : Map.sorted s.harts = true) {k : Nat} {h : Hart} (hk : s.hart? k = some h)
    {f : Nat → Hart → Hart} (same : f k h = h) : s.modHarts (fun j _ => j == k) f = s := by
  have kept : Map.mapVal s.harts (fun j g => if j == k then f j g else g) = s.harts := by
    refine (List.map_congr_left fun e he => ?_).trans (List.map_id _)
    obtain ⟨j, g⟩ := e
    by_cases own : j = k
    · subst own
      obtain rfl : h = g := Option.some.inj (hk.symm.trans (Map.find_of_mem sorted he))
      simp only [beq_self_eq_true, if_true, same, id]
    · simp only [beq_iff_eq, if_neg own, id]
  rw [State.modHarts, kept]

/-- R168: a release at P of a hart that has marked nothing and whose core has no write on its way. -/
theorem releasing_nothing {s : State} {h : Hart} (sorted : Map.sorted s.harts = true) (hc : s.hart? s.cur = some h)
    (quiet : (s.core (coreOf s.cur)).flight = []) (clear : h.dev.tbm = 0) (i : Instr) (f : State → State) :
    s.releasing scP i f = f s := by
  have unmarked : s.marked s.cur scP = false := by simp [State.marked, quiet, hc, clear, scP, scX]
  have drained : s.drainCore (coreOf s.cur) = s := by simp only [State.drainCore, quiet, List.filter_nil, List.isEmpty_nil, if_true]
  have released : s.released s.cur scP = s := by
    rw [State.released, if_neg (by decide), drained]
    refine State.modHarts_same sorted hc ?_
    simp only [show decide (scP < scX) = true from rfl, Bool.and_true, ← clear]
  rw [State.releasing, if_neg (by decide), unmarked, released]
  rfl

/-! ## `enq` (R112) -/

/-- R112: an `enq` of hart `h` answers a value in `xd` and retires. -/
def State.answers (t : State) (k : Nat) (h : Hart) (xd : BitVec 5) (v : DWord) : Prop :=
  ∃ h', t.hart? k = some h' ∧ RetiresTo h h' (h.nextPc 4) ∧ writesX h h' xd v ∧ h'.lanes = h.lanes ∧ h'.dev = h.dev

/-- R112: the status of an `enq` is written and the instruction retires. -/
def State.answer (t : State) (xd : BitVec 5) (v : Nat) : State := t.modCur fun k => (k.setX xd (BitVec.ofNat 64 v)).retire 4

/-- A hart that keeps all of `h` that its instruction answers by. -/
structure SameButRun (h g : Hart) : Prop where
  frame : { g with run := h.run } = h
  pair : g.run.pair = h.run.pair

theorem answer_answers {t : State} {k : Nat} {h g : Hart} (cur : t.cur = k) (hg : t.hart? k = some g) (same : SameButRun h g)
    (xd : BitVec 5) (v : Nat) : (t.answer xd v).answers k h xd (BitVec.ofNat 64 v) := by
  subst cur
  have step := t.scalar_step g xd (BitVec.ofNat 64 v) 4
  obtain ⟨frame, pair⟩ := same
  have pc : g.nextPc 4 = h.nextPc 4 := by rw [Hart.nextPc, pair, ← frame]; rfl
  have x (r : BitVec 5) : g.getX r = h.getX r := Hart.getX_of_x h g r (congrArg Hart.x frame :)
  refine ⟨_, ?_, (pc ▸ step.retires).of_same (congrArg Hart.priv frame :) (congrArg Hart.tsc frame :) (congrArg Hart.role frame :)
    (congrArg Hart.csr frame :), ⟨step.x.1, fun r hr => ?_⟩, step.lanes.trans (congrArg Hart.lanes frame :),
    step.dev.trans (congrArg Hart.dev frame :)⟩
  · rw [State.answer, State.modCur_of _ _ _ hg]
    exact step.alone.acting
  · rw [step.x.2 r hr, x]

/-- R68, R151: a write leaves a hart all that its instruction answers by. -/
theorem SameButRun.of_other {part gpa : Nat} {h g : Hart} {o : Option Hart} (same : SameButRun h g)
    (other : OtherHart part gpa (some g) o) : ∃ g', o = some g' ∧ SameButRun h g' := by
  obtain ⟨g', rfl, woken⟩ := other
  refine ⟨g', rfl, ?_⟩
  obtain ⟨frame, pair⟩ := same
  rw [losesReservation_frame] at woken
  obtain rfl | ⟨_, _, _, _, -, rfl⟩ := woken <;> exact ⟨frame, pair⟩

theorem SameButRun.refl (h : Hart) : SameButRun h h := ⟨rfl, rfl⟩

/-- R315: an access of the acting hart to a standing line, its page neither declined nor failed. -/
theorem lineFor_stands {s : State} {h : Hart} {gpa : Nat} (quiet : (s.core (coreOf s.cur)).flight = [])
    (stands : s.standsAtHome h.role.part gpa) (allowed : gpa / 4096 ∉ h.run.declined ∧ gpa / 4096 ∉ h.run.failedPages)
    (va : DWord) (k : AccKind) : s.lineFor h va gpa k = .ok () s := by
  simp [State.lineFor, allowed, heldAt_of_quiet _ _ quiet, atHome_stands stands]

/-- R6: the number read at a standing line. -/
theorem natOfBytes_bytesAt {s : State} {part gpa n : Nat} (stands : s.standsAtHome part gpa) (line : gpa % 128 + n ≤ 128) :
    natOfBytes (s.bytesAt part gpa n) = s.numAt part gpa n := by
  rw [bytesAt_stands n stands, natOfBytes_lineBytes _ _ _ _ line]

/-- R81: the slot of a queue that takes the packet of a producer index. -/
def Queue.slotOf (q : Queue) (p : Nat) : Nat := q.ring + 64 * (p % 2 ^ q.n)

/-- R112: an `enq` of the acting hart `h` to queue `q` meets no miss and waits for nothing: packet, producer index and slot stand at
home, in pages that the hart may use. -/
structure PlainEnq (s : State) (h : Hart) (q : Queue) (a : DWord) (gpa : Nat) : Prop where
  listed : Map.sorted s.harts = true
  unordered : s.ordered h = false
  open_ : s.pfmask h 2 = false
  clear : h.dev.tbm = 0
  quiet : (s.core (coreOf s.cur)).flight = []
  prompt : s.latency = 0
  translated : s.translate h a .load = .ok gpa s
  aligned : a.toNat % 64 = 0 ∧ gpa % 64 = 0 ∧ q.prod % 8 = 0 ∧ q.slotOf (s.numAt h.role.part q.prod 8) % 64 = 0
  packet : s.standsAtHome h.role.part gpa
  index : s.standsAtHome h.role.part q.prod
  slot : s.standsAtHome h.role.part (q.slotOf (s.numAt h.role.part q.prod 8))
  allowed : ∀ g, g = gpa ∨ g = q.prod ∨ g = q.slotOf (s.numAt h.role.part q.prod 8) →
    g / 4096 ∉ h.run.declined ∧ g / 4096 ∉ h.run.failedPages

/-- R112: the two writes of an `enq`: the producer index, and the packet with its ready bit. -/
def State.enqueue (s : State) (part : Nat) (q : Queue) (p pkt : Nat) : State :=
  (s.writeHome part q.prod (bytesOfNat (p + 1) 8) none).writeHome part (q.slotOf p) (bytesOfNat (pkt % 2 ^ 511 + 2 ^ 511) 64) none

/-- R112: an `enq` that meets no miss answers 1 where the ring is full, and else writes and answers 0. -/
theorem exec_enq_plain {s : State} {h : Hart} (hc : s.hart? s.cur = some h) (xd xq xp : BitVec 5) {q : Queue} {gpa : Nat}
    (small : (h.getX xq).toNat ≤ 255) (hq : s.queue? h.role.part (h.getX xq).toNat = some q)
    (plain : PlainEnq s h q (h.getX xp) gpa) :
    exec (.enq xd xq xp) s = .next (if s.numAt h.role.part q.prod 8 - q.consIdx = 2 ^ q.n then s.popLatency.answer xd 1
      else (s.popLatency.enqueue h.role.part q (s.numAt h.role.part q.prod 8) (s.numAt h.role.part gpa 64)).answer xd 0) := by
  obtain ⟨listed, unordered, open_, clear, quiet, prompt, translated, ⟨aAlign, gAlign, pAlign, sAlign⟩, packet, index, slot, allowed⟩ := plain
  have index8 := natOfBytes_bytesAt (n := 8) index (by omega)
  have same (a n : Nat) := numAt_of_mem (s := s) (t := s.popLatency) rfl h.role.part a n
  have later8 := (natOfBytes_bytesAt (s := s.popLatency) (n := 8) index (by omega)).trans (same q.prod 8)
  have later64 := (natOfBytes_bytesAt (s := s.popLatency) (n := 64) packet (by omega)).trans (same gpa 64)
  have loads := lineFor_stands quiet packet (allowed _ (.inl rfl)) (h.getX xp) .load
  have stores := lineFor_stands quiet index (allowed _ (.inr (.inl rfl))) (BitVec.ofNat 64 q.prod) .store
  have fills := lineFor_stands quiet slot (allowed _ (.inr (.inr rfl))) (BitVec.ofNat 64 (q.slotOf (s.numAt h.role.part q.prod 8))) .store
  have ready : s.popLatency.ready h.role.part gpa = s.popLatency := drainPlace_of_quiet _ quiet
  change execEnq xd xq xp s = _
  simp only [execEnq, onHart_of s h _ hc, open_, State.stalling, unordered, aAlign, Nat.not_lt.2 small, hq, State.fence,
    releasing_nothing listed hc quiet clear, translated, Acc.bind_ok, loads, stores, index8, ne_eq, not_true_eq_false,
    Bool.not_false, Bool.false_eq_true, if_false, if_true]
  rw [← Queue.slotOf, fills]
  simp only [Acc.bind_ok, Acc.done_ok, withData_of_prompt prompt, if_true, ready, later8, later64]
  split <;> rfl

/-- A hart after writes of the package that leave it what its instruction answers by. -/
theorem enqueue_hart {s : State} {h : Hart} {part k : Nat} {q : Queue} {p : Nat} (pkt : Nat) (hk : s.hart? k = some h)
    (index : LineWritten s (s.writeHome part q.prod (bytesOfNat (p + 1) 8) none) part q.prod (bytesOfNat (p + 1) 8))
    (slot : LineWritten (s.writeHome part q.prod (bytesOfNat (p + 1) 8) none) (s.enqueue part q p pkt) part (q.slotOf p)
      (bytesOfNat (pkt % 2 ^ 511 + 2 ^ 511) 64)) :
    ∃ g, (s.enqueue part q p pkt).hart? k = some g ∧ SameButRun h g := by
  obtain ⟨g, hg, same⟩ := (SameButRun.refl h).of_other (hk ▸ index.harts k)
  exact same.of_other (hg ▸ slot.harts k)

/-- R81: byte j of a packet with its ready bit set. -/
theorem ofNat_readySet (n : Nat) {j : Nat} (hj : j < 64) : BitVec.ofNat 8 ((n % 2 ^ 511 + 2 ^ 511) / 256 ^ j) =
    if j = 63 then BitVec.ofNat 8 (n / 256 ^ j) ||| 0x80 else BitVec.ofNat 8 (n / 256 ^ j) := by
  have bit (v k : Nat) (hk : k < 8) : (BitVec.ofNat 8 (v / 256 ^ j)).getLsbD k = v.testBit (8 * j + k) := by
    rw [show (256 : Nat) ^ j = 2 ^ (8 * j) by rw [Nat.pow_mul], BitVec.getLsbD_ofNat, decide_eq_true hk, Bool.true_and,
      Nat.testBit_div_two_pow, Nat.add_comm k]
  refine BitVec.eq_of_getLsbD_eq fun k hk => ?_
  rw [bit _ k hk, Nat.add_comm (n % 2 ^ 511)]
  by_cases top : 8 * j + k = 511
  · obtain ⟨rfl, rfl⟩ : j = 63 ∧ k = 7 := by omega
    rw [if_pos rfl, Nat.testBit_two_pow_add_eq, Nat.testBit_lt_two_pow (Nat.mod_lt _ (Nat.two_pow_pos 511)), BitVec.getLsbD_or]
    exact (Bool.or_true _).symm
  · rw [Nat.testBit_two_pow_add_gt (by omega), Nat.testBit_mod_two_pow, decide_eq_true (show 8 * j + k < 511 by omega), Bool.true_and]
    split
    · have off : (0x80 : Byte).getLsbD k = false := by
        have : k < 7 := by omega
        interval_cases k <;> rfl
      rw [BitVec.getLsbD_or, bit n k hk, off, Bool.or_false]
    · exact (bit n k hk).symm

/-- R81, R112: the bytes that an `enq` leaves. -/
theorem byteAt_enqueue {s : State} {part gpa pkt : Nat} {q : Queue} {p : Nat} (hpkt : s.numAt part gpa 64 = pkt)
    (index : LineWritten s (s.writeHome part q.prod (bytesOfNat (p + 1) 8) none) part q.prod (bytesOfNat (p + 1) 8))
    (slot : LineWritten (s.writeHome part q.prod (bytesOfNat (p + 1) 8) none) (s.enqueue part q p pkt) part
      (q.slotOf p) (bytesOfNat (pkt % 2 ^ 511 + 2 ^ 511) 64)) (r : Nat) {b : Nat} (hb : b < 2 ^ 52) :
    (s.enqueue part q p pkt).byteAt r b =
      if r = part ∧ q.slotOf p ≤ b ∧ b < q.slotOf p + 64 then
        (if b = q.slotOf p + 63 then s.byteAt part (gpa + 63) ||| 0x80 else s.byteAt part (gpa + (b - q.slotOf p)))
      else if r = part ∧ q.prod ≤ b ∧ b < q.prod + 8 then BitVec.ofNat 8 ((p + 1) / 256 ^ (b - q.prod))
      else s.byteAt r b := by
  rw [slot.bytes.bytes r b hb, index.bytes.bytes r b hb, bytesOfNat_length, bytesOfNat_length]
  split
  · next inSlot =>
    rw [getD_bytesOfNat _ (by omega), ofNat_readySet _ (by omega), ← hpkt, ofNat_numAt_div s part gpa (by omega)]
    refine ite_congr (by simp; omega) (fun last => ?_) fun _ => rfl
    rw [last, Nat.add_sub_cancel_left]
  · split
    · next inIndex => exact getD_bytesOfNat _ (by omega)
    · rfl

/-- R112: an `enq` on a full ring answers 1. -/
theorem enq_full {s : State} {h : Hart} (hc : s.hart? s.cur = some h) (xd xq xp : BitVec 5) {q : Queue} {gpa : Nat}
    (small : (h.getX xq).toNat ≤ 255) (hq : s.queue? h.role.part (h.getX xq).toNat = some q)
    (plain : PlainEnq s h q (h.getX xp) gpa) (full : s.numAt h.role.part q.prod 8 = q.consIdx + 2 ^ q.n) :
    ∃ t, exec (.enq xd xq xp) s = .next t ∧ t.answers s.cur h xd 1 ∧ t.mem = s.mem := by
  have run := exec_enq_plain hc xd xq xp small hq plain
  rw [if_pos (by rw [full, Nat.add_sub_cancel_left])] at run
  refine ⟨_, run, answer_answers (t := s.popLatency) rfl hc (.refl h) xd 1, ?_⟩
  rw [State.answer, State.modCur_of s.popLatency h _ hc]
  rfl

/-- R112: an `enq` with room in the ring puts the packet into the next slot and answers 0. -/
theorem enq_enters {s : State} {h : Hart} (hc : s.hart? s.cur = some h) (xd xq xp : BitVec 5) {q : Queue} {gpa p : Nat}
    (small : (h.getX xq).toNat ≤ 255) (hq : s.queue? h.role.part (h.getX xq).toNat = some q)
    (plain : PlainEnq s h q (h.getX xp) gpa) (hp : s.numAt h.role.part q.prod 8 = p) (room : p < q.consIdx + 2 ^ q.n)
    (inIndex : q.prod < 2 ^ 52) (inSlot : q.slotOf p < 2 ^ 52) :
    ∃ t, exec (.enq xd xq xp) s = .next t ∧ t.answers s.cur h xd 0 ∧ { t.mem with llc := s.mem.llc } = s.mem ∧
      ∀ r b, b < 2 ^ 52 → t.byteAt r b =
        if r = h.role.part ∧ q.slotOf p ≤ b ∧ b < q.slotOf p + 64 then
          (if b = q.slotOf p + 63 then s.byteAt h.role.part (gpa + 63) ||| 0x80
           else s.byteAt h.role.part (gpa + (b - q.slotOf p)))
        else if r = h.role.part ∧ q.prod ≤ b ∧ b < q.prod + 8 then BitVec.ofNat 8 ((p + 1) / 256 ^ (b - q.prod))
        else s.byteAt r b := by
  have run := exec_enq_plain hc xd xq xp small hq plain
  obtain ⟨-, -, -, -, -, -, -, ⟨-, gAlign, pAlign, sAlign⟩, packet, index, slot, -⟩ := plain
  have notFull : ¬ p - q.consIdx = 2 ^ q.n := by have := Nat.two_pow_pos q.n; omega
  have pktRead := numAt_of_mem (s := s) (t := s.popLatency) rfl h.role.part gpa 64
  generalize s.numAt h.role.part gpa 64 = pkt at run pktRead
  rw [hp] at run sAlign slot
  rw [if_neg notFull] at run
  have line1 : q.prod % 128 + (bytesOfNat (p + 1) 8).length ≤ 128 := by rw [bytesOfNat_length]; omega
  have line2 : q.slotOf p % 128 + (bytesOfNat (pkt % 2 ^ 511 + 2 ^ 511) 64).length ≤ 128 := by rw [bytesOfNat_length]; omega
  have first := writeHome_stands (s := s.popLatency) none index inIndex line1
  have second := writeHome_stands none (writeHome_stays (s := s.popLatency) none index inIndex line1 slot) inSlot line2
  obtain ⟨g, hg, same⟩ := enqueue_hart (s := s.popLatency) pkt hc first second
  have bytes := fun r {b} (hb : b < 2 ^ 52) => byteAt_enqueue (s := s.popLatency) pktRead first second r hb
  have kept : { (s.popLatency.enqueue h.role.part q p pkt).mem with llc := s.mem.llc } = s.mem :=
    (congrArg (fun m : Mem => { m with llc := s.mem.llc }) second.bytes.rest).trans first.bytes.rest
  have cur : (s.popLatency.enqueue h.role.part q p pkt).cur = s.cur :=
    (congrArg State.cur second.rest :).trans (congrArg State.cur first.rest :)
  generalize s.popLatency.enqueue h.role.part q p pkt = u at run hg bytes kept cur
  refine ⟨_, run, answer_answers cur hg same xd 0, ?_, fun r b hb => ?_⟩
  · rw [State.answer, State.modCur_of u g _ (cur ▸ hg)]
    exact kept
  · rw [State.answer, State.modCur_of u g _ (cur ▸ hg)]
    exact bytes r hb

/-! ## `waita` (R150, R151) -/

/-- R151: a watch entered in a slice's table that has room. -/
def Die.watch (d : Die) (n : Nat) (w : Watch) : Die :=
  { d with slices := Map.put d.slices n { d.slice n with watches := (d.slice n).watches ++ [w] } }

def State.watch (s : State) (place : Nat) (w : Watch) : State := s.modDie (place / 64) fun d => d.watch (place % 64) w

theorem registerWatch_of_room {s : State} {place : Nat} (w : Watch)
    (room : ((s.die (place / 64)).slice (place % 64)).watches.length < 256) : s.registerWatch place w = s.watch place w :=
  (if_pos room :)

theorem watches_watch (s : State) (place : Nat) (w : Watch) :
    (((s.watch place w).die (place / 64)).slice (place % 64)).watches = ((s.die (place / 64)).slice (place % 64)).watches ++ [w] := by
  rw [State.watch, State.modDie, State.die_setDie, if_pos rfl, Die.watch, Die.slice, Map.findD_put, if_pos rfl]

theorem die_watch (s : State) (place : Nat) (w : Watch) (d : Nat) :
    { (s.watch place w).die d with slices := (s.die d).slices } = s.die d := by
  rw [State.watch, State.modDie, State.die_setDie]
  split
  · next own => rw [own]; rfl
  · rfl

/-- R150: a plain `waita` compares; where the doubleword differs it ends with status 2, else its hart parks on a watch. -/
theorem exec_waita_plain {s : State} {h : Hart} (hc : s.hart? s.cur = some h) (xd xa xt : BitVec 5) {gpa : Nat}
    (open_ : s.pfmask h 6 = false) (plain : PlainAccess s h (h.getX xa) .load 8 gpa) :
    ∃ cs, CachesOnly s { s with cores := cs } ∧ exec (.waita xd xa xt) s = .next
      (if s.numAt h.role.part gpa 8 ≠ (h.getX xd).toNat then ({ s with cores := cs } : State).finishWaita xd 2
      else
        let line : Line := ⟨h.role.part, gpa / 128⟩
        let t := ((({ s with cores := cs, tag := s.tag + 1 } : State).registerWatch (s.home h.role.part gpa) ⟨s.cur, line⟩).modCur
          fun k => k.park (.waita (s.tag + 1) xd line) s.now)
        if h.getX xt = 0 then t else t.plan (h.getX xt).toNat .waitaTimeout { nats := [s.cur, s.tag + 1] }) := by
  obtain ⟨cs, cleaned, caches⟩ := (cleanHdc_cachesMoved s h.role.part gpa none).exists_cores
  have ready : s.ready h.role.part gpa = s := drainPlace_of_quiet _ plain.quiet
  have read := (natOfBytes_bytesAt (s := { s with cores := cs }) plain.stands (plain.in_line (.inr (.inr (.inr rfl))))).trans
    (numAt_of_mem (s := s) rfl h.role.part gpa 8)
  refine ⟨cs, caches, ?_⟩
  change execWaita xd xa xt s = _
  simp only [execWaita, onHart_of s h _ hc, open_, State.watching, plain.unwatched 1, plain.unordered, plain.aligned, plain.translated,
    plain.lineFor, Acc.bind_ok, Acc.done_ok, ready, cleaned, read, ne_eq, not_true_eq_false, Bool.false_eq_true, if_false]
  rfl

/-- R150: a plain `waita` of a word that differs: status 2, after an acquire at P. -/
theorem waita_differs {s : State} {h : Hart} (hc : s.hart? s.cur = some h) (xd xa xt : BitVec 5) {gpa : Nat}
    (open_ : s.pfmask h 6 = false) (plain : PlainAccess s h (h.getX xa) .load 8 gpa)
    (differs : s.numAt h.role.part gpa 8 ≠ (h.getX xd).toNat) :
    ∃ t h', exec (.waita xd xa xt) s = .next t ∧ t.hart? s.cur = some h' ∧ RetiresTo h h' (h.nextPc 4) ∧ writesX h h' xd 2 ∧
      h'.lanes = h.lanes ∧ h'.dev = h.dev ∧ CachesOnly s t ∧ (t.core (coreOf s.cur)).l1 = [] ∧
      (∀ j, j ≠ s.cur → t.hart? j = s.hart? j) ∧ { t with harts := s.harts, cores := s.cores } = s := by
  obtain ⟨cs, caches, run⟩ := exec_waita_plain hc xd xa xt open_ plain
  rw [if_pos differs] at run
  have emptied := CachesMoved.modCore { s with cores := cs } (coreOf s.cur) (f := fun c => { c with l1 := [] }) fun _ => rfl
  have empty : ((({ s with cores := cs } : State).modCore (coreOf s.cur) fun c => { c with l1 := [] }).core (coreOf s.cur)).l1 = [] := by
    rw [State.modCore, State.core_setCore, if_pos rfl]
  have done : ({ s with cores := cs } : State).finishWaita xd 2 =
      (({ s with cores := cs } : State).modCore (coreOf s.cur) fun c => { c with l1 := [] }).setCur ((h.setX xd 2).retire 4) :=
    State.modCur_of _ h _ hc
  have step := s.scalar_step h xd 2 4
  rw [done] at run
  exact ⟨_, _, run, step.alone.acting, step.retires, step.x, step.lanes, step.dev, caches.trans emptied.cores, empty, step.alone.others, rfl⟩

/-- R150, R151: a plain `waita` of a word that is equal: the hart parks with a watch on the line, and with a timeout where one is
given. -/
theorem waita_parks {s : State} {h : Hart} (hc : s.hart? s.cur = some h) (xd xa xt : BitVec 5) {gpa place : Nat}
    (open_ : s.pfmask h 6 = false) (plain : PlainAccess s h (h.getX xa) .load 8 gpa) (hplace : s.home h.role.part gpa = place)
    (equal : s.numAt h.role.part gpa 8 = (h.getX xd).toNat)
    (room : ((s.die (place / 64)).slice (place % 64)).watches.length < 256) :
    let line : Line := ⟨h.role.part, gpa / 128⟩
    ∃ t, exec (.waita xd xa xt) s = .next t ∧ t.hart? s.cur = some (h.park (.waita (s.tag + 1) xd line) s.now) ∧
      (∀ j, j ≠ s.cur → t.hart? j = s.hart? j) ∧
      ((t.die (place / 64)).slice (place % 64)).watches = ((s.die (place / 64)).slice (place % 64)).watches ++ [⟨s.cur, line⟩] ∧
      (h.getX xt ≠ 0 → ⟨s.now + (h.getX xt).toNat, .waitaTimeout, { nats := [s.cur, s.tag + 1] }⟩ ∈ t.schedule) ∧
      (∀ d, { t.die d with slices := (s.die d).slices } = s.die d) ∧ CachesOnly s t ∧
      { t with harts := s.harts, cores := s.cores, dies := s.dies, schedule := s.schedule, tag := s.tag } = s := by
  intro line
  obtain ⟨cs, caches, run⟩ := exec_waita_plain hc xd xa xt open_ plain
  rw [if_neg (not_not.2 equal), hplace] at run
  have parked : (({ s with cores := cs, tag := s.tag + 1 } : State).registerWatch place ⟨s.cur, line⟩).modCur
      (fun k => k.park (.waita (s.tag + 1) xd line) s.now) = (({ s with cores := cs, tag := s.tag + 1 } : State).watch place
        ⟨s.cur, line⟩).setCur (h.park (.waita (s.tag + 1) xd line) s.now) := by
    rw [registerWatch_of_room (s := { s with cores := cs, tag := s.tag + 1 }) _ room]
    exact State.modCur_of _ h _ hc
  dsimp only at run
  rw [parked] at run
  have watched := watches_watch s place ⟨s.cur, line⟩
  have dies := die_watch s place ⟨s.cur, line⟩
  have only := s.setCur_only (h.park (.waita (s.tag + 1) xd line) s.now)
  by_cases untimed : h.getX xt = 0
  · rw [if_pos untimed] at run
    exact ⟨_, run, only.acting, only.others, watched, fun c => absurd untimed c, dies, caches, rfl⟩
  · rw [if_neg untimed] at run
    exact ⟨_, run, only.acting, only.others, watched, fun _ => (mem_insertPlanned _ _ _).2 (.inl rfl), dies, caches, rfl⟩

end Sys2Proof.Machine

namespace Sys2Proof.Proofs

open Sys2Proof Sys2Proof.Machine

/-- Settles O38: an `enq` answers by one write of `xd`, after two writes of memory where the ring has room; a `waita` ends at once or
parks on a watch. -/
theorem queueAndWatchInstructions : Obligations.QueueAndWatchInstructions := by
  refine ⟨fun s h xd xq xp hc listed unordered open_ _ => ⟨fun misaligned taken => ?_, fun aligned absent => ?_, ?_⟩,
    fun s h xd xa xt gpa hc _ open_ plain => ⟨waita_differs hc xd xa xt open_ plain, waita_parks hc xd xa xt open_ plain rfl⟩⟩
  · refine ⟨_, ?_, State.raise_takes hc 4 (h.getX xp) taken⟩
    change execEnq xd xq xp s = _
    simp only [execEnq, onHart_of s h _ hc, open_, State.stalling, unordered, misaligned, Bool.not_false, Bool.false_eq_true, ne_eq,
      not_false_eq_true, if_true, if_false]
  · refine ⟨s.answer xd 2, ?_, answer_answers rfl hc (.refl h) xd 2, ?_⟩
    · change execEnq xd xq xp s = _
      simp only [execEnq, onHart_of s h _ hc, open_, State.stalling, unordered, aligned, Bool.not_false, Bool.false_eq_true, ne_eq,
        not_true_eq_false, if_true, if_false]
      by_cases large : 255 < (h.getX xq).toNat
      · rw [if_pos large]; rfl
      · rw [if_neg large, absent.resolve_left large]; rfl
    · rw [State.answer, State.modCur_of s h _ hc]
      rfl
  · intro q gpa aligned small hq clear quiet prompt translated inPacket packetAlign packet index inIndex indexAlign p slot slotStands
      inSlot slotAlign _ _ _ allowed
    have plain : PlainEnq s h q (h.getX xp) gpa := ⟨listed, unordered, open_, clear, quiet, prompt, translated,
      ⟨aligned, packetAlign, indexAlign, slotAlign⟩, packet, index, slotStands, allowed⟩
    exact ⟨enq_full hc xd xq xp small hq plain, fun room => enq_enters hc xd xq xp small hq plain rfl room inIndex inSlot⟩

end Sys2Proof.Proofs
end

section
/-! `rfl` and `xit` (R91, R96, R109, R110): the vacant lanes of a hart take items of its launch, and give them up. -/

namespace Sys2Proof.Machine

open Sys2Proof

/-! ## Masks -/

theorem setMask_zero_true (l : Nat) : setMask 0 l true = (1 : Word) <<< l := by simp [setMask]

/-- The mask of one lane. -/
theorem getLsbD_laneBit {i l : Nat} (hi : i < 32) : ((1 : Word) <<< l).getLsbD i = decide (i = l) := by
  rw [← setMask_zero_true, getLsbD_setMask 0 hi]
  rw [show (0 : Word).getLsbD i = false from BitVec.getLsbD_zero, Bool.false_or]

/-- A lane cleared in a mask. -/
theorem getLsbD_setMask_false (v : Word) {i l : Nat} (hi : i < 32) : (setMask v l false).getLsbD i = (v.getLsbD i && !decide (i = l)) := by
  rw [setMask, if_neg Bool.false_ne_true, BitVec.getLsbD_and, BitVec.getLsbD_not, getLsbD_laneBit hi, decide_eq_true hi,
    Bool.true_and]

theorem getLsbD_foldl_clear (ls : List Nat) (v : Word) {i : Nat} (hi : i < 32) :
    (ls.foldl (fun m l => setMask m l false) v).getLsbD i = (v.getLsbD i && !decide (i ∈ ls)) := by
  induction ls generalizing v with
  | nil => simp
  | cons l ls ih =>
    rw [List.foldl_cons, ih, getLsbD_setMask_false v hi, Bool.and_assoc, ← Bool.not_or, ← Bool.decide_or]
    simp only [List.mem_cons]

/-! ## The lanes of a hart, filled (R91, R109) -/

/-- A hart of `s` and its launch have changed, and no other hart and no other launch; `g` and `L` are what they are now. -/
structure HartAndLaunch (s t : State) (k lid : Nat) (g : Hart) (L : Launch) : Prop where
  hart : t.hart? k = some g
  others : ∀ j, j ≠ k → t.hart? j = s.hart? j
  launch : t.launch? lid = some L
  launches : ∀ m, m ≠ lid → t.launch? m = s.launch? m
  rest : { t with harts := s.harts, launches := s.launches } = s

theorem HartAndLaunch.setHart {s t : State} {k lid : Nat} {g : Hart} {L : Launch} (f : HartAndLaunch s t k lid g L) (g' : Hart) :
    HartAndLaunch s (t.setHart k g') k lid g' L where
  hart := State.hart?_setHart_same t k g'
  others j hj := (State.hart?_setHart t k j g').trans ((if_neg hj).trans (f.others j hj))
  launch := f.launch
  launches := f.launches
  rest := f.rest

theorem HartAndLaunch.setLaunch {s t : State} {k lid : Nat} {g : Hart} {L : Launch} (f : HartAndLaunch s t k lid g L) (L' : Launch) :
    HartAndLaunch s (t.setLaunch lid L') k lid g L' where
  hart := f.hart
  others := f.others
  launch := (State.launch?_setLaunch t lid lid L').trans (if_pos rfl)
  launches m hm := (State.launch?_setLaunch t lid m L').trans ((if_neg hm).trans (f.launches m hm))
  rest := f.rest

theorem HartAndLaunch.modHart {s t : State} {k lid : Nat} {g : Hart} {L : Launch} (f : HartAndLaunch s t k lid g L) (F : Hart → Hart) :
    HartAndLaunch s (t.modHarts (fun j _ => j == k) fun _ h => F h) k lid (F g) L where
  hart := by rw [State.hart?_modHarts, f.hart, Option.map_some, if_pos (beq_self_eq_true k)]
  others j hj := by
    rw [State.hart?_modHarts, ← f.others j hj]
    simp only [beq_iff_eq, if_neg hj]
    exact Option.map_id_apply
  launch := f.launch
  launches := f.launches
  rest := f.rest

theorem HartAndLaunch.cur {s t : State} {k lid : Nat} {g : Hart} {L : Launch} (f : HartAndLaunch s t k lid g L) : t.cur = s.cur :=
  (congrArg State.cur f.rest :)

theorem HartAndLaunch.modCur {s t : State} {lid : Nat} {g : Hart} {L : Launch} (f : HartAndLaunch s t s.cur lid g L) (F : Hart → Hart) :
    HartAndLaunch s (t.modCur F) s.cur lid (F g) L := by
  rw [State.modCur_of t g F (f.cur ▸ f.hart), State.setCur, f.cur]
  exact f.setHart (F g)

theorem HartAndLaunch.modLaunch {s t : State} {k lid : Nat} {g : Hart} {L : Launch} (f : HartAndLaunch s t k lid g L)
    (F : Launch → Launch) : HartAndLaunch s (t.modLaunch lid F) k lid g (F L) := by
  rw [State.modLaunch, f.launch]
  exact f.setLaunch (F L)

/-- R109: one lane of a hart in the filling of its lanes. -/
def fillLaneStep (lid k : Nat) (again : Bool) (cohort : BitVec 32) (acc : Word × State) (l : Nat) : Word × State :=
  match acc.2.hart? k with
  | none => acc
  | some h =>
    if h.lanes.occ.getLsbD l then (acc.1, acc.2.setHart k { h with lanes := { h.lanes with fresh := setMask h.lanes.fresh l false } })
    else
      match acc.2.nextItem lid k l with
      | (some (i, ts), t) => (setMask acc.1 l true, t.modHarts (fun j _ => j == k) (fun _ g => g.fillLane l i ts again cohort))
      | (none, t) => (acc.1, t.setHart k { h with lanes := { h.lanes with fresh := setMask h.lanes.fresh l false } })

theorem fillLanes_eq (s : State) (lid k : Nat) (again : Bool) (cohort : BitVec 32) :
    s.fillLanes lid k again cohort = allLanes.foldl (fillLaneStep lid k again cohort) (0, s) := rfl

/-- R33: a hart none of whose lanes in `ls` is fresh. -/
def Hart.stale (h : Hart) (ls : List Nat) : Hart :=
  { h with lanes := { h.lanes with fresh := ls.foldl (fun m l => setMask m l false) h.lanes.fresh } }

/-- R109: occupied lanes take nothing. -/
theorem fillOccupied {s t : State} {k lid : Nat} {g : Hart} {L : Launch} (again : Bool) (cohort : BitVec 32) (m : Word) (ls : List Nat)
    (f : HartAndLaunch s t k lid g L) (occ : ∀ l ∈ ls, g.lanes.occ.getLsbD l = true) :
    ∃ u, ls.foldl (fillLaneStep lid k again cohort) (m, t) = (m, u) ∧ HartAndLaunch s u k lid (g.stale ls) L := by
  induction ls generalizing t g with
  | nil => exact ⟨t, rfl, f⟩
  | cons l ls ih =>
    have step : fillLaneStep lid k again cohort (m, t) l =
        (m, t.setHart k { g with lanes := { g.lanes with fresh := setMask g.lanes.fresh l false } }) := by
      simp only [fillLaneStep, f.hart, occ l List.mem_cons_self, if_true]
    rw [List.foldl_cons, step]
    exact ih (f.setHart _) fun l' hl' => occ l' (List.mem_cons_of_mem _ hl')

/-- R96: the next item of a launch that hands out its indexes in order. -/
theorem nextItem_next {s : State} {lid : Nat} {L : Launch} (k lane : Nat) (hl : s.launch? lid = some L) (plain : L.Plain)
    (left : L.next < L.pkt.count) :
    s.nextItem lid k lane = (some (L.next, L.tsOf L.next), s.setLaunch lid { L.claimed L.next with next := L.next + 1 }) := by
  obtain ⟨running, determ, open_, ordered, items⟩ := plain
  simp only [State.nextItem, hl, running, items, List.find?_nil, determ, open_, ordered, left, Bool.false_eq_true, if_false, if_true]

/-- R96, R109: the one vacant lane of a hart takes the launch's next index. -/
theorem fillLanes_one {s t : State} {k lid n : Nat} {g : Hart} {L : Launch} (cohort : BitVec 32)
    (f : HartAndLaunch s t k lid g L) (hn : n < 32) (occ : g.lanes.occ = ~~~((1 : Word) <<< n)) (plain : L.Plain)
    (left : L.next < L.pkt.count) :
    ∃ u pre post, List.range 32 = pre ++ n :: post ∧ t.fillLanes lid k true cohort = (setMask 0 n true, u) ∧
      HartAndLaunch s u k lid (((g.stale pre).fillLane n L.next (L.tsOf L.next) true cohort).stale post)
        { L.claimed L.next with next := L.next + 1 } := by
  have bit {l : Nat} (hl : l < 32) : g.lanes.occ.getLsbD l = !decide (l = n) := by
    rw [occ, BitVec.getLsbD_not, getLsbD_laneBit hl, decide_eq_true hl, Bool.true_and]
  obtain ⟨pre, post, split⟩ := List.append_of_mem (List.mem_range.2 hn)
  have nodup := List.nodup_range (n := 32)
  have small : ∀ l ∈ pre ++ n :: post, l < 32 := fun l hl => List.mem_range.1 (split ▸ hl)
  rw [split] at nodup
  obtain ⟨-, apart, others⟩ := List.nodup_append.1 nodup
  have before : ∀ l ∈ pre, g.lanes.occ.getLsbD l = true := fun l hl => by
    rw [bit (small l (List.mem_append_left _ hl)), decide_eq_false (others l hl n List.mem_cons_self), Bool.not_false]
  have vacant : (g.stale pre).lanes.occ.getLsbD n = false := (bit hn).trans (by simp)
  obtain ⟨u1, first, f1⟩ := fillOccupied true cohort 0 pre f before
  have claim : fillLaneStep lid k true cohort (0, u1) n = (setMask 0 n true,
      (u1.setLaunch lid { L.claimed L.next with next := L.next + 1 }).modHarts (fun j _ => j == k)
        fun _ g => g.fillLane n L.next (L.tsOf L.next) true cohort) := by
    simp only [fillLaneStep, f1.hart, vacant, Bool.false_eq_true, if_false, nextItem_next k n f1.launch plain left]
  have f2 := (f1.setLaunch { L.claimed L.next with next := L.next + 1 }).modHart
    fun g => g.fillLane n L.next (L.tsOf L.next) true cohort
  obtain ⟨u3, last, f3⟩ := fillOccupied true cohort (setMask 0 n true) post f2 fun l hl => by
    have hl32 := small l (List.mem_append_right _ (List.mem_cons_of_mem _ hl))
    have other : l ≠ n := fun e => (List.nodup_cons.1 apart).1 (e ▸ hl)
    refine (getLsbD_setMask _ hl32).trans ?_
    exact Bool.or_eq_true_iff.2 (.inl ((bit hl32).trans (by rw [decide_eq_false other, Bool.not_false])))
  exact ⟨u3, pre, post, split, by rw [fillLanes_eq, allLanes, upTo, split, List.foldl_append, first, List.foldl_cons, claim, last], f3⟩

/-- R91, R109: what the lanes of a hart hold when its one vacant lane has taken an item. -/
theorem fillLane_lanes {g : Hart} {n item ts : Nat} {cohort : BitVec 32} {pre post : List Nat} (split : List.range 32 = pre ++ n :: post)
    (hn : n < 32) (occ : g.lanes.occ = ~~~((1 : Word) <<< n)) :
    (((g.stale pre).fillLane n item ts true cohort).stale post).lanes = { g.lanes with
      item := g.lanes.item.set! n (BitVec.ofNat 48 item), gen := g.lanes.gen.set! n (g.lanes.gen.getD n 0 + 1)
      cohort := g.lanes.cohort.set! n cohort, fresh := (1 : Word) <<< n, ts := g.lanes.ts.set! n (BitVec.ofNat 64 ts)
      p := g.lanes.p.map (fun q => q &&& ~~~((1 : Word) <<< n)), sticky := g.lanes.sticky.set! n 0
      sr := g.lanes.sr.set! n (srSeed g.dev.lseed item), occ := 0xFFFFFFFF, em := g.lanes.em ||| ((1 : Word) <<< n) } := by
  have all : setMask g.lanes.occ n true = 0xFFFFFFFF := by
    refine BitVec.eq_of_getLsbD_eq fun i hi => ?_
    rw [getLsbD_setMask _ hi, occ, BitVec.getLsbD_not, getLsbD_laneBit hi, decide_eq_true hi, Bool.true_and, Bool.not_or_self]
    rw [show (0xFFFFFFFF : Word) = BitVec.allOnes 32 from rfl, BitVec.getLsbD_allOnes, decide_eq_true hi]
  have apart := (List.nodup_append.1 (split ▸ (List.nodup_range : (List.range 32).Nodup))).2.1
  have fresh : post.foldl (fun m l => setMask m l false) (setMask (pre.foldl (fun m l => setMask m l false) g.lanes.fresh) n true) =
      (1 : Word) <<< n := by
    refine BitVec.eq_of_getLsbD_eq fun i hi => ?_
    have lane : i ∈ pre ++ n :: post := split ▸ List.mem_range.2 hi
    rw [getLsbD_foldl_clear _ _ hi, getLsbD_setMask _ hi, getLsbD_foldl_clear _ _ hi, getLsbD_laneBit hi]
    by_cases own : i = n
    · subst own
      simp [(List.nodup_cons.1 apart).1]
    · have placed : i ∈ pre ∨ i ∈ post := by simpa [own] using lane
      obtain inPre | inPost := placed
      · simp [own, inPre]
      · simp [own, inPost]
  simp only [Hart.stale, Hart.fillLane, all, fresh]
  rfl

/-- R109: the seed of a lane's rounding, as a number. -/
theorem srSeed_eq (seed : BitVec 32) {i : Nat} (hi : i < 2 ^ 48) :
    srSeed seed i = if seed.toNat ^^^ (i % 2 ^ 32) ^^^ (i / 2 ^ 32 * 2 ^ 16) = 0 then 1
      else BitVec.ofNat 32 (seed.toNat ^^^ (i % 2 ^ 32) ^^^ (i / 2 ^ 32 * 2 ^ 16)) := by
  have toNat : (seed ^^^ BitVec.ofNat 32 (i % 2 ^ 32) ^^^ BitVec.ofNat 32 (bits i 47 32 * 2 ^ 16)).toNat =
      seed.toNat ^^^ (i % 2 ^ 32) ^^^ (i / 2 ^ 32 * 2 ^ 16) := by
    have high : bits i 47 32 * 2 ^ 16 = i / 2 ^ 32 * 2 ^ 16 := by simp only [bits]; omega
    rw [high, BitVec.toNat_xor, BitVec.toNat_xor, BitVec.toNat_ofNat, BitVec.toNat_ofNat, Nat.mod_mod,
      Nat.mod_eq_of_lt (show i / 2 ^ 32 * 2 ^ 16 < 2 ^ 32 by omega)]
  rw [← toNat]
  unfold srSeed
  dsimp only
  refine ite_congr (by simp [BitVec.toNat_eq]) (fun _ => rfl) fun _ => BitVec.eq_of_toNat_eq (by simp)

/-! ## `rfl` (R109) -/

/-- R109: `rfl` of a hart that goes on with occupied lanes: the claims made, the mask of the lanes filled is written to `xd`. -/
theorem refill_goes {s u : State} {h g : Hart} {l : Nat} {m : Word} {L : Launch} (xd : BitVec 5)
    (filled : (s.modCur fun k => { k with run := { k.run with cohortCtr := h.run.cohortCtr + 1 } }).fillLanes l s.cur true
      (h.run.cohortCtr + 1) = (m, u)) (f : HartAndLaunch s u s.cur l g L) (occ : g.lanes.occ ≠ 0) :
    ∃ t, PlansOnly u t ∧ s.refill h l xd = t.setCur (((if m = 0 then g else g.hangClear s.now).setX xd (m.setWidth 64)).retire 4) := by
  have plans := noteClaims_plansOnly u l
  have hart : (u.noteClaims l).hart? s.cur = some g := by rw [plans.eq_with]; exact f.hart
  have launch : (u.noteClaims l).launch? l = some L := by rw [plans.eq_with]; exact f.launch
  refine ⟨u.noteClaims l, plans, ?_⟩
  unfold State.refill
  dsimp only at filled ⊢
  rw [filled, hart, launch]
  exact if_neg occ

/-- R109: `rfl` of the acting hart has made `s` into `t`: the hart is `h'`, with `v` in `xd`; its launch alone may have changed, and the
events to come. -/
def Refills (s t : State) (h h' : Hart) (l : Nat) (xd : BitVec 5) (v : DWord) : Prop :=
  t.hart? s.cur = some h' ∧ (∀ j, j ≠ s.cur → t.hart? j = s.hart? j) ∧
    RetiresTo h h' (h.nextPc 4) ∧ writesX h h' xd v ∧ h'.dev = h.dev ∧ h'.run.resv = h.run.resv ∧
    h'.run.cohortCtr = h.run.cohortCtr + 1 ∧ (∀ m, m ≠ l → t.launch? m = s.launch? m) ∧
    { t with harts := s.harts, launches := s.launches, schedule := s.schedule, latencies := s.latencies } = s

/-- R91: a hart whose cohort counter has counted one. -/
def Hart.nextCohort (h : Hart) : Hart := { h with run := { h.run with cohortCtr := h.run.cohortCtr + 1 } }

/-- A hart as `rfl` finds it once a cohort has been counted: its lanes and its hang counter may differ. -/
structure CohortCounted (h g : Hart) : Prop where
  frame : { g with lanes := h.lanes, run := h.run } = h
  cohort : g.run.cohortCtr = h.run.cohortCtr + 1
  resv : g.run.resv = h.run.resv
  pair : g.run.pair = h.run.pair

theorem Refills.of_popLatency {s t : State} {h h' : Hart} {l : Nat} {xd : BitVec 5} {v : DWord}
    (r : Refills s.popLatency t h h' l xd v) : Refills s t h h' l xd v := by
  obtain ⟨hart, others, retires, x, dev, resv, cohort, launches, rest⟩ := r
  exact ⟨hart, others, retires, x, dev, resv, cohort, launches,
    (congrArg (fun w : State => { w with latencies := s.latencies }) rest :)⟩

theorem CohortCounted.hangClear {h g : Hart} (c : CohortCounted h g) (now : Nat) : CohortCounted h (g.hangClear now) :=
  ⟨c.frame, c.cohort, c.resv, c.pair⟩

/-- R92: a hart so found that writes an x register and retires. -/
theorem CohortCounted.retires {h g : Hart} (c : CohortCounted h g) (xd : BitVec 5) (v : DWord) :
    RetiresTo h ((g.setX xd v).retire 4) (h.nextPc 4) ∧ writesX h ((g.setX xd v).retire 4) xd v ∧
      ((g.setX xd v).retire 4).dev = h.dev ∧ ((g.setX xd v).retire 4).run.resv = h.run.resv ∧
      ((g.setX xd v).retire 4).run.cohortCtr = h.run.cohortCtr + 1 := by
  obtain ⟨frame, cohort, resv, pair⟩ := c
  have step := State.reset.scalar_step g xd v 4
  have pc : g.nextPc 4 = h.nextPc 4 := by rw [Hart.nextPc, pair, ← frame]; rfl
  have x (r : BitVec 5) : g.getX r = h.getX r := Hart.getX_of_x h g r (congrArg Hart.x frame :)
  refine ⟨(pc ▸ step.retires).of_same (congrArg Hart.priv frame :) (congrArg Hart.tsc frame :) (congrArg Hart.role frame :)
    (congrArg Hart.csr frame :), ⟨step.x.1, fun r hr => ?_⟩, step.dev.trans (congrArg Hart.dev frame :), ?_, ?_⟩
  · rw [step.x.2 r hr, x]
  · rw [step.run, ← resv]; rfl
  · rw [step.run, ← cohort]; rfl

/-- R109: what `rfl` leaves of a hart that goes on with occupied lanes, the claims made. -/
theorem refill_refills {s u : State} {h g : Hart} {l : Nat} {m : Word} {L : Launch} (xd : BitVec 5) (hc : s.hart? s.cur = some h)
    (filled : (s.setCur h.nextCohort).fillLanes l s.cur true (h.run.cohortCtr + 1) = (m, u))
    (f : HartAndLaunch s u s.cur l g L) (occ : g.lanes.occ ≠ 0) (counted : CohortCounted h g) :
    ∃ h', Refills s (s.refill h l xd) h h' l xd (m.setWidth 64) ∧ h'.lanes = g.lanes ∧ (s.refill h l xd).launch? l = some L := by
  obtain ⟨t, plans, run⟩ := refill_goes xd (by rw [State.modCur_of s h _ hc]; exact filled) f occ
  have cur : t.cur = s.cur := (congrArg State.cur plans :).trans (congrArg State.cur f.rest :)
  have found : CohortCounted h (if m = 0 then g else g.hangClear s.now) := by
    split
    · exact counted
    · exact counted.hangClear s.now
  have lanes : (if m = 0 then g else g.hangClear s.now).lanes = g.lanes := by split <;> rfl
  generalize (if m = 0 then g else g.hangClear s.now) = k at found lanes run
  obtain ⟨retires, x, dev, resv, cohort⟩ := found.retires xd (m.setWidth 64)
  have harts : t.harts = u.harts := by rw [plans.eq_with]
  have launches : t.launches = u.launches := by rw [plans.eq_with]
  rw [run]
  refine ⟨(k.setX xd (m.setWidth 64)).retire 4, ⟨cur ▸ t.hart?_setCur _, fun j hj => ?_, retires, x, dev, resv, cohort,
    fun n hn => ?_, ?_⟩, by rw [Hart.retire_lanes, Hart.setX_lanes, lanes], ?_⟩
  · rw [State.hart?_setCur_other _ _ _ (cur ▸ hj), State.hart?, harts]
    exact f.others j hj
  · exact (congrArg (Map.find · n) launches).trans (f.launches n hn)
  · exact (congrArg (fun w : State => { w with harts := s.harts, launches := s.launches, schedule := s.schedule, latencies := s.latencies })
      plans :).trans (congrArg (fun w : State => { w with schedule := s.schedule, latencies := s.latencies }) f.rest :)
  · exact (congrArg (Map.find · l) launches).trans f.launch

/-- A hart whose cohort has been counted, its launch as it was. -/
theorem HartAndLaunch.start {s : State} {h : Hart} {l : Nat} {L : Launch} (hl : s.launch? l = some L) :
    HartAndLaunch s (s.setCur h.nextCohort) s.cur l h.nextCohort L :=
  ⟨State.hart?_setCur _ _, fun j hj => State.hart?_setCur_other _ _ j hj, hl, fun _ _ => rfl, rfl⟩

/-- R109: `rfl` of a hart with items, which does not drain. -/
theorem exec_rfl_of_launch {s : State} {h : Hart} {l : Nat} (xd : BitVec 5) (hc : s.hart? s.cur = some h)
    (launch : h.role.launch = some l) (still : h.run.drain = false) (prompt : h.lanes.occ = 0xFFFFFFFF ∨ s.latency = 0) :
    exec (.rfl xd) s = .next ((if h.lanes.occ = 0xFFFFFFFF then s else s.popLatency).refill h l xd) := by
  have now : (decide (h.lanes.occ = 0xFFFFFFFF) || decide (s.latency = 0)) = true := by simpa using prompt
  change execRfl xd s = _
  simp only [execRfl, onHart_of s h _ hc, launch, still, Bool.false_eq_true, if_false, now, if_true]

/-- R109: `rfl` of a hart whose lanes are all occupied. -/
theorem rfl_full {s : State} {h : Hart} {l : Nat} {L : Launch} (xd : BitVec 5) (hc : s.hart? s.cur = some h)
    (launch : h.role.launch = some l) (hl : s.launch? l = some L) (still : h.run.drain = false)
    (full : h.lanes.occ = 0xFFFFFFFF) :
    ∃ t h', exec (.rfl xd) s = .next t ∧ Refills s t h h' l xd 0 ∧ h'.lanes = { h.lanes with fresh := 0 } ∧
      t.launch? l = some L := by
  have run := exec_rfl_of_launch xd hc launch still (.inl full)
  rw [if_pos full] at run
  obtain ⟨u, filled, f⟩ := fillOccupied true (h.run.cohortCtr + 1) 0 (List.range 32) (HartAndLaunch.start hl) fun i hi => by
    change h.lanes.occ.getLsbD i = true
    rw [full, show (0xFFFFFFFF : Word) = BitVec.allOnes 32 from rfl, BitVec.getLsbD_allOnes, decide_eq_true (List.mem_range.1 hi)]
  obtain ⟨h', refills, lanes, kept⟩ := refill_refills xd hc filled f (show h.lanes.occ ≠ 0 by rw [full]; decide)
    ⟨rfl, rfl, rfl, rfl⟩
  refine ⟨_, h', run, refills, lanes.trans ?_, kept⟩
  have none : (List.range 32).foldl (fun m l => setMask m l false) h.lanes.fresh = 0 := by
    refine BitVec.eq_of_getLsbD_eq fun i hi => ?_
    rw [getLsbD_foldl_clear _ _ hi, decide_eq_true (List.mem_range.2 hi), Bool.not_true, Bool.and_false]
    exact BitVec.getLsbD_zero.symm
  exact (congrArg (fun v : Word => { h.lanes with fresh := v }) none :)

/-- R91, R96, R109: `rfl` of a hart with one vacant lane, the dispatcher answering at once. -/
theorem rfl_one {s : State} {h : Hart} {l n : Nat} {L : Launch} (xd : BitVec 5) (hc : s.hart? s.cur = some h)
    (launch : h.role.launch = some l) (hl : s.launch? l = some L) (still : h.run.drain = false) (hn : n < 32)
    (occ : h.lanes.occ = ~~~((1 : Word) <<< n)) (prompt : s.latency = 0) (plain : L.Plain) (left : L.next < L.pkt.count) :
    ∃ t h', exec (.rfl xd) s = .next t ∧ Refills s t h h' l xd ((1 : DWord) <<< n) ∧
      h'.lanes = { h.lanes with
        item := h.lanes.item.set! n (BitVec.ofNat 48 L.next), gen := h.lanes.gen.set! n (h.lanes.gen.getD n 0 + 1)
        cohort := h.lanes.cohort.set! n (h.run.cohortCtr + 1), fresh := (1 : Word) <<< n
        ts := h.lanes.ts.set! n (BitVec.ofNat 64 (L.tsOf L.next))
        p := h.lanes.p.map (fun q => q &&& ~~~((1 : Word) <<< n)), sticky := h.lanes.sticky.set! n 0
        sr := h.lanes.sr.set! n (srSeed h.dev.lseed L.next), occ := 0xFFFFFFFF, em := h.lanes.em ||| ((1 : Word) <<< n) } ∧
      t.launch? l = some { L with next := L.next + 1, high := max L.high (L.next + 1) } := by
  have run := exec_rfl_of_launch xd hc launch still (.inr prompt)
  have notFull : h.lanes.occ ≠ 0xFFFFFFFF := fun e => by
    have bit := congrArg (BitVec.getLsbD · n) (occ.symm.trans e)
    rw [BitVec.getLsbD_not, getLsbD_laneBit hn, show (0xFFFFFFFF : Word) = BitVec.allOnes 32 from rfl, BitVec.getLsbD_allOnes] at bit
    simp [hn] at bit
  rw [if_neg notFull] at run
  obtain ⟨u, pre, post, split, filled, f⟩ := fillLanes_one (h.run.cohortCtr + 1) (HartAndLaunch.start (s := s.popLatency) hl) hn occ plain left
  have lanes := fillLane_lanes (g := h.nextCohort) (item := L.next) (ts := L.tsOf L.next) (cohort := h.run.cohortCtr + 1) split hn occ
  obtain ⟨h', refills, kept, next⟩ := refill_refills (s := s.popLatency) xd hc filled f
    (by rw [lanes]; exact (by decide : (0xFFFFFFFF : Word) ≠ 0))
    ⟨rfl, rfl, rfl, rfl⟩
  have mask : (setMask 0 n true).setWidth 64 = (1 : DWord) <<< n := by
    have small : 2 ^ n < 2 ^ 32 := Nat.pow_lt_pow_right (by decide) hn
    rw [setMask_zero_true]
    refine BitVec.eq_of_toNat_eq ?_
    rw [BitVec.toNat_setWidth, BitVec.toNat_shiftLeft, BitVec.toNat_shiftLeft, show (1 : Word).toNat = 1 from rfl,
      show (1 : DWord).toNat = 1 from rfl, Nat.one_shiftLeft, Nat.mod_eq_of_lt small]
  exact ⟨_, h', run, mask ▸ refills.of_popLatency, kept.trans lanes, next⟩

/-! ## `xit` (R110) -/

/-- R98, R110: an item of a launch has ended with the sticky flags of its lane. -/
def Launch.exitOne (L : Launch) (flags : BitVec 6) : Launch := { L with flags := L.flags ||| flags, exited := L.exited + 1 }

theorem HartAndLaunch.exitLane {s t : State} {h g : Hart} {l : Nat} {L : Launch} (f : HartAndLaunch s t s.cur l g L)
    (unordered : L.pkt.ordered = false) (closed : L.pkt.open_ = false) (lane : Nat) :
    HartAndLaunch s (t.exitLane h l lane) s.cur l (g.vacate lane) (L.exitOne (h.lanes.sticky.getD lane 0)) := by
  have one := (f.modLaunch fun M => if M.pkt.ordered then
      match M.itemAt t.cur lane with
      | none => M
      | some i => M.modItem i.index (fun o => { o with exited := true, holder := none, flags := h.lanes.sticky.getD lane 0 })
    else if M.pkt.open_ then (M.exitOne (h.lanes.sticky.getD lane 0)).childGone (h.lanes.item.getD lane 0).toNat
    else M.exitOne (h.lanes.sticky.getD lane 0)).modCur fun k => k.vacate lane
  simp only [unordered, closed, Bool.false_eq_true, if_false] at one
  exact one

/-- R110: the items of some lanes end, one after the other. -/
theorem HartAndLaunch.exitLanes {s t : State} {h g : Hart} {l : Nat} {L : Launch} (ls : List Nat) (f : HartAndLaunch s t s.cur l g L)
    (unordered : L.pkt.ordered = false) (closed : L.pkt.open_ = false) :
    HartAndLaunch s (ls.foldl (fun t lane => t.exitLane h l lane) t) s.cur l (ls.foldl (fun k lane => k.vacate lane) g)
      (ls.foldl (fun M lane => M.exitOne (h.lanes.sticky.getD lane 0)) L) := by
  induction ls generalizing t g L with
  | nil => exact f
  | cons i ls ih => exact ih (f.exitLane unordered closed i) unordered closed

theorem foldl_vacate (ls : List Nat) (g : Hart) : ls.foldl (fun k lane => k.vacate lane) g = { g with lanes := { g.lanes with
    em := ls.foldl (fun m l => setMask m l false) g.lanes.em, occ := ls.foldl (fun m l => setMask m l false) g.lanes.occ } } := by
  induction ls generalizing g with
  | nil => rfl
  | cons i ls ih => exact ih (g.vacate i)

theorem foldl_exitOne (flags : Nat → BitVec 6) (ls : List Nat) (L : Launch) : ls.foldl (fun M i => M.exitOne (flags i)) L =
    { L with exited := L.exited + ls.length, flags := ls.foldl (fun f i => f ||| flags i) L.flags } := by
  induction ls generalizing L with
  | nil => rfl
  | cons i ls ih =>
    rw [List.foldl_cons, ih, Launch.exitOne, List.foldl_cons, List.length_cons, Nat.add_assoc, Nat.add_comm 1]

/-- R95: the lanes of a mask cleared in a mask. -/
theorem foldl_clear_of_mask (v m : Word) :
    ((List.range 32).filter m.getLsbD).foldl (fun w l => setMask w l false) v = v &&& ~~~m := by
  refine BitVec.eq_of_getLsbD_eq fun i hi => ?_
  rw [getLsbD_foldl_clear _ _ hi, BitVec.getLsbD_and, BitVec.getLsbD_not, decide_eq_true hi, Bool.true_and]
  simp [hi]

/-- R98, R110: `xit` of a hart of a plain launch, some of whose lanes are active. -/
theorem xit_exits {s : State} {h : Hart} {l : Nat} {L : Launch} (hc : s.hart? s.cur = some h) (launch : h.role.launch = some l)
    (hl : s.launch? l = some L) (unordered : L.pkt.ordered = false) (closed : L.pkt.open_ = false) (some_ : h.lanes.em ≠ 0) :
    ∃ t h', exec .xit s = .next t ∧ t.hart? s.cur = some h' ∧ (∀ j, j ≠ s.cur → t.hart? j = s.hart? j) ∧
      RetiresTo h h' (h.nextPc 4) ∧ h'.x = h.x ∧ h'.dev = h.dev ∧
      h'.lanes = { h.lanes with em := 0, occ := h.lanes.occ &&& ~~~h.lanes.em } ∧
      t.launch? l = some { L with
        exited := L.exited + ((List.range 32).filter h.lanes.em.getLsbD).length
        flags := (List.range 32).foldl (fun f i => if h.lanes.em.getLsbD i then f ||| h.lanes.sticky.getD i 0 else f) L.flags } ∧
      (∀ m, m ≠ l → t.launch? m = s.launch? m) ∧ { t with harts := s.harts, launches := s.launches } = s := by
  have ending : ((List.range 32).filter h.lanes.em.getLsbD).isEmpty = false := by
    refine Bool.eq_false_iff.2 fun none => some_ (BitVec.eq_of_getLsbD_eq fun i hi => ?_)
    have off := List.filter_eq_nil_iff.1 (List.isEmpty_iff.1 none) i (List.mem_range.2 hi)
    exact (Bool.eq_false_iff.2 off).trans BitVec.getLsbD_zero.symm
  have flags : ((List.range 32).filter h.lanes.em.getLsbD).foldl (fun f i => f ||| h.lanes.sticky.getD i 0) L.flags =
      (List.range 32).foldl (fun f i => if h.lanes.em.getLsbD i then f ||| h.lanes.sticky.getD i 0 else f) L.flags :=
    List.foldl_filter
  have start : HartAndLaunch s s s.cur l h L := ⟨hc, fun _ _ => rfl, hl, fun _ _ => rfl, rfl⟩
  have exited := (start.exitLanes (h := h) ((List.range 32).filter h.lanes.em.getLsbD) unordered closed).modCur
    fun k => (k.hangClear s.now).retire 4
  rw [foldl_exitOne (fun i => h.lanes.sticky.getD i 0), flags, foldl_vacate, foldl_clear_of_mask, foldl_clear_of_mask,
    show h.lanes.em &&& ~~~h.lanes.em = 0 by simp] at exited
  have run : exec .xit s = .next ((((List.range 32).filter h.lanes.em.getLsbD).foldl (fun t lane => t.exitLane h l lane) s).modCur
      fun k => (k.hangClear s.now).retire 4) := by
    have plain : ((((List.range 32).filter h.lanes.em.getLsbD).foldl (fun t lane => t.exitLane h l lane) s).modCur
        fun k => (k.hangClear s.now).retire 4).ordered h = false := by
      simp only [State.ordered, State.launchOf, launch, exited.launch]
      exact unordered
    change execXit s = _
    simp only [execXit, onHart_of s h _ hc, launch, allLanes, upTo, ending, plain, Bool.false_eq_true, if_false]
  obtain ⟨hart, others, here, launches, rest⟩ := exited
  generalize hg : ({ h with lanes := { h.lanes with em := 0, occ := h.lanes.occ &&& ~~~h.lanes.em } } : Hart) = g at hart
  obtain ⟨x, lanes, dev, -⟩ := (g.hangClear s.now).retireTo_keeps ((g.hangClear s.now).nextPc 4)
  have retires := (g.hangClear s.now).retireTo_retires ((g.hangClear s.now).nextPc 4)
  subst hg
  exact ⟨_, _, run, hart, others, retires.of_same rfl rfl rfl rfl, x, dev, lanes, here, launches, rest⟩

end Sys2Proof.Machine
end

section
/-! `spw` (R104, R111): the children of a hart's lanes. -/

namespace Sys2Proof.Machine

open Sys2Proof

/-! ## What is reserved (R104, R111) -/

/-- R111: a hart whose `spw` in hand has reserved what it names. -/
def Hart.reserving (h : Hart) (r : Nat × List (Nat × Nat)) : Hart := { h with run := { h.run with spawn := some r } }

/-- R111: the lanes of a hart that ask for a child. -/
def Hart.spawning (h : Hart) (pd : BitVec 4) : List Nat :=
  allLanes.filter fun l => h.lanes.em.getLsbD l && (h.getP pd.toNat).getLsbD l

theorem spawnTarget_launch {s : State} {part q n : Nat} {T : Launch} (target : s.spawnTarget part q = some (n, T)) :
    s.launch? n = some T := by
  unfold State.spawnTarget at target
  split at target
  · cases target
  · split at target
    · cases target
    · obtain ⟨l, -, hit⟩ := List.mem_filterMap.1 (List.mem_of_mem_head? target)
      split at hit
      · cases hit
      · next L hL =>
        split at hit
        · cases hit; exact hL
        · cases hit

/-- R111: the launches and the acting hart of `s` once its `spw` has reserved. -/
def State.reserved (s : State) (h : Hart) (ls : Map Launch) (r : Nat × List (Nat × Nat)) : State :=
  ({ s with launches := ls } : State).setCur (h.reserving r)

theorem reserve_of_full {s : State} {h : Hart} (hc : s.hart? s.cur = some h) (pd : BitVec 4) (xq : BitVec 5)
    (full : ∀ t, s.spawnTarget h.role.part (h.getX xq).toNat = some t → t.2.room = 0) :
    ∃ ls n, s.reserve h pd xq = s.reserved h ls (n, []) ∧ ∀ m, Map.find ls m = s.launch? m := by
  unfold State.reserve
  dsimp only
  cases target : s.spawnTarget h.role.part (h.getX xq).toNat with
  | none => exact ⟨s.launches, 0, State.modCur_of s h _ hc, fun _ => rfl⟩
  | some t =>
    obtain ⟨n, T⟩ := t
    have room : T.room = 0 := full _ target
    refine ⟨Map.put s.launches n T, n, ?_, fun m => ?_⟩
    · dsimp only
      rw [room, List.take_zero, List.zipIdx_nil, List.map_nil, List.map_nil, List.append_nil]
      exact State.modCur_of _ h _ hc
    · rw [Map.find_put]
      split
      · next same => rw [same, spawnTarget_launch target]
      · rfl

/-- R111: a child that a `spw` has reserved. -/
def reservedChild (i : Nat) : Child := { index := i, ts := 0, claimable := false, claimed := false }

theorem reserve_one {s : State} {h : Hart} (hc : s.hart? s.cur = some h) {pd : BitVec 4} {xq : BitVec 5} {n l : Nat} {T : Launch}
    (target : s.spawnTarget h.role.part (h.getX xq).toNat = some (n, T)) (room : 0 < T.room) (one : h.spawning pd = [l]) :
    s.reserve h pd xq = s.reserved h (Map.put s.launches n { T with
      appended := T.appended + 1, children := T.children ++ [reservedChild T.appended] }) (n, [(l, T.appended)]) := by
  have taken : (h.spawning pd).take T.room = [l] := by
    rw [one, List.take_of_length_le room]
  unfold Hart.spawning at taken
  simp only [State.reserve, target, taken]
  exact State.modCur_of _ h _ hc

/-! ## The lanes refused (R111) -/

/-- R111: the lanes refused a child lose their bit of a predicate. -/
def Hart.refuse (h : Hart) (p : Nat) (ls : List Nat) : Hart :=
  ls.foldl (fun a l => a.setP p (setMask (a.getP p) l false)) h

theorem refuse_frame (h : Hart) (p : Nat) (ls : List Nat) :
    h.refuse p ls = { h with lanes := { h.lanes with p := (h.refuse p ls).lanes.p } } := by
  induction ls generalizing h with
  | nil => rfl
  | cons l ls ih =>
    refine (ih (h.setP p (setMask (h.getP p) l false))).trans ?_
    rfl

theorem getP_refuse_other (h : Hart) {p q : Nat} (hp : p < 12) (hq : q ≠ p) (ls : List Nat) : (h.refuse p ls).getP q = h.getP q := by
  induction ls generalizing h with
  | nil => rfl
  | cons l ls ih => exact (ih _).trans ((h.getP_setP p q _ hp).trans (if_neg hq))

theorem getP_refuse (h : Hart) {p i : Nat} (hp : p < 12) (hi : i < 32) (ls : List Nat) :
    ((h.refuse p ls).getP p).getLsbD i = ((h.getP p).getLsbD i && !decide (i ∈ ls)) := by
  have folded : (h.refuse p ls).getP p = ls.foldl (fun m l => setMask m l false) (h.getP p) := by
    induction ls generalizing h with
    | nil => rfl
    | cons l ls ih =>
      refine (ih (h.setP p (setMask (h.getP p) l false))).trans ?_
      rw [h.getP_setP p p _ hp, if_pos rfl, List.foldl_cons]
  rw [folded, getLsbD_foldl_clear _ _ hi]

/-! ## The children (R111) -/

/-- R111: the end of a `spw`: the lanes refused lose their bit, the reservation is done with, the instruction retires. -/
def Hart.spawned (g : Hart) (p : Nat) (refused : List Nat) : Hart :=
  ({ g.refuse p refused with run := { (g.refuse p refused).run with spawn := none } } : Hart).retire 4

theorem spawnAll_of_reserving {s : State} {h : Hart} {r : Nat × List (Nat × Nat)} (hc : s.hart? s.cur = some (h.reserving r))
    (pd : BitVec 4) (vs : BitVec 5) : s.spawnAll pd vs =
      (r.2.foldl (fun a e => if (h.spawning pd).contains e.1 then a.appendChild (h.reserving r) r.1 vs.toNat e.1 e.2
        else a.voidChild r.1 e.2) s).modCur fun g =>
          g.spawned pd.toNat ((h.spawning pd).filter fun l => !r.2.any fun e => e.1 == l) := by
  simp only [State.spawnAll, hc]
  rfl

/-- R111: `spw` of the acting hart, whose release has nothing to wait for. -/
theorem exec_spw {s : State} {h : Hart} (hc : s.hart? s.cur = some h) {pd : BitVec 4} {xq : BitVec 5} (vs : BitVec 5) {ls : Map Launch}
    {r : Nat × List (Nat × Nat)} (open_ : s.pfmask h 2 = false) (clear : h.dev.tbm = 0)
    (quiet : (s.core (coreOf s.cur)).flight = []) (new : h.run.spawn = none) (reserve : s.reserve h pd xq = s.reserved h ls r) :
    ∃ hs, (∀ j, Map.find hs j = (s.reserved h ls r).hart? j) ∧
      exec (.spw pd xq vs) s = .next (({ s with launches := ls, harts := hs } : State).spawnAll pd vs) := by
  obtain ⟨hs, released, harts⟩ := State.releasing_quiet (s := s.reserved h ls r) (h := h.reserving r) (State.hart?_setCur _ _) quiet clear
    (scope := scP) (.inr (by decide)) (.spw pd xq vs)
  refine ⟨hs, harts, ?_⟩
  change execSpw pd xq vs s = _
  simp only [execSpw, onHart_of s h _ hc, open_, new, Option.isSome_none, Bool.false_eq_true, if_false, reserve, State.fence, if_true, released]
  rfl

/-- R111: what the end of a `spw` leaves of a hart that has kept all but its run state. -/
theorem spawned_kept {h g : Hart} (same : SameButRun h g) {p : Nat} (hp : p < 12) (refused : List Nat) :
    RetiresTo h (g.spawned p refused) (h.nextPc 4) ∧ (g.spawned p refused).x = h.x ∧ (g.spawned p refused).dev = h.dev ∧
      (∀ q l, q ≠ p → ((g.spawned p refused).getP q).getLsbD l = (h.getP q).getLsbD l) ∧
      (g.spawned p refused).lanes = { h.lanes with p := (g.refuse p refused).lanes.p } := by
  obtain ⟨frame, pair⟩ := same
  have lanes : g.lanes = h.lanes := (congrArg Hart.lanes frame :)
  have predicate (q : Nat) : g.getP q = h.getP q := by rw [Hart.getP, lanes, ← Hart.getP]
  generalize hk : ({ g.refuse p refused with run := { (g.refuse p refused).run with spawn := none } } : Hart) = k
  have kept : g.spawned p refused = k.retire 4 := by rw [← hk]; rfl
  have refusal := refuse_frame g p refused
  have klanes : k.lanes = { h.lanes with p := (g.refuse p refused).lanes.p } := by
    rw [← hk, ← lanes]
    exact (congrArg Hart.lanes refusal :)
  have rest : { k with lanes := g.lanes, run := g.run } = g := by
    rw [← hk]
    exact (congrArg (fun v : Hart => { v with lanes := g.lanes, run := g.run }) refusal :)
  have kpair : k.run.pair = h.run.pair := by
    rw [← hk, ← pair]
    exact (congrArg (fun v : Hart => v.run.pair) refusal :)
  have all : { k with lanes := h.lanes, run := h.run } = h :=
    (congrArg (fun v : Hart => { v with lanes := h.lanes, run := h.run }) rest :).trans (by rw [← lanes]; exact frame)
  have pc : k.nextPc 4 = h.nextPc 4 := by rw [Hart.nextPc, kpair, ← all]; rfl
  have retires : RetiresTo k (k.retire 4) (k.nextPc 4) := k.retireTo_retires _
  rw [pc] at retires
  have after : (k.retire 4).lanes = { h.lanes with p := (g.refuse p refused).lanes.p } := (k.retire_lanes 4).trans klanes
  rw [kept]
  refine ⟨retires.of_same (congrArg Hart.priv all :) (congrArg Hart.tsc all :)
    (congrArg Hart.role all :) (congrArg Hart.csr all :), (k.retire_x 4).trans (congrArg Hart.x all :),
    (k.retire_dev 4).trans (congrArg Hart.dev all :), fun q l hq => ?_, after⟩
  have read : (k.retire 4).getP q = (g.refuse p refused).getP q := (congrArg (fun v : Lanes => v.p.getD q 0) after :)
  rw [read, getP_refuse_other g hp hq, predicate]

theorem getP_spawned {h g : Hart} (same : SameButRun h g) {p i : Nat} (hp : p < 12) (hi : i < 32) (refused : List Nat) :
    ((g.spawned p refused).getP p).getLsbD i = ((h.getP p).getLsbD i && !decide (i ∈ refused)) := by
  have lanes : g.lanes = h.lanes := (congrArg Hart.lanes same.frame :)
  have old : g.getP p = h.getP p := by rw [Hart.getP, lanes, ← Hart.getP]
  rw [← old, ← getP_refuse g hp hi refused, Hart.spawned, Hart.getP, Hart.retire_lanes, ← Hart.getP]
  rfl

/-- R104, R111: `spw` where no open launch has room. -/
theorem spw_refused {s : State} {h : Hart} (hc : s.hart? s.cur = some h) {pd : BitVec 4} {xq : BitVec 5} (vs : BitVec 5)
    (open_ : s.pfmask h 2 = false) (clear : h.dev.tbm = 0) (quiet : (s.core (coreOf s.cur)).flight = []) (new : h.run.spawn = none)
    (predicate : pd.toNat < 12) (full : ∀ t, s.spawnTarget h.role.part (h.getX xq).toNat = some t → t.2.room = 0) :
    ∃ t h', exec (.spw pd xq vs) s = .next t ∧ t.hart? s.cur = some h' ∧ (∀ j, j ≠ s.cur → t.hart? j = s.hart? j) ∧
      (RetiresTo h h' (h.nextPc 4) ∧ h'.x = h.x ∧ h'.dev = h.dev ∧
        (∀ q l, q ≠ pd.toNat → (h'.getP q).getLsbD l = (h.getP q).getLsbD l) ∧ h'.lanes = { h.lanes with p := h'.lanes.p }) ∧
      (∀ l, l < 32 → (h'.getP pd.toNat).getLsbD l = ((h.getP pd.toNat).getLsbD l &&
        !(h.lanes.em.getLsbD l && (h.getP pd.toNat).getLsbD l))) ∧
      (∀ m, t.launch? m = s.launch? m) ∧ { t with harts := s.harts, launches := s.launches } = s := by
  obtain ⟨ls, n, reserve, launches⟩ := reserve_of_full hc pd xq full
  obtain ⟨hs, harts, run⟩ := exec_spw hc vs open_ clear quiet new reserve
  generalize hv : ({ s with launches := ls, harts := hs } : State) = v at run
  have cur : v.cur = s.cur := hv ▸ rfl
  have hart (j : Nat) : v.hart? j = if j = s.cur then some (h.reserving (n, [])) else s.hart? j := by
    rw [← hv]
    exact (harts j).trans (Map.find_put s.harts s.cur j _)
  have acting : v.hart? v.cur = some (h.reserving (n, [])) := by rw [cur, hart, if_pos rfl]
  have same : SameButRun h (h.reserving (n, [])) := ⟨rfl, rfl⟩
  have all : (h.spawning pd).filter (fun l => !([] : List (Nat × Nat)).any fun e => e.1 == l) = h.spawning pd :=
    List.filter_eq_self.2 fun _ _ => rfl
  rw [spawnAll_of_reserving acting, List.foldl_nil, all, State.modCur_of v _ _ acting] at run
  have only := v.setCur_only ((h.reserving (n, [])).spawned pd.toNat (h.spawning pd))
  obtain ⟨retires, x, dev, others, lanes⟩ := spawned_kept same predicate (h.spawning pd)
  refine ⟨_, _, run, cur ▸ only.acting, fun j hj => ?_, ⟨retires, x, dev, others, ?_⟩, fun l hl => ?_, fun m => ?_, ?_⟩
  · rw [only.others j (cur ▸ hj), hart, if_neg hj]
  · rw [lanes]
  · rw [getP_spawned same predicate hl]
    simp [Hart.spawning, allLanes, upTo, hl]
  · rw [← hv]
    exact launches m
  · rw [← hv]
    rfl

end Sys2Proof.Machine
end

section
/-! `spw` where one lane asks (R104, R111): its child's record is written, and the child is claimable. -/

namespace Sys2Proof.Machine

open Sys2Proof

/-! ## The child reserved last (R104) -/

/-- R104: a child of a launch and those reserved before it. -/
structure NewestChild (T : Launch) (cs : List Child) (c : Child) : Prop where
  children : T.children = cs ++ [c]
  older : ∀ d ∈ cs, d.index < c.index

section
variable {T : Launch} {cs : List Child} {c : Child}

theorem NewestChild.find (new : NewestChild T cs c) : T.children.find? (fun d => d.index == c.index) = some c := by
  have none : cs.find? (fun d => d.index == c.index) = none :=
    List.find?_eq_none.2 fun d hd => by simpa using Nat.ne_of_lt (new.older d hd)
  rw [new.children, List.find?_append, none, Option.none_or, List.find?_cons, beq_self_eq_true]

theorem NewestChild.map (new : NewestChild T cs c) (f : Child → Child) :
    T.children.map (fun d => if d.index = c.index then f d else d) = cs ++ [f c] := by
  rw [new.children, List.map_append, List.map_cons, List.map_nil, if_pos rfl,
    List.map_congr_left (fun d hd => if_neg (Nat.ne_of_lt (new.older d hd))), List.map_id']

end

/-- R104: a launch changed, and beside it only the dispatchers' looks to come. -/
structure LaunchMoves (s t : State) (n : Nat) (T : Launch) : Prop where
  launch : t.launch? n = some T
  others : ∀ m, m ≠ n → t.launch? m = s.launch? m
  rest : { t with launches := s.launches, schedule := s.schedule, latencies := s.latencies } = s

section
variable {s : State} {n : Nat} {T : Launch} {cs : List Child} {c : Child}

/-- R105, R111: a child record that is written and that its caller holds no more, in a launch that is not ordered. -/
theorem freeChild_newest (hT : s.launch? n = some T) (new : NewestChild T cs c) (loose : c.loose = true) (written : c.written = true)
    (unclaimable : c.claimable = false) (unordered : T.pkt.ordered = false) :
    s.freeChild n c.index = ((s.setLaunch n { T with children := cs ++ [{ c with claimable := true }] }).popLatency).plan
      s.latency .placeUnit {} := by
  have freed := new.map (fun d => { d with ts := c.ts, claimable := true })
  simp only [State.freeChild, hT, new.find, loose, written, unclaimable, unordered, Bool.not_true, Bool.or_self, Bool.false_eq_true, if_false, freed]
  rfl

theorem LaunchMoves.of_freeChild (hT : s.launch? n = some T) (new : NewestChild T cs c) (loose : c.loose = true)
    (written : c.written = true) (unclaimable : c.claimable = false) (unordered : T.pkt.ordered = false) :
    LaunchMoves s (s.freeChild n c.index) n { T with children := cs ++ [{ c with claimable := true }] } := by
  rw [freeChild_newest hT new loose written unclaimable unordered]
  exact ⟨Map.find_put_same _ _ _, fun m hm => (State.launch?_setLaunch s n m _).trans (if_neg hm), rfl⟩

/-- R105, R111: the record of a child that its caller holds no more has been written, in a launch that is not ordered. -/
theorem recordWritten_moves (hT : s.launch? n = some T) (new : NewestChild T cs c) (loose : c.loose = true)
    (unclaimable : c.claimable = false) (unordered : T.pkt.ordered = false) (a : Nat) (by_ : Option Nat) :
    LaunchMoves s (s.recordWritten n c.index a by_) n
      { T with children := cs ++ [{ c with written := true, at_ := some a, claimable := true }] } := by
  have written : s.modLaunch n (fun l => { l with children := l.children.map (fun d =>
      if d.index = c.index then { d with written := true, at_ := some a } else d) }) =
      s.setLaunch n { T with children := cs ++ [{ c with written := true, at_ := some a }] } := by
    rw [State.modLaunch, hT, ← new.map (fun d => { d with written := true, at_ := some a })]
  have freed : LaunchMoves _ _ n _ := .of_freeChild (s := s.setLaunch n { T with children := cs ++ [{ c with written := true, at_ := some a }] })
    (Map.find_put_same _ _ _) (c := { c with written := true, at_ := some a }) ⟨rfl, new.older⟩ loose rfl unclaimable unordered
  dsimp only at freed
  have done : s.recordWritten n c.index a by_ =
      (s.setLaunch n { T with children := cs ++ [{ c with written := true, at_ := some a }] }).freeChild n c.index := by
    have found := NewestChild.find (T := { T with children := cs ++ [{ c with written := true, at_ := some a, claimable := true }] })
      ⟨rfl, new.older⟩
    simp only [State.recordWritten, written, freed.launch, found, unordered, Bool.false_and, Bool.false_eq_true, if_false]
  rw [done]
  refine ⟨freed.launch, fun m hm => ?_, (congrArg (fun v : State => { v with launches := s.launches }) freed.rest :)⟩
  rw [freed.others m hm, State.launch?_setLaunch, if_neg hm]

end

/-! ## The record's store (R104, R166) -/

/-- R104, R166: a child's record stored: its bytes, what harts lose, the hang counter of the hart that stores it, its launch. -/
structure ChildLands (s t : State) (f : Flight) (n : Nat) (T : Launch) : Prop where
  bytes : WritesBytes s t f.owner f.addr f.bytes
  harts : ∀ j, ∃ o, OtherHart f.owner f.addr (s.hart? j) o ∧
    t.hart? j = if j = f.hart then o.map (fun g => g.hangClear s.now) else o
  launch : t.launch? n = some T
  others : ∀ m, m ≠ n → t.launch? m = s.launch? m
  cur : t.cur = s.cur

theorem performFlight_child {s : State} {f : Flight} {n : Nat} {T : Launch} {cs : List Child} {c : Child} (space : f.space = 0)
    (child : f.child = some (n, c.index)) (quiet : (s.core (coreOf f.hart)).flight = []) (hs : s.standsAtHome f.owner f.addr)
    (hg : f.addr < 2 ^ 52) (hin : f.addr % 128 + f.bytes.length ≤ 128) (hT : s.launch? n = some T) (new : NewestChild T cs c)
    (loose : c.loose = true) (unclaimable : c.claimable = false) (unordered : T.pkt.ordered = false) :
    ChildLands s (s.performFlight f) f n
      { T with children := cs ++ [{ c with written := true, at_ := some f.addr, claimable := true }] } := by
  have performed : s.performFlight f = ((s.writeHome f.owner f.addr f.bytes (some (coreOf f.hart))).recordWritten n c.index f.addr
      (some (coreOf f.hart))).storeDone f.hart := by
    simp [State.performFlight, space, heldAt_of_quiet _ _ quiet, atHome_stands hs, State.landed, child]
  have wrote := writeHome_stands (some (coreOf f.hart)) hs hg hin
  rw [performed]
  generalize s.writeHome f.owner f.addr f.bytes (some (coreOf f.hart)) = u at wrote ⊢
  have launches : u.launches = s.launches := (congrArg State.launches wrote.rest :)
  have record := recordWritten_moves (s := u) (by rw [State.launch?, launches]; exact hT) new loose unclaimable unordered f.addr
    (some (coreOf f.hart))
  generalize u.recordWritten n c.index f.addr (some (coreOf f.hart)) = v at record ⊢
  have harts : v.harts = u.harts := (congrArg State.harts record.rest :)
  have now : v.now = s.now := (congrArg State.now record.rest :).trans (congrArg State.now wrote.rest :)
  refine ⟨wrote.bytes.of_mem rfl (congrArg State.mem record.rest :), fun j => ⟨u.hart? j, wrote.harts j, ?_⟩, record.launch,
    fun m hm => ?_, (congrArg State.cur record.rest :).trans (congrArg State.cur wrote.rest :)⟩
  · rw [hart?_storeDone, now, State.hart?, harts]
    by_cases h : j = f.hart
    · simp only [if_pos h]; rfl
    · simp only [if_neg h]; exact Option.map_id_apply
  · refine (record.others m hm).trans ?_
    rw [State.launch?, launches, State.launch?]

/-- R104, R111: the store of the record of a child of a lane of the acting hart, in a launch that is not ordered. -/
def childStore (s : State) (h : Hart) (n vs lane : Nat) (T : Launch) (i : Nat) : Flight where
  hart := s.cur
  space := 0
  owner := T.part
  addr := (T.ringSlot i).toNat
  bytes := bytesOfNat ((h.getV vs lane).toNat * 2 ^ 64) 16
  held := false
  gva := T.ringSlot i
  launch := h.role.launch
  child := some (n, i)

/-- R104, R111: the child of a lane, whose caller and whose launch are not ordered, where its record's line stands. -/
theorem appendChild_lands {s : State} {h : Hart} {n vs lane : Nat} {T : Launch} {cs : List Child} {c : Child}
    (quiet : (s.core (coreOf s.cur)).flight = []) (hT : s.launch? n = some T) (new : NewestChild T cs c)
    (unclaimable : c.claimable = false) (unordered : T.pkt.ordered = false) (caller : s.ordered h = false) (bare : s.launchSatp T = 0)
    (hg : (T.ringSlot c.index).toNat < 2 ^ 52) (align : (T.ringSlot c.index).toNat % 16 = 0)
    (hs : s.standsAtHome T.part (T.ringSlot c.index).toNat) :
    ChildLands s (s.appendChild h n vs lane c.index) (childStore s h n vs lane T c.index) n { T with children := cs ++
      [{ c with ts := 0, loose := true, written := true, at_ := some (T.ringSlot c.index).toNat, claimable := true }] } := by
  have there : (T.children.any fun d => d.index == c.index) = true := by
    rw [new.children, List.any_append, List.any_cons, beq_self_eq_true, Bool.true_or, Bool.or_true]
  have moved := new.map (fun d => { d with ts := 0, loose := true })
  generalize hu : s.setLaunch n { T with children := cs ++ [{ c with ts := 0, loose := true }] } = u
  have hu1 : u.launch? n = some { T with children := cs ++ [{ c with ts := 0, loose := true }] } := by
    rw [← hu, State.launch?_setLaunch, if_pos rfl]
  have ubare : satpMode (u.launchSatp T) = 0 := by
    rw [← hu]; exact (congrArg satpMode bare :)
  have stored : s.appendChild h n vs lane c.index = u.performFlight (childStore s h n vs lane T c.index) := by
    simp only [State.appendChild, hT, there, caller, childTs, unordered, Bool.not_true, Bool.not_false, Bool.false_eq_true, if_false,
      if_true, moved, hu, State.dispStore, dispGpa_bare u T.part ubare hg, Nat.zero_add]
    rfl
  have length : (childStore s h n vs lane T c.index).bytes.length = 16 := bytesOfNat_length _ _
  have lands := performFlight_child (s := u) (f := childStore s h n vs lane T c.index) (c := { c with ts := 0, loose := true }) rfl rfl
    (by rw [← hu]; exact quiet) (by rw [← hu]; exact hs) hg
    (by rw [length]; change (T.ringSlot c.index).toNat % 128 + 16 ≤ 128; omega) hu1 ⟨rfl, new.older⟩ rfl unclaimable unordered
  rw [← stored] at lands
  refine ⟨lands.bytes.of_mem (by rw [← hu]; rfl) rfl, ?_, lands.launch, fun m hm => ?_, ?_⟩
  · rw [← hu] at lands; exact lands.harts
  · rw [lands.others m hm, ← hu, State.launch?_setLaunch, if_neg hm]
  · rw [lands.cur, ← hu]; rfl

/-! ## `spw` -/

theorem SameButRun.hangClear {h g : Hart} (same : SameButRun h g) (now : Nat) : SameButRun h (g.hangClear now) := ⟨same.frame, same.pair⟩

/-- R177: a hart of no ordered launch, after a change of a launch that is not ordered. -/
theorem unordered_of_launches {s t : State} {h : Hart} {n : Nat} {T : Launch}
    (launch : ∀ m, t.launch? m = if m = n then some T else s.launch? m) (unordered : T.pkt.ordered = false)
    (caller : s.ordered h = false) : t.ordered h = false := by
  rw [State.ordered, State.launchOf] at caller ⊢
  cases hl : h.role.launch with
  | none => rfl
  | some m =>
    rw [hl] at caller
    dsimp only at caller ⊢
    rw [launch]
    by_cases same : m = n
    · rw [if_pos same]; exact unordered
    · rw [if_neg same]; exact caller

/-- R104, R111: one eligible lane of `spw`, in an open launch with room. -/
theorem spw_one {s : State} {h : Hart} (hc : s.hart? s.cur = some h) {pd : BitVec 4} {xq vs : BitVec 5} {l n : Nat} {T : Launch}
    (caller : s.ordered h = false) (open_ : s.pfmask h 2 = false) (clear : h.dev.tbm = 0)
    (quiet : (s.core (coreOf s.cur)).flight = []) (new : h.run.spawn = none) (predicate : pd.toNat < 12)
    (target : s.spawnTarget h.role.part (h.getX xq).toNat = some (n, T)) (unordered : T.pkt.ordered = false)
    (one : h.spawning pd = [l]) (room : 0 < T.room) (bare : s.launchSatp T = 0) (older : ∀ c ∈ T.children, c.index < T.appended)
    (hg : (T.ringSlot T.appended).toNat < 2 ^ 52) (align : (T.ringSlot T.appended).toNat % 16 = 0)
    (hs : s.standsAtHome T.part (T.ringSlot T.appended).toNat) :
    ∃ t h', exec (.spw pd xq vs) s = .next t ∧ t.hart? s.cur = some h' ∧
      (RetiresTo h h' (h.nextPc 4) ∧ h'.x = h.x ∧ h'.dev = h.dev ∧
        (∀ q l, q ≠ pd.toNat → (h'.getP q).getLsbD l = (h.getP q).getLsbD l) ∧ h'.lanes = { h.lanes with p := h'.lanes.p }) ∧
      h'.lanes = h.lanes ∧ (∀ j, j ≠ s.cur → OtherHart T.part (T.ringSlot T.appended).toNat (s.hart? j) (t.hart? j)) ∧
      WritesBytes s t T.part (T.ringSlot T.appended).toNat (bytesOfNat ((h.getV vs.toNat l).toNat * 2 ^ 64) 16) ∧
      t.launch? n = some { T with appended := T.appended + 1, children := T.children ++ [
        { index := T.appended, ts := 0, claimable := true, claimed := false, loose := true, written := true,
          at_ := some (T.ringSlot T.appended).toNat }] } ∧
      (∀ m, m ≠ n → t.launch? m = s.launch? m) := by
  generalize hT1 : ({ T with appended := T.appended + 1, children := T.children ++ [reservedChild T.appended] } : Launch) = T1
  obtain ⟨hs', harts, run⟩ := exec_spw hc vs open_ clear quiet new (hT1 ▸ reserve_one hc target room one)
  generalize hr : (n, [(l, T.appended)]) = r at harts run
  generalize hv : ({ s with launches := Map.put s.launches n T1, harts := hs' } : State) = v at run
  have cur : v.cur = s.cur := by rw [← hv]
  have hart (j : Nat) : v.hart? j = if j = s.cur then some (h.reserving r) else s.hart? j := by
    rw [← hv]
    exact (harts j).trans (Map.find_put s.harts s.cur j _)
  have launch (m : Nat) : v.launch? m = if m = n then some T1 else s.launch? m := by
    rw [← hv]
    exact Map.find_put s.launches n m T1
  have acting : v.hart? v.cur = some (h.reserving r) := by rw [cur, hart, if_pos rfl]
  have pkt : T1.pkt = T.pkt := by rw [← hT1]
  have part : T1.part = T.part := by rw [← hT1]
  have slot : T1.ringSlot = T.ringSlot := by rw [← hT1]; rfl
  have calls : v.ordered (h.reserving r) = false := unordered_of_launches (h := h.reserving r) launch (by rw [pkt]; exact unordered) caller
  have lands := appendChild_lands (s := v) (h := h.reserving r) (n := n) (vs := vs.toNat) (lane := l) (T := T1) (cs := T.children)
    (c := reservedChild T.appended) (by rw [← hv]; exact quiet) (by rw [launch, if_pos rfl]) ⟨by rw [← hT1], older⟩ rfl
    (by rw [pkt]; exact unordered) calls (by rw [← hv, ← hT1]; exact bare) (by rw [slot]; exact hg) (by rw [slot]; exact align)
    (by rw [slot, part, ← hv]; exact hs)
  have asks : (h.spawning pd).contains l = true := by rw [one]; simp
  have appended : r.2.foldl (fun a e => if (h.spawning pd).contains e.1 then a.appendChild (h.reserving r) r.1 vs.toNat e.1 e.2
      else a.voidChild r.1 e.2) v = v.appendChild (h.reserving r) n vs.toNat l T.appended := by
    rw [← hr, List.foldl_cons, List.foldl_nil, if_pos asks]
  have granted : (h.spawning pd).filter (fun l => !r.2.any fun e => e.1 == l) = [] := by
    rw [one, ← hr]; simp
  rw [spawnAll_of_reserving acting, appended, granted] at run
  change ChildLands v (v.appendChild (h.reserving r) n vs.toNat l T.appended) _ n _ at lands
  generalize v.appendChild (h.reserving r) n vs.toNat l T.appended = u at lands run
  obtain ⟨o, other, after⟩ := lands.harts s.cur
  have same0 : SameButRun h (h.reserving r) := ⟨rfl, rfl⟩
  rw [hart, if_pos rfl] at other
  obtain ⟨g, rfl, same⟩ := same0.of_other other
  have back : (childStore v (h.reserving r) n vs.toNat l T1 (reservedChild T.appended).index).hart = s.cur := cur
  have ucur : u.cur = s.cur := lands.cur.trans cur
  rw [back, if_pos rfl, Option.map_some] at after
  rw [State.modCur_of u _ _ (ucur.symm ▸ after)] at run
  have only := u.setCur_only ((g.hangClear v.now).spawned pd.toNat [])
  obtain ⟨retires, x, dev, others, lanes⟩ := spawned_kept (same.hangClear v.now) predicate []
  refine ⟨_, _, run, ucur ▸ only.acting, ⟨retires, x, dev, others, ?_⟩, ?_, fun j hj => ?_, ?_, ?_, fun m hm => ?_⟩
  · rw [lanes]
  · rw [lanes]
    have kept : ((g.hangClear v.now).refuse pd.toNat []).lanes = h.lanes := (congrArg Hart.lanes same.frame :)
    rw [kept]
  · obtain ⟨o, other, after⟩ := lands.harts j
    rw [back, if_neg hj] at after
    rw [only.others j (ucur ▸ hj), after, ← slot, ← part]
    rw [hart, if_neg hj] at other
    exact other
  · rw [← slot, ← part]
    exact lands.bytes.of_mem (by rw [← hv]) rfl
  · refine lands.launch.trans ?_
    rw [← hT1]
    rfl
  · refine (lands.others m hm).trans ?_
    rw [launch, if_neg hm]

end Sys2Proof.Machine

namespace Sys2Proof.Proofs

open Sys2Proof Sys2Proof.Machine

theorem spawning_of_one {h : Hart} {pd : BitVec 4} {l : Nat} (hl : l < 32)
    (one : ∀ j, j < 32 → ((h.lanes.em.getLsbD j && (h.getP pd.toNat).getLsbD j) = true ↔ j = l)) : h.spawning pd = [l] := by
  have asks : h.spawning pd = (List.range 32).filter (· == l) :=
    List.filter_congr fun j hj => Bool.eq_iff_iff.2 ((one j (List.mem_range.1 hj)).trans beq_iff_eq.symm)
  rw [asks, List.filter_beq, List.count_eq_one_of_mem List.nodup_range (List.mem_range.2 hl), List.replicate_one]

/-- Settles O37: `rfl` of a full hart and of a hart with one vacant lane, `xit`, and `spw` without room and with one eligible lane. -/
theorem itemsAndChildren : Obligations.ItemsAndChildren := by
  unfold Obligations.ItemsAndChildren
  refine ⟨fun s h xd l L hc _ launch hl still => ⟨fun full => rfl_full xd hc launch hl still full,
      fun n hn occ prompt running determ closed unordered items left small => ?_⟩,
    fun s h l L hc launch hl unordered closed some_ => xit_exits hc launch hl unordered closed some_,
    fun s h pd xq vs hc caller open_ clear quiet new predicate _ =>
      ⟨fun full => spw_refused hc vs open_ clear quiet new predicate full,
        fun l n T target _ unordered hl one room bare older hg align hs =>
          spw_one hc caller open_ clear quiet new predicate target unordered (spawning_of_one hl one) room bare older hg align hs⟩⟩
  obtain ⟨t, h', run, refills, lanes, next⟩ :=
    rfl_one xd hc launch hl still hn occ prompt ⟨running, determ, closed, unordered, items⟩ left
  refine ⟨t, h', run, refills, ?_, next⟩
  rw [srSeed_eq _ small] at lanes
  rw [lanes]

end Sys2Proof.Proofs
end

section
/-! A pre-empted hart is saved (R103, R367, R368, R369): from the place where it stands to its entry of the thread-context cache. -/

namespace Sys2Proof.Machine

open Sys2Proof

/-! ## One hart found among the harts -/

theorem Map.find?_of_only {α : Type} {m : Map α} (hs : Map.sorted m = true) {p : Nat × α → Bool} {k : Nat} {a : α}
    (hk : Map.find m k = some a) (hp : p (k, a) = true) (only : ∀ j b, Map.find m j = some b → p (j, b) = true → j = k) :
    m.find? p = some (k, a) := by
  cases found : m.find? p with
  | none => exact absurd hp (List.find?_eq_none.1 found _ (Map.mem_of_find hk))
  | some e =>
    obtain ⟨j, b⟩ := e
    have at_ := Map.find_of_mem hs (List.mem_of_find?_eq_some found)
    obtain rfl := only j b at_ (List.find?_some found)
    rw [hk] at at_
    rw [Option.some.inj at_]

theorem Map.find?_none {α : Type} {m : Map α} (hs : Map.sorted m = true) {p : Nat × α → Bool}
    (no : ∀ j b, Map.find m j = some b → p (j, b) = false) : m.find? p = none :=
  List.find?_eq_none.2 fun e he => by rw [no e.1 e.2 (Map.find_of_mem hs he)]; exact Bool.false_ne_true

theorem Map.filter_of_only {α : Type} {m : Map α} (hs : Map.sorted m = true) {p : Nat × α → Bool} {k : Nat} {a : α}
    (hk : Map.find m k = some a) (hp : p (k, a) = true) (only : ∀ j b, Map.find m j = some b → p (j, b) = true → j = k) :
    m.filter p = [(k, a)] := by
  have all : ∀ e ∈ m.filter p, e = (k, a) := fun e he => by
    obtain ⟨mem, hit⟩ := List.mem_filter.1 he
    have at_ := Map.find_of_mem hs mem
    have same := only e.1 e.2 at_ hit
    rw [same, hk] at at_
    exact Prod.ext same (Option.some.inj at_).symm
  have there : (k, a) ∈ m.filter p := List.mem_filter.2 ⟨Map.mem_of_find hk, hp⟩
  have order := ((Map.sorted_iff_pairwise m).1 hs).filter p
  cases found : m.filter p with
  | nil => rw [found] at there; cases there
  | cons x xs =>
    rw [found] at all order
    cases xs with
    | nil => rw [all x List.mem_cons_self]
    | cons y ys =>
      have less := List.rel_of_pairwise_cons order (List.mem_cons_self (a := y) (l := ys))
      rw [all x List.mem_cons_self, all y (List.mem_cons_of_mem _ List.mem_cons_self)] at less
      exact absurd less (Nat.lt_irrefl _)

/-! ## What saving a hart leaves as it is -/

/-- R368: a state with what the save of a hart may change beside it taken from another: clusters, launches, order numbers and events
to come. -/
def State.putAside (s t : State) : State :=
  { t with clusters := s.clusters, launches := s.launches, tag := s.tag, schedule := s.schedule, latencies := s.latencies }

/-- R368: one hart has become `g`; beside it clusters, launches, order numbers and events to come may have changed. -/
structure HartMoves (s t : State) (k : Nat) (g : Hart) : Prop where
  sorted : Map.sorted t.harts = true
  hart : t.hart? k = some g
  others : ∀ j, j ≠ k → t.hart? j = s.hart? j
  rest : { s.putAside t with harts := s.harts } = s

section
variable {s t u : State} {k : Nat} {h g : Hart}

theorem HartMoves.trans {g' : Hart} (h1 : HartMoves s t k g) (h2 : HartMoves t u k g') : HartMoves s u k g' :=
  ⟨h2.sorted, h2.hart, fun j hj => (h2.others j hj).trans (h1.others j hj),
    (congrArg (fun v : State => { s.putAside v with harts := s.harts }) h2.rest :).trans h1.rest⟩

theorem HartMoves.of_same (hs : Map.sorted s.harts = true) (hk : s.hart? k = some h) (rest : s.putAside t = s) :
    HartMoves s t k h := by
  have harts : t.harts = s.harts := (congrArg State.harts rest :)
  exact ⟨harts ▸ hs, by rw [State.hart?, harts]; exact hk, fun j _ => by rw [State.hart?, harts]; rfl,
    (congrArg (fun v : State => { v with harts := s.harts }) rest :)⟩

theorem HartMoves.modHarts (hs : Map.sorted s.harts = true) (hk : s.hart? k = some h) (f : Nat → Hart → Hart) :
    HartMoves s (s.modHarts (fun j _ => j == k) f) k (f k h) := by
  refine ⟨(Map.sorted_mapVal s.harts fun j h => if j == k then f j h else h).trans hs, ?_, fun j hj => ?_, rfl⟩
  · rw [State.hart?_modHarts, hk, Option.map_some, beq_self_eq_true, if_pos rfl]
  · rw [State.hart?_modHarts]
    simp only [beq_eq_false_iff_ne.2 hj, Bool.false_eq_true, if_false]
    exact Option.map_id_apply

theorem HartMoves.core (m : HartMoves s t k g) (c : Nat) : t.core c = s.core c := by
  have cores : t.cores = s.cores := (congrArg State.cores m.rest :)
  rw [State.core, cores]; rfl

theorem HartMoves.trans_aside (m : HartMoves s t k g) (h : t.putAside u = t) : HartMoves s u k g :=
  m.trans (.of_same m.sorted m.hart h)

end

/-! ## The steps of a save (R189, R368) -/

theorem putAside_trans {s t u : State} (h1 : s.putAside t = s) (h2 : t.putAside u = t) : s.putAside u = s :=
  (congrArg s.putAside h2 :).trans h1

theorem putAside_foldl {α : Type} {f : State → α → State} (hf : ∀ (t : State) (a : α), t.putAside (f t a) = t) (l : List α) (s : State) :
    s.putAside (l.foldl f s) = s := by
  induction l generalizing s with
  | nil => rfl
  | cons a l ih => exact putAside_trans (hf s a) (ih (f s a))

theorem PlansOnly.aside {s t : State} (h : PlansOnly s t) : s.putAside t = s := by rw [h.eq_with]; rfl

theorem kick_aside (s : State) (cl : Nat) : s.putAside (s.kick cl) = s := by
  have trim : s.putAside (s.trimBte cl) = s :=
    putAside_foldl (f := fun t (e : Nat × Job) => t.modJob cl e.1 fun j => { j with state := .queued }) (fun _ _ => rfl) _ s
  exact putAside_trans (putAside_trans trim (kickEngine_plansOnly _ cl false).aside) (kickEngine_plansOnly _ cl true).aside

/-- A change of a launch that keeps its uncommitted items leaves a launch without any as it is in that. -/
theorem modLaunch_items {s : State} (n : Nat) {f : Launch → Launch} (hf : ∀ M, (f M).items = M.items) {l : Nat} {L : Launch}
    (hl : s.launch? l = some L) (none : L.items = []) :
    ∃ ls M, s.modLaunch n f = { s with launches := ls } ∧ Map.find ls l = some M ∧ M.items = [] := by
  obtain ⟨ls, e⟩ := s.modLaunch_eq n f
  have found := s.launch?_modLaunch n l f
  rw [e] at found
  by_cases same : l = n
  · rw [if_pos same, ← same, hl] at found
    exact ⟨ls, _, e, found, (hf L).trans none⟩
  · rw [if_neg same] at found
    exact ⟨ls, L, e, found.trans hl, none⟩

/-- R373: the barriers kept of a unit leave a launch without uncommitted items as it is in that. -/
theorem keepBarriers_items {s : State} (k : Nat) {l : Nat} {L : Launch} (hl : s.launch? l = some L) (none : L.items = []) :
    ∃ ls M, s.keepBarriers k = { s with launches := ls } ∧ Map.find ls l = some M ∧ M.items = [] := by
  unfold State.keepBarriers
  split
  · exact ⟨_, L, rfl, hl, none⟩
  · split
    · exact ⟨_, L, rfl, hl, none⟩
    · exact modLaunch_items _ (fun M => by split <;> rfl) hl none

/-- R189: the jobs of a hart that has none in its cluster's entries. -/
theorem stopJobs_moves {s : State} {k : Nat} {h : Hart} (hs : Map.sorted s.harts = true) (hk : s.hart? k = some h)
    (none : ∀ e ∈ (s.cluster (clusterOf k)).jobs, ¬ (e.2.launch = h.role.launch ∧ e.2.hidx = h.role.hidx ∧ e.2.part = h.role.part)) :
    ∃ flags, HartMoves s (s.stopJobs k h) k { h with
      dev := { h.dev with lflags := flags }
      run := { h.run with lateFlags := [] } } := by
  have other (e : Nat × Job) (he : e ∈ (s.cluster (clusterOf k)).jobs) :
      (e.2.launch == h.role.launch && e.2.hidx == h.role.hidx && e.2.part == h.role.part) = false := by
    simpa [and_assoc] using none e he
  have settled : ((s.cluster (clusterOf k)).jobs.foldl (fun t e => if (e.2.launch == h.role.launch && e.2.hidx == h.role.hidx &&
      e.2.part == h.role.part) && e.2.live then t.settleLate (clusterOf k) e.1 e.2 else t) s) = s :=
    (List.foldl_ext _ (fun t _ => t) s fun t e he => by rw [other e he]; rfl).trans (List.foldl_fixed _)
  have empty : (s.cluster (clusterOf k)).jobs.filter (fun e => e.2.launch == h.role.launch && e.2.hidx == h.role.hidx &&
      e.2.part == h.role.part) = [] := List.filter_eq_nil_iff.2 fun e he => by rw [other e he]; exact Bool.false_ne_true
  unfold State.stopJobs
  dsimp only
  rw [settled, empty]
  simp only [List.map_nil, List.filter_nil, List.append_nil, List.foldl_nil]
  refine ⟨_, (HartMoves.trans (HartMoves.of_same hs hk ?_) (HartMoves.modHarts ?_ ?_ _)).trans_aside (kick_aside _ _)⟩
  · rfl
  · exact hs
  · exact hk

theorem abortHeld_of_none {s : State} (k : Nat) {l : Nat} {L : Launch} (hl : s.launch? l = some L) (none : L.items = []) :
    s.abortHeld k l = s := by
  rw [State.abortHeld, hl]
  dsimp only
  rw [none]
  rfl

theorem freeLocks_of_none {s : State} {k : Nat} (none : s.locksOf k = []) : s.freeLocks k = s := by
  rw [State.freeLocks, List.map_eq_nil_iff.1 none]
  rfl

theorem drainCore_of_quiet {s : State} {c : Nat} (quiet : (s.core c).flight = []) : s.drainCore c = s := by
  simp [State.drainCore, quiet]

/-- R368: a hart that waits for an entry of the thread-context cache, with the masks of its registers. -/
structure AwaitsEntry (h g : Hart) (m : Live) : Prop where
  frame : { g with dev := h.dev, run := h.run } = h
  wait : g.run.wait = some (.swap 1 m.x m.v m.p)
  resv : g.run.resv = none
  irq17 : g.run.irq17 = none
  stoppedJobs : g.run.stoppedJobs = h.run.stoppedJobs

/-- R168: a hart whose release at S is complete. -/
def Hart.released (h : Hart) : Hart := { h with dev := { h.dev with tbm := 0, tbmf := h.dev.tbmf && decide (scS < scX) } }

/-- R368: a hart, its locks given up, asks for an entry of the thread-context cache. -/
def Hart.asksEntry (h : Hart) (locks : List Nat) (m : Live) : Hart := { h with run := { h.run with
  resv := none, relock := locks, irq17 := none, lent := []
  wait := match h.run.wait with
    | some (.swap _ x v p) => some (.swap 1 x v p)
    | _ => some (.swap 1 m.x m.v m.p) } }

/-- R368, steps 1 to 3: a hart that stands where it is saved, with no items, locks, stores or jobs to give up. -/
theorem prepareHart_awaits {s : State} {k l : Nat} {h : Hart} {L : Launch} {m : Live} (hs : Map.sorted s.harts = true)
    (hk : s.hart? k = some h) (launch : h.role.launch = some l) (hl : s.launch? l = some L) (items : L.items = [])
    (stands : h.run.wait = some (.swap 0 m.x m.v m.p)) (locks : s.locksOf k = []) (quiet : (s.core (coreOf k)).flight = [])
    (idle : ∀ e ∈ (s.cluster (clusterOf k)).jobs, ¬ (e.2.launch = h.role.launch ∧ e.2.hidx = h.role.hidx ∧ e.2.part = h.role.part)) :
    ∃ g, HartMoves s (s.prepareHart k) k g ∧ AwaitsEntry h g m := by
  have freed := HartMoves.modHarts hs hk fun _ => Hart.released
  have asked := HartMoves.modHarts freed.sorted freed.hart fun _ g => g.asksEntry [] (s.barrierMasks h)
  generalize hu : (s.modHarts (fun j _ => j == k) fun _ => Hart.released).modHarts (fun j _ => j == k)
    (fun _ g => g.asksEntry [] (s.barrierMasks h)) = u at asked
  have clusters : u.clusters = s.clusters := by rw [← hu]; rfl
  obtain ⟨flags, stopped⟩ := stopJobs_moves asked.sorted asked.hart (by rw [State.cluster, clusters]; exact idle)
  have prepared : s.prepareHart k = u.stopJobs k (h.released.asksEntry [] (s.barrierMasks h)) := by
    unfold State.prepareHart
    rw [hk]
    dsimp only
    rw [launch]
    dsimp only
    rw [abortHeld_of_none k hl items, freeLocks_of_none locks, locks, State.released, if_neg (by decide : ¬ scS ≤ scC),
      drainCore_of_quiet quiet]
    generalize hw : State.modHarts (State.modHarts s _ _) _ _ = w
    rw [show w = u from hw.symm.trans hu, asked.hart]
  rw [prepared]
  refine ⟨_, (freed.trans asked).trans stopped, rfl, ?_, rfl, rfl, rfl⟩
  change (h.released.asksEntry [] (s.barrierMasks h)).run.wait = _
  simp only [Hart.asksEntry, Hart.released, stands]

/-! ## The thread-context cache (R368, step 4) -/

/-- R368: a hart waits for an entry of the thread-context cache. -/
def Hart.awaitsEntry (h : Hart) : Bool :=
  match h.run.wait with
  | some (.swap 1 _ _ _) => true
  | _ => false

theorem awaitsEntry_iff (h : Hart) : h.awaitsEntry = true ↔ ∃ x v q, h.run.wait = some (.swap 1 x v q) := by
  unfold Hart.awaitsEntry
  split
  · next x v q e => exact ⟨fun _ => ⟨x, v, q, e⟩, fun _ => rfl⟩
  · next no => exact ⟨fun c => absurd c Bool.false_ne_true, fun ⟨x, v, q, e⟩ => (no x v q e).elim⟩

/-- R368: no hart of a core but one waits for an entry of its thread-context cache. -/
def OnlyAwaits (s : State) (core k : Nat) : Prop :=
  ∀ j h, s.hart? j = some h → j ≠ k → coreOf j = core → h.awaitsEntry = false

/-- R368: a hart that has an entry of the thread-context cache. -/
def Hart.cached (h : Hart) (m : Live) : Hart := { h with run := { h.run with wait := some (.swap 2 m.x m.v m.p) } }

/-- R368: a hart's entry is taken; its record is written 272 cycles later, at the soonest. -/
def State.enterCache (s : State) (k : Nat) (m : Live) : State :=
  (((s.modHarts (fun j _ => j == k) fun _ h => h.cached m).popLatency).modCore (coreOf k) (fun c => { c with tcc := c.tcc ++ [k] })).plan
    (272 + s.latency) .contextSpill { nats := [coreOf k, k] }

theorem takeEntries_of_none {s : State} {core k : Nat} (hs : Map.sorted s.harts = true) (only : OnlyAwaits s core k)
    (not : ∀ h, s.hart? k = some h → h.awaitsEntry = false) (n : Nat) : s.takeEntries core n = s := by
  cases n with
  | zero => rfl
  | succ n =>
    rw [State.takeEntries]
    split
    · rfl
    · rw [Map.find?_none hs]
      intro j h hj
      change (coreOf j == core && h.awaitsEntry) = false
      by_cases there : coreOf j = core
      · have no : h.awaitsEntry = false := by
          by_cases same : j = k
          · exact not h (same ▸ hj)
          · exact only j h hj same there
        rw [no, Bool.and_false]
      · rw [beq_eq_false_iff_ne.2 there, Bool.false_and]

/-- A change of one hart is what it makes of the hart there. -/
theorem modHarts_congr {s : State} {k : Nat} {h : Hart} {f g : Nat → Hart → Hart} (hs : Map.sorted s.harts = true)
    (hk : s.hart? k = some h) (same : f k h = g k h) : s.modHarts (fun j _ => j == k) f = s.modHarts (fun j _ => j == k) g := by
  have harts : Map.mapVal s.harts (fun j h => if j == k then f j h else h) = Map.mapVal s.harts (fun j h => if j == k then g j h else h) := by
    refine List.map_congr_left fun e he => ?_
    dsimp only
    by_cases at_ : e.1 = k
    · have there := Map.find_of_mem hs he
      rw [at_, ← State.hart?, hk] at there
      rw [beq_iff_eq.2 at_, if_pos rfl, if_pos rfl, at_, ← Option.some.inj there, same]
    · rw [beq_eq_false_iff_ne.2 at_, if_neg Bool.false_ne_true, if_neg Bool.false_ne_true]
  exact (congrArg (fun m => { s with harts := m }) harts :)

theorem takeEntries_one {s : State} {k : Nat} {h : Hart} {m : Live} (hs : Map.sorted s.harts = true) (hk : s.hart? k = some h)
    (asks : h.run.wait = some (.swap 1 m.x m.v m.p)) (room : (s.core (coreOf k)).tcc.length < 4)
    (only : OnlyAwaits s (coreOf k) k) (n : Nat) : s.takeEntries (coreOf k) (n + 1) = s.enterCache k m := by
  rw [State.takeEntries, if_neg (Nat.not_le.2 room), Map.find?_of_only hs hk]
  · have moved := HartMoves.modHarts hs hk fun _ h => h.cached m
    dsimp only
    rw [modHarts_congr hs hk (g := fun _ h => h.cached m) (by simp only [asks]; rfl)]
    refine takeEntries_of_none (s := s.enterCache k m) (k := k) moved.sorted (fun j g hj other there => ?_) (fun g hg => ?_) n
    · exact only j g ((moved.others j other).symm.trans hj) other there
    · have there := moved.hart.symm.trans hg
      rw [← Option.some.inj there]
      rfl
  · change (coreOf k == coreOf k && h.awaitsEntry) = true
    rw [beq_self_eq_true, (awaitsEntry_iff h).2 ⟨_, _, _, asks⟩]
    rfl
  · intro j g hj hit
    by_contra other
    change (coreOf j == coreOf k && g.awaitsEntry) = true at hit
    obtain ⟨there, awaits⟩ := Bool.and_eq_true_iff.1 hit
    rw [only j g hj other (eq_of_beq there)] at awaits
    cases awaits

/-! ## The save of a group of one (R189, R368) -/

/-- R103, R367, R368: a pre-empted hart stands where it is saved, with no items, locks, stores or jobs to give up, and with room for
it in the thread-context cache of its core. -/
structure SaveReady (s : State) (k l : Nat) (h : Hart) (L : Launch) (m : Live) : Prop where
  sorted : Map.sorted s.harts = true
  hart : s.hart? k = some h
  role : h.role.launch = some l
  launch : s.launch? l = some L
  items : L.items = []
  wait : h.run.wait = some (.swap 0 m.x m.v m.p)
  locks : s.locksOf k = []
  quiet : (s.core (coreOf k)).flight = []
  idle : ∀ e ∈ (s.cluster (clusterOf k)).jobs, ¬ (e.2.launch = h.role.launch ∧ e.2.hidx = h.role.hidx ∧ e.2.part = h.role.part)
  stopped : ∀ j g, s.hart? j = some g → g.run.stoppedJobs = []
  room : (s.core (coreOf k)).tcc.length < 4
  only : OnlyAwaits s (coreOf k) k

/-- R189, R368: steps 1 to 3 of a group of one hart. -/
theorem SaveReady.prepares {s : State} {k l : Nat} {h : Hart} {L : Launch} {m : Live} (r : SaveReady s k l h L m) :
    ∃ g, AwaitsEntry h g m ∧
      HartMoves s ((((s.keepBarriers k).prepareHart k).reinstateAll (clusterOf k) 64).kick (clusterOf k)) k g := by
  obtain ⟨ls, M, keeps, hM, items⟩ := keepBarriers_items k r.launch r.items
  have kept : HartMoves s (s.keepBarriers k) k h := .of_same r.sorted r.hart (by rw [keeps]; rfl)
  have locks : (s.keepBarriers k).locksOf k = [] := by rw [State.locksOf, kept.core]; exact r.locks
  have clusters : (s.keepBarriers k).clusters = s.clusters := by rw [keeps]
  obtain ⟨g, moved, awaits⟩ := prepareHart_awaits kept.sorted kept.hart r.role (by rw [keeps]; exact hM) items r.wait
    locks (by rw [kept.core]; exact r.quiet)
    (by rw [State.cluster, clusters]; exact r.idle)
  have moved := kept.trans moved
  have none : NoStoppedJobs ((s.keepBarriers k).prepareHart k) := ⟨moved.sorted, fun j x hj => by
    by_cases same : j = k
    · rw [same, moved.hart] at hj
      rw [← Option.some.inj hj, awaits.stoppedJobs]
      exact r.stopped k h r.hart
    · exact r.stopped j x ((moved.others j same).symm.trans hj)⟩
  rw [reinstateAll_of_noStoppedJobs none]
  exact ⟨g, awaits, moved.trans_aside (kick_aside _ _)⟩

theorem SaveReady.prepareGroup_one {s : State} {k l : Nat} {h : Hart} {L : Launch} {m : Live} (r : SaveReady s k l h L m) :
    ∃ u g, AwaitsEntry h g m ∧ HartMoves s u k g ∧ s.prepareGroup [k] =
      (if s.sealedHart h then u.modCore (coreOf k) (fun v => { v with inboxSaved := true }) else u).enterCache k m := by
  obtain ⟨g, awaits, moved⟩ := r.prepares
  refine ⟨_, g, awaits, moved, ?_⟩
  unfold State.prepareGroup
  have one (n : Nat) : [n].eraseDups = [n] := rfl
  simp only [List.map_cons, List.map_nil, one, List.foldl_cons, List.foldl_nil, List.any_cons, List.any_nil, beq_self_eq_true,
    Bool.true_and, Bool.or_false]
  generalize (((s.keepBarriers k).prepareHart k).reinstateAll (clusterOf k) 64).kick (clusterOf k) = u at moved ⊢
  have sealing : u.sealedHart g = s.sealedHart h := by
    have parts : u.parts = s.parts := (congrArg State.parts moved.rest :)
    have role : g.role = h.role := (congrArg Hart.role awaits.frame :)
    rw [State.sealedHart, State.part?, parts, role]
    rfl
  simp only [moved.hart, sealing]
  have asks (v : State) (harts : v.harts = u.harts) (core : (v.core (coreOf k)).tcc = (s.core (coreOf k)).tcc) :
      v.takeEntries (coreOf k) 16 = v.enterCache k m := by
    refine takeEntries_one (harts ▸ moved.sorted) (by rw [State.hart?, harts]; exact moved.hart) awaits.wait (core ▸ r.room)
      (fun j x hj other there => r.only j x ?_ other there) 15
    rw [State.hart?, harts] at hj
    exact (moved.others j other).symm.trans hj
  refine asks _ ?_ ?_
  · split <;> rfl
  · split
    · rw [State.modCore, State.core_setCore, if_pos rfl, moved.core]
    · rw [moved.core]

/-! ## The group that is saved (R103, R369) -/

/-- R369: no other hart is saved with a hart of no gang whose core, where the partition is sealed, it has alone. -/
theorem widen_one {s : State} {k : Nat} {h : Hart} {L : Launch} {sealed_ : Bool} (hs : Map.sorted s.harts = true)
    (hk : s.hart? k = some h) (hL : s.launchOf h = some L) (gang : L.pkt.gang = false)
    (alone : sealed_ = true → ∀ j g, s.hart? j = some g → j ≠ k → coreOf j ≠ coreOf k) : s.widen sealed_ [k] = [k] := by
  unfold State.widen
  rw [Map.filter_of_only hs hk]
  · rfl
  · simp
  · intro j g hj hit
    by_contra other
    have far : (sealed_ && coreOf k == coreOf j) = false := by
      cases hq : sealed_ with
      | false => rfl
      | true => exact beq_eq_false_iff_ne.2 (Ne.symm (alone hq j g hj other))
    simp [other, hk, hL, gang, far] at hit

theorem saveGroup_one {s : State} {k : Nat} {h : Hart} {L : Launch} (hs : Map.sorted s.harts = true)
    (hk : s.hart? k = some h) (hL : s.launchOf h = some L) (gang : L.pkt.gang = false)
    (alone : s.sealedHart h = true → ∀ j g, s.hart? j = some g → j ≠ k → coreOf j ≠ coreOf k) : s.saveGroup k = [k] := by
  rw [State.saveGroup, hk]
  dsimp only
  split
  · next hq =>
    have one := widen_one (sealed_ := true) hs hk hL gang fun _ => alone hq
    rw [one, one, one]
  · exact widen_one hs hk hL gang fun c => absurd c Bool.false_ne_true

/-! ## A hart saved (R103, R368) -/

/-- R368: a hart's save has begun: it is in the thread-context cache of its core, and its record will be written. -/
def SaveBegun (s t : State) (k : Nat) (h : Hart) (m : Live) : Prop :=
  ∃ h', t.hart? k = some h' ∧ h'.run.wait = some (.swap 2 m.x m.v m.p) ∧
    h'.run.resv = none ∧ h'.run.irq17 = none ∧ h'.pc = h.pc ∧ h'.priv = h.priv ∧ h'.x = h.x ∧ h'.lanes = h.lanes ∧ h'.csr = h.csr ∧
    (∀ j, j ≠ k → t.hart? j = s.hart? j) ∧ (t.core (coreOf k)).tcc = (s.core (coreOf k)).tcc ++ [k] ∧
    (∃ e ∈ t.schedule, s.now + 272 ≤ e.at_ ∧ e.ev = .contextSpill ∧ e.args.nats = [coreOf k, k]) ∧ t.mem = s.mem

theorem core_enterCache (s : State) (k : Nat) (m : Live) :
    (s.enterCache k m).core (coreOf k) = { s.core (coreOf k) with tcc := (s.core (coreOf k)).tcc ++ [k] } :=
  (State.core_setCore _ _ _ _ :).trans (if_pos rfl)

/-- R369: a state, the messages of a core saved with its harts where it is sealed. -/
def State.inboxKept (s : State) (core : Nat) (sealed_ : Bool) : State :=
  if sealed_ then s.modCore core (fun v => { v with inboxSaved := true }) else s

theorem inboxKept_rest (s : State) (core : Nat) (sealed_ : Bool) : { s.inboxKept core sealed_ with cores := s.cores } = s := by
  unfold State.inboxKept
  split <;> rfl

theorem core_inboxKept (s : State) (core : Nat) (sealed_ : Bool) : (s.inboxKept core sealed_).core core =
    { s.core core with inboxSaved := sealed_ || (s.core core).inboxSaved } := by
  cases sealed_ with
  | false => rfl
  | true => exact (State.core_setCore _ _ _ _ :).trans (if_pos rfl)

theorem SaveReady.begins {s v : State} {k l : Nat} {h h2 : Hart} {L : Launch} {m : Live} (r : SaveReady v k l h2 L m)
    (moved : HartMoves s v k h2) (frame : { h2 with run := h.run } = h) :
    SaveBegun s (v.prepareGroup [k]) k h m ∧ (v.sealedHart h2 = true → ((v.prepareGroup [k]).core (coreOf k)).inboxSaved = true) := by
  obtain ⟨u, g, awaits, prepared, run⟩ := r.prepareGroup_one
  rw [run, ← State.inboxKept]
  have all := moved.trans prepared
  have rest := inboxKept_rest u (coreOf k) (v.sealedHart h2)
  have core := core_inboxKept u (coreOf k) (v.sealedHart h2)
  generalize u.inboxKept (coreOf k) (v.sealedHart h2) = w at rest core ⊢
  have harts : w.harts = u.harts := (congrArg State.harts rest :)
  have entered := HartMoves.modHarts (harts ▸ all.sorted) (by rw [State.hart?, harts]; exact all.hart : w.hart? k = some g)
    fun _ h => h.cached m
  have full : { g.cached m with dev := h.dev, run := h.run } = h :=
    (congrArg (fun v : Hart => { v with dev := h.dev, run := h.run }) awaits.frame :).trans
      (congrArg (fun v : Hart => { v with dev := h.dev }) frame :)
  have entry : ∃ e ∈ (w.enterCache k m).schedule, s.now + 272 ≤ e.at_ ∧ e.ev = .contextSpill ∧ e.args.nats = [coreOf k, k] := by
    refine ⟨_, (mem_insertPlanned _ _ _).2 (.inl rfl), ?_, rfl, rfl⟩
    have now : w.now = s.now := (congrArg State.now rest :).trans (congrArg State.now all.rest :)
    change s.now + 272 ≤ w.now + (272 + w.latency)
    omega
  refine ⟨⟨_, entered.hart, rfl, awaits.resv, awaits.irq17, (congrArg Hart.pc full :), (congrArg Hart.priv full :),
    (congrArg Hart.x full :), (congrArg Hart.lanes full :), (congrArg Hart.csr full :), fun j hj => ?_, ?_, entry, ?_⟩, fun hq => ?_⟩
  · refine (entered.others j hj).trans ?_
    rw [State.hart?, harts]
    exact all.others j hj
  · rw [core_enterCache, core, all.core]
  · exact (congrArg State.mem rest :).trans (congrArg State.mem all.rest :)
  · rw [core_enterCache, core, hq]
    rfl

/-! ## The events of a save (R103, R367, R369) -/

/-- R103, R367: what a pre-empted hart of no gang, wherever it stands, has nothing of: items, locks, stores and jobs to give up; and
the thread-context cache of its core has room and is asked by no other hart. -/
structure Preempted (s : State) (k l : Nat) (h : Hart) (L : Launch) : Prop where
  sorted : Map.sorted s.harts = true
  hart : s.hart? k = some h
  role : h.role.launch = some l
  launch : s.launch? l = some L
  gang : L.pkt.gang = false
  items : L.items = []
  preempt : h.run.preempt ≠ none
  locks : s.locksOf k = []
  quiet : (s.core (coreOf k)).flight = []
  idle : ∀ e ∈ (s.cluster (clusterOf k)).jobs, ¬ (e.2.launch = h.role.launch ∧ e.2.hidx = h.role.hidx ∧ e.2.part = h.role.part)
  stopped : ∀ j g, s.hart? j = some g → g.run.stoppedJobs = []
  room : (s.core (coreOf k)).tcc.length < 4
  only : OnlyAwaits s (coreOf k) k

section
variable {s : State} {k l : Nat} {h : Hart} {L : Launch} {m : Live}

theorem Preempted.launchOf (p : Preempted s k l h L) : s.launchOf h = some L := by
  rw [State.launchOf, p.role]
  exact p.launch

theorem Preempted.saveReady (p : Preempted s k l h L) (wait : h.run.wait = some (.swap 0 m.x m.v m.p)) : SaveReady s k l h L m :=
  ⟨p.sorted, p.hart, p.role, p.launch, p.items, wait, p.locks, p.quiet, p.idle, p.stopped, p.room, p.only⟩

/-- R103: a pre-empted hart of no gang that stands where it is saved stands ready, and is its group. -/
theorem Preempted.ready (p : Preempted s k l h L) (wait : h.run.wait = some (.swap 0 m.x m.v m.p))
    (alone : s.sealedHart h = true → ∀ j g, s.hart? j = some g → j ≠ k → coreOf j ≠ coreOf k) :
    s.saveGroup k = [k] ∧ s.standsReady k = true := by
  refine ⟨saveGroup_one p.sorted p.hart p.launchOf p.gang alone, ?_⟩
  have asked : h.run.preempt.isSome = true := Option.isSome_iff_ne_none.2 p.preempt
  simp [State.standsReady, p.hart, Hart.stands, wait, asked, State.storesHeld, p.quiet]

theorem Preempted.of_parked (p : Preempted s k l h L) {v : State} {g : Hart} (moved : HartMoves s v k g)
    (rest : { v with harts := s.harts } = s) (frame : { g with run := h.run } = h) (preempt : g.run.preempt = h.run.preempt)
    (stopped : g.run.stoppedJobs = h.run.stoppedJobs) : Preempted v k l g L := by
  have launches : v.launches = s.launches := (congrArg State.launches rest :)
  have clusters : v.clusters = s.clusters := (congrArg State.clusters rest :)
  have role : g.role = h.role := (congrArg Hart.role frame :)
  refine ⟨moved.sorted, moved.hart, role ▸ p.role, by rw [State.launch?, launches]; exact p.launch, p.gang, p.items,
    preempt ▸ p.preempt, by rw [State.locksOf, moved.core]; exact p.locks, by rw [moved.core]; exact p.quiet,
    by rw [State.cluster, clusters, role]; exact p.idle, fun j x hj => ?_, by rw [moved.core]; exact p.room,
    fun j x hj other there => p.only j x ((moved.others j other).symm.trans hj) other there⟩
  by_cases same : j = k
  · rw [same, moved.hart] at hj
    rw [← Option.some.inj hj, stopped]
    exact p.stopped k h p.hart
  · exact p.stopped j x ((moved.others j same).symm.trans hj)

/-- R103, R367: HART_SAVE of a pre-empted hart of an open partition, at a boundary where its masks are known. -/
theorem hartSave_begins (p : Preempted s k l h L) (nats : s.arg.nats = [k]) (open_ : s.sealedHart h = false) (wait : h.run.wait = none)
    (boundary : h.atBoundary s.now = true) (spawn : h.run.spawn = none) (masks : s.saveMasks h = .ok (some m) s) :
    ∃ t, exec .hartSave s = .next t ∧ SaveBegun s t k h m := by
  have at0 : s.arg.nat 0 = k := by rw [EventArgs.nat, nats, List.getD_cons_zero]
  have stands : h.stands = false := by simp [Hart.stands, wait]
  have ended : s.endWait k = s.setHart k (h.unpark s.now) := by simp [State.endWait, p.hart, wait, State.dropSpawn, spawn]
  have placed : HartMoves s (s.setHart k (h.unpark s.now)) k (h.unpark s.now) :=
    ⟨Map.sorted_put _ _ _ p.sorted, State.hart?_setHart_same _ _ _, fun j hj => (State.hart?_setHart s k j _).trans (if_neg hj), rfl⟩
  have moved := placed.trans (HartMoves.modHarts placed.sorted placed.hart fun _ g => g.park (.swap 0 m.x m.v m.p) s.now)
  have run : exec .hartSave s = .next (((s.setHart k (h.unpark s.now)).modHarts (fun j _ => j == k)
      (fun _ g => g.park (.swap 0 m.x m.v m.p) s.now)).trySave k) := by
    change execHartSave s = _
    simp only [execHartSave, nats, at0, p.hart, stands, boundary, masks, ended, wait, Bool.true_or, Bool.not_true, Bool.false_eq_true, if_false]
  have parked := p.of_parked moved rfl rfl rfl rfl
  have opened : ((s.setHart k (h.unpark s.now)).modHarts (fun j _ => j == k)
    (fun _ g => g.park (.swap 0 m.x m.v m.p) s.now)).sealedHart ((h.unpark s.now).park (.swap 0 m.x m.v m.p) s.now) = false := open_
  generalize (s.setHart k (h.unpark s.now)).modHarts (fun j _ => j == k) (fun _ g => g.park (.swap 0 m.x m.v m.p) s.now) = v
    at run moved parked opened
  obtain ⟨group, ready⟩ := parked.ready (m := m) rfl fun c => absurd (opened.symm.trans c) Bool.false_ne_true
  have saved : v.trySave k = v.prepareGroup [k] := by
    simp only [State.trySave, moved.hart, group, List.all_cons, List.all_nil, ready, Bool.and_self, Bool.not_true, Bool.false_eq_true,
      if_false, opened]
  exact ⟨_, by rw [run, saved], ((parked.saveReady rfl).begins moved rfl).1⟩

/-- R369: SEALED_CORE_SAVE of a core whose one hart stands where it is saved. -/
theorem sealedCoreSave_begins (p : Preempted s k l h L) (nats : s.arg.nats = [coreOf k]) (sealed_ : s.sealedHart h = true)
    (alone : ∀ j g, s.hart? j = some g → j ≠ k → coreOf j ≠ coreOf k) (wait : h.run.wait = some (.swap 0 m.x m.v m.p)) :
    ∃ t, exec .sealedCoreSave s = .next t ∧ SaveBegun s t k h m ∧ (t.core (coreOf k)).inboxSaved = true := by
  have at0 : s.arg.nat 0 = coreOf k := by rw [EventArgs.nat, nats, List.getD_cons_zero]
  obtain ⟨group, ready⟩ := p.ready wait fun _ => alone
  have found : s.harts.find? (fun e => coreOf e.1 == coreOf k && s.standsReady e.1) = some (k, h) := by
    refine Map.find?_of_only p.sorted p.hart (by simp [ready]) fun j g hj hit => ?_
    by_contra other
    exact alone j g hj other (eq_of_beq (Bool.and_eq_true_iff.1 hit).1)
  have run : exec .sealedCoreSave s = .next (s.prepareGroup [k]) := by
    change execSealedCoreSave s = _
    simp only [execSealedCoreSave, at0, found, group, List.all_cons, List.all_nil, ready, Bool.and_self, if_true]
  obtain ⟨begun, kept⟩ := (p.saveReady wait).begins (h := h) (.of_same p.sorted p.hart rfl) rfl
  exact ⟨_, run, begun, kept sealed_⟩

end

end Sys2Proof.Machine
end

section
/-! A saved hart's record is written (R126, R368, R372): the hart leaves its slot, or stays there where its record cannot be written. -/

namespace Sys2Proof.Machine

open Sys2Proof

/-! ## What the abort of items and the thread-context cache keep -/

/-- R126, R175: no hart has come, and launches hold the records they held. -/
structure KeepsSaved (s t : State) : Prop where
  gone : ∀ j, s.hart? j = none → t.hart? j = none
  saved : ∀ i, (t.launch? i).map Launch.saved = (s.launch? i).map Launch.saved

theorem KeepsSaved.trans {s t u : State} (h1 : KeepsSaved s t) (h2 : KeepsSaved t u) : KeepsSaved s u :=
  ⟨fun j hj => h2.gone j (h1.gone j hj), fun i => (h2.saved i).trans (h1.saved i)⟩

theorem KeepsSaved.of_same {s t : State} (harts : t.harts = s.harts) (launches : t.launches = s.launches) : KeepsSaved s t :=
  ⟨fun j hj => by rw [State.hart?, harts]; exact hj, fun i => by rw [State.launch?, launches]; rfl⟩

theorem KeepsSaved.refl (s : State) : KeepsSaved s s := .of_same rfl rfl

theorem PlansOnly.keepsSaved {s t : State} (h : PlansOnly s t) : KeepsSaved s t :=
  .of_same (by rw [h.eq_with]) (by rw [h.eq_with])

theorem KeepsSaved.foldl {α : Type} {f : State → α → State} (hf : ∀ (t : State) (a : α), KeepsSaved t (f t a)) (l : List α) (s : State) :
    KeepsSaved s (l.foldl f s) := by
  induction l generalizing s with
  | nil => exact .refl s
  | cons a l ih => exact (hf s a).trans (ih (f s a))

theorem KeepsSaved.modHarts (s : State) (p : Nat → Hart → Bool) (f : Nat → Hart → Hart) : KeepsSaved s (s.modHarts p f) :=
  ⟨fun j hj => by rw [State.hart?_modHarts, hj]; rfl, fun _ => rfl⟩

theorem KeepsSaved.setHart {s : State} {k : Nat} {h : Hart} (hk : s.hart? k = some h) (g : Hart) : KeepsSaved s (s.setHart k g) := by
  refine ⟨fun j hj => ?_, fun _ => rfl⟩
  have other : j ≠ k := fun e => by rw [e, hk] at hj; cases hj
  rw [State.hart?_setHart, if_neg other, hj]

theorem KeepsSaved.modLaunch (s : State) (l : Nat) {f : Launch → Launch} (hf : ∀ L, (f L).saved = L.saved) : KeepsSaved s (s.modLaunch l f) := by
  obtain ⟨ls, e⟩ := s.modLaunch_eq l f
  refine ⟨fun j hj => by rw [e]; exact hj, fun i => ?_⟩
  rw [State.launch?_modLaunch]
  split
  · next same =>
    rw [same, Option.map_map]
    exact congrArg (Option.map · (s.launch? l)) (funext hf)
  · rfl

theorem KeepsSaved.voidChild (s : State) (l index : Nat) : KeepsSaved s (s.voidChild l index) := by
  unfold State.voidChild
  refine KeepsSaved.trans ?_ ((KeepsSaved.modLaunch _ l (f := (·.childGone index)) fun _ => rfl).trans (plan_plansOnly _ _ _ _).keepsSaved)
  split
  · exact .of_same rfl rfl
  · exact .refl s

theorem KeepsSaved.clobber (k lane : Nat) (rs : List Nat) (s : State) : KeepsSaved s (s.clobber k lane rs) := by
  induction rs generalizing s with
  | nil => exact .refl s
  | cons r rs ih =>
    rw [State.clobber]
    refine KeepsSaved.trans ?_ (ih _)
    exact (KeepsSaved.modHarts s (fun j _ => j == k) fun _ h => h.setV r lane (s.free 32)).trans (.of_same rfl rfl)

theorem KeepsSaved.abortItem (s : State) (l index : Nat) : KeepsSaved s (s.abortItem l index) := by
  unfold State.abortItem
  split
  · exact .refl s
  · split
    · exact .refl s
    · next i _ =>
      split
      · exact .refl s
      · have requeued : KeepsSaved s (((i.children.foldl (fun t c => t.voidChild c.1 c.2) s).modLaunch l fun M =>
            { M.modItem index OrdItem.requeue with requeued := M.requeued ++ [index] }).kickDispatch) := by
          refine KeepsSaved.trans ?_ (kickDispatch_plansOnly _).keepsSaved
          refine KeepsSaved.trans ?_ (.modLaunch _ l fun _ => rfl)
          exact .foldl (fun t c => .voidChild t c.1 c.2) i.children s
        dsimp only
        split
        · exact requeued
        · split
          · exact requeued
          · next hk => exact (requeued.trans (.setHart hk _)).trans (.clobber _ _ _ _)

/-! ## The thread-context cache -/

/-- R368: harts take entries of a thread-context cache: they keep their places in their launches. -/
structure CacheTaken (s t : State) : Prop where
  launches : t.launches = s.launches
  gone : ∀ j, s.hart? j = none → t.hart? j = none
  roles : ∀ e ∈ t.harts, ∃ g, (e.1, g) ∈ s.harts ∧ e.2.role = g.role

theorem CacheTaken.trans {s t u : State} (h1 : CacheTaken s t) (h2 : CacheTaken t u) : CacheTaken s u := by
  refine ⟨h2.launches.trans h1.launches, fun j hj => h2.gone j (h1.gone j hj), fun e he => ?_⟩
  obtain ⟨g, hg, role⟩ := h2.roles e he
  obtain ⟨x, hx, role'⟩ := h1.roles _ hg
  exact ⟨x, hx, role.trans role'⟩

theorem CacheTaken.of_same {s t : State} (launches : t.launches = s.launches) (harts : t.harts = s.harts) : CacheTaken s t :=
  ⟨launches, fun j hj => by rw [State.hart?, harts]; exact hj, fun e he => ⟨e.2, harts ▸ he, rfl⟩⟩

theorem CacheTaken.modHarts (s : State) (p : Nat → Hart → Bool) {f : Nat → Hart → Hart} (role : ∀ k h, (f k h).role = h.role) :
    CacheTaken s (s.modHarts p f) := by
  refine ⟨rfl, (KeepsSaved.modHarts s p f).gone, fun e he => ?_⟩
  obtain ⟨x, hx, rfl⟩ := List.mem_map.1 he
  refine ⟨x.2, hx, ?_⟩
  dsimp only
  split
  · exact role _ _
  · rfl

theorem takeEntries_taken (core n : Nat) (s : State) : CacheTaken s (s.takeEntries core n) := by
  induction n generalizing s with
  | zero => exact .of_same rfl rfl
  | succ n ih =>
    rw [State.takeEntries]
    split
    · exact .of_same rfl rfl
    · split
      · exact .of_same rfl rfl
      · generalize hu : s.modHarts _ _ = u
        have entered : CacheTaken s u := by
          rw [← hu]
          exact .modHarts s _ fun _ _ => rfl
        dsimp only
        refine CacheTaken.trans ?_ (ih _)
        exact entered.trans (.of_same rfl rfl)

/-! ## The launch of a hart that has left (R126, R127) -/

/-- R126, R127: a launch that holds records, after a look whether its last hart has left. -/
theorem parkIfDone_keeps {s : State} {l : Nat} {L : Launch} (hl : s.launch? l = some L) (saved : L.saved ≠ []) :
    (∀ j, s.hart? j = none → (s.parkIfDone l).hart? j = none) ∧
      ∃ M, (s.parkIfDone l).launch? l = some M ∧ M.saved = L.saved ∧
        ((∀ e ∈ s.harts, e.2.role.launch ≠ some l) → L.stopping = true → M.parked = true) := by
  have open_ : s.launchDone l L = false := by
    have some_ : L.saved.isEmpty = false := List.isEmpty_eq_false_iff.2 saved
    simp [State.launchDone, some_]
  unfold State.parkIfDone
  rw [hl]
  dsimp only
  split
  · next due =>
    generalize hu : (L.items.filter fun i => !i.nonspec && (i.claimed || i.exited)).foldl (fun u i => u.abortItem l i.index) s = u
    have aborted : KeepsSaved s u := hu ▸ .foldl (fun t (i : OrdItem) => .abortItem t l i.index) _ s
    have held := aborted.saved l
    rw [hl, Option.map_some] at held
    obtain ⟨N, hN, same⟩ := Option.map_eq_some_iff.1 held
    have vacancy := (kickVacancy_plansOnly (u.modLaunch l fun M =>
      { M with parked := true, stopping := false, itembase := u.lowMark l M }) L.part).eq_with
    have moved := KeepsSaved.modLaunch u l (f := fun M => { M with parked := true, stopping := false, itembase := u.lowMark l M })
      fun _ => rfl
    refine ⟨fun j hj => ?_, { N with parked := true, stopping := false, itembase := u.lowMark l N }, ?_, same, fun _ _ => rfl⟩
    · rw [vacancy]
      exact moved.gone j (aborted.gone j hj)
    · rw [vacancy]
      refine (State.launch?_modLaunch u l l _).trans ?_
      rw [if_pos rfl, hN]
      rfl
  · next no =>
    refine ⟨fun j hj => hj, L, hl, rfl, fun gone stopping => absurd ?_ no⟩
    have left : (s.hartsOf l).isEmpty = true := List.isEmpty_iff.2 (List.filter_eq_nil_iff.2 fun e he => by simp [gone e he])
    simp [left, stopping, open_]

/-! ## CONTEXT_SPILL (R368, R372) -/

/-- R368: a hart's record is written: it leaves its slot, its launch holds the record, and what it alone used is freed. -/
def State.leaveSlot (u : State) (k l : Nat) (h : Hart) (p : Part) (sv : SavedHart) : State :=
  let t1 := (u.delHart k).modLaunch l (fun M => { M with
    saved := M.saved ++ [sv]
    items := M.items.map (fun i => match i.holder with
      | some (j, _) => if j = k then { i with holder := none } else i
      | none => i) })
  let t2 := t1.modCore (coreOf k) (fun c => { c with
    inbox := if p.sealed_ then c.inbox.filter (fun m => !sv.inbox.contains m) else c.inbox
    bar := if (t1.hartsOf l).any (fun e => e.2.role.unit == h.role.unit && e.2.role.member == h.role.member) then c.bar
           else c.bar.filter (fun b => !b.is l h.role.unit h.role.member) })
  if (t2.hartsOf l).any (fun e => e.2.role.unit == h.role.unit) then t2
    else t2.modCluster (clusterOf k) (fun c => { c with bar := c.bar.filter (fun b => !b.is l h.role.unit 0) })

/-- R368: an entry of a core's thread-context cache is free again. -/
def State.freeEntry (s : State) (k : Nat) : State :=
  (s.modCore (coreOf k) (fun c => { c with tcc := c.tcc.filter (· != k) })).takeEntries (coreOf k) 16

/-- R103, R368: a hart in the thread-context cache, in a launch whose records can be written now. -/
structure Spilling (s : State) (k l : Nat) (h : Hart) (L : Launch) (p : Part) (o : Nat) (m : Live) : Prop where
  nats : s.arg.nats = [coreOf k, k]
  hart : s.hart? k = some h
  wait : h.run.wait = some (.swap 2 m.x m.v m.p)
  role : h.role.launch = some l
  launch : s.launch? l = some L
  part : s.part? h.role.part = some p
  reachable : s.waitsDie L.part = false
  order : s.spillOrder L = some o

section
variable {s : State} {k l o : Nat} {h : Hart} {L : Launch} {p : Part} {m : Live}

theorem Spilling.exec_saved (c : Spilling s k l h L p o m) {u : State} {sv : SavedHart} (spilt : s.spillHart o l k h L p m = some (u, sv)) :
    exec .contextSpill s = .next
      (((((u.leaveSlot k l h p sv).freeEntry k).parkIfDone l).kickDispatch).restCluster (clusterOf k)) := by
  have at0 : s.arg.nat 0 = coreOf k := by rw [EventArgs.nat, c.nats, List.getD_cons_zero]
  have at1 : s.arg.nat 1 = k := by rw [EventArgs.nat, c.nats]; rfl
  have launchOf : s.launchOf h = some L := by rw [State.launchOf, c.role]; exact c.launch
  change execContextSpill s = _
  simp only [execContextSpill, at0, at1, c.hart, c.wait, c.role, launchOf, c.part, c.reachable, c.order, Option.bind_some, spilt,
    Bool.false_eq_true, if_false]
  rfl

/-- R126, R368: what a hart that leaves its slot leaves of the harts and of its launch. -/
theorem leaveSlot_leaves {u : State} {M : Launch} {sv : SavedHart} (hM : u.launch? l = some M) :
    (u.leaveSlot k l h p sv).harts = Map.del u.harts k ∧
      ∃ N, (u.leaveSlot k l h p sv).launch? l = some N ∧ N.saved = M.saved ++ [sv] ∧ N.stopping = M.stopping := by
  unfold State.leaveSlot
  dsimp only
  generalize hf : (fun M : Launch => ({ M with saved := M.saved ++ [sv], items := _ } : Launch)) = f
  have keeps (N : Launch) : (f N).saved = N.saved ++ [sv] ∧ (f N).stopping = N.stopping := by rw [← hf]; exact ⟨rfl, rfl⟩
  obtain ⟨ls, e⟩ := (u.delHart k).modLaunch_eq l f
  have found := (u.delHart k).launch?_modLaunch l l f
  rw [if_pos rfl, show (u.delHart k).launch? l = some M from hM, Option.map_some] at found
  rw [e] at found ⊢
  have tail (v : State) (c : Bool) (g : Cluster → Cluster) : (if c then v else v.modCluster (clusterOf k) g).harts = v.harts ∧
      (if c then v else v.modCluster (clusterOf k) g).launches = v.launches := by
    split <;> exact ⟨rfl, rfl⟩
  refine ⟨(tail _ _ _).1.trans rfl, f M, ?_, keeps M⟩
  rw [State.launch?, (tail _ _ _).2]
  exact found

/-- R103, R126, R368: CONTEXT_SPILL of a record that has been written. -/
theorem Spilling.leaves (c : Spilling s k l h L p o m) {u : State} {sv : SavedHart} {M : Launch}
    (spilt : s.spillHart o l k h L p m = some (u, sv)) (hs : Map.sorted u.harts = true) (hM : u.launch? l = some M) :
    ∃ t N, exec .contextSpill s = .next t ∧ t.hart? k = none ∧ t.launch? l = some N ∧ N.saved = M.saved ++ [sv] ∧
      ((∀ e ∈ u.harts, e.1 ≠ k → e.2.role.launch ≠ some l) → M.stopping = true → N.parked = true) := by
  have run := c.exec_saved spilt
  obtain ⟨harts, N, hN, saved, stopping⟩ := leaveSlot_leaves (k := k) (h := h) (p := p) (sv := sv) hM
  generalize u.leaveSlot k l h p sv = v at run harts hN
  have freed : CacheTaken v (v.freeEntry k) := by
    refine CacheTaken.trans ?_ (takeEntries_taken _ _ _)
    exact .of_same rfl rfl
  generalize v.freeEntry k = w at run freed
  have hw : w.launch? l = some N := by rw [State.launch?, freed.launches]; exact hN
  have none : w.hart? k = none := freed.gone k (by rw [State.hart?, harts]; exact Map.find_del_same _ _ hs)
  obtain ⟨gone, N', hN', saved', parks⟩ := parkIfDone_keeps hw (by rw [saved]; simp)
  have dispatch := (kickDispatch_plansOnly (w.parkIfDone l)).eq_with
  generalize (w.parkIfDone l).kickDispatch = x at run dispatch
  have rest : x.harts = (w.parkIfDone l).harts ∧ x.launches = (w.parkIfDone l).launches := by rw [dispatch]; exact ⟨rfl, rfl⟩
  have idle : (x.restCluster (clusterOf k)).harts = x.harts ∧ (x.restCluster (clusterOf k)).launches = x.launches := by
    unfold State.restCluster
    split <;> exact ⟨rfl, rfl⟩
  refine ⟨_, N', run, ?_, ?_, saved'.trans saved, fun alone stops => parks (fun e he => ?_) (stopping.trans stops)⟩
  · rw [State.hart?, idle.1, rest.1]
    exact gone k none
  · rw [State.launch?, idle.2, rest.2]
    exact hN'
  · obtain ⟨g, hg, role⟩ := freed.roles e he
    rw [harts] at hg
    rw [role]
    refine alone (e.1, g) (Map.mem_del _ _ _ hg) fun same => ?_
    have there := Map.find_of_mem (Map.sorted_del _ _ hs) hg
    rw [show e.1 = k from same, Map.find_del_same _ _ hs] at there
    cases there

/-! ## A record that cannot be written (R372, R394) -/

/-- R345: a partition without an event queue is told of no error. -/
theorem tenantEvent_none {e : ErrRec} {n : Nat} {v : Part} (part : e.part = some n) (hn : s.part? n = some v) (evq : v.evq = 0)
    (time seq : Nat) : s.tenantEvent e time seq = s := by
  simp only [State.tenantEvent, part, hn, evq, if_true]

/-- R394: the 64 bytes of an error kept until the error ring is registered. -/
def State.keepError (s : State) (r : BitVec 512) : State :=
  { s with host := { s.host with
    enext := s.host.enext + 1
    errors := (s.host.errors ++ [r]).drop ((s.host.errors.length + 1) - 64) } }

theorem keepError_last (s : State) (r : BitVec 512) : (s.keepError r).host.errors.getLast? = some r := by
  rw [State.keepError, List.getLast?_drop, if_neg (by rw [List.length_append, List.length_singleton]; omega), List.getLast?_concat]

/-- R394: an error of an open partition without an event queue, before the error ring is registered. -/
theorem report_keeps {e : ErrRec} {n : Nat} {v : Part} (part : e.part = some n) (hn : s.part? n = some v) (open_ : v.sealed_ = false)
    (evq : v.evq = 0) (ring : s.ring? 1 = none) : s.report e = s.keepError (e.full s.time s.host.enext) := by
  unfold State.report
  simp only [part, hn, open_, ring, Bool.false_eq_true, if_false]
  exact tenantEvent_none (s := s.keepError (e.full s.time s.host.enext)) part hn evq _ _

/-- R344, R394: the class and the number in the record of an error of a partition. -/
theorem full_fields (e : ErrRec) (time seq : Nat) (part : e.part.isNone = false) :
    (e.full time seq).toNat % 2 ^ 8 = e.cls % 2 ^ 8 ∧ (e.full time seq).toNat / 2 ^ 128 % 2 ^ 64 = seq % 2 ^ 64 := by
  have redacted : (e.redacted time seq).toNat % 2 ^ 8 = e.cls % 2 ^ 8 ∧ (e.redacted time seq).toNat / 2 ^ 128 % 2 ^ 64 = seq % 2 ^ 64 := by
    rw [ErrRec.redacted, BitVec.toNat_ofNat]
    omega
  have rest (n : Nat) (hn : n % 2 ^ 20 = 0 ∧ n % 2 ^ 192 < 2 ^ 24) : (BitVec.ofNat 512 n).toNat % 2 ^ 8 = 0 ∧
      (BitVec.ofNat 512 n).toNat / 2 ^ 128 % 2 ^ 64 = 0 := by
    rw [BitVec.toNat_ofNat]
    omega
  rw [ErrRec.full, BitVec.toNat_or, Nat.or_div_two_pow, Nat.or_mod_two_pow, Nat.or_mod_two_pow, redacted.1, redacted.2, part,
    show b2n false = 0 from rfl]
  obtain ⟨low, high⟩ := rest (0 * 2 ^ 14 + e.unit % 16 * 2 ^ 20 + e.addr % 2 ^ 64 * 2 ^ 192 + e.gpa % 2 ^ 64 * 2 ^ 256 +
    e.synd % 2 ^ 32 * 2 ^ 320 + e.pos % 2 ^ 11 * 2 ^ 352 + e.slot % 16 * 2 ^ 363) (by omega)
  rw [low, high, Nat.or_zero, Nat.or_zero]
  exact ⟨rfl, rfl⟩

/-- R372, R394: CONTEXT_SPILL of a record that cannot be written: the hart stands stopped in its slot, and the host has a record. -/
theorem Spilling.stays (c : Spilling s k l h L p o m) (lost : s.spillHart o l k h L p m = none) (evq : p.evq = 0)
    (part : s.part? L.part = some p) (open_ : p.sealed_ = false) (ring : s.ring? 1 = none) (only : OnlyAwaits s (coreOf k) k)
    (hs : Map.sorted s.harts = true) :
    ∃ t, exec .contextSpill s = .next t ∧ t.hart? k = some { h with run := { h.run with saveFailed := true } } ∧
      t.host.enext = s.host.enext + 1 ∧
      ∃ r, t.host.errors.getLast? = some r ∧ r.toNat % 2 ^ 8 = 6 ∧ r.toNat / 2 ^ 128 % 2 ^ 64 = s.host.enext % 2 ^ 64 := by
  have at0 : s.arg.nat 0 = coreOf k := by rw [EventArgs.nat, c.nats, List.getD_cons_zero]
  have at1 : s.arg.nat 1 = k := by rw [EventArgs.nat, c.nats]; rfl
  have launchOf : s.launchOf h = some L := by rw [State.launchOf, c.role]; exact c.launch
  generalize hg : ({ h with run := { h.run with saveFailed := true } } : Hart) = g
  generalize hv : (s.setHart k g).modCore (coreOf k) (fun c => { c with tcc := c.tcc.filter (· != k) }) = v
  have harts (j : Nat) : v.hart? j = if j = k then some g else s.hart? j := by rw [← hv]; exact State.hart?_setHart s k j g
  have freed : (s.setHart k g).freeEntry k = v := by
    rw [State.freeEntry, hv]
    refine takeEntries_of_none (k := k) (by rw [← hv]; exact Map.sorted_put _ _ _ hs) (fun j x hj other there => ?_) (fun x hx => ?_) 16
    · rw [harts, if_neg other] at hj
      exact only j x hj other there
    · rw [harts, if_pos rfl] at hx
      rw [← Option.some.inj hx, ← hg]
      simp only [Hart.awaitsEntry, c.wait]
  have run : exec .contextSpill s = .next (v.report
      { cls := 6, part := some L.part, die := dieOf k, unit := 3, pos := coreOf k, slot := slotOf k }) := by
    change execContextSpill s = _
    simp only [execContextSpill, at0, at1, c.hart, c.wait, c.role, launchOf, c.part, c.reachable, c.order, Option.bind_some, lost,
      Bool.false_eq_true, if_false]
    rw [← freed, ← hg, ← c.wait]
    rfl
  have host : v.host = s.host := by rw [← hv]; rfl
  rw [report_keeps (v := p) rfl (by rw [← hv]; exact part) open_ evq (by rw [State.ring?, host]; exact ring)] at run
  refine ⟨_, run, (harts k).trans (if_pos rfl), by rw [← host]; rfl, _, keepError_last _ _, ?_⟩
  obtain ⟨cls, seq⟩ := full_fields { cls := 6, part := some L.part, die := dieOf k, unit := 3, pos := coreOf k, slot := slotOf k }
    v.time v.host.enext rfl
  rw [host] at seq
  exact ⟨cls, by rw [host]; exact seq⟩

end

end Sys2Proof.Machine
end

section
/-! A saved hart's record and its extension, read from the save area (R370, R371). -/

namespace Sys2Proof.Machine

open Sys2Proof

/-! ## Bytes of a save area -/

/-- R6: n bytes from an address. -/
def State.span (s : State) (part a : Nat) : Nat → List Byte
  | 0 => []
  | n + 1 => s.byteAt part a :: s.span part (a + 1) n

section
variable (s : State) (part : Nat)

theorem span_length (a n : Nat) : (s.span part a n).length = n := by
  induction n generalizing a with
  | zero => rfl
  | succ n ih => rw [State.span, List.length_cons, ih]

theorem span_add (a m n : Nat) : s.span part a (m + n) = s.span part a m ++ s.span part (a + m) n := by
  induction m generalizing a with
  | zero => rw [Nat.zero_add]; rfl
  | succ m ih => rw [show m + 1 + n = (m + n) + 1 by omega, State.span, ih, State.span, List.cons_append, show a + 1 + m = a + (m + 1) by omega]

theorem take_span {a m n : Nat} (h : m ≤ n) : (s.span part a n).take m = s.span part a m := by
  obtain ⟨k, rfl⟩ := Nat.exists_eq_add_of_le h
  rw [span_add, List.take_left' (span_length s part a m)]

theorem drop_span (a m n : Nat) : (s.span part a (m + n)).drop m = s.span part (a + m) n := by
  rw [span_add, List.drop_left' (span_length s part a m)]

theorem natOfBytes_span (a n : Nat) : natOfBytes (s.span part a n) = s.numAt part a n := by
  induction n generalizing a with
  | zero => rfl
  | succ n ih => rw [State.span, natOfBytes, ih, State.numAt]

theorem lineBytes_span {a n : Nat} (line : a % 128 + n ≤ 128) : lineBytes (s.llcData part a) (a % 128) n = s.span part a n := by
  induction n generalizing a with
  | zero => rfl
  | succ n ih =>
    rw [State.span, lineBytes, State.byteAt]
    congr 1
    cases n with
    | zero => rfl
    | succ n =>
      rw [← ih (a := a + 1) (by omega), State.llcData, State.llcData, lineKey, lineKey, show (a + 1) / 128 = a / 128 by omega,
        show (a + 1) % 128 = a % 128 + 1 by omega]

end

theorem span_of_mem {s t : State} (h : t.mem = s.mem) (part a n : Nat) : t.span part a n = s.span part a n := by
  induction n generalizing a with
  | zero => rfl
  | succ n ih => rw [State.span, State.span, ih, State.byteAt, State.byteAt, State.llcData, State.llcData, h]

/-- The first piece of a byte range ends with its line. -/
theorem linePieces_cons {a n : Nat} (pos : 0 < n) :
    linePieces a n = (a, min n (128 - a % 128)) :: linePieces (a + min n (128 - a % 128)) (n - min n (128 - a % 128)) := by
  generalize hm : min n (128 - a % 128) = m
  by_cases last : n = m
  · have one : (a + n - 1) / 128 - a / 128 + 1 = 1 := by omega
    rw [linePieces, if_neg (by omega), one, ← last, Nat.sub_self, linePieces, if_pos rfl]
    have piece : max a ((a / 128 + 0) * 128) = a ∧ min (a + n) ((a / 128 + 0 + 1) * 128) - a = n := by omega
    change [(max a ((a / 128 + 0) * 128), min (a + n) ((a / 128 + 0 + 1) * 128) - max a ((a / 128 + 0) * 128))] = _
    rw [piece.1, piece.2]
  · have lines : (a + n - 1) / 128 - a / 128 + 1 = ((a + m + (n - m) - 1) / 128 - (a + m) / 128 + 1) + 1 := by omega
    have next : (a + m) / 128 = a / 128 + 1 := by omega
    rw [linePieces, if_neg (by omega), lines, linePieces, if_neg (by omega), upTo, List.range_succ_eq_map, List.map_cons, List.map_map]
    congr 1
    · have piece : max a ((a / 128 + 0) * 128) = a ∧ min (a + n) ((a / 128 + 0 + 1) * 128) - a = m := by omega
      dsimp only
      rw [piece.1, piece.2]
    · refine List.map_congr_left fun i _ => ?_
      have low : max a ((a / 128 + (i + 1)) * 128) = max (a + m) (((a + m) / 128 + i) * 128) := by omega
      have high : min (a + n) ((a / 128 + (i + 1) + 1) * 128) = min (a + m + (n - m)) (((a + m) / 128 + i + 1) * 128) := by omega
      simp only [Function.comp_apply, Nat.succ_eq_add_one, low, high]

/-- One step of a read of a save area. -/
def areaStep (part : Nat) (r : Option (List Byte × State)) (q : Nat × Nat) : Option (List Byte × State) :=
  r.bind fun a => match a.2.readHome part q.1 q.2 with
    | .val b t => some (a.1 ++ b, t)
    | .no _ => none

theorem areaStep_stands {s : State} {part a n : Nat} (hs : s.standsAtHome part a) (line : a % 128 + n ≤ 128) (bs : List Byte) :
    areaStep part (some (bs, s)) (a, n) = some (bs ++ s.span part a n, s.cleanHdc part a none) := by
  rw [areaStep, Option.bind_some, readHome_stands n hs, lineBytes_span s part line]

theorem areaPieces_stand {part : Nat} (n : Nat) : ∀ (a : Nat) (s : State) (bs : List Byte), (∀ i, i < n → s.standsAtHome part (a + i)) →
    ∃ t, (linePieces a n).foldl (areaStep part) (some (bs, s)) = some (bs ++ s.span part a n, t) ∧ ReadsOnly s t := by
  induction n using Nat.strong_induction_on with
  | _ n ih =>
    intro a s bs stands
    by_cases zero : n = 0
    · subst zero
      exact ⟨s, by rw [State.span, List.append_nil]; rfl, .refl s, rfl⟩
    · have line := linePieces_cons (a := a) (Nat.pos_of_ne_zero zero)
      generalize hm : min n (128 - a % 128) = m at line
      have here := areaStep_stands (n := m) (stands 0 (Nat.pos_of_ne_zero zero)) (by omega) bs
      rw [Nat.add_zero] at here
      have only : ReadsOnly s (s.cleanHdc part a none) := ⟨cleanHdc_cachesMoved s part a none, cleanHdc_sameFlights s part a none⟩
      obtain ⟨t, read, rest⟩ := ih (n - m) (by omega) (a + m) (s.cleanHdc part a none) (bs ++ s.span part a m) fun i hi =>
        only.stands (by rw [Nat.add_assoc]; exact stands (m + i) (by omega))
      refine ⟨t, ?_, only.trans rest⟩
      have mem : (s.cleanHdc part a none).mem = s.mem := (congrArg State.mem only.caches.rest :)
      rw [line, List.foldl_cons, here, read, span_of_mem mem, List.append_assoc, ← span_add,
        Nat.add_sub_cancel' (by omega)]

/-- R368: bytes of a save area whose lines stand at home. -/
theorem areaRead_stands {s : State} {part a n : Nat} (stands : ∀ i, i < n → s.standsAtHome part (a + i)) :
    ∃ t, s.areaRead part a n = some (s.span part a n, t) ∧ ReadsOnly s t := by
  obtain ⟨t, read, only⟩ := areaPieces_stand n a s [] stands
  exact ⟨t, read, only⟩

/-! ## Fields of a record (R371) -/

/-- R6: bits of the number that bytes stand for, where they are whole bytes. -/
theorem numAt_bits (s : State) (part a : Nat) {i m n : Nat} (h : i + m ≤ n) :
    s.numAt part a n / 2 ^ (8 * i) % 2 ^ (8 * m) = s.numAt part (a + i) m := by
  have word (j : Nat) : 2 ^ (8 * j) = 256 ^ j := by rw [Nat.pow_mul]
  rw [word, word, numAt_div_mod s part a h]

theorem numAt_field (s : State) (part a : Nat) {lo w i m n : Nat} (hlo : lo = 8 * i) (hw : w = 8 * m) (h : i + m ≤ n) :
    s.numAt part a n / 2 ^ lo % 2 ^ w = s.numAt part (a + i) m := by
  rw [hlo, hw, numAt_bits s part a h]

/-- R6: one bit of the number that bytes stand for. -/
theorem testBit_numAt (s : State) (part a : Nat) {i j n : Nat} (hi : i < n) (hj : j < 8) :
    (s.numAt part a n).testBit (8 * i + j) = (s.byteAt part (a + i)).getLsbD j := by
  have byte := numAt_bits s part a (i := i) (m := 1) (n := n) (by omega)
  rw [State.numAt, State.numAt, Nat.mul_zero, Nat.add_zero] at byte
  rw [BitVec.getLsbD, ← byte, Nat.testBit_mod_two_pow, Nat.testBit_div_two_pow, decide_eq_true (by omega : j < 8 * 1), Bool.true_and,
    Nat.add_comm]

/-- R6: the low two bits of a 64-bit word cleared. -/
theorem ofNat_and_not_three (n : Nat) : BitVec.ofNat 64 n &&& ~~~3 = BitVec.ofNat 64 (n / 4 * 4) := by
  rw [show ~~~(3 : DWord) = ~~~BitVec.ofNat 64 (2 ^ 2 - 1) from rfl, ← div_mul_two_pow _ 2 (by decide)]
  refine BitVec.eq_of_toNat_eq ?_
  rw [BitVec.toNat_mul, BitVec.toNat_udiv, BitVec.toNat_ofNat, BitVec.toNat_ofNat, BitVec.toNat_ofNat,
    show 2 ^ 2 % 2 ^ 64 = 4 from rfl]
  omega

/-! ## The lane registers of a record -/

/-- R371: one word of a list of lane registers, of which those that hold 0 are left out. -/
def listedWord (w : Nat → Nat) (n : Nat) : Option (Nat × Word) := if w n = 0 then none else some (n, BitVec.ofNat 32 (w n))

theorem foldl_listed (w : Nat → Nat) (ns : List Nat) (acc : List (Nat × Word)) :
    ns.foldl (fun acc n => if w n = 0 then acc else (n, BitVec.ofNat 32 (w n)) :: acc) acc = (ns.filterMap (listedWord w)).reverse ++ acc := by
  induction ns generalizing acc with
  | nil => rfl
  | cons n ns ih =>
    rw [List.foldl_cons, ih, List.filterMap_cons, listedWord]
    split
    · rfl
    · rw [List.reverse_cons, List.append_assoc]; rfl

theorem mem_listed {w : Nat → Nat} {N : Nat} {e : Nat × Word} :
    e ∈ (List.range N).filterMap (listedWord w) ↔ e.1 < N ∧ w e.1 ≠ 0 ∧ e.2 = BitVec.ofNat 32 (w e.1) := by
  rw [List.mem_filterMap]
  constructor
  · rintro ⟨n, hn, hit⟩
    unfold listedWord at hit
    split at hit
    · cases hit
    · next nonzero => cases hit; exact ⟨List.mem_range.1 hn, nonzero, rfl⟩
  · rintro ⟨hn, nonzero, word⟩
    exact ⟨e.1, List.mem_range.2 hn, by rw [listedWord, if_neg nonzero, ← word]⟩

theorem sorted_listed (w : Nat → Nat) (N : Nat) : Map.sorted ((List.range N).filterMap (listedWord w)) = true := by
  rw [Map.sorted_iff_pairwise, List.pairwise_filterMap]
  refine List.pairwise_lt_range.imp fun {a b} less e he f hf => ?_
  unfold listedWord at he hf
  split at he <;> split at hf <;> cases he <;> cases hf
  exact less

theorem findD_listed (w : Nat → Nat) {N j : Nat} (hj : j < N) :
    Map.findD ((List.range N).filterMap (listedWord w)) j 0 = BitVec.ofNat 32 (w j) := by
  rw [Map.findD]
  by_cases zero : w j = 0
  · cases found : Map.find ((List.range N).filterMap (listedWord w)) j with
    | none => rw [zero]; rfl
    | some a => exact absurd zero (mem_listed.1 (Map.mem_of_find found)).2.1
  · have there : (j, BitVec.ofNat 32 (w j)) ∈ (List.range N).filterMap (listedWord w) := mem_listed.2 ⟨hj, zero, rfl⟩
    rw [Map.find_of_mem (sorted_listed w N) there]
    rfl

/-! ## The hart that a record stands for (R368, R371) -/

theorem getD_ofFn {α : Type} {n i : Nat} (f : Fin n → α) (hi : i < n) (d : α) : (Vector.ofFn f).getD i d = f ⟨i, hi⟩ := by
  simp [Vector.getD, hi]

/-- R371: the hart of a record at `a` and an extension at `annex`, with every register live. -/
def State.recordHart (s : State) (part a annex : Nat) (base : Hart) (now : Nat) : Hart :=
  (base.load (s.numAt part a 1024) (s.numAt part annex 128) (s.span part (a + 1024) 16384) now).onlyLive (2 ^ 32 - 1) (2 ^ 64 - 1) (2 ^ 12 - 1)

section
variable (s : State) (part a annex : Nat) (base : Hart) (now : Nat)

theorem recordHart_pc : (s.recordHart part a annex base now).pc = BitVec.ofNat 64 (s.numAt part a 8 / 4 * 4) := by
  have word := numAt_bits s part a (i := 0) (m := 8) (n := 1024) (by decide)
  change BitVec.ofNat 64 (s.numAt part a 1024 / 2 ^ 2 % 2 ^ 62 * 4) = _
  rw [Nat.add_zero] at word
  rw [← word]
  congr 1
  omega

theorem recordHart_priv :
    (s.recordHart part a annex base now).priv = if (s.byteAt part (a + 1016)).getLsbD 6 then .S else .U := by
  change (if (s.numAt part a 1024).testBit (8 * 1016 + 6) then Priv.S else .U) = _
  rw [testBit_numAt s part a (by decide) (by decide)]

theorem recordHart_getX (r : BitVec 5) : (s.recordHart part a annex base now).getX r =
    if r = 0 then 0 else BitVec.ofNat 64 (s.numAt part (a + 8 * r.toNat) 8) := by
  rw [Hart.getX]
  refine ite_congr rfl (fun _ => rfl) fun hr => ?_
  have nonzero : r.toNat ≠ 0 := fun e => hr (BitVec.eq_of_toNat_eq e)
  have live : (2 ^ 32 - 1).testBit r.toNat = true := by rw [Nat.testBit_two_pow_sub_one]; exact decide_eq_true r.isLt
  rw [← numAt_field s part a (lo := 64 * r.toNat) (w := 64) (n := 1024) (by omega) rfl (by omega)]
  simp only [State.recordHart, Hart.onlyLive, Hart.load, Vector.getElem_ofFn, Fin.getElem_fin, live, if_true, nonzero, if_false]

theorem recordHart_getP {k : Nat} (hk : k < 12) :
    (s.recordHart part a annex base now).getP k = BitVec.ofNat 32 (s.numAt part (a + (256 + 4 * k)) 4) := by
  have live : (2 ^ 12 - 1).testBit k = true := by rw [Nat.testBit_two_pow_sub_one]; exact decide_eq_true hk
  rw [← numAt_field s part a (lo := 2048 + 32 * k) (w := 32) (n := 1024) (by omega) rfl (by omega), Hart.getP]
  simp only [State.recordHart, Hart.onlyLive, Hart.load, getD_ofFn _ hk, Vector.getElem_ofFn, Fin.getElem_fin, live, if_true]

/-- R371: the n-th word of the lane registers of a record. -/
def State.recordWord (s : State) (part a n : Nat) : Nat := natOfBytes (((s.span part (a + 1024) 16384).drop (4 * n)).take 4)

theorem recordWord_eq {n : Nat} (hn : n < 2048) : s.recordWord part a n = s.numAt part (a + (1024 + 4 * n)) 4 := by
  have bytes : s.span part (a + 1024) 16384 = s.span part (a + 1024) (4 * n + (16384 - 4 * n)) := by
    rw [Nat.add_sub_cancel' (by omega)]
  rw [State.recordWord, bytes, drop_span, take_span _ _ (by omega), natOfBytes_span, Nat.add_assoc]

theorem recordHart_v : (s.recordHart part a annex base now).lanes.v = (List.range 2048).filterMap (listedWord (s.recordWord part a)) := by
  have words : (fun n => natOfBytes (((s.span part (a + 1024) 16384).drop (4 * n)).take 4)) = s.recordWord part a := rfl
  simp only [State.recordHart, Hart.onlyLive, Hart.load, upTo]
  rw [foldl_listed fun n => natOfBytes (((s.span part (a + 1024) 16384).drop (4 * n)).take 4), words, List.append_nil,
    List.reverse_reverse, List.filter_eq_self]
  intro e he
  have small := (mem_listed.1 he).1
  rw [Nat.testBit_two_pow_sub_one]
  exact decide_eq_true (by omega)

theorem recordHart_getV {n l : Nat} (hn : n < 64) (hl : l < 32) :
    (s.recordHart part a annex base now).getV n l = BitVec.ofNat 32 (s.numAt part (a + (1024 + 128 * n + 4 * l)) 4) := by
  rw [Hart.getV, recordHart_v, findD_listed _ (by omega), recordWord_eq s part a (by omega),
    show 1024 + 4 * (n * 32 + l) = 1024 + 128 * n + 4 * l by omega]

theorem recordHart_sepc : (s.recordHart part a annex base now).csr.sepc = BitVec.ofNat 64 (s.numAt part (a + 944) 8 / 4 * 4) := by
  rw [← ofNat_and_not_three, ← numAt_field s part a (lo := 7552) (w := 64) (n := 1024) rfl rfl (by decide)]
  rfl

theorem recordHart_stvec : (s.recordHart part a annex base now).csr.stvec = BitVec.ofNat 64 (s.numAt part (a + 976) 8 / 4 * 4) := by
  rw [← ofNat_and_not_three, ← numAt_field s part a (lo := 7808) (w := 64) (n := 1024) rfl rfl (by decide)]
  rfl

theorem recordHart_satp :
    (s.recordHart part a annex base now).csr.satp = satpWrite base.csr.satp (BitVec.ofNat 64 (s.numAt part (a + 968) 8)) := by
  rw [← numAt_field s part a (lo := 7744) (w := 64) (n := 1024) rfl rfl (by decide)]
  rfl

theorem recordHart_minstret : (s.recordHart part a annex base now).csr.minstret = BitVec.ofNat 64 (s.numAt part (annex + 8) 8) := by
  rw [← numAt_field s part annex (lo := 64) (w := 64) (n := 128) rfl rfl (by decide)]
  rfl

end

end Sys2Proof.Machine
end

section
/-! A saved unit of one hart restored (R127, R368). -/

namespace Sys2Proof.Machine

open Sys2Proof

/-! ## The hart loaded (R368) -/

/-- R91, R127: the place of a restored hart in its launch. -/
def SavedHart.role (sv : SavedHart) (l : Nat) (L : Launch) : Role where
  launch := some l
  part := L.part
  hidx := sv.hidx
  unit := sv.unit
  member := sv.member
  slice := sv.slice
  steps := sv.steps

/-- R371: the hart of the record of a saved hart, with every register live. -/
def State.savedHart (s : State) (l : Nat) (L : Launch) (q : Queue) (stopped : Bool) (sv : SavedHart) : Hart :=
  s.recordHart L.part sv.addr sv.annex (L.newHart q (sv.role l L) stopped s.now) s.now

/-- R96, R105: a restored hart's lanes with the timestamps of their items. -/
def Hart.stamped (g : Hart) (L : Launch) : Hart := { g with
  lanes := { g.lanes with ts := Vector.ofFn (fun (i : Fin 32) =>
    if g.lanes.occ.getLsbD i.val then BitVec.ofNat 64 (L.laneTs (g.lanes.item[i]).toNat) else 0) } }

/-- R368: a restored hart without jobs or locks; it issues 272 cycles later. -/
def Hart.restarted (g : Hart) (sv : SavedHart) (stopped : Bool) (now : Nat) : Hart := { g with
  run := { g.run with
    relock := [], stoppedJobs := [], doneJobs := [], lent := [], yielded := sv.parkedOn, amber := stopped, busyUntil := now + 272 } }

/-- R368, R371: the hart restored from a record without jobs or locks, with every register live. -/
def State.restoredHart (s : State) (l : Nat) (L : Launch) (q : Queue) (stopped : Bool) (sv : SavedHart) : Hart :=
  ((s.savedHart l L q stopped sv).stamped L).restarted sv stopped s.now

/-- R371: a record without locks. -/
theorem extLocks_of_none {ext : Nat} (none : ∀ i, i < 4 → ext.testBit (176 + 8 * i + 7) = false) : extLocks ext = [] := by
  refine List.filterMap_eq_nil_iff.2 fun i hi => ?_
  rw [none i (List.mem_range.1 hi)]
  rfl

/-- R368, R371: a saved hart, every register of which is live, and whose record and extension stand at home without jobs or locks. -/
structure SavedHart.Stands (s : State) (part : Nat) (sv : SavedHart) : Prop where
  liveX : sv.liveX = 2 ^ 32 - 1
  liveV : sv.liveV = 2 ^ 64 - 1
  liveP : sv.liveP = 2 ^ 12 - 1
  record : ∀ i, i < 17408 → s.standsAtHome part (sv.addr + i)
  annex : ∀ i, i < 128 → s.standsAtHome part (sv.annex + i)
  valid : (s.byteAt part sv.addr).getLsbD 0 = true
  locks : ∀ i, i < 4 → (s.byteAt part (sv.annex + 22 + i)).getLsbD 7 = false

theorem SavedHart.Stands.of_mem {s t : State} {part : Nat} {sv : SavedHart} (r : sv.Stands s part)
    (stands : ∀ a, s.standsAtHome part a → t.standsAtHome part a) (mem : t.mem = s.mem) : sv.Stands t part := by
  have byte (a : Nat) : t.byteAt part a = s.byteAt part a := by simp only [State.byteAt, State.llcData, mem]
  exact ⟨r.liveX, r.liveV, r.liveP, fun i hi => stands _ (r.record i hi), fun i hi => stands _ (r.annex i hi),
    by rw [byte]; exact r.valid, fun i hi => by rw [byte]; exact r.locks i hi⟩

/-- R368: a launch holds the record of a restored hart no longer. -/
structure Regains (sv : SavedHart) (M N : Launch) : Prop where
  saved : N.saved = M.saved.filter (fun h => h.hidx != sv.hidx)
  next : N.next = M.next
  exited : N.exited = M.exited

/-- R368: a restored hart put in its slot, its launch changed. -/
def State.putRestored (s : State) (l k : Nat) (f : Launch → Launch) (h : Hart) (sv : SavedHart) : State :=
  (((((s.setHart k h).modCore sv.core (fun c => { c with inboxSaved := false })).modCore (coreOf k) (fun c => { c with
    inbox := c.inbox ++ sv.inbox.map (fun m => if m.slot = sv.slot then { m with slot := slotOf k } else m), inboxSaved := false })).modLaunch
    l f).acquire (coreOf k) scC).relock k 5

theorem loadSaved_stands {s : State} {l k : Nat} {L : Launch} {q : Queue} {stopped : Bool} {sv : SavedHart}
    (r : sv.Stands s L.part) (sections : L.sections = []) : ∃ u f, ReadsOnly s u ∧ (∀ M, Regains sv M (f M)) ∧
      s.loadSaved l k L q stopped sv = some (u.putRestored l k f (s.restoredHart l L q stopped sv) sv) := by
  obtain ⟨u1, record, only1⟩ := areaRead_stands r.record
  obtain ⟨u2, annex, only2⟩ := areaRead_stands (s := u1) fun i hi => only1.stands (r.annex i hi)
  have mem : u1.mem = s.mem := (congrArg State.mem only1.caches.rest :)
  rw [span_of_mem mem] at annex
  have head : natOfBytes ((s.span L.part sv.addr 17408).take 1024) = s.numAt L.part sv.addr 1024 := by
    rw [take_span _ _ (by decide), natOfBytes_span]
  have bulk : (s.span L.part sv.addr 17408).drop 1024 = s.span L.part (sv.addr + 1024) 16384 := drop_span s L.part sv.addr 1024 16384
  have valid : (s.numAt L.part sv.addr 1024).testBit 0 = true :=
    (testBit_numAt s L.part sv.addr (i := 0) (j := 0) (by decide) (by decide)).trans r.valid
  have locks : extLocks (s.numAt L.part sv.annex 128) = [] := extLocks_of_none fun i hi => by
    rw [show 176 + 8 * i + 7 = 8 * (22 + i) + 7 by omega, testBit_numAt s L.part sv.annex (by omega) (by decide), ← Nat.add_assoc]
    exact r.locks i hi
  rw [State.loadSaved, record, Option.bind_some, annex, Option.bind_some, State.restoredHart, State.savedHart, State.recordHart, ← head,
    ← bulk, ← natOfBytes_span]
  rw [← head] at valid
  rw [← natOfBytes_span] at locks
  generalize s.span L.part sv.addr 17408 = bytes at valid ⊢
  generalize s.span L.part sv.annex 128 = ext at locks ⊢
  refine ⟨u2, ?_, only1.trans only2, ?_, (if_neg ?_).trans ?_⟩
  rotate_left 2
  · rw [valid]
    decide
  · rw [sections, r.liveX, r.liveV, r.liveP, locks]
    rfl
  · exact fun M => ⟨rfl, rfl, rfl⟩

/-- R189: no hart has a stopped job. -/
def NoneStopped (s : State) : Prop := ∀ e ∈ s.harts, e.2.run.stoppedJobs = []

theorem reinstateAll_of_noneStopped {s : State} (none : NoneStopped s) (cl n : Nat) : s.reinstateAll cl n = s := by
  cases n with
  | zero => rfl
  | succ n =>
    refine if_neg fun c => ?_
    obtain ⟨e, he, hw⟩ := List.any_eq_true.1 c
    simp [Hart.wantsEntries, none e he] at hw

/-- R368: a hart restored in its slot, and its launch. -/
structure Restores (s t : State) (l k : Nat) (h : Hart) (f : Launch → Launch) : Prop where
  hart : t.hart? k = some h
  others : ∀ j, j ≠ k → t.hart? j = s.hart? j
  launch : t.launch? l = (s.launch? l).map f
  stopped : NoneStopped s → NoneStopped t
  mem : t.mem = s.mem

/-- R154, R189: a hart that does not wait for its locks and jobs is not ended in that wait. -/
theorem endReinstate_restores {s u : State} {l k : Nat} {h : Hart} {f : Launch → Launch} (r : Restores s u l k h f)
    (wait : h.run.wait = none) : Restores s (u.endReinstate k) l k h f := by
  refine ⟨?_, fun j hj => ?_, r.launch, fun none e he => ?_, r.mem⟩
  · rw [State.endReinstate, State.hart?_modHarts, r.hart, Option.map_some]
    simp [wait]
  · rw [State.endReinstate, State.hart?_modHarts, r.others j hj]
    simp [hj]
  · obtain ⟨x, hx, rfl⟩ := List.mem_map.1 he
    have there := r.stopped none x hx
    dsimp only
    split
    · exact there
    · exact there

theorem putRestored_restores (s : State) (l k : Nat) (f : Launch → Launch) {h : Hart} (sv : SavedHart) (wait : h.run.wait = none)
    (relock : h.run.relock = []) (stopped : h.run.stoppedJobs = []) : Restores s (s.putRestored l k f h sv) l k h f := by
  unfold State.putRestored
  generalize hv : ((s.setHart k h).modCore sv.core fun c => { c with inboxSaved := false }).modCore (coreOf k) _ = v
  have placed : { v with cores := s.cores } = s.setHart k h := by rw [← hv]; rfl
  have harts : v.harts = (s.setHart k h).harts := (congrArg State.harts placed :)
  have launches : v.launches = s.launches := (congrArg State.launches placed :)
  obtain ⟨ls, e⟩ := v.modLaunch_eq l f
  have found := v.launch?_modLaunch l l f
  generalize hw : (v.modLaunch l f).acquire (coreOf k) scC = w
  have rest : { w with cores := v.cores, launches := v.launches } = v := by rw [← hw, e]; rfl
  have r : Restores s w l k h f := by
    have wharts : w.harts = (s.setHart k h).harts := (congrArg State.harts rest :).trans harts
    refine ⟨?_, fun j hj => ?_, ?_, fun none x hx => ?_, ?_⟩
    · rw [State.hart?, wharts]
      exact State.hart?_setHart_same s k h
    · rw [State.hart?, wharts]
      exact (State.hart?_setHart s k j h).trans (if_neg hj)
    · rw [if_pos rfl] at found
      rw [← hw]
      refine Eq.trans ?_ (found.trans (by rw [State.launch?, launches, State.launch?]))
      rfl
    · rw [wharts] at hx
      obtain rfl | old := Map.mem_put _ _ _ _ hx
      · exact stopped
      · exact none x old
    · exact (congrArg State.mem rest :).trans (congrArg State.mem placed :)
  have ended : w.relock k 5 = w.endReinstate k := by simp only [State.relock, r.hart, relock]
  rw [ended]
  exact endReinstate_restores r wait

theorem Restores.of_before {s u t : State} {l k : Nat} {h : Hart} {f f0 : Launch → Launch} (harts : u.harts = s.harts) (mem : u.mem = s.mem)
    (launch : u.launch? l = (s.launch? l).map f0) (r : Restores u t l k h f) : Restores s t l k h (f ∘ f0) := by
  refine ⟨r.hart, fun j hj => ?_, ?_, fun none => r.stopped ?_, r.mem.trans mem⟩
  · rw [r.others j hj, State.hart?, harts, State.hart?]
  · rw [r.launch, launch, Option.map_map]
  · rw [NoneStopped, harts]
    exact none

theorem Restores.plans {s t u : State} {l k : Nat} {h : Hart} {f : Launch → Launch} (r : Restores s t l k h f) (plans : PlansOnly t u) :
    Restores s u l k h f := by
  rw [plans.eq_with]
  exact ⟨r.hart, r.others, r.launch, r.stopped, r.mem⟩

theorem restoredHart_of_mem {s t : State} (mem : t.mem = s.mem) (now : t.now = s.now) (l : Nat) (L : Launch) (q : Queue) (stopped : Bool)
    (sv : SavedHart) : t.restoredHart l L q stopped sv = s.restoredHart l L q stopped sv := by
  rw [State.restoredHart, State.savedHart, State.recordHart, numAt_of_mem mem, numAt_of_mem mem, span_of_mem mem, now]
  rfl

/-! ## HART_RESTORE (R127, R368) -/

/-- R126: a launch, the sections of a unit forgotten. -/
def Launch.forgetSections (unit : Nat) (M : Launch) : Launch := { M with
  sections := M.sections.filter (fun e => e.1.2.1 != unit), savedTiles := M.savedTiles.filter (fun x => x.1 != unit) }

/-- R373: a launch, the barriers kept of a unit forgotten. -/
def Launch.forgetBarriers (unit : Nat) (M : Launch) : Launch := { M with barriers := M.barriers.filter (fun b => b.unit != unit) }

theorem loadSections_of_none {L : Launch} (none : L.sections = []) (s : State) (l unit : Nat) (u : List Place) :
    s.loadSections l unit L u = some (s.modLaunch l (Launch.forgetSections unit)) := by
  unfold State.loadSections
  rw [none]
  rfl

theorem loadBarriers_of_none {L : Launch} (none : L.sections = []) (s : State) (l unit : Nat) (hs : List SavedHart) (u : List Place)
    (place : Nat → Nat) : s.loadBarriers l unit L hs u place = some (s.modLaunch l (Launch.forgetBarriers unit)) := by
  unfold State.loadBarriers
  rw [none]
  rfl

theorem savedPlaces_one (sv : SavedHart) (core slot : Nat) : savedPlaces [sv] [⟨core, [slot]⟩] = [(sv, core * 16 + slot)] := by
  have one : [sv.member].eraseDups = [sv.member] := rfl
  simp [savedPlaces, one]

theorem savedUnit_one {L : Launch} {sv : SavedHart} (saved : L.saved = [sv]) : L.savedUnit = some (sv.unit, [sv]) := by
  rw [Launch.savedUnit, saved]
  simp

/-- R127, R368: the saved unit of one hart of a served launch, and the slot chosen for it. -/
structure Restorable (s : State) (hd : Head) (core slot : Nat) (q : Queue) (p : Part) (sv : SavedHart) : Prop where
  nats : s.arg.nats = [hd.launch]
  places : s.arg.places = []
  served : s.served.1.find? (fun h => h.launch == hd.launch) = some hd
  launch : s.launch? hd.launch = some hd.l
  saved : hd.l.saved = [sv]
  sections : hd.l.sections = []
  part : hd.part = hd.l.part
  queue : s.queue? hd.part hd.q = some q
  hasPart : s.part? hd.part = some p
  reachable : s.waitsDie hd.part = false
  fits : (s.fits hd.launch hd.l true).head? = some [⟨core, [slot]⟩]
  stands : sv.Stands s hd.l.part
  stopped : NoneStopped s

section
variable {s : State} {hd : Head} {core slot : Nat} {q : Queue} {p : Part} {sv : SavedHart}

/-- R88, R126, R373: the state in which the record of a unit is read: its queue charged, its sections and barriers forgotten. -/
def State.beforeRestore (s : State) (hd : Head) (unit : Nat) : State :=
  ((s.takeTurn hd.part hd.q 1).modLaunch hd.launch (Launch.forgetSections unit)).modLaunch hd.launch (Launch.forgetBarriers unit)

theorem beforeRestore_eq (hq : s.queue? hd.part hd.q = some q) (unit : Nat) : ∃ qs sch ls,
    s.beforeRestore hd unit = { s with queues := qs, schedule := sch, launches := ls } ∧
      Map.find ls hd.launch = (s.launch? hd.launch).map (Launch.forgetBarriers unit ∘ Launch.forgetSections unit) := by
  obtain ⟨qs, sch, -, turn, -, -⟩ := takeTurn_eq (n := 1) hq
  rw [State.beforeRestore, turn]
  generalize hu : ({ s with queues := qs, schedule := sch } : State) = u
  obtain ⟨ls1, e1⟩ := u.modLaunch_eq hd.launch (Launch.forgetSections unit)
  obtain ⟨ls2, e2⟩ := (u.modLaunch hd.launch (Launch.forgetSections unit)).modLaunch_eq hd.launch (Launch.forgetBarriers unit)
  have found := (u.modLaunch hd.launch (Launch.forgetSections unit)).launch?_modLaunch hd.launch hd.launch (Launch.forgetBarriers unit)
  have launches : u.launch? hd.launch = s.launch? hd.launch := by rw [← hu]; rfl
  rw [if_pos rfl, u.launch?_modLaunch, if_pos rfl, launches, Option.map_map] at found
  rw [e2, e1] at found ⊢
  exact ⟨qs, sch, ls2, by rw [← hu], found⟩

theorem Restorable.restores (c : Restorable s hd core slot q p sv) :
    ∃ t f, exec .hartRestore s = .next t ∧ (∀ M, Regains sv M (f M)) ∧
      Restores s t hd.launch (core * 16 + slot) (s.restoredHart hd.launch hd.l q p.stopped sv) f := by
  have at0 : s.arg.nat 0 = hd.launch := by rw [EventArgs.nat, c.nats, List.getD_cons_zero]
  obtain ⟨qs, sch, ls, frame, launch⟩ := beforeRestore_eq c.queue sv.unit
  generalize hv : s.beforeRestore hd sv.unit = v at frame
  have stands : sv.Stands v hd.l.part := c.stands.of_mem (fun a hs => by rw [frame]; exact hs) (by rw [frame])
  obtain ⟨u, f, only, regains, loaded⟩ := loadSaved_stands (l := hd.launch) (k := core * 16 + slot) (q := q) (stopped := p.stopped)
    stands c.sections
  rw [restoredHart_of_mem (s := s) (by rw [frame]) (by rw [frame])] at loaded
  generalize hg : s.restoredHart hd.launch hd.l q p.stopped sv = g at loaded ⊢
  have put : Restores s (u.putRestored hd.launch (core * 16 + slot) f g sv) hd.launch (core * 16 + slot) g _ :=
    .of_before (f0 := Launch.forgetBarriers sv.unit ∘ Launch.forgetSections sv.unit) (by rw [only.eq_with, frame])
      (by rw [only.eq_with, frame]) (by rw [only.eq_with, frame]; exact launch)
      (putRestored_restores u hd.launch (core * 16 + slot) f sv (hg ▸ rfl) (hg ▸ rfl) (hg ▸ rfl))
  have run : exec .hartRestore s = .next (((((u.putRestored hd.launch (core * 16 + slot) f g sv).reinstateAll
      (clusterOf (core * 16 + slot)) 64).checkBarrier (core * 16 + slot) hd.launch sv.unit sv.member false true).checkBarrier
      (core * 16 + slot) hd.launch sv.unit 0 true true).kickDispatch) := by
    change execHartRestore s = _
    rw [State.beforeRestore] at hv
    simp only [execHartRestore, at0, c.served, savedUnit_one c.saved, c.queue, c.hasPart, c.reachable, c.places, c.fits, savedPlaces_one,
      loadSections_of_none c.sections, loadBarriers_of_none c.sections, Option.bind_some, List.foldl_cons, List.foldl_nil, hv, loaded,
      List.map_cons, List.map_nil, Bool.false_eq_true, if_false]
    rfl
  rw [reinstateAll_of_noneStopped (put.stopped c.stopped)] at run
  exact ⟨_, f ∘ Launch.forgetBarriers sv.unit ∘ Launch.forgetSections sv.unit, run,
    fun M => ⟨(regains _).saved, (regains _).next, (regains _).exited⟩,
    ((put.plans (checkBarrier_plansOnly _ _ _ _ _ _ _)).plans (checkBarrier_plansOnly _ _ _ _ _ _ _)).plans (kickDispatch_plansOnly _)⟩

end

/-! ## What a restored hart holds (R368, R371) -/

/-- R75, R371: the `satp` of a restored hart: that of its record, or of its queue. -/
theorem satpWrite_over (v w : DWord) : satpWrite (satpWrite 0 w) v =
    if satpMode v ∈ [0, 9, 10, 14] then v else if satpMode w ∈ [0, 9, 10, 14] then w else 0 := by
  simp only [satpWrite, List.mem_cons, List.not_mem_nil, or_false]

/-- R96, R368: what a restored hart holds of its record. -/
structure Hart.HoldsOf (h g : Hart) : Prop where
  pc : h.pc = g.pc
  priv : h.priv = g.priv
  x : ∀ r, h.getX r = g.getX r
  p : ∀ k, h.getP k = g.getP k
  v : ∀ n l, h.getV n l = g.getV n l
  csr : h.csr = g.csr
  role : h.role.launch = g.role.launch ∧ h.role.part = g.role.part

theorem Hart.HoldsOf.trans {h g k : Hart} (h1 : h.HoldsOf g) (h2 : g.HoldsOf k) : h.HoldsOf k :=
  ⟨h1.pc.trans h2.pc, h1.priv.trans h2.priv, fun r => (h1.x r).trans (h2.x r), fun k => (h1.p k).trans (h2.p k),
    fun n l => (h1.v n l).trans (h2.v n l), h1.csr.trans h2.csr, h1.role.1.trans h2.role.1, h1.role.2.trans h2.role.2⟩

theorem holdsOf_of_ts (g : Hart) (ts : Vector DWord 32) : ({ g with lanes := { g.lanes with ts := ts } } : Hart).HoldsOf g :=
  ⟨rfl, rfl, fun _ => rfl, fun _ => rfl, fun _ _ => rfl, rfl, rfl, rfl⟩

theorem holdsOf_of_run (g : Hart) (r : Run) : ({ g with run := r } : Hart).HoldsOf g :=
  ⟨rfl, rfl, fun _ => rfl, fun _ => rfl, fun _ _ => rfl, rfl, rfl, rfl⟩

theorem restarted_holdsOf (g : Hart) (L : Launch) (sv : SavedHart) (stopped : Bool) (now : Nat) :
    ((g.stamped L).restarted sv stopped now).HoldsOf g := by
  have stamped : (g.stamped L).HoldsOf g := by
    unfold Hart.stamped
    exact holdsOf_of_ts g _
  refine Hart.HoldsOf.trans ?_ stamped
  unfold Hart.restarted
  exact holdsOf_of_run _ _

end Sys2Proof.Machine

namespace Sys2Proof.Proofs

open Sys2Proof Sys2Proof.Machine

/-- Settles O50: a pre-empted hart enters the thread-context cache, its record is written or lost, and a saved hart is restored. -/
theorem hartsSavedAndRestored : Obligations.HartsSavedAndRestored := by
  unfold Obligations.HartsSavedAndRestored
  refine ⟨⟨?_, ?_⟩, ?_⟩
  · intro s k l h L p m sorted hk role hl gang items hp preempt locks quiet room idle others stopped saved
    have only : OnlyAwaits s (coreOf k) k := fun j g hj other there => Bool.eq_false_iff.2 fun asks => by
      obtain ⟨x, v, q, wait⟩ := (awaitsEntry_iff g).1 asks
      exact (others j g hj other there).2 x v q wait
    have c : Preempted s k l h L := ⟨sorted, hk, role, hl, gang, items, preempt, locks, quiet, idle,
      fun j g hj => stopped (j, g) (Map.mem_of_find hj), room, only⟩
    have sealing : s.sealedHart h = p.sealed_ := by rw [State.sealedHart, hp]
    refine ⟨fun nats open_ wait halted entering second spawn due masks => ?_, fun nats sealed_ alone wait => ?_⟩
    · exact hartSave_begins c nats (sealing.trans open_) wait
        (by simp [Hart.atBoundary, wait, halted, entering, second, due]) spawn masks
    · exact sealedCoreSave_begins c nats (sealing.trans sealed_)
        (fun j g hj other there => by rw [alone j other there] at hj; cases hj) wait
  · intro s k l o x v q h L p nats hk wait role hl hp reachable order
    have c : Spilling s k l h L p o ⟨x, v, q⟩ := ⟨nats, hk, wait, role, hl, hp, reachable, order⟩
    refine ⟨fun u sv M spilt hs hM => c.leaves spilt hs hM, fun lost evq part open_ ring others hs => ?_⟩
    refine c.stays lost evq part open_ ring (fun j g hj _ there => Bool.eq_false_iff.2 fun asks => ?_) hs
    obtain ⟨x, v, q, wait⟩ := (awaitsEntry_iff g).1 asks
    exact others j g hj there x v q wait
  · intro s hd core slot q p sv nats places served launch saved sections _ _ part _ queue hasPart reachable fits liveX liveV liveP _
      stopped _ _ _ _ _ record annex valid locks
    have c : Restorable s hd core slot q p sv := ⟨nats, places, served, launch, saved, sections, part, queue, hasPart, reachable, fits,
      ⟨liveX, liveV, liveP, record, annex, valid, locks⟩, stopped⟩
    obtain ⟨t, f, run, regains, r⟩ := c.restores
    have holds : (s.restoredHart hd.launch hd.l q p.stopped sv).HoldsOf (s.savedHart hd.launch hd.l q p.stopped sv) := restarted_holdsOf ..
    rw [State.savedHart] at holds
    refine ⟨t, _, run, r.hart, r.others, ⟨f hd.l, by rw [r.launch, launch]; rfl, ?_, (regains _).next, (regains _).exited⟩,
      holds.pc.trans (recordHart_pc ..), holds.priv.trans (recordHart_priv ..), fun x hx => ?_, ?_, fun k hk => ?_, fun n l hn hl => ?_,
      ?_, ?_, ?_, ?_, holds.role.1, holds.role.2, rfl, rfl, r.mem⟩
    · rw [(regains _).saved, saved]
      simp
    · rw [holds.x, recordHart_getX, if_neg hx]
    · rw [holds.x, recordHart_getX, if_pos rfl]
    · rw [holds.p, recordHart_getP _ _ _ _ _ _ hk]
    · rw [holds.v, recordHart_getV _ _ _ _ _ _ hn hl]
    · rw [holds.csr, recordHart_sepc]
    · rw [holds.csr, recordHart_stvec]
    · rw [holds.csr, recordHart_satp]
      exact satpWrite_over _ _
    · rw [holds.csr, recordHart_minstret]

end Sys2Proof.Proofs
end
